-- ==== Sys2Proof/Word.lean ====
section
/-! DEFINITION. The word types of the FX-L9 and the plainest arithmetic on them.

Bit vectors are kept for what the manual treats as bits (registers, handles, memory words,
check values); counts, indexes and times are `Nat`, exact arithmetic is `Int`. -/

namespace Sys2Proof

/-- One byte. -/
abbrev Byte := BitVec 8
/-- A 32-bit register or scratchpad word. -/
abbrev W32 := BitVec 32
/-- A 64-bit register, handle or signature. -/
abbrev W64 := BitVec 64

/-- Bits `[lo + len - 1 : lo]` of `n` as a number. -/
def bitField (n lo len : Nat) : Nat := (n >>> lo) % 2 ^ len

/-- Ceiling division; 0 when the divisor is 0. -/
def ceilDiv (a b : Nat) : Nat := if b = 0 then 0 else (a + b - 1) / b

/-- The 32-bit saturating counter value of `n` (R67, R146, R206, R251: "32-bit saturating"). -/
def sat32 (n : Nat) : Nat := min n 0xFFFFFFFF

end Sys2Proof
end

