-- ==== Sys2Proof/Syntax.lean ====
section
/-! DEFINITION. The commands of the FX-L9: one constructor of `Instr` per row of
spec/opcode_table.json, with the operands its rule gives it.

The rows give no bits, so a command is abstract syntax.  Unit numbers are bounded types
(`CoreNum` is `Fin 192`, R11), so a command can name no unit that does not exist.  What a
command reads from outside the device (host memory, a link, a pin, a sensor, the physical state
of a memory cell) is an operand; so is each decision that the manual leaves to Lode (R265). -/

namespace Sys2Proof

/-! ### Unit numbers -/

/-- Physical core, R11. -/
abbrev CoreNum := Fin 192
/-- Ingress port, R10: 0 to 11 CSI-2, 12 to 35 SerDes lanes 0 to 23. -/
abbrev PortNum := Fin 36
/-- Camera pair k on lanes 2k and 2k + 1, R17. -/
abbrev PairNum := Fin 12
/-- SerDes lane. -/
abbrev LaneNum := Fin 24
/-- Shared-cache slice, R12. -/
abbrev SliceNum := Fin 48
/-- DMC channel, R12. -/
abbrev ChanNum := Fin 12
/-- Quadrant, R11. -/
abbrev QuadNum := Fin 4
/-- Mesh link plane, R16. -/
abbrev PlaneNum := Fin 8
/-- Monitor, R439. -/
abbrev MonNum := Fin 64
/-- Ternlink port, R421. -/
abbrev TlkNum := Fin 2
/-- PCIe function: 0 the physical function, 1 to 16 the virtual functions (R181, R412). -/
abbrev FnNum := Fin 17
/-- Context, R6. -/
abbrev CtxNum := Fin 4096
/-- Partition, R6. -/
abbrev PartNum := Fin 16
/-- Queue, R180. -/
abbrev QueueNum := Fin 262144
/-- Vote unit, R305. -/
abbrev VoteNum := Fin 128
/-- Control core, R291. -/
abbrev CtrlNum := Fin 8
/-- Alignment group, R230. -/
abbrev GroupNum := Fin 64
/-- Stream ID (16 bits, R275). -/
abbrev StreamId := Nat
/-- Stage slot of the placement table, R270. -/
abbrev SlotNum := Fin 4096

/-! ### Small enumerations -/

/-- Safety class, coded 0, 1, 2 (R263). -/
inductive SafetyClass where
  | none | simplex | triplex
  deriving DecidableEq, Repr, Inhabited

/-- Mode of a stage (R22). -/
inductive StageMode where
  | strata | frame
  deriving DecidableEq, Repr, Inhabited

/-- Scale scope of a tensor (R113). -/
inductive ScaleScope where
  | static | perRow
  deriving DecidableEq, Repr, Inhabited

/-- What a single-error-correcting, double-error-detecting code finds on an access: the physical
state of the stored word, which the environment sets. -/
inductive Upset where
  | clean | corrected | uncorrectable
  deriving DecidableEq, Repr, Inhabited

/-- What the link and inline codes of a DMC find on an access (R158). -/
inductive DramUpset where
  | clean
  | eccCorr | eccUncorr
  | linkCorr
  /-- an uncorrectable read link error whose second read succeeds -/
  | linkOnce
  /-- an uncorrectable read link error that fails twice -/
  | linkTwice
  /-- a single-bit link error of the write data alone, in an access that reads a line and writes one -/
  | linkCorrWrite
  deriving DecidableEq, Repr, Inhabited

/-- What a CSI-2 port finds in a packet header (R213). -/
inductive HdrEcc where
  | clean | single | uncorrectable
  deriving DecidableEq, Repr, Inhabited

/-- Who asks the QMG or a write port for something. -/
inductive Agent where
  | core (c : CoreNum)
  /-- ING and TAL, unit code 0xC0 (R148, R301) -/
  | ingress
  /-- PPE, unit code 0xC8 -/
  | ppe
  /-- firmware on the control cores -/
  | firmware
  deriving DecidableEq, Repr, Inhabited

/-- The header of a command descriptor that the QMG has read (R202): the context whose command
queue it came through, its TAG, and FLAGS.IRQ. -/
structure Cmd where
  ctx : CtxNum
  tag : W32
  irq : Bool
  deriving DecidableEq, Repr

/-! ### Number formats (R102) -/

/-- Storage formats (R102). -/
inductive Fmt where
  | int4 | uint4 | int8 | uint8 | int16
  /-- complex INT8: the real part in the low byte (R103) -/
  | cint8
  | e4m3 | e5m2 | bf16 | fp32
  deriving DecidableEq, Repr, Inhabited

/-! ### Stage images (R100) -/

/-- A function between the two products of a fused pair (R94). -/
inductive FuseFn where
  | requantise
  /-- a function of R54 -/
  | elementwise
  | rowSum
  | rowMax
  /-- a function that R94 does not allow -/
  | other
  deriving DecidableEq, Repr, Inhabited

/-- An entry of a forward map (R82): the producer slice, the consumer core of the next stage's sub-group, and the range of
positions, counted from the start of that core's slice, that the producer writes there. -/
structure FwdRange where
  slice : Nat
  consumer : Nat
  first : Int
  last : Int
  deriving DecidableEq, Repr

/-- A layer of a stage (R80, R90, R94 to R97, R99). -/
structure LayerDecl where
  /-- a pool rather than a convolution -/
  pool : Bool := false
  kh : Nat := 1
  kw : Nat := 1
  /-- horizontal and vertical stride -/
  sx : Nat := 1
  sy : Nat := 1
  /-- horizontal and vertical dilation -/
  dil : Nat := 1
  dilY : Nat := 1
  /-- group width of a grouped convolution, 0 for none (R56) -/
  group : Nat := 0
  /-- input channels, and the padding to the left and above (R76, R78) -/
  cin : Nat := 32
  pw : Nat := 0
  ph : Nat := 0
  /-- the taps are stacked into K (R77) -/
  stacked : Bool := false
  /-- the layer runs transposed, with this many activation rows (R95) -/
  transposed : Bool := false
  rowsM : Nat := 1
  /-- a fused pair of R94, with the rows of K and the columns of each product and the functions between them -/
  fused : Bool := false
  fuseK : Nat := 0
  fuseN : Nat := 0
  fuseK2 : Nat := 0
  fuseN2 : Nat := 0
  fuseFns : List FuseFn := []
  fuseInt4 : Bool := false
  /-- BATCH_WAIT in ns of a transposed layer (R96) -/
  batchWait : Option Nat := none
  /-- DFT length and factors of a transform layer (R99) -/
  dft : Option (Nat × List Nat) := none
  /-- box-list limits of a crop layer: maximum boxes, Ho, Wo (R97) -/
  boxes : Option (Nat × Nat × Nat) := none
  /-- the declared line-ring depth of a Strata layer (R80, R100) -/
  ring : Nat := 0
  deriving DecidableEq, Repr

/-- The steps of R119 between the two products of a fused pair (R94): the first product's constants, and the format, scale and
zero point of the row that the second product takes. -/
structure MidDecl where
  wScale : List W32 := []
  bias : List W32 := []
  clamp : W32 × W32 := (0xFF800000, 0x7F800000)
  fmt : Fmt := .int8
  scale : W32 := 0x3F800000
  zero : Nat := 0
  /-- integer weights of the first product by row of K, one entry per output channel (R111) -/
  weights : List (List Int) := []
  deriving DecidableEq, Repr

/-- A unit of a stage (R100): one layer or kernel with a declared worst-case execution time. -/
structure UnitDecl where
  /-- worst-case execution time in ns -/
  wcet : Nat
  strands : Nat := 0
  /-- GANG code (R38) -/
  gang : Nat := 0
  /-- FMT code (R37), and the codes of the single arrays in SPLIT where they differ (R39, R70) -/
  fmt : Nat := 0
  fmts : List Nat := []
  relShift : Nat := 14
  absExp : Nat := 0x67
  /-- accumulated K per output (R105) -/
  accK : Nat := 0
  weightSets : Nat := 0
  /-- scale scope of the input, and whether each output row depends on exactly one input row -/
  scope : ScaleScope := .static
  oneRow : Bool := true
  onArray : Bool := true
  /-- PER_ROW row length (R113) -/
  rowLen : Nat := 0
  /-- zero point of the activation format and whether that format is UINT4 or UINT8 (R112) -/
  zeroPoint : Nat := 0
  /-- zero points of the single arrays in SPLIT where they differ (R39, R112) -/
  zeros : List Nat := []
  /-- scale of a STATIC input, and rows of the input buffer (R113, R118) -/
  inScale : W32 := 0x3F800000
  inRows : Nat := 1
  /-- output format, scope, STATIC scale and zero point, row length and rows (R110, R113, R118) -/
  outFmt : Fmt := .int8
  outScope : ScaleScope := .static
  outScale : W32 := 0x3F800000
  outZero : Nat := 0
  outLen : Nat := 0
  outRows : Nat := 1
  /-- scale of a STATIC output by output channel, where it differs by channel (R121) -/
  outScales : List W32 := []
  /-- first word of the unit's output in the working region and its bytes, for an image that declares them -/
  outAt : Option (Nat × Nat) := none
  /-- FP32 weight scale and bias of each output channel, and the declared clamp (R111, R119) -/
  wScale : List W32 := []
  bias : List W32 := []
  clamp : W32 × W32 := (0xFF800000, 0x7F800000)
  /-- tensor ID of a stochastic store (R122) -/
  tensor : Nat := 0
  /-- DFT factor of a level of a transform layer (R99) -/
  dftFactor : Option Nat := none
  /-- stochastic rounding declared (R109) -/
  stochastic : Bool := false
  /-- integer weights by row of K, one entry per output channel (R111) -/
  weights : List (List Int) := []
  /-- word of the resident region at which those weights begin (R100, R129) -/
  weightAt : Nat := 0
  /-- the first product of a fused pair (R94, R119) -/
  mid : Option MidDecl := none
  /-- the end of the unit ends a micro-batch, or the optimiser step, of its adaptation job (R122, R123) -/
  endsMicro : Bool := false
  endsStep : Bool := false
  deriving DecidableEq, Repr

/-- A stage of a stage image (R100). -/
structure StageDecl where
  mode : StageMode
  /-- safety class the stage needs -/
  needs : SafetyClass := .none
  layers : List LayerDecl := []
  units : List UnitDecl := []
  /-- G, I and slice width of a Strata stage, and the halo of either mode, horizontal and (frame mode) vertical (R81,
  R90) -/
  g : Nat := 1
  i : Nat := 1
  slice : Nat := 256
  halo : Nat := 0
  haloV : Nat := 0
  /-- width and height of the image or line at the stage's input (R78, R79) -/
  inW : Nat := 256
  inH : Nat := 1
  /-- declared service time of a Strata unit and cumulative path to the end of the stage (R85, R309) -/
  service : Nat := 0
  path : Nat := 0
  /-- forward map to the next Strata stage (R82) -/
  forward : List FwdRange := []
  /-- write beats that fill each consumer's copy, by segment position and core of the sub-group (R82) -/
  targets : List (List Nat) := []
  /-- the channel block of a frame stage: first channel and count (R90) -/
  channels : Option (Nat × Nat) := none
  /-- tile shape, grid and dependency lag of a frame stage (R90 to R92) -/
  th : Nat := 8
  tw : Nat := 8
  cw : Nat := 1
  ch : Nat := 1
  lag : Nat := 0
  /-- tile time and downstream time (R93) -/
  tileTime : Nat := 0
  downstream : Nat := 0
  coresPerCopy : Nat := 1
  votePoint : Bool := false
  /-- resident, slot and working region sizes in words (R129) -/
  resident : Nat := 0
  /-- words of the line rings, at the end of the resident region (R80, R128) -/
  ringWords : Nat := 0
  slots : Nat := 0
  working : Nat := 0
  deriving DecidableEq, Repr

/-- The declarations of a stage image (R100). -/
structure ImageDecl where
  stages : List StageDecl
  /-- minimum line period, worst-case path and segment arrival interval of the stream (R79, R85, R89) -/
  minPeriod : Nat := 1500
  worstPath : Nat := 0
  tSeg : Nat := 0
  recordBytes : Nat := 64
  /-- vocabulary: entries as byte strings with their IDs (R243) -/
  vocab : Option (List (List Byte × Nat)) := none
  /-- augmentation-set ID (R246) -/
  augSet : Nat := 0
  deriving DecidableEq, Repr

/-- The header of a file handed to LOAD_IMAGE (R3, R272). -/
inductive ImageHeader where
  | fxt5
  | unreadable
  | version (major minor : Nat)
  deriving DecidableEq, Repr

/-- A stage-image file as firmware reads it at LOAD_IMAGE.  `bad` lists the places (stage and
unit, R273) whose declarations cannot be decoded. -/
structure ImageFile where
  header : ImageHeader
  /-- CRC-32C of the bytes read -/
  crc : W32
  decl : ImageDecl
  bad : List (Option Nat × Option Nat) := []
  deriving DecidableEq, Repr

/-! ### Lode's decisions (R265) -/

/-- Where Lode homes the lines of a DRAM pool in the shared cache (R165, R265). -/
inductive PoolHome where
  | slice (k : SliceNum)
  | quadrant (q : QuadNum)
  | noAllocate
  deriving DecidableEq, Repr

/-- A pool that Lode lays out (R175). -/
structure PoolPlan where
  pool : Nat
  /-- handle KIND of R170 -/
  kind : Nat
  /-- buffer size in 64-byte units and buffer count -/
  units : Nat
  count : Nat
  base : Nat
  metaBase : Nat
  consumers : Nat
  freeQueue : QueueNum
  /-- cores of the consuming sub-group whose windows back the buffers (STRATA_SLOT only) -/
  windowCores : List CoreNum := []
  /-- first window used on each of those cores -/
  window0 : Nat := 0
  /-- true for a pool that ING fills -/
  ingress : Bool := false
  /-- copy of a TRIPLEX stream -/
  copy : Nat := 0
  /-- where its lines are homed, none for the hash of R150 -/
  home : Option PoolHome := none
  deriving DecidableEq, Repr

/-- A DATA queue of a link, with its consumer cores (R186, R187). -/
structure QueuePlan where
  queue : QueueNum
  fanout : Nat
  consumers : List CoreNum
  log2Depth : Nat := 0
  outLimit : Nat := 64
  copy : Nat := 0
  deriving DecidableEq, Repr

/-- Steering of a link (R186). -/
inductive Steer where
  | segment | visit | single
  deriving DecidableEq, Repr, Inhabited

/-- A link (R186). -/
structure LinkPlan where
  link : Nat
  firstQueue : QueueNum
  firstPool : Nat
  perTarget : Bool
  targets : Nat
  steer : Steer
  deriving DecidableEq, Repr

/-- One stage slot of the placement table (R270): stage `stage` of copy `copy` on `cores`, listed by
sub-group and position. -/
structure SlotPlan where
  slot : SlotNum
  stage : Nat
  copy : Nat
  cores : List CoreNum
  /-- true for the record core's slot -/
  record : Bool := false
  deriving DecidableEq, Repr

/-- A placement that Lode chooses for a stream (R265). -/
structure Placement where
  slots : List SlotPlan
  pools : List PoolPlan := []
  queues : List QueuePlan := []
  links : List LinkPlan := []
  /-- vote unit of each vote point, and the stage slot index it follows; the last serves the record -/
  votes : List VoteNum := []
  deriving DecidableEq, Repr

/-! ### SERVICE arguments -/

/-- Partition properties; a property not given keeps its value or takes its default (R262). -/
structure PartProps where
  cls : Option SafetyClass := none
  coreQuota : Option Nat := none
  queueQuota : Option Nat := none
  poolQuota : Option Nat := none
  wayMask : Option Nat := none
  meshShare : Option Nat := none
  dramShare : Option Nat := none
  /-- one bit per PCIe function -/
  functions : Option Nat := none
  /-- replenishment period in ns (R282) -/
  period : Option Nat := none
  /-- budgets of contexts, in core-ns per period (R282) -/
  budgets : List (CtxNum × Nat) := []
  deriving DecidableEq, Repr

/-- A firmware image as firmware reads it (R402, R425): its CRC, its header fields and the results
of the two cryptographic checks on its bytes. -/
structure FwImage where
  crc : W32
  svn : Nat
  keyIndex : Nat
  /-- SHA-384 digest of the public key equals the fused digest of `keyIndex` -/
  keyDigestOk : Bool
  signatureOk : Bool
  /-- release as CTL_FW_VER encodes it -/
  release : W32
  /-- stage-image format major of the release -/
  fmtMajor : Nat
  /-- true when its SAFE firmware is identical to the running one (R404) -/
  sameSafe : Bool
  deriving DecidableEq, Repr, Inhabited

/-! ### Vector instructions (R52 to R57, R107 to R123) -/

/-- Requantisation constants of one output element (R119). -/
structure Requant where
  /-- activation zero point and weight sum -/
  za : Nat := 0
  wsum : Int := 0
  /-- true for an integer accumulator -/
  isInt : Bool := true
  sa : W32
  sw : W32
  bias : W32
  loC : W32
  hiC : W32
  r : W32
  zo : Nat := 0
  out : Fmt
  deriving DecidableEq, Repr

/-- The counter of a stochastic store as far as the unit's program gives it (R122): the element index.  Seed, optimiser step and
micro-batch number are the job's, the tensor ID and the format are the unit's. -/
structure Stoch where
  /-- element index of lane 0; lane k holds the next k-th element -/
  elem : Nat
  deriving DecidableEq, Repr

/-- Where the row of a tensor lies in a buffer of the scratchpad: word address of the data region, and the row.  Its scale
entry lies after the data region (R118). -/
structure RowAt where
  base : Nat
  row : Nat
  deriving DecidableEq, Repr

/-- Lane-wise and row-wise operations of the vector engine.  Registers are numbers 0 to 7 of the
strand file; `base` is a scratchpad word address. -/
inductive VecOp where
  | fadd (d a b : Fin 8) | fmul (d a b : Fin 8) | ffma (d a b c : Fin 8)
  | fmin (d a b : Fin 8) | fmax (d a b : Fin 8) | fcmp (d a b : Fin 8)
  /-- 4-element INT8 dot product added into a 32-bit integer accumulator -/
  | dotS8 (d a b : Fin 8)
  /-- the same with UINT8 activations in `a` -/
  | dotU8 (d a b : Fin 8)
  /-- two BF16 multiplies or adds -/
  | bfMul (d a b : Fin 8) | bfAdd (d a b : Fin 8)
  /-- requantise a register with the unit's constants for output channel `chan` + lane; the row of a PER_ROW input is
  `src` (R119) -/
  | requant (d a : Fin 8) (chan : Nat) (src : RowAt)
  /-- read column `lane` of an accumulator entry of an array, as 32 bits -/
  | accRead (d : Fin 8) (array : Fin 4) (entry : Nat)
  /-- requantise column `lane` of an accumulator entry with the unit's constants: output channel `chan` + lane, or, in a
  transposed layer, channel `chan` (R119, R120) -/
  | requantAcc (d : Fin 8) (array : Fin 4) (entry : Nat) (chan : Nat)
  /-- steps 1 to 7 of R119 between the products of a fused pair, on column `lane` of an accumulator entry (R94) -/
  | requantMid (d : Fin 8) (array : Fin 4) (entry : Nat) (chan : Nat)
  /-- steps 6 and 7 of R119 for a STATIC output of output channel `chan` (R121) -/
  | toStatic (d a : Fin 8) (chan : Nat)
  /-- steps 6 and 7 of R119 for a PER_ROW output: `a` times the factor in `r`, converted to the unit's output format with
  the row's entry at `dst` -/
  | toCode (d a r : Fin 8) (dst : RowAt)
  /-- the complex variant: real part in `a`, imaginary part in `b`, one factor (R108, R120) -/
  | toComplex (d a b r : Fin 8)
  /-- exact conversion of element `part` of a register to FP32 (R56) -/
  | widen (d a : Fin 8) (f : Fmt) (part : Nat)
  /-- the real value of element `part` of a register, stored in a row that carries an entry (R110, R113, R115, R121) -/
  | decodeRow (d a : Fin 8) (f : Fmt) (part : Nat) (src : RowAt)
  | recip (d a : Fin 8) | rsqrt (d a : Fin 8)
  | exp (d a : Fin 8) | exp2 (d a : Fin 8) | log (d a : Fin 8) | log2 (d a : Fin 8)
  | sigmoid (d a : Fin 8) | tanh (d a : Fin 8) | gelu (d a : Fin 8)
  /-- row sum and row maximum over `n` words (R54, R55) -/
  | rowSum (d : Fin 8) (base n : Nat) | rowMax (d : Fin 8) (base n : Nat)
  /-- max pool and average pool over the words at the in-image window positions (R57) -/
  | maxPool (d : Fin 8) (f : Fmt) (window : List Nat)
  | avgPool (d : Fin 8) (f : Fmt) (window : List Nat)
  /-- PER_ROW scale of the `n` FP32 words at `base` for the unit's output format; its entry is written after the data
  region of the output buffer (R114, R117, R118).  For a complex output the words are real and imaginary parts, and
  the reduction takes both (R120) -/
  | rowScale (d : Fin 8) (base n : Nat) (dst : RowAt)
  /-- the same for the row of an optimiser tensor whose gradient row is `grad`: the entry stays when that row is not finite
  (R121) -/
  | rowScaleUpdate (d : Fin 8) (base n : Nat) (dst grad : RowAt)
  /-- conversion of FP32 to a storage format (R107) -/
  | convert (d a : Fin 8) (f : Fmt) (zo : Nat)
  /-- stochastic rounding to the unit's output format (R109) -/
  | stoch (d a : Fin 8) (k : Stoch)
  /-- gradient accumulation of one micro-batch: FP32 words at `base`, in ascending sample index,
  added to the decoded stored value in `a` (R123) -/
  | gradAdd (d a : Fin 8) (base n : Nat)
  /-- store register `a` of lane 0 to scratchpad word `w` of the working region -/
  | store (a : Fin 8) (w : Nat)
  /-- store the codes that the lanes of the bundle hold in register `a`, in lane order, from scratchpad word `w` up
  (R103) -/
  | storeLanes (a : Fin 8) (f : Fmt) (w : Nat)
  /-- the same for the row of an optimiser tensor whose gradient row is `grad` (R121) -/
  | storeUpdate (a : Fin 8) (f : Fmt) (w : Nat) (grad : RowAt)
  /-- crop-and-resize of a feature map by entry `box` of the unit's box list: lane k gets output pixel (i, j + k) of
  channel `ch`.  The images stand at the words of `srcs`, in the order of their image index, `h` × `w` pixels of `chs`
  channels in format `f` (R97, R98) -/
  | crop (d : Fin 8) (f : Fmt) (box : Nat) (srcs : List Nat) (h w chs ch i j : Nat)
  /-- store the lanes of a crop in the output slot that the entry names, each slot of `words` words (R97) -/
  | storeCrop (a : Fin 8) (f : Fmt) (box base words off : Nat)
  /-- load scratchpad word `w + lane` into `d` -/
  | load (d : Fin 8) (w : Nat)
  /-- an instruction that is not part of any well-formed unit program -/
  | illegal
  deriving DecidableEq, Repr

/-! ### Other operand types -/

/-- A monitor source is delivered as one exact value (R439). -/
abbrev MonValue := Int

/-- A read or a write of DRAM or of a cache line. -/
inductive LineOp where
  | read
  /-- a full 64-byte line -/
  | writeLine (data : List Byte)
  /-- part of a line -/
  | writePart (off : Nat) (data : List Byte)
  deriving DecidableEq, Repr

/-- A scratchpad access by the core's own requesters (R125), or by the host's BAR2 window. -/
inductive SpOp where
  | read (w : Nat)
  /-- a write by the running unit -/
  | unitWrite (w : Nat) (data : W32)
  /-- a write by firmware -/
  | fwWrite (w : Nat) (data : W32)
  deriving DecidableEq, Repr

/-- How a producer names what it allocates: a pool, or a link with line and segment (or visit)
numbers (R177, R186, R188). -/
inductive AllocVia where
  | pool (p : Nat)
  | link (l line seg : Nat)
  deriving DecidableEq, Repr

/-- What came back for a transfer (R190, R138, R173, R248). -/
inductive XferResult where
  | done
  | nack
  /-- the words read through a handle and which of them carry the poison tag; the fill goes to words `dest` up of the
  core's scratchpad (R126, R127) -/
  | read (handle : W64) (dest : Nat) (data : List W32) (poison : List Nat)
  /-- a Strata piece of `words` words read from the core's own copy at word `base`, its trailer behind it (R82, R83), and what
  the code of the scratchpad finds at which of them (R140) -/
  | piece (base words : Nat) (upset : Upset := .clean) (upsetAt : Nat := 0)
  deriving DecidableEq, Repr

/-- One activation row as the unit's program streams it: where the row former finds its data and which accumulator entry
it goes to.  Tap, K-block and pass follow from what the entry has taken already (R50, R76). -/
structure ArrayRow where
  /-- word address of the data: the core's slice of the line, or its tile, with the halo -/
  base : Nat
  /-- words from one line of a tile to the next -/
  pitch : Nat := 0
  /-- output pixel and line of the image that the row computes (token, box or weight column in a 1 × 1 layer) -/
  x : Nat := 0
  y : Nat := 0
  /-- the 32 channels of a grouped layer that the row takes (R56) -/
  block : Nat := 0
  /-- the second product of a fused pair: the row stands in the staging area at `base` (R94) -/
  second : Bool := false
  /-- set-select bit (R34); in a multi-pass format the pass selects the set (R50) -/
  setB : Bool := false
  /-- row within the unit of work and accumulator entry -/
  row : Nat
  entry : Nat
  /-- what the code of the scratchpad finds on the reads of the row (R140) -/
  upset : Upset := .clean
  upsetAt : Nat := 0
  /-- a fault in the array's cells or registers: added to column `col` of the output row -/
  fault : Option (Nat × Int) := none
  /-- parity of the entry read, and agreement of the duplicated adders (R46) -/
  accOk : Bool := true
  deriving DecidableEq, Repr

/-- An activity count set of one quadrant or of the rest of the device over a 2 µs window (R358). -/
structure Activity where
  arrays : Nat := 0
  vector : Nat := 0
  banks : Nat := 0
  mesh : Nat := 0
  dram : Nat := 0
  deriving DecidableEq, Repr, Inhabited

/-- Clock domains other than CK_SAFE (R23). -/
inductive ClockDom where
  | ctrl | core (q : QuadNum) | noc | dfi | dphy | pcie | link | serdes | ingress | qm | time
  | slow | dbg | pm
  deriving DecidableEq, Repr

/-- Rails (R448): a quadrant's rail or any other. -/
inductive Rail where
  | core (q : QuadNum) | other
  deriving DecidableEq, Repr

/-- Why a mesh plane goes out of service: a fifth failed lane of a link, or a failed self-test slice (R388). -/
inductive PlaneLoss where
  | fifthLane | failedSlice
  deriving DecidableEq, Repr

/-- What the best-master algorithm compares of a PTP master, in its order, and the steps to it (R220). -/
structure PtpClock where
  priority1 : Nat := 128
  clockClass : Nat := 248
  accuracy : Nat := 0xFE
  variance : Nat := 0xFFFF
  priority2 : Nat := 128
  identity : Nat := 0
  steps : Nat := 0
  deriving DecidableEq, Repr, Inhabited

/-- The message of a PTP master (R220): an announcement; a Sync with its origin timestamp, none of a two-step master; the
Follow_Up that brings that timestamp; and a Delay_Resp with the time at which the master received the request.  Timestamps are
in ns, corrections included. -/
inductive PtpBody where
  | announce
  | sync (origin : Option Nat)
  | followUp (origin : Nat)
  | delayResp (receive : Nat)
  deriving DecidableEq, Repr

/-- A PTP message (R220, R221), over UDP and IPv4 or over IEEE 802.3. -/
structure PtpMsg where
  lane : LaneNum
  domain : Nat
  master : PtpClock := {}
  udp : Bool := true
  body : PtpBody
  /-- sync interval of the master in ns -/
  interval : Nat := 1000000000
  deriving DecidableEq, Repr

/-- A UDP packet as an Ethernet lane sees it (R216, R217). -/
structure UdpPacket where
  /-- an intact frame with an IPv4 packet whose header checksum is right and which carries UDP -/
  ok : Bool
  /-- IEEE 802.1Q tags of the frame -/
  tags : Nat := 0
  /-- bytes of the IPv4 header -/
  hdrLen : Nat := 20
  /-- a fragment of an IPv4 packet -/
  fragment : Bool := false
  dstMac : Nat := 0
  srcIp : Nat
  dstIp : Nat := 0
  srcPort : Nat := 0
  dstPort : Nat
  /-- the UDP checksum, 0 for none -/
  checksum : Nat := 0
  payload : List Byte
  deriving DecidableEq, Repr

/-- The line of a CoaXPress stream packet: the line sequence number of the trigger that the camera answers (R227), none when it
answers no trigger; of the last line of an area frame the entries, 32 bytes each, of the box list that PPE crops the frame by
(R97, R239). -/
structure CxpLine where
  trigger : Option Nat := none
  boxes : List (List Byte) := []
  deriving DecidableEq, Repr, Inhabited

/-- A JPEG-LS frame header as the decoder reads it (R240, R241). -/
structure JlsHeader where
  x : Nat
  y : Nat
  precision : Nat
  components : Nat
  /-- marker code of the frame header; SOF55 is 0xF7 -/
  sof : Nat := 0xF7
  /-- interleave mode and NEAR of the scans -/
  ilv : Nat := 0
  near : Nat := 0
  /-- sampling factors of the components, H × 16 + V -/
  sampling : List Nat := []
  /-- types of the LSE marker segments; 1 presets coding parameters -/
  lse : List Nat := []
  /-- a DNL marker -/
  dnl : Bool := false
  /-- any other option that R240 does not name as supported -/
  unsupported : Bool := false
  /-- a malformed marker segment -/
  malformed : Bool := false
  deriving DecidableEq, Repr

/-- How a JPEG-LS decode ended (R242). -/
inductive JlsEnd where
  | complete | truncated | trailing
  deriving DecidableEq, Repr

/-- How a quadrant regulator answered (R356). -/
inductive RegResult where
  | settled | failed
  deriving DecidableEq, Repr

/-- The state of the fuses and of the dies that the boot reads (R13, R425). -/
structure FuseData where
  ok : Bool
  deriving DecidableEq, Repr

/-- What firmware finds in MR8 of the dies of a channel, and the rows that the dies can still repair (R155, R161, R168):
density 1 8 Gb, 2 16 Gb, 3 24 Gb, 4 32 Gb. -/
structure ChannelDies where
  density : Nat
  ranks : Nat
  repairs : Nat := 0
  deriving DecidableEq, Repr

/-- How the PCIe link leaves L0: by power management or not, and what AER reports of it (R436). -/
structure LinkLoss where
  powerManagement : Bool
  aer : Upset := .clean
  deriving DecidableEq, Repr

/-- What the training of the channels found: one bit per channel that trained, and its dies, by channel (R155, R424). -/
structure TrainResult where
  trained : BitVec 12
  dies : List ChannelDies
  deriving DecidableEq, Repr

/-- The first word that a weight-set load reads, and what the code of the scratchpad finds there (R35, R140).  In a transposed
product it is the first word of the activations, and the load takes K-block `block` of them (R95). -/
structure WeightRead where
  base : Nat
  block : Nat := 0
  upset : Upset := .clean
  upsetAt : Nat := 0
  deriving DecidableEq, Repr

/-- What the checks of a vector instruction's reads find: the parity of the strand file or of the accumulators (R46, R58), and
the code of the scratchpad (R140). -/
structure ReadChecks where
  parityOk : Bool
  upset : Upset := .clean
  upsetAt : Nat := 0
  deriving DecidableEq, Repr

/-- The words of a remote write, and which of them carry the poison tag (R139).  With `trailer` the writer ends a piece: the
words are the trailer of what it has written there since the last one (R82). -/
structure WriteBeat where
  words : List W32
  poison : List Nat := []
  trailer : Bool := false
  deriving DecidableEq, Repr

/-! ### The commands -/

/-- One constructor per row of spec/opcode_table.json, in the table's order. -/
inductive Instr where
  -- commands of a context (R202, R274)
  /-- R272: image file at the address given, its declared length and CRC. -/
  | loadImage (cmd : Cmd) (len : Nat) (crc : W32) (file : ImageFile)
  /-- R275: stream and image IDs, the block's bytes and CRC, and the placement Lode finds. -/
  | declareStream (cmd : Cmd) (stream : StreamId) (image : Nat) (block : List Byte) (crc : W32)
      (lode : Option Placement)
  /-- R274: FIRST_SEQ when valid, the outcome of camera discovery (R214) and the 64 bytes of the
  ring descriptor (R418). -/
  | armStream (cmd : Cmd) (stream : StreamId) (firstSeq : Option Nat) (camera : Bool)
      (ring : List Byte)
  /-- R193: as ARM_STREAM, with the rebase list. -/
  | rearm (cmd : Cmd) (stream : StreamId) (firstSeq : Option Nat) (rebase : List (List Byte))
      (ring : List Byte)
  /-- REARM_DRAINED (R194): Once every earlier item is recorded and every buffer is free, the QMG writes the new
  bases and generations in one cycle and reopens allocation. -/
  | rearmDrained (stream : StreamId)
  /-- R281: priority, ADAPT, deadline (0 none), addresses, seeds and the index of the first sample. -/
  | dispatch (cmd : Cmd) (stream : StreamId) (prio : Fin 8) (adapt : Bool) (input output : W64)
      (deadline : Nat) (roundSeed augSeed : W64) (firstSample : Nat)
  /-- FENCE (R274): Command that completes when earlier commands have completed or the named epoch is quiet. -/
  | fence (cmd : Cmd) (epoch : Nat)
  /-- HINT_PHASE (R284): Command that tells the power manager which phase the context's work enters and for how
  long. -/
  | hintPhase (cmd : Cmd) (phase : Fin 16) (durationUs : Nat)
  /-- PHASE_HINT_EXPIRY (R363): The duration of a phase hint ends, and the context returns to phase 0. -/
  | phaseHintExpiry (ctx : CtxNum)
  /-- CANCEL (R197): Command that marks a live epoch cancelled and stops, discards and returns all of its work. -/
  | cancel (cmd : Cmd) (epoch : Nat)
  /-- EPOCH_QUIET (R198): A cancelled epoch becomes quiet, and the CANCEL and the cancelled command complete. -/
  | epochQuiet (epoch : Nat)
  /-- CANCEL_TIMEOUT (R198): An epoch is still not quiet 1 ms after its CANCEL, which is a fatal device error. -/
  | cancelTimeout (epoch : Nat)
  /-- EPOCH_NUMBER_FREED (R196): An epoch number becomes free, and the command that waits longest at the head of its
  queue takes it. -/
  | epochNumberFreed (epoch : Nat)
  /-- R277: destination length in bytes. -/
  | queryPlacement (cmd : Cmd) (len : Nat)
  /-- QUERY_IMAGE_SUMMARY (R277): QUERY subject 0x02 writes a per-stage summary of an image. -/
  | queryImageSummary (cmd : Cmd) (image : Nat) (len : Nat)
  /-- QUERY_STREAM_STATE (R277): QUERY subject 0x03 writes the state of a stream. -/
  | queryStreamState (cmd : Cmd) (stream : StreamId) (len : Nat)
  /-- QUERY_ACCOUNTING (R283): QUERY subject 0x04 writes the context's accounting record and clears OVF. -/
  | queryAccounting (cmd : Cmd) (len : Nat)
  /-- QUERY_FAULT_RECORDS (R277): QUERY subject 0x05 writes the last 256 fault records of the context. -/
  | queryFaultRecords (cmd : Cmd) (len : Nat)
  /-- QUERY_SPARES (R277): QUERY subject 0x06 writes the spare-pool cores per quadrant. -/
  | querySpares (cmd : Cmd) (len : Nat)
  /-- PARTITION_CREATE (R262): SERVICE PARTITION creates a partition with the given or default properties. -/
  | partitionCreate (cmd : Cmd) (part : PartNum) (props : PartProps)
  /-- PARTITION_CHANGE (R262): SERVICE PARTITION changes a partition's properties, unless BUSY or BAD_ARGS applies.
  -/
  | partitionChange (cmd : Cmd) (part : PartNum) (props : PartProps)
  /-- PARTITION_REMOVE (R262): SERVICE PARTITION removes a partition and withdraws its declarations, images and
  resources. -/
  | partitionRemove (cmd : Cmd) (part : PartNum)
  /-- CONTEXT_BIND (R264): SERVICE binds a context to a partition, a PCIe function and an MSI-X vector. -/
  | contextBind (cmd : Cmd) (target : CtxNum) (part : PartNum) (fn : FnNum) (vector : Nat)
  /-- UNLOAD (R272): SERVICE removes a loaded image that no declared stream uses. -/
  | unload (cmd : Cmd) (image : Nat)
  /-- CORE_TEST (R285): SERVICE drains a core, self-tests it and returns it. -/
  | coreTest (cmd : Cmd) (core : CoreNum)
  /-- R152: the slice, and the slices of its quadrant that take its buckets. -/
  | sliceBypass (cmd : Cmd) (slice : SliceNum) (takers : List SliceNum)
  /-- R429: the record's bytes. -/
  | settingsWrite (cmd : Cmd) (record : List Byte)
  /-- R278: a register of the camera of stream `stream`, and what the camera answers. -/
  | cameraRegRead (cmd : Cmd) (stream : StreamId) (reg : Nat) (answer : W32)
  /-- CAMERA_REG_WRITE (R278): SERVICE writes a register of a camera of the context's own streams. -/
  | cameraRegWrite (cmd : Cmd) (stream : StreamId) (reg : Nat) (value : W32)
  /-- TIME_SECONDS (R220): SERVICE sets the seconds of a PPS-disciplined timebase, forward only. -/
  | timeSeconds (cmd : Cmd) (seconds : Nat)
  /-- RESUME_HELD_SKIP (R249): SERVICE RESUME_HELD with SKIP drops the corrupt sample and completes the held
  micro-batch. -/
  | resumeHeldSkip (cmd : Cmd)
  /-- RESUME_HELD_ABORT (R249): SERVICE RESUME_HELD with ABORT discards the held samples of an adaptation job. -/
  | resumeHeldAbort (cmd : Cmd)
  /-- ACCT_TRACE (R283): SERVICE sets or clears TRACE of the context's accounting. -/
  | acctTrace (cmd : Cmd) (set : Bool)
  /-- FW_UPDATE_STAGE (R403): SERVICE FW_UPDATE in mode STAGE writes and verifies the inactive slot and leaves it
  inactive. -/
  | fwUpdateStage (cmd : Cmd) (len : Nat) (crc : W32) (img : FwImage)
  /-- FW_UPDATE_NEXT_RESET (R403): SERVICE FW_UPDATE in mode NEXT_RESET writes the inactive slot and marks it
  pending. -/
  | fwUpdateNextReset (cmd : Cmd) (len : Nat) (crc : W32) (img : FwImage)
  /-- FW_UPDATE_LIVE (R404): SERVICE FW_UPDATE in mode LIVE writes the inactive slot and then activates it core by
  core. -/
  | fwUpdateLive (cmd : Cmd) (len : Nat) (crc : W32) (img : FwImage)
  /-- FW_FLASH_VERIFIED (R403): The erase, write and read-back of the inactive slot finish, and the mode's action
  follows. -/
  | fwFlashVerified (ok : Bool)
  /-- LIVE_CORE_REJOIN (R404): A control core restarted on the new image rejoins; the next core switches, or the
  slot marker is written after the last. -/
  | liveCoreRejoin (core : CtrlNum)
  /-- LIVE_REJOIN_TIMEOUT (R404): A control core has not rejoined within 500 ms, so the activation ends and switched
  cores go back to the old image. -/
  | liveRejoinTimeout (core : CtrlNum)
  -- host register accesses with a row of their own
  /-- R201: the writing function, the context, the TAIL count, and the descriptors then in the ring
  between the old and the new count, 64 bytes each. -/
  | qmgDoorbell (fn : FnNum) (ctx : CtxNum) (tail : W32) (descs : List (List Byte))
  /-- QMG_CTX_QCFG_WRITE (R209): A write of a context's queue configuration, whose EN change arms or retires the
  context's queues. -/
  | qmgCtxQcfgWrite (fn : FnNum) (value : W32)
  /-- QMG_CTX_CPL_HEAD_WRITE (R204): Host software returns completion-ring space, and held completions are written.
  -/
  | qmgCtxCplHeadWrite (fn : FnNum) (value : W32)
  /-- ENTER_SAFE_STATE (R333): Mailbox command that enters the safe state with SS_CAUSE HOST. -/
  | enterSafeState (fn : FnNum)
  /-- READ_LOG (R333): Mailbox command that copies a fault record from the log into the mailbox output registers. -/
  | readLog (fn : FnNum)
  /-- PIN_TEST (R333): Mailbox command that drives FAULT_N low for 1 ms and sends a FAULT frame with no records. -/
  | pinTest (fn : FnNum)
  /-- PIN_TEST_END (R333): The 1 ms of PIN_TEST ends, and FAULT_N is released. -/
  | pinTestEnd
  /-- CLEAR_COUNTS (R333): Mailbox command that clears the SAFE event and egress-loss counters. -/
  | clearCounts (fn : FnNum)
  /-- a write to LOCK of the page at `page` × 0x1_0000 (R434) -/
  | lockKeyWrite (fn : FnNum) (page : Nat) (value : W32)
  /-- LOCK_TIMEOUT (R434): An open page closes after 1 ms without a protected write. -/
  | lockTimeout (page : Nat)
  /-- ERR_STAT_CLEAR (R435): A W1C write to ERR_STAT clears bits and re-arms error capture once all are 0. -/
  | errStatClear (fn : FnNum) (page : Nat) (value : W32)
  /-- R9: a host write at BAR0 offset `addr`. -/
  | registerWrite (fn : FnNum) (addr : Nat) (value : W32)
  /-- TAL_TIME_LO_READ (R254): A read of TAL_TIME_LO latches TAL_TIME_HI. -/
  | talTimeLoRead (fn : FnNum)
  /-- TAL_ODO_POS_LO_READ (R254): A read of TAL_ODO_POS_LO latches TAL_ODO_POS_HI. -/
  | talOdoPosLoRead (fn : FnNum)
  /-- CTL_ACCT_WAIT_LO_READ (R291): A read of CTL_ACCT_WAIT_LO latches CTL_ACCT_WAIT_HI. -/
  | ctlAcctWaitLoRead (fn : FnNum)
  /-- CORE_CNT_CLR (R67): A write to CORE_CNT_CLR clears the core's busy counters and CORE_UNIT_NS_MAX. -/
  | coreCntClr (fn : FnNum) (core : CoreNum) (value : W32)
  /-- ING_CNT_CLR (R251): A write to ING_CNT_CLR clears the port's counters. -/
  | ingCntClr (fn : FnNum) (port : PortNum) (value : W32)
  /-- MON_CLEAR (R440): A CLEAR write resets a monitor's MIN, MAX, COUNT and bins. -/
  | monClear (fn : FnNum) (mon : MonNum) (value : W32)
  /-- MON_CFG_WRITE (R440): A write of MON_CFG, whose EN change from 0 to 1 clears the monitor and starts sampling.
  -/
  | monCfgWrite (fn : FnNum) (mon : MonNum) (value : W32)
  /-- R441: the value its source delivers. -/
  | monSample (mon : MonNum) (value : MonValue)
  /-- PWR_CAP_WRITE (R359): A write to PWR_CAP sets the cap, clamped to 150 to 450 W. -/
  | pwrCapWrite (fn : FnNum) (value : W32)
  /-- GLB_RST_REQ (R437): A write of 0x5EB0 to GLB_RST_REQ from the physical function requests a warm reset. -/
  | glbRstReq (fn : FnNum) (value : W32)
  /-- BOOT_LOAD_START (R427): A START write makes the recovery loader fetch and verify an image after STOP_CODE
  0x02. -/
  | bootLoadStart (fn : FnNum) (value : W32)
  /-- R427: the image as the boot ROM read it. -/
  | bootLoadDone (img : FwImage)
  /-- CORE_SAMPLE_COPY (R400): A COPY write makes the DBG block master the core sample into host memory. -/
  | coreSampleCopy (fn : FnNum)
  /-- CORE_SAMPLE_COPY_DONE (R400): The copy of the core sample ends, and DBG_CS_STAT shows COPY_DONE. -/
  | coreSampleCopyDone
  /-- CORE_SAMPLE_RELEASE (R396): A RELEASE write frees the core-sample region for a later sample. -/
  | coreSampleRelease (fn : FnNum)
  /-- DBG_NOTICE_HEAD_WRITE (R406): Host software returns notice-ring space, and a NOTICES_LOST notice follows when
  notices were dropped. -/
  | dbgNoticeHeadWrite (fn : FnNum) (value : W32)
  -- error injections: a 1 written to the ERR_INJ bit named
  /-- INJ_ABFT_MISMATCH (R47): ERR_INJ.ABFT_MISMATCH inverts one bit of the next row at the foot of the chosen
  array. -/
  | injAbftMismatch (fn : FnNum) (core : CoreNum)
  /-- INJ_ACC_CHECK (R75): ERR_INJ.ACC_CHECK corrupts the next accumulator read of the chosen array. -/
  | injAccCheck (fn : FnNum) (core : CoreNum)
  /-- INJ_STRAND_FAULT (R75): ERR_INJ.STRAND_FAULT corrupts the next strand-file read. -/
  | injStrandFault (fn : FnNum) (core : CoreNum)
  /-- INJ_SP_ECC_CORR (R75): ERR_INJ.SP_ECC_CORR injects a correctable error into the next scratchpad read. -/
  | injSpEccCorr (fn : FnNum) (core : CoreNum)
  /-- INJ_SP_ECC_UNCORR (R75): ERR_INJ.SP_ECC_UNCORR injects an uncorrectable error into the next scratchpad read.
  -/
  | injSpEccUncorr (fn : FnNum) (core : CoreNum)
  /-- INJ_SHC_TAG_CORR (R169): Shared-cache injection of a tag error into the next tag read. -/
  | injShcTagCorr (fn : FnNum) (slice : SliceNum)
  /-- INJ_SHC_DATA_CORR (R169): Shared-cache injection of a correctable error into the next data read. -/
  | injShcDataCorr (fn : FnNum) (slice : SliceNum)
  /-- INJ_SHC_DATA_UNCORR (R169): Shared-cache injection of an uncorrectable error into the next data read. -/
  | injShcDataUncorr (fn : FnNum) (slice : SliceNum)
  /-- INJ_DMC_ECC_CORR (R169): DMC injection of a correctable inline-ECC error into the next read. -/
  | injDmcEccCorr (fn : FnNum) (chan : ChanNum)
  /-- INJ_DMC_ECC_UNCORR (R169): DMC injection of an uncorrectable inline-ECC error into the next read. -/
  | injDmcEccUncorr (fn : FnNum) (chan : ChanNum)
  /-- INJ_DMC_LINK_CORR (R169): DMC injection of a correctable link error into the next read. -/
  | injDmcLinkCorr (fn : FnNum) (chan : ChanNum)
  /-- INJ_DMC_LINK_UNCORR (R169): DMC injection of a read link error that fails twice. -/
  | injDmcLinkUncorr (fn : FnNum) (chan : ChanNum)
  /-- INJ_DESC_CORR (R210): QMG injection of a correctable error into the next descriptor read. -/
  | injDescCorr (fn : FnNum)
  /-- INJ_DESC_UNCORR (R210): QMG injection of an uncorrectable error into the next descriptor read. -/
  | injDescUncorr (fn : FnNum)
  /-- INJ_ING_CRC (R253): ING injection of a CRC error into the next packet CRC. -/
  | injIngCrc (fn : FnNum) (port : PortNum)
  /-- INJ_HDR_CORR (R253): ING injection of a 1-bit error into the next CSI-2 header. -/
  | injHdrCorr (fn : FnNum) (port : PortNum)
  /-- INJ_HDR_UNCORR (R253): ING injection of a 2-bit error into the next CSI-2 header. -/
  | injHdrUncorr (fn : FnNum) (port : PortNum)
  /-- INJ_ODO_ILLEGAL (R258): TAL injection of an illegal transition into the next filtered sample. -/
  | injOdoIllegal (fn : FnNum)
  /-- INJ_JLS_CORRUPT (R260): PPE injection that makes the next decode read its input as truncated. -/
  | injJlsCorrupt (fn : FnNum)
  /-- INJ_CMD_REJECTED (R293): CTL injection that rejects the next LOAD_IMAGE with reason 0x0C. -/
  | injCmdRejected (fn : FnNum)
  /-- INJ_REG_FAIL (R379): PWR injection that treats the next voltage request as unacknowledged. -/
  | injRegFail (fn : FnNum)
  /-- INJ_SENSOR_FAIL (R379): PWR injection that makes the next sample of sensor 0 read out of range. -/
  | injSensorFail (fn : FnNum)
  /-- INJ_PCE_CORR (R436): PCE injection of a corrected error into the next received TLP. -/
  | injPceCorr (fn : FnNum)
  /-- INJ_TLK_LANE_SPARED (R436): TLK injection that fails the next lane check on lane 0. -/
  | injTlkLaneSpared (fn : FnNum) (port : TlkNum)
  /-- INJ_TLK_REPLAY (R436): TLK injection that corrupts the next flit CRC. -/
  | injTlkReplay (fn : FnNum) (port : TlkNum)
  -- host memory access and PCIe
  /-- R413: a BAR4 access of the physical function at offset `off` (64-byte lines). -/
  | hostDramAccess (off : Nat) (op : LineOp) (tag data : Upset) (dram : DramUpset)
  /-- FUNCTION_LEVEL_RESET (R392): A PCIe FLR disables the function's contexts, cancels their epochs and disarms
  their streams. -/
  | functionLevelReset (fn : FnNum)
  /-- PCIE_PERST (R451): PCIE_PERST_N low resets the PCE and acts as a function-level reset of the physical
  function. -/
  | pciePerst
  /-- speed code 1 to 5, width, maximum payload size (R412) -/
  | pcieLinkUp (speed width mps : Nat)
  /-- PCIE_LINK_DOWN (R436): The PCIe link leaves L0 other than by power management. -/
  | pcieLinkDown (loss : LinkLoss)
  -- reset and boot
  /-- POWER_ON_RESET (R390): PORST_N low or the loss of a supply resets everything, and the boot starts when PORST_N
  rises. -/
  | powerOnReset
  /-- BOOT_SAFE_TEST_DONE (R424): SAFE's boot self-test ends, and the boot stops on failure or goes on to the flash
  image. -/
  | bootSafeTestDone (pass : Bool)
  /-- BOOT_IMAGE_VERIFIED (R426): The boot verifies the chosen slot, falls back to the other slot, or stops with
  STOP_CODE 0x02. -/
  | bootImageVerified
  /-- R155, R424: which channels trained, and what MR8 of their dies reads. -/
  | bootTrainDone (found : TrainResult)
  /-- R387: the cores whose boot self-test failed. -/
  | bootCoreTestDone (failed : List CoreNum)
  /-- BOOT_READY (R424): Partitions are created, the heartbeat and STATUS frames start, and GLB_STAT.READY rises. -/
  | bootReady
  /-- WAIT_COOLANT_END (R424): COOLANT_OK has been high for 10 ms, and the boot continues from WAIT_COOLANT. -/
  | waitCoolantEnd
  /-- VRDY_BOOT_TIMEOUT (R449): VRDY_Qq is still low 100 ms after PORST_N rose, and the boot stops with STOP_CODE
  0x06. -/
  | vrdyBootTimeout (quad : QuadNum)
  /-- WARM_RESET (R391): WARM_RST_N low or a reset request starts the quiesce of a warm reset, or is latched during
  the boot. -/
  | warmReset
  /-- the quiesce finished in time; `safePass` is the SAFE self-test that follows (R391) -/
  | quiesceDone (safePass : Bool)
  /-- QUIESCE_CUT_OFF (R391): The quiesce is cut off after 1 ms, and unwritten records are lost and counted. -/
  | quiesceCutOff (safePass : Bool)
  /-- R296: what the code of the retention memory finds. -/
  | warmResetReady (retention : Upset)
  /-- AUTO_RESTART (R389): After a fatal error, the sample complete and 100 ms passed, firmware starts a warm reset
  when enabled. -/
  | autoRestart
  /-- QUADRANT_RESET (R393): An isolated quadrant whose clock and rail have been in range for 10 ms is reset. -/
  | quadrantReset (quad : QuadNum)
  /-- QUADRANT_RESET_DONE (R393): The quadrant's cores finish all 16 self-test slices and join the spare pool or
  retire. -/
  | quadrantResetDone (quad : QuadNum) (failed : List CoreNum)
  /-- PORT_RESET (R390): CTRL.SOFT_RST of an ING page resets the port's PHY and packet logic. -/
  | portReset (port : PortNum)
  -- ingress and time
  /-- frame number of a camera that numbers its frames (R228) -/
  | csi2FrameStart (port : PortNum) (vc : Fin 4) (ecc : HdrEcc) (frameNo : Option Nat)
  /-- CSI2_LONG_PACKET (R213): A CSI-2 long packet is checked and its line data is written into the frame's buffer.
  -/
  | csi2LongPacket (port : PortNum) (vc : Fin 4) (ecc : HdrEcc) (dataType : Nat) (crcOk : Bool)
      (data : List Byte)
  /-- the entries, 32 bytes each, of the box list that PPE crops the frame by; none when it crops by none (R97) -/
  | csi2FrameEnd (port : PortNum) (vc : Fin 4) (ecc : HdrEcc) (boxes : List (List Byte))
  /-- R215, R227: the line that the packet belongs to, payload at byte `off` of the line, CRC verdict, and whether it ends the line. -/
  | cxpStreamPacket (pair : PairNum) (line : CxpLine) (off : Nat) (data : List Byte) (crcOk lineEnd : Bool)
  /-- LINE_TIMEOUT (R227): A line's last pixel has not arrived by its trigger plus TAL_LINE_TIMEOUT, so it is
  recorded INVALID. -/
  | lineTimeout (pair : PairNum)
  /-- LIDAR_PACKET (R217): A lidar UDP packet is written into its sweep at its index, or discarded, possibly closing
  or opening a sweep. -/
  | lidarPacket (lane : LaneNum) (pkt : UdpPacket)
  /-- PTP_MESSAGE (R220): A PTP message updates the master choice and the measured offset that disciplines the
  timebase. -/
  | ptpMessage (msg : PtpMsg)
  /-- PPS_EDGE (R220): A rising PPS edge marks a second boundary for timebase discipline. -/
  | ppsEdge
  /-- HOLDOVER_ENTRY (R221): PTP sync or PPS edges are missing for their limit, and TAL enters HOLDOVER. -/
  | holdoverEntry
  /-- HOLDOVER_EXPIRY (R221): After 10 s in HOLDOVER, TAL enters FREE. -/
  | holdoverExpiry
  /-- ODO_FILTERED_SAMPLE (R223): The glitch filter accepts a new odometer level, and the position updates. -/
  | odoFilteredSample (a b : Bool)
  /-- ALIGN_WAIT_TIMEOUT (R232): The timebase reaches a set's reference plus L, and TAL releases the set with
  members missing. -/
  | alignWaitTimeout (group : GroupNum)
  /-- JLS_DECODE (R241): A decoder checks a JPEG-LS frame header and starts decoding into an output buffer, or
  rejects the image. -/
  | jlsDecode (decoder : Fin 4) (stream : StreamId) (sample : Nat) (hdr : JlsHeader)
  /-- JLS_DECODE_DONE (R242): A decode finishes, or is rejected as truncated or with trailing data. -/
  | jlsDecodeDone (decoder : Fin 4) (result : JlsEnd)
  /-- TOKENISE (R244): The tokeniser turns one input into tokens by greedy longest match, or rejects it. -/
  | tokenise (stream : StreamId) (sample : Nat) (input : List Byte)
  -- compute cores
  /-- R98, R279: the entries of the box list that the unit that starts reads, when its layer crops. -/
  | unitStart (core : CoreNum) (boxes : List (List Byte))
  /-- R59, R174: the payload that the unit's output holds; a record unit's is that of the record. -/
  | unitComplete (core : CoreNum) (payload : List Byte)
  /-- WEIGHT_SET_LOAD (R35): The load path fills one weight set and its checksum row sums once the set is free. -/
  | weightSetLoad (core : CoreNum) (array : Fin 4) (setB : Bool) (src : WeightRead)
  /-- ARRAY_ROW_VERDICT (R43): The comparator's verdict on an output row is ready, and a mismatch flags the unit and
  reports to SAFE. -/
  | arrayRowVerdict (core : CoreNum) (array : Fin 4) (row : ArrayRow)
  /-- R53: the ready bundles, the instruction each has next, and what the checks of its reads find. -/
  | vectorIssue (core : CoreNum) (ready : List (Fin 128)) (op : VecOp) (checks : ReadChecks)
  /-- SCRATCHPAD_ACCESS (R140): A bank access reads or writes a word and corrects it or poisons it by its code. -/
  | scratchpadAccess (core : CoreNum) (op : SpOp) (upset : Upset)
  /-- FAULTED_ITEM (R382): The stream engine of a FAULTED core completes a delivered item with zero pieces and a
  flagged output. -/
  | faultedItem (core : CoreNum)
  /-- R382: the outcome of the one self-test slice. -/
  | coreRecovery (core : CoreNum) (slicePass : Bool)
  /-- UNIT_OVERRUN (R62): A unit's elapsed time exceeds its declared worst-case time and is reported to SAFE. -/
  | unitOverrun (core : CoreNum)
  /-- HANG_STOP (R381): Firmware stops a unit that has passed its hang limit, as a fault stop. -/
  | hangStop (core : CoreNum)
  /-- DRAIN_REQUEST (R63): Lode asks a core to finish its unit, start no further unit and go IDLE. -/
  | drainRequest (core : CoreNum)
  /-- R134: the writer, the target core, window and generation, the word address, and what is written. -/
  | remoteWrite (writer : Agent) (core : CoreNum) (window : Fin 256) (gen : Byte) (addr : Nat) (data : WriteBeat)
  /-- WINDOW_WAIT_END (R137): A sequencer waiting on a window resumes once the arrival counter reaches its count. -/
  | windowWaitEnd (core : CoreNum)
  /-- TRANSFER_COMPLETE (R190): A transfer's completion or NACK returns, and the queue's OUT_COUNT falls. -/
  | transferComplete (core : CoreNum) (queue : QueueNum) (result : XferResult)
  -- queues
  /-- R177, R389: what the code of the pool, link and fan-out entries finds. -/
  | allocate (agent : Agent) (via : AllocVia) (table : Upset)
  /-- R183, R185, R389: what the codes of the descriptor and of the other entries find. -/
  | queuePush (agent : Agent) (queue : QueueNum) (handle : W64) (desc table : Upset)
  /-- QUEUE_POP (R184): A pop takes an entry, or records a pop credit and waits. -/
  | queuePop (core : CoreNum) (queue : QueueNum) (desc table : Upset)
  /-- BUFFER_RETURN (R179): A consumer returns a handle, and the last return sends the buffer to its free queue. -/
  | bufferReturn (core : CoreNum) (handle : W64)
  /-- QUEUE_WAIT_END (R184): A push, pop or allocation waiting on a full, empty or held queue proceeds when its
  condition is met. -/
  | queueWaitEnd (core : CoreNum)
  /-- QUEUE_RECOVERY (R384): Firmware recovers a FAULTED queue according to its type. -/
  | queueRecovery (queue : QueueNum)
  /-- ORPHAN_RECONCILE (R383): Firmware returns orphaned buffers to their free queues and records their items. -/
  | orphanReconcile (pool : Nat)
  /-- R96: the stage slot whose batcher is evaluated. -/
  | batchStart (slot : SlotNum)
  /-- BUDGET_REPLENISH (R282): At each period boundary every context budget is restored to its full value. -/
  | budgetReplenish (part : PartNum)
  /-- VOTE_SIGNATURE (R305): A copy presents its signature to a vote unit, which latches it and forwards on a
  majority.  `flips` are the bits that an upset inverts in the signature on its way. -/
  | voteSignature (unit : VoteNum) (copy : Fin 3) (seq : Nat) (flips : W64) (cause : Nat)
      (corrected : Bool) (payload : List Byte)
  /-- VOTE_UNIT_TEST (R322): A vote unit tests itself with a known triplet after a vote. -/
  | voteUnitTest (unit : VoteNum) (pass : Bool)
  /-- RECORD_INVALIDATION (R302): A record invalidation from SAFE lands at the QMG. -/
  | recordInvalidation
  /-- RECORD_EGRESS (R419): The stream engine writes a record to its PCIe ring slot, header last, or sends it as a
  UDP datagram. -/
  | recordEgress (stream : StreamId)
  /-- STAGE_DEADLINE (R309): A deadline monitor fires, and the item gets a substitute record or the copy is
  outvoted. -/
  | stageDeadline (slot : SlotNum) (seq : Nat)
  -- safety island
  /-- R296: what the code of the retention memory finds. -/
  | faultReport (retention : Upset)
  /-- CORE_SAMPLE_DONE (R395): Firmware finishes the core sample, and the QMG writes the pending records and a
  notice is posted. -/
  | coreSampleDone (truncated : Bool)
  /-- FAULT_HOLD_EXPIRY (R320): SAFE_FAULT_HOLD passes since the last dangerous fault, and FAULT_N is released when
  nothing else holds it. -/
  | faultHoldExpiry
  /-- HEARTBEAT_TOGGLE (R319): At each half-period SAFE_OK_P and SAFE_OK_N toggle, unless a pair missed its kick. -/
  | heartbeatToggle
  /-- HB_KICK (R295): A lockstep pair kicks the heartbeat generator. -/
  | hbKick (pair : Fin 2)
  /-- LOCKSTEP_MISMATCH (R295): A pair's outputs differ, and the gate stops the pair and enters the safe state. -/
  | lockstepMismatch (pair : Fin 2)
  /-- R314: the count of the window and the expected count. -/
  | clockMonitorWindow (dom : ClockDom) (count expected : Nat)
  /-- SUPPLY_EXCURSION (R314): A rail stays outside its monitor thresholds for 500 ns, which is a supply fault. -/
  | supplyExcursion (rail : Rail)
  /-- SAFEREF_LOSS (R314): The analogue detector loses SAFEREF and enters the safe state. -/
  | saferefLoss
  /-- CTRL_CORE_KICK_TIMEOUT (R315): A control core has not kicked for 1 ms and is taken out of service. -/
  | ctrlCoreKickTimeout (core : CtrlNum)
  /-- STATUS_FRAME (R321): A STATUS frame is sent on the safety egress every SAFE_EGRESS period. -/
  | statusFrame
  /-- SELF_TEST_SLICE_START (R323): A self-test slice starts when it fits before the next release of every safety
  stage it shares with. -/
  | selfTestSliceStart (core : CoreNum)
  /-- SELF_TEST_SLICE_DONE (R322): A self-test slice ends, and a failure is a permanent fault of its unit. -/
  | selfTestSliceDone (core : CoreNum) (pass comparatorOk : Bool)
  /-- TEST_DEFERRAL_LIMIT (R323): 80 s of a Strata core's interval pass, and Lode moves the stage off the core for
  testing. -/
  | testDeferralLimit (core : CoreNum)
  /-- LATENT (R323): A core is still untested when its interval ends, which raises a latent-fault warning. -/
  | latent (core : CoreNum)
  -- re-placement
  /-- R459: the slot and the cores Lode chooses for it. -/
  | replacementStart (slot : SlotNum) (cores : List CoreNum)
  /-- REPLACEMENT_COMMIT (R286): At the commit point the links switch to the new cores and the placement epoch
  increments. -/
  | replacementCommit (boundary : Nat)
  /-- REPLACEMENT_DONE (R286): The old cores finish before the boundary and leave, and the journal shows DONE. -/
  | replacementDone
  -- memories and mesh
  /-- ROW_REPAIR (R144): Firmware copies a failing SRAM row into a spare row and switches the row map. -/
  | rowRepair (core : CoreNum) (bank : Fin 64) (row : Fin 512)
  /-- SCRATCHPAD_SCRUB (R141): The scrubber reads a scratchpad word in a free bank cycle, poisoning any
  uncorrectable word. -/
  | scratchpadScrub (core : CoreNum) (word : Nat) (upset : Upset)
  /-- R151: the requester's context and partition, the DRAM offset, the operation and what the codes
  find in the tags (both copies for `uncorrectable`, or only the one that `tagCopy` names), the data and the DRAM. -/
  | shcAccess (ctx : CtxNum) (part : PartNum) (off : Nat) (op : LineOp) (tag data : Upset)
      (tagCopy : Option (Fin 2)) (dram : DramUpset)
  /-- DMC_ACCESS (R158): A DMC serves a DRAM read or write with inline and link ECC. -/
  | dmcAccess (off : Nat) (op : LineOp) (upset : DramUpset) (ctx : CtxNum) (part : PartNum)
  /-- PATROL_SCRUB (R160): The patrol scrubber reads DRAM, queuing rows for repair. -/
  | patrolScrub (off : Nat) (upset : DramUpset) (secondPass : Bool)
  /-- MESH_LANE_STEER (R154): Firmware steers a failing mesh lane onto a spare and pauses the plane. -/
  | meshLaneSteer (plane : PlaneNum) (link : Nat)
  /-- MESH_LANE_STEER_DONE (R154): The steering ends, and held transfers and moved traffic return to the plane. -/
  | meshLaneSteerDone (plane : PlaneNum)
  /-- MESH_PLANE_OUT (R388): A plane is taken out of service, holding new transfers, or a third loss is fatal. -/
  | meshPlaneOut (plane : PlaneNum) (why : PlaneLoss)
  /-- MESH_PLANE_REHASH (R388): Once in-flight transfers on the plane have arrived, destinations hash over the
  remaining planes. -/
  | meshPlaneRehash (plane : PlaneNum)
  -- power and temperature
  /-- POWER_ESTIMATE (R358): PWR forms a 2 µs power estimate, and the guard compares it with the cap plus the guard.
  -/
  | powerEstimate (quads : List Activity) (rest : Activity)
  /-- ALLOCATOR_DECISION (R360): Every 100 µs the allocator chooses steps for non-Bedrock quadrants and updates its
  table. -/
  | allocatorDecision (measured : List (Nat × Nat))
  /-- PSTEP_SWITCH (R356): Once the PLL is locked and the voltage settled, the quadrant switches its clock without
  glitches. -/
  | pstepSwitch (quad : QuadNum)
  /-- REG_FAIL (R356): A regulator does not acknowledge or settle within 200 µs, so the quadrant keeps its step. -/
  | regFail (quad : QuadNum)
  /-- PWR_LIMIT (R367): PWR_LIMIT_N low engages every divider and invalidates safety streams to DEGRADED. -/
  | pwrLimit
  /-- PWR_LIMIT_RELEASE (R367): PWR_LIMIT_N has been high for 1 ms, and the dividers and the invalidation are
  released. -/
  | pwrLimitRelease
  /-- SENSOR_SAMPLE (R368): Each junction sensor is sampled, checked, and may throttle or invalidate. -/
  | sensorSample (sensor : Fin 64) (reading : Int)
  /-- TJ_OVER_GRADE_CLEAR (R370): Every sensor has read 2 °C below the grade bound for 10 ms, and the invalidation
  is withdrawn. -/
  | tjOverGradeClear
  /-- THERMTRIP (R370): A sensor comparator reaches 125 °C and triggers the shutdown with SS_CAUSE THERMTRIP. -/
  | thermtrip (sensor : Fin 64)
  /-- COOLANT (R371): COOLANT_OK has been low for 2 µs, and arrays stop and the safe state is entered. -/
  | coolant
  /-- COOLANT_CLOCK_STOP (R371): After the records are written and DRAM is in self-refresh, the listed clocks stop
  and rails drop to retention. -/
  | coolantClockStop
  /-- VRDY_FALL (R454): VRDY_Qq falls while no voltage change is under way, which is a supply fault of that
  quadrant. -/
  | vrdyFall (quad : QuadNum)
  -- Ternlink
  /-- R422: the peer's lowest and highest protocol versions, device number and release. -/
  | ternlinkTraining (port : TlkNum) (lo hi : Nat) (peerDev : Nat) (peerRelease : Nat)
  /-- R421: CRC verdict, partition of the transfer, aperture, and the sending core's context. -/
  | ternlinkFlit (port : TlkNum) (crcOk : Bool) (part : PartNum) (aperture : Nat)
      (off : Nat) (data : List Byte)
  /-- TERNLINK_LANE_FAIL (R423): A failing Ternlink lane is steered onto the spare, or narrows or takes down the
  port. -/
  | ternlinkLaneFail (port : TlkNum) (lane : Fin 9)
  /-- TERNLINK_FW_MESSAGE (R405): A firmware message from a peer, such as a release announcement, arrives and may
  post PEER_VERSION. -/
  | ternlinkFwMessage (port : TlkNum) (release : Nat)
  -- links, shares, kicks and the rest
  /-- ING_LINK_DOWN (R253): A bound ingress port loses its link, which sets ERR_STAT.LINK_DOWN and clears ING_LINK
  and STAT.READY. -/
  | ingLinkDown (port : PortNum)
  /-- ING_LINK_UP (R433): An ingress port's link comes up and trains, so ING_LINK.UP and TRAINED are set and
  STAT.READY can rise. -/
  | ingLinkUp (port : PortNum)
  /-- SGMII_LINK_CHANGE (R329): The SGMII PHY reports that its link has come up or gone down, and
  SAFE_EGRESS.LINK_UP follows. -/
  | sgmiiLinkChange (up : Bool)
  /-- MESH_TOKEN_REFILL (R325): At the start of every 1 µs period, each partition's mesh tokens refill to its
  MESH_SHARE without carry-over. -/
  | meshTokenRefill
  /-- DRAM_SHARE_WINDOW (R326): Each 10 µs window of DRAM-share accounting ends, and a DMC restarts counting which
  partitions are within their share. -/
  | dramShareWindow (chan : ChanNum)
  /-- CTRL_CORE_KICK (R315): A control core kicks SAFE, which restarts its 1 ms supervision timer. -/
  | ctrlCoreKick (core : CtrlNum)
  /-- VRDY_RISE (R449): VRDY_Qq of a quadrant regulator rises, and a boot that waits in SAFE_TEST for it goes on. -/
  | vrdyRise (quad : QuadNum)
  /-- TERNLINK_LANE_STEER_DONE (R423): The steering of a failed Ternlink lane onto the spare ends, and the port
  releases its held traffic and replays flits in flight. -/
  | ternlinkLaneSteerDone (port : TlkNum)
  /-- BOOT_FUSE_READ_DONE (R427): The fuse read at boot ends, and the boot either proceeds to SAFE_TEST or stops
  with STOP_CODE 0x05 on a fuse read error. -/
  | bootFuseReadDone (fuses : FuseData)
  deriving DecidableEq, Repr

end Sys2Proof
end

