-- ==== Sys2Proof/WellFormed.lean ====
section
/-! DEFINITION. Which commands are well formed: the operand ranges and lengths the manual gives a
command, beyond what its types already say.  The meanings are total and do not rest on this check. -/

namespace Sys2Proof

/-- A 16-bit operand (stream and image IDs, epochs). -/
def wf16 (n : Nat) : Bool := n < 2 ^ 16
/-- A 32-bit operand. -/
def wf32 (n : Nat) : Bool := n < 2 ^ 32
/-- A sequence number is 64 bits (R274). -/
def wfSeq : Option Nat → Bool
  | none => true
  | some n => n < 2 ^ 64
/-- A declaration block: 16 to 4,096 bytes in steps of 16 (R274). -/
def wfBlock (b : List Byte) : Bool := 16 ≤ b.length && b.length ≤ 4096 && b.length % 16 == 0
/-- A BAR0 register access: 32-bit aligned, within 512 MiB (R413). -/
def wfBar0 (addr : Nat) : Bool := addr < 2 ^ 29 && addr % 4 == 0
/-- A line access stays within its 64-byte line (R149). -/
def wfLine : LineOp → Bool
  | .read => true
  | .writeLine d => d.length == 64
  | .writePart off d => !d.isEmpty && off + d.length ≤ 64
/-- A scratchpad access names one of the 2^19 words (R124). -/
def wfSp : SpOp → Bool
  | .read w => w < 2 ^ 19
  | .unitWrite w _ => w < 2 ^ 19
  | .fwWrite w _ => w < 2 ^ 19
/-- Partition properties that have a field width (R151, R262). -/
def wfProps (p : PartProps) : Bool :=
  (match p.wayMask with
    | none => true
    | some m => m < 2 ^ 16) &&
  (match p.functions with
    | none => true
    | some f => f < 2 ^ 17)
/-- A firmware image: at most 64 MiB, SVN 0 to 63, key index 0 to 3 (R425). -/
def wfFw (len : Nat) (img : FwImage) : Bool := len ≤ 2 ^ 26 && img.svn < 64 && img.keyIndex < 4

/-- A transfer carries at most 256 bytes (R190). -/
def wfXfer : XferResult → Bool
  | .read _ _ data _ => data.length ≤ 64
  | _ => true

/-- A well-formed command. -/
def Instr.wf (i : Instr) : Bool :=
  match i with
  | .loadImage _ len _ _ => 64 ≤ len && len ≤ 2 ^ 30
  | .declareStream _ stream image block _ _ => wf16 stream && wf16 image && wfBlock block
  | .armStream _ stream firstSeq _ ring => wf16 stream && wfSeq firstSeq && ring.length == 64
  | .rearm _ stream firstSeq rebase ring => wf16 stream && wfSeq firstSeq && rebase.all (fun e => e.length == 24) && ring.length == 64
  | .rearmDrained stream => wf16 stream
  | .dispatch _ stream _ _ _ _ _ _ _ _ => wf16 stream
  | .fence _ epoch => wf16 epoch
  | .hintPhase _ _ durationUs => wf32 durationUs
  | .phaseHintExpiry _ => true
  | .cancel _ epoch => wf16 epoch
  | .epochQuiet epoch => epoch < 65535
  | .cancelTimeout epoch => epoch < 65535
  | .epochNumberFreed epoch => epoch < 65535
  | .queryPlacement _ len => wf32 len
  | .queryImageSummary _ image len => wf16 image && wf32 len
  | .queryStreamState _ stream len => wf16 stream && wf32 len
  | .queryAccounting _ len => wf32 len
  | .queryFaultRecords _ len => wf32 len
  | .querySpares _ len => wf32 len
  | .partitionCreate _ _ props => wfProps props
  | .partitionChange _ _ props => wfProps props
  | .partitionRemove _ _ => true
  | .contextBind _ _ _ _ vector => wf16 vector
  | .unload _ image => wf16 image
  | .coreTest _ _ => true
  | .sliceBypass _ _ takers => !takers.isEmpty
  | .settingsWrite _ record => 16 ≤ record.length && record.length ≤ 4096 && record.length % 16 == 0
  | .cameraRegRead _ stream _ _ => wf16 stream
  | .cameraRegWrite _ stream _ _ => wf16 stream
  | .timeSeconds _ seconds => wf32 (seconds / 2 ^ 16)
  | .resumeHeldSkip _ => true
  | .resumeHeldAbort _ => true
  | .acctTrace _ _ => true
  | .fwUpdateStage _ len _ img => wfFw len img
  | .fwUpdateNextReset _ len _ img => wfFw len img
  | .fwUpdateLive _ len _ img => wfFw len img
  | .fwFlashVerified _ => true
  | .liveCoreRejoin _ => true
  | .liveRejoinTimeout _ => true
  | .qmgDoorbell _ _ _ descs => descs.all (fun d => d.length == 64)
  | .qmgCtxQcfgWrite _ _ => true
  | .qmgCtxCplHeadWrite _ _ => true
  | .enterSafeState _ => true
  | .readLog _ => true
  | .pinTest _ => true
  | .pinTestEnd => true
  | .clearCounts _ => true
  | .lockKeyWrite _ page _ => page < 8192
  | .lockTimeout page => page < 8192
  | .errStatClear _ page _ => page < 8192
  | .registerWrite _ addr _ => wfBar0 addr
  | .talTimeLoRead _ => true
  | .talOdoPosLoRead _ => true
  | .ctlAcctWaitLoRead _ => true
  | .coreCntClr _ _ _ => true
  | .ingCntClr _ _ _ => true
  | .monClear _ _ _ => true
  | .monCfgWrite _ _ _ => true
  | .monSample _ _ => true
  | .pwrCapWrite _ _ => true
  | .glbRstReq _ _ => true
  | .bootLoadStart _ _ => true
  | .bootLoadDone img => wfFw 64 img
  | .coreSampleCopy _ => true
  | .coreSampleCopyDone => true
  | .coreSampleRelease _ => true
  | .dbgNoticeHeadWrite _ _ => true
  | .injAbftMismatch _ _ => true
  | .injAccCheck _ _ => true
  | .injStrandFault _ _ => true
  | .injSpEccCorr _ _ => true
  | .injSpEccUncorr _ _ => true
  | .injShcTagCorr _ _ => true
  | .injShcDataCorr _ _ => true
  | .injShcDataUncorr _ _ => true
  | .injDmcEccCorr _ _ => true
  | .injDmcEccUncorr _ _ => true
  | .injDmcLinkCorr _ _ => true
  | .injDmcLinkUncorr _ _ => true
  | .injDescCorr _ => true
  | .injDescUncorr _ => true
  | .injIngCrc _ _ => true
  | .injHdrCorr _ _ => true
  | .injHdrUncorr _ _ => true
  | .injOdoIllegal _ => true
  | .injJlsCorrupt _ => true
  | .injCmdRejected _ => true
  | .injRegFail _ => true
  | .injSensorFail _ => true
  | .injPceCorr _ => true
  | .injTlkLaneSpared _ _ => true
  | .injTlkReplay _ _ => true
  | .hostDramAccess off op _ _ _ => off < 2 ^ 38 && off % 64 == 0 && wfLine op
  | .functionLevelReset _ => true
  | .pciePerst => true
  | .pcieLinkUp speed width mps => 1 ≤ speed && speed ≤ 5 && [1, 2, 4, 8, 16].contains width && [128, 256, 512].contains mps
  | .pcieLinkDown _ => true
  | .powerOnReset => true
  | .bootSafeTestDone _ => true
  | .bootImageVerified => true
  | .bootTrainDone r => r.dies.length == 12 && r.dies.all (fun d => 1 ≤ d.density && d.density ≤ 4 && 1 ≤ d.ranks && d.ranks ≤ 2)
  | .bootCoreTestDone _ => true
  | .bootReady => true
  | .waitCoolantEnd => true
  | .vrdyBootTimeout _ => true
  | .warmReset => true
  | .quiesceDone _ => true
  | .quiesceCutOff _ => true
  | .warmResetReady _ => true
  | .autoRestart => true
  | .quadrantReset _ => true
  | .quadrantResetDone _ _ => true
  | .portReset _ => true
  | .csi2FrameStart _ _ _ _ => true
  | .csi2LongPacket _ _ _ dataType _ _ => dataType < 64
  | .csi2FrameEnd _ _ _ boxes => boxes.all (fun e => e.length == 32)
  | .cxpStreamPacket _ _ _ _ _ _ => true
  | .lineTimeout _ => true
  | .lidarPacket _ pkt => wf32 pkt.srcIp && wf16 pkt.dstPort
  | .ptpMessage _ => true
  | .ppsEdge => true
  | .holdoverEntry => true
  | .holdoverExpiry => true
  | .odoFilteredSample _ _ => true
  | .alignWaitTimeout _ => true
  | .jlsDecode _ _ sample _ => wf32 sample
  | .jlsDecodeDone _ _ => true
  | .tokenise _ sample input => wf32 sample && input.length ≤ 4096
  | .unitStart _ boxes => boxes.all (fun e => e.length == 32)
  | .unitComplete _ _ => true
  | .weightSetLoad _ _ _ src => src.base < 2 ^ 19
  | .arrayRowVerdict _ _ row => row.base < 2 ^ 19 && row.entry < 512 && (match row.fault with | none => true | some f => f.1 ≤ 32)
  | .vectorIssue _ ready _ _ => !ready.isEmpty
  | .scratchpadAccess _ op _ => wfSp op
  | .faultedItem _ => true
  | .coreRecovery _ _ => true
  | .unitOverrun _ => true
  | .hangStop _ => true
  | .drainRequest _ => true
  | .remoteWrite _ _ _ _ addr d =>
    addr + d.words.length ≤ 2 ^ 19 && 1 ≤ d.words.length && addr % 16 + d.words.length ≤ 16 &&
      d.poison.all (· < d.words.length) && (!d.trailer || (d.words.length == 2 && addr % 8 ≤ 6))
  | .windowWaitEnd _ => true
  | .transferComplete _ _ r => wfXfer r
  | .allocate _ _ _ => true
  | .queuePush _ _ _ _ _ => true
  | .queuePop _ _ _ _ => true
  | .bufferReturn _ _ => true
  | .queueWaitEnd _ => true
  | .queueRecovery _ => true
  | .orphanReconcile pool => pool < 4096
  | .batchStart _ => true
  | .budgetReplenish _ => true
  | .voteSignature _ _ _ _ _ _ _ => true
  | .voteUnitTest _ _ => true
  | .recordInvalidation => true
  | .recordEgress stream => wf16 stream
  | .stageDeadline _ _ => true
  | .faultReport _ => true
  | .coreSampleDone _ => true
  | .faultHoldExpiry => true
  | .heartbeatToggle => true
  | .hbKick _ => true
  | .lockstepMismatch _ => true
  | .clockMonitorWindow _ _ _ => true
  | .supplyExcursion _ => true
  | .saferefLoss => true
  | .ctrlCoreKickTimeout _ => true
  | .statusFrame => true
  | .selfTestSliceStart _ => true
  | .selfTestSliceDone _ _ _ => true
  | .testDeferralLimit _ => true
  | .latent _ => true
  | .replacementStart _ cores => !cores.isEmpty && cores.length ≤ 64
  | .replacementCommit _ => true
  | .replacementDone => true
  | .rowRepair _ _ _ => true
  | .scratchpadScrub _ word _ => word < 2 ^ 19
  | .shcAccess _ _ off op _ _ _ _ => off < 2 ^ 38 && off % 64 == 0 && wfLine op
  | .dmcAccess off op _ _ _ => off < 2 ^ 38 && off % 64 == 0 && wfLine op
  | .patrolScrub off _ _ => off < 2 ^ 38 && off % 64 == 0
  | .meshLaneSteer _ _ => true
  | .meshLaneSteerDone _ => true
  | .meshPlaneOut _ _ => true
  | .meshPlaneRehash _ => true
  | .powerEstimate _ _ => true
  | .allocatorDecision _ => true
  | .pstepSwitch _ => true
  | .regFail _ => true
  | .pwrLimit => true
  | .pwrLimitRelease => true
  | .sensorSample _ _ => true
  | .tjOverGradeClear => true
  | .thermtrip _ => true
  | .coolant => true
  | .coolantClockStop => true
  | .vrdyFall _ => true
  | .ternlinkTraining _ lo hi peerDev peerRelease => lo ≤ hi && hi < 256 && peerDev < 8 && peerRelease < 2 ^ 24
  | .ternlinkFlit _ _ _ _ off data => off < 2 ^ 38 && data.length ≤ 256
  | .ternlinkLaneFail _ _ => true
  | .ternlinkFwMessage _ release => release < 2 ^ 24
  | .ingLinkDown _ => true
  | .ingLinkUp _ => true
  | .sgmiiLinkChange _ => true
  | .meshTokenRefill => true
  | .dramShareWindow _ => true
  | .ctrlCoreKick _ => true
  | .vrdyRise _ => true
  | .ternlinkLaneSteerDone _ => true
  | .bootFuseReadDone _ => true

end Sys2Proof
end

