-- ==== Sys2Proof/Decode.lean ====
section
/-! DEFINITION. The decoder over the rows of spec/opcode_table.json that give bits.

No row of the table gives bits: every row's `fields` is empty and none has a fixed pattern (log entry
2).  A command comes from a register access, a queue descriptor, a link, a pin or the state of the
device, never from a word, so no word spells a command. -/

namespace Sys2Proof

/-- The command that a word of `nbits` bits spells: none, since no row of the table gives bits. -/
def decodeTableWord (_nbits _w : Nat) : Option Instr := none

end Sys2Proof
end

