-- ==== Sys2Proof/Config.lean ====
section
/-! DEFINITION. The values that the manual leaves open, as constants with no body.

Nothing in Lean can see what such a constant is, so a statement that holds, holds for every value.
Each is named in notes/assumptions/7.md and in the entry of the rule it belongs to. -/

namespace Sys2Proof.Config

open Sys2Proof

/-- A fresh 32-bit value that the manual does not state, by draw number. -/
opaque freeWord : Nat → W32

/-- A fresh number that the manual does not state, by draw number. -/
opaque freeNat : Nat → Nat

/-- The payload of a record that the QMG writes itself, by draw number: R299 and R310 give its state
and cause, no rule its payload. -/
opaque freePayload : Nat → List Byte

/-- Reason byte of a LOAD_IMAGE that fails under R129: the table of R273 lists none.
DESIGN CHOICE: log entry 7. -/
opaque regionReason : Nat

/-- The word that a vector function takes where R54 leaves its result open, by function (0 reciprocal, 1 reciprocal square
root, 2 exp, 3 exp2, 4 log, 5 log2, 6 sigmoid, 7 tanh, 8 GELU) and operand: it names a value within the stated bound, and is
the result itself for an operand for which no bound is stated.  One function for the whole device: R31 makes every core agree.
DESIGN CHOICE: log entry 7. -/
opaque vecFn : Nat → W32 → W32

/-- The word that the vector engine's compare writes for an exact outcome: 0 less, 1 equal, 2 greater, 3 unordered.  R54
names compare and gives no encoding of its result.
DESIGN CHOICE: log entry 7. -/
opaque vecCompare : Nat → W32

/-- What a vector instruction returns where no rule states a result, by its operands: 0 a dot product whose sum leaves 32 bits,
1 a pool of a window with no position in the image, 2 an average pool of INT4, UINT4 or INT16.  One function for the whole
device: R31 makes every core agree.
DESIGN CHOICE: log entry 57. -/
opaque vecOpen : Nat → List W32 → W32

/-- Word `w` of the resident region of a core that hosts stage `stage` of image `image`, as the stage image holds it (R100,
R129): the model's images carry no weight bytes.  One function for every core: R31 makes them agree.
DESIGN CHOICE: log entry 44. -/
opaque residentWord : (image stage w : Nat) → W32

/-- Which of the two FP32 values next to the exact result the reciprocal (0) and the reciprocal square root (1) return:
R54 allows an error of 1 ulp. -/
opaque vecAway : Nat → W32 → Bool

/-- The set of a slice that a DRAM line number falls in: R149 gives 2,048 sets and no index. -/
opaque shcSet : Nat → Nat

/-- The data sub-bank of a slice that holds a line of a set and way: R142 gives 32 and no mapping. -/
opaque shcSubBank : (set way : Nat) → Nat

/-- The row of its sub-bank that holds the data of a set and way, and the row of a copy of the tags that holds a set: R142
gives spare rows and no mapping. -/
opaque shcRow : (set way : Nat) → Nat
opaque shcTagRow : (set : Nat) → Nat

/-- The two neighbours of a junction sensor: R368 names them and gives no geometry. -/
opaque neighbours : Nat → Nat × Nat

/-- Estimated power of quadrant `q` at step `step` with the divider or without, from its activity and
its hottest sensor, in 1/16 W: the per-part coefficients of R358. -/
opaque quadPower : (q step : Nat) → (div : Bool) → Activity → (hot : Int) → Nat

/-- Estimated power of the rest of the device, in 1/16 W (R358). -/
opaque restPower : Activity → (hot : Int) → Nat

/-- Sertoyr's default of the learned table (R361): power in 1/16 W and progress, by quadrant, phase and
step (step 16 stands for step 0 with the divider). -/
opaque tableDefault : (q phase step : Nat) → Nat × Nat

/-- Byte offset, width in bits and big-endian order of a lidar stream's packet index: R217 declares them
and R275 gives no item that carries them. -/
opaque lidarIndex : (stream : Nat) → Nat × Nat × Bool

/-- The 48 bytes of colour matrix and offsets at a host address (R275 COLOUR), as 12 FP32 words. -/
opaque colourMatrix : (addr : Nat) → List W32

/-- The augmentation ranges at a host address (R275 ADAPT gives no layout): 0 and 1 the crop ranges in y and x, 2 and 3 the
gain's bounds, 4 and 5 the offset's bounds, 6 the noise amplitude of R247. -/
opaque augRange : (addr k : Nat) → W32

/-- The hash that chooses among the planes in service by destination (R16). -/
opaque planeHash : Nat → Nat

/-- The pixels of a line of bytes for a sample depth other than 8 bits: R212 names the data types and gives no packing. -/
opaque unpack : (depth : Nat) → List Byte → List Nat

/-- Byte within a four-byte YUV422 pair of its first Y, second Y, U and V (0 to 3): R212 gives no order. -/
opaque yuvPos : Nat → Nat

/-- Storage format of PPE's output for a stream, and the size it resizes to, none when that step is absent: R236 declares
both and R275 gives no item that carries them. -/
opaque ppeFormat : (stream : Nat) → Fmt
opaque ppeSize : (stream : Nat) → Option (Nat × Nat)

/-- Frames lost between two frame numbers of a camera when the second is not above the first: R228 gives no wrap.
DESIGN CHOICE: log entry 80. -/
opaque framesLost : (last now : Nat) → Nat

/-- The MTU of an Ethernet lane (R218): no rule gives its value. -/
opaque laneMtu : (lane : Nat) → Nat

/-- The colour-filter pattern that a code of the GEOMETRY item names (R237, R275): 1 RGGB, 2 GRBG, 3 GBRG,
4 BGGR, anything else none.  R275 gives no codes. -/
opaque cfaPattern : (code : Nat) → Nat

/-- Field `field` of the value of a settings record (R430 names the contents of each type, no rule its bytes). -/
opaque settingField : (type field : Nat) → List Byte → Nat

/-- The value of a settings record gives field `field` (R262: a property that a record omits takes its default). -/
opaque settingHas : (type field : Nat) → List Byte → Bool

/-- The CXP-n speed that a camera pair is declared for (R214, R252): no item of R275 carries it. -/
opaque cxpSpeed : (pair : Nat) → Nat

/-- Active D-PHY lanes of a CSI-2 port (R252): no rule says where they are declared. -/
opaque csiLanes : (port : Nat) → Nat

/-- The size of a QUERY stream-state answer (R277 gives no layout). -/
opaque streamStateBytes : Nat

/-- The size of the accounting record and of the spare-pool answer of QUERY (R277 gives no layout). -/
opaque accountingBytes : Nat
opaque sparesBytes : Nat

/-- Bytes of a settings sector that its header takes (R428 names the header and gives no length). -/
opaque sectorHeader : Nat

end Sys2Proof.Config
end

