-- ==== Sys2Proof/Machine/Bits.lean ====
section
/-! DEFINITION. Bytes, check values, signatures, generators, tile order and address maps:
the pure functions of the manual (R11, R91, R150, R157, R170, R181, R229, R245, R305, R458). -/

namespace Sys2Proof.Machine.Bits

open Sys2Proof

/-! ### Little-endian bytes (R103) -/

/-- The number a little-endian byte string stands for. -/
def leNat : List Byte → Nat
  | [] => 0
  | b :: bs => b.toNat + 256 * leNat bs

/-- `n` little-endian bytes of `v`. -/
def toBytes : (n v : Nat) → List Byte
  | 0, _ => []
  | n + 1, v => BitVec.ofNat 8 v :: toBytes n (v / 256)

/-- The field of `len` bytes at offset `off` of a byte string. -/
def field (bs : List Byte) (off len : Nat) : Nat := leNat ((bs.drop off).take len)

/-- True when bytes `off` to `off + len - 1` are 0. -/
def zeroAt (bs : List Byte) (off len : Nat) : Bool := field bs off len == 0

/-! ### CRC-32C (R229) and CRC-64 (R305) -/

/-- One bit of the reflected CRC-32C. -/
def crc32cBit (c : Nat) : Nat := if c % 2 = 1 then (c / 2) ^^^ 0x82F63B78 else c / 2

/-- One byte of the reflected CRC-32C. -/
def crc32cByte (c : Nat) (b : Byte) : Nat :=
  let c0 := c ^^^ b.toNat
  crc32cBit (crc32cBit (crc32cBit (crc32cBit (crc32cBit (crc32cBit (crc32cBit (crc32cBit c0)))))))

/-- CRC-32C of a byte string: reflected polynomial 0x82F6_3B78, initial and final 0xFFFF_FFFF (R229). -/
def crc32c (bs : List Byte) : W32 :=
  BitVec.ofNat 32 ((bs.foldl crc32cByte 0xFFFFFFFF) ^^^ 0xFFFFFFFF)

/-- One bit of the CRC-64 of R305. -/
def crc64Bit (c : Nat) : Nat :=
  if c ≥ 2 ^ 63 then ((2 * c) % 2 ^ 64) ^^^ 0x42F0E1EBA9EA3693 else 2 * c

/-- One byte of the CRC-64 of R305. -/
def crc64Byte (c : Nat) (b : Byte) : Nat :=
  let c0 := c ^^^ (b.toNat * 2 ^ 56)
  crc64Bit (crc64Bit (crc64Bit (crc64Bit (crc64Bit (crc64Bit (crc64Bit (crc64Bit c0)))))))

/-- The signature of a copy's output buffer (R305). -/
def crc64 (bs : List Byte) : W64 := BitVec.ofNat 64 (bs.foldl crc64Byte 0)

/-! ### Counter-based generator (R245) -/

/-- One round of the generator on the counter words, with key words `k0`, `k1`. -/
def philoxRound (c : Nat × Nat × Nat × Nat) (k0 k1 : Nat) : Nat × Nat × Nat × Nat :=
  let (c0, c1, c2, c3) := c
  let p := 0xD2511F53 * c0
  let q := 0xCD9E8D57 * c2
  let m := 2 ^ 32
  ((q / m) ^^^ c1 ^^^ k0, q % m, (p / m) ^^^ c3 ^^^ k1, p % m)

/-- `n` rounds with the key schedule of R245. -/
def philoxRounds : Nat → Nat × Nat × Nat × Nat → Nat → Nat → Nat × Nat × Nat × Nat
  | 0, c, _, _ => c
  | n + 1, c, k0, k1 =>
    philoxRounds n (philoxRound c k0 k1) ((k0 + 0x9E3779B9) % 2 ^ 32) ((k1 + 0xBB67AE85) % 2 ^ 32)

/-- The output word of a draw (R245): 10 rounds, word c0. -/
def gen (c0 c1 c2 c3 : Nat) (key : W64) : Nat :=
  (philoxRounds 10 (c0 % 2 ^ 32, c1 % 2 ^ 32, c2 % 2 ^ 32, c3 % 2 ^ 32)
    (key.toNat % 2 ^ 32) (key.toNat / 2 ^ 32)).1

/-- The 16-bit draw of stochastic rounding (R122, R246). -/
def roundDraw (seed : W64) (tensor step micro elem : Nat) : Nat :=
  gen elem step ((tensor % 65536) * 65536 + micro % 65536) 1 seed % 65536

/-- The output word of an augmentation draw (R246, R247). -/
def augDraw (seed : W64) (draw sample augSet : Nat) : Nat :=
  gen draw sample (augSet % 65536) 2 seed

/-! ### Hilbert order (R91) -/

/-- The grid size n: the smallest power of 2 that is at least `k`. -/
def pow2Above (k : Nat) : Nat := if k ≤ 1 then 1 else 2 ^ (Nat.log2 (k - 1) + 1)

/-- The loop of R91's `d2xy` from side `s`, for `fuel` levels. -/
def d2xyLoop : (fuel t s x y : Nat) → Nat × Nat
  | 0, _, _, x, y => (x, y)
  | fuel + 1, t, s, x, y =>
    let rx := (t / 2) % 2
    let ry := (t ^^^ rx) % 2
    let (x1, y1) :=
      if ry = 0 then
        let (x', y') := if rx = 1 then (s - 1 - x, s - 1 - y) else (x, y)
        (y', x')
      else (x, y)
    d2xyLoop fuel (t / 4) (s * 2) (x1 + s * rx) (y1 + s * ry)

/-- Tile position of Hilbert position `d` on an n × n grid, n = 2^k (R91). -/
def d2xy (k d : Nat) : Nat × Nat := d2xyLoop k d 1 0 0

/-- The tiles of a Cw × Ch grid in visit order (R91). -/
def visitOrder (cw ch : Nat) : List (Nat × Nat) :=
  let n := pow2Above (max cw ch)
  ((List.range (n * n)).map (d2xy (Nat.log2 n))).filter (fun p => p.1 < cw && p.2 < ch)

/-! ### Positions on the mesh (R11, R12, R458) -/

/-- Mesh stop of a slice: the even rows and even columns of its quadrant (R12), row by row.
DESIGN CHOICE: log entry 105. -/
def sliceStop (k : Nat) : Nat × Nat := (k / 12 % 2 * 8 + k % 4 * 2, k / 12 / 2 * 6 + k % 12 / 4 * 2)
/-- Quadrant of a core. -/
def coreQuad (n : Nat) : Nat := n / 48
/-- Row within the quadrant. -/
def coreRow (n : Nat) : Nat := (n % 48) / 8
/-- Column within the quadrant. -/
def coreCol (n : Nat) : Nat := n % 8
/-- Mesh x of a core. -/
def coreX (n : Nat) : Nat := (coreQuad n % 2) * 8 + coreCol n
/-- Mesh y of a core. -/
def coreY (n : Nat) : Nat := (coreQuad n / 2) * 6 + coreRow n
/-- Mesh stop number x + 16y of R183. -/
def coreStop (n : Nat) : Nat := coreX n + 16 * coreY n
/-- Quadrant of a slice. -/
def sliceQuad (s : Nat) : Nat := s / 12
/-- Quadrant of a DMC channel. -/
def chanQuad (c : Nat) : Nat := c / 3
/-- Stop of an ING port (R458). -/
def portStop (p : Nat) : Nat × Nat := if p < 12 then (0, p) else (15, (p - 12) / 2)
/-- Stop of the QMG port of a quadrant, with its vote units (R458). -/
def qmgStop (q : Nat) : Nat × Nat :=
  (if q % 2 = 0 then 7 else 8, if q / 2 = 0 then 5 else 6)
/-- Stop of the PCIe endpoint (R458). -/
def pceStop : Nat × Nat := (8, 0)
/-- Mesh stop of a vote unit: units 32q to 32q + 31 stand at the QMG port of quadrant q (R458). -/
def voteStop (v : Nat) : Nat × Nat := qmgStop (v / 32)
/-- Hop count between two stops (R458). -/
def hops (a b : Nat × Nat) : Nat :=
  (max a.1 b.1 - min a.1 b.1) + (max a.2 b.2 - min a.2 b.2)

/-! ### DRAM maps (R150, R156, R157) -/

/-- Addressable bytes per channel: 15/16 of the fitted capacity, for R168's DENSITY and RANKS (R155). -/
def channelBytes (density ranks : Nat) : Nat :=
  let gib := match density with
    | 1 => 4
    | 2 => 8
    | 3 => 12
    | _ => 16
  gib * (if ranks = 1 && density ≤ 2 then 2 else 1) * 2 ^ 30 * 15 / 16

/-- Where a DRAM offset lies: channel index among the active ones, sub-channel, page, line in the page,
bank and row (R157). -/
structure DramLoc where
  channel : Nat
  sub : Nat
  page : Nat
  line : Nat
  bank : Nat
  row : Nat
  rank : Nat := 0
  deriving DecidableEq, Repr

/-- Rows of a bank within one rank, for R168's DENSITY: a sub-channel of `density` × 8 Gb has 16 banks of 2 KiB pages (R155,
R156). -/
def rankRows (density : Nat) : Nat := 32768 * max 1 (min 4 density)

/-- R157 with `n` active channels of `rows` rows in a rank. -/
def dramLoc (n a : Nat) (rows : Nat := 131072) : DramLoc :=
  let b := a / 256
  let g := b / n
  let p := g / 30
  { channel := (b + g) % n, sub := (a / 64) % 4, page := p, line := g % 30,
    bank := (p % 16) ^^^ (p / 16 % 16), row := p / 16 % rows, rank := p / 16 / rows }

/-- The bucket of a DRAM line number (R150 step 2). -/
def bucketOf (l : Nat) : Nat :=
  let h := bitField l 0 6 ^^^ bitField l 6 6 ^^^ bitField l 12 6 ^^^ bitField l 18 6
    ^^^ bitField l 24 6 ^^^ bitField l 30 2
  64 * (l % 3) + h

/-! ### Buffer handles (R170) -/

/-- The fields of a handle. -/
structure Handle where
  kind : Nat
  pool : Nat
  index : Nat
  gen : Nat
  flag : Bool
  corrected : Bool
  last : Bool
  tag : Nat
  deriving DecidableEq, Repr

/-- Fields of a 64-bit handle. -/
def ofHandle (w : W64) : Handle :=
  let n := w.toNat
  { kind := bitField n 60 4, pool := bitField n 48 12, index := bitField n 24 24,
    gen := bitField n 16 8, flag := bitField n 15 1 == 1, corrected := bitField n 14 1 == 1,
    last := bitField n 13 1 == 1, tag := bitField n 0 8 }

/-- The 64 bits of a handle; bits [12:8] are 0. -/
def Handle.toWord (h : Handle) : W64 :=
  BitVec.ofNat 64
    (h.kind % 16 * 2 ^ 60 + h.pool % 4096 * 2 ^ 48 + h.index % 2 ^ 24 * 2 ^ 24 + h.gen % 256 * 2 ^ 16
      + (if h.flag then 2 ^ 15 else 0) + (if h.corrected then 2 ^ 14 else 0)
      + (if h.last then 2 ^ 13 else 0) + h.tag % 256)

/-- Key of a buffer in the QMG's table. -/
def bufKey (pool index : Nat) : Nat := pool * 2 ^ 18 + index

/-! ### Vocabulary match (R244) -/

/-- True when `p` is a prefix of `xs`. -/
def isPrefix : List Byte → List Byte → Bool
  | [], _ => true
  | _ :: _, [] => false
  | p :: ps, x :: xs => p == x && isPrefix ps xs

/-- The longest entry that matches at the start of `xs`, as (length, ID). -/
def longest (vocab : List (List Byte × Nat)) (xs : List Byte) : Nat × Nat :=
  vocab.foldl (fun best e =>
    if isPrefix e.1 xs && best.1 < e.1.length then (e.1.length, e.2) else best) (0, 0)

/-- Greedy longest match from the current position (R244); `fuel` bounds the tokens by the input length. -/
def tokens (vocab : List (List Byte × Nat)) : (fuel : Nat) → List Byte → List Nat
  | 0, _ => []
  | _, [] => []
  | fuel + 1, x :: xs =>
    let best := longest vocab (x :: xs)
    best.2 :: tokens vocab fuel ((x :: xs).drop (max 1 best.1))

end Sys2Proof.Machine.Bits
end

