-- ==== Sys2Proof/Machine/Operands.lean ====
section
/-! DEFINITION. Operand forms: the register map (R431, R432 and each block's page), the items of a
declaration block (R275), command descriptors (R202), rebase entries (R274), ring descriptors (R418) and
settings records (R428). -/

namespace Sys2Proof.Machine

open Sys2Proof Sys2Proof.Machine.Bits

/-! ### Register pages (R431) -/

/-- A block with a register page. -/
inductive Block where
  | glb | ctl | safe | pwr | boot | dbg | mon
  | ing (p : Nat)
  | tal | ppe | qmg
  | dmc (c : Nat)
  | mesh
  | shc (s : Nat)
  | pce
  | tlk (p : Nat)
  | core (n : Nat)
  deriving DecidableEq, Repr

/-- Page number of a block: its BAR0 offset div 0x1_0000 (R431). -/
def Block.page : Block → Nat
  | .glb => 0 | .ctl => 1 | .safe => 2 | .pwr => 3 | .boot => 4 | .dbg => 5 | .mon => 6
  | .ing p => 0x10 + p
  | .tal => 0x40 | .ppe => 0x50 | .qmg => 0x60
  | .dmc c => 0x70 + c
  | .mesh => 0x80
  | .shc s => 0x90 + s
  | .pce => 0xC0
  | .tlk p => 0xC1 + p
  | .core n => 0x100 + n

/-- The block whose page has this number; none in a gap (R431, R9). -/
def blockOfPage (page : Nat) : Option Block :=
  if page = 0 then some .glb else if page = 1 then some .ctl else if page = 2 then some .safe
  else if page = 3 then some .pwr else if page = 4 then some .boot else if page = 5 then some .dbg
  else if page = 6 then some .mon
  else if 0x10 ≤ page ∧ page < 0x34 then some (.ing (page - 0x10))
  else if page = 0x40 then some .tal else if page = 0x50 then some .ppe else if page = 0x60 then some .qmg
  else if 0x70 ≤ page ∧ page < 0x7C then some (.dmc (page - 0x70))
  else if page = 0x80 then some .mesh
  else if 0x90 ≤ page ∧ page < 0xC0 then some (.shc (page - 0x90))
  else if page = 0xC0 then some .pce
  else if page = 0xC1 ∨ page = 0xC2 then some (.tlk (page - 0xC1))
  else if 0x100 ≤ page ∧ page < 0x1C0 then some (.core (page - 0x100))
  else none

/-- Block type and instance of the ID register (R432). -/
def Block.ident : Block → Nat × Nat
  | .glb => (1, 0) | .ctl => (2, 0) | .safe => (3, 0) | .pwr => (4, 0) | .boot => (5, 0) | .dbg => (6, 0)
  | .mon => (7, 0)
  | .ing p => (0x10, p)
  | .tal => (0x11, 0) | .ppe => (0x12, 0) | .qmg => (0x13, 0)
  | .dmc c => (0x14, c)
  | .mesh => (0x15, 0)
  | .shc s => (0x16, s)
  | .pce => (0x17, 0)
  | .tlk p => (0x18, p)
  | .core n => (0x20, n)

/-- Unit code of a block's fault records (R301); blocks without a code report as CTL. -/
def Block.unitCode : Block → Nat
  | .core n => n
  | .ing _ => 0xC0 | .tal => 0xC0
  | .qmg => 0xC1
  | .shc _ => 0xC2
  | .dmc _ => 0xC3
  | .mesh => 0xC4
  | .pwr => 0xC6
  | .safe => 0xC7
  | .ppe => 0xC8
  | .glb => 0xC5 | .ctl => 0xC5 | .boot => 0xC5 | .dbg => 0xC5 | .mon => 0xC5 | .pce => 0xC5 | .tlk _ => 0xC5

/-- Access codes (R7). -/
inductive Access where
  | ro | rw | w1c | w1s | wo | rws
  deriving DecidableEq, Repr

/-- Access code of a register of the common header; none where nothing is mapped (R432). -/
def headerAccess (off : Nat) : Option Access :=
  if [0x00, 0x04, 0x08, 0x10, 0x20, 0x24, 0x28, 0x80, 0x88, 0x8C].contains off then some .ro
  else if [0x0C, 0x18, 0x34, 0x38, 0x40].contains off then some .rw
  else if [0x14, 0x30].contains off then some .w1c
  else if off = 0x1C then some .w1s
  else none

/-- True when `off` is one of the words from `lo` to `hi`. -/
def wordIn (off lo hi : Nat) : Bool := lo ≤ off && off ≤ hi && off % 4 == 0

/-- Access code of a register of a monitor at offset `r` of its block of 0x100 bytes (R440). -/
def monAccess (r : Nat) : Option Access :=
  if wordIn r 0x00 0x10 then some .rw
  else if wordIn r 0x14 0x1C then some .ro
  else if r = 0x20 then some .w1s
  else if wordIn r 0x80 0xFC then some .ro
  else none

/-- Access code of a register after the header (R67, R164, R166, R167, R206, R251, R254, R259, R291,
R329, R376, R409, R437, R440). -/
def bodyAccess (b : Block) (off : Nat) : Option Access :=
  match b with
  | .glb =>
    if [0x100, 0x104, 0x108, 0x110, 0x114, 0x118].contains off then some .ro
    else if off = 0x120 then some .wo else none
  | .ctl =>
    if [0x100, 0x104, 0x10C, 0x110, 0x114, 0x124, 0x128, 0x12C, 0x130, 0x134, 0x138].contains off then
      some .ro
    else if off = 0x108 then some .rws
    else if off = 0x120 then some .rw else none
  | .safe =>
    if wordIn off 0x100 0x10C || wordIn off 0x120 0x140 || off == 0x194 || wordIn off 0x1A0 0x1BC then
      some .ro
    else if wordIn off 0x110 0x11C then some .rws
    else if wordIn off 0x180 0x18C then some .rw
    else if off = 0x190 then some .wo else none
  | .pwr =>
    if off = 0x100 ∨ off = 0x104 then some .rw
    else if off = 0x12C then some .rws
    else if wordIn off 0x108 0x130 || wordIn off 0x200 0x2FC then some .ro else none
  | .boot =>
    if off = 0x100 ∨ off = 0x120 then some .ro
    else if wordIn off 0x110 0x118 then some .rw
    else if off = 0x11C then some .w1s else none
  | .dbg =>
    if wordIn off 0x100 0x114 || wordIn off 0x120 0x12C || off == 0x150 || off == 0x160 then some .ro
    else if off = 0x130 ∨ off = 0x134 ∨ off = 0x140 ∨ off = 0x144 ∨ off = 0x148 then some .rw
    else if off = 0x138 then some .w1s
    else if off = 0x14C then some .wo else none
  | .mon => if 0x1000 ≤ off ∧ off < 0x5000 then monAccess (off % 0x100) else none
  | .ing _ =>
    if off = 0x100 ∨ off = 0x104 then some .ro
    else if wordIn off 0x110 0x134 || wordIn off 0x140 0x14C then some .ro
    else if off = 0x13C then some .w1s else none
  | .tal =>
    if off = 0x134 ∨ off = 0x140 ∨ off = 0x160 then some .rw
    else if wordIn off 0x100 0x138 || wordIn off 0x144 0x154 || wordIn off 0x164 0x170
        || wordIn off 0x180 0x1BC then some .ro else none
  | .ppe => if wordIn off 0x100 0x120 then some .ro else none
  | .qmg =>
    if [0x110, 0x130, 0x140, 0x160, 0x164, 0x168, 0x16C, 0x170, 0x174].contains off then some .rw
    else if off = 0x178 then some .wo
    else if off = 0x188 ∨ off = 0x18C then some .rws
    else if off = 0x100 ∨ off = 0x104 ∨ off = 0x180 ∨ off = 0x184 then some .ro
    else if wordIn off 0x114 0x12C || wordIn off 0x134 0x13C || wordIn off 0x144 0x148 then some .ro
    else if wordIn off 0x4000 0x7FFC then some .wo else none
  | .dmc _ =>
    if [0x100, 0x104, 0x114, 0x118].contains off then some .ro
    else if wordIn off 0x108 0x110 then some .rws else none
  | .mesh =>
    if off = 0x100 || wordIn off 0x200 0x2BC || wordIn off 0x1000 0x2FFC then some .ro else none
  | .shc _ =>
    if off = 0x11C then some .rws
    else if off = 0x100 || wordIn off 0x110 0x120 || wordIn off 0x140 0x17C then some .ro else none
  | .pce => if off = 0x100 ∨ off = 0x104 then some .ro else none
  | .tlk _ => if wordIn off 0x100 0x108 then some .ro else none
  | .core _ =>
    if off = 0x114 then some .rws
    else if off = 0x118 then some .rw
    else if off = 0x148 then some .w1s
    else if wordIn off 0x100 0x110 || wordIn off 0x120 0x128 || wordIn off 0x130 0x144 then some .ro
    else none

/-- Access code of the register of block `b` at page offset `off`; none where nothing is mapped. -/
def regAccess (b : Block) (off : Nat) : Option Access :=
  if off < 0x100 then headerAccess off else bodyAccess b off

/-- Registers that LOCK protects against the physical function: ERR_INJ in every page (R432), CORE_INJ_SEL
(R66), PWR_CAP and PWR_GUARD (R375). -/
def lockProtected (b : Block) (off : Nat) : Bool :=
  off == 0x1C ||
  match b with
  | .core _ => off == 0x118
  | .pwr => off == 0x100 || off == 0x104
  | _ => false

/-- Registers that end in SEL (R415). -/
def isSel (b : Block) (off : Nat) : Bool :=
  match b with
  | .ctl => off == 0x120
  | .qmg => [0x110, 0x130, 0x140, 0x160].contains off
  | .tal => [0x134, 0x140, 0x160].contains off
  | _ => false

/-- Implemented bits of a register that host software writes as a value; other bits are reserved and
ignored (R8). -/
def writeMask (b : Block) (off : Nat) : Nat :=
  match b with
  | .ctl => if off = 0x120 then 0xFFF else 0xFFFFFFFF
  | .qmg =>
    if off = 0x110 ∨ off = 0x140 ∨ off = 0x160 then 0xFFF
    else if off = 0x130 then 0x3FFF
    else if off = 0x164 ∨ off = 0x16C then 0xFFFFFFC0
    else 0xFFFFFFFF
  | .tal => if off = 0x134 then 0xF else if off = 0x140 then 0x3F else if off = 0x160 then 0x7F else 0xFFFFFFFF
  | .dbg => if off = 0x130 ∨ off = 0x140 then 0xFFFFFFC0 else 0xFFFFFFFF
  | .boot => if off = 0x118 then 0x7FFFFFF else 0xFFFFFFFF
  | .core _ => if off = 0x118 then 0x1F3F03 else 0xFFFFFFFF
  | _ => 0xFFFFFFFF

/-! ### Command descriptors (R202) -/

/-- Opcodes (R202). -/
def opLoadImage : Nat := 1
def opDeclareStream : Nat := 2
def opArmStream : Nat := 3
def opRearm : Nat := 4
def opDispatch : Nat := 5
def opFence : Nat := 6
def opHintPhase : Nat := 7
def opCancel : Nat := 8
def opQuery : Nat := 9
def opService : Nat := 10

/-- ARGS bytes (12 to 59) that R274 or R402 lists for an opcode, as (first, last) pairs.  SERVICE
arguments other than FW_UPDATE's have no byte layout, so none of 16 to 59 is reserved there. -/
def argBytes (op fnCode : Nat) : List (Nat × Nat) :=
  if op = 1 then [(12, 27)]
  else if op = 2 then [(12, 29)]
  else if op = 3 then [(12, 14), (16, 23)]
  else if op = 4 then [(12, 14), (16, 23), (24, 33)]
  else if op = 5 then [(12, 59)]
  else if op = 6 then [(12, 13)]
  else if op = 7 then [(12, 12), (16, 19)]
  else if op = 8 then [(12, 13)]
  else if op = 9 then [(12, 12), (14, 27)]
  else if op = 10 then (if fnCode = 0x0B then [(12, 12), (14, 32)] else [(12, 12), (14, 59)])
  else []

/-- Every ARGS byte that R274 does not list is 0, and so is every unused bit of a listed one (R203). -/
def argsReservedZero (d : List Byte) : Bool :=
  let op := field d 0 1
  let listed := argBytes op (field d 12 1)
  ((List.range 48).all fun i =>
    let b := 12 + i
    listed.any (fun p => p.1 ≤ b && b ≤ p.2) || field d b 1 == 0) &&
  (if op = 3 ∨ op = 4 then field d 14 1 < 2
   else if op = 5 then field d 14 1 < 8 && field d 15 1 < 2
   else if op = 7 then field d 12 1 < 16
   else true)

/-- A descriptor that the QMG executes: CRC right, opcode known, CONTEXT equal to `c`, reserved bits 0
(R202, R203). -/
def descOk (d : List Byte) (c : Nat) : Bool :=
  d.length == 64 &&
  field d 60 4 == (crc32c (d.take 60)).toNat &&
  1 ≤ field d 0 1 && field d 0 1 ≤ 10 &&
  field d 1 1 < 2 &&
  field d 2 2 == c &&
  zeroAt d 8 4 &&
  argsReservedZero d

/-! ### Rebase entries and ring descriptors (R274, R418) -/

/-- A rebase entry: is-queue, number, base, metadata base; none when a reserved byte is nonzero, the kind
is neither 0 nor 1, or a queue has a metadata base (R193, R274). -/
def parseRebase (e : List Byte) : Option (Bool × Nat × Nat × Nat) :=
  if field e 0 1 ≤ 1 && zeroAt e 1 1 && zeroAt e 4 4 && (field e 0 1 == 0 || zeroAt e 16 8) then
    some (field e 0 1 == 1, field e 2 2, field e 8 8, field e 16 8)
  else none

/-- LOG2_DEPTH and slot size of a ring descriptor for records of `rec` bytes; none when out of range
(R418). -/
def parseRing (d : List Byte) (rec : Nat) : Option (Nat × Nat) :=
  let log2 := field d 0 4
  let slot := field d 4 4
  if 3 ≤ log2 && log2 ≤ 20 && slot % 64 == 0 && rec ≤ slot && (d.drop 8).all (· == 0) then
    some (log2, slot)
  else none

/-! ### Settings records (R428, R430) -/

/-- The structure of a settings record: type, instance, generation and value; none when it is
malformed or its CRC-32C fails. -/
def parseSetting (r : List Byte) : Option (Nat × Nat × Nat × List Byte) :=
  let len := field r 4 2
  let value := (r.drop 16).take len
  if len ≤ 4080 && 16 + len ≤ r.length && zeroAt r 6 2 &&
      field r 12 4 == (crc32c (r.take 12 ++ value)).toNat then
    some (field r 0 2, field r 2 2, field r 8 4, value)
  else none

/-- Record types that firmware owns (R430). -/
def firmwareOwned (type : Nat) : Bool := [0x0001, 0x0080, 0x0081, 0x0082, 0x0083].contains type

/-- Record types that the device knows (R430). -/
def knownSetting (type : Nat) : Bool :=
  firmwareOwned type ||
    [0x0010, 0x0011, 0x0020, 0x0021, 0x0030, 0x0040, 0x0041, 0x0050, 0x0060].contains type

end Sys2Proof.Machine
end

