-- ==== Sys2Proof/Machine/State.lean ====
section
/-! DEFINITION. The state of the FX-L9: plain data that holds every register, queue, buffer, counter,
mode and pin the manual gives the device, the queue of waiting commands, and the free-value counter.

Each field's comment gives its width or range, the rule that names it and its reset value.
Reset values marked DESIGN CHOICE are the model's, see notes/assumptions/1.md. -/

namespace Sys2Proof.Machine

open Sys2Proof

/-- A sparse table: entries by rising key; a key that is not listed holds the table's default. -/
abbrev Tab (α : Type) := List (Nat × α)

/-! ### What a command can stop with -/

/-- The reasons a step can end in a fault.  No command of this block ends in one: each error of the
device is an effect on the state (a flag, a record, a poisoned word).  The constructor is the
fault of an access outside the memories that the manual gives the device. -/
inductive Fault where
  /-- Raised by nothing in the present model; kept for a memory access outside every address space.
  Safe: the machine stops. -/
  | addressSpace
  deriving DecidableEq, Repr

/-- The reasons a step can be refused. -/
inductive Refusal where
  /-- Raised by a dispatch arm whose command has no meaning yet.  Safe: the machine stops. -/
  | notModelled (mnemonic : String)
  deriving DecidableEq, Repr

/-! ### Common page header (R432 to R435) -/

/-- The header of a register page.  One per page number (BAR0 offset div 0x1_0000). -/
structure Header where
  /-- CTRL.EN; 1 bit; R433; reset 1 -/
  en : Bool := true
  /-- CTRL.BYPASS; 1 bit; R433; reset 0 -/
  bypass : Bool := false
  /-- CTRL.ISOLATE; 1 bit; R433; reset 0 -/
  isolate : Bool := false
  /-- STAT.IN_TEST; 1 bit; R433; reset 0 -/
  inTest : Bool := false
  /-- STAT.ISOLATED; 1 bit; R433; reset 0 -/
  isolated : Bool := false
  /-- STAT.BUSY; 1 bit; R433; reset 0 -/
  busy : Bool := false
  /-- ERR_STAT; 32 bits; R432, R435; reset 0 -/
  errStat : W32 := 0
  /-- ERR_EN; 32 bits; R432; reset all ones -/
  errEn : W32 := 0xFFFFFFFF
  /-- injections accepted through ERR_INJ and not yet consumed; 32 bits; R432; reset 0 -/
  inj : W32 := 0
  /-- ERR_ADDR_HI and ERR_ADDR_LO; 64 bits; R435; reset 0 (DESIGN CHOICE) -/
  errAddr : W64 := 0
  /-- ERR_CTX; 32 bits; R432, R435; reset 0 (DESIGN CHOICE) -/
  errCtx : W32 := 0
  /-- INT_STAT; [1] NOTICE, [0] ERR; R432; reset 0 (DESIGN CHOICE) -/
  intStat : BitVec 2 := 0
  /-- INT_EN; 2 bits; R432; reset 0 (DESIGN CHOICE) -/
  intEn : BitVec 2 := 0
  /-- INT_VEC.VALID; 1 bit; R432; reset 0 (DESIGN CHOICE) -/
  vecValid : Bool := false
  /-- INT_VEC vector; 10 bits; R432; reset 0 (DESIGN CHOICE) -/
  vec : BitVec 10 := 0
  /-- LOCK.OPEN; 1 bit; R433, R434; reset 0 -/
  lockOpen : Bool := false
  /-- clock at which LOCK was opened or last kept open; ns; R434; reset 0 (DESIGN CHOICE) -/
  lockAt : Nat := 0
  deriving DecidableEq, Repr

/-! ### Faults and safety data -/

/-- An error event with its fault record on its way to SAFE (R28, R301, R380). -/
structure FaultEv where
  /-- unit code of R301: core 0 to 191, 0xC0 … 0xC8 -/
  unit : Nat
  /-- cause code of R300 -/
  cause : Nat
  /-- context, 0xFFFF when none -/
  ctx : Nat := 0xFFFF
  /-- partition, 0xFF when none -/
  part : Nat := 0xFF
  /-- stage slot, 0xFFFF when none -/
  slot : Nat := 0xFFFF
  /-- sequence number of the first affected line or frame; all ones when none -/
  seq : Nat := 0xFFFFFFFFFFFFFFFF
  /-- affected stream, when there is one -/
  stream : Option Nat := none
  /-- class: 0 record, 1 stream, 2 device -/
  cls : Nat := 0
  /-- ERR_STAT bit of the source -/
  bit : Nat := 0
  /-- block-specific reason -/
  reason : Nat := 0
  /-- true for a fault that a vote masked; bit MASKED of the record (R305) -/
  masked : Bool := false
  /-- true for an event that a clean re-execution corrected (R298) -/
  corrected : Bool := false
  /-- the copy whose unit of work the fault struck, when it struck one (R305) -/
  copy : Option Nat := none
  /-- counts as an event of its core under R312 -/
  counted : Bool := false
  /-- permanent at once under R312 (failed slice or comparator) -/
  permanent : Bool := false
  /-- 0 an event with its fault record, 1 an event ahead of its record, 2 the record of an event sent ahead (R43, R45) -/
  phase : Nat := 0
  /-- timebase at detection -/
  time : Nat := 0
  deriving DecidableEq, Repr

/-- A fault record as SAFE keeps it (R301). -/
structure FaultRec where
  /-- the event it records: bytes 0 to 22 and 24 to 26; R301 -/
  ev : FaultEv
  /-- DANGEROUS, byte 23[3]; 1 bit; R298, R301 -/
  dangerous : Bool
  /-- PERMANENT, byte 23[2]; 1 bit; R301, R312 -/
  permanent : Bool
  deriving DecidableEq, Repr

/-- Scope of a record invalidation (R302). -/
inductive InvScope where
  | item (seq : Nat) | fromNext | copy (k : Nat)
  deriving DecidableEq, Repr

/-- Which streams an invalidation names. -/
inductive InvTarget where
  | stream (id : Nat)
  /-- every SIMPLEX and TRIPLEX stream (R367, R370) -/
  | safety
  deriving DecidableEq, Repr

/-- A record invalidation or its withdrawal (R302). -/
structure Inval where
  /-- stream, or copy of a TRIPLEX stream; R302 -/
  target : InvTarget
  /-- ITEM, FROM_NEXT or COPY; R302 -/
  scope : InvScope
  /-- cause code; 8 bits; R300, R302 -/
  cause : Nat
  /-- it withdraws one that stands; 1 bit; R302 -/
  withdraw : Bool := false
  deriving DecidableEq, Repr

/-- Record state (R420): 0 VALID, 1 CORRECTED, 2 DEGRADED, 3 INVALID. -/
inductive RecState where
  | valid | corrected | degraded | invalid
  deriving DecidableEq, Repr

/-- A result record whose header is formed (R20, R420). -/
structure Rec where
  /-- stream ID; 16 bits; R420 -/
  stream : Nat
  /-- record state; 2 bits; R299, R420 -/
  state : RecState
  /-- cause code; 8 bits; R299, R420 -/
  cause : Nat
  /-- placement epoch current when the header was formed (R271) -/
  placeEpoch : Nat
  /-- sequence number; 64 bits; R420 -/
  seq : Nat
  /-- timebase stamp; 64 bits; R18, R420 -/
  stamp : Nat
  /-- payload bytes; R420 -/
  payload : List Byte
  deriving DecidableEq, Repr

/-! ### What leaves the device -/

/-- A completion entry (R204). -/
structure Completion where
  /-- TAG; 32 bits; R204 -/
  tag : W32
  /-- STATUS; 16 bits; R204 -/
  status : Nat
  /-- EPOCH, 0xFFFF for none; 16 bits; R204 -/
  epoch : Nat
  /-- DETAIL; 32 bits; R204 -/
  detail : Nat
  /-- OPCODE; 8 bits; R204 -/
  opcode : Nat
  /-- PHASE; 1 bit; R204 -/
  phase : Bool
  deriving DecidableEq, Repr

/-- A notice (R407). -/
structure Notice where
  /-- kind, byte 0; 8 bits; R407 -/
  kind : Nat
  /-- PHASE, byte 1; 1 bit; R407 -/
  phase : Bool
  /-- notice sequence number; 32 bits; R407 -/
  seq : Nat
  /-- timebase; 64 bits; R407 -/
  time : Nat
  /-- CTL_FW_VER; 32 bits; R407 -/
  fwVer : W32
  /-- bytes 20 to 23, per kind; 32 bits; R407 -/
  word : Nat
  /-- fault record of DEVICE_FAULT; 32 bytes; R407 -/
  fault : Option FaultRec
  deriving DecidableEq, Repr

/-- A safety egress frame (R321). -/
structure SafetyFrame where
  /-- 1 STATUS, 2 FAULT -/
  kind : Nat
  /-- 0 RUN, 1 FAULT, 2 SAFE_STATE -/
  state : Nat
  /-- frame sequence number; 32 bits; R321 -/
  seq : Nat
  /-- timebase at sending; 64 bits; R321 -/
  time : Nat
  /-- placement epoch; 32 bits; R321 -/
  placeEpoch : Nat
  /-- fault records lost since power-on; 16 bits; R321 -/
  lost : Nat
  /-- SS_CAUSE; 8 bits; R321 -/
  ssCause : Nat
  /-- up to 8 fault records, oldest first; R321 -/
  records : List FaultRec
  deriving DecidableEq, Repr

/-- What leaves the device at its links and pins, or is returned to a requester inside it. -/
inductive Out where
  /-- the 16 bytes of a completion, written to a slot of context `ctx`'s ring at a host address (R204) -/
  | completion (ctx addr : Nat) (bytes : List Byte)
  /-- an MSI-X message of a function -/
  | msix (fn vector : Nat)
  /-- a result record written to slot `slot` of a PCIe ring of function `fn`, header last (R419) -/
  | record (fn : Nat) (slot : Nat) (r : Rec) (crc : W32)
  /-- a result record sent as one UDP datagram (R218) -/
  | datagram (lane : Nat) (ip port : Nat) (r : Rec) (crc : W32)
  /-- a line trigger to the camera pairs of a mask, with the delay field of its packets (R224, R225) -/
  | trigger (cams delay : Nat)
  /-- a PTP delay request on an Ethernet lane (R220) -/
  | delayReq (lane : Nat) (udp : Bool)
  | notice (n : Notice)
  | frame (f : SafetyFrame)
  /-- bytes a QUERY writes to host memory -/
  | query (ctx : Nat) (bytes : List Byte)
  /-- a QUERY result whose byte layout the manual leaves open, as a list of values -/
  | queryFields (ctx : Nat) (fields : List Nat)
  /-- data returned for a host read through BAR4 -/
  | hostData (bytes : List Byte)
  /-- a camera register access on the control channel (R214, R278) -/
  | camera (pair : Nat) (write : Bool) (reg : Nat) (value : W32)
  /-- a NACK returned to the sender of a transfer: the sender's unit code, or the refusing unit's where no operand names the
  sender (R29) -/
  | nack (unit : Nat)
  /-- a handle given to a producer -/
  | handle (unit : Nat) (h : W64)
  /-- data returned to a local requester or a stream engine -/
  | data (unit : Nat) (words : List W32) (poisoned : Bool)
  /-- the core sample copied to host memory (R400) -/
  | sampleCopy
  /-- token IDs produced for an input (R244) -/
  | tokens (stream : Nat) (ids : List Nat)
  /-- a register value returned for a read -/
  | regData (fn : Nat) (value : W32)
  /-- firmware messages and transfers refused on Ternlink -/
  | ternNack (port : Nat)
  /-- the pixels that PPE shaped for the buffer of a frame, row by row, the channels of a pixel together (R236) -/
  | pixels (stream seq : Nat) (codes : List Nat)
  /-- the crops that PPE cut from a frame: box entries beyond the maximum, the validity of each box, and the pixels (R97, R98) -/
  | crops (stream seq beyond : Nat) (valid : List Bool) (codes : List Nat)
  /-- the augmentations that PPE applied to a sample: flip, crop offset, gain, offset and the noise of each element (R247), and
  the elements that came out -/
  | augmented (stream sample : Nat) (flip : Bool) (dy dx : Nat) (gain off : W32) (noise codes : List W32)
  deriving DecidableEq, Repr

/-! ### Compute cores -/

/-- Sequencer states (R60). -/
inductive Seq where
  | idle | run | wait | drain | test | faulted
  deriving DecidableEq, Repr

/-- CORE_STATE.POOL (R69). -/
inductive PoolMember where
  | schedulable | spare | retired | fused
  deriving DecidableEq, Repr

/-- What a sequencer in WAIT waits for (R61, R137, R184). -/
inductive WaitOn where
  | pop (q : Nat)
  | push (q : Nat) (h : W64)
  | alloc (via : AllocVia)
  /-- a return to a free queue that is HELD; R184 -/
  | ret (h : W64)
  /-- window and count -/
  | window (w n : Nat)
  deriving DecidableEq, Repr

/-- A unit that is ready or running on a core (R59, R279). -/
structure UnitInst where
  /-- context; 12 bits; R279 -/
  ctx : Nat
  /-- partition; 4 bits; R268, R279 -/
  part : Nat
  /-- stream ID; 16 bits; R279 -/
  stream : Nat
  /-- stage slot; 12 bits; R270, R279 -/
  slot : Nat
  /-- stage and unit index in the stream's image -/
  stage : Nat
  /-- unit index in its stage; R100 -/
  unit : Nat
  /-- copy of a TRIPLEX stream, 0 to 2; R267 -/
  copy : Nat
  /-- sequence number of the line or frame, segment or tile, and whether it is the last of the item -/
  seq : Nat
  /-- segment or tile of the item; R81, R91 -/
  tile : Nat := 0
  /-- position (x, y) of its tile in the grid; R91 -/
  pos : Nat × Nat := (0, 0)
  /-- the box list that it reads, up to the declared maximum; R97, R98 -/
  boxes : List (List Byte) := []
  /-- per-box validity mask; R98 -/
  boxValid : List Bool := []
  /-- box entries beyond the maximum, as the output header names them; R98 -/
  beyond : Nat := 0
  /-- it is the last unit of its item there; R309 -/
  last : Bool := true
  /-- epoch; 16 bits; R192 -/
  epoch : Nat
  /-- declared worst-case execution time in ns; R62, R100 -/
  wcet : Nat
  /-- priority 0 to 7; R279, R281 -/
  prio : Nat := 0
  /-- deadline as a timebase value, 0 for none -/
  deadline : Nat := 0
  /-- submission order -/
  order : Nat := 0
  /-- clock at which the unit became ready, and at which it started -/
  readyAt : Nat := 0
  /-- clock at which it started; ns; R59 -/
  startAt : Nat := 0
  /-- buffers it reads and the output buffers it pushes, with their queues -/
  inputs : List W64 := []
  /-- outputs still to push, each with its queue; R59, R183 -/
  outputs : List (Nat × W64) := []
  /-- its own flag causes (R174, R299) -/
  causes : List Nat := []
  /-- an ABFT event has been counted in this unit of work (R44) -/
  abft : Bool := false
  /-- cause code of the ABFT event that the present re-execution is to correct; 0 for none (R45) -/
  retry : Nat := 0
  /-- cause code of an ABFT event of a tile whose report waits for the outcome of a re-execution; 0 for none (R45, R298) -/
  owed : Nat := 0
  /-- timebase at which that event was detected; R301 -/
  owedAt : Nat := 0
  /-- re-executions of this unit of work so far (R45) -/
  rerun : Nat := 0
  /-- UNIT_OVERRUN has been raised for it; R62 -/
  overrun : Bool := false
  /-- the record unit of its copy -/
  record : Bool := false
  /-- it waits in `ready` as part of the block that the core runs (R96) -/
  joined : Bool := false
  /-- Strata output slots, whose handles went ahead of the data (R83) -/
  ahead : List W64 := []
  /-- first words of the input pieces whose verdicts are in; R83, R87 -/
  verified : List Nat := []
  /-- a verdict has come in since its last trailer; R87 -/
  owesPiece : Bool := false
  deriving DecidableEq, Repr

/-- State of a window (R147). -/
inductive WinState where
  | closed | opened | unused
  deriving DecidableEq, Repr

/-- A window (R132, R146 to R148). -/
structure Window where
  /-- base word address; 19 bits; R146; reset 0 (DESIGN CHOICE) -/
  base : Nat := 0
  /-- length in words; 20 bits; R146; reset 0 (DESIGN CHOICE) -/
  len : Nat := 0
  /-- state; R147; reset UNUSED -/
  state : WinState := .unused
  /-- owning partition; 4 bits; R147; reset 0 -/
  part : Nat := 0
  /-- generation; 8 bits; R132, R147; reset 0 -/
  gen : Nat := 0
  /-- arrival counter; 24 bits; R132; reset 0 (DESIGN CHOICE) -/
  arrived : Nat := 0
  /-- target, 0 for none; 24 bits; R132; reset 0 (DESIGN CHOICE) -/
  target : Nat := 0
  /-- piece trailers written since it opened; R82, R87; reset 0 (model's own) -/
  trailers : Nat := 0
  /-- WIN_LATE, refused remote writes since reset; 32 bits saturating; R146; reset 0 -/
  late : Nat := 0
  /-- WIN_LATE_SRC.WRITER; 8 bits; R148; reset 0xFF -/
  lateWriter : Nat := 0xFF
  /-- WIN_LATE_SRC.REASON; 3 bits; R148; reset 0 -/
  lateReason : Nat := 0
  /-- clock-independent epoch of the buffer the window backs; R135; reset 0xFFFF (DESIGN CHOICE) -/
  epoch : Nat := 0xFFFF
  deriving DecidableEq, Repr

/-- A weight set of one array (R34, R35, R40): the operands in the cells by row of K, and the checksum column.  An
operand is an integer in an integer format and a storage code in a floating-point format. -/
structure WeightSet where
  /-- operands by row of K, 32 columns each; R30, R34 -/
  rows : List (List Int)
  /-- row sums: integers, or FP32 bit patterns in a floating-point format -/
  sums : List Int
  /-- first word that the load read, for the reload of R45 -/
  base : Nat := 0
  /-- set A holds c + d, for pass 3 of complex INT8; R50 -/
  third : Bool := false
  /-- stage slot whose program loaded it, for the reload; 12 bits; R45 -/
  slot : Nat := 0xFFFF
  /-- unit of the stage whose program loaded it, for the reload; R45 -/
  unit : Nat := 0
  /-- K-block of a transposed product that it holds, for the reload; R45, R95 -/
  block : Nat := 0
  /-- scale entries of the activation rows that the columns hold; R118, R120 -/
  scales : List W64 := []
  deriving DecidableEq, Repr

/-- The resident and slot regions of one stage on a core, as word addresses (R128, R129). -/
structure Region where
  /-- stage slot that they serve; 12 bits; R270 -/
  slot : Nat
  /-- first word of the resident region; 19 bits; R128 -/
  base : Nat
  /-- first word of the slot region, which follows the resident region; 19 bits; R128 -/
  slots : Nat
  /-- word after the slot region; 20 bits; R128 -/
  stop : Nat
  /-- words of line rings at the end of the resident region; R80, R128 -/
  ringWords : Nat := 0
  /-- image whose resident words it holds; R100, R129 -/
  image : Nat := 0
  /-- stage of that image; R100, R129 -/
  stage : Nat := 0
  /-- words of the declared weights of that stage's units, by word of the resident region; R100, R111 -/
  weights : Tab W32 := []
  deriving DecidableEq, Repr

/-- One compute core with its CORE page registers, memories and unit of work. -/
structure CoreSt where
  /-- CORE_STATE.POOL; 2 bits; R69; reset from fuses: SCHEDULABLE (DESIGN CHOICE, set by the boot) -/
  pool : PoolMember := .schedulable
  /-- CORE_STATE.SEQ; 3 bits; R60, R69; reset IDLE -/
  seq : Seq := .idle
  /-- CORE_STATE.STAGE_SLOT; 16 bits; R69; reset 0xFFFF -/
  slot : Nat := 0xFFFF
  /-- CORE_STATE.PARTITION; 4 bits; R69; reset 0 -/
  part : Nat := 0
  /-- CORE_ARRAY_CFG.PASS; 2 bits; R70; reset 0 -/
  pass : Nat := 0
  /-- CORE_ARRAY_CFG.GANG; 3 bits; R38, R70; reset 0 -/
  gang : Nat := 0
  /-- CORE_ARRAY_CFG.WSET_a by array; 1 bit each; R70; reset 0 -/
  wsel : Tab Bool := []
  /-- CORE_ARRAY_CFG.FMT_a by array; 4 bits each; R37, R70; reset 0 -/
  fmt : Tab Nat := []
  /-- CORE_ABFT_TOL.REL_SHIFT; 5 bits; R42, R71; reset 14 -/
  relShift : Nat := 14
  /-- CORE_ABFT_TOL.ABS_EXP; 8 bits; R42, R71; reset 0x67 -/
  absExp : Nat := 0x67
  /-- CORE_ABFT_LAST; 32 bits; R72; reset 0 -/
  abftLast : W32 := 0
  /-- CORE_ABFT_EVENTS (RWS); 32 bits saturating; R67; reset 0 (DESIGN CHOICE) -/
  abftEvents : Nat := 0
  /-- CORE_INJ_SEL; 32 bits; R73; reset 0 -/
  injSel : W32 := 0
  /-- CORE_UNIT_NS_LAST; 32 bits saturating; R67; reset 0 (DESIGN CHOICE) -/
  unitLast : Nat := 0
  /-- CORE_UNIT_NS_MAX; 32 bits saturating; R67; reset 0 (DESIGN CHOICE) -/
  unitMax : Nat := 0
  /-- CORE_ARRAY_BUSY0 to 3; 32 bits saturating each; R67; reset 0 (DESIGN CHOICE) -/
  arrayBusy : Tab Nat := []
  /-- CORE_VEC_BUSY; 32 bits saturating; R67; reset 0 (DESIGN CHOICE) -/
  vecBusy : Nat := 0
  /-- CORE_VEC_STAT.BUNDLES; 8 bits; R74; reset 0 -/
  bundles : Nat := 0
  /-- CORE_VEC_STAT.STRANDS; 14 bits; R74; reset 0 -/
  strands : Nat := 0
  /-- the unit that runs (its wcet is CORE_UNIT_NS_BUDGET); R59, R67; reset none -/
  run : Option UnitInst := none
  /-- units delivered to the core and not started, in order of arrival; R279; reset empty -/
  ready : List UnitInst := []
  /-- clock at which a unit last became ready here; R323; reset none -/
  releasedAt : Option Nat := none
  /-- clock at which the sequencer last entered WAIT; R381; reset 0 -/
  waitAt : Nat := 0
  /-- a drain request stands; R63; reset false -/
  drainReq : Bool := false
  /-- bundle that issued last; 0 to 127; R53; reset 127 (DESIGN CHOICE) -/
  lastBundle : Nat := 127
  /-- weight sets by 2 × array + set; R30, R34; reset none loaded (DESIGN CHOICE) -/
  wsets : Tab WeightSet := []
  /-- accumulator entries by (array × 512 + entry) × 33 + column; R30; reset 0 (DESIGN CHOICE) -/
  acc : Tab Int := []
  /-- k1 of complex INT8, held in the foot, by (array × 512 + entry) × 33 + column; R50; reset 0 (DESIGN CHOICE) -/
  k1 : Tab Int := []
  /-- steps (tap, K-block and pass) that the row of an accumulator entry has taken, by array × 512 + entry; R50, R76;
  reset none -/
  steps : Tab Nat := []
  /-- pass of the last row of each array; R50; reset none -/
  apass : Tab Nat := []
  /-- scale entry that the row former handed over with the row of an entry, by array × 512 + entry; R118; reset none -/
  rowScale : Tab W64 := []
  /-- rows of SUM_K that wait in the foot units for the other arrays' rows, by (step × 512 + entry) × 4 + array; R39;
  reset none -/
  sumk : Tab (List Int) := []
  /-- strand file by strand × 8 + register; 32 bits each; R30; reset 0 (DESIGN CHOICE) -/
  strand : Tab W32 := []
  /-- scratchpad words that are not 0, by word address; 2^19 words of 32 bits; R124; reset 0 (R131) -/
  sp : Tab W32 := []
  /-- scratchpad words stored poisoned; R139, R140; reset none -/
  spPoison : List Nat := []
  /-- write-port buffer, oldest first: word address, data and poison tag; 64 entries of 32 B; R126, R139; reset empty -/
  wbuf : List (Nat × W32 × Bool) := []
  /-- payload that has come back through each handle whose buffer is being read, in order; R173, R190; reset none (model's own) -/
  reading : List (W64 × List Byte) := []
  /-- windows 0 to 255; R132; reset UNUSED -/
  windows : Tab Window := []
  /-- resident and slot regions of the stages that the core hosts, in order of placement; R128, R129; reset none -/
  regions : List Region := []
  /-- first words of the slot and working regions and the end of the working region; R128; reset 0 (DESIGN CHOICE) -/
  slotBase : Nat := 0
  /-- first word of the working region; R128; reset 0 (DESIGN CHOICE) -/
  workBase : Nat := 0
  /-- word after the working region; R128; reset 0 (DESIGN CHOICE) -/
  workEnd : Nat := 0
  /-- line rings of the resident region: first word and length; R80, R128; reset none -/
  rings : List (Nat × Nat) := []
  /-- lines that the rings have taken since they were emptied; R80; reset 0 -/
  ringLines : Nat := 0
  /-- the line that the rings take in, none while they are empty; R80; reset none -/
  ringSeq : Option Nat := none
  /-- lines still to flag after a recovery with empty line rings; R382; reset 0 -/
  ringFlag : Nat := 0
  /-- lines below this sequence number are flagged after such a recovery; R382; reset 0 -/
  ringUntil : Nat := 0
  /-- spare rows used by bank; 0 to 8; R142; reset from fuses: 0 (DESIGN CHOICE) -/
  spareRows : Tab Nat := []
  /-- row map: repaired rows by bank × 512 + row, with their spare row; R143, R144; reset from fuses: none (DESIGN CHOICE) -/
  rowMap : Tab Nat := []
  /-- words with a corrected error seen, with the number of scrub passes; R143; reset none -/
  corrWords : Tab Nat := []
  /-- words with an uncorrectable error since the last resident reload; R143, R144; reset none -/
  badWords : List Nat := []
  /-- a row lost its contents and the resident region is to be reloaded; R144; reset false -/
  reloadDue : Bool := false
  /-- why the core is FAULTED: cause code, 0 when it is not; R65, R382; reset 0 -/
  faultCause : Nat := 0
  /-- self-test slices done of the running test; 0 to 16; R322; reset 0 -/
  slices : Nat := 0
  /-- clock at which the last full test ended; ns; R322, R323; reset 0 -/
  testedAt : Nat := 0
  /-- the core is past its test interval; R323; reset false -/
  late : Bool := false
  deriving DecidableEq, Repr

/-! ### Partitions, contexts, images and streams -/

/-- A partition (R262). -/
structure Partition where
  /-- safety class; 2 bits; R262, R263; default NONE -/
  cls : SafetyClass := .none
  /-- core quota; 0 to 160; R262; default 0 -/
  coreQuota : Nat := 0
  /-- quota of DATA and FREE queues; R262; default 0 -/
  queueQuota : Nat := 0
  /-- quota of pools; R262; default 0 -/
  poolQuota : Nat := 0
  /-- SHC_WAYMASK; 16 bits; R151, R166; default 0 -/
  wayMask : Nat := 0
  /-- MESH_SHARE; 0 to 64; R325; default 0 -/
  meshShare : Nat := 0
  /-- DRAM_SHARE; 0 to 60; R326; default 0 -/
  dramShare : Nat := 0
  /-- PCIe functions allowed, one bit each; R262; default the physical function -/
  functions : Nat := 1
  /-- replenishment period in ns; R282; default 1 ms -/
  period : Nat := 1000000
  /-- mesh tokens left in this period, by plane; R325; reset 0 -/
  tokens : Tab Nat := []
  /-- DRAM requests served in this 10 µs window, by channel; R326; reset 0 -/
  dramUsed : Tab Nat := []
  /-- clock of the last period boundary; R282; reset 0 -/
  periodAt : Nat := 0
  deriving DecidableEq, Repr

/-- A command of a context that has been started and has not completed. -/
structure Running where
  /-- header of its descriptor; R202 -/
  cmd : Cmd
  /-- OPCODE; 8 bits; R202 -/
  opcode : Nat
  /-- start order over the device -/
  order : Nat
  /-- epoch it opened or named; 0xFFFF for none -/
  epoch : Nat
  deriving DecidableEq, Repr

/-- A context with its command and completion queues, binding, budget and accounting. -/
structure Ctx where
  /-- partition it is bound to, none when unbound; R264; reset partition 0 (DESIGN CHOICE) -/
  part : Option Nat := some 0
  /-- PCIe function that owns it; R264; reset the physical function (DESIGN CHOICE) -/
  fn : Nat := 0
  /-- MSI-X vector; R416; reset 0 (DESIGN CHOICE) -/
  vector : Nat := 0
  /-- QMG_CTX_QCFG.EN; 1 bit; R209; reset 0 -/
  en : Bool := false
  /-- QMG_CTX_QCFG.CPL_LOG2; 4 bits; R209; reset 0 -/
  cplLog2 : Nat := 0
  /-- QMG_CTX_QCFG.CMD_LOG2; 4 bits; R209; reset 0 -/
  cmdLog2 : Nat := 0
  /-- QMG_CTX_CMD_HI and LO; 64 bits; R206; reset 0 (DESIGN CHOICE) -/
  cmdBase : W64 := 0
  /-- QMG_CTX_CPL_HI and LO; 64 bits; R206; reset 0 (DESIGN CHOICE) -/
  cplBase : W64 := 0
  /-- TAIL count of the command queue; 19 bits; R201; reset 0.  HEAD lies as many counts below it as commands
  wait in the ring -/
  cmdTail : Nat := 0
  /-- the command queue is FAULTED; R185, R384; reset false -/
  cmdFault : Bool := false
  /-- the completion queue is FAULTED; R185, R384; reset false -/
  cplFault : Bool := false
  /-- HEAD count of the completion queue; 19 bits; R204; reset 0 -/
  cplHead : Nat := 0
  /-- TAIL count of the completion queue; 19 bits; R204; reset 0 -/
  cplTail : Nat := 0
  /-- PUSH_COUNT of the command queue: descriptors taken since it was armed; 32 bits wrapping; R181; reset 0 -/
  cmdPushed : Nat := 0
  /-- PUSH_COUNT of the completion queue; 32 bits wrapping; R181; reset 0 -/
  cplPushed : Nat := 0
  /-- completions held while the ring is full, oldest first, with FLAGS.IRQ; R204; reset empty -/
  cplHeld : List (Completion × Bool) := []
  /-- descriptors read and not yet started, in ring order: TAG and OPCODE; R203; reset empty -/
  fetched : List (W32 × Nat) := []
  /-- commands started and not completed, oldest first; R203, R274; reset empty -/
  running : List Running := []
  /-- EN was cleared and running commands remain; R209; reset false -/
  retiring : Bool := false
  /-- JOBS_DONE; 32 bits wrapping; R283; reset 0 (DESIGN CHOICE) -/
  jobsDone : Nat := 0
  /-- OVF; 1 bit; R283; reset 0 (DESIGN CHOICE) -/
  ovf : Bool := false
  /-- TRACE; 1 bit; R283; reset 0 (DESIGN CHOICE) -/
  trace : Bool := false
  /-- WAIT_NS; 64 bits; R283; reset 0 (DESIGN CHOICE) -/
  waitNs : Nat := 0
  /-- MAX_WAIT_NS; 32 bits saturating; R283; reset 0 (DESIGN CHOICE) -/
  maxWait : Nat := 0
  /-- PASSED; 32 bits saturating; R283; reset 0 (DESIGN CHOICE) -/
  passed : Nat := 0
  /-- budget per period, none when the context's work is not limited; core-ns; R282; reset none (DESIGN CHOICE) -/
  budget : Option Nat := none
  /-- budget left in this period; core-ns; R282; reset 0 -/
  budgetLeft : Nat := 0
  /-- phase in force; 0 to 15; R363; reset 0 -/
  phase : Nat := 0
  /-- clock at which the hint ends; R363; reset none -/
  phaseUntil : Option Nat := none
  /-- phase announced since the last allocator decision; R363; reset none -/
  hint : Option Nat := none
  /-- the last 256 fault records of the context, newest first; R277; reset empty -/
  faults : List FaultRec := []
  deriving DecidableEq, Repr

/-- A loaded stage image (R272). -/
structure Image where
  /-- partition whose context loaded it; R272 -/
  part : Nat
  /-- its declarations; R100 -/
  decl : ImageDecl
  /-- weight sums by stage, unit and output channel (R111) -/
  wsums : List (List (List Int))
  /-- weight sums of the first product of each fused pair, likewise (R94, R111) -/
  midSums : List (List (List Int)) := []
  deriving DecidableEq, Repr

/-- What DECLARE_STREAM read from the declaration block (R275). -/
structure StreamDecl where
  /-- SOURCE kind: 0 LINE, 1 AREA_CSI, 2 AREA_CXP, 3 LIDAR, 4 JOB; 8 bits; R275 -/
  kind : Nat := 0
  /-- SOURCE port; 8 bits; R275 -/
  port : Nat := 0
  /-- SOURCE virtual channel; 8 bits; R275 -/
  vc : Nat := 0
  /-- SOURCE IPv4; 32 bits; R275 -/
  srcIp : Nat := 0
  /-- SOURCE UDP port; 16 bits; R275 -/
  udpPort : Nat := 0
  /-- GEOMETRY width; 16 bits; R275 -/
  width : Nat := 0
  /-- GEOMETRY height or packets per sweep; 16 bits; R275 -/
  height : Nat := 0
  /-- GEOMETRY depth in bits; 8 bits; R275 -/
  depth : Nat := 0
  /-- GEOMETRY components; 8 bits; R275 -/
  comps : Nat := 0
  /-- GEOMETRY colour-filter pattern; 8 bits; R275 -/
  cfa : Nat := 0
  /-- GEOMETRY line or payload bytes; 32 bits; R275 -/
  lineBytes : Nat := 0
  /-- TIMING output period in ns; 32 bits; R275 -/
  period : Nat := 0
  /-- TIMING deadline from the stamp in ns; 32 bits; R275 -/
  deadline : Nat := 0
  /-- TIMING minimum line period in ns; 32 bits; R275 -/
  minPeriod : Nat := 0
  /-- EGRESS: 0 PCIe ring, 1 UDP; 8 bits; R275 -/
  egress : Nat := 0
  /-- EGRESS function; 8 bits; R275 -/
  egFn : Nat := 0
  /-- EGRESS lane; 8 bits; R275 -/
  egLane : Nat := 0
  /-- ring address, or IPv4 address and port -/
  egAddr : Nat := 0
  /-- EGRESS UDP port; 16 bits; R275 -/
  egPort : Nat := 0
  /-- ODOMETER counts per line; 16 bits; R275 -/
  cpl : Nat := 0
  /-- ODOMETER FILTER; 8 bits; R275 -/
  filter : Nat := 10
  /-- ODOMETER DIR; 8 bits of which 1 is used; R275 -/
  dir : Bool := false
  /-- ODOMETER camera-pair mask; 16 bits; R275 -/
  cams : Nat := 0
  /-- ODOMETER line timeout in ns; 32 bits; R275 -/
  lineTimeout : Nat := 0
  /-- alignment: group, member slot, mandatory, W, L -/
  align : Option (Nat × Nat × Bool × Nat × Nat) := none
  /-- frozen-frame detector: EXCL_LINES, THRESH -/
  frozen : Option (Nat × Nat) := none
  /-- CONSTRAINT quadrant mask; 8 bits; R266, R275 -/
  quadMask : Nat := 0
  /-- CONSTRAINT flag EXCLUSIVE; 1 bit; R268, R275 -/
  exclusive : Bool := false
  /-- CONSTRAINT flag SHAREABLE; 1 bit; R268, R275 -/
  shareable : Bool := false
  /-- CONSTRAINT buffer placement; 8 bits; R266, R275 -/
  bufPlace : Nat := 0
  /-- CONSTRAINT maximum cores; 16 bits; R266, R275 -/
  maxCores : Nat := 0
  /-- LIMITS maximum width; 16 bits; R275 -/
  maxWidth : Nat := 0
  /-- LIMITS maximum height; 16 bits; R275 -/
  maxHeight : Nat := 0
  /-- LIMITS maximum boxes; 16 bits; R275 -/
  maxBoxes : Nat := 0
  /-- LIMITS maximum tokens; 16 bits; R244, R275 -/
  maxTokens : Nat := 0
  /-- adaptation: micro-batch size and augmentation-ranges address -/
  adapt : Option (Nat × Nat) := none
  /-- PPE colour: black level and address of M and the offsets -/
  colour : Option (Nat × Nat) := none
  /-- PPE output: scale and zero point -/
  output : Option (W32 × Nat) := none
  deriving DecidableEq, Repr

/-- An accepted line, frame, sweep or job item whose record header is not yet formed (R20). -/
structure Item where
  /-- sequence number; 64 bits; R20, R174 -/
  seq : Nat
  /-- timebase stamp; 64 bits; R18, R174 -/
  stamp : Nat
  /-- own flag causes of the ingress buffer, first one in byte 22 of its metadata (R174, R299) -/
  causes : List Nat := []
  /-- the item's data is complete and TAL has stored its check value (R19) -/
  checked : Bool := false
  /-- CRC-32C check value of the payload (R229) -/
  crc : W32 := 0
  /-- payload length in bytes; 32 bits; R174 -/
  len : Nat := 0
  /-- stage slots that have pushed the item's output with LAST set (R309) -/
  pushed : List Nat := []
  /-- visit indices of the item's outputs pushed so far, by stage slot (R92) -/
  tiles : Tab (List Nat) := []
  /-- copies outvoted for the item, with the cause of the outvote (R310, R311, R460) -/
  outvoted : List (Nat × Nat) := []
  /-- epoch of its work; 16 bits; R192 -/
  epoch : Nat := 0xFFFF
  deriving DecidableEq, Repr

/-- A line that has been triggered and whose last pixel has not arrived (R227). -/
structure PendLine where
  /-- sequence number; 64 bits; R226 -/
  seq : Nat
  /-- timebase of the trigger -/
  trigAt : Nat
  /-- flags to set on the line (odometer, overspeed, integrity, shape) -/
  causes : List Nat := []
  /-- pixels received; R215 -/
  bytes : List Byte := []
  /-- segments for which ING has taken slots -/
  begun : Nat := 0
  /-- segments that a packet with a CRC mismatch touched; R215 -/
  hit : List Nat := []
  /-- timebase of its last pixel, once that has arrived; R18 -/
  endAt : Option Nat := none
  /-- slots taken and not yet pushed: segment, queue and handle (R82, R84) -/
  handles : List (Nat × Nat × W64) := []
  deriving DecidableEq, Repr

/-- A frame or sweep that is open at its port. -/
structure OpenFrame where
  /-- sequence number; 64 bits; R228 -/
  seq : Nat
  /-- own flag causes; R174, R210 -/
  causes : List Nat := []
  /-- lines received (or sweep packets by index) -/
  lines : Tab (List Byte) := []
  /-- timebase of the last packet received -/
  lastAt : Nat := 0
  /-- timebase of its last pixel, once that has arrived -/
  endAt : Option Nat := none
  /-- last packet index of a sweep -/
  lastIdx : Nat := 0
  /-- rows that have ended -/
  rows : Nat := 0
  /-- buffers taken for it: queue and handle (R84) -/
  handles : List (Nat × W64) := []
  /-- the frame is discarded; R84, R210 -/
  discarded : Bool := false
  /-- a line was longer or shorter than declared, or too many arrived -/
  badShape : Bool := false
  deriving DecidableEq, Repr

/-- A job of a job stream (R281). -/
structure Job where
  /-- context of the DISPATCH; 12 bits; R281 -/
  ctx : Nat
  /-- its epoch; 16 bits; R281 -/
  epoch : Nat
  /-- priority; 3 bits; R281 -/
  prio : Nat
  /-- deadline, 0 for none -/
  deadline : Nat
  /-- declared critical path P -/
  path : Nat
  /-- start order of the DISPATCH -/
  order : Nat
  /-- FLAGS.ADAPT; 1 bit; R281 -/
  adapt : Bool
  /-- rounding seed; 64 bits; R281 -/
  roundSeed : W64
  /-- augmentation seed; 64 bits; R281 -/
  augSeed : W64
  /-- next sample index and micro-batch membership held (R249) -/
  sample : Nat
  /-- sample at which the job is held, none while it runs; R242, R249 -/
  held : Option Nat := none
  /-- samples of the micro-batch already taken when it was held; R249 -/
  heldSamples : List Nat := []
  /-- order of the hold among all holds of the device; R249, R259 -/
  heldAt : Nat := 0
  /-- corrupt samples that SKIP has dropped; R249 -/
  dropped : List Nat := []
  /-- first sample of the job; 32 bits; R249, R281 -/
  first : Nat := 0
  /-- optimiser step; 32 bits; R122 -/
  step : Nat := 0
  /-- micro-batch number within the step; 16 bits; R122 -/
  micro : Nat := 0
  /-- sequence number of its record; 64 bits; R281 -/
  seq : Nat
  /-- units of work not yet ended; R281, R283 -/
  unitsLeft : Nat
  deriving DecidableEq, Repr

/-- A pending REARM (R194). -/
structure PendRearm where
  /-- start order of the command -/
  order : Nat
  /-- the epoch it opened; 16 bits; R194 -/
  epoch : Nat
  /-- FIRST_SEQ, none when not valid; 64 bits; R194, R274 -/
  firstSeq : Option Nat
  /-- rebase entries: is-queue, number, base, metadata base -/
  rebase : List (Bool × Nat × Nat × Nat)
  /-- LOG2 of the result ring depth; 4 bits; R418 -/
  ringLog2 : Nat
  /-- slot bytes of the result ring; R418 -/
  ringSlot : Nat
  /-- sequence number of the first line or frame after the boundary at which allocation stops; 64 bits; R194 -/
  boundary : Nat := 0
  deriving DecidableEq, Repr

/-- A declared stream (R275). -/
structure Stream where
  /-- context that declared it; 12 bits; R275 -/
  ctx : Nat
  /-- its partition; 4 bits; R262, R275 -/
  part : Nat
  /-- safety class at declaration; 2 bits; R263 -/
  cls : SafetyClass
  /-- stage image ID; 16 bits; R275 -/
  image : Nat
  /-- its declaration block; R275 -/
  decl : StreamDecl
  /-- its placement; R265, R270 -/
  place : Placement
  /-- armed; R274; false when declared -/
  armed : Bool := false
  /-- epoch of the arming or of the last REARM -/
  epoch : Nat := 0xFFFF
  /-- sequence number of the next trigger position, frame or job -/
  nextSeq : Nat := 0
  /-- position of the grid at this stream's arming (R227) -/
  lastFrameNo : Option Nat := none
  /-- lines triggered and not yet complete, in order; R227 -/
  lines : List PendLine := []
  /-- lines discarded under R84 of which pixels may still arrive; R84, R227 -/
  cutLines : List Nat := []
  /-- the frame or sweep that is open; R210, R217 -/
  frame : Option OpenFrame := none
  /-- accepted items not yet recorded, in ascending sequence order -/
  items : List Item := []
  /-- records whose header is formed and that have not left, in ascending order -/
  formed : List Rec := []
  /-- outputs of items already recorded, discarded and counted (R310) -/
  lateOutputs : Nat := 0
  /-- stream fault of R313 or R386 -/
  faulted : Bool := false
  /-- suspended copies of a TRIPLEX stream (R307) -/
  suspended : List Nat := []
  /-- LOG2 of the result ring depth; 4 bits; R418 -/
  ringLog2 : Nat := 0
  /-- slot bytes of the result ring; R418 -/
  ringSlot : Nat := 0
  /-- jobs not yet recorded, in order; R281 -/
  jobs : List Job := []
  /-- jobs done; R283 -/
  jobsDone : Nat := 0
  /-- the REARM that drains it; R194 -/
  rearm : Option PendRearm := none
  /-- allocation from the ingress pools is stopped (R194 step 1) -/
  closed : Bool := false
  deriving DecidableEq, Repr

/-! ### Queue manager -/

/-- Queue type (R181). -/
inductive QType where
  | data | free | command | completion
  deriving DecidableEq, Repr

/-- Queue state (R181). -/
inductive QState where
  | unused | armed | held | faulted
  deriving DecidableEq, Repr

/-- A queue: its descriptor fields (R181) and the entries in its ring.  Entries carry the consumer
cores that have not popped them yet (R187). -/
structure Queue where
  /-- TYPE; 2 bits; R181 -/
  type : QType := .data
  /-- STATE; 2 bits; R181 -/
  state : QState := .unused
  /-- PARTITION; 4 bits; R181 -/
  part : Nat := 0
  /-- outstanding-transfer limit, 1 to 64; R181; reset 1 (OUT_LIMIT 0) -/
  outLimit : Nat := 1
  /-- CONTEXT; 12 bits; R181 -/
  ctx : Nat := 0
  /-- HEAD count; 19 bits; R181 -/
  head : Nat := 0
  /-- TAIL count; 19 bits; R181 -/
  tail : Nat := 0
  /-- OUT_COUNT; 7 bits; R181, R190 -/
  outCount : Nat := 0
  /-- EPOCH; 16 bits; R181 -/
  epoch : Nat := 0
  /-- POOL; 12 bits; R181 -/
  pool : Nat := 0
  /-- FANOUT; 12 bits; R181 -/
  fanout : Nat := 0
  /-- FUNCTION; 5 bits; R181 -/
  fn : Nat := 0
  /-- PUSH_COUNT; 32 bits wrapping; R181 -/
  pushCount : Nat := 0
  /-- LOG2_DEPTH; 4 bits; R181 -/
  log2Depth : Nat := 0
  /-- LOC; 2 bits; R181 -/
  loc : Nat := 0
  /-- RING_BASE; 58 bits; R181 -/
  ringBase : Nat := 0
  /-- entries oldest first, each with the consumers that have still to pop it -/
  entries : List (W64 × List Nat) := []
  /-- pop credits, oldest first: cores waiting on an empty queue (R184) -/
  credits : List Nat := []
  /-- a vein's stream, when a stream's link owns the queue -/
  stream : Option Nat := none
  /-- copy of a TRIPLEX stream; R267 -/
  copy : Nat := 0
  deriving DecidableEq, Repr

/-- A pool (R175). -/
structure PoolSt where
  /-- KIND; 4 bits; R170, R175 -/
  kind : Nat
  /-- partition; 4 bits; R175 -/
  part : Nat
  /-- buffer size in 64-byte units; R175 -/
  units : Nat
  /-- buffer count, 1 to 262,144; R175 -/
  count : Nat
  /-- base address; 64 bits; R175 -/
  base : Nat
  /-- metadata base; 64 bits; R175 -/
  metaBase : Nat
  /-- consumer count, 1 to 8; R175 -/
  consumers : Nat
  /-- free queue; 18 bits; R175, R176 -/
  freeQueue : Nat
  /-- cores of the consuming sub-group, for STRATA_SLOT; R175 -/
  windowCores : List Nat
  /-- first window on each of those cores; 8 bits; R133, R175 -/
  window0 : Nat
  /-- write beats that fill each copy, by segment position and core of the sub-group; none listed means no target; 24 bits
  each; R82, R132 -/
  targets : List (List Nat) := []
  /-- ING fills it; R84 -/
  ingress : Bool := false
  /-- stream that owns it; R175, R195 -/
  stream : Option Nat := none
  /-- copy of a TRIPLEX stream; R267 -/
  copy : Nat := 0
  deriving DecidableEq, Repr

/-- The QMG's record of a buffer, with the metadata of R174. -/
structure Buffer where
  /-- generation; 8 bits; R172; 1 at pool creation -/
  gen : Nat := 1
  /-- returns outstanding; 0 to 8; R174; reset 0 -/
  returns : Nat := 0
  /-- line or frame sequence number, bytes 0 to 7; 64 bits; R174; reset 0 -/
  seq : Nat := 0
  /-- timebase stamp, bytes 8 to 15; 64 bits; R18, R174; reset 0 -/
  stamp : Nat := 0
  /-- CRC-32C check value, bytes 16 to 19; 32 bits; R174, R229; reset 0 -/
  crc : W32 := 0
  /-- cause code of the first flag, byte 22; R174; 0 -/
  cause : Nat := 0
  /-- payload length, bytes 24 to 27; 32 bits; R174; reset 0 -/
  len : Nat := 0
  /-- stream ID, bytes 28 and 29; 16 bits; R174; reset 0 -/
  stream : Nat := 0
  /-- box entries beyond the declared maximum, as the header of the output names them; R98; reset 0 -/
  beyond : Nat := 0
  /-- the check value has been stored (R19) -/
  checked : Bool := false
  /-- segment number or visit index it was allocated for (R188, R91); the model's own -/
  seg : Nat := 0
  /-- sample index that PPE pushed it for; R248; reset 0 (model's own) -/
  sample : Nat := 0
  deriving DecidableEq, Repr

/-- A link-table entry (R186) with the last 8 line and segment pairs (R188). -/
structure Link where
  /-- first queue; 18 bits; R186 -/
  firstQueue : Nat
  /-- first pool; 12 bits; R186 -/
  firstPool : Nat
  /-- its pools are per target; 1 bit; R186 -/
  perTarget : Bool
  /-- target count N, 1 to 8; R186 -/
  targets : Nat
  /-- steering rule; 2 bits; R186 -/
  steer : Steer
  /-- last 8 line and segment pairs, each with its handle; R188 -/
  recent : List (Nat × Nat × W64) := []
  deriving DecidableEq, Repr

/-- A live epoch (R196). -/
structure Epoch where
  /-- context that opened it; 12 bits; R196 -/
  ctx : Nat
  /-- stream it serves; R194, R196 -/
  stream : Option Nat
  /-- marked cancelled; 1 bit; R197 -/
  cancelled : Bool := false
  /-- clock of the CANCEL's read, for the 1 ms limit (R198) -/
  cancelAt : Nat := 0
  /-- start orders of the CANCELs that name it and have not completed -/
  cancels : List Nat := []
  /-- start order of the command that opened it, while that has not completed -/
  opener : Option Nat := none
  /-- a CANCEL names its twin as well (R199) -/
  twin : Option Nat := none
  /-- transfers outstanding that carry its tag (R192) -/
  outstanding : Nat := 0
  deriving DecidableEq, Repr

/-- A latched signature (R305). -/
structure Sig where
  /-- copy, 0 to 2; R305 -/
  copy : Nat
  /-- signature; 64 bits; R305 -/
  sig : W64
  /-- cause code of its flag, 0 for none; 8 bits; R305 -/
  cause : Nat
  /-- its output is flagged CORRECTED; R305 -/
  corrected : Bool
  /-- its payload, at a record unit; R305, R420 -/
  payload : List Byte
  deriving DecidableEq, Repr

/-- A sequence number held by a vote unit. -/
structure VoteSeq where
  /-- sequence number; 64 bits; R305 -/
  seq : Nat
  /-- stamp of the item, for the stage deadlines of its copies -/
  stamp : Nat := 0
  /-- latched signatures in order of arrival -/
  sigs : List Sig := []
  /-- copies outvoted by a missed deadline -/
  missed : List Nat := []
  /-- copies whose outvote has been logged -/
  logged : List Nat := []
  /-- the signature that two unflagged copies agree on -/
  agreed : Option W64 := none
  /-- a majority was forwarded, or it is settled that none forms -/
  decided : Bool := false
  deriving DecidableEq, Repr

/-- A vote unit (R305, R460). -/
structure VoteUnit where
  /-- stream it serves, none when free; R305; reset none -/
  stream : Option Nat := none
  /-- true for the record unit's vote point -/
  record : Bool := true
  /-- sequence numbers it holds; R305; reset empty -/
  held : List VoteSeq := []
  /-- signatures discarded and counted; R305; reset 0 -/
  discarded : Nat := 0
  /-- retired sequence numbers whose late signatures are discarded -/
  retired : List Nat := []
  /-- clock of the end of the last vote, and of the last test (R322) -/
  votedAt : Option Nat := none
  /-- clock of the last test; R322; reset 0 -/
  testedAt : Nat := 0
  /-- it failed a test; R322; reset false -/
  failed : Bool := false
  deriving DecidableEq, Repr

/-- A requester that waits at the QMG (R184). -/
structure Waiter where
  /-- core that waits; 8 bits; R184 -/
  core : Nat
  /-- what it waits for; R133, R177, R183, R184 -/
  on : WaitOn
  deriving DecidableEq, Repr

/-- A transfer that a core's stream engine has outstanding (R190, R192). -/
structure Xfer where
  /-- core of the engine, 0 to 191; R190 -/
  core : Nat
  /-- queue that it serves; 18 bits; R190 -/
  queue : Nat
  /-- epoch tag, taken from the queue at issue; 16 bits; R192 -/
  epoch : Nat
  /-- handle of the buffer that it reads, none for a write; 64 bits; R190 -/
  handle : Option W64 := none
  deriving DecidableEq, Repr

/-- Requests of a tile's fetch that the engine has still to issue (R190, R191). -/
structure Fetch where
  /-- core of the engine, 0 to 191; R191 -/
  core : Nat
  /-- queue of the popped handle; 18 bits; R191 -/
  queue : Nat
  /-- the popped handle; 64 bits; R191 -/
  handle : W64
  /-- requests of up to 256 B not yet issued; R190 -/
  left : Nat
  deriving DecidableEq, Repr

/-- What a copy's record unit has left for its signature (R31, R87, R305). -/
structure Shown where
  /-- stream; 16 bits; R305 -/
  stream : Nat
  /-- copy, 0 to 2; R305 -/
  copy : Nat
  /-- sequence number; 64 bits; R305 -/
  seq : Nat
  /-- flag causes of the output; R87, R299 -/
  causes : List Nat := []
  /-- output buffer; R305 -/
  payload : List Byte := []
  deriving DecidableEq, Repr

/-- The queue manager. -/
structure Qmg where
  /-- queues by number 0 to 262,143; R180, R181; reset none placed, all UNUSED -/
  queues : Tab Queue := []
  /-- pools by number 0 to 4,095; R175; reset none -/
  pools : Tab PoolSt := []
  /-- buffers by pool × 2^18 + index; R172; generation 1 -/
  buffers : Tab Buffer := []
  /-- link table by number 0 to 16,383; R186; reset none -/
  links : Tab Link := []
  /-- fan-out entries: consumer cores; R187; reset empty -/
  fanouts : Tab (List Nat) := []
  /-- live epochs by number; R196; reset none -/
  epochs : Tab Epoch := []
  /-- vote units by number 0 to 127; R305; reset none in use -/
  votes : Tab VoteUnit := []
  /-- cores that wait at the QMG, oldest first; R184; reset none -/
  waiters : List Waiter := []
  /-- QMG_PUSH_STALLS; 32 bits saturating; R206; reset 0 (DESIGN CHOICE) -/
  pushStalls : Nat := 0
  /-- QMG_POP_WAITS; 32 bits saturating; R206; reset 0 (DESIGN CHOICE) -/
  popWaits : Nat := 0
  /-- QMG_HANDLES_LOST (RWS); 32 bits saturating; R206; reset 0 (DESIGN CHOICE) -/
  handlesLost : Nat := 0
  /-- QMG_DESC_ECC_CORR (RWS); 32 bits saturating; R206; reset 0 (DESIGN CHOICE) -/
  descCorr : Nat := 0
  /-- invalidations that have landed and stand; R302; reset none -/
  invals : List Inval := []
  /-- the next start order of a command; model's own; reset 0 -/
  order : Nat := 0
  /-- transfers outstanding, oldest first; R190, R192; reset none -/
  transfers : List Xfer := []
  /-- outputs of record units whose signatures are still to come, oldest first; R31, R87, R305; reset none (model's own) -/
  shown : List Shown := []
  /-- fetches of tiles that wait for OUT_COUNT to fall, oldest first; R190, R191; reset none -/
  fetches : List Fetch := []
  /-- the QMG stands still, its queues held for a core sample or by a coolant stop; R371, R395; reset false -/
  frozen : Bool := false
  deriving DecidableEq, Repr

/-! ### Ingress, time alignment and pre-processing -/

/-- An ingress port (R251, R252). -/
structure PortSt where
  /-- ING_CFG.TYPE; 4 bits; R252; reset 0 -/
  type : Nat := 0
  /-- ING_CFG.SPEED; 4 bits; R252; reset 0 -/
  speed : Nat := 0
  /-- ING_CFG.LANES; 3 bits; R252; reset 0 -/
  lanes : Nat := 0
  /-- ING_CFG.FEC; 1 bit; R252; reset 0 -/
  fec : Bool := false
  /-- ING_CFG.PAIR_SECOND; 1 bit; R252; reset 0 -/
  second : Bool := false
  /-- ING_LINK.UP; 1 bit; R251; reset 0 (DESIGN CHOICE) -/
  up : Bool := false
  /-- ING_LINK.TRAINED; 1 bit; R251; reset 0 (DESIGN CHOICE) -/
  trained : Bool := false
  /-- ING_VCk_STREAM and ING_LIDARk_STREAM: bound stream by binding 0 to 7; R251; reset unbound (DESIGN CHOICE) -/
  bind : Tab Nat := []
  /-- ING_PKTS; 32 bits saturating; R251; reset 0 (DESIGN CHOICE) -/
  pkts : Nat := 0
  /-- ING_HDR_CORR; 32 bits saturating; R251; reset 0 (DESIGN CHOICE) -/
  hdrCorr : Nat := 0
  /-- ING_PKT_DROP; 32 bits saturating; R251; reset 0 (DESIGN CHOICE) -/
  pktDrop : Nat := 0
  /-- ING_CRC_ERR; 32 bits saturating; R251; reset 0 (DESIGN CHOICE) -/
  crcErr : Nat := 0
  /-- ING_OVERRUN; 32 bits saturating; R251; reset 0 (DESIGN CHOICE) -/
  overrun : Nat := 0
  /-- ING_STRAY; 32 bits saturating; R251; reset 0 (DESIGN CHOICE) -/
  stray : Nat := 0
  /-- the line in reception that ING_STRAY has counted; R227; reset none (model's own) -/
  strayLine : Option CxpLine := none
  /-- static MAC address of an Ethernet lane; 48 bits; R216; reset from settings: 0 (DESIGN CHOICE) -/
  mac : Nat := 0
  /-- static IPv4 address of an Ethernet lane; 32 bits; R216; reset from settings: 0 (DESIGN CHOICE) -/
  ip : Nat := 0
  deriving DecidableEq, Repr

/-- TAL_DISC.STATE (R221, R255). -/
inductive Disc where
  | free | acquiring | locked | holdover
  deriving DecidableEq, Repr

/-- A member frame that is present in a set. -/
structure Member where
  /-- member slot 0 to 15; R230 -/
  slot : Nat
  /-- member stream; 16 bits; R230 -/
  stream : Nat
  /-- sequence number; 64 bits; R231 -/
  seq : Nat
  /-- its buffers, with the queues they go to -/
  handles : List (Nat × W64)
  deriving DecidableEq, Repr

/-- An open set of an alignment group (R231). -/
structure AlignSet where
  /-- reference timestamp of the set; 64 bits; R231 -/
  reference : Nat
  /-- member frames present; R231 -/
  members : List Member
  deriving DecidableEq, Repr

/-- An alignment group (R230). -/
structure Group where
  /-- W in ns; R230; reset 0 (DESIGN CHOICE) -/
  w : Nat := 0
  /-- L in ns; R230; reset 0 (DESIGN CHOICE) -/
  l : Nat := 0
  /-- member stream by member slot 0 to 15; R254; reset none -/
  members : Tab Nat := []
  /-- mandatory-member mask; 16 bits; R254; reset 0 (DESIGN CHOICE) -/
  mandatory : Nat := 0
  /-- TAL_GRP_STAT.LAST_MISSING; 16 bits; R232; reset 0 (DESIGN CHOICE) -/
  lastMissing : Nat := 0
  /-- TAL_GRP_PARTIAL; 32 bits saturating; R232; reset 0 (DESIGN CHOICE) -/
  partials : Nat := 0
  /-- TAL_GRP_LATE; 32 bits saturating; R233; reset 0 (DESIGN CHOICE) -/
  late : Nat := 0
  /-- open sets, oldest first, at most 2; R231; reset none -/
  sets : List AlignSet := []
  /-- references of the last 2 released sets with the member slots that each lacked; R233; reset none -/
  released : List (Nat × List Nat) := []
  deriving DecidableEq, Repr

/-- A frozen-frame detector instance (R234, R257). -/
structure Detector where
  /-- TAL_FRZ_CFG.EN; 1 bit; R257; reset 0 -/
  en : Bool := false
  /-- TAL_FRZ_CFG.EXCL_LINES; 8 bits; R257; reset 0 -/
  excl : Nat := 0
  /-- TAL_FRZ_CFG.THRESH; 8 bits; R257; reset 2 -/
  thresh : Nat := 2
  /-- TAL_FRZ_STREAM; 16 bits; R254; reset 0 (DESIGN CHOICE) -/
  stream : Nat := 0
  /-- TAL_FRZ_STAT.FROZEN; 1 bit; R257; reset 0 -/
  frozen : Bool := false
  /-- TAL_FRZ_STAT.REPEATS; 8 bits saturating at 255; R257; reset 0 -/
  repeats : Nat := 0
  /-- TAL_FRZ_EVENTS; 32 bits saturating; R254; reset 0 (DESIGN CHOICE) -/
  events : Nat := 0
  /-- the signature before; R234; reset none -/
  lastSig : Option W32 := none
  deriving DecidableEq, Repr

/-- Time alignment (R254 to R258): timebase, discipline, odometer, groups and detectors. -/
structure Tal where
  /-- TAL_TIME, the timebase; 64 bits, ns; R219; reset 0 -/
  time : Nat := 0
  /-- fraction of the timebase; units of 2^-32 ns; R219; reset 0 -/
  frac : Nat := 0
  /-- rate correction added each CK_TIME cycle; units of 2^-32 ns; R219, R221; reset 0 (DESIGN CHOICE) -/
  rate : Int := 0
  /-- TAL_TIME_HI as latched by the last read of TAL_TIME_LO; 32 bits; R254; reset 0 (DESIGN CHOICE) -/
  timeHi : W32 := 0
  /-- TAL_DISC.SRC: 0 none, 1 PTP, 2 PPS; R255; reset from settings -/
  src : Nat := 0
  /-- TAL_DISC.LANE; 5 bits; R255; reset from settings -/
  lane : Nat := 0
  /-- PTP domain; R220; from settings -/
  domain : Nat := 0
  /-- TAL_DISC.STATE; R221, R255; reset FREE -/
  disc : Disc := .free
  /-- TAL_OFFSET; signed ns, 32 bits saturating; R254; reset 0 (DESIGN CHOICE) -/
  offset : Int := 0
  /-- consecutive offsets within 100 ns; R221; reset 0 -/
  good : Nat := 0
  /-- clock of the last PTP sync or PPS edge; R221; reset none -/
  lastSync : Option Nat := none
  /-- sync interval of the master in ns; R221; reset 1 s (DESIGN CHOICE) -/
  syncInt : Nat := 1000000000
  /-- data set of the master in use; R220; reset none -/
  master : Option PtpClock := none
  /-- timebase at which a Sync of a two-step master arrived, until its Follow_Up; R220; reset none -/
  syncRx : Option Nat := none
  /-- origin timestamp and arrival of the last Sync, and the departure of the delay request that followed it; R220; reset none -/
  delayReq : Option (Nat × Nat × Nat) := none
  /-- clock at which HOLDOVER was entered; R221; reset 0 -/
  holdAt : Nat := 0
  /-- seconds that software set and that wait for the next PPS edge; R220; reset none -/
  seconds : Option Nat := none
  /-- TAL_ODO_CFG.EN; 1 bit; R256; reset 0 -/
  odoEn : Bool := false
  /-- TAL_ODO_CFG.DIR; 1 bit; R256; reset 0 -/
  odoDir : Bool := false
  /-- TAL_ODO_CFG.FILTER; 8 bits; R256; reset 10 -/
  odoFilter : Nat := 10
  /-- TAL_ODO_CFG.COUNTS_PER_LINE; 16 bits; R256; reset 0 -/
  odoCpl : Nat := 0
  /-- TAL_ODO_MINPER; 32 bits, ns; R254; reset 0 (DESIGN CHOICE) -/
  odoMinPer : Nat := 0
  /-- TAL_ODO_POS; 48-bit signed position; R223; reset 0 (DESIGN CHOICE) -/
  pos : Int := 0
  /-- TAL_ODO_POS_HI as latched by the last read of LO; 32 bits; R254; reset 0 (DESIGN CHOICE) -/
  posHi : W32 := 0
  /-- filtered levels of ODO_A and ODO_B; R223; reset low (DESIGN CHOICE) -/
  odoA : Bool := false
  /-- filtered level of ODO_B; R223; reset low (DESIGN CHOICE) -/
  odoB : Bool := false
  /-- TAL_ODO_STAT.REVERSE; 1 bit; R224, R254; reset 0 (DESIGN CHOICE) -/
  reverse : Bool := false
  /-- TAL_ODO_SKIPPED; 32 bits saturating; R226; reset 0 (DESIGN CHOICE) -/
  skipped : Nat := 0
  /-- TAL_ODO_ILLEGAL; 32 bits saturating; R223; reset 0 (DESIGN CHOICE) -/
  illegal : Nat := 0
  /-- TAL_ODO_CAMS; 12 bits; R224; reset 0 (DESIGN CHOICE) -/
  cams : Nat := 0
  /-- position at which the trigger grid was fixed; none while released; R224; reset none -/
  grid : Option Int := none
  /-- high-water mark; R224; reset 0 -/
  highWater : Int := 0
  /-- timebase of the last issued trigger; R226; reset none -/
  lastTrig : Option Nat := none
  /-- the next emitted line carries the odometer cause; R223; reset false -/
  flagOdo : Bool := false
  /-- the next issued line carries the overspeed cause; R226; reset false -/
  flagSpeed : Bool := false
  /-- alignment groups by number 0 to 63; R230, R254; reset none -/
  groups : Tab Group := []
  /-- frozen-frame detectors by number; R234, R257; reset none -/
  detectors : Tab Detector := []
  deriving DecidableEq, Repr

/-- A JPEG-LS decoder at work (R240). -/
structure Decoder where
  /-- stream of the job; 16 bits; R242 -/
  stream : Nat
  /-- sample index; 32 bits; R242 -/
  sample : Nat
  /-- output buffer, the queue it goes to, and its payload length -/
  handle : W64
  /-- queue the output goes to; 18 bits; R248 -/
  queue : Nat
  /-- payload length of the output; R248 -/
  len : Nat
  /-- elements of the decoded sample; R241, R247 -/
  elems : Nat := 0
  /-- pixels in a line of the image; R241 -/
  width : Nat := 1
  /-- lines of the image; R241 -/
  height : Nat := 1
  /-- components of the image; R241 -/
  comps : Nat := 1
  /-- bits of a sample of the image; R241 -/
  precision : Nat := 8
  /-- an injection makes it read its input as truncated (R260) -/
  cut : Bool := false
  deriving DecidableEq, Repr

/-- The pre-processing engine (R259). -/
structure Ppe where
  /-- JPEG-LS decoders 0 to 3 at work; R240; reset none -/
  decoders : Tab Decoder := []
  /-- PPE_JLS_DONE; 32 bits saturating; R259; reset 0 (DESIGN CHOICE) -/
  jlsDone : Nat := 0
  /-- PPE_JLS_REJECT; 32 bits saturating; R259; reset 0 (DESIGN CHOICE) -/
  jlsReject : Nat := 0
  /-- PPE_JLS_LAST stream ID; 16 bits; R259; reset 0 (DESIGN CHOICE) -/
  jlsStream : Nat := 0
  /-- PPE_JLS_LAST reason; 4 bits; R259; reset 0 (DESIGN CHOICE) -/
  jlsReason : Nat := 0
  /-- PPE_TOK_DONE; 32 bits saturating; R259; reset 0 (DESIGN CHOICE) -/
  tokDone : Nat := 0
  /-- PPE_TOK_REJECT; 32 bits saturating; R259; reset 0 (DESIGN CHOICE) -/
  tokReject : Nat := 0
  /-- PPE_BOX_INVALID; 32 bits saturating; R259; reset 0 (DESIGN CHOICE) -/
  boxInvalid : Nat := 0
  /-- holds of adaptation jobs so far, for the order in which jobs were held; R249, R259; reset 0 (model's own) -/
  holds : Nat := 0
  /-- PPE_HELD.HELD; 1 bit; R259; reset 0 (DESIGN CHOICE) -/
  held : Bool := false
  /-- PPE_HELD context; 12 bits; R259; reset 0 (DESIGN CHOICE) -/
  heldCtx : Nat := 0
  /-- PPE_HELD_SAMPLE; 32 bits; R259; reset 0 (DESIGN CHOICE) -/
  heldSample : Nat := 0
  deriving DecidableEq, Repr

/-! ### Shared cache, mesh and external memory -/

/-- A valid line of a slice (R149). -/
structure CacheLine where
  /-- line number of DRAM (DRAM offset div 64) -/
  line : Nat
  /-- dirty; 1 bit; R149, R151 -/
  dirty : Bool
  /-- poisoned; 1 bit; R139, R149 -/
  poison : Bool := false
  /-- 64 bytes; R149 -/
  data : List Byte
  deriving DecidableEq, Repr

/-- A shared-cache slice (R166). -/
structure Slice where
  /-- valid lines by set × 16 + way; R149; reset none -/
  lines : Tab CacheLine := []
  /-- pseudo-LRU tree bits by set; 15 bits; R151; reset 0 (DESIGN CHOICE) -/
  plru : Tab Nat := []
  /-- SHC_STAT.BYPASSED; 1 bit; R166; reset from settings: 0 -/
  bypassed : Bool := false
  /-- SHC_HITS; 32 bits saturating; R166; reset 0 (DESIGN CHOICE) -/
  hits : Nat := 0
  /-- SHC_MISSES; 32 bits saturating; R166; reset 0 (DESIGN CHOICE) -/
  misses : Nat := 0
  /-- SHC_WRITEBACKS; 32 bits saturating; R166; reset 0 (DESIGN CHOICE) -/
  writebacks : Nat := 0
  /-- SHC_ECC_CORR (RWS); 32 bits saturating; R166; reset 0 (DESIGN CHOICE) -/
  eccCorr : Nat := 0
  /-- data spare rows used by sub-bank 0 to 31; 0 to 8 each; SHC_SPARE_USED shows their sum; R142, R166; reset from
  fuses: 0 (DESIGN CHOICE) -/
  dataUsed : Tab Nat := []
  /-- tag spare rows used by the first copy of the tags; 0 to 4; SHC_SPARE_USED shows the sum of both copies; R142, R166;
  reset from fuses: 0 (DESIGN CHOICE) -/
  tagSpares : Nat := 0
  /-- tag spare rows used by the second copy; 0 to 4; R142, R166; reset from fuses: 0 (DESIGN CHOICE) -/
  tagSpares1 : Nat := 0
  /-- words with a corrected error seen: row and word; R143; reset none -/
  corrWords : List (Nat × Nat) := []
  /-- uncorrectable data errors of clean lines; 32 bits saturating, shown by no register; R153; reset 0 (DESIGN CHOICE) -/
  cleanUncorr : Nat := 0
  deriving DecidableEq, Repr

/-- Mode of a home-map entry (R165). -/
inductive HomeMode where
  | slice | quadrant | noAllocate
  deriving DecidableEq, Repr

/-- A valid MESH_HOME entry (R165). -/
structure HomeEntry where
  /-- MODE; 2 bits; R165 -/
  mode : HomeMode
  /-- slice or quadrant; 6 bits; R165 -/
  target : Nat
  /-- length and base in 64 KiB granules -/
  length : Nat
  /-- base granule; 22 bits; R165 -/
  base : Nat
  deriving DecidableEq, Repr

/-- State of a mesh plane. -/
inductive PlaneState where
  | up
  /-- paused while a lane is steered onto a spare (R154) -/
  | steering
  /-- taken out, its transfers in flight still arriving (R388) -/
  | draining
  | out
  deriving DecidableEq, Repr

/-- The mesh (R164). -/
structure Mesh where
  /-- MESH_LANES_SPARED; 16 bits; R164; reset 0 (DESIGN CHOICE) -/
  lanesSpared : Nat := 0
  /-- MESH_BUCKETb where it differs from b mod 48; 6 bits each; R150, R164; reset none -/
  buckets : Tab Nat := []
  /-- valid MESH_HOME entries by number 0 to 1,023; R165; reset none -/
  homes : Tab HomeEntry := []
  /-- state of link planes 0 to 7 where not up; R154, R388; reset all up -/
  planes : Tab PlaneState := []
  /-- spare lanes used by plane × 4096 + link direction; 0 to 4; R154; reset 0 -/
  spares : Tab Nat := []
  /-- bytes of the Strata pieces that writers are sending and whose trailer is still to come, by
  (writer × 192 + core) × 256 + window; R82; reset none -/
  pieces : Tab (List Byte) := []
  deriving DecidableEq, Repr

/-- DMC_STAT (R167). -/
inductive DmcMode where
  | active | selfRefresh | mappedOut | training
  deriving DecidableEq, Repr

/-- A DMC channel (R167, R168). -/
structure Dmc where
  /-- DMC_STAT; 2 bits; R167; reset TRAINING (DESIGN CHOICE) -/
  mode : DmcMode := .training
  /-- DMC_CFG.RATE; 2 bits; R168; reset from settings: 0 -/
  rate : Nat := 0
  /-- DMC_CFG.RANKS; 1 bit; R168; reset from MR8: 0 (DESIGN CHOICE) -/
  ranks : Nat := 0
  /-- DMC_CFG.DENSITY; 4 bits; R168; reset from MR8: 0x4 (DESIGN CHOICE) -/
  density : Nat := 4
  /-- DMC_ECC_CORR (RWS); 32 bits saturating; R167; reset 0 (DESIGN CHOICE) -/
  eccCorr : Nat := 0
  /-- DMC_ECC_UNCORR (RWS); 32 bits saturating; R167; reset 0 (DESIGN CHOICE) -/
  eccUncorr : Nat := 0
  /-- DMC_LINK_CORR (RWS); 32 bits saturating; R167; reset 0 (DESIGN CHOICE) -/
  linkCorr : Nat := 0
  /-- DMC_PPR_PENDING; 8 bits; R167; reset 0 (DESIGN CHOICE) -/
  ppr : Nat := 0
  /-- clocks of uncorrectable errors of the last 24 h; R161; reset none -/
  uncorrAt : List Nat := []
  /-- rows with corrected errors on one patrol pass; R161; reset none -/
  corrRows : List Nat := []
  /-- a map-out request is recorded in the settings; R161; reset false -/
  mapOut : Bool := false
  /-- rows that its dies can still repair, as the boot found them; R161; reset 0 (DESIGN CHOICE) -/
  repairs : Nat := 0
  deriving DecidableEq, Repr

/-! ### Safety island -/

/-- SAFE_STAT.STATE apart from the safe state, which SS_CAUSE gives (R330). -/
inductive SafeMode where
  | boot | run
  deriving DecidableEq, Repr

/-- SAFE_MBOX_STAT.RESULT (R331). -/
inductive MboxResult where
  | idle | busy | done | refused
  deriving DecidableEq, Repr

/-- The safety island (R294, R329 to R331) with its retention memory. -/
structure Safe where
  /-- BOOT or RUN; R330; reset BOOT -/
  mode : SafeMode := .boot
  /-- SAFE_STAT.SS_CAUSE; 8 bits; R317, R330; reset 0 -/
  ssCause : Nat := 0
  /-- SAFE_STAT.SAFEREF_OK; 1 bit; R330; reset 0 -/
  saferefOk : Bool := false
  /-- SAFE_STAT.PAIR0_OK; 1 bit; R330; reset 0 -/
  pair0Ok : Bool := false
  /-- SAFE_STAT.PAIR1_OK; 1 bit; R330; reset 0 -/
  pair1Ok : Bool := false
  /-- SAFE_PINS.OK_P; level driven; R330; reset 0 -/
  okP : Bool := false
  /-- SAFE_PINS.OK_N; level driven; R330; reset 0 -/
  okN : Bool := false
  /-- SAFE_PINS.FAULT_N; level driven; R330; reset 0 -/
  faultN : Bool := false
  /-- the three safety pins are driven; R444; reset not driven -/
  driven : Bool := false
  /-- pair 0 and pair 1 have kicked in this half-period; R295; reset false -/
  kicked0 : Bool := false
  /-- pair 1 has kicked in this half-period; R295; reset false -/
  kicked1 : Bool := false
  /-- clock of the last dangerous fault; R320; reset none -/
  dangerAt : Option Nat := none
  /-- SAFE_FAULT_HOLD; 10 bits, ms; R320, R329; reset 10 from settings -/
  faultHold : Nat := 10
  /-- PIN_TEST holds FAULT_N low since this clock; R333; reset none -/
  pinTest : Option Nat := none
  /-- SAFE_EGRESS.LINK_UP; 1 bit; R329; reset 0 (DESIGN CHOICE) -/
  linkUp : Bool := false
  /-- SAFE_EGRESS period; 17 bits, µs; R321, R329; reset 1000 from settings -/
  egressUs : Nat := 1000
  /-- fault records queued for egress, oldest first, at most 64; R321; reset empty -/
  egress : List FaultRec := []
  /-- frame sequence number, in retention; 32 bits wrapping; R321; reset 0 -/
  frameSeq : Nat := 0
  /-- fault records lost since power-on, bytes 28 and 29 of a frame; 16 bits saturating; R321; reset 0 -/
  lostSeen : Nat := 0
  /-- SAFE_EVT_TRANSIENT (RWS); 32 bits saturating; R329; reset 0 (DESIGN CHOICE) -/
  evtTransient : Nat := 0
  /-- SAFE_EVT_PERMANENT (RWS); 32 bits saturating; R329; reset 0 (DESIGN CHOICE) -/
  evtPermanent : Nat := 0
  /-- SAFE_EVT_MASKED (RWS); 32 bits saturating; R329; reset 0 (DESIGN CHOICE) -/
  evtMasked : Nat := 0
  /-- SAFE_EGRESS_LOST (RWS); 32 bits saturating; R329; reset 0 (DESIGN CHOICE) -/
  egressLost : Nat := 0
  /-- fault log of the last 1,024 records in retention, newest first (SAFE_LAST_REC is its head); R294; reset empty -/
  log : List FaultRec := []
  /-- last 3 event times of each core, newest first, in retention; ns; R312; reset none -/
  events : Tab (List Nat) := []
  /-- number of cores past their test interval is derived; SAFE_LATENT[7:0], the last such core; R329; reset 0 (DESIGN CHOICE) -/
  lateCore : Nat := 0
  /-- SAFE_MBOX_ARG0 to ARG3; 32 bits each; R329; reset 0 (DESIGN CHOICE) -/
  mboxArg : Tab W32 := []
  /-- SAFE_MBOX_STAT.LAST_CMD; 8 bits; R331; reset 0 -/
  mboxLast : Nat := 0
  /-- SAFE_MBOX_STAT.RESULT; 2 bits; R331; reset IDLE -/
  mboxResult : MboxResult := .idle
  /-- SAFE_MBOX_OUT0 to OUT7; 32 bits each; R329; reset 0 (DESIGN CHOICE) -/
  mboxOut : List W32 := []
  /-- error events and fault records on their way to SAFE, oldest first; R28; reset empty -/
  inbox : List FaultEv := []
  /-- invalidations on their way to the QMG, oldest first; R28, R302; reset empty -/
  invOut : List Inval := []
  /-- SAFE's own copy of the partition settings: class by partition; R316; reset empty -/
  classes : Tab SafetyClass := []
  /-- clock of the last kick of each control core; R315; reset 0 -/
  kicks : Tab Nat := []
  deriving DecidableEq, Repr

/-! ### Power and thermal manager -/

/-- A P-step change under way (R356). -/
structure StepChange where
  /-- step it goes to; 4 bits; R356 -/
  target : Nat
  /-- it goes up; 1 bit; R356 -/
  up : Bool
  /-- clock at which the change was ordered -/
  since : Nat
  /-- the injected failure or the regulator's answer: treated as unacknowledged -/
  noAck : Bool := false
  deriving DecidableEq, Repr

/-- A quadrant's power state (R357, R377). -/
structure Quad where
  /-- PWR_QSTATq.PSTEP; 4 bits; R377; reset 0 -/
  pstep : Nat := 0
  /-- PWR_QSTATq.TARGET; 4 bits; R377; reset 0 -/
  target : Nat := 0
  /-- divider held by the allocator, by the guard and by PWR_LIMIT_N; PWR_QSTATq.DIV is their or; R357; reset 0 -/
  divAlloc : Bool := false
  /-- divider held by the guard; R357, R362; reset 0 -/
  divGuard : Bool := false
  /-- divider held by the power limit; R357, R367; reset 0 -/
  divLimit : Bool := false
  /-- PWR_QSTATq.BEDROCK; 1 bit; R365, R377; reset 0 -/
  bedrock : Bool := false
  /-- PWR_QSTATq.EST; 16 bits, 1/16 W; R377; reset 0 -/
  est : Nat := 0
  /-- step the idle PLL is locked at; R356; reset 0 -/
  idlePll : Nat := 0
  /-- step whose voltage the regulator is asked for; R355, R356; reset 6 (0.78 V at power-up, R448) -/
  volt : Nat := 6
  /-- the change under way; R356; reset none -/
  change : Option StepChange := none
  /-- VRDY_Qq level; R442, R449; reset low (DESIGN CHOICE) -/
  vrdy : Bool := false
  /-- quadrant isolated under R314; R29, R393; reset false -/
  isolated : Bool := false
  /-- clock since which its clock and rail have been in range while isolated; R393; reset 0 -/
  goodSince : Nat := 0
  /-- a quadrant reset is under way; R393; reset false -/
  resetting : Bool := false
  deriving DecidableEq, Repr

/-- The power and thermal manager (R376 to R378). -/
structure Pwr where
  /-- PWR_CAP.CAP; 9 bits, W; R359, R377; reset 450 from settings -/
  cap : Nat := 450
  /-- PWR_GUARD.GUARD; 7 bits, W; R362, R377; reset 40 -/
  guard : Nat := 40
  /-- PWR_EST; 16 bits, 1/16 W; R376; reset 0 (DESIGN CHOICE) -/
  est : Nat := 0
  /-- the last 500 estimates, newest first (PWR_EST_AVG is their mean); R358; reset empty -/
  hist : List Nat := []
  /-- estimate of the rest of the device; 1/16 W; R374; reset 0 (DESIGN CHOICE) -/
  rest : Nat := 0
  /-- quadrants 0 to 3; R357, R377; reset none listed: each at its default -/
  quads : Tab Quad := []
  /-- PWR_STAT.GUARD_ACTIVE; 1 bit; R378; reset 0 -/
  guardActive : Bool := false
  /-- PWR_STAT.TJ_HOT; 1 bit; R378; reset 0 -/
  tjHotOn : Bool := false
  /-- PWR_STAT.TJ_OVER_GRADE; 1 bit; R378; reset 0 -/
  overGrade : Bool := false
  /-- PWR_STAT.THERMTRIP; 1 bit; R378; reset 0 -/
  thermtrip : Bool := false
  /-- PWR_STAT.COOLANT_OK, the level of the pin; R378; reset 0 -/
  coolantOk : Bool := false
  /-- PWR_STAT.LIMIT_ACTIVE; 1 bit; R378; reset 0 -/
  limitActive : Bool := false
  /-- PWR_STAT.CAP_INFEASIBLE; 1 bit; R364, R378; reset 0 -/
  infeasible : Bool := false
  /-- PWR_TJ_HOT; 12 bits signed, 1/8 °C; R369, R376; reset from settings: grade bound − 5 °C -/
  tjHot : Int := 880
  /-- PWR_TJn.TJ by sensor; 12 bits signed, 1/8 °C; R378; reset 0 -/
  tj : Tab Int := []
  /-- sensors that have a reading and are not excluded (PWR_TJn.VALID); R368, R378; reset none -/
  valid : List Nat := []
  /-- sensors that are excluded; R368; reset none -/
  excluded : List Nat := []
  /-- clock since which every sensor has read 2 °C below the bound; R370; reset none -/
  coolSince : Option Nat := none
  /-- PWR_LIMIT_EVENTS (RWS); 32 bits saturating; R376; reset 0 (DESIGN CHOICE) -/
  limitEvents : Nat := 0
  /-- PWR_GUARD_EVENTS; 32 bits saturating; R376; reset 0 (DESIGN CHOICE) -/
  guardEvents : Nat := 0
  /-- learned table: power (1/16 W) and progress by (quadrant × 16 + phase) × 17 + step, where step 16 is step 0 with the divider; R361; reset to the open defaults -/
  table : Tab (Nat × Nat) := []
  /-- after THERMTRIP no stream is armed until every sensor is 10 °C below the bound; R372; reset false -/
  thermHold : Bool := false
  /-- array and vector clocks stopped and the reaction of R371 entered; reset false -/
  stopped : Bool := false
  /-- the listed clocks are stopped and the rails are in retention; R371; reset false -/
  retention : Bool := false
  deriving DecidableEq, Repr

/-! ### Control complex, debug, boot, links and monitors -/

/-- State of the re-placement journal (R286, R292). -/
inductive JState where
  | idle | prepare | committed
  deriving DecidableEq, Repr

/-- A running re-placement (R286). -/
structure Repl where
  /-- stage slot of the journal entry; one slot, or every slot of a copy that moves to another quadrant (R385) -/
  slot : Nat
  /-- new cores by moved slot -/
  moves : List (Nat × List CoreNum)
  /-- cores of the old and of the new placement, position by position -/
  old : List Nat
  /-- cores of the new placement, position by position -/
  new : List Nat
  /-- the switch boundary N -/
  boundary : Nat := 0
  deriving DecidableEq, Repr

/-- A background FW_UPDATE (R402, R403). -/
structure FwUpd where
  /-- context of the command; 12 bits; R402 -/
  ctx : Nat
  /-- start order of the command -/
  order : Nat
  /-- 0 STAGE, 1 LIVE, 2 NEXT_RESET -/
  mode : Nat
  /-- the image it writes; R425 -/
  img : FwImage
  deriving DecidableEq, Repr

/-- Why a command waits inside the device. -/
inductive HoldWhy where
  /-- 65,535 epochs are live (R196) -/
  | epochs
  /-- a running re-placement of the stream (R289) -/
  | replacement
  /-- a live activation (R404) -/
  | activation
  /-- an earlier REARM or ARM_STREAM of the stream (R193) -/
  | rearm (stream : Nat)
  /-- a P-step change to step 6 of a quadrant (R365) -/
  | bedrock
  /-- a command at the head of its command queue that waits for an epoch number (R196, R203) -/
  | behind
  deriving DecidableEq, Repr

/-- A command that waits inside the device. -/
structure Held where
  /-- what it waits for; R196, R289, R404 -/
  why : HoldWhy
  /-- context of the command and its start order -/
  ctx : Nat
  /-- start order of the command; R203 -/
  order : Nat
  /-- the command itself; R202 -/
  cmd : Instr
  deriving DecidableEq, Repr

/-- A FENCE that waits (R274). -/
structure FenceWait where
  /-- context of the FENCE; 12 bits; R274 -/
  ctx : Nat
  /-- start order of the FENCE -/
  order : Nat
  /-- the epoch it names, 0xFFFF for all earlier commands -/
  epoch : Nat
  deriving DecidableEq, Repr

/-- A core under SERVICE CORE_TEST (R278). -/
structure CoreTest where
  /-- core under test; 8 bits; R278 -/
  core : Nat
  /-- context of the command; 12 bits; R278 -/
  ctx : Nat
  /-- start order of the command -/
  order : Nat
  deriving DecidableEq, Repr

/-- The control complex (R291, R292). -/
structure Ctl where
  /-- CTL_FW_VER; 32 bits; R291; reset release 3.0 build 0 (DESIGN CHOICE) -/
  fwVer : W32 := 0x03000000
  /-- current format major of the running release; R272; reset 3 -/
  fmtMajor : Nat := 3
  /-- highest known minor of the current and of the previous major; R272, R291; reset 0 and 5 -/
  minorCur : Nat := 0
  /-- highest known minor of the previous major; R272, R291; reset 5 -/
  minorPrev : Nat := 5
  /-- control cores out of service (CTL_CORES_UP has the others); R291, R315; reset none -/
  down : List Nat := []
  /-- CTL_PLACE_EPOCH (RWS, in retention); 32 bits; R271; reset 0 -/
  placeEpoch : Nat := 0
  /-- CTL_JOURNAL.SLOT; 12 bits; R292; reset 0 -/
  jSlot : Nat := 0
  /-- CTL_JOURNAL.LAST_RESET; 2 bits; R292; reset 0 -/
  jLast : Nat := 0
  /-- CTL_JOURNAL.STATE; 2 bits; R292; reset IDLE -/
  jState : JState := .idle
  /-- the running re-placement, in retention; R286; reset none -/
  repl : Option Repl := none
  /-- slots whose stage is pending re-placement; R459; reset none -/
  pendRepl : List Nat := []
  /-- slots that become pending again once the CANCEL that abandoned their re-placement has completed; R289; reset none -/
  retry : List Nat := []
  /-- commands that wait, oldest first; R196, R289, R404; reset empty -/
  waiting : List Held := []
  /-- FENCE commands that wait; R274; reset empty -/
  fences : List FenceWait := []
  /-- cores under SERVICE CORE_TEST; R278; reset none -/
  tests : List CoreTest := []
  /-- the running firmware update; R402; reset none -/
  upd : Option FwUpd := none
  /-- control cores already switched in a live activation; R404; reset none -/
  switched : List Nat := []
  /-- clock at which the core being switched was restarted; R404; reset 0 -/
  switchAt : Nat := 0
  /-- CTL_ACCT_WAIT_HI as latched by each function's read of LO; R291; reset 0 (DESIGN CHOICE) -/
  acctHi : Tab W32 := []
  deriving DecidableEq, Repr

/-- DBG_CS_STAT.STATE (R410). -/
inductive CsState where
  | none | writing | kept | part | copying | copyDone
  deriving DecidableEq, Repr

/-- DBG_FW_UPD.STATE (R410). -/
inductive UpdState where
  | idle | writing | staged | pending | activating | failed
  deriving DecidableEq, Repr

/-- A directory entry of a core sample (R398). -/
structure SampleSection where
  /-- section type; 16 bits; R398, R399 -/
  type : Nat
  /-- section version; 16 bits; R398 -/
  version : Nat
  /-- entry size in bytes; 32 bits; R398, R399 -/
  size : Nat
  /-- offset from the region base; 64 bits; R398 -/
  offset : Nat
  /-- entries written; 32 bits; R398, R399 -/
  written : Nat
  /-- entries omitted for lack of space; 32 bits; R398, R399 -/
  omitted : Nat
  /-- CRC-32C over the section's bytes; R398 -/
  crc : W32
  deriving DecidableEq, Repr

/-- The header of a core sample (R397). -/
structure Sample where
  /-- SS_CAUSE; 8 bits; R397 -/
  ssCause : Nat
  /-- fatal-error code; 8 bits; R389, R397 -/
  fatal : Nat
  /-- CTL_FW_VER at entry; 32 bits; R397 -/
  fwVer : W32
  /-- CTL_CORES_UP at entry; 8 bits; R397 -/
  coresUp : Nat
  /-- timebase at entry into the safe state; 64 bits; R397 -/
  entry : Nat
  /-- timebase at the end of the sample; 64 bits; R397 -/
  endTime : Nat := 0
  /-- placement epoch; 32 bits; R397 -/
  placeEpoch : Nat
  /-- COMPLETE; 1 bit; R397 -/
  complete : Bool := false
  /-- TRUNCATED; 1 bit; R397 -/
  truncated : Bool := false
  /-- fault record that caused entry; 32 bytes; R397 -/
  fault : Option FaultRec := none
  /-- its directory, in ascending type; R397 to R399 -/
  sections : List SampleSection := []
  deriving DecidableEq, Repr

/-- The debug block (R409, R410). -/
structure Dbg where
  /-- DBG_RST_CAUSE.SOURCE; 4 bits; R410; reset 0, kept across warm reset -/
  rstSource : Nat := 0
  /-- DBG_RST_CAUSE.SS_CAUSE; 8 bits; R410; reset 0, kept across warm reset -/
  rstCause : Nat := 0
  /-- DBG_RST_COUNT; 32 bits saturating; R409; reset 0, kept across warm reset -/
  rstCount : Nat := 0
  /-- DBG_RST_LOST; 32 bits saturating; R409; reset 0, kept across warm reset -/
  rstLost : Nat := 0
  /-- DBG_FATAL; 8 bits; R409; reset 0, kept across warm reset -/
  fatal : Nat := 0
  /-- DBG_HANG_WAIT; 10 bits, ms; R381, R409; reset 100 from settings -/
  hangWait : Nat := 100
  /-- DBG_CS_BASE; 64 bits; R396, R409; reset 0 from settings -/
  csBase : Nat := 0
  /-- DBG_CS_SIZE; 9 bits, MiB; R409; reset 0 from settings -/
  csSize : Nat := 0
  /-- DBG_CS_STAT.STATE; 4 bits; R410; reset NONE, kept across warm reset -/
  csState : CsState := .none
  /-- a COPY waits for the clocks of R371; R400; reset false -/
  csWait : Bool := false
  /-- DBG_CS_HOST; 64 bits; R409; reset 0 (DESIGN CHOICE) -/
  csHost : W64 := 0
  /-- the header of the kept core sample; R397; reset none, in DRAM -/
  sample : Option Sample := none
  /-- DBG_NOTICE_HI and LO; 64 bits; R409; reset 0 (DESIGN CHOICE) -/
  noticeBase : W64 := 0
  /-- DBG_NOTICE_CFG.EN; 1 bit; R409; reset 0 (DESIGN CHOICE) -/
  noticeEn : Bool := false
  /-- DBG_NOTICE_CFG.LOG2; 4 bits; R409; reset 0 (DESIGN CHOICE) -/
  noticeLog2 : Nat := 0
  /-- HEAD count of the notice ring; 19 bits; R406, R409; reset 0 -/
  noticeHead : Nat := 0
  /-- TAIL count of the notice ring; R406; reset 0 -/
  noticeTail : Nat := 0
  /-- DBG_NOTICE_LOST; 32 bits saturating; R406, R409; reset 0 (DESIGN CHOICE) -/
  noticeLost : Nat := 0
  /-- notices dropped and not yet announced by NOTICES_LOST; R406; reset 0 -/
  noticeOwed : Nat := 0
  /-- notice sequence number; 32 bits; R407; reset 0 (DESIGN CHOICE) -/
  noticeSeq : Nat := 0
  /-- DBG_FW_UPD.LIVE_CORE; 8 bits; R410; reset 0xFF -/
  liveCore : Nat := 0xFF
  /-- DBG_FW_UPD.REASON; 4 bits; R410; reset 0, kept across warm reset -/
  updReason : Nat := 0
  /-- DBG_FW_UPD.STATE; 4 bits; R410; reset IDLE, kept across warm reset -/
  updState : UpdState := .idle
  deriving DecidableEq, Repr

/-- GLB_STAT.BOOT_STATE (R438). -/
inductive BootState where
  | powerOn | safeTest | image | train | coreTest | settings | ready | waitCoolant | stopped
  deriving DecidableEq, Repr

/-- A settings record in the active sector of the flash (R428). -/
structure Setting where
  /-- type; 16 bits; R428 -/
  type : Nat
  /-- instance; 16 bits; R428 -/
  inst : Nat
  /-- generation; 32 bits; R428 -/
  gen : Nat
  /-- value, 0 to 4,080 bytes; R428 -/
  value : List Byte
  deriving DecidableEq, Repr

/-- The fuses and the xSPI NOR flash, which every reset keeps (R390). -/
structure Nvm where
  /-- GLB_SERIAL; 64 bits; R437; from fuses: 0 (DESIGN CHOICE) -/
  serial : Nat := 0
  /-- GLB_DEVID grade: true for FXL9A-40T; R4, R437; from fuses: FXL9A-40T (DESIGN CHOICE) -/
  gradeT : Bool := true
  /-- cores fused out; at most 8; R13; from fuses: none (DESIGN CHOICE) -/
  fused : List Nat := []
  /-- rows that production test found and repaired: of a core, core × 32768 + bank × 512 + row; R143; from fuses: none
  (DESIGN CHOICE) -/
  coreRows : List Nat := []
  /-- of a slice, slice × 64 + sub-bank, or slice × 64 + 32 + copy of the tags; R143; from fuses: none (DESIGN CHOICE) -/
  sliceRows : List Nat := []
  /-- revoked keys by key index; R425; from fuses: none (DESIGN CHOICE) -/
  revoked : List Nat := []
  /-- anti-rollback counter; 0 to 63; R426; from fuses: 0 (DESIGN CHOICE) -/
  counter : Nat := 0
  /-- image in slot A; R425; from flash: a verifying release 3.0 image (DESIGN CHOICE) -/
  slotA : Option FwImage := some ⟨0, 0, 0, true, true, 0x03000000, 3, true⟩
  /-- image in slot B; R425; from flash: none (DESIGN CHOICE) -/
  slotB : Option FwImage := none
  /-- slot marker: active slot is B; R430; from flash: A (DESIGN CHOICE) -/
  activeB : Bool := false
  /-- slot marker: pending slot, true for B; R430; from flash: none (DESIGN CHOICE) -/
  pending : Option Bool := none
  /-- settings records in the order written; R428; from flash: none (DESIGN CHOICE) -/
  settings : List Setting := []
  /-- sector generation of the active sector; R428; from flash: 0 (DESIGN CHOICE) -/
  sectorGen : Nat := 0
  /-- records that fail their CRC in the active sector; R428; from flash: 0 (DESIGN CHOICE) -/
  badCrc : Nat := 0
  deriving DecidableEq, Repr

/-- BOOT_LOAD_STAT (R437). -/
inductive LoadStat where
  | idle | loading | done | failed
  deriving DecidableEq, Repr

/-- GLB and BOOT (R437, R438). -/
structure Boot where
  /-- GLB_STAT.STOP_CODE; 8 bits; R438; reset 0 -/
  stopCode : Nat := 0
  /-- GLB_STAT.BOOT_STATE; 4 bits; R438; reset POWER_ON -/
  state : BootState := .powerOn
  /-- GLB_STAT.WARM_PENDING; 1 bit; R438; reset 0 -/
  warmPending : Bool := false
  /-- GLB_STAT.READY; 1 bit; R438; reset 0 -/
  ready : Bool := false
  /-- BOOT_STAT.BAD_RECORDS; 8 bits saturating; R437; reset 0 (DESIGN CHOICE) -/
  badRecords : Nat := 0
  /-- BOOT_STAT.FALLBACK; 1 bit; R437; reset 0 (DESIGN CHOICE) -/
  fallback : Bool := false
  /-- BOOT_STAT.SLOT, true for B; R437; reset A (DESIGN CHOICE) -/
  slotB : Bool := false
  /-- BOOT_STAT running SVN; 6 bits; R437; reset 0 (DESIGN CHOICE) -/
  svn : Nat := 0
  /-- BOOT_LOAD_HI and LO; 64 bits; R437; reset 0 (DESIGN CHOICE) -/
  loadAddr : W64 := 0
  /-- BOOT_LOAD_LEN; 27 bits; R437; reset 0 (DESIGN CHOICE) -/
  loadLen : W32 := 0
  /-- BOOT_LOAD_STAT; 2 bits; R437; reset IDLE -/
  loadStat : LoadStat := .idle
  /-- channels that trained; one bit each (GLB_DMC); R437; reset 0 (DESIGN CHOICE) -/
  trained : Nat := 0
  /-- source of the warm reset that WARM_PENDING announces; R451; reset 0 -/
  pendSource : Nat := 0
  /-- a warm reset is under way: its source (0 none); R391; reset 0 -/
  warm : Nat := 0
  /-- the quiesce of the warm reset has ended; R391; reset false -/
  warmCut : Bool := false
  /-- clock at which the quiesce began; R391; reset 0 -/
  warmAt : Nat := 0
  /-- ingress accepts no new line or frame; R371, R391, R395; reset false -/
  ingressClosed : Bool := false
  /-- clock of the entry into the safe state, for the automatic restart; R389; reset 0 -/
  fatalAt : Nat := 0
  /-- automatic restart enabled; R389, R430; reset from settings: off -/
  autoRestart : Bool := false
  /-- clock at which COOLANT_OK was last seen low; R424; reset 0 -/
  coolantLowAt : Nat := 0
  /-- clock at which PORST_N rose; R424; reset 0 -/
  porstAt : Nat := 0
  /-- the SAFE boot self-test has ended; R424, R449; reset false -/
  safeDone : Bool := false
  /-- GLB_STAT.READY has risen since power-on (the model's own); 1 bit; R424, R427; reset false -/
  booted : Bool := false
  deriving DecidableEq, Repr

/-- The PCIe endpoint (R437). -/
structure Pce where
  /-- the link is up; R424; reset false -/
  up : Bool := false
  /-- PCE_LINK speed; 4 bits, 1 to 5; R437; reset 0 (DESIGN CHOICE) -/
  speed : Nat := 0
  /-- PCE_LINK width; 5 bits; R437; reset 0 (DESIGN CHOICE) -/
  width : Nat := 0
  /-- maximum payload size in bytes; R412; reset 128 (DESIGN CHOICE) -/
  mps : Nat := 128
  /-- PCE_VF; 5 bits; R437; reset 16 (DESIGN CHOICE) -/
  vfs : Nat := 16
  /-- MSI-X masked vectors, function × 1,024 + vector; R416; reset none masked (DESIGN CHOICE) -/
  masked : List Nat := []
  /-- MSI-X pending bits, function × 1,024 + vector; R416; reset none -/
  pendingVecs : List Nat := []
  deriving DecidableEq, Repr

/-- A Ternlink port (R437). -/
structure Tlk where
  /-- TLK_STAT.UP; 1 bit; R437; reset 0 (DESIGN CHOICE) -/
  up : Bool := false
  /-- TLK_STAT protocol version; 8 bits; R422, R437; reset 0 (DESIGN CHOICE) -/
  version : Nat := 0
  /-- TLK_STAT peer device number; 8 bits; R437; reset 0 (DESIGN CHOICE) -/
  peer : Nat := 0
  /-- TLK_STAT lanes in use; 4 bits; R437; reset 0 (DESIGN CHOICE) -/
  lanes : Nat := 0
  /-- TLK_STAT.SPARE_USED; 1 bit; R437; reset 0 (DESIGN CHOICE) -/
  spareUsed : Bool := false
  /-- lanes that failed since training; R423; reset none -/
  failed : List Nat := []
  /-- a lane is being steered onto the spare and the port holds its traffic; R423; reset false -/
  steering : Bool := false
  /-- TLK_PEER_FW; 24 bits; R437; reset 0 (DESIGN CHOICE) -/
  peerFw : Nat := 0
  /-- TLK_REPLAYS; 32 bits saturating; R437; reset 0 (DESIGN CHOICE) -/
  replays : Nat := 0
  /-- apertures open to the peer: partition and first and last DRAM offset; R421; reset none -/
  apertures : Tab (Nat × Nat × Nat) := []
  deriving DecidableEq, Repr

/-- A monitor (R440). -/
structure Mon where
  /-- MON_SRC; 16 bits; R440; reset 0 (DESIGN CHOICE) -/
  src : Nat := 0
  /-- MON_ARG; 18 bits; R440; reset 0 (DESIGN CHOICE) -/
  arg : Nat := 0
  /-- MON_CFG.EN; 1 bit; R440; reset 0 -/
  en : Bool := false
  /-- MON_CFG.LOG; 1 bit; R440; reset 0 -/
  log : Bool := false
  /-- MON_CFG.PERIOD; 16 bits; R440; reset 1 -/
  period : Nat := 1
  /-- MON_E0; 32 bits; R440; reset 0 (DESIGN CHOICE) -/
  e0 : W32 := 0
  /-- MON_STEP; 32 bits; R440; reset 0 (DESIGN CHOICE) -/
  step : W32 := 0
  /-- MON_MIN; none before any sample; R440; reset none -/
  min : Option Int := none
  /-- MON_MAX; none before any sample; R440; reset none -/
  max : Option Int := none
  /-- MON_COUNT; 32 bits saturating; R440; reset 0 (DESIGN CHOICE) -/
  count : Nat := 0
  /-- MON_BIN0 to MON_BIN31; 32 bits saturating; R440; reset 0 (DESIGN CHOICE) -/
  bins : Tab Nat := []
  deriving DecidableEq, Repr

/-! ### The machine -/

/-- The FX-L9. -/
@[ext]
structure State where
  /-- commands that wait, first in, first out (the model's own queue) -/
  pending : List Instr := []
  /-- time since power-on in ns; the model's own clock (log entry 4) -/
  clock : Nat := 0
  /-- free values drawn so far; the model's own counter (log entry 5) -/
  free : Nat := 0
  /-- what has left the device, oldest first; the model's own record (log entry 6) -/
  outs : List Out := []
  /-- register page headers by page number; R9, R432, R433; reset none listed: each at its default -/
  pages : Tab Header := []
  /-- registers whose name ends in SEL, by (BAR0 offset × 17 + function); R415; reset 0 -/
  sels : Tab W32 := []
  /-- compute cores 0 to 191; R11, R30; reset none listed: each at its default -/
  cores : Tab CoreSt := []
  /-- partitions 0 to 15; R262; reset none (the boot makes partition 0) -/
  parts : Tab Partition := []
  /-- contexts 0 to 4,095; R6, R264; reset none listed: each at its default -/
  ctxs : Tab Ctx := []
  /-- loaded stage images by ID; R272; reset none -/
  images : Tab Image := []
  /-- declared streams by ID; R275; reset none -/
  streams : Tab Stream := []
  /-- placement epoch at which a stage slot last changed, by slot; R270; reset 0 -/
  slotEpochs : Tab Nat := []
  /-- the queue manager; R180, R206 -/
  qmg : Qmg := {}
  /-- ingress ports 0 to 35; R10, R251; reset none listed: each at its default -/
  ports : Tab PortSt := []
  /-- time alignment; R219, R254 -/
  tal : Tal := {}
  /-- the pre-processing engine; R240, R259 -/
  ppe : Ppe := {}
  /-- shared-cache slices 0 to 47; R149, R166; reset none listed: each at its default -/
  slices : Tab Slice := []
  /-- the mesh; R16, R164 -/
  mesh : Mesh := {}
  /-- DMC channels 0 to 11; R155, R167; reset none listed: each at its default -/
  dmcs : Tab Dmc := []
  /-- DRAM bytes that are not 0, by DRAM offset; R155, R156; reset nothing listed -/
  dram : Tab Byte := []
  /-- DRAM lines stored poisoned, by line number; R156, R158; reset none -/
  dramPoison : List Nat := []
  /-- DMC_SCRUB_HOURS; 5 bits; R160, R167; reset 4 from settings -/
  scrubHours : Nat := 4
  /-- the safety island; R294, R329 -/
  safe : Safe := {}
  /-- the power and thermal manager; R355, R376 -/
  pwr : Pwr := {}
  /-- the control complex; R291 -/
  ctl : Ctl := {}
  /-- the debug block; R409 -/
  dbg : Dbg := {}
  /-- fuses and flash; R390, R425, R428 -/
  nvm : Nvm := {}
  /-- GLB and BOOT; R437 -/
  boot : Boot := {}
  /-- the PCIe endpoint; R412, R437 -/
  pce : Pce := {}
  /-- Ternlink ports 0 and 1; R421, R437; reset none listed: each at its default -/
  tlks : Tab Tlk := []
  /-- monitors 0 to 63; R439, R440; reset none listed: each at its default -/
  mons : Tab Mon := []
  deriving DecidableEq, Repr

/-- The machine right after power-on reset, as PORST_N rises (R390, R424): every field at the value
its comment gives, memories with nothing listed and the queue of commands empty. -/
def State.reset : State := {}

end Sys2Proof.Machine
end

