-- ==== Sys2Proof/Machine/Flags.lean ====
section
/-! DEFINITION. Flags: the ERR_STAT bits of every page (R75, R169, R210, R253, R258, R260, R293, R332, R379,
R411, R436), the cause codes with the record state each calls for (R300), the severity order of R299 and
the completion status codes (R204, R276). -/

namespace Sys2Proof.Machine

open Sys2Proof

/-! ### ERR_STAT bits -/

/-- The LOCK_WRITE bit of a page; the SHC, DMC and MESH pages have none (R169). -/
def Block.lockWriteBit : Block → Option Nat
  | .glb => some 1 | .boot => some 1 | .mon => some 1
  | .ctl => some 5
  | .safe => some 7
  | .pwr => some 9
  | .dbg => some 7
  | .ing _ => some 8
  | .tal => some 8
  | .ppe => some 6
  | .qmg => some 10
  | .pce => some 4
  | .tlk _ => some 5
  | .core _ => some 10
  | .dmc _ => none
  | .mesh => none
  | .shc _ => none

/-- The INJ_REFUSED bit of a page, where it has one. -/
def Block.injRefusedBit : Block → Option Nat
  | .ing _ => some 9
  | .tal => some 9
  | .ppe => some 7
  | .core _ => some 9
  | _ => none

/-- The ERR_INJ bits of a page that have an injection listed. -/
def Block.injMask : Block → Nat
  | .core _ => 0x193
  | .shc _ => 0x0E
  | .dmc _ => 0x1E
  | .qmg => 0x30
  | .ing _ => 0x0E
  | .tal => 0x01
  | .ppe => 0x02
  | .ctl => 0x01
  | .pwr => 0x101
  | .pce => 0x04
  | .tlk _ => 0x03
  | .glb => 0 | .boot => 0 | .mon => 0 | .safe => 0 | .dbg => 0 | .mesh => 0

namespace Bit
/-! CORE page (R75). -/
def coreAbft : Nat := 0
def coreAcc : Nat := 1
def coreOverrun : Nat := 2
def coreIllegal : Nat := 3
def coreStrand : Nat := 4
def coreStale : Nat := 5
def coreClosed : Nat := 6
def coreEccCorr : Nat := 7
def coreEccUncorr : Nat := 8
/-! SHC and DMC pages (R169). -/
def shcRange : Nat := 0
def shcDataCorr : Nat := 1
def shcDataUncorr : Nat := 2
def shcTagCorr : Nat := 3
def shcTagUncorr : Nat := 4
def dmcPoison : Nat := 0
def dmcEccCorr : Nat := 1
def dmcEccUncorr : Nat := 2
def dmcLinkCorr : Nat := 3
def dmcLinkUncorr : Nat := 4
def dmcTrainFail : Nat := 5
/-! QMG page (R210). -/
def qmgBadHandle : Nat := 0
def qmgXpart : Nat := 1
def qmgStale : Nat := 2
def qmgDouble : Nat := 3
def qmgDescCorr : Nat := 4
def qmgDescUncorr : Nat := 5
def qmgHandleLost : Nat := 6
def qmgBadCommand : Nat := 7
def qmgDoorbell : Nat := 8
def qmgCancelTimeout : Nat := 9
/-! ING page (R253). -/
def ingDrop : Nat := 0
def ingHdrCorr : Nat := 1
def ingHdrUncorr : Nat := 2
def ingCrc : Nat := 3
def ingOverrun : Nat := 4
def ingShape : Nat := 5
def ingStray : Nat := 6
def ingLinkDown : Nat := 7
/-! TAL page (R258). -/
def talOdo : Nat := 0
def talOverspeed : Nat := 1
def talMissing : Nat := 2
def talPartial : Nat := 3
def talLate : Nat := 4
def talFrozen : Nat := 5
def talHoldover : Nat := 6
def talFree : Nat := 7
def talBehind : Nat := 10
/-! PPE page (R260). -/
def ppeDim : Nat := 0
def ppeCorrupt : Nat := 1
def ppeUnsupported : Nat := 2
def ppeTok : Nat := 3
def ppeBox : Nat := 4
def ppeHeld : Nat := 5
/-! CTL page (R293). -/
def ctlRejected : Nat := 0
def ctlOverrun : Nat := 1
def ctlSparesLow : Nat := 2
def ctlAbandoned : Nat := 3
def ctlRecovered : Nat := 4
/-! SAFE page (R332). -/
def safeDangerous : Nat := 0
def safeState : Nat := 1
def safeStreamFault : Nat := 2
def safePermanent : Nat := 3
def safeLatent : Nat := 4
def safeOverflow : Nat := 5
def safeMbox : Nat := 6
/-! PWR page (R379). -/
def pwrSensor : Nat := 0
def pwrCoolant : Nat := 1
def pwrThermtrip : Nat := 2
def pwrLimit : Nat := 3
def pwrOverGrade : Nat := 4
def pwrTjHot : Nat := 5
def pwrGuard : Nat := 6
def pwrInfeasible : Nat := 7
def pwrRegFail : Nat := 8
/-! DBG page (R411). -/
def dbgOrphan : Nat := 0
def dbgPlane : Nat := 1
def dbgFatal : Nat := 2
def dbgHang : Nat := 3
def dbgFwFail : Nat := 4
def dbgTruncated : Nat := 5
def dbgNoticeLost : Nat := 6
/-! GLB, BOOT, MON, PCE and TLK pages (R436). -/
def block : Nat := 0
def pceDegraded : Nat := 0
def pceLinkDown : Nat := 1
def pceCorr : Nat := 2
def pceUncorr : Nat := 3
def tlkReplay : Nat := 0
def tlkSpared : Nat := 1
def tlkWidth : Nat := 2
def tlkNoVersion : Nat := 3
def tlkPartNack : Nat := 4
end Bit

/-! ### Cause codes (R300) -/

namespace Cause
def abft : Nat := 0x01
def accCheck : Nat := 0x02
def strandFault : Nat := 0x03
def memPoison : Nat := 0x04
def staleHandle : Nat := 0x05
def closedWindow : Nat := 0x06
def e2eCheck : Nat := 0x07
def nonfiniteScale : Nat := 0x08
def faultStop : Nat := 0x09
def queueFault : Nat := 0x0A
def unitOverrun : Nat := 0x0B
def outvoted : Nat := 0x0C
def voteNoMajority : Nat := 0x10
def stageDeadline : Nat := 0x11
def streamFault : Nat := 0x12
def clockFault : Nat := 0x13
def supplyFault : Nat := 0x14
def powerLimit : Nat := 0x15
def safeState : Nat := 0x16
def sparesLow : Nat := 0x17
def ctrlCoreLost : Nat := 0x18
def placementCheck : Nat := 0x19
def regulatorFail : Nat := 0x1A
def sensorExcluded : Nat := 0x1B
def latent : Nat := 0x1C
def timebase : Nat := 0x1D
def ingressOverrun : Nat := 0x20
def ingressIntegrity : Nat := 0x21
def shape : Nat := 0x22
def missingData : Nat := 0x23
def missingLine : Nat := 0x24
def odometer : Nat := 0x25
def overspeed : Nat := 0x26
def missingMember : Nat := 0x27
def lateMember : Nat := 0x28
def frozenFrame : Nat := 0x29
def boxOverflow : Nat := 0x2A
def decodeReject : Nat := 0x2B
def tokenOverflow : Nat := 0x2C
def cancelled : Nat := 0x30
end Cause

/-- An own flag: a cause, with the state it calls for where that is not the one R300 lists for the cause
(ABFT and ACC_CHECK after a clean re-execution, a missing mandatory member).  In a list of flags a cause is
written as `cause`, as `cause + 0x100` for CORRECTED and as `cause + 0x200` for INVALID by mandate. -/
def Cause.corrected (c : Nat) : Nat := c + 0x100
/-- MISSING_MEMBER of a mandatory member (R232). -/
def Cause.mandatoryMissing : Nat := Cause.missingMember + 0x200

/-- The cause code of a flag. -/
def flagCause (f : Nat) : Nat := f % 0x100

/-- The record state that a flag calls for (R300). -/
def flagState (f : Nat) : RecState :=
  let c := flagCause f
  if c = 0 then .valid
  else if f / 0x100 = 1 then .corrected
  else if f / 0x100 = 2 then .invalid
  else if [Cause.powerLimit, Cause.odometer, Cause.overspeed, Cause.missingMember, Cause.boxOverflow].contains c
    then .degraded
  else if 0x17 ≤ c ∧ c ≤ 0x1D then .valid
  else .invalid

/-- Severity of a record state (R299, R420). -/
def RecState.rank : RecState → Nat
  | .valid => 0
  | .corrected => 1
  | .degraded => 2
  | .invalid => 3

/-- The more severe of two states. -/
def RecState.worse (a b : RecState) : RecState := if a.rank < b.rank then b else a

/-- The most severe state that a list of flags calls for. -/
def worstState (fs : List Nat) : RecState := fs.foldl (fun st f => st.worse (flagState f)) .valid

/-- The lowest cause code among the flags that call for state `st`; 0 when none does. -/
def lowestCause (fs : List Nat) (st : RecState) : Nat :=
  match (fs.filter (fun f => flagState f == st)).map flagCause with
  | [] => 0
  | c :: cs => cs.foldl min c

/-- State and cause of a record from its own flags and the invalidations in force (R299). -/
def recordVerdict (own invs : List Nat) : RecState × Nat :=
  let o := worstState own
  if o = .invalid then (.invalid, lowestCause own .invalid)
  else
    let all := own ++ invs
    let st := worstState all
    if st = .valid then (.valid, 0) else (st, lowestCause all st)

/-! ### Completion status codes (R204, R276) -/

namespace Status
def ok : Nat := 0x0000
def cancelled : Nat := 0x0001
def noEpoch : Nat := 0x0002
def badCommand : Nat := 0x0003
def badArgs : Nat := 0x0004
def rejected : Nat := 0x0005
def unsupportedFormat : Nat := 0x0006
def noPlacement : Nat := 0x0007
def deadline : Nat := 0x0008
def notPermitted : Nat := 0x0009
def busy : Nat := 0x000A
def held : Nat := 0x000B
end Status

/-! ### Safe-state causes (R317) and fatal codes (R389) -/

namespace SS
def lockstep : Nat := 0x01
def hbKick : Nat := 0x02
def retention : Nat := 0x03
def saferef : Nat := 0x04
def clock : Nat := 0x05
def supply : Nat := 0x06
def thermtrip : Nat := 0x07
def coolant : Nat := 0x08
def fatal : Nat := 0x09
def ctrl : Nat := 0x0A
def host : Nat := 0x0B
end SS

namespace Fatal
def shcTag : Nat := 1
def cancelTimeout : Nat := 2
def qmgTable : Nat := 3
def meshPlanes : Nat := 4
end Fatal

end Sys2Proof.Machine
end

