-- ==== Sys2Proof/Machine/Ops.lean ====
section
/-! DEFINITION. The named operations over the state that every command shares: tables and memories in
canonical form, one accessor and one update per unit, errors and interrupts (R432, R435), fault reports on
their way to SAFE (R28, R380), completions (R204), notices (R406, R407), MSI-X (R416), the safe state
(R317), fatal errors (R389) and free values. -/

namespace Sys2Proof.Machine

open Sys2Proof Sys2Proof.Machine.Bits

/-! ### Tables -/

/-- The entry of a key. -/
def Tab.find {α : Type} : Tab α → Nat → Option α
  | [], _ => none
  | (k', v) :: t, k => if k = k' then some v else Tab.find t k

/-- The value of a key, `d` where none is listed. -/
def Tab.get {α : Type} (t : Tab α) (d : α) (k : Nat) : α := (Tab.find t k).getD d

/-- Put an entry, keys rising. -/
def Tab.insert {α : Type} : Tab α → Nat → α → Tab α
  | [], k, v => [(k, v)]
  | (k', v') :: t, k, v =>
    if k < k' then (k, v) :: (k', v') :: t
    else if k = k' then (k, v) :: t
    else (k', v') :: Tab.insert t k v

/-- Remove what is listed under a key. -/
def Tab.erase {α : Type} : Tab α → Nat → Tab α
  | [], _ => []
  | (k', v) :: t, k => if k = k' then Tab.erase t k else (k', v) :: Tab.erase t k

/-- Write a cell of a memory whose unlisted cells hold `d`: writing `d` removes the entry.
DESIGN CHOICE: log entry 8. -/
def Tab.write {α : Type} [DecidableEq α] (t : Tab α) (d : α) (k : Nat) (v : α) : Tab α :=
  if v = d then Tab.erase t k else Tab.insert t k v

/-- Change the entry of a key where there is one. -/
def Tab.modify {α : Type} (t : Tab α) (k : Nat) (f : α → α) : Tab α :=
  match Tab.find t k with
  | none => t
  | some v => Tab.insert t k (f v)

/-- The canonical form of a memory: keys strictly rising and no entry equal to the default. -/
def Tab.wf {α : Type} [DecidableEq α] (d : α) : Tab α → Bool
  | [] => true
  | [(_, v)] => decide (v ≠ d)
  | (k, v) :: (k', v') :: t => decide (v ≠ d) && decide (k < k') && Tab.wf d ((k', v') :: t)

/-- Add a member to a list that holds each member once. -/
def addOnce (xs : List Nat) (x : Nat) : List Nat := if xs.contains x then xs else xs ++ [x]

/-- Remove a member. -/
def dropAll (xs : List Nat) (x : Nat) : List Nat := xs.filter (· != x)

/-! ### Memories -/

/-- The canonical form of the scratchpads and of DRAM. -/
def memoryWf (s : State) : Bool :=
  Tab.wf 0 s.dram && s.cores.all (fun c => Tab.wf 0 c.2.sp)

/-- One byte of DRAM; a byte that nothing has written reads 0 (log entry 8). -/
def State.dramByte (s : State) (a : Nat) : Byte := Tab.get s.dram 0 a

/-- Write bytes of DRAM from offset `a` up. -/
def writeDram : Tab Byte → Nat → List Byte → Tab Byte
  | m, _, [] => m
  | m, a, b :: bs => writeDram (Tab.write m 0 a b) (a + 1) bs

/-- `n` bytes of DRAM from offset `a`. -/
def State.readDram (s : State) (a n : Nat) : List Byte := (List.range n).map (fun i => s.dramByte (a + i))

/-- Store bytes in DRAM. -/
def State.storeDram (s : State) (a : Nat) (bs : List Byte) : State := { s with dram := writeDram s.dram a bs }

/-! ### One accessor and one update per unit -/

/-- Core `n`. -/
def State.core (s : State) (n : Nat) : CoreSt := Tab.get s.cores {} n
/-- Replace core `n`. -/
def State.setCore (s : State) (n : Nat) (c : CoreSt) : State := { s with cores := Tab.insert s.cores n c }
/-- Change core `n`. -/
def State.modCore (s : State) (n : Nat) (f : CoreSt → CoreSt) : State := s.setCore n (f (s.core n))

/-- Word `w` of core `n`'s scratchpad (R124).
DESIGN CHOICE: log entry 8. -/
def State.spWord (s : State) (n w : Nat) : W32 := Tab.get (s.core n).sp 0 w
/-- Write a scratchpad word; a write ends the poisoning of the word (R139). -/
def CoreSt.writeWord (c : CoreSt) (w : Nat) (v : W32) : CoreSt :=
  { c with sp := Tab.write c.sp 0 w v, spPoison := dropAll c.spPoison w }
/-- The word that a poisoned word reads as (R139). -/
def poisonWord : W32 := 0xBAD0BAD0
/-- Store a word poisoned (R140). -/
def CoreSt.poisonAt (c : CoreSt) (w : Nat) : CoreSt :=
  { c with sp := Tab.write c.sp 0 w poisonWord, spPoison := addOnce c.spPoison w }

/-- A word lands with its poison tag (R139). -/
def CoreSt.putWord (c : CoreSt) (w : Nat) (v : W32) (poisoned : Bool) : CoreSt :=
  if poisoned then c.poisonAt w else c.writeWord w v

/-- Context `c`. -/
def State.ctx (s : State) (c : Nat) : Ctx := Tab.get s.ctxs {} c
/-- Replace context `c`. -/
def State.setCtx (s : State) (c : Nat) (x : Ctx) : State := { s with ctxs := Tab.insert s.ctxs c x }
/-- Change context `c`. -/
def State.modCtx (s : State) (c : Nat) (f : Ctx → Ctx) : State := s.setCtx c (f (s.ctx c))

/-- Partition `p`, when it exists. -/
def State.part? (s : State) (p : Nat) : Option Partition := Tab.find s.parts p
/-- Safety class of partition `p`; NONE when there is no such partition. -/
def State.classOf (s : State) (p : Nat) : SafetyClass := ((s.part? p).map (·.cls)).getD .none
/-- Change partition `p` where it exists. -/
def State.modPart (s : State) (p : Nat) (f : Partition → Partition) : State :=
  { s with parts := Tab.modify s.parts p f }

/-- Stream `i`, when it is declared. -/
def State.stream? (s : State) (i : Nat) : Option Stream := Tab.find s.streams i
/-- Replace stream `i`. -/
def State.setStream (s : State) (i : Nat) (x : Stream) : State := { s with streams := Tab.insert s.streams i x }
/-- Change stream `i` where it is declared. -/
def State.modStream (s : State) (i : Nat) (f : Stream → Stream) : State :=
  { s with streams := Tab.modify s.streams i f }

/-- Header of page `p`. -/
def State.hdr (s : State) (b : Block) : Header := Tab.get s.pages {} b.page
/-- Change the header of a block's page. -/
def State.modHdr (s : State) (b : Block) (f : Header → Header) : State :=
  { s with pages := Tab.insert s.pages b.page (f (s.hdr b)) }

/-- Ingress port `p`. -/
def State.port (s : State) (p : Nat) : PortSt := Tab.get s.ports {} p
/-- Change ingress port `p`. -/
def State.modPort (s : State) (p : Nat) (f : PortSt → PortSt) : State :=
  { s with ports := Tab.insert s.ports p (f (s.port p)) }

/-- Slice `k`. -/
def State.slice (s : State) (k : Nat) : Slice := Tab.get s.slices {} k
/-- Change slice `k`. -/
def State.modSlice (s : State) (k : Nat) (f : Slice → Slice) : State :=
  { s with slices := Tab.insert s.slices k (f (s.slice k)) }

/-- DMC channel `c`. -/
def State.dmc (s : State) (c : Nat) : Dmc := Tab.get s.dmcs {} c
/-- Change DMC channel `c`. -/
def State.modDmc (s : State) (c : Nat) (f : Dmc → Dmc) : State :=
  { s with dmcs := Tab.insert s.dmcs c (f (s.dmc c)) }

/-- Quadrant `q` of the power manager. -/
def State.quad (s : State) (q : Nat) : Quad := Tab.get s.pwr.quads {} q
/-- Change quadrant `q`. -/
def State.modQuad (s : State) (q : Nat) (f : Quad → Quad) : State :=
  { s with pwr := { s.pwr with quads := Tab.insert s.pwr.quads q (f (s.quad q)) } }

/-- Ternlink port `t`. -/
def State.tlk (s : State) (t : Nat) : Tlk := Tab.get s.tlks {} t
/-- Change Ternlink port `t`. -/
def State.modTlk (s : State) (t : Nat) (f : Tlk → Tlk) : State :=
  { s with tlks := Tab.insert s.tlks t (f (s.tlk t)) }

/-- Monitor `m`. -/
def State.mon (s : State) (m : Nat) : Mon := Tab.get s.mons {} m
/-- Change monitor `m`. -/
def State.modMon (s : State) (m : Nat) (f : Mon → Mon) : State :=
  { s with mons := Tab.insert s.mons m (f (s.mon m)) }

/-- Queue `q`. -/
def State.queue (s : State) (q : Nat) : Queue := Tab.get s.qmg.queues {} q
/-- Change the queue manager. -/
def State.modQmg (s : State) (f : Qmg → Qmg) : State := { s with qmg := f s.qmg }
/-- Replace queue `q`. -/
def State.setQueue (s : State) (q : Nat) (x : Queue) : State :=
  s.modQmg (fun m => { m with queues := Tab.insert m.queues q x })
/-- Change queue `q`. -/
def State.modQueue (s : State) (q : Nat) (f : Queue → Queue) : State := s.setQueue q (f (s.queue q))

/-- Master port of a camera pair: lane 2k (R17). -/
def pairPort (k : Nat) : Nat := 12 + 2 * k

/-- Vote unit `v`. -/
def State.vote (s : State) (v : Nat) : VoteUnit := Tab.get s.qmg.votes {} v
/-- Change vote unit `v`. -/
def State.modVote (s : State) (v : Nat) (f : VoteUnit → VoteUnit) : State :=
  s.modQmg (fun m => { m with votes := Tab.insert m.votes v (f (s.vote v)) })

/-- Change SAFE. -/
def State.modSafe (s : State) (f : Safe → Safe) : State := { s with safe := f s.safe }
/-- Change the control complex. -/
def State.modCtl (s : State) (f : Ctl → Ctl) : State := { s with ctl := f s.ctl }
/-- Change the debug block. -/
def State.modDbg (s : State) (f : Dbg → Dbg) : State := { s with dbg := f s.dbg }
/-- Change time alignment. -/
def State.modTal (s : State) (f : Tal → Tal) : State := { s with tal := f s.tal }
/-- Change the pre-processing engine. -/
def State.modPpe (s : State) (f : Ppe → Ppe) : State := { s with ppe := f s.ppe }
/-- Change the power manager. -/
def State.modPwr (s : State) (f : Pwr → Pwr) : State := { s with pwr := f s.pwr }
/-- Change GLB and BOOT. -/
def State.modBoot (s : State) (f : Boot → Boot) : State := { s with boot := f s.boot }
/-- Change the mesh. -/
def State.modMesh (s : State) (f : Mesh → Mesh) : State := { s with mesh := f s.mesh }

/-- Add to what has left the device.
DESIGN CHOICE: log entry 6. -/
def State.emit (s : State) (o : Out) : State := { s with outs := s.outs ++ [o] }

/-- Every stream of a predicate, by ID. -/
def State.streamIds (s : State) (p : Stream → Bool) : List Nat :=
  (s.streams.filter (fun e => p e.2)).map (·.1)

/-- Apply an operation for each member of a list, in order. -/
def forEach {α : Type} (xs : List α) (f : α → State → State) (s : State) : State :=
  xs.foldl (fun t x => f x t) s

/-! ### Free values -/

/-- Draw a fresh 32-bit value that the manual does not state (log entry 5). -/
def State.drawWord (s : State) : W32 × State := (Config.freeWord s.free, { s with free := s.free + 1 })

/-! ### Safety classes and armed streams -/

/-- SIMPLEX and TRIPLEX are the safety classes (R298). -/
def isSafety : SafetyClass → Bool
  | .none => false
  | .simplex => true
  | .triplex => true

/-- Some SIMPLEX or TRIPLEX stream is armed. -/
def State.safetyArmed (s : State) : Bool :=
  s.streams.any (fun e => e.2.armed && isSafety e.2.cls)

/-! ### MSI-X (R416) -/

/-- Key of a vector in the pending and mask lists: function × 1,024 + vector. -/
def vecKey (fn vec : Nat) : Nat := fn * 1024 + vec

/-- Raise a vector: a masked one sets its pending bit. -/
def sendMsix (fn vec : Nat) (s : State) : State :=
  if s.pce.masked.contains (vecKey fn vec) then
    { s with pce := { s.pce with pendingVecs := addOnce s.pce.pendingVecs (vecKey fn vec) } }
  else s.emit (.msix fn vec)

/-! ### Errors and interrupts (R432, R435) -/

/-- Set INT_STAT bits: a bit that rises while its INT_EN bit and INT_VEC.VALID are 1 sends one message. -/
def raiseInt (b : Block) (bits : BitVec 2) (s : State) : State :=
  let h := s.hdr b
  let rises := bits &&& ~~~h.intStat &&& h.intEn
  let s1 := s.modHdr b (fun h => { h with intStat := h.intStat ||| bits })
  if h.vecValid && rises != 0 then sendMsix 0 h.vec.toNat s1 else s1

/-- ERR_CTX: VALID, partition and context (R432). -/
def errCtxWord : Option (Nat × Nat) → W32
  | none => 0
  | some (ctx, part) => BitVec.ofNat 32 (2 ^ 31 + part % 16 * 2 ^ 16 + ctx % 4096)

/-- A detection of the condition of ERR_STAT bit `bit`: the bit sets, the error is captured while every
bit was 0, and INT_STAT.ERR sets when the condition's ERR_EN bit is 1 (R435). -/
def raiseAt (b : Block) (bit : Nat) (addr : Nat) (who : Option (Nat × Nat)) (s : State) : State :=
  let h := s.hdr b
  let m : W32 := BitVec.ofNat 32 (2 ^ bit)
  let s1 := s.modHdr b (fun h =>
    if h.errStat = 0 then
      { h with errStat := m, errAddr := BitVec.ofNat 64 addr, errCtx := errCtxWord who }
    else { h with errStat := h.errStat ||| m })
  if h.errEn &&& m != 0 then raiseInt b 1 s1 else s1

/-- A detection with no address and no context. -/
def raise (b : Block) (bit : Nat) (s : State) : State := raiseAt b bit 0 none s

/-- Consume an armed injection: true and the bit cleared when it was armed (R432). -/
def takeInj (b : Block) (bit : Nat) (s : State) : Bool × State :=
  let m : W32 := BitVec.ofNat 32 (2 ^ bit)
  if (s.hdr b).inj &&& m != 0 then
    (true, s.modHdr b (fun h => { h with inj := h.inj &&& ~~~m }))
  else (false, s)

/-- A transaction layer packet arrives; an armed injection makes it a corrected error (R436). -/
def receiveTlp (s : State) : State :=
  let (hit, s1) := takeInj .pce Bit.pceCorr s
  if hit then raise .pce Bit.pceCorr s1 else s1

/-! ### Fault reports and invalidations on their way (R28, R302, R380) -/

/-- Send SAFE an error event with its fault record, stamped with the timebase `t` of its detection (R301). -/
def reportAt (t : Nat) (e : FaultEv) (s : State) : State :=
  s.modSafe (fun f => { f with inbox := f.inbox ++ [{ e with time := t }] })

/-- Send SAFE an error event that is detected now. -/
def report (e : FaultEv) (s : State) : State := reportAt s.tal.time e s

/-- A condition of a page that names no cause code; that of a core's page goes to SAFE as every error condition of a core does (R75).
DESIGN CHOICE: log entry 91. -/
def raiseTold (b : Block) (bit : Nat) (s : State) : State :=
  match b with
  | .core n => report { unit := n, cause := 0, bit := bit } (raise b bit s)
  | _ => raise b bit s

/-- Record a discarded host write in a page's LOCK_WRITE bit, where the page has one (R9). -/
def lockWrite (b : Block) (s : State) : State :=
  match b.lockWriteBit with
  | none => s
  | some bit => raiseTold b bit s

/-- Send the QMG a record invalidation (R302).
DESIGN CHOICE: log entry 87. -/
def sendInval (i : Inval) (s : State) : State :=
  s.modSafe (fun f => { f with invOut := f.invOut ++ [i] })

/-- A fault event that a unit of work's core sends: context, partition, slot and item of the unit (R380). -/
def unitEv (n : Nat) (u : UnitInst) (cause bit : Nat) : FaultEv :=
  { unit := n, cause := cause, ctx := u.ctx, part := u.part, slot := u.slot, seq := u.seq,
    stream := some u.stream, copy := some u.copy, bit := bit }

/-- A fault event of core `n`, from its running unit or with the "none" values (R380). -/
def coreEv (s : State) (n cause bit : Nat) : FaultEv :=
  match (s.core n).run with
  | some u => unitEv n u cause bit
  | none => { unit := n, cause := cause, bit := bit }

/-! ### Completions (R204) -/

/-- The 16 bytes of a completion entry (R204). -/
def Completion.bytes (e : Completion) : List Byte :=
  toBytes 4 e.tag.toNat ++ toBytes 2 e.status ++ toBytes 2 e.epoch ++ toBytes 4 e.detail ++ toBytes 1 e.opcode ++
    toBytes 1 (if e.phase then 1 else 0) ++ toBytes 2 0

/-- The address of the next slot of a context's completion ring (R204). -/
def Ctx.cplSlot (x : Ctx) : Nat := x.cplBase.toNat + 16 * (x.cplTail % 2 ^ (x.cplLog2 + 3))

/-- Write one completion into the ring of a context, with its phase, and raise its vector. -/
def writeCompletion (c : Nat) (e : Completion) (irq : Bool) (s : State) : State :=
  let x := s.ctx c
  let phase := (x.cplTail / 2 ^ (x.cplLog2 + 3)) % 2 == 0
  let s1 := (s.modCtx c (fun x => { x with cplTail := (x.cplTail + 1) % 2 ^ 19, cplPushed := (x.cplPushed + 1) % 2 ^ 32 })).emit
    (.completion c x.cplSlot ({ e with phase := phase } : Completion).bytes)
  if irq then sendMsix x.fn x.vector s1 else s1

/-- The completion ring of a context has space. -/
def Ctx.cplSpace (x : Ctx) : Bool :=
  !x.cplFault && (x.cplTail + 2 ^ 19 - x.cplHead) % 2 ^ 19 < 2 ^ (x.cplLog2 + 3)

/-- Post a completion: written when the ring has space and none is held, held otherwise (R204). -/
def postCompletion (c : Nat) (e : Completion) (irq : Bool) (s : State) : State :=
  let x := s.ctx c
  if x.cplHeld.isEmpty && x.cplSpace then writeCompletion c e irq s
  else s.modCtx c (fun x => { x with cplHeld := x.cplHeld ++ [(e, irq)] })

/-- Write held completions while the ring has space; at most `fuel` of them. -/
def drainHeld : (fuel : Nat) → (c : Nat) → State → State
  | 0, _, s => s
  | fuel + 1, c, s =>
    match (s.ctx c).cplHeld with
    | [] => s
    | (e, irq) :: rest =>
      if (s.ctx c).cplSpace then
        drainHeld fuel c (writeCompletion c e irq (s.modCtx c (fun x => { x with cplHeld := rest })))
      else s

/-- A completion entry with PHASE still open. -/
def entry (cmd : Cmd) (op status epoch detail : Nat) : Completion :=
  { tag := cmd.tag, status := status, epoch := epoch, detail := detail, opcode := op, phase := true }

/-- Status codes that set CTL ERR_STAT.CMD_REJECTED: REJECTED, UNSUPPORTED_FORMAT and NO_PLACEMENT (R293). -/
def rejects (status : Nat) : Bool := 5 ≤ status && status ≤ 7

/-- Complete a command of a context that is not among the running ones. -/
def finish (cmd : Cmd) (op status epoch detail : Nat) (s : State) : State :=
  postCompletion cmd.ctx.val (entry cmd op status epoch detail) cmd.irq
    (if rejects status then raise .ctl Bit.ctlRejected s else s)

/-- Complete a command whose DETAIL no rule states for this status: a free value (R204, R274; log entry 5).
DESIGN CHOICE: log entry 13. -/
def finishOpen (cmd : Cmd) (op status epoch : Nat) (s : State) : State :=
  finish cmd op status epoch (s.drawWord).1.toNat (s.drawWord).2

/-- Epoch value of a completion that names none (R204). -/
def noEpoch : Nat := 0xFFFF

/-- A device that takes commands: GLB_STAT.READY, the queues not held, and the context's queues armed (R209, R395,
R438).
DESIGN CHOICE: log entry 3. -/
def State.accepts (s : State) (cmd : Cmd) : Bool :=
  s.boot.ready && !s.qmg.frozen && (s.ctx cmd.ctx.val).en && ((s.ctx cmd.ctx.val).part.bind s.part?).isSome

/-- The partition of a command's context; 0 when it is unbound. -/
def State.partOf (s : State) (c : Nat) : Nat := ((s.ctx c).part).getD 0

/-- The physical function owns the command's context (R278). -/
def State.isPF (s : State) (cmd : Cmd) : Bool := (s.ctx cmd.ctx.val).fn == 0

/-! ### Notices (R406, R407) -/

/-- Depth of the notice ring. -/
def Dbg.noticeDepth (d : Dbg) : Nat := 2 ^ (d.noticeLog2 + 3)
/-- The notice ring has space. -/
def Dbg.noticeSpace (d : Dbg) : Bool :=
  (d.noticeTail + 2 ^ 19 - d.noticeHead) % 2 ^ 19 < d.noticeDepth

/-- Write a notice into the ring and raise the vector of the DBG page (INT_STAT.NOTICE). -/
def writeNotice (kind word : Nat) (fault : Option FaultRec) (s : State) : State :=
  let d := s.dbg
  let n : Notice :=
    { kind := kind, phase := (d.noticeTail / d.noticeDepth) % 2 == 0, seq := d.noticeSeq,
      time := s.tal.time, fwVer := s.ctl.fwVer, word := word, fault := fault }
  let s1 := (s.modDbg (fun d =>
    { d with noticeTail := (d.noticeTail + 1) % 2 ^ 19, noticeSeq := (d.noticeSeq + 1) % 2 ^ 32 })).emit
      (.notice n)
  raiseInt .dbg 2 s1

/-- Post a notice; with the ring full it is dropped and counted, and without a ring nothing is posted
(R406).
DESIGN CHOICE: log entry 38. -/
def postNotice (kind word : Nat) (fault : Option FaultRec) (s : State) : State :=
  if !s.dbg.noticeEn then s
  else if s.dbg.noticeSpace then writeNotice kind word fault s
  else
    raise .dbg Bit.dbgNoticeLost
      (s.modDbg (fun d => { d with noticeLost := sat32 (d.noticeLost + 1), noticeOwed := d.noticeOwed + 1 }))

/-! ### The safe state (R317) and fatal errors (R389) -/

/-- SAFE state as SAFE_STAT shows it: 0 BOOT, 1 RUN, 2 SAFE_STATE (R330). -/
def Safe.stateCode (f : Safe) : Nat :=
  if f.ssCause ≠ 0 then 2 else match f.mode with
    | .boot => 0
    | .run => 1

/-- The device is in the safe state. -/
def State.inSafe (s : State) : Bool := s.safe.ssCause != 0

/-- The causes after which both pairs are stopped (R317).
DESIGN CHOICE: log entry 35. -/
def stopsPairs (cause : Nat) : Bool := cause == SS.lockstep || cause == SS.hbKick || cause == SS.saferef

/-- Both pairs of SAFE still run: no cause has stopped them and, in service, neither has lost its lockstep (R295).
DESIGN CHOICE: log entry 35. -/
def State.safeRuns (s : State) : Bool :=
  !stopsPairs s.safe.ssCause && (s.safe.mode == .boot || (s.safe.pair0Ok && s.safe.pair1Ok))

/-- The causes for which firmware writes a core sample (R395). -/
def sampleCause (cause : Nat) : Bool :=
  !(cause == SS.thermtrip || cause == SS.coolant || cause == SS.ctrl)

/-- CTL_CORES_UP (R291). -/
def Ctl.coresUp (c : Ctl) : Nat :=
  (List.range 8).foldl (fun a i => if c.down.contains i then a else a + 2 ^ i) 0

/-- The header of a sample that starts now (R397). -/
def newSample (cause : Nat) (s : State) : Sample :=
  { ssCause := cause, fatal := s.dbg.fatal, fwVer := s.ctl.fwVer, coresUp := s.ctl.coresUp, entry := s.tal.time,
    placeEpoch := s.ctl.placeEpoch }

/-- Start of a core sample on entry into the safe state (R395, R396): when a region is declared and free, no
new item enters, the queues are held and the header is fixed. -/
def beginSample (cause : Nat) (s : State) : State :=
  if sampleCause cause && s.dbg.csSize != 0 && s.dbg.csState == .none then
    { s with
      dbg := { s.dbg with
        csState := .writing
        sample := some (newSample cause s) }
      boot := { s.boot with ingressClosed := true }
      qmg := { s.qmg with frozen := true } }
  else s

/-- Enter the safe state for a cause.  The first cause stands; the pins drop; after a cause that does not
stop the pairs SAFE logs a fault record and posts the notice (R317, R318). -/
def enterSafe (cause : Nat) (s : State) : State :=
  if s.inSafe then s
  else
    let s1 := s.modSafe (fun f =>
      { f with ssCause := cause, okP := false, okN := false, faultN := false, driven := true })
    let s2 := { s1 with boot := { s1.boot with fatalAt := s1.clock } }
    let s3 := raise .safe Bit.safeState s2
    let s4 := if stopsPairs cause then s3 else
      report { unit := 0xC7, cause := Cause.safeState, cls := 2, bit := cause } s3
    beginSample cause (postNotice 0x03 cause none s4)

/-- A fatal device error (R389): DBG_FATAL keeps the first code and SAFE enters the safe state. -/
def fatalError (code : Nat) (s : State) : State :=
  let s1 := raise .dbg Bit.dbgFatal
    (s.modDbg (fun d => if d.fatal = 0 then { d with fatal := code } else d))
  enterSafe SS.fatal s1

/-! ### Cores, quadrants and placements -/

/-- The slots of a stream's placement that core `n` hosts. -/
def Stream.hosts (st : Stream) (n : Nat) : Bool :=
  st.place.slots.any (fun p => p.cores.any (fun c => c.val == n))

/-- Every core that a stream's placement names. -/
def Stream.cores (st : Stream) : List Nat :=
  (st.place.slots.map (fun p => p.cores.map (·.val))).flatten

/-- Streams that host a stage on core `n`. -/
def State.streamsOn (s : State) (n : Nat) : List Nat := s.streamIds (fun st => st.hosts n)

/-- Copies of a TRIPLEX stream that host a stage on core `n`. -/
def Stream.copiesOn (st : Stream) (n : Nat) : List Nat :=
  (st.place.slots.filter (fun p => p.cores.any (fun c => c.val == n))).map (·.copy)

/-- The streams of SIMPLEX or TRIPLEX class that use core `n`. -/
def State.safetyOn (s : State) (n : Nat) : Bool :=
  s.streams.any (fun e => isSafety e.2.cls && e.2.hosts n)

/-- The stage declaration of a slot of a stream. -/
def State.stageOf (s : State) (st : Stream) (stage : Nat) : Option StageDecl :=
  (Tab.find s.images st.image).bind (fun im => im.decl.stages[stage]?)

/-- Core numbers of the device. -/
def allCores : List Nat := List.range 192

/-- Cores of the spare pool (R69). -/
def State.spares (s : State) : List Nat := allCores.filter (fun n => (s.core n).pool == .spare)

/-- Cores of quadrant `q`. -/
def quadCores (q : Nat) : List Nat := (List.range 48).map (· + 48 * q)

/-- A stream whose record invalidation `i` names it and covers copy-independent records (R302). -/
def Inval.names (i : Inval) (id : Nat) (cls : SafetyClass) : Bool :=
  match i.target with
  | .stream k => k == id
  | .safety => isSafety cls

end Sys2Proof.Machine
end

