-- ==== Sys2Proof/Machine/Clock.lean ====
section
/-! DEFINITION. The passage of time: what the block does when no command waits (R126, R219; log entry 4). -/

namespace Sys2Proof.Machine

open Sys2Proof

/-- Drain the write-port buffer of a core into its banks, oldest entry first (R126, R127). -/
def CoreSt.drain (c : CoreSt) : CoreSt :=
  { c.wbuf.foldl (fun c e => c.putWord e.1 e.2.1 e.2.2) c with wbuf := [] }

/-- Drain the write-port buffers of every core. -/
def drainAll (s : State) : State := { s with cores := s.cores.map (fun e => (e.1, e.2.drain)) }

/-- One CK_TIME cycle of the timebase: 4 ns plus the rate correction (R219). -/
def Tal.cycle (t : Tal) : Tal :=
  let total : Int := (t.frac : Int) + 4 * 2 ^ 32 + max t.rate (-(2 ^ 32))
  { t with time := (t.time + (total / 2 ^ 32).toNat) % 2 ^ 64, frac := (total % 2 ^ 32).toNat }

/-- One CK_TIME cycle: 4 ns pass, the timebase advances and the write-port buffers drain.
DESIGN CHOICE: log entry 4. -/
def tick (s : State) : State := drainAll { s with clock := s.clock + 4, tal := s.tal.cycle }

end Sys2Proof.Machine
end

