-- ==== Sys2Proof/Machine/Fp.lean ====
section
/-! DEFINITION. Number formats and their arithmetic (R102 to R110, R114 to R120).

A finite value is an exact dyadic number: sign, magnitude `m`, exponent `e`, value ± m × 2^e.  Every
operation computes exactly and rounds once at the end, to nearest even. -/

namespace Sys2Proof.Machine.Fp

open Sys2Proof

/-- A decoded floating-point value. -/
inductive FVal where
  | nan
  | inf (neg : Bool)
  | fin (neg : Bool) (m : Nat) (e : Int)
  deriving DecidableEq, Repr

/-- The parameters of a floating-point format (R102): exponent bits, mantissa bits, bias, and whether it
has infinities (E4M3 has none, and only one NaN magnitude). -/
structure Spec where
  ebits : Nat
  mbits : Nat
  bias : Nat
  hasInf : Bool
  deriving DecidableEq, Repr

/-- FP32: IEEE 754 binary32 (R102). -/
def f32 : Spec := ⟨8, 23, 127, true⟩
/-- BF16 (R102). -/
def bf16 : Spec := ⟨8, 7, 127, true⟩
/-- FP8 E5M2 (R102). -/
def e5m2 : Spec := ⟨5, 2, 15, true⟩
/-- FP8 E4M3: NaN is S.1111.111, no infinities (R102). -/
def e4m3 : Spec := ⟨4, 3, 7, false⟩

/-- Canonical NaN of a format (R103). -/
def Spec.nanCode (s : Spec) : Nat :=
  if s.hasInf then (2 ^ s.ebits - 1) * 2 ^ s.mbits + 2 ^ (s.mbits - 1)
  else 2 ^ (s.ebits + s.mbits) - 1

/-- Code of the infinity of a sign, where the format has one. -/
def Spec.infCode (s : Spec) (neg : Bool) : Nat :=
  (if neg then 2 ^ (s.ebits + s.mbits) else 0) + (2 ^ s.ebits - 1) * 2 ^ s.mbits

/-- Largest finite magnitude code: the code below the infinity, or below the NaN in E4M3 (R102). -/
def Spec.maxCode (s : Spec) : Nat :=
  if s.hasInf then (2 ^ s.ebits - 1) * 2 ^ s.mbits - 1 else 2 ^ (s.ebits + s.mbits) - 2

/-- The value that a code stands for (R102, R104: subnormals are exact, nothing is flushed). -/
def Spec.decode (s : Spec) (code : Nat) : FVal :=
  let neg := bitField code (s.ebits + s.mbits) 1 = 1
  let ex := bitField code s.mbits s.ebits
  let ma := bitField code 0 s.mbits
  if s.hasInf && ex == 2 ^ s.ebits - 1 then
    if ma = 0 then .inf neg else .nan
  else if !s.hasInf && ex == 2 ^ s.ebits - 1 && ma == 2 ^ s.mbits - 1 then .nan
  else if ex = 0 then .fin neg ma (1 - (s.bias : Int) - s.mbits)
  else .fin neg (ma + 2 ^ s.mbits) ((ex : Int) - s.bias - s.mbits)

/-- `m / 2^k` rounded to the nearest integer, ties to even. -/
def roundShift (m k : Nat) : Nat :=
  let q := m / 2 ^ k
  let r := m % 2 ^ k
  if 2 * r > 2 ^ k ∨ (2 * r = 2 ^ k ∧ q % 2 = 1) then q + 1 else q

/-- Magnitude code of `m × 2^e` rounded to nearest even, or `none` beyond the finite range. -/
def Spec.roundMag (s : Spec) (m : Nat) (e : Int) : Option Nat :=
  if m = 0 then some 0 else
  let top : Int := e + Nat.log2 m
  let qmin : Int := 1 - (s.bias : Int) - s.mbits
  let q : Int := max (top - s.mbits) qmin
  let mm : Nat := if q ≤ e then m * 2 ^ (e - q).toNat else roundShift m (q - e).toNat
  -- a carry out of the mantissa moves to the next exponent, whose code follows
  let code : Nat :=
    if mm < 2 ^ s.mbits then mm
    else ((q + s.bias + s.mbits).toNat - 1) * 2 ^ s.mbits + mm
  if code ≤ s.maxCode then some code else none

/-- What becomes of a finite result beyond the format's range. -/
inductive Over where
  | toInf | saturate
  deriving DecidableEq, Repr

/-- Encode a value in a format. -/
def Spec.encode (s : Spec) (o : Over) : FVal → Nat
  | .nan => s.nanCode
  | .inf neg =>
    match o, s.hasInf with
    | _, true => s.infCode neg
    | _, false => (if neg then 2 ^ (s.ebits + s.mbits) else 0) + s.maxCode
  | .fin neg m e =>
    let sign := if neg then 2 ^ (s.ebits + s.mbits) else 0
    match s.roundMag m e with
    | some c => sign + c
    | none =>
      match o with
      | .toInf => s.infCode neg
      | .saturate => sign + s.maxCode

/-- Decode an FP32 word. -/
def dec32 (w : W32) : FVal := f32.decode w.toNat
/-- Encode to FP32, to nearest even, overflow to infinity (R106). -/
def enc32 (v : FVal) : W32 := BitVec.ofNat 32 (f32.encode .toInf v)

/-- The signed magnitude of a finite value at exponent `e0`, for `e0` at most its exponent. -/
def scaled (neg : Bool) (m : Nat) (e e0 : Int) : Int :=
  let a : Int := (m * 2 ^ (e - e0).toNat : Nat)
  if neg then -a else a

/-- Exact sum; an exact zero is +0 unless both addends are −0 (IEEE 754, to nearest even). -/
def addV : FVal → FVal → FVal
  | .nan, _ => .nan
  | _, .nan => .nan
  | .inf a, .inf b => if a = b then .inf a else .nan
  | .inf a, .fin .. => .inf a
  | .fin .., .inf b => .inf b
  | .fin n1 m1 e1, .fin n2 m2 e2 =>
    let e0 := min e1 e2
    let t := scaled n1 m1 e1 e0 + scaled n2 m2 e2 e0
    if t = 0 then .fin (n1 && n2) 0 e0 else .fin (decide (t < 0)) t.natAbs e0

/-- Exact product. -/
def mulV : FVal → FVal → FVal
  | .nan, _ => .nan
  | _, .nan => .nan
  | .inf a, .inf b => .inf (a != b)
  | .inf a, .fin n m _ => if m = 0 then .nan else .inf (a != n)
  | .fin n m _, .inf b => if m = 0 then .nan else .inf (n != b)
  | .fin n1 m1 e1, .fin n2 m2 e2 => .fin (n1 != n2) (m1 * m2) (e1 + e2)

/-- Negation. -/
def negV : FVal → FVal
  | .nan => .nan
  | .inf n => .inf (!n)
  | .fin n m e => .fin (!n) m e

/-- Magnitude. -/
def absV : FVal → FVal
  | .nan => .nan
  | .inf _ => .inf false
  | .fin _ m e => .fin false m e

/-- Quotient with enough bits and a sticky bit for one correct rounding to FP32. -/
def divV : FVal → FVal → FVal
  | .nan, _ => .nan
  | _, .nan => .nan
  | .inf _, .inf _ => .nan
  | .inf a, .fin n _ _ => .inf (a != n)
  | .fin n _ _, .inf b => .fin (n != b) 0 0
  | .fin n1 m1 e1, .fin n2 m2 e2 =>
    if m2 = 0 then (if m1 = 0 then .nan else .inf (n1 != n2))
    else
      let k := 64 + Nat.log2 m2
      let q := m1 * 2 ^ k / m2
      let r := m1 * 2 ^ k % m2
      .fin (n1 != n2) (2 * q + (if r = 0 then 0 else 1)) (e1 - e2 - k - 1)

/-- Comparison of two values that are not NaN. -/
def ltV : FVal → FVal → Bool
  | .nan, _ => false
  | _, .nan => false
  | .inf a, .inf b => a && !b
  | .inf a, .fin .. => a
  | .fin .., .inf b => !b
  | .fin n1 m1 e1, .fin n2 m2 e2 =>
    let e0 := min e1 e2
    decide (scaled n1 m1 e1 e0 < scaled n2 m2 e2 e0)

/-- FP32 add, multiply, divide and fused multiply-add, correctly rounded (R54, R106, R114). -/
def add32 (a b : W32) : W32 := enc32 (addV (dec32 a) (dec32 b))
/-- FP32 multiply (R54). -/
def mul32 (a b : W32) : W32 := enc32 (mulV (dec32 a) (dec32 b))
/-- FP32 divide (R114). -/
def div32 (a b : W32) : W32 := enc32 (divV (dec32 a) (dec32 b))
/-- FP32 fused multiply-add, one rounding (R54). -/
def fma32 (a b c : W32) : W32 := enc32 (addV (mulV (dec32 a) (dec32 b)) (dec32 c))
/-- FP32 negation. -/
def neg32 (a : W32) : W32 := enc32 (negV (dec32 a))

/-- True for a NaN word. -/
def isNan32 (a : W32) : Bool := dec32 a == .nan
/-- True for a NaN or an infinity. -/
def isNonfinite32 (a : W32) : Bool :=
  match dec32 a with
  | .fin .. => false
  | _ => true

/-- FP32 minimum and maximum, canonical NaN when either is NaN (R54, R55).  Of −0 and +0 the first operand is kept.
DESIGN CHOICE: log entry 96. -/
def min32 (a b : W32) : W32 :=
  if isNan32 a || isNan32 b then BitVec.ofNat 32 f32.nanCode
  else if ltV (dec32 b) (dec32 a) then b else a
/-- FP32 maximum (R54, R55).  Of −0 and +0 the first operand is kept.
DESIGN CHOICE: log entry 96. -/
def max32 (a b : W32) : W32 :=
  if isNan32 a || isNan32 b then BitVec.ofNat 32 f32.nanCode
  else if ltV (dec32 a) (dec32 b) then b else a

/-- FP32 of an exact integer, to nearest even (R119 step 2). -/
def ofInt32 (i : Int) : W32 := enc32 (.fin (decide (i < 0)) i.natAbs 0)

/-- FP32 of an integer times a power of 2. -/
def ofDyadic (i : Int) (e : Int) : W32 := enc32 (.fin (decide (i < 0)) i.natAbs e)

/-- The nearest integer of a finite value, ties to even. -/
def nearestInt (neg : Bool) (m : Nat) (e : Int) : Int :=
  let a : Int := if 0 ≤ e then (m * 2 ^ e.toNat : Nat) else (roundShift m (-e).toNat : Nat)
  if neg then -a else a

/-- Floor of a finite value. -/
def floorInt (neg : Bool) (m : Nat) (e : Int) : Int :=
  let v : Int := if neg then -(m : Int) else m
  if 0 ≤ e then v * 2 ^ e.toNat else v / (2 ^ (-e).toNat : Nat)

/-- Least and greatest code of an integer format; none for a floating-point format (R102). -/
def intRange : Fmt → Option (Int × Int)
  | .int4 => some (-8, 7)
  | .uint4 => some (0, 15)
  | .int8 => some (-128, 127)
  | .uint8 => some (0, 255)
  | .int16 => some (-32768, 32767)
  | _ => none

/-- Width of a storage format in bits (R102). -/
def fmtBits : Fmt → Nat
  | .int4 => 4 | .uint4 => 4 | .int8 => 8 | .uint8 => 8 | .int16 => 16 | .cint8 => 16
  | .e4m3 => 8 | .e5m2 => 8 | .bf16 => 16 | .fp32 => 32

/-- The floating-point parameters of a storage format (integers have none; FP32 stands in). -/
def fmtSpec : Fmt → Spec
  | .e4m3 => e4m3
  | .e5m2 => e5m2
  | .bf16 => bf16
  | _ => f32

/-- An integer saturated to a range. -/
def clampInt (lo hi i : Int) : Int := max lo (min hi i)

/-- The code of an integer in a two's complement or unsigned format of `bits` bits. -/
def intCode (bits : Nat) (i : Int) : Nat := (i % (2 ^ bits : Nat)).toNat

/-- The formats whose zero point may differ from 0 (R110, R112). -/
def hasZero (f : Fmt) : Bool := f == .uint4 || f == .uint8

/-- Conversion to an integer format: nearest, ties to even, zero point added, saturated (R107). -/
def convertInt (v : FVal) (f : Fmt) (lo hi : Int) (zo : Nat) : Nat :=
  let z : Int := if hasZero f then zo else 0
  intCode (fmtBits f) <|
    match v with
    | .nan => z
    | .inf neg => if neg then lo else hi
    | .fin neg m e => clampInt lo hi (nearestInt neg m e + z)

/-- Conversion of a value to a storage format, round to nearest even, with the output zero point (R107).  A single value
becomes the real part of a complex element, whose imaginary part is 0. -/
def convertV (v : FVal) (f : Fmt) (zo : Nat) : Nat :=
  match intRange f with
  | some (lo, hi) => convertInt v f lo hi zo
  | none =>
    match f with
    | .bf16 => bf16.encode .toInf v
    | .e4m3 => e4m3.encode .saturate v
    | .e5m2 => e5m2.encode .saturate v
    | .cint8 => convertInt v .int8 (-128) 127 0
    | _ => f32.encode .toInf v

/-- Conversion of a real and an imaginary part into a complex element (R103, R108). -/
def convertComplex (re im : FVal) : Nat := convertV re .int8 0 + 256 * convertV im .int8 0

/-- Conversion of an FP32 word (R107). -/
def convert32 (w : W32) (f : Fmt) (zo : Nat) : Nat := convertV (dec32 w) f zo

/-- The integer value of a code in an integer format. -/
def intOfCode (f : Fmt) (c : Nat) : Int :=
  match f with
  | .uint4 => (c % 16 : Nat)
  | .uint8 => (c % 256 : Nat)
  | .int4 => if c % 16 < 8 then (c % 16 : Nat) else ((c % 16 : Nat) : Int) - 16
  | .int8 => if c % 256 < 128 then (c % 256 : Nat) else ((c % 256 : Nat) : Int) - 256
  | .int16 => if c % 65536 < 32768 then (c % 65536 : Nat) else ((c % 65536 : Nat) : Int) - 65536
  | _ => (c : Int)

/-- The value of a code in any storage format, as an exact value; of a complex element the real part (R103). -/
def valueOfCode (f : Fmt) (c : Nat) : FVal :=
  let whole (i : Int) : FVal := .fin (decide (i < 0)) i.natAbs 0
  match intRange f with
  | some _ => whole (intOfCode f c)
  | none => if f = .cint8 then whole (intOfCode .int8 c) else (fmtSpec f).decode c

/-- The real value s × (q − z) of a stored code, in FP32 (R110). -/
def realOf (f : Fmt) (c : Nat) (sc : W32) (z : Nat) : W32 :=
  let q := if hasZero f then (let i := intOfCode f c - z; .fin (decide (i < 0)) i.natAbs 0) else valueOfCode f c
  enc32 (mulV (dec32 sc) q)

/-- A scale: positive and finite (R110). -/
def isScale (w : W32) : Bool :=
  match dec32 w with
  | .fin neg m _ => !neg && m != 0
  | _ => false

/-- Stochastic rounding of an FP32 value with the 16-bit draw `r` (R109).  `lo` is the magnitude code
toward zero; `f × 2^16` is computed exactly. -/
def stochV (v : FVal) (f : Fmt) (r : Nat) : Nat :=
  match v with
  | .nan | .inf _ => convertV v f 0
  | .fin neg m e =>
    let s := fmtSpec f
    let sign := if neg then 2 ^ (s.ebits + s.mbits) else 0
    if m = 0 then sign else
    let top : Int := e + Nat.log2 m
    let qmin : Int := 1 - (s.bias : Int) - s.mbits
    let q : Int := max (top - s.mbits) qmin
    if q ≤ e then convertV v f 0 else
    let k := (q - e).toNat
    let lo := m / 2 ^ k
    let rem := m % 2 ^ k
    if rem = 0 then convertV v f 0 else
    let n := rem * 65536 / 2 ^ k
    let code (mm : Nat) : Nat := if mm < 2 ^ s.mbits then mm
      else ((q + s.bias + s.mbits).toNat - 1) * 2 ^ s.mbits + mm
    -- above the largest finite value the draw has no part
    if s.maxCode ≤ code lo then convertV v f 0
    else sign + code (if n + r ≥ 65536 then lo + 1 else lo)

/-- `qmax` of R114; 127 for the parts of a complex element (R120).  INT16 and FP32 have none there.
DESIGN CHOICE: log entry 97. -/
def qmax : Fmt → Nat
  | .int4 => 7 | .int8 => 127 | .cint8 => 127 | .uint4 => 15 | .uint8 => 255 | .e4m3 => 448
  | .int16 => 32767 | .e5m2 => 57344 | .bf16 => 57344 | .fp32 => 57344

/-- FP32 1.0. -/
def one32 : W32 := 0x3F800000

/-- A scale entry (R117): S, ZP, NONFINITE, DYNAMIC; and the factor r that R114 forms beside it. -/
structure ScaleEntry where
  s : W32
  zp : Nat
  nonfinite : Bool
  r : W32
  dynamic : Bool := true
  deriving DecidableEq, Repr

/-- The 64 bits of a scale entry (R117). -/
def ScaleEntry.toWord (e : ScaleEntry) : W64 :=
  BitVec.ofNat 64
    (e.s.toNat + e.zp % 256 * 2 ^ 32 + (if e.nonfinite then 2 ^ 40 else 0) + (if e.dynamic then 2 ^ 41 else 0))

/-- The entry that 64 bits hold, with the factor 1 / s (R117). -/
def ofEntry (w : W64) : ScaleEntry :=
  let n := w.toNat
  let s : W32 := BitVec.ofNat 32 (bitField n 0 32)
  { s := s, zp := bitField n 32 8, nonfinite := bitField n 40 1 == 1, r := div32 one32 s,
    dynamic := bitField n 41 1 == 1 }

/-- The entry of a tensor of STATIC scope: its declared scale and zero point, DYNAMIC 0, and r, the correctly rounded
reciprocal of s (R117, R119). -/
def staticEntry (s : W32) (z : Nat) : ScaleEntry :=
  { s := s, zp := z, nonfinite := false, r := div32 one32 s, dynamic := false }

/-- Row maximum and minimum, NaN when an element is NaN (R55). -/
def rowMax32 : List W32 → W32
  | [] => 0
  | x :: xs => xs.foldl max32 x
/-- Row minimum. -/
def rowMin32 : List W32 → W32
  | [] => 0
  | x :: xs => xs.foldl min32 x

/-- FP32 magnitude. -/
def abs32 (a : W32) : W32 := a &&& 0x7FFFFFFF

/-- PER_ROW output scale of a row (R114, R115).  The entry of a row that is not finite has ZP 0, and z is 0 where
−lo × r is NaN.
DESIGN CHOICE: log entry 97. -/
def rowScale (f : Fmt) (y : List W32) : ScaleEntry :=
  match f with
  | .uint4 | .uint8 =>
    let mx := rowMax32 y
    let mn := rowMin32 y
    if isNonfinite32 mx || isNonfinite32 mn then ⟨BitVec.ofNat 32 f32.nanCode, 0, true, one32, true⟩ else
    let lo := min32 0 mn
    let hi := max32 0 mx
    let d := add32 hi (neg32 lo)
    if dec32 d == .fin false 0 (-149) then ⟨one32, 0, false, one32, true⟩ else
    let qm := ofInt32 (qmax f)
    let r := div32 qm d
    let z : Int := match dec32 (mul32 (neg32 lo) r) with
      | .fin n m e => clampInt 0 (qmax f) (nearestInt n m e)
      | .inf n => if n then 0 else qmax f
      | .nan => 0
    ⟨div32 d qm, z.toNat, false, r, true⟩
  | _ =>
    let a := rowMax32 (y.map abs32)
    if isNonfinite32 a then ⟨BitVec.ofNat 32 f32.nanCode, 0, true, one32, true⟩ else
    if a = 0 then ⟨one32, 0, false, one32, true⟩ else
    let qm := ofInt32 (qmax f)
    ⟨div32 a qm, 0, false, div32 qm a, true⟩

/-- Steps 1 to 5 of the requantisation pipeline (R119) on accumulator `acc`, an integer or, in a floating-point format,
an FP32 bit pattern. -/
def rescale (acc : Int) (q : Requant) : W32 :=
  let x : W32 := if q.isInt then ofInt32 (acc - q.za * q.wsum) else BitVec.ofInt 32 acc
  let p := mul32 q.sa q.sw
  min32 (max32 (fma32 x p q.bias) q.loC) q.hiC

/-- The requantisation pipeline on one output element (R119): seven steps. -/
def requant (acc : Int) (q : Requant) : Nat :=
  let y := rescale acc q
  if q.out = .fp32 then y.toNat else
  convert32 (mul32 y q.r) q.out q.zo

/-- Sum by a pairwise tree over pairs (0, 1), (2, 3) and so on (R41, R55); `n` levels. -/
def pairTree : Nat → List W32 → W32
  | _, [] => 0
  | _, [x] => x
  | 0, x :: _ => x
  | n + 1, xs => pairTree n (go xs)
where
  /-- one level of the tree -/
  go : List W32 → List W32
    | a :: b :: rest => add32 a b :: go rest
    | rest => rest

/-- A produced NaN is the canonical one (R103). -/
def canon32 (w : W32) : W32 := if isNan32 w then BitVec.ofNat 32 f32.nanCode else w

/-- Row sum (R55): lane k adds elements k, k + 64, … in ascending order, then the tree over the lanes.  Of a row of fewer than 64
elements the lanes that hold none take no part in the tree, so that a sum of zeros keeps their sign.
DESIGN CHOICE: log entry 119. -/
def rowSum32 (xs : List W32) : W32 :=
  let lane (k : Nat) : W32 :=
    match (List.range (ceilDiv xs.length 64)).filterMap (fun j => xs[k + 64 * j]?) with
    | [] => 0
    | y :: ys => ys.foldl add32 y
  canon32 (pairTree 6 ((List.range (min 64 xs.length)).map lane))

/-! ### DFT matrices (R99) -/

/-- round(127 cos(2πk / 32)) for k from 0 to 31. -/
def cos32 : List Int :=
  [127, 125, 117, 106, 90, 71, 49, 25, 0, -25, -49, -71, -90, -106, -117, -125,
   -127, -125, -117, -106, -90, -71, -49, -25, 0, 25, 49, 71, 90, 106, 117, 125]

/-- round(127 cos(2πt / f)) for a factor f that divides 32. -/
def dftCos (f t : Nat) : Int := cos32.getD (t * (32 / f) % 32) 0

/-- Entry (j, k) of the f × f DFT matrix as a complex INT8 code: round(127 cos(2πjk / f)) and round(−127 sin(2πjk / f)), where
−sin a is cos(a + π / 2) (R99, R103). -/
def dftCode (f j k : Nat) : Nat :=
  intCode 8 (dftCos f (j * k)) + 256 * intCode 8 (dftCos f (j * k + f / 4))

/-- The stationary block of a DFT level: factors 8 and 16 are packed 32 / f to a block diagonally (R99). -/
def dftBlock (f : Nat) : List (List Nat) :=
  (List.range 32).map (fun j => (List.range 32).map (fun k =>
    if j / f = k / f then dftCode f (j % f) (k % f) else 0))

end Sys2Proof.Machine.Fp
end

