-- ==== Sys2Proof/Machine/Geometry.lean ====
section
/-! DEFINITION. The geometry of a stage (R76 to R82, R90): segment and slice widths, halos, line rings, the coverage of a
forward map, and where the row former finds each operand of a row. -/

namespace Sys2Proof.Machine

open Sys2Proof

/-! ### Strides, halos and widths (R79, R81, R90) -/

/-- Product of the horizontal strides of a list of layers. -/
def strideX (ls : List LayerDecl) : Nat := (ls.map (·.sx)).foldl (· * ·) 1
/-- Product of the vertical strides of a list of layers. -/
def strideY (ls : List LayerDecl) : Nat := (ls.map (·.sy)).foldl (· * ·) 1

/-- Positions on each side of an output that a kernel of size `k` reaches (R81): none for a pool whose size equals its stride.
For an even kernel the larger of its two sides counts, and a dilated one reaches further by its dilation.
DEDUCED: log entry 98. -/
def reachOf (pool : Bool) (k stride dil : Nat) : Nat := if pool && k == stride then 0 else k / 2 * dil

/-- The horizontal halo of a list of layers whose earlier strides multiply to `p` (R81). -/
def haloOf (p : Nat) : List LayerDecl → Nat
  | [] => 0
  | l :: ls => reachOf l.pool l.kw l.sx l.dil * p + haloOf (p * l.sx) ls

/-- The same in the vertical direction (R90). -/
def haloRows (p : Nat) : List LayerDecl → Nat
  | [] => 0
  | l :: ls => reachOf l.pool l.kh l.sy l.dilY * p + haloRows (p * l.sy) ls

/-- Width of a segment at the input of stage `k`: 256 pixels over the strides of the stages before it (R79, R81). -/
def segWidthOf (stages : List StageDecl) (k : Nat) : Nat :=
  256 / strideX ((stages.take k).flatMap (·.layers))

/-- Segments of a line at the input of a stage (R79). -/
def segmentsOf (stages : List StageDecl) (k : Nat) : Nat :=
  ceilDiv ((stages[k]?.map (·.inW)).getD 256) (segWidthOf stages k)

/-! ### Forward maps (R82, R101) -/

/-- Some producer slice writes position `p` of the copy of consumer core `j`; `p` counts from the start of its slice. -/
def mapCovers (m : List FwdRange) (j : Nat) (p : Int) : Bool :=
  m.any (fun r => r.consumer == j && decide (r.first ≤ p) && decide (p ≤ r.last))

/-- Every position that the cores of the next stage read has a producer, but for those beyond the ends of a line of one
segment; the producers are slices of this stage.
DEDUCED: log entry 98. -/
def mapComplete (m : List FwdRange) (g : Nat) (one : Bool) (next : StageDecl) : Bool :=
  m.all (fun r => decide (r.slice < g)) &&
  (List.range next.g).all (fun j =>
    (List.range (next.slice + 2 * next.halo)).all (fun i =>
      let p : Int := (i : Int) - next.halo
      mapCovers m j p || (one && ((j == 0 && decide (p < 0)) || (j + 1 == next.g && decide ((next.slice : Int) ≤ p))))))

/-! ### The row former (R76 to R78, R80, R90, R94, R95, R118) -/

/-- Bits of an activation of an FMT code (R37, R102). -/
def codeBits (f : Nat) : Nat := if f = 2 ∨ f = 3 then 4 else if 8 ≤ f ∧ f ≤ 10 then 16 else 8
/-- Rows of K of a block (R37). -/
def blockK (f : Nat) : Nat := if f = 2 ∨ f = 3 then 64 else 32
/-- FMT of array `a` for a unit: in SPLIT the arrays may run formats of their own (R38, R39, R70). -/
def arrayFmt (d : UnitDecl) (a : Nat) : Nat := if d.gang = 0 then d.fmts.getD a d.fmt else d.fmt
/-- Zero point of the activations of array `a`: only UINT8 and UINT4 have one (R39, R112). -/
def arrayZero (d : UnitDecl) (a : Nat) : Nat :=
  if arrayFmt d a = 1 ∨ arrayFmt d a = 3 then (if d.gang = 0 then d.zeros.getD a d.zeroPoint else d.zeroPoint) else 0
/-- Passes of a format (R50). -/
def passesOf (f : Nat) : Nat := if f = 8 then 2 else if f = 9 then 4 else if f = 10 then 3 else 1

/-- Words of a line of a Strata layer's input as a core holds it: its slice with the halo that is still needed. -/
def lineCols (d : StageDecl) (l : Nat) : Nat :=
  ceilDiv d.slice (strideX (d.layers.take l)) + 2 * haloOf 1 (d.layers.drop l)

/-- The same in words, for layer `l` in format `f`. -/
def lineWords (d : StageDecl) (l f : Nat) : Nat :=
  ceilDiv (lineCols d l * ((d.layers[l]?.map (·.cin)).getD 0) * codeBits f) 32

/-- Words of the line rings of layer `l` for one segment position (R80). -/
def ringSize (d : StageDecl) (l : Nat) : Nat :=
  ((d.layers[l]?.map (fun x => x.kh - 1)).getD 0) * lineWords d l ((d.units[l]?.map (·.fmt)).getD 0)

/-- First word of the ring of layer `l` for the `pos`-th of `count` segment positions: the rings of the layers follow one
another, each with one ring for each position.
DESIGN CHOICE: log entry 115. -/
def ringStart (d : StageDecl) (count pos l : Nat) : Nat :=
  ((List.range l).map (fun k => count * ringSize d k)).sum + pos * ringSize d l

/-- What the row former needs of the layer that a unit runs. -/
structure RowForm where
  layer : LayerDecl
  /-- rows of the product have no geometry: weight columns of a transposed layer, or rows of a kernel -/
  flat : Bool
  strata : Bool
  fmt : Nat
  /-- image at the layer's input -/
  width : Nat
  height : Nat
  /-- image position of the first pixel that the core holds -/
  left : Int
  top : Int
  /-- pixels of a line that the core holds -/
  cols : Nat
  /-- channels of a pixel as the core holds it: those of the layer, or of the channel block that the stage declares (R90) -/
  chans : Nat
  /-- ring of the segment position: first word, words of a line, and lines that it has taken -/
  ring : Nat
  ringLine : Nat
  lines : Nat
  deriving DecidableEq, Repr

/-- The taps of a layer in the order of R76. -/
def tapsOf (l : LayerDecl) : List (Nat × Nat) :=
  (List.range l.kh).flatMap (fun dy => (List.range l.kw).map (fun dx => (dy, dx)))

/-- First word and pixel index of the input pixel of a tap for output (x, y), none where the position lies outside the image
or the ring has no such line yet (R78, R80). -/
def RowForm.pixel (g : RowForm) (base pitch x y : Nat) (tap : Nat × Nat) : Option (Nat × Nat) :=
  if g.flat then some (base, x)
  else
    let px : Int := (x * g.layer.sx + tap.2 * g.layer.dil : Nat) - (g.layer.pw : Int)
    let col := px - g.left
    if px < 0 ∨ (g.width : Int) ≤ px ∨ col < 0 ∨ (g.cols : Int) ≤ col then none
    else if g.strata then
      let age := g.layer.kh - 1 - tap.1
      if age = 0 then some (base, col.toNat)
      else if age ≤ g.lines then some (g.ring + (g.lines - age) % (g.layer.kh - 1) * g.ringLine, col.toNat)
      else none
    else
      let py : Int := (y * g.layer.sy + tap.1 * g.layer.dilY : Nat) - (g.layer.ph : Int)
      let line := py - g.top
      if py < 0 ∨ (g.height : Int) ≤ py ∨ line < 0 then none else some (base + line.toNat * pitch, col.toNat)

/-- One operand of a row: a word and the bits below it, a position that is padding, or a row of K beyond the channels. -/
inductive Operand where
  | code (word shift : Nat)
  | padding
  | absent
  deriving DecidableEq, Repr

/-- Element `ch` of pixel `p` of a line of pixels of `cin` elements. -/
def elementAt (f cin : Nat) (p : Nat × Nat) (ch : Nat) : Operand :=
  let bit := (p.2 * cin + ch) * codeBits f
  .code (p.1 + bit / 32) (bit % 32)

/-- The operands of a row of S_t(X) for the channels from `ch0` up, or of a stacked row (R76, R77).  Rows of K beyond the channels
hold 0.
DESIGN CHOICE: log entry 115. -/
def RowForm.operands (g : RowForm) (base pitch x y tap ch0 : Nat) : List Operand :=
  let taps := tapsOf g.layer
  (List.range (blockK g.fmt)).map (fun e =>
    let (t, ch) := if g.layer.stacked then (e / max 1 g.layer.cin, e % max 1 g.layer.cin) else (tap, ch0 + e)
    match taps[t]? with
    | none => .absent
    | some q =>
      if min g.layer.cin g.chans ≤ ch then .absent
      else match g.pixel base pitch x y q with
        | none => .padding
        | some p => elementAt g.fmt g.chans p ch)

/-- The operands of a row that stands in the staging area of a fused pair: four rows, row m in the place m mod 4 (R94). -/
def stagedOperands (f k base m : Nat) : List Operand :=
  (List.range (blockK f)).map (fun e =>
    if k ≤ e then .absent else elementAt f k (base + m % 4 * ceilDiv (k * codeBits f) 32, 0) e)

/-- The word that an operand lies in. -/
def Operand.word? : Operand → Option Nat
  | .code w _ => some w
  | _ => none

/-- The code of an operand: of a padded position the zero point `z` (R78, R112). -/
def Operand.read (bits z : Nat) (sp : Tab W32) : Operand → Nat
  | .code w k => (Tab.get sp 0 w).toNat / 2 ^ k % 2 ^ bits
  | .padding => z
  | .absent => 0

/-- Words from the start of a buffer to its scale tensor: the data of `rows` rows of `len` elements of `bits` bits, brought to
8 bytes (R118). -/
def entryOffset (rows len bits : Nat) : Nat := 2 * ceilDiv (rows * len * bits) 64

/-- The scale entry at word `a` (R117). -/
def entryWord (sp : Tab W32) (a : Nat) : W64 :=
  BitVec.ofNat 64 ((Tab.get sp 0 a).toNat + (Tab.get sp 0 (a + 1)).toNat * 2 ^ 32)

/-- The scale entry of row `m` of a buffer (R117, R118). -/
def entryAt (sp : Tab W32) (base rows len bits m : Nat) : W64 := entryWord sp (base + entryOffset rows len bits + 2 * m)

/-- The input row whose scale entry goes with output pixel (x, y) of a product that depends on one input row alone: the input
pixel that it reads, counted as the core holds the pixels, or the row itself where a row has no geometry (R113, R118). -/
def RowForm.inputRow (g : RowForm) (x y : Nat) : Nat :=
  if g.flat then x
  else
    let col := ((x * g.layer.sx : Nat) : Int) - g.layer.pw - g.left
    let line := if g.strata then 0 else ((y * g.layer.sy : Nat) : Int) - g.layer.ph - g.top
    line.toNat * g.cols + col.toNat

/-! ### Declared weights (R37, R100, R103, R111) -/

/-- The value that a declared weight takes in the cells: the integer of its storage width. -/
def weightValue (f : Nat) (v : Int) : Int :=
  let m : Int := 2 ^ codeBits f
  (v + m / 2) % m - m / 2

/-- The storage code of a declared weight. -/
def weightCode (f : Nat) (v : Int) : Nat := (v % 2 ^ codeBits f).toNat

/-- The weight of row `k` of K and output channel `j`, 0 beyond the tensor. -/
def weightOf (ws : List (List Int)) (k j : Nat) : Int := (ws.getD k []).getD j 0

/-- Word `w` of stored row `i` of the block that starts at row `k0` of K and output channel `j0`, of which rows from `k1` up hold 0;
in INT4 a byte holds two rows of K (R37, R103). -/
def blockWord (f : Nat) (ws : List (List Int)) (k0 k1 j0 i w : Nat) : W32 :=
  let code (k j : Nat) : Nat := if k1 ≤ k0 + k then 0 else weightCode f (weightOf ws (k0 + k) (j0 + j))
  BitVec.ofNat 32 (
    if codeBits f = 16 then code i (2 * w) + code i (2 * w + 1) * 2 ^ 16
    else
      ((List.range 4).map (fun b =>
        (if codeBits f = 4 then code (2 * i) (4 * w + b) + 16 * code (2 * i + 1) (4 * w + b) else code i (4 * w + b)) *
          2 ^ (8 * b))).sum)

/-- The words of the declared weights of a unit as they lie in the resident region: by block of 32 output channels, tap and
K-block, the order of R76.
DESIGN CHOICE: log entry 120. -/
def weightWords (u : UnitDecl) (l : Option LayerDecl) : List W32 :=
  let ws := u.weights
  let cin := match l with
    | none => max 1 ws.length
    | some x => if x.stacked then max 1 ws.length else max 1 x.cin
  let cols := (ws.map (·.length)).foldl max 0
  (List.range (ceilDiv cols 32)).flatMap (fun cb =>
    (List.range (ceilDiv ws.length cin)).flatMap (fun t =>
      (List.range (ceilDiv cin (blockK u.fmt))).flatMap (fun b =>
        (List.range 32).flatMap (fun i =>
          (List.range (if codeBits u.fmt = 16 then 16 else 8)).map
            (blockWord u.fmt ws (t * cin + b * blockK u.fmt) (t * cin + cin) (32 * cb) i)))))

/-- The words of the declared weights of a stage, by word of its resident region (R100, R111). -/
def stageWeights (d : StageDecl) : Tab W32 :=
  (d.units.zipIdx.map (fun p =>
    ((weightWords p.1 d.layers[p.2]?).zipIdx.map (fun x => (p.1.weightAt + x.2, x.1))))).flatten.foldl
      (fun t e => Tab.insert t e.1 e.2) []

end Sys2Proof.Machine
end

