-- ==== Sys2Proof/Machine/Buffers.lean ====
section
/-! DEFINITION. Shared operations of the queue manager and the windows: buffers and generations (R170 to R179),
queues (R180 to R188), windows (R132 to R137), waits, and the ways in which a unit of work stops (R64, R65). -/

namespace Sys2Proof.Machine

open Sys2Proof Sys2Proof.Machine.Bits

/-! ### Pools and buffers -/

/-- Pool `p`, when one occupies the number. -/
def State.pool? (s : State) (p : Nat) : Option PoolSt := Tab.find s.qmg.pools p

/-- The QMG's record of buffer `i` of pool `p`. -/
def State.buffer (s : State) (p i : Nat) : Buffer := Tab.get s.qmg.buffers {} (bufKey p i)
/-- Change the record of a buffer. -/
def State.modBuffer (s : State) (p i : Nat) (f : Buffer → Buffer) : State :=
  s.modQmg (fun m => { m with buffers := Tab.insert m.buffers (bufKey p i) (f (s.buffer p i)) })

/-- Generation after one more allocation: 255 goes to 1, so 0 never occurs (R172). -/
def nextGen (g : Nat) : Nat := if g ≥ 255 then 1 else g + 1

/-- The handle of buffer `i` of pool `p` as a free queue holds it: FLAG, CORRECTED and LAST clear (R179). -/
def freeHandle (p : Nat) (pl : PoolSt) (i gen tag : Nat) : W64 :=
  ({ kind := pl.kind, pool := p, index := i, gen := gen, flag := false, corrected := false,
     last := false, tag := tag } : Handle).toWord

/-- A handle that the QMG stores (R171): a known KIND, GEN not 0, a pool and an INDEX within it. -/
def handleGood (s : State) (h : W64) : Bool :=
  let x := ofHandle h
  1 ≤ x.kind && x.kind ≤ 4 && x.gen != 0 &&
    match s.pool? x.pool with
    | none => false
    | some pl => x.index < pl.count

/-- A handle whose GEN is its buffer's current generation (R172). -/
def handleCurrent (s : State) (h : W64) : Bool :=
  let x := ofHandle h
  x.gen == (s.buffer x.pool x.index).gen

/-! ### Windows (R132 to R136) -/

/-- Window `w` of a core. -/
def CoreSt.window (c : CoreSt) (w : Nat) : Window := Tab.get c.windows {} w
/-- Change window `w` of a core. -/
def CoreSt.modWindow (c : CoreSt) (w : Nat) (f : Window → Window) : CoreSt :=
  { c with windows := Tab.insert c.windows w (f (c.window w)) }

/-- Open a window for a new buffer: counter 0, the buffer's generation, the target of the stage image and
the epoch of the work (R133). -/
def Window.openFor (w : Window) (gen target epoch part : Nat) : Window :=
  { w with state := .opened, gen := gen, arrived := 0, trailers := 0, target := target, epoch := epoch, part := part }

/-- Close a window that is open (R135). -/
def Window.close (w : Window) : Window := if w.state = .opened then { w with state := .closed } else w

/-- The arrival target of the copy of core `j` of the sub-group for segment position `seg`; positions and cores beyond the
declared ones have the last one's (R82, R100). -/
def PoolSt.targetAt (pl : PoolSt) (seg j : Nat) : Nat :=
  let row := pl.targets.getD seg (pl.targets.getLastD [])
  row.getD j (row.getLastD 0)

/-- Open the windows of every copy of buffer `i`, which is to hold segment `seg` (R82, R133). -/
def openWindows (pl : PoolSt) (i gen seg epoch : Nat) (s : State) : State :=
  if pl.kind = 1 then
    forEach (pl.windowCores.zipIdx) (fun c s =>
      s.modCore c.1 (fun k => k.modWindow (pl.window0 + i)
        (fun w => w.openFor gen (pl.targetAt seg c.2) epoch pl.part))) s
  else s

/-- Every piece of every copy of Strata slot `i` has been written, trailers included (R82, R83). -/
def slotFilled (pl : PoolSt) (i : Nat) (s : State) : Bool :=
  pl.windowCores.all (fun c =>
    let w := (s.core c).window (pl.window0 + i)
    w.target ≤ w.arrived)

/-- Close the windows of every copy of buffer `i` (R135). -/
def closeWindows (pl : PoolSt) (i : Nat) (s : State) : State :=
  if pl.kind = 1 then
    forEach pl.windowCores (fun c s => s.modCore c (fun k => k.modWindow (pl.window0 + i) Window.close)) s
  else s

/-- Close every open window of a core (R135: a fault stop, a change of partition, the end of its work). -/
def CoreSt.closeAll (c : CoreSt) : CoreSt :=
  { c with windows := c.windows.map (fun e => (e.1, e.2.close)) }

/-- The count of a remote write of `n` words at word address `a`: the aligned 32-byte blocks it touches
(R134). -/
def beatCount (a n : Nat) : Nat := if n = 0 then 0 else (a + n - 1) / 8 - a / 8 + 1

/-! ### Queues (R180 to R187) -/

/-- Consumer cores that the fan-out entry of a DATA queue lists (R187). -/
def State.consumers (s : State) (q : Queue) : List Nat :=
  match q.type with
  | .data => Tab.get s.qmg.fanouts [] q.fanout
  | _ => []

/-- A queue that holds 2^(LOG2_DEPTH + 3) entries is full (R181). -/
def Queue.full (q : Queue) : Bool := 2 ^ (q.log2Depth + 3) ≤ q.entries.length

/-- The epoch of a queue is cancelled: the QMG refuses what is tagged with it (R197). -/
def State.epochCancelled (s : State) (e : Nat) : Bool :=
  match Tab.find s.qmg.epochs e with
  | none => false
  | some x => x.cancelled

/-- Put an entry at the end of a queue's ring. -/
def Queue.enqueue (q : Queue) (h : W64) (waiting : List Nat) : Queue :=
  { q with entries := q.entries ++ [(h, waiting)], tail := (q.tail + 1) % 2 ^ 19,
           pushCount := (q.pushCount + 1) % 2 ^ 32 }

/-- What a queue operation meets (R182, R184, R197). -/
inductive Verdict where
  | accept
  /-- the queue is HELD -/
  | wait
  /-- refused, with the ERR_STAT bit that it sets, if any -/
  | refuse (bit : Option Nat)
  /-- the epoch is cancelled -/
  | cancelled
  deriving DecidableEq, Repr

/-- What STATE and PARTITION of a queue say to a requester of partition `part` (R182, R184). -/
def queueStands (s : State) (q : Queue) (part : Nat) : Verdict :=
  if q.state = .held ∨ (q.state = .armed ∧ s.qmg.frozen) then .wait
  else if q.state ≠ .armed then .refuse none
  else if part ≠ q.part then .refuse (some Bit.qmgXpart)
  else .accept

/-- The checks of R182 on the queue's side for a push, a pop or an allocation: work of a cancelled epoch is refused (R197). -/
def queueVerdict (s : State) (q : Queue) (part : Nat) : Verdict :=
  if s.epochCancelled q.epoch && q.stream.isSome then .cancelled else queueStands s q part

/-! ### Requesters -/

/-- Core `n` is isolated, held in reset, or its clock is stopped (R29, R371).
DESIGN CHOICE: log entry 88. -/
def State.unreachable (s : State) (n : Nat) : Bool :=
  (s.hdr (.core n)).isolated || (s.quad (coreQuad n)).isolated || (s.quad (coreQuad n)).resetting || s.pwr.retention

/-- Unit code of a requester (R148, R301). -/
def agentUnit : Agent → Nat
  | .core c => c.val
  | .ingress => 0xC0
  | .ppe => 0xC8
  | .firmware => 0xC5

/-- Partition for which a requester acts: a core for its running unit, else for the partition that owns it;
ING, TAL, PPE and firmware for the partition `d` whose work they serve. -/
def agentPart (s : State) (a : Agent) (d : Nat) : Nat :=
  match a with
  | .core c =>
    match (s.core c.val).run with
    | some u => u.part
    | none => (s.core c.val).part
  | _ => d

/-- Add a flag to a unit's own causes. -/
def UnitInst.flag (u : UnitInst) (cause : Nat) : UnitInst := { u with causes := addOnce u.causes cause }

/-- Flag the output of the unit that runs on core `n`. -/
def flagUnit (n cause : Nat) (s : State) : State :=
  s.modCore n (fun c => { c with run := c.run.map (·.flag cause) })

/-- A refused operation: the ERR_STAT bit, a fault record that names the requesting core's context, and a
flag on the output of its unit (R171, R182).
DESIGN CHOICE: log entry 63. -/
def refuseOp (a : Agent) (bit : Option Nat) (s : State) : State :=
  let s1 := match bit with
    | none => s
    | some b => raise .qmg b s
  match a with
  | .core c =>
    flagUnit c.val Cause.queueFault
      (report { coreEv s1 c.val Cause.queueFault (bit.getD 0xFF) with unit := 0xC1 } s1)
  | _ => s1

/-! ### Waits (R61, R137, R184) -/

/-- What core `c` waits on. -/
def State.waitOf (s : State) (c : Nat) : Option WaitOn :=
  (s.qmg.waiters.find? (fun w => w.core == c)).map (·.on)

/-- Core `c` begins to wait: a running unit takes it from RUN to WAIT (R60).  The pop of a core with no unit is its stream
engine's, and the sequencer stays as it is.
DEDUCED: log entry 99. -/
def beginWait (c : Nat) (on : WaitOn) (s : State) : State :=
  (s.modQmg (fun m => { m with waiters := m.waiters ++ [{ core := c, on := on }] })).modCore c
    (fun k => { k with seq := if k.seq = .run then .wait else k.seq, waitAt := s.clock })

/-- Where a wait that is satisfied leads: RUN, and on to DRAIN when a drain request stands (R60, R63). -/
def CoreSt.afterWait (k : CoreSt) : Seq := if k.drainReq then .drain else .run

/-- A wait of core `c` ends. -/
def endWait (c : Nat) (on : WaitOn) (s : State) : State :=
  (s.modQmg (fun m => { m with waiters := m.waiters.filter (fun w => !(w.core == c && w.on == on)) })).modCore c
    (fun k => if k.seq = .wait then { k with seq := k.afterWait } else k)

/-- Every wait of core `c` ends without its operation. -/
def dropWaits (c : Nat) (s : State) : State :=
  s.modQmg (fun m =>
    { m with
      waiters := m.waiters.filter (fun w => w.core != c)
      queues := m.queues.map (fun e => (e.1, { e.2 with credits := dropAll e.2.credits c })) })

/-! ### Delivery of a handle to a core (R59, R83, R187) -/

/-- The placement slot that names core `c`, of a stream. -/
def Stream.slotOf (st : Stream) (c : Nat) : Option SlotPlan :=
  st.place.slots.find? (fun p => p.cores.any (fun k => k.val == c))

/-- The next submission order number. -/
def State.nextOrder (s : State) : Nat × State :=
  (s.qmg.order, s.modQmg (fun m => { m with order := m.order + 1 }))

/-- The core that the placement names for core `c`: an old core of a committed re-placement stands where the new one does
(R286). -/
def State.placedAs (s : State) (c : Nat) : Nat :=
  match s.ctl.repl with
  | none => c
  | some r =>
    if s.ctl.jState = .committed then (((r.old.zip r.new).find? (fun p => p.1 == c)).map (·.2)).getD c else c

/-- The unit of work that a handle popped from queue `q` makes ready on core `c`: the first unit of the stage
that the core hosts, flagged as the handle is (R174).  CORRECTED without FLAG carries no cause; it counts as a corrected ABFT error.
DESIGN CHOICE: log entry 127. -/
def unitOf (s : State) (c : Nat) (q : Queue) (h : W64) (order : Nat) : UnitInst :=
  let x := ofHandle h
  let b := s.buffer x.pool x.index
  let sid := q.stream.getD b.stream
  match s.stream? sid with
  | none =>
    { ctx := q.ctx, part := q.part, stream := sid, slot := (s.core c).slot, stage := 0, unit := 0,
      copy := q.copy, seq := b.seq, last := x.last, epoch := q.epoch, wcet := 0, order := order,
      readyAt := s.clock, inputs := [h], causes := if x.flag then [b.cause] else [] }
  | some st =>
    let sl := st.slotOf (s.placedAs c)
    let stage := (sl.map (·.stage)).getD 0
    let decl := s.stageOf st stage
    let job := st.jobs.find? (fun j => j.epoch == q.epoch)
    { ctx := st.ctx, part := st.part, stream := sid, slot := (sl.map (·.slot.val)).getD 0xFFFF,
      stage := stage, unit := 0, copy := (sl.map (·.copy)).getD 0, seq := b.seq, tile := b.seg, last := x.last,
      epoch := q.epoch, wcet := (decl.bind (fun d => (d.units[0]?).map (·.wcet))).getD 0,
      prio := (job.map (·.prio)).getD 0, deadline := (job.map (·.deadline)).getD 0, order := order,
      readyAt := s.clock, inputs := [h],
      causes := if x.flag then [b.cause] else if x.corrected then [Cause.corrected Cause.abft] else [],
      record := (sl.map (·.record)).getD false }

/-- The stream engine of core `c` issues a transfer for queue `n`, a read of `h` or a write: it counts against the queue and
carries the epoch that the queue has now (R190, R192). -/
def issueTransfer (c n : Nat) (h : Option W64) (s : State) : State :=
  let e := (s.queue n).epoch
  (s.modQueue n (fun q => { q with outCount := q.outCount + 1 })).modQmg (fun m =>
    { m with
      transfers := m.transfers ++ [{ core := c, queue := n, epoch := e, handle := h }]
      epochs := Tab.modify m.epochs e (fun x => { x with outstanding := x.outstanding + 1 }) })

/-- A unit of core `c`, running or ready, holds handle `h` as an input. -/
def State.reads (s : State) (c : Nat) (h : W64) : Bool :=
  ((s.core c).run.toList ++ (s.core c).ready).any (fun u => u.inputs.contains h)

/-- The engine issues what OUT_COUNT allows of a fetch; none for a unit that is gone (R190, R197). -/
def issueFetch (f : Fetch) (s : State) : State :=
  let k := if s.reads f.core f.handle then min f.left ((s.queue f.queue).outLimit - (s.queue f.queue).outCount) else 0
  let rest : List Fetch := if s.reads f.core f.handle && k < f.left then [{ f with left := f.left - k }] else []
  (forEach (List.range k) (fun _ s => issueTransfer f.core f.queue (some f.handle) s) s).modQmg (fun m =>
    { m with fetches := m.fetches ++ rest })

/-- The engines issue the fetches that wait for queue `n`, in their order (R190, R191). -/
def issueFetches (n : Nat) (s : State) : State :=
  forEach (s.qmg.fetches.filter (fun f => f.queue == n)) issueFetch
    (s.modQmg (fun m => { m with fetches := m.fetches.filter (fun f => f.queue != n) }))

/-- Item and visit index of the tile in a buffer. -/
def State.visitOf (s : State) (h : W64) : Nat × Nat :=
  let b := s.buffer (ofHandle h).pool (ofHandle h).index
  (b.seq, b.seg)

/-- Put a fetch behind those of earlier items and of earlier tiles of its item: an engine fetches in visit order (R92, R191). -/
def insertFetch (s : State) (f : Fetch) : List Fetch → List Fetch
  | [] => [f]
  | g :: gs =>
    let a := s.visitOf f.handle
    let b := s.visitOf g.handle
    if a.1 < b.1 ∨ (a.1 = b.1 ∧ a.2 < b.2) then f :: g :: gs else g :: insertFetch s f gs

/-- Requests that the fetch of a buffer takes: one for each 256 bytes of its payload (R190, R191).
DESIGN CHOICE: log entry 62. -/
def fetchRequests (s : State) (h : W64) : Nat :=
  max 1 (ceilDiv (s.buffer (ofHandle h).pool (ofHandle h).index).len 256)

/-- The window that backs the copy of a STRATA_SLOT buffer on core `n` (R132, R175). -/
def slotWindow (s : State) (n : Nat) (h : W64) : Option (Nat × PoolSt) :=
  let x := ofHandle h
  match s.pool? x.pool with
  | none => none
  | some pl => if pl.kind = 1 && pl.windowCores.contains n then some (pl.window0 + x.index, pl) else none

/-- The verdicts on every input of a unit of core `n` are in: each read of it has returned, and of a Strata copy every piece has
been checked (R83, R87). -/
def inputVerdicts (s : State) (n : Nat) (u : UnitInst) : Bool :=
  u.inputs.all (fun h =>
    !s.qmg.fetches.any (fun f => f.core == n && f.handle == h) &&
    !s.qmg.transfers.any (fun x => x.core == n && x.handle == some h) &&
    (match slotWindow s n h with
      | none => true
      | some (w, _) =>
        let x := (s.core n).window w
        x.trailers ≤ (u.verified.filter (fun b => x.base ≤ b && b < x.base + x.len)).length))

/-- The stage declaration of a unit. -/
def stageDeclOf (s : State) (u : UnitInst) : Option StageDecl := (s.stream? u.stream).bind (fun st => s.stageOf st u.stage)

/-- The writes that core `c` has issued for queue `n` have completed (R149, R190). -/
def writesDone (s : State) (c n : Nat) : Bool :=
  !s.qmg.transfers.any (fun x => x.core == c && x.queue == n && x.handle.isNone)

/-- A unit of a frame-mode stage. -/
def framed (s : State) (u : UnitInst) : Bool :=
  ((s.stream? u.stream).bind (fun st => s.stageOf st u.stage)).any (fun d => d.mode == .frame)

/-- Hand a popped handle to core `c`: its unit becomes ready, and in frame mode the engine fetches the tile, request after
request, as the queue's limit allows (R190, R191).  A FAULTED core's stream engine still takes it (R382). -/
def deliver (c n : Nat) (q : Queue) (h : W64) (s : State) : State :=
  let (o, s1) := s.nextOrder
  let u := unitOf s1 c q h o
  let s2 := s1.modCore c (fun k => { k with ready := k.ready ++ [u], releasedAt := some s1.clock })
  if framed s1 u then
    issueFetches n (s2.modQmg (fun m =>
      { m with fetches := insertFetch s2 { core := c, queue := n, handle := h, left := fetchRequests s2 h } m.fetches }))
  else s2

/-! ### Push, pop, allocate and return -/

/-- Consumer cores of an entry: while a re-placement is committed, an item before the switch boundary still goes to the old
cores (R286). -/
def State.consumersOf (s : State) (q : Queue) (h : W64) : List Nat :=
  let all := s.consumers q
  match s.ctl.repl with
  | none => all
  | some r =>
    if s.ctl.jState = .committed ∧ (s.buffer (ofHandle h).pool (ofHandle h).index).seq < r.boundary then
      all.map (fun n => (((r.new.zip r.old).find? (fun p => p.1 == n)).map (·.2)).getD n)
    else all

/-- An accepted push to queue `n`: credited cores receive the handle at once, the others find it in the
ring (R184, R187). -/
def pushEntry (n : Nat) (h : W64) (s : State) : State :=
  let q := s.queue n
  let all := s.consumersOf q h
  let direct := all.filter (q.credits.contains ·)
  let rest := all.filter (fun c => !direct.contains c)
  let s1 :=
    if rest.isEmpty && !all.isEmpty then
      s.modQueue n (fun q =>
        { q with pushCount := (q.pushCount + 1) % 2 ^ 32,
                 credits := q.credits.filter (fun c => !direct.contains c) })
    else
      s.modQueue n (fun q =>
        { q.enqueue h rest with credits := q.credits.filter (fun c => !direct.contains c) })
  forEach direct (fun c s => deliver c n q h (endWait c (.pop n) s)) s1

/-- The first entry of a ring that core `c` has still to pop, and the ring after it has: an entry leaves
when every listed core has popped it (R187). -/
def takeEntry (c : Nat) : List (W64 × List Nat) → Option (W64 × List (W64 × List Nat))
  | [] => none
  | (h, ws) :: es =>
    if ws.contains c then
      let ws' := dropAll ws c
      some (h, if ws'.isEmpty then es else (h, ws') :: es)
    else (takeEntry c es).map (fun r => (r.1, (h, ws) :: r.2))

/-- Context of a queue of a context, by queue number (R180). -/
def queueCtx (n : Nat) : Nat := (n - 0x3E000) % 4096

/-- Set queue `n` FAULTED (R185): a vein's or pool's, or a queue of a context (R180). -/
def faultQueue (n : Nat) (s : State) : State :=
  if n < 0x3E000 then s.modQueue n (fun q => { q with state := .faulted })
  else s.modCtx (queueCtx n) (fun x => if n < 0x3F000 then { x with cplFault := true } else { x with cmdFault := true })

/-- CONTEXT, PARTITION and stream of a queue's descriptor. -/
def queueOwner (n : Nat) (s : State) : Nat × Nat × Option Nat :=
  if n < 0x3E000 then ((s.queue n).ctx, (s.queue n).part, (s.queue n).stream)
  else (queueCtx n, ((s.ctx (queueCtx n)).part).getD 0, none)

/-- Read the descriptor of queue `n` for an operation, with what its code finds and the injections of R210: a corrected
error is counted, an uncorrectable one sets the queue FAULTED and reports to SAFE (R185).  The Bool says whether the
operation may go on. -/
def readDescriptor (n : Nat) (u : Upset) (s : State) : Bool × State :=
  let (corr, s1) := takeInj .qmg Bit.qmgDescCorr s
  let s2 := if corr || u == .corrected then
      raise .qmg Bit.qmgDescCorr (s1.modQmg (fun m => { m with descCorr := sat32 (m.descCorr + 1) }))
    else s1
  let (unc, s3) := takeInj .qmg Bit.qmgDescUncorr s2
  if unc || u == .uncorrectable then
    let (ctx, part, id) := queueOwner n s3
    (false, report { unit := 0xC1, cause := Cause.queueFault, ctx := ctx, part := part, stream := id, bit := Bit.qmgDescUncorr }
      (raiseAt .qmg Bit.qmgDescUncorr (32 * n) (some (ctx, part)) (faultQueue n s3)))
  else (true, s3)

/-- The pool of a handle belongs to another partition than the requester's (R178). -/
def foreignPool (s : State) (a : Agent) (h : W64) : Bool :=
  match s.pool? (ofHandle h).pool with
  | none => false
  | some pl => agentPart s a pl.part != pl.part

/-- What became of an operation on a queue. -/
inductive Turn where
  | done
  /-- it waits: a core in WAIT, any other requester keeps what it has -/
  | waits
  /-- it is refused, or its epoch is cancelled: nothing has changed -/
  | refused
  deriving DecidableEq, Repr

/-- A core begins to wait; any other requester is left as it is. -/
def agentWait (a : Agent) (on : WaitOn) (s : State) : State :=
  match a with
  | .core c => beginWait c.val on s
  | _ => s

/-- A push of handle `h` to queue `n`, and what became of it (R171, R178, R182 to R184).  A core that meets a full or HELD
queue waits; any other requester leaves the handle where it is. -/
def pushTurn (u : Upset) (a : Agent) (n : Nat) (h : W64) (s0 : State) : Turn × State :=
  let (ok, s) := readDescriptor n u s0
  if !ok then (.refused, refuseOp a none s)
  else if !handleGood s h then (.refused, refuseOp a (some Bit.qmgBadHandle) s)
  else
    let q := s.queue n
    match queueVerdict s q (agentPart s a q.part) with
    | .cancelled => (.refused, s)
    | .refuse bit => (.refused, refuseOp a bit s)
    | .wait => (.waits, agentWait a (.push n h) s)
    | .accept =>
      if foreignPool s a h then (.refused, refuseOp a (some Bit.qmgXpart) s)
      else if !handleCurrent s h then (.refused, refuseOp a (some Bit.qmgStale) s)
      else if q.full then
        (.waits, match a with
          | .core c => beginWait c.val (.push n h) (s.modQmg (fun m => { m with pushStalls := sat32 (m.pushStalls + 1) }))
          | _ => s)
      else (.done, pushEntry n h s)

/-- A push whose descriptor read meets no error. -/
def push (a : Agent) (n : Nat) (h : W64) (s : State) : State := (pushTurn .clean a n h s).2

/-- A pop of queue `n` by core `c` (R182, R184, R187). -/
def pop (c : CoreNum) (n : Nat) (u : Upset) (s0 : State) : State :=
  let (ok, s) := readDescriptor n u s0
  if !ok then refuseOp (.core c) none s
  else
    let q := s.queue n
    match queueVerdict s q (agentPart s (.core c) q.part) with
    | .cancelled => s
    | .refuse bit => refuseOp (.core c) bit s
    | .wait => beginWait c.val (.pop n) s
    | .accept =>
      match takeEntry c.val q.entries with
      | some (h, es) =>
        let left := q.entries.length - es.length
        deliver c.val n q h
          (s.modQueue n (fun q => { q with entries := es, head := (q.head + left) % 2 ^ 19 }))
      | none =>
        beginWait c.val (.pop n)
          ((s.modQueue n (fun q => { q with credits := addOnce q.credits c.val })).modQmg
            (fun m => { m with popWaits := sat32 (m.popWaits + 1) }))

/-- Take the oldest handle of pool `p`'s free queue for segment or visit index `seg`: the generation advances, the returns
are set, the flags are cleared and the windows of every copy open, in this order (R177). -/
def takeFree (p : Nat) (pl : PoolSt) (seg : Nat) (s : State) : Option (W64 × State) :=
  let fq := s.queue pl.freeQueue
  match fq.entries with
  | [] => none
  | (h, _) :: es =>
    let i := (ofHandle h).index
    let gen := nextGen (s.buffer p i).gen
    let s1 := s.modQueue pl.freeQueue (fun q => { q with entries := es, head := (q.head + 1) % 2 ^ 19 })
    let s2 := s1.modBuffer p i (fun b => { b with gen := gen, returns := pl.consumers, cause := 0, checked := false, seg := seg })
    some (freeHandle p pl i gen (ofHandle h).tag, openWindows pl i gen seg fq.epoch s2)

/-- Put buffer `i` of pool `p` back into its free queue: returns 0, windows closed, and of the handle that came back, whose
CHECK_TAG is `tag`, the flags clear (R179). -/
def giveFree (p : Nat) (pl : PoolSt) (i tag : Nat) (s : State) : State :=
  let s1 := closeWindows pl i (s.modBuffer p i (fun b => { b with returns := 0, cause := 0 }))
  s1.modQueue pl.freeQueue (fun q => q.enqueue (freeHandle p pl i (s1.buffer p i).gen tag) [])

/-- Buffer `i` lies in the free queue of its pool. -/
def isFree (s : State) (pl : PoolSt) (i : Nat) : Bool :=
  (s.queue pl.freeQueue).entries.any (fun e => (ofHandle e.1).index == i)

/-- Return a handle straight to its free queue, whatever returns are outstanding (R65, R197): no effect on a
stale handle or a buffer that lies there. -/
def forceFree (h : W64) (s : State) : State :=
  let x := ofHandle h
  match s.pool? x.pool with
  | none => s
  | some pl => if handleCurrent s h && !isFree s pl x.index then giveFree x.pool pl x.index x.tag s else s

/-- A return that the free queue takes: one less is outstanding, and the last frees the buffer (R179, R182). -/
def countReturn (a : Agent) (h : W64) (pl : PoolSt) (s : State) : Turn × State :=
  let x := ofHandle h
  let r := (s.buffer x.pool x.index).returns
  if !handleCurrent s h then (.refused, refuseOp a (some Bit.qmgStale) s)
  else if r = 0 then (.refused, refuseOp a (some Bit.qmgDouble) s)
  else if r = 1 then (.done, giveFree x.pool pl x.index x.tag s)
  else (.done, s.modBuffer x.pool x.index (fun b => { b with returns := r - 1 }))

/-- What a return meets once the free queue's descriptor is read: a HELD queue makes a core wait (R178, R182, R184).  CANCEL
refuses no return (R197). -/
def returnHere (a : Agent) (h : W64) (pl : PoolSt) (s : State) : Turn × State :=
  match queueStands s (s.queue pl.freeQueue) (agentPart s a pl.part) with
  | .wait => (.waits, agentWait a (.ret h) s)
  | .refuse bit => (.refused, refuseOp a bit s)
  | _ => countReturn a h pl s

/-- A return of a handle by a requester, and what became of it (R178, R179, R182, R185).  A handle that names no buffer is no
current one. -/
def returnTurn (a : Agent) (h : W64) (s0 : State) : Turn × State :=
  match s0.pool? (ofHandle h).pool with
  | none => (.refused, refuseOp a (some Bit.qmgStale) s0)
  | some pl =>
    let (ok, s) := readDescriptor pl.freeQueue .clean s0
    if !ok then (.refused, refuseOp a none s)
    else if !handleGood s h then (.refused, refuseOp a (some Bit.qmgStale) s)
    else returnHere a h pl s

/-- A return of a handle. -/
def giveBack (a : Agent) (h : W64) (s : State) : State := (returnTurn a h s).2

/-- The DATA queue that a link fills with the buffers of pool `p`. -/
def queueOfPool (s : State) (p : Nat) : Option Nat :=
  (s.qmg.links.find? (fun e =>
      if e.2.perTarget then e.2.firstPool ≤ p && p < e.2.firstPool + e.2.targets else e.2.firstPool == p)).map
    (fun e => e.2.firstQueue + (if e.2.perTarget then p - e.2.firstPool else 0))

/-- Give a producing core the buffer it allocated: its unit holds it, to push at its end, or as a Strata slot
whose handle went ahead. -/
def holdOutput (c : Nat) (q : Option Nat) (h : W64) (s : State) : State :=
  s.modCore c (fun k => { k with run := k.run.map (fun u =>
    match q with
    | some n => { u with outputs := u.outputs ++ [(n, h)] }
    | none => { u with ahead := u.ahead ++ [h] }) })

/-! ### How a unit of work stops -/

/-- The handle with which a unit pushes an output: FLAG when the unit is flagged, CORRECTED after a clean
re-execution, LAST on the last piece of the item, CHECK_TAG from the metadata (R170, R174). -/
def outHandle (s : State) (u : UnitInst) (h : W64) : W64 :=
  let x := ofHandle h
  let b := s.buffer x.pool x.index
  ({ x with flag := u.causes.any (fun f => flagState f != .corrected),
            corrected := u.causes.any (fun f => flagState f == .corrected), last := u.last,
            tag := b.crc.toNat % 256 } : Handle).toWord

/-- The 32 bytes of the metadata record of a buffer (R174). -/
def Buffer.record (b : Buffer) : List Byte :=
  toBytes 8 b.seq ++ toBytes 8 b.stamp ++ toBytes 4 b.crc.toNat ++ toBytes 1 b.gen ++ toBytes 1 b.returns ++
    toBytes 1 b.cause ++ toBytes 1 0 ++ toBytes 4 b.len ++ toBytes 2 b.stream ++ toBytes 2 0

/-- The address of the metadata record of buffer `i` (R174). -/
def PoolSt.recordAt (pl : PoolSt) (i : Nat) : Nat := pl.metaBase + 32 * i

/-- The check value and the length of an output whose payload the stream engine of its producer has written (R174); of a
payload that no operand carries the check value is a free value.
DESIGN CHOICE: log entry 100. -/
def checkOutput (payload : Option (List Byte)) (h : W64) (s : State) : State :=
  let x := ofHandle h
  match payload with
  | some bs => s.modBuffer x.pool x.index (fun b => { b with crc := crc32c bs, len := bs.length, checked := true })
  | none =>
    let (v, s1) := s.drawWord
    s1.modBuffer x.pool x.index (fun b => { b with crc := v, checked := true })

/-- The first flag of a list of causes: none when nothing but corrected ones stands there. -/
def firstFlag (causes : List Nat) : Option Nat :=
  match causes.filter (fun f => flagState f != .corrected) with
  | [] => none
  | f :: fs => some ((((f :: fs).map flagCause).find? (· != 0)).getD 0)

/-- The metadata that a unit leaves with an output buffer: sequence number, stamp copied onward, stream and
the cause of the first flag, which stands (R174). -/
def stampOutput (u : UnitInst) (h : W64) (s : State) : State :=
  let x := ofHandle h
  let stamp := match u.inputs with
    | [] => 0
    | i :: _ => (s.buffer (ofHandle i).pool (ofHandle i).index).stamp
  let first := (firstFlag u.causes).getD 0
  s.modBuffer x.pool x.index (fun b =>
    { b with seq := u.seq, stamp := stamp, stream := u.stream, beyond := u.beyond,
             cause := if b.cause = 0 then first else b.cause })

/-- Note that a stage slot has pushed an output of an item, and whether with LAST set (R92, R309).
DESIGN CHOICE: log entry 66. -/
def notePushed (u : UnitInst) (s : State) : State :=
  s.modStream u.stream (fun st =>
    { st with items := st.items.map (fun it =>
        if it.seq = u.seq then
          { it with tiles := Tab.insert it.tiles u.slot (addOnce (Tab.get it.tiles [] u.slot) u.tile),
                    pushed := if u.last then addOnce it.pushed u.slot else it.pushed }
        else it) })

/-- Push the outputs that a unit of core `c` holds as it stops: what has been written of them is no payload. -/
def pushOutputs (c : CoreNum) (u : UnitInst) (s : State) : State :=
  notePushed u (forEach u.outputs (fun o s =>
    let s1 := checkOutput (some []) o.2 (stampOutput u o.2 s)
    push (.core c) o.1 (outHandle s1 u o.2) s1) s)

/-- Drop a unit's accumulator entries (R64). -/
def CoreSt.dropAcc (c : CoreSt) : CoreSt := { c with acc := [], k1 := [], sumk := [], steps := [], rowScale := [] }

/-- The units of a block that stops wait on their own again (R96).
DESIGN CHOICE: log entry 67. -/
def CoreSt.unjoin (c : CoreSt) : CoreSt := { c with ready := c.ready.map (fun u => { u with joined := false }) }

/-- The fault record of an ABFT event of a tile, which follows its event once the outcome of a re-execution is known (R43,
R45, R298); it carries the time of the detection (R301).
DEDUCED: log entry 31. -/
def reportOwed (c : Nat) (u : UnitInst) (corrected : Bool) (s : State) : State :=
  let one (cause : Nat) (s : State) : State :=
    if cause = 0 then s
    else
      reportAt u.owedAt { unitEv c u cause (if cause = Cause.abft then Bit.coreAbft else Bit.coreAcc) with
        corrected := corrected, phase := 2 } s
  one u.owed (one u.retry s)

/-- The unit of core `c` stops under R64: no more rows, its accumulator entries discarded, nothing written,
every handle it holds straight to its free queue, and IDLE. -/
def stopUnit (c : Nat) (s : State) : State :=
  match (s.core c).run with
  | none => s
  | some u =>
    let s1 := s.modCore c (fun k =>
      { k.dropAcc.unjoin with
        run := none, seq := if k.seq = .faulted ∨ k.seq = .test then k.seq else .idle,
        bundles := 0, strands := 0 })
    reportOwed c u false (forEach (u.inputs ++ u.outputs.map (·.2) ++ u.ahead) forceFree (dropWaits c s1))

end Sys2Proof.Machine
end

