-- ==== Sys2Proof/Machine/Records.lean ====
section
/-! DEFINITION. Accepted items and result records: when a header is formed and what it carries (R20, R271,
R299, R302), the records that the QMG writes itself (R299, R310), and their egress (R218, R419, R420). -/

namespace Sys2Proof.Machine

open Sys2Proof Sys2Proof.Machine.Bits

/-! ### Invalidations in force (R302, R317) -/

/-- An invalidation that bears on the record of item `seq` of a stream whose header is formed now. -/
def Inval.bears (i : Inval) (id : Nat) (cls : SafetyClass) (seq : Nat) : Bool :=
  !i.withdraw && i.names id cls &&
    match i.scope with
    | .item n => n == seq
    | .fromNext => true
    | .copy _ => false

/-- Causes of the invalidations in force for an item of stream `id`: those that have landed, and SAFE_STATE
on every stream while the device is in the safe state (R299, R317).
DESIGN CHOICE: log entry 87. -/
def State.invCauses (s : State) (id : Nat) (cls : SafetyClass) (seq : Nat) : List Nat :=
  (if s.inSafe then [Cause.safeState] else []) ++
    (s.qmg.invals.filter (fun i => i.bears id cls seq)).map (·.cause)

/-! ### Items and formed records -/

/-- An accepted item of a stream that has no record yet. -/
def Stream.item? (st : Stream) (seq : Nat) : Option Item := st.items.find? (fun it => it.seq == seq)

/-- Insert by rising sequence number. -/
def insertItem (it : Item) : List Item → List Item
  | [] => [it]
  | x :: xs => if it.seq < x.seq then it :: x :: xs else x :: insertItem it xs

/-- Insert by rising sequence number. -/
def insertRec (r : Rec) : List Rec → List Rec
  | [] => [r]
  | x :: xs => if r.seq < x.seq then r :: x :: xs else x :: insertRec r xs

/-- Change an accepted item. -/
def State.modItem (s : State) (id seq : Nat) (f : Item → Item) : State :=
  s.modStream id (fun st => { st with items := st.items.map (fun it => if it.seq = seq then f it else it) })

/-- Form the record header of an accepted item: state and cause from its own flags and the invalidations in
force, with `calls` acting as ITEM invalidations, and the current placement epoch (R271, R299).  From now
on the item is recorded (R20).  No effect on an item that is not accepted or already recorded. -/
def formRecord (id seq : Nat) (own calls : List Nat) (payload : List Byte) (s : State) : State :=
  match s.stream? id with
  | none => s
  | some st =>
    match st.item? seq with
    | none => s
    | some it =>
      let v := recordVerdict own (calls ++ s.invCauses id st.cls seq)
      let r : Rec :=
        { stream := id, state := v.1, cause := v.2, placeEpoch := s.ctl.placeEpoch, seq := seq,
          stamp := it.stamp, payload := payload }
      s.modStream id (fun st =>
        { st with items := st.items.filter (fun it => it.seq != seq), formed := insertRec r st.formed })

/-- The flags that ING and TAL set on an accepted item (R299). -/
def itemFlags (id seq : Nat) (s : State) : List Nat :=
  (((s.stream? id).bind (·.item? seq)).map (·.causes)).getD []

/-- Byte 22 of the metadata of an item's ingress buffer: the first flag, and always 0 for a Strata slot (R174, R299). -/
def ingressData (st : Stream) (it : Item) (s : State) : List Nat :=
  if (s.stageOf st 0).any (fun d => d.mode == .strata) then [] else it.causes.take 1

/-- A record that the QMG writes itself, from the own data `own`: `cause` acts as an ITEM invalidation (R299).  No rule states
its payload: a free value. -/
def qmgRecordOf (id seq : Nat) (own : List Nat) (cause : Nat) (s : State) : State :=
  formRecord id seq own [cause] (Config.freePayload s.free) { s with free := s.free + 1 }

/-- A record that the QMG writes itself: its own data is the flag in the metadata of its ingress buffer (R299). -/
def qmgRecord (id seq cause : Nat) (s : State) : State :=
  match (s.stream? id).bind (fun st => (st.item? seq).map (fun it => (st, it))) with
  | none => s
  | some (st, it) => qmgRecordOf id seq (ingressData st it s) cause s

/-- The record of an item that ING discarded: no buffer holds its data (R84, R195, R299). -/
def discardRecord (id seq cause : Nat) (s : State) : State :=
  if ((s.stream? id).bind (·.item? seq)).isNone then s else qmgRecordOf id seq [] cause s

/-- The QMG writes the record of every item that stream `id` accepted and has not recorded, in ascending
order (R199, R371, R386, R391, R395). -/
def recordAll (cause id : Nat) (s : State) : State :=
  match s.stream? id with
  | none => s
  | some st => forEach (st.items.map (·.seq)) (fun q s => qmgRecord id q cause s) s

/-- The same for every stream. -/
def recordEverything (cause : Nat) (s : State) : State :=
  forEach (s.streams.map (·.1)) (fun id s => recordAll cause id s) s

/-- Accept a line, frame, sweep or job item: from now on it yields one record (R20, R227, R228). -/
def acceptItem (id : Nat) (it : Item) (s : State) : State :=
  s.modStream id (fun st => { st with items := insertItem { it with epoch := st.epoch } st.items })

/-! ### Egress (R419, R420) -/

/-- State code of a record header (R420). -/
def RecState.code (r : RecState) : Nat := r.rank

/-- Bytes 0 to 59 of a record header (R420). -/
def Rec.header (r : Rec) : List Byte :=
  toBytes 2 r.stream ++ toBytes 1 r.state.code ++ toBytes 1 r.cause ++ toBytes 4 r.placeEpoch ++
    toBytes 8 r.seq ++ toBytes 8 r.stamp ++ toBytes 4 r.payload.length ++ toBytes 2 1 ++ toBytes 30 0

/-- Bytes 60 to 63: CRC-32C over header bytes 0 to 59 and the payload (R420). -/
def Rec.crc (r : Rec) : W32 := crc32c (r.header ++ r.payload)

/-- Send a record on its stream's egress: the PCIe ring slot of its sequence number, header last (R419), or
one UDP datagram (R218).
DESIGN CHOICE: log entry 69.
DESIGN CHOICE: log entry 71. -/
def sendRecord (st : Stream) (r : Rec) (s : State) : State :=
  if st.decl.egress = 0 then s.emit (.record st.decl.egFn (r.seq % 2 ^ st.ringLog2) r r.crc)
  else s.emit (.datagram st.decl.egLane st.decl.egAddr st.decl.egPort r r.crc)

/-- The oldest record of a stream that may leave: no item accepted before it still lacks its record, so
records leave in ascending order (R20). -/
def Stream.nextOut (st : Stream) : Option Rec :=
  match st.formed with
  | [] => none
  | r :: _ => if st.items.any (fun it => it.seq < r.seq) then none else some r

/-- Send every record of a stream that is formed, oldest first (R20). -/
def sendFormed (id : Nat) (s : State) : State :=
  match s.stream? id with
  | none => s
  | some st => forEach st.formed (sendRecord st) (s.modStream id (fun st => { st with formed := [] }))

end Sys2Proof.Machine
end

