-- ==== Sys2Proof/Machine/Settings.lean ====
section
/-! DEFINITION. Settings records (R428 to R430): which record counts, the ranges of their fields, the append with its
compaction, and the records that firmware writes itself (R143, R152, R161, R387). -/

namespace Sys2Proof.Machine

open Sys2Proof Sys2Proof.Machine.Bits

/-- A field of a record's value lies between `lo` and `hi`. -/
def fieldIn (type k lo hi : Nat) (v : List Byte) : Bool :=
  lo ≤ Config.settingField type k v && Config.settingField type k v ≤ hi

/-- A property that the value of a partition record gives lies between `lo` and `hi`; one that it omits takes its default (R262). -/
def partIn (k lo hi : Nat) (v : List Byte) : Bool := !Config.settingHas 0x0010 k v || fieldIn 0x0010 k lo hi v

/-- Every field of a host-owned record lies within the range that the manual gives it (R428).  Field numbers are
the model's: they follow the order of R430 (log entry 24). -/
def settingInRange (type : Nat) (v : List Byte) : Bool :=
  if type = 0x0010 then
    partIn 0 0 2 v && partIn 1 0 160 v && partIn 4 0 0xFFFF v && partIn 5 0 64 v && partIn 6 0 60 v && partIn 7 0 0x1FFFF v
  else if type = 0x0011 then fieldIn type 0 0 15 v && fieldIn type 1 0 1023 v && fieldIn type 2 0 16 v
  else if type = 0x0020 then fieldIn type 0 0 2 v && fieldIn type 1 0 23 v
  else if type = 0x0030 then fieldIn type 0 100 100000 v && fieldIn type 1 1 1000 v
  else if type = 0x0040 then fieldIn type 0 0 2 v && fieldIn type 1 1 24 v && fieldIn type 2 1 4 v && fieldIn type 3 0 1 v
  else if type = 0x0041 then
    (Config.settingField type 0 v == 0 || fieldIn type 0 16 256 v) && Config.settingField type 1 v % 65536 == 0 &&
      fieldIn type 2 0 1 v && fieldIn type 3 1 1000 v
  else if type = 0x0050 then fieldIn type 0 150 450 v && fieldIn type 1 0 0xFFF v
  else if type = 0x0060 then fieldIn type 0 0 7 v
  else true

/-- The record that counts for a type and instance: the one of the highest generation, the later of two of one
generation, among those that the device does not ignore (R428). -/
def countingIn : List Setting → (type inst : Nat) → Option Setting
  | [], _, _ => none
  | x :: xs, type, inst =>
    match countingIn xs type inst with
    | none => if x.type = type ∧ x.inst = inst ∧ settingInRange x.type x.value then some x else none
    | some y =>
      if x.type = type ∧ x.inst = inst ∧ settingInRange x.type x.value ∧ y.gen < x.gen then some x else some y

/-- The value that counts for a type and instance. -/
def Nvm.setting (n : Nvm) (type inst : Nat) : Option (List Byte) := (countingIn n.settings type inst).map (·.value)

/-- A field of the record that counts, `d` where there is none.
DESIGN CHOICE: log entry 24. -/
def Nvm.fieldOf (n : Nvm) (type inst k d : Nat) : Nat :=
  ((n.setting type inst).map (Config.settingField type k)).getD d

/-- Bytes of a record in the sector: header and value, padded to 16 (R428). -/
def Setting.bytes (x : Setting) : Nat := 16 * ceilDiv (16 + x.value.length) 16

/-- Bytes that the records of a sector take. -/
def sectorUse (xs : List Setting) : Nat := Config.sectorHeader + (xs.map Setting.bytes).sum

/-- Compaction: the record that counts for each type and instance goes to the other sector, under the next sector
generation (R429). -/
def Nvm.compact (n : Nvm) : Nvm :=
  { n with
    settings := n.settings.filter (fun x => countingIn n.settings x.type x.inst == some x)
    badCrc := 0
    sectorGen := n.sectorGen + 1 }

/-- Append a record, compacting a full sector of 256 KiB first (R429). -/
def Nvm.append (n : Nvm) (x : Setting) : Nvm :=
  let m := if sectorUse n.settings + x.bytes ≤ 262144 then n else n.compact
  { m with settings := m.settings ++ [x] }

/-- The next generation of a type and instance. -/
def Nvm.nextGen (n : Nvm) (type inst : Nat) : Nat := ((countingIn n.settings type inst).map (·.gen + 1)).getD 0

/-- A record that firmware writes itself (R430: firmware-owned types). -/
def firmwareRecord (type inst : Nat) (value : List Byte) (s : State) : State :=
  { s with nvm := s.nvm.append { type := type, inst := inst, gen := s.nvm.nextGen type inst, value := value } }

/-- The highest minor that a release knows of a format major: no lower than what release 3.0 knows, and none of those lost that an earlier
release of the same format knew (R272); `free` is otherwise free.
DESIGN CHOICE: log entry 14. -/
def Ctl.minorOf (c : Ctl) (release : W32) (major first known free : Nat) : Nat :=
  max (if c.fwVer.toNat < release.toNat ∧ major = c.fmtMajor then known else if major = 3 then first else 0) (free % 256)

/-- The control complex runs a release of a format major, the current one (R272, R291). -/
def Ctl.runs (c : Ctl) (release : W32) (major free : Nat) : Ctl :=
  if c.fwVer = release then { c with fmtMajor := major }
  else
    { c with
      fwVer := release, fmtMajor := major
      minorCur := c.minorOf release major 0 c.minorCur (Config.freeNat free)
      minorPrev := c.minorOf release major 5 c.minorPrev (Config.freeNat (free + 1)) }

/-- Retirement records of core `n` (R387); instance 2n is its first and 2n + 1 its second (log entry 24). -/
def Nvm.retirements (v : Nvm) (n : Nat) : Nat :=
  (if (v.setting 0x0081 (2 * n)).isSome then 1 else 0) + (if (v.setting 0x0081 (2 * n + 1)).isSome then 1 else 0)

/-- Record the retirement of core `n` (R387). -/
def recordRetirement (n : Nat) (s : State) : State :=
  firmwareRecord 0x0081 (2 * n + min 1 (s.nvm.retirements n)) [] s

end Sys2Proof.Machine
end

