-- ==== Sys2Proof/Machine/Placements.lean ====
section
/-! DEFINITION. Placements: what comes into being when Lode places a stream and what goes when it is withdrawn
(R128, R131, R175, R176, R189, R262, R270), Bedrock mode (R365) and the start of a P-step change (R356), and
Lode's constraints as the device checks them (R266 to R268, R316). -/

namespace Sys2Proof.Machine

open Sys2Proof Sys2Proof.Machine.Bits

/-! ### P-step changes and Bedrock mode -/

/-- Start a change of quadrant `q` to step `t` (R356): none when it is there already or a change is under
way.  Up: the voltage is requested and the idle PLL relocks at once.  Down: the idle PLL relocks unless it is
at the target.  An armed REG_FAIL injection makes an upward request unacknowledged (R379). -/
def startStep (q t : Nat) (s : State) : State :=
  let x := s.quad q
  if x.change.isSome then s.modQuad q (fun x => { x with target := t })
  else if t = x.pstep then s.modQuad q (fun x => { x with target := t })
  else if x.pstep < t then
    let (inj, s1) := takeInj .pwr Bit.pwrRegFail s
    s1.modQuad q (fun x =>
      { x with target := t, idlePll := t, volt := t,
               change := some { target := t, up := true, since := s.clock, noAck := inj } })
  else
    s.modQuad q (fun x =>
      { x with target := t, idlePll := t,
               change := some { target := t, up := false, since := s.clock } })

/-- The stream whose stage the running re-placement moves. -/
def State.replStream (s : State) : Option Nat :=
  match s.ctl.repl with
  | none => none
  | some r => (s.streamIds (fun st => st.place.slots.any (fun p => p.slot.val == r.slot))).head?

/-- The running re-placement takes a stage of a SIMPLEX or TRIPLEX stream to quadrant `q`. -/
def State.movesSafety (s : State) (q : Nat) : Bool :=
  s.ctl.repl.any (fun r => r.new.any (fun n => coreQuad n == q)) &&
    (s.replStream.bind s.stream?).any (fun st => isSafety st.cls)

/-- Some core of quadrant `q` hosts, or is given, a stage of a SIMPLEX or TRIPLEX stream. -/
def State.hostsSafety (s : State) (q : Nat) : Bool := (quadCores q).any (fun n => s.safetyOn n) || s.movesSafety q

/-- Quadrants enter and leave Bedrock mode as their stages come and go (R365): on entry PWR orders step 6
and releases the dividers of the allocator and the guard. -/
def refreshBedrock (s : State) : State :=
  forEach [0, 1, 2, 3] (fun q s =>
    let b := s.hostsSafety q
    let was := (s.quad q).bedrock
    let s1 := s.modQuad q (fun x => { x with bedrock := b })
    if b && !was then
      startStep q 6 (s1.modQuad q (fun x => { x with divAlloc := false, divGuard := false }))
    else s1) s

/-- Every quadrant on which a stream has a stage is at step 6 with no change under way (R365). -/
def State.bedrockReady (s : State) (st : Stream) : Bool :=
  (st.cores.map coreQuad).all (fun q => (s.quad q).pstep == 6 && (s.quad q).change.isNone)

/-! ### Cores -/

/-- Clear a core's resident, slot and working regions (R131); the reserved region stays. -/
def CoreSt.clear (c : CoreSt) : CoreSt :=
  { c with sp := c.sp.filter (fun e => 0x7C000 ≤ e.1), spPoison := c.spPoison.filter (0x7C000 ≤ ·),
           wbuf := [] }

/-- A core that hosts a stage of the same partition already: contexts that share it keep their regions (R129, R131, R268). -/
def CoreSt.shared (c : CoreSt) (part : Nat) : Bool := !c.regions.isEmpty && c.part == part

/-- First word of the regions of a further stage on a core. -/
def CoreSt.nextBase (c : CoreSt) (part : Nat) : Nat := if c.shared part then c.workBase else 0

/-- Words of the working region of a core with a further stage. -/
def CoreSt.workWords (c : CoreSt) (part : Nat) (d : StageDecl) : Nat :=
  if c.shared part then max (c.workEnd - c.workBase) d.working else d.working

/-- The regions of a stage from word `base` up. -/
def regionOf (slot image stage base : Nat) (d : StageDecl) : Region :=
  { slot := slot, base := base, slots := base + d.resident, stop := base + d.resident + d.slots, ringWords := d.ringWords,
    image := image, stage := stage, weights := stageWeights d }

/-- Give a core to a stage (R69, R128, R129, R131): its regions are laid out and cleared.  On a core that hosts another
stage of the partition the regions of the two stand one after the other, nothing is cleared, and the working region is
theirs in common. -/
def CoreSt.host (c : CoreSt) (slot part image stage : Nat) (d : StageDecl) : CoreSt :=
  let r := regionOf slot image stage (c.nextBase part) d
  let work := c.workWords part d
  if c.shared part then
    { c with slot := slot, slotBase := r.slots, workBase := r.stop, workEnd := r.stop + work, regions := c.regions ++ [r] }
  else
    { c.clear with
      slot := slot, part := part, slotBase := r.slots, workBase := r.stop, workEnd := r.stop + work, regions := [r],
      rings := if d.ringWords = 0 then [] else [(r.slots - d.ringWords, d.ringWords)],
      ready := [], run := none, drainReq := false, ringFlag := 0, ringUntil := 0, ringLines := 0, ringSeq := none }

/-- One of the stages that share a core leaves it; the last that remains gives its slot. -/
def CoreSt.unhost (c : CoreSt) (slots : List Nat) : CoreSt :=
  let rs := c.regions.filter (fun r => !slots.contains r.slot)
  { c with regions := rs, slot := (rs.getLast?.map (·.slot)).getD 0xFFFF,
           ready := c.ready.filter (fun u => !slots.contains u.slot) }

/-- Take a core out of its placement: no slot, its windows closed and unused, nothing ready (R69, R135). -/
def CoreSt.release (c : CoreSt) : CoreSt :=
  { c with slot := 0xFFFF, part := 0, regions := [], windows := c.windows.map (fun e => (e.1, { e.2 with state := .unused })),
           ready := [], run := none, ringFlag := 0, ringUntil := 0, drainReq := false,
           seq := if c.seq = .faulted ∨ c.seq = .test then c.seq else .idle }

/-! ### The 160 schedulable cores (R13, R14, R387) -/

/-- Schedulable cores. -/
def State.schedulable (s : State) : List Nat := allCores.filter (fun n => (s.core n).pool == .schedulable)

/-- Cores that a placement names though they are out of service or in the spare pool: for each, the re-placement of its
stages brings a spare into service (R386, R459). -/
def State.owedCores (s : State) : List Nat :=
  allCores.filter (fun n =>
    !(s.streamsOn n).isEmpty && ((s.core n).pool == .retired || (s.core n).pool == .spare))

/-- Some copy of a TRIPLEX stream stands in quadrant `q`. -/
def State.hostsTriplex (s : State) (q : Nat) : Bool :=
  s.streams.any (fun e => e.2.cls == .triplex && e.2.cores.any (fun n => coreQuad n == q))

/-- Number of spare cores of quadrant `q`. -/
def State.sparesIn (s : State) (q : Nat) : Nat := (s.spares.filter (fun n => coreQuad n == q)).length

/-- A spare that its quadrant, which hosts a TRIPLEX copy, is to keep (R269). -/
def State.keptSpare (s : State) (n : Nat) : Bool := s.hostsTriplex (coreQuad n) && s.sparesIn (coreQuad n) ≤ 2

/-- Spares that Lode may make schedulable: no placement and no running re-placement names them; those that no quadrant is to keep come
first, and among them cores with no retirement record (R269, R387).
DESIGN CHOICE: log entry 50. -/
def State.promotable (s : State) : List Nat :=
  let xs := s.spares.filter (fun n =>
    (s.streamsOn n).isEmpty && !s.ctl.repl.any (fun r => r.new.contains n) && !(s.quad (coreQuad n)).isolated)
  let loose := xs.filter (fun n => !s.keptSpare n)
  let clean := loose.filter (fun n => s.nvm.retirements n = 0)
  let once := loose.filter (fun n => s.nvm.retirements n ≠ 0)
  let k := Config.freeNat s.free % max 1 clean.length
  clean.drop k ++ clean.take k ++ once ++ xs.filter s.keptSpare

/-- Lode brings the schedulable cores back to 160 while there are spares (R13, R387): those that pending re-placements will
bring count.
DESIGN CHOICE: log entry 50. -/
def rebalance (s : State) : State :=
  let k := 160 - (s.schedulable.length + s.owedCores.length)
  if k = 0 then s
  else
    { forEach (s.promotable.take k) (fun n s => s.modCore n (fun c => { c with pool := .schedulable })) s with
      free := s.free + 1 }

/-- Every quadrant that hosts a TRIPLEX copy has 2 spares, as long as the pool holds 8 cores (R269). -/
def State.sparesEven (s : State) (quads : List Nat) : Bool := s.spares.length < 8 || quads.all (fun q => 2 ≤ s.sparesIn q)

/-- One spare more for quadrant `q`: an idle schedulable core of it changes places with a spare that no quadrant is to keep (R265,
R269).
DESIGN CHOICE: log entry 50. -/
def shiftSpare (q : Nat) (s : State) : State :=
  if s.sparesEven [q] then s
  else
    match (s.schedulable.filter (fun n => coreQuad n == q && (s.streamsOn n).isEmpty)).head?,
        (s.promotable.filter (fun n => !s.keptSpare n)).head? with
    | some c, some d =>
      (s.modCore c (fun x => { x with pool := .spare })).modCore d (fun x => { x with pool := .schedulable })
    | _, _ => s

/-- At a re-placement Lode shifts spares to the quadrants that host a TRIPLEX copy and lack them (R265, R269).
DESIGN CHOICE: log entry 50. -/
def evenSpares (s : State) : State :=
  forEach ([0, 1, 2, 3].filter s.hostsTriplex) (fun q s => shiftSpare q (shiftSpare q s)) s

/-- Schedulable cores beyond 160 that host nothing go to the spare pool (R13).
DESIGN CHOICE: log entry 50. -/
def trimPool (s : State) : State :=
  let idle := s.schedulable.filter (fun n => (s.streamsOn n).isEmpty)
  forEach (idle.take (s.schedulable.length - 160)) (fun n s => s.modCore n (fun c => { c with pool := .spare })) s

/-! ### Pools, queues and links -/

/-- The smallest LOG2_DEPTH whose ring holds `n` entries (R176, R181). -/
def depthFor (n : Nat) : Nat :=
  ((List.range 16).find? (fun k => n ≤ 2 ^ (k + 3))).getD 15

/-- The stage that the cores of a STRATA_SLOT pool host. -/
def windowStage (s : State) (st : Stream) (p : PoolPlan) : Option StageDecl :=
  (p.windowCores.head?.bind (fun c => st.slotOf c.val)).bind (fun sl => s.stageOf st sl.stage)

/-- Targets of the windows of a STRATA_SLOT pool: those of the stage that its cores host (R82, R133). -/
def targetsOf (s : State) (st : Stream) (p : PoolPlan) : List (List Nat) := ((windowStage s st p).map (·.targets)).getD []

/-- Alignment of a pool's base: 256 bytes for DRAM, 64 for the others, and of a STRATA_SLOT pool, whose base is a word address, 16
words (R175). -/
def poolAlign (kind : Nat) : Nat := if kind = 3 then 256 else if kind = 1 then 16 else 64

/-- The state of a pool from its plan. -/
def poolOf (s : State) (id : Nat) (st : Stream) (p : PoolPlan) : PoolSt :=
  { kind := p.kind, part := st.part, units := p.units, count := p.count, base := p.base,
    metaBase := p.metaBase, consumers := p.consumers, freeQueue := p.freeQueue.val,
    windowCores := p.windowCores.map (·.val), window0 := p.window0, targets := targetsOf s st p,
    ingress := p.ingress, stream := some id, copy := p.copy }

/-- The address, 64-byte aligned, of the ring of a vein's or pool's queue in device DRAM (LOC 0): firmware chooses it and no rule
says where, so it is a free value.
DESIGN CHOICE: log entry 102. -/
def ringAt (s : State) (q : Nat) : Nat := Config.freeNat (s.free + q) % 2 ^ 58 * 64

/-- Create a pool: every buffer at generation 1 in its free queue, in ascending INDEX order, and one window
per buffer in each core of the consuming sub-group (R172, R175, R176). -/
def createPool (id : Nat) (st : Stream) (p : PoolPlan) (s : State) : State :=
  let pl := poolOf s id st p
  let handles := (List.range p.count).map (fun i => (freeHandle p.pool pl i 1 0, ([] : List Nat)))
  let s1 := s.modQmg (fun m =>
    { m with
      pools := Tab.insert m.pools p.pool pl
      buffers := m.buffers.filter (fun e => e.1 / 2 ^ 18 != p.pool)
      queues := (Tab.insert m.queues p.freeQueue.val
        { type := .free, state := .armed, part := st.part, ctx := st.ctx, pool := p.pool,
          fn := (s.ctx st.ctx).fn, log2Depth := depthFor p.count, ringBase := ringAt s p.freeQueue.val, entries := handles, tail := p.count % 2 ^ 19,
          epoch := 0xFFFF, stream := some id, copy := p.copy }) })
  if p.kind = 1 then
    forEach pl.windowCores (fun c s =>
      s.modCore c (fun k =>
        (List.range p.count).foldl (fun k i =>
          k.modWindow (p.window0 + i) (fun w =>
            { w with base := p.base + i * p.units * 16, len := p.units * 16, part := st.part,
                     state := .closed })) k)) s1
  else s1

/-- Write a DATA queue and its fan-out entry (R187, R189). -/
def createQueue (id : Nat) (st : Stream) (q : QueuePlan) (s : State) : State :=
  s.modQmg (fun m =>
    { m with
      fanouts := Tab.insert m.fanouts q.fanout (q.consumers.map (·.val))
      queues := (Tab.insert m.queues q.queue.val
        { type := .data, state := .armed, part := st.part, ctx := st.ctx, outLimit := q.outLimit,
          fn := (s.ctx st.ctx).fn, ringBase := ringAt s q.queue.val, fanout := q.fanout, log2Depth := q.log2Depth, epoch := 0xFFFF, stream := some id,
          copy := q.copy }) })

/-- Write a link entry (R186). -/
def createLink (l : LinkPlan) (s : State) : State :=
  s.modQmg (fun m =>
    { m with links := (Tab.insert m.links l.link
        { firstQueue := l.firstQueue.val, firstPool := l.firstPool, perTarget := l.perTarget,
          targets := l.targets, steer := l.steer }) })

/-- Word `w` of a resident region: of the declared weights, else one that the commands do not carry.
DESIGN CHOICE: log entry 44. -/
def Region.word (r : Region) (w : Nat) : W32 := (Tab.find r.weights w).getD (Config.residentWord r.image r.stage w)

/-- Load the resident words of a region, those below its line rings, from the stage image: every core loads the same (R31). -/
def CoreSt.loadRegion (c : CoreSt) (r : Region) : CoreSt :=
  (List.range (r.slots - r.base - r.ringWords)).foldl (fun c w => c.writeWord (r.base + w) (r.word w)) c

/-- Give a core to a stage: cleared, then loaded (R131, R286). -/
def hostCore (slot part image stage : Nat) (d : StageDecl) (n : Nat) (s : State) : State :=
  s.modCore n (fun c =>
    (c.host slot part image stage d).loadRegion (regionOf slot image stage (c.nextBase part) d))

/-- Give the cores of a slot to its stage. -/
def hostSlot (st : Stream) (p : SlotPlan) (s : State) : State :=
  let d := (s.stageOf st p.stage).getD { mode := .frame }
  let s1 := forEach (p.cores.map (·.val)) (hostCore p.slot.val st.part st.image p.stage d) s
  { s1 with slotEpochs := Tab.insert s1.slotEpochs p.slot.val s1.ctl.placeEpoch }

/-- Carry out a placement in one step (R189, R265): cores, pools, queues, links, vote units and Bedrock. -/
def placeStream (id : Nat) (st : Stream) (s : State) : State :=
  let s1 := forEach st.place.slots (hostSlot st) s
  let s2 := forEach st.place.pools (createPool id st) s1
  let s3 := forEach st.place.queues (createQueue id st) s2
  let s4 := forEach st.place.links createLink s3
  let n := st.place.votes.length
  let s5 := forEach (st.place.votes.zipIdx) (fun v s =>
    s.modVote v.1.val (fun u => { u with stream := some id, record := v.2 + 1 == n, held := [], retired := [] })) s4
  refreshBedrock s5

/-- Withdraw a stream: its declaration goes, its cores, pools, queues, links and vote units are released, its
ports and detectors unbound (R262). -/
def withdrawStream (id : Nat) (s : State) : State :=
  match s.stream? id with
  | none => s
  | some st =>
    let mine := st.cores.filter (fun n => !(s.streams.any (fun e => e.1 != id && e.2.hosts n)))
    let both := st.cores.filter (fun n => !mine.contains n)
    let s1 := forEach both (fun n s => s.modCore n (fun c => c.unhost (st.place.slots.map (·.slot.val))))
      (forEach mine (fun n s => s.modCore n CoreSt.release) s)
    let s2 := s1.modQmg (fun m =>
      { m with
        pools := m.pools.filter (fun e => e.2.stream != some id)
        queues := m.queues.filter (fun e => e.2.stream != some id)
        links := m.links.filter (fun e => !(st.place.links.any (fun l => l.link == e.1)))
        fanouts := m.fanouts.filter (fun e => !(st.place.queues.any (fun q => q.fanout == e.1)))
        votes := m.votes.filter (fun e => e.2.stream != some id)
        shown := m.shown.filter (fun x => x.stream != id)
        invals := m.invals.filter (fun i => i.target != .stream id) })
    let s3 := { s2 with
      ports := s2.ports.map (fun e => (e.1, { e.2 with bind := e.2.bind.filter (fun b => b.2 != id) }))
      tal := { s2.tal with
        groups := s2.tal.groups.map (fun e =>
          (e.1, { e.2 with members := e.2.members.filter (fun m => m.2 != id) }))
        detectors := s2.tal.detectors.filter (fun e => e.2.stream != id) }
      streams := Tab.erase s2.streams id }
    refreshBedrock s3

/-! ### What Lode never breaks (R17, R266 to R268, R305, R325) -/

/-- A core that Lode may use: schedulable, in service, its quadrant not isolated. -/
def State.usable (s : State) (n : Nat) : Bool :=
  (s.core n).pool == .schedulable && !(s.hdr (.core n)).isolated && !(s.quad (coreQuad n)).isolated

/-- Cores that the declared streams of partition `p` hold. -/
def State.coresHeld (s : State) (p : Nat) : List Nat :=
  ((s.streams.filter (fun e => e.2.part == p)).map (fun e => e.2.cores)).flatten.eraseDups

/-- A job stream declared SHAREABLE (R268). -/
def Stream.shares (st : Stream) : Bool := st.decl.kind == 4 && st.decl.shareable && st.cls != .triplex

/-- The core sharing rules of R268 between stream `a` and another declared stream `b`: disjoint cores, or
two SHAREABLE job streams of one partition. -/
def sharingOk (a b : Stream) : Bool :=
  (a.shares && b.shares && a.part == b.part && !a.decl.exclusive && !b.decl.exclusive) ||
    a.cores.all (fun c => !b.cores.contains c)

/-- Quadrants of the cores of copy `k`. -/
def Stream.copyQuads (st : Stream) (k : Nat) : List Nat :=
  (((st.place.slots.filter (fun p => p.copy == k)).map (fun p => p.cores.map (fun c => coreQuad c.val))).flatten).eraseDups

/-- R267: each copy of a TRIPLEX stream within one quadrant and no two sharing one. -/
def Stream.diverse (st : Stream) : Bool :=
  st.cls != .triplex ||
    ((st.copyQuads 0).length == 1 && (st.copyQuads 1).length == 1 && (st.copyQuads 2).length == 1 &&
      st.copyQuads 0 != st.copyQuads 1 && st.copyQuads 0 != st.copyQuads 2 && st.copyQuads 1 != st.copyQuads 2)

/-- Cores placed for copy `k` of a TRIPLEX stream, for the whole of any other (R266, R274). -/
def Stream.coresOfCopy (st : Stream) (k : Nat) : Nat :=
  ((st.place.slots.filter (fun p => p.copy == k || st.cls != .triplex)).map (fun p => p.cores.length)).sum

/-- Cores placed per copy, as DETAIL counts them (R266, R274). -/
def Stream.coresPerCopy (st : Stream) : Nat := st.coresOfCopy 0

/-- The buffer placement of a CONSTRAINT item (R266): 1 scratchpad, 2 DRAM cached, 3 DRAM not allocated. -/
def Stream.placedAsAsked (st : Stream) : Bool :=
  st.place.pools.all (fun p => (p.kind != 2 && p.kind != 3) || st.decl.bufPlace == 0 ||
    (if st.decl.bufPlace = 1 then p.kind == 2 else p.kind == 3 && (p.home == some .noAllocate) == (st.decl.bufPlace == 3)))

/-- The home of a pool lies in quadrant `q` (R267). -/
def homedIn (q : Nat) : Option PoolHome → Bool
  | some (.slice k) => sliceQuad k.val == q
  | some (.quadrant r) => r.val == q
  | some .noAllocate => false
  | none => true

/-- The pools of each copy of a TRIPLEX stream lie in its quadrant: the windows of its Strata slots, and the homes of those of its DRAM
pools that Lode homes (R150, R267). -/
def Stream.poolsInQuad (st : Stream) : Bool :=
  st.cls != .triplex || st.place.pools.all (fun p =>
    match st.copyQuads p.copy with
    | q :: _ => p.windowCores.all (fun c => coreQuad c.val == q) && (p.kind != 3 || p.ingress || homedIn q p.home)
    | [] => false)

/-- The constraints of R266 on the cores of a placement. -/
def Stream.constrained (st : Stream) : Bool :=
  (st.decl.quadMask % 16 == 0 || st.cores.all (fun n => st.decl.quadMask.testBit (coreQuad n))) &&
    (st.decl.maxCores == 0 || [0, 1, 2].all (fun k => st.coresOfCopy k ≤ st.decl.maxCores)) && st.placedAsAsked

/-- The placement check of R316, and of Lode before it: R266, R267, R268 and the partition's ownership. -/
def placementOk (id : Nat) (st : Stream) (s : State) : Bool :=
  st.diverse && st.poolsInQuad && st.constrained &&
    s.streams.all (fun e => e.1 == id || sharingOk st e.2)

end Sys2Proof.Machine
end

