-- ==== Sys2Proof/Machine/Cache.lean ====
section
/-! DEFINITION. The shared cache and external memory: home slices (R150), allocation and write-back (R149, R151),
errors of slices (R153, R159) and of DMC channels (R156 to R158, R161), flushes and bypass (R152). -/

namespace Sys2Proof.Machine

open Sys2Proof Sys2Proof.Machine.Bits

/-! ### The extent of DRAM (R155 to R157) -/

/-- Active DMC channels, ascending. -/
def State.activeChans (s : State) : List Nat := (List.range 12).filter (fun c => (s.dmc c).mode == .active)

/-- Addressable bytes of DRAM: those of every active channel. -/
def State.dramSize (s : State) : Nat :=
  (s.activeChans.map (fun c => channelBytes (s.dmc c).density (s.dmc c).ranks)).sum

/-- The active channel that holds a DRAM offset (R157). -/
def State.chanOf (s : State) (off : Nat) : Nat :=
  let act := s.activeChans
  act.getD (dramLoc (max 1 act.length) off).channel 0

/-- First byte of the line of an offset. -/
def lineBase (off : Nat) : Nat := off / 64 * 64

/-! ### Home slices (R150, R165) -/

/-- A home-map entry holds an offset. -/
def HomeEntry.holds (e : HomeEntry) (off : Nat) : Bool :=
  e.base * 65536 ≤ off && off < (e.base + e.length) * 65536

/-- The bucket home of a line (R150 step 2). -/
def State.bucketHome (s : State) (l : Nat) : Nat :=
  let b := bucketOf l
  Tab.get s.mesh.buckets (b % 48) b

/-- Slices of a quadrant that are not bypassed, ascending. -/
def State.slicesOf (s : State) (q : Nat) : List Nat :=
  ((List.range 12).map (· + 12 * q)).filter (fun k => !(s.slice k).bypassed)

/-- The home slice of a DRAM offset, and whether its line is kept after a transfer (R150). -/
def State.home (s : State) (off : Nat) : Nat × Bool :=
  let l := off / 64
  match s.mesh.homes.find? (fun e => e.2.holds off) with
  | none => (s.bucketHome l, true)
  | some (_, e) =>
    match e.mode with
    | .slice => (e.target, true)
    | .noAllocate => (s.bucketHome l, false)
    | .quadrant =>
      let ks := s.slicesOf e.target
      (ks.getD (l % max 1 ks.length) (s.bucketHome l), true)

/-! ### DMC accesses (R156, R158, R161) -/

/-- The device address of a DRAM offset (R150). -/
def deviceAddr (off : Nat) : Nat := 0x10000000000 + off

/-- 24 hours in ns. -/
def dayNs : Nat := 86400000000000

/-- Count an uncorrectable error of a channel: the poisoned line, the register, the report, and the map-out request
after 16 within 24 h (R158, R161). -/
def dmcUncorr (c off ctx part : Nat) (s : State) : State :=
  let recent := s.clock :: (s.dmc c).uncorrAt.filter (fun t => s.clock < t + dayNs)
  let s1 := s.modDmc c (fun d =>
    { d with eccUncorr := sat32 (d.eccUncorr + 1), uncorrAt := recent, mapOut := d.mapOut || 16 ≤ recent.length })
  let s2 := { s1 with dramPoison := addOnce s1.dramPoison (off / 64) }
  report { unit := 0xC3, cause := Cause.memPoison, ctx := ctx, part := part, bit := Bit.dmcEccUncorr, cls := 2 }
    (raiseAt (.dmc c) Bit.dmcEccUncorr (deviceAddr (lineBase off)) none s2)

/-- What a read of the line at `off` meets at its channel: the codes' findings and the armed injections (R158,
R169).  The Bool says that the line returns poisoned. -/
def dmcRead (off : Nat) (u : DramUpset) (ctx part : Nat) (s : State) : Bool × State :=
  let c := s.chanOf off
  let (ic, s1) := takeInj (.dmc c) Bit.dmcEccCorr s
  let (iu, s2) := takeInj (.dmc c) Bit.dmcEccUncorr s1
  let (lc, s3) := takeInj (.dmc c) Bit.dmcLinkCorr s2
  let (lu, s4) := takeInj (.dmc c) Bit.dmcLinkUncorr s3
  let s5 := if lc || u == .linkCorr then
      raise (.dmc c) Bit.dmcLinkCorr (s4.modDmc c (fun d => { d with linkCorr := sat32 (d.linkCorr + 1) }))
    else s4
  let s6 := if lu || u == .linkTwice then raise (.dmc c) Bit.dmcLinkUncorr s5 else s5
  let s7 := if ic || u == .eccCorr then
      raise (.dmc c) Bit.dmcEccCorr (s6.modDmc c (fun d => { d with eccCorr := sat32 (d.eccCorr + 1) }))
    else s6
  let stored := s7.dramPoison.contains (off / 64)
  let s8 := if stored then raise (.dmc c) Bit.dmcPoison s7 else s7
  if iu || lu || u == .eccUncorr || u == .linkTwice then (true, dmcUncorr c off ctx part s8) else (stored, s8)

/-- The bytes that a poisoned line reads as: 0xBAD0_BAD0 in every word (R139, R413). -/
def poisonLine : List Byte := (List.replicate 16 (toBytes 4 0xBAD0BAD0)).flatten

/-- What the write of an access that also reads a line meets. -/
def writeHalf (u : DramUpset) : DramUpset := if u = .linkCorrWrite then .linkCorr else .clean

/-- A write to a channel: link ECC corrects a single-bit link error of the write data and counts it (R158). -/
def dmcWriteLink (off : Nat) (u : DramUpset) (s : State) : State :=
  let c := s.chanOf off
  if u = .linkCorr ∨ u = .linkCorrWrite then
    raise (.dmc c) Bit.dmcLinkCorr (s.modDmc c (fun d => { d with linkCorr := sat32 (d.linkCorr + 1) }))
  else s

/-- Write a full line to DRAM; a poisoned one with the poison pattern (R153, R156, R158). -/
def dramLine (off : Nat) (data : List Byte) (poison : Bool) (s : State) : State :=
  let s1 := s.storeDram (lineBase off) (data.take 64)
  { s1 with dramPoison := if poison then addOnce s1.dramPoison (off / 64) else dropAll s1.dramPoison (off / 64) }

/-! ### Ways and pseudo-LRU (R149, R151) -/

/-- Set of a line within its slice. -/
def setOf (l : Nat) : Nat := Config.shcSet l % 2048

/-- The way of a slice that holds a line. -/
def Slice.wayOf (k : Slice) (l : Nat) : Option Nat :=
  (List.range 16).find? (fun w => (Tab.find k.lines (setOf l * 16 + w)).any (fun x => x.line == l))

/-- Point the tree bits of a set away from a way: node n has children 2n and 2n + 1, way w is leaf 16 + w.
DESIGN CHOICE: log entry 19. -/
def plruTouch (t w : Nat) : Nat :=
  [0, 1, 2, 3].foldl (fun t k =>
    let node := (16 + w) / 2 ^ (k + 1)
    let dir := (16 + w) / 2 ^ k % 2
    let cleared := if t.testBit (node - 1) then t - 2 ^ (node - 1) else t
    if dir = 0 then cleared + 2 ^ (node - 1) else cleared) t

/-- A node's subtree holds an allowed way; `k` levels lie below it. -/
def allowedBelow (mask node k : Nat) : Bool :=
  (List.range 16).any (fun w => mask.testBit w && (16 + w) / 2 ^ k == node)

/-- Walk down the tree bits among the allowed ways.
DESIGN CHOICE: log entry 19. -/
def plruWalk (t mask : Nat) : (levels node : Nat) → Nat
  | 0, node => node - 16
  | k + 1, node =>
    let d := if t.testBit (node - 1) then 1 else 0
    plruWalk t mask k (if allowedBelow mask (2 * node + d) k then 2 * node + d else 2 * node + (1 - d))

/-- The victim way of a set under a way mask; none when the mask is 0.
DESIGN CHOICE: log entry 19. -/
def victim (t mask : Nat) : Option Nat := if mask % 65536 = 0 then none else some (plruWalk t mask 4 1)

/-- Touch a way of a slice. -/
def touchWay (k l w : Nat) (s : State) : State :=
  s.modSlice k (fun x => { x with plru := Tab.insert x.plru (setOf l) (plruTouch (Tab.get x.plru 0 (setOf l)) w) })

/-- Write a dirty line back and invalidate it; the write meets `u` at its channel (R158). -/
def evictWith (u : DramUpset) (k : Nat) (key : Nat) (s : State) : State :=
  match Tab.find (s.slice k).lines key with
  | none => s
  | some x =>
    let s1 := s.modSlice k (fun y => { y with lines := Tab.erase y.lines key })
    if x.dirty then
      dmcWriteLink (x.line * 64) u
        (dramLine (x.line * 64) x.data x.poison (s1.modSlice k (fun y => { y with writebacks := sat32 (y.writebacks + 1) })))
    else s1

/-- Write a dirty line back and invalidate it in a flush, which names no error: whether the write of a dirty line meets a single-bit link
error is a free value.
DESIGN CHOICE: log entry 128. -/
def evict (k : Nat) (key : Nat) (s : State) : State :=
  if (Tab.find (s.slice k).lines key).any (·.dirty) then
    evictWith (if Config.freeNat s.free % 2 = 1 then .linkCorr else .clean) k key { s with free := s.free + 1 }
  else evictWith .clean k key s

/-- Keep a line in a slice: the victim among the ways of the mask is evicted first, with what its write meets. -/
def allocLine (k mask : Nat) (x : CacheLine) (u : DramUpset) (s : State) : State :=
  match victim (Tab.get (s.slice k).plru 0 (setOf x.line)) mask with
  | none => s
  | some w =>
    let key := setOf x.line * 16 + w
    touchWay k x.line w ((evictWith u k key s).modSlice k (fun y => { y with lines := Tab.insert y.lines key x }))

/-- Replace bytes of a line. -/
def patch (line : List Byte) (off : Nat) (d : List Byte) : List Byte :=
  line.take off ++ d ++ line.drop (off + d.length)

/-! ### Flushes, re-homing and bypass (R152) -/

/-- Write back and invalidate the lines of a slice for which `p` holds. -/
def flushWhere (k : Nat) (p : CacheLine → Bool) (s : State) : State :=
  forEach (((s.slice k).lines.filter (fun e => p e.2)).map (·.1)) (evict k) s

/-- Lode changes the home of ranges: every line of them is written back and invalidated in its old home before the map is
rewritten (R152). -/
def rehome (ranges : List HomeEntry) (f : Tab HomeEntry → Tab HomeEntry) (s : State) : State :=
  let s1 := forEach (List.range 48) (fun k s =>
    flushWhere k (fun x => ranges.any (fun r => r.holds (x.line * 64))) s) s
  s1.modMesh (fun m => { m with homes := f m.homes })

/-- The offset in DRAM of a device address (R150). -/
def dramOffset (a : Nat) : Nat := if 0x10000000000 ≤ a then a - 0x10000000000 else a

/-- The home entry of the lines of a pool, with a mode and a target. -/
def homeEntryOf (p : PoolPlan) (mode : HomeMode) (target : Nat) : HomeEntry :=
  let off := dramOffset p.base
  { mode := mode, target := target, base := off / 65536,
    length := (off + p.count * p.units * 64 + 65535) / 65536 - off / 65536 }

/-- The quadrant of the stage group that a DRAM pool feeds, when that stage is in frame mode (R150). -/
def tileQuad (s : State) (st : Stream) (p : PoolPlan) : Option Nat :=
  ((queueOfPool s p.pool).bind (fun q => (s.consumers (s.queue q)).head?)).bind (fun c =>
    if ((st.slotOf c).bind (fun sl => s.stageOf st sl.stage)).any (fun d => d.mode == .frame) then some (coreQuad c) else none)

/-- The home entry of a DRAM pool: the one that Lode has chosen, a slice, a quadrant or no allocation (R265); else for the tile buffers of
a frame-mode stage the quadrant of its stage group (R150), and for a pool of a TRIPLEX copy the quadrant of the copy (R267).
DESIGN CHOICE: log entry 106. -/
def homeOfPool (s : State) (st : Stream) (p : PoolPlan) : Option HomeEntry :=
  if p.kind ≠ 3 then none
  else
    match p.home with
    | some (.slice k) => some (homeEntryOf p .slice k.val)
    | some (.quadrant q) => some (homeEntryOf p .quadrant q.val)
    | some .noAllocate => some (homeEntryOf p .noAllocate 0)
    | none =>
      let own := if st.cls = .triplex && !p.ingress then (st.copyQuads p.copy).head? else none
      ((tileQuad s st p).or own).map (homeEntryOf p .quadrant)

/-- The home entries that the pools of a stream call for. -/
def streamHomes (st : Stream) (s : State) : List HomeEntry := st.place.pools.filterMap (homeOfPool s st)

/-- Lode homes the DRAM pools of a placement, each in the lowest of the 1,024 MESH_HOME entries that is free (R150, R165); with none free a
pool keeps its bucket homes.
DESIGN CHOICE: log entry 106. -/
def homePools (st : Stream) (s : State) : State :=
  forEach (streamHomes st s) (fun e s =>
    match (List.range 1024).find? (fun k => (Tab.find s.mesh.homes k).isNone) with
    | none => s
    | some k => rehome [e] (fun t => Tab.insert t k e) s) s

/-- Home entries are given up, and the lines of their ranges leave their slices first (R152). -/
def dropHomes (old : List HomeEntry) (s : State) : State :=
  let es := old.filter (fun e => s.mesh.homes.any (fun h => h.2 == e))
  rehome es (fun t => t.filter (fun e => !es.contains e.2)) s

/-- The home entries of a placement that is withdrawn are given up (R150, R152). -/
def unhomePools (st : Stream) (s : State) : State := dropHomes (streamHomes st s) s

/-- The pools of a stream whose stage groups have moved to other quadrants change their homes from those of `old` (R150, R152). -/
def rehomePools (st : Stream) (old : List HomeEntry) (s : State) : State :=
  if streamHomes st s = old then s else homePools st (dropHomes old s)

/-- Withdraw a stream with the homes of its buffers: the records that are formed leave first, and its cores no longer wait for
a re-placement (R13, R20, R150, R262). -/
def dropStream (id : Nat) (s : State) : State :=
  match s.stream? id with
  | none => s
  | some st => rebalance (withdrawStream id (unhomePools st (sendFormed id s)))

/-- Bypass a slice: its buckets go to `takers` in turn, the ranges homed by its quadrant are flushed in every slice
of the quadrant, the slice is flushed, marked and isolated. -/
def bypassSlice (k : Nat) (takers : List Nat) (s : State) : State :=
  let q := sliceQuad k
  let mine := (List.range 192).filter (fun b => Tab.get s.mesh.buckets (b % 48) b == k)
  let s1 := flushWhere k (fun _ => true) s
  let s2 := s1.modMesh (fun m =>
    { m with buckets := mine.zipIdx.foldl (fun t e =>
        match takers[e.2 % max 1 takers.length]? with
        | none => t
        | some j => Tab.insert t e.1 j) m.buckets })
  let ranges := (s2.mesh.homes.filter (fun e => e.2.mode == .quadrant && e.2.target == q)).map (·.2)
  let s3 := forEach ((List.range 12).map (· + 12 * q)) (fun j s =>
    flushWhere j (fun x => ranges.any (fun r => r.holds (x.line * 64))) s) s2
  let s4 := s3.modSlice k (fun x => { x with bypassed := true, lines := [] })
  s4.modHdr (.shc k) (fun h => { h with isolate := true, isolated := true, en := false })

/-- Takers for a slice that the device bypasses itself: slices of its quadrant in service, which ones the manual
leaves to Lode. -/
def lodeTakers (k : Nat) (s : State) : List Nat × State :=
  let ks := (s.slicesOf (sliceQuad k)).filter (· != k)
  ((List.range 4).filterMap (fun i => ks[Config.freeNat (s.free + i) % max 1 ks.length]?), { s with free := s.free + 4 })

/-! ### The tables of the QMG in memory (R174, R181) -/

/-- The byte of a metadata array that lies at DRAM offset `a`: byte 32 × INDEX of a pool's array begins the record of a buffer (R174). -/
def State.metaByte (s : State) (a : Nat) : Option Byte :=
  (s.qmg.pools.find? (fun e => dramOffset e.2.metaBase ≤ a && a < dramOffset (e.2.recordAt e.2.count))).bind (fun e =>
    (s.buffer e.1 ((a - dramOffset e.2.metaBase) / 32)).record[(a - dramOffset e.2.metaBase) % 32]?)

/-- The byte of a queue's ring in DRAM that lies at offset `a`: entry k from HEAD on stands in place (HEAD + k) mod depth (R181). -/
def State.ringByte (s : State) (a : Nat) : Option Byte :=
  (s.qmg.queues.find? (fun e =>
    e.2.loc == 0 && dramOffset e.2.ringBase ≤ a && a < dramOffset e.2.ringBase + 8 * 2 ^ (e.2.log2Depth + 3))).bind (fun e =>
      let depth := 2 ^ (e.2.log2Depth + 3)
      let place := (a - dramOffset e.2.ringBase) / 8
      (e.2.entries[(place + depth - e.2.head % depth) % depth]?).bind (fun x => (toBytes 8 x.1.toNat)[(a - dramOffset e.2.ringBase) % 8]?))

/-- Bytes of DRAM from offset `off` on, as a reader finds them where the QMG keeps its tables: metadata records and queue entries.
DESIGN CHOICE: log entry 102. -/
def State.tablesOver (s : State) (off : Nat) (data : List Byte) : List Byte :=
  (data.zipIdx).map (fun x => ((s.metaByte (off + x.2)).or (s.ringByte (off + x.2))).getD x.1)

/-- What a line access returns to a reader. -/
def State.lineView (s : State) (off : Nat) (op : LineOp) (data : List Byte) : List Byte :=
  match op with
  | .read => s.tablesOver (lineBase off) data
  | _ => data

/-! ### Slice accesses (R151, R153, R159) -/

/-- A refused access beyond the addressable range (R159).
DESIGN CHOICE: log entry 29. -/
def rangeRefusal (k off ctx part : Nat) (s : State) : State :=
  report { unit := 0xC2, cause := Cause.memPoison, ctx := ctx, part := part, bit := Bit.shcRange }
    (raiseAt (.shc k) Bit.shcRange (deviceAddr off) (some (ctx, part)) s)

/-- The parts of a slice that have spare rows of their own: data sub-banks 0 to 31, and the copies of the tags as 32 and 33
(R142). -/
def Slice.sparesUsed (x : Slice) (part : Nat) : Nat :=
  if part < 32 then Tab.get x.dataUsed 0 part else if part = 32 then x.tagSpares else x.tagSpares1

/-- A part of a slice has used one more spare row. -/
def Slice.useSpare (x : Slice) (part : Nat) : Slice :=
  if part < 32 then { x with dataUsed := Tab.insert x.dataUsed part (x.sparesUsed part + 1) }
  else if part = 32 then { x with tagSpares := x.tagSpares + 1 }
  else { x with tagSpares1 := x.tagSpares1 + 1 }

/-- Spare rows of a part: 8 for each data sub-bank, 4 for each copy of the tags (R142). -/
def spareLimit (part : Nat) : Nat := if part < 32 then 8 else 4

/-- Instance of the settings record of the `nth` repair of a part of slice `k`.
DESIGN CHOICE: log entry 24. -/
def sliceRepairInst (k part nth : Nat) : Nat := 192 * 32768 + (k * 64 + part) * 16 + nth

/-- The device bypasses a slice itself, and records it (R142, R152). -/
def autoBypass (k : Nat) (s : State) : State :=
  let (ts, s1) := lodeTakers k s
  firmwareRecord 0x0082 k [] (bypassSlice k ts s1)

/-- Repair a row of a part of a slice: a spare row and its settings record, or the bypass of the slice where none is left
(R142, R143). -/
def repairSliceRow (k part row : Nat) (s : State) : State :=
  let used := (s.slice k).sparesUsed part
  if used < spareLimit part then
    firmwareRecord 0x0080 (sliceRepairInst k part used) []
      (s.modSlice k (fun x => { x.useSpare part with corrWords := x.corrWords.filter (fun e => e.1 != row) }))
  else autoBypass k s

/-- A corrected error of a word of a row; the row is repaired when it has yielded two at different words (R143).
DESIGN CHOICE: log entry 28. -/
def sliceCorrected (k part row word : Nat) (s : State) : State :=
  if (s.slice k).corrWords.any (fun e => e.1 == row && e.2 != word) then repairSliceRow k part row s
  else s.modSlice k (fun x => { x with corrWords := (row, word) :: x.corrWords.filter (fun e => e.1 != row) })

/-- Number of a row of the tags or of the data among all rows of a slice. -/
def sliceRow (part row : Nat) : Nat := part * 65536 + row % 65536

/-- Tag check of an access: a corrected error is counted, an error in one copy repairs its row, and an error in both copies
is fatal (R142, R143, R153, R389).  Which tag of the row a corrected error is at is a free value.
DESIGN CHOICE: log entry 28. -/
def tagCheck (k l : Nat) (u : Upset) (oneCopy : Bool) (copy : Nat) (s : State) : State :=
  let (inj, s1) := takeInj (.shc k) Bit.shcTagCorr s
  let part := 32 + copy
  let row := sliceRow part (Config.shcTagRow (setOf l))
  if u == .uncorrectable && !oneCopy then fatalError Fatal.shcTag (raise (.shc k) Bit.shcTagUncorr s1)
  else if inj || u != .clean then
    let s2 := raise (.shc k) Bit.shcTagCorr (s1.modSlice k (fun x => { x with eccCorr := sat32 (x.eccCorr + 1) }))
    if u == .uncorrectable then repairSliceRow k part row s2
    else sliceCorrected k part row (setOf l * 16 + Config.freeNat s2.free % 16) { s2 with free := s2.free + 1 }
  else s1

/-- The row and the part of a slice that hold a line. -/
def dataPlace (l w : Nat) : Nat × Nat :=
  let part := Config.shcSubBank (setOf l) w % 32
  (part, sliceRow part (Config.shcRow (setOf l) w))

/-- Data check of a hit: a corrected word is counted; an uncorrectable word invalidates a clean line, and poisons a
dirty one and writes it back so, which leaves the line clean and poisoned in the slice; the row is repaired (R143, R153).
Which word of the line a corrected error is at is a free value.
DESIGN CHOICE: log entry 28.
DESIGN CHOICE: log entry 113. -/
def dataCheck (k l w ctx part : Nat) (u : Upset) (dram : DramUpset) (s : State) : State :=
  let (ic, s1) := takeInj (.shc k) Bit.shcDataCorr s
  let (iu, s2) := takeInj (.shc k) Bit.shcDataUncorr s1
  let key := setOf l * 16 + w
  let (sb, row) := dataPlace l w
  let s3 := if ic || u == .corrected then
      sliceCorrected k sb row (key * 8 + Config.freeNat s2.free % 8)
        (raise (.shc k) Bit.shcDataCorr
          ({ s2 with free := s2.free + 1 }.modSlice k (fun x => { x with eccCorr := sat32 (x.eccCorr + 1) })))
    else s2
  if iu || u == .uncorrectable then
    let s4 := raiseAt (.shc k) Bit.shcDataUncorr (deviceAddr (l * 64)) (some (ctx, part)) s3
    match Tab.find (s4.slice k).lines key with
    | none => s4
    | some x =>
      repairSliceRow k sb row <|
      if x.dirty then
        let s5 := dmcWriteLink (l * 64) dram (dramLine (l * 64) x.data true (s4.modSlice k (fun y =>
          { y with writebacks := sat32 (y.writebacks + 1),
                   lines := Tab.insert y.lines key { x with dirty := false, poison := true } })))
        report { unit := 0xC2, cause := Cause.memPoison, ctx := ctx, part := part, bit := Bit.shcDataUncorr } s5
      else s4.modSlice k (fun y => { y with lines := Tab.erase y.lines key, cleanUncorr := sat32 (y.cleanUncorr + 1) })
  else s3

/-- Carry out an operation on a line whose present content is `x`. -/
def applyOp (x : CacheLine) : LineOp → CacheLine
  | .read => x
  | .writeLine d => { x with data := d.take 64, dirty := true, poison := false }
  | .writePart off d => { x with data := (patch x.data off d).take 64, dirty := true }

/-- One access to a line at its home slice (R149, R151, R153, R159): the line as a reader sees it and the state
after it.  An isolated slice and a stopped mesh return a NACK (R29).  `keep` says whether the mode of its range keeps the line.
DESIGN CHOICE: log entry 29.
DESIGN CHOICE: log entry 91. -/
def lineAccess (off ctx part : Nat) (op : LineOp) (tag data : Upset) (oneCopy : Bool) (copy : Nat) (dram : DramUpset)
    (s0 : State) : (List Byte × Bool) × State :=
  let (k, keep) := s0.home off
  if (s0.hdr (.shc k)).isolated || s0.pwr.retention then (([], false), s0.emit (.nack 0xC2))
  else if s0.dramSize ≤ off then ((poisonLine, true), rangeRefusal k off ctx part s0)
  else
    let l := off / 64
    let s1 := tagCheck k l tag oneCopy copy s0
    let full := match op with
      | .writeLine _ => true
      | _ => false
    let s2 := match (s1.slice k).wayOf l with
      | none => s1
      | some w => if full then s1 else dataCheck k l w ctx part data dram s1
    let k := (s2.home off).1
    match (s2.slice k).wayOf l with
    | some w =>
      let key := setOf l * 16 + w
      let x := Tab.get (s2.slice k).lines { line := l, dirty := false, data := [] } key
      let y := applyOp x op
      let s3 := touchWay k l w (s2.modSlice k (fun z =>
        { z with hits := sat32 (z.hits + 1), lines := Tab.insert z.lines key y }))
      ((if y.poison then poisonLine else s3.lineView off op y.data, y.poison), s3)
    | none =>
      let s3 := s2.modSlice k (fun z => { z with misses := sat32 (z.misses + 1) })
      let (pz, s4) := if full then (false, s3) else dmcRead off dram ctx part s3
      let x : CacheLine := { line := l, dirty := false, poison := pz, data := s4.readDram (lineBase off) 64 }
      let y := applyOp x op
      let mask := ((s4.part? part).map (·.wayMask)).getD 0
      let s5 :=
        if keep && mask % 65536 != 0 then allocLine k mask y (if full then dram else writeHalf dram) s4
        else if y.dirty then dmcWriteLink off (if full then dram else writeHalf dram) (dramLine off y.data y.poison s4)
        else s4
      ((if y.poison then poisonLine else s5.lineView off op y.data, y.poison), s5)

end Sys2Proof.Machine
end

