-- ==== Sys2Proof/Machine/Epochs.lean ====
section
/-! DEFINITION. Commands that run and wait (R203, R204, R274), epochs and CANCEL (R196 to R199), the odometer's
release (R224), and the abandonment of a re-placement (R289). -/

namespace Sys2Proof.Machine

open Sys2Proof Sys2Proof.Machine.Bits

/-! ### Running and waiting commands -/

/-- Forget the descriptor of a command that starts: it is no longer waiting in the ring (R203). -/
def dropFetched (cmd : Cmd) (op : Nat) (s : State) : State :=
  s.modCtx cmd.ctx.val (fun x => { x with fetched := x.fetched.erase (cmd.tag, op) })

/-- Note a command that has started and not completed. -/
def addRunning (cmd : Cmd) (op order epoch : Nat) (s : State) : State :=
  s.modCtx cmd.ctx.val (fun x =>
    { x with running := x.running ++ [{ cmd := cmd, opcode := op, order := order, epoch := epoch }] })

/-- EN of a context goes to 0: the commands that have not started, read or not, are lost, and its queues retire once the running
ones have completed (R196, R209, R384). -/
def retireCtx (c : Nat) (s : State) : State :=
  let lost := s.ctl.waiting.filter (fun h => h.ctx == c && (h.why == .epochs || h.why == .behind))
  (s.modCtl (fun x => { x with waiting := x.waiting.filter (fun h => !lost.contains h) })).modCtx c (fun x =>
    let rest := x.running.filter (fun r => !lost.any (fun h => h.order == r.order))
    { x with en := false, fetched := [], running := rest, retiring := !rest.isEmpty })

/-- The running command of a context with this start order. -/
def State.runningAt (s : State) (ctx order : Nat) : Option Running :=
  (s.ctx ctx).running.find? (fun r => r.order == order)

/-- A command leaves the running ones; with EN cleared, the last one retires the queues (R209). -/
def dropRunning (ctx order : Nat) (s : State) : State :=
  s.modCtx ctx (fun x =>
    let rest := x.running.filter (fun r => r.order != order)
    { x with running := rest, retiring := x.retiring && !rest.isEmpty })

/-- A running command completes: its completion is posted and it is no longer running. -/
def endRunning (ctx order status detail : Nat) (s : State) : State :=
  match s.runningAt ctx order with
  | none => s
  | some r => finish r.cmd r.opcode status r.epoch detail (dropRunning ctx order s)

/-- A running command completes with a status for which no rule states DETAIL.
DESIGN CHOICE: log entry 13. -/
def endOpen (ctx order status : Nat) (s : State) : State :=
  match s.runningAt ctx order with
  | none => s
  | some r => finishOpen r.cmd r.opcode status r.epoch (dropRunning ctx order s)

/-- Hold a command inside the device: it has started and waits (R193, R196, R289, R365, R404). -/
def hold (why : HoldWhy) (cmd : Cmd) (op order : Nat) (i : Instr) (s : State) : State :=
  (addRunning cmd op order noEpoch s).modCtl (fun c =>
    { c with waiting := c.waiting ++ [{ why := why, ctx := cmd.ctx.val, order := order, cmd := i }] })

/-- A command of the context waits at the head of its command queue for an epoch number (R196). -/
def State.headBlocked (s : State) (ctx : Nat) : Bool :=
  s.ctl.waiting.any (fun h => h.ctx == ctx && h.why == .epochs)

/-- Start a command: it takes its start order and runs, or waits behind the head of its queue (R196, R203).
A context that takes no commands is not read (log entry 3), and a command that has not
been read, or stands behind another in its ring, does not start (R203). -/
def gate (i : Instr) (cmd : Cmd) (op : Nat) (run : Nat → State → State) (s : State) : State :=
  if s.accepts cmd && (s.ctx cmd.ctx.val).fetched.head? == some (cmd.tag, op) then
    let (o, s1) := (dropFetched cmd op s).nextOrder
    if s1.headBlocked cmd.ctx.val then hold .behind cmd op o i s1 else run o s1
  else s

/-! ### Epoch numbers (R196) -/

/-- The `k`-th number, from 0, that is not among `used`, which rise. -/
def skipUsed (k : Nat) (used : List Nat) : Nat := used.foldl (fun c u => if u ≤ c then c + 1 else c) k

/-- A number below `n` that is not used.  No rule says which one the device takes: a free value.
DESIGN CHOICE: log entry 5.
DESIGN CHOICE: log entry 50. -/
def pickUnused (n : Nat) (used : List Nat) (s : State) : Nat × State :=
  (skipUsed (Config.freeNat s.free % (n - used.length)) used, { s with free := s.free + 1 })

/-- Live epochs. -/
def State.liveEpochs (s : State) : Nat := s.qmg.epochs.length
/-- Every epoch number is taken. -/
def State.epochsFull (s : State) : Bool := 65535 ≤ s.liveEpochs

/-- Open an epoch for the command with start order `order` (R196). -/
def openEpoch (ctx : Nat) (stream order : Option Nat) (s : State) : Nat × State :=
  let (e, s1) := pickUnused 65535 (s.qmg.epochs.map (·.1)) s
  (e, s1.modQmg (fun m => { m with
    epochs := Tab.insert m.epochs e { ctx := ctx, stream := stream, opener := order } }))

/-- Change a live epoch. -/
def modEpoch (e : Nat) (f : Epoch → Epoch) (s : State) : State :=
  s.modQmg (fun m => { m with epochs := Tab.modify m.epochs e f })

/-! ### Quiet epochs (R198) -/

/-- R198: no unit of the epoch runs, no transfer with its tag is outstanding, no queue holds a handle of it
and every buffer of its pools lies in a free queue. -/
def quiet (e : Nat) (s : State) : Bool :=
  s.cores.all (fun c => c.2.run.all (fun u => u.epoch != e) && c.2.ready.all (fun u => u.epoch != e)) &&
  ((Tab.find s.qmg.epochs e).map (·.outstanding)).getD 0 == 0 &&
  s.qmg.queues.all (fun q => q.2.epoch != e || q.2.type != .data || q.2.entries.isEmpty) &&
  s.qmg.pools.all (fun p =>
    (s.queue p.2.freeQueue).epoch != e || (s.queue p.2.freeQueue).entries.length == p.2.count)

/-- The epoch of an armed stream, of a REARM in progress or of a job that has not ended. -/
def State.epochInUse (s : State) (e : Nat) : Bool :=
  s.streams.any (fun x =>
    (x.2.armed && x.2.epoch == e) || x.2.rearm.any (fun r => r.epoch == e) || x.2.jobs.any (fun j => j.epoch == e))

/-! ### FENCE (R274) -/

/-- A FENCE may complete: every earlier command of its context has, or the epoch it names is quiet.
DESIGN CHOICE: log entry 16. -/
def fenceReady (f : FenceWait) (s : State) : Bool :=
  if f.epoch = noEpoch then (s.ctx f.ctx).running.all (fun r => f.order ≤ r.order)
  else (Tab.find s.qmg.epochs f.epoch).isNone || quiet f.epoch s

/-- Complete the fences that may complete, in start order. -/
def settleFences (s : State) : State :=
  forEach s.ctl.fences (fun f s =>
    if fenceReady f s then
      endRunning f.ctx f.order Status.ok 0
        (s.modCtl (fun c => { c with fences := c.fences.filter (fun g => g.order != f.order) }))
    else s) s

/-! ### The odometer grid (R224) -/

/-- Armed line-scan streams. -/
def State.lineStreams (s : State) : List Stream :=
  (s.streams.filter (fun e => e.2.armed && e.2.decl.kind == 0)).map (·.2)

/-- The minimum line period of a line-scan stream: its TIMING item's, and no less than its stage image's (R79, R224). -/
def State.linePeriod (s : State) (st : Stream) : Nat :=
  max st.decl.minPeriod (((Tab.find s.images st.image).map (fun im => im.decl.minPeriod)).getD 0)

/-- TAL_ODO_CAMS and TAL_ODO_MINPER of the armed line-scan streams; the grid is released with the last one. -/
def refreshOdometer (s : State) : State :=
  let xs := s.lineStreams
  s.modTal (fun t =>
    { t with
      cams := xs.foldl (fun a st => a ||| st.decl.cams % 4096) 0
      odoMinPer := xs.foldl (fun a st => max a (s.linePeriod st)) 0
      odoEn := !xs.isEmpty
      grid := if xs.isEmpty then none else t.grid })

/-- Handles that ING and TAL hold for a stream: slots of lines, buffers of the open frame and of frames in open sets. -/
def ingressHandles (id : Nat) (s : State) : List W64 :=
  let inSets := s.tal.groups.flatMap (fun g => g.2.sets.flatMap (fun x =>
    (x.members.filter (fun m => m.stream == id)).flatMap (fun m => m.handles.map (·.2))))
  match s.stream? id with
  | none => inSets
  | some st => st.lines.flatMap (fun l => l.handles.map (fun h => h.2.2)) ++
      st.frame.toList.flatMap (fun f => f.handles.map (·.2)) ++ inSets

/-- Take the frames of a stream out of the open sets. -/
def leaveSets (id : Nat) (s : State) : State :=
  s.modTal (fun t => { t with groups := t.groups.map (fun g =>
    (g.1, { g.2 with sets := g.2.sets.map (fun x => { x with members := x.members.filter (fun m => m.stream != id) }) })) })

/-- Disarm a stream: it accepts no input until ARM_STREAM, and what ING and TAL hold for it goes back (R197, R199). -/
def disarm (id : Nat) (s : State) : State :=
  refreshOdometer ((leaveSets id (forEach (ingressHandles id s) forceFree s)).modStream id (fun st =>
    { st with armed := false, lines := [], cutLines := [], frame := none, rearm := none, closed := false, lastFrameNo := none }))

/-! ### CANCEL (R197, R199) -/

/-- Cores of which a unit of the epoch runs. -/
def State.coresRunning (s : State) (e : Nat) : List Nat :=
  (s.cores.filter (fun c => c.2.run.any (fun u => u.epoch == e))).map (·.1)

/-- Discard the units of the epoch that are ready and not started, with the tiles prefetched for them. -/
def dropReady (e n : Nat) (s : State) : State :=
  let mine := (s.core n).ready.filter (fun u => u.epoch == e)
  let s1 := s.modCore n (fun c => { c with ready := c.ready.filter (fun u => u.epoch != e) })
  forEach ((mine.map (·.inputs)).flatten) forceFree s1

/-- The queue or pool that a wait is on belongs to the epoch. -/
def waitsOn (s : State) (e : Nat) : WaitOn → Bool
  | .pop q => (s.queue q).epoch == e
  | .push q _ => (s.queue q).epoch == e
  | .ret h => ((s.pool? (ofHandle h).pool).map (fun pl => (s.queue pl.freeQueue).epoch == e)).getD false
  | .alloc (.pool p) => ((s.pool? p).map (fun pl => (s.queue pl.freeQueue).epoch == e)).getD false
  | .alloc (.link _ _ _) => false
  | .window _ _ => false

/-- Empty a DATA queue of the epoch: each handle goes straight to its pool's free queue (R197). -/
def emptyQueue (n : Nat) (s : State) : State :=
  let hs := (s.queue n).entries.map (·.1)
  forEach hs forceFree
    (s.modQueue n (fun q => { q with entries := [], head := q.tail, credits := [] }))

/-- The epoch of an item of a stream: an item that has its record already belongs to the arming in force. -/
def Stream.epochOf (st : Stream) (seq : Nat) : Nat := ((st.item? seq).map (·.epoch)).getD st.epoch

/-- The vote units discard the signatures of the epoch, and no output of it waits for its own (R197 step 6). -/
def dropSignatures (e : Nat) (s : State) : State :=
  s.modQmg (fun m =>
    { m with
      votes := m.votes.map (fun v =>
        (v.1, match v.2.stream.bind s.stream? with
          | none => v.2
          | some st => { v.2 with held := v.2.held.filter (fun x => st.epochOf x.seq != e) }))
      shown := m.shown.filter (fun x => (s.stream? x.stream).any (fun st => st.epochOf x.seq != e)) })

/-- Steps 1 to 6 of R197 on one live epoch.
DESIGN CHOICE: log entry 18. -/
def stopEpoch (e : Nat) (s : State) : State :=
  let s1 := modEpoch e (fun x => { x with cancelled := true, cancelAt := s.clock }) s
  let s2 := forEach (s1.coresRunning e) stopUnit s1
  let s3 := forEach (s2.cores.map (·.1)) (dropReady e) s2
  let s4 := forEach (s3.qmg.waiters.filter (fun w => waitsOn s3 e w.on)) (fun w s => endWait w.core w.on s) s3
  dropSignatures e
    (forEach ((s4.qmg.queues.filter (fun q => q.2.type == .data && q.2.epoch == e)).map (·.1)) emptyQueue s4)

/-- The streams for which `e` is the epoch of the arming or of a REARM in progress. -/
def State.streamsOfEpoch (s : State) (e : Nat) : List Nat :=
  s.streamIds (fun st => (st.armed && st.epoch == e) || st.rearm.any (fun r => r.epoch == e))

/-- Mark two epochs as cancelled together (R199). -/
def twins (e f : Nat) (s : State) : State :=
  if e = f then s else modEpoch f (fun x => { x with twin := some e }) (modEpoch e (fun x => { x with twin := some f }) s)

/-- Cancel a live epoch: R197 on it and on the twin that a REARM in progress gives it, then R199 for the
armed streams: their records are marked CANCELLED in ascending order and they are disarmed.  The jobs of the
epoch end.
DESIGN CHOICE: log entry 18. -/
def cancelEpoch (e : Nat) (s : State) : State :=
  let ids := s.streamsOfEpoch e
  let s1 := forEach ids (fun id s =>
    match s.stream? id with
    | none => s
    | some st =>
      match st.rearm with
      | none => s
      | some r => twins st.epoch r.epoch s) s
  let other := ((Tab.find s1.qmg.epochs e).bind (·.twin)).toList
  let s2 := forEach (e :: other) stopEpoch s1
  let s3 := forEach ids (fun id s => disarm id (recordAll Cause.cancelled id s)) s2
  let s4 := { s3 with streams := s3.streams.map (fun x =>
    (x.1, { x.2 with jobs := x.2.jobs.filter (fun j => j.epoch != e),
                     items := x.2.items.filter (fun it => it.epoch != e) })) }
  refreshBedrock s4

/-! ### Ending a re-placement (R286, R288, R289) -/

/-- Discard the new cores of the running re-placement: the placement is exactly the old one. -/
def discardNew (s : State) : State :=
  match s.ctl.repl with
  | none => s
  | some r =>
    let fresh := r.new.filter (fun n => !r.old.contains n)
    refreshBedrock ((forEach fresh (fun n s => s.modCore n (fun c => c.release.clear)) s).modCtl (fun c =>
      { c with repl := none, jState := .idle }))

/-- Slots of a re-placement. -/
def Repl.slots (r : Repl) : List Nat := r.moves.map (·.1)

/-- A re-placement in step 1 to 4 is abandoned as under PREPARE, and its slots are pending again (log entry 32). -/
def abandon (s : State) : State :=
  match s.ctl.repl with
  | none => s
  | some r =>
    if s.ctl.jState = .prepare then
      raise .ctl Bit.ctlAbandoned ((discardNew s).modCtl (fun c => { c with pendRepl := r.slots.foldl addOnce c.pendRepl }))
    else s

/-- A CANCEL abandons it: its slots are pending again once the CANCEL has completed.
DESIGN CHOICE: log entry 32. -/
def abandonForCancel (s : State) : State :=
  match s.ctl.repl with
  | none => s
  | some r =>
    if s.ctl.jState = .prepare then
      raise .ctl Bit.ctlAbandoned ((discardNew s).modCtl (fun c => { c with retry := r.slots.foldl addOnce c.retry }))
    else s

/-- An old core leaves its stage: its windows close, and it enters the spare pool unless it is RETIRED, or stays with the
other streams that it serves (R286 step 6). -/
def leaveStage (n : Nat) (s : State) : State :=
  if s.streams.any (fun e => e.2.hosts n) then s
  else s.modCore n (fun c => { c.release with pool := if c.pool = .schedulable then .spare else c.pool })

/-- Steps 6 and 7 of R286 on a committed re-placement. -/
def endRepl (r : Repl) (s : State) : State :=
  trimPool (refreshBedrock ((forEach (r.old.filter (fun n => !r.new.contains n)) leaveStage s).modCtl (fun c =>
    { c with repl := none, jState := .idle })))

end Sys2Proof.Machine
end

