-- ==== Sys2Proof/Machine/Image.lean ====
section
/-! DEFINITION. Stage images: the checks of LOAD_IMAGE in the order of R273, the weight sums of R111, and UNLOAD
(R3, R37, R38, R42, R53, R79 to R81, R85, R89 to R101, R105, R109, R112, R113, R129, R243, R272, R273). -/

namespace Sys2Proof.Machine

open Sys2Proof Sys2Proof.Machine.Bits

/-! ### The rules of an image -/

/-- A broken rule: its stage and unit, none where the rule belongs to none, and its reason (R273). -/
structure Broken where
  stage : Option Nat
  unit : Option Nat
  reason : Nat
  deriving DecidableEq, Repr

/-- DETAIL of a rejection (R273). -/
def Broken.detail (b : Broken) : Nat :=
  b.reason % 256 * 2 ^ 24 + b.stage.getD 0xFF % 256 * 2 ^ 16 + b.unit.getD 0xFFFF % 65536

/-- Order of R273: image before stage, then stage, then unit, then reason; a rule of a stage as a whole comes
after those of its units, by the 0xFFFF that it reports (log entry 20). -/
def Broken.rank (b : Broken) : Nat :=
  (match b.stage with
    | none => 0
    | some k => k + 1) * 2 ^ 24 + b.unit.getD 0xFFFF % 65536 * 2 ^ 8 + b.reason % 256

/-- The broken rule that DETAIL reports.
DEDUCED: log entry 20. -/
def firstBroken : List Broken → Option Broken
  | [] => none
  | b :: bs =>
    match firstBroken bs with
    | none => some b
    | some c => if c.rank < b.rank then some c else some b

/-- Kernel, stride and dilation ranges of a Strata layer, its line-ring depth (R80), and its padding above (R78). -/
def layerStrataOk (l : LayerDecl) : Bool :=
  l.sy == 1 && l.dil == 1 && l.dilY == 1 && l.ring == l.kh - 1 &&
  (if l.pool then
     (l.kw % 2 == 1 && l.sx == 1 && 1 ≤ l.kw && l.kw ≤ 7) || l.kw == l.sx
   else l.kw % 2 == 1 && l.kw ≤ 7) &&
  (l.kh % 2 == 1 && l.kh ≤ 7) && [1, 2, 4, 8].contains l.sx && l.ph == l.kh - 1

/-- Kernels 1 to 11, pool windows 1 to 8, and strides and dilations 1 to 8 of a frame-mode layer (R57, R90). -/
def layerFrameOk (l : LayerDecl) : Bool :=
  let top := if l.pool then 8 else 11
  1 ≤ l.kh && l.kh ≤ top && 1 ≤ l.kw && l.kw ≤ top && 1 ≤ l.sx && l.sx ≤ 8 && 1 ≤ l.sy && l.sy ≤ 8 &&
    1 ≤ l.dil && l.dil ≤ 8 && 1 ≤ l.dilY && l.dilY ≤ 8

/-- A DFT length and its factors (R99). -/
def dftOk (n : Nat) (fs : List Nat) : Bool :=
  [32, 64, 128, 256, 512, 1024, 2048, 4096, 8192, 16384, 32768].contains n &&
    fs.all (fun f => [8, 16, 32].contains f) && fs.foldl (· * ·) 1 == n

/-- The ranges of R56, R94, R96, R97 and R99 on a layer of either mode; the functions of a fused pair are among those that R94
allows. -/
def layerCommonOk (l : LayerDecl) : Bool :=
  let k := if l.fuseInt4 then 64 else 32
  (l.group ≤ 8 || l.group == 16 || l.group == 32) &&
  (!l.fused || (l.fuseK ≤ k && l.fuseN ≤ 32 && l.fuseK2 ≤ k && l.fuseN2 ≤ 32 && !l.fuseFns.contains .other)) &&
  (match l.batchWait with
    | none => true
    | some w => w ≤ 50000 && w % 100 == 0) &&
  (match l.boxes with
    | none => true
    | some (n, ho, wo) => n ≤ 4096 && 1 ≤ ho && ho ≤ 256 && 1 ≤ wo && wo ≤ 256) &&
  (match l.dft with
    | none => true
    | some (n, fs) => dftOk n fs)

/-- G, I, slice width and halo of a Strata stage whose segments are `width` pixels wide at its input (R79, R81). -/
def strataShape (width : Nat) (d : StageDecl) : Bool :=
  [1, 2, 4, 8].contains d.g && 1 ≤ d.i && d.i ≤ 8 && d.slice * d.g == width && 8 ≤ d.slice &&
    d.halo == haloOf 1 d.layers && d.halo ≤ 32 && d.halo ≤ d.slice

/-- Tile shape, halo in both directions, channel block and dependency lag of a frame stage (R90, R92).
DEDUCED: log entry 98. -/
def frameShape (d : StageDecl) : Bool :=
  8 ≤ d.th && d.th ≤ 256 && d.th % 8 == 0 && 8 ≤ d.tw && d.tw ≤ 256 && d.tw % 8 == 0 && d.lag ≤ 255 &&
    d.halo == haloOf 1 d.layers && d.haloV == haloRows 1 d.layers &&
    (match d.channels with
      | none => true
      | some (_, n) => 1 ≤ n)

/-- The forward map of a Strata stage to the next one leaves no position without a producer (R82, R101). -/
def forwardOk (stages : List StageDecl) (k : Nat) (d : StageDecl) : Bool :=
  match stages[k + 1]? with
  | none => true
  | some x =>
    d.mode != .strata || x.mode != .strata || mapComplete d.forward d.g (segmentsOf stages (k + 1) == 1) x

/-- The unit formats whose entries are integers (R37). -/
def intFmt (fmt : Nat) : Bool := [0, 1, 2, 3, 9, 10].contains fmt

/-- The zero point of a unit's activation format (R112). -/
def zeroPointOk (fmt z : Nat) : Bool :=
  if fmt = 1 then z ≤ 255 else if fmt = 3 then z ≤ 15 else z == 0

/-- The zero point of an output format (R110, R112). -/
def outZeroOk (f : Fmt) (z : Nat) : Bool := if f = .uint8 then z ≤ 255 else if f = .uint4 then z ≤ 15 else z == 0

/-- Every declared scale is a positive, finite FP32 value (R110); an image that gives another cannot be decoded.
DEDUCED: log entry 103. -/
def scalesOk (u : UnitDecl) : Bool :=
  Fp.isScale u.inScale && Fp.isScale u.outScale && (u.wScale ++ u.outScales).all Fp.isScale &&
    u.mid.all (fun m => Fp.isScale m.scale && m.wScale.all Fp.isScale)

/-- Accumulated K per output of a layer: taps times the input channels that a row takes (R56, R105). -/
def layerK (l : LayerDecl) : Nat :=
  if l.pool then 0 else max (max l.fuseK l.fuseK2) (l.kh * l.kw * (if l.group = 0 then l.cin else if l.group < 8 then l.group else min 32 l.cin))

/-- The array rows of a unit take a PER_ROW input only where each depends on one input row (R113): a kernel of one tap. -/
def rowScopeOk (u : UnitDecl) (l : Option LayerDecl) : Bool :=
  u.scope != .perRow || !u.onArray || (u.oneRow && l.all (fun x => x.kh * x.kw == 1))

/-- Every array's zero point fits its activation format, and so do those of the outputs (R112). -/
def zerosOk (u : UnitDecl) : Bool :=
  (List.range 4).all (fun a => zeroPointOk (arrayFmt u a) (if u.gang = 0 then u.zeros.getD a u.zeroPoint else u.zeroPoint)) &&
    outZeroOk u.outFmt u.outZero && u.mid.all (fun m => outZeroOk m.fmt m.zero)

/-- Rules that unit `j` of stage `k` breaks, with its layer, for a partition of class `cls`. -/
def brokenUnit (cls : SafetyClass) (k j : Nat) (u : UnitDecl) (l : Option LayerDecl) : List Broken :=
  let b (r : Nat) : List Broken := [{ stage := some k, unit := some j, reason := r }]
  (if u.strands ≤ 8192 then [] else b 0x06) ++
  (if u.fmt ≤ 10 && u.fmts.all (· ≤ 10) && u.gang ≤ 3 && (u.gang == 0 || u.fmts.all (· == u.fmt)) && 8 ≤ u.relShift && u.relShift ≤ 24 && 1 ≤ u.absExp && u.absExp ≤ 0xFE
    then [] else b 0x07) ++
  (if (List.range 4).any (fun a => intFmt (arrayFmt u a)) && 65536 < max u.accK ((l.map layerK).getD 0) then b 0x08
    else []) ++
  (if !rowScopeOk u l || (u.scope == .perRow && 4096 < u.rowLen) || !zerosOk u || (u.outScope == .perRow && 4096 < u.outLen)
    then b 0x09 else []) ++
  (if u.stochastic && cls != .none then b 0x0A else []) ++
  (if scalesOk u then [] else b 0x0D)

/-- The service time of a Strata unit: the declared worst-case times of what one segment runs through on a core (R85). -/
def serviceOf (d : StageDecl) : Nat := max d.service ((d.units.map (·.wcet)).sum)

/-- The arrival interval of segments: no longer than the S-th part of the minimum line period (R79, R85).
DEDUCED: log entry 104. -/
def segInterval (d : ImageDecl) : Nat := min d.tSeg (d.minPeriod / max 1 (segmentsOf d.stages 0))

/-- Rules that stage `k` breaks as a whole. -/
def brokenStage (im : ImageDecl) (k : Nat) (d : StageDecl) : List Broken :=
  let b (r : Nat) : List Broken := [{ stage := some k, unit := none, reason := r }]
  let shape := d.layers.all layerCommonOk &&
    (match d.mode with
      | .strata => d.layers.all layerStrataOk && strataShape (segWidthOf im.stages k) d
      | .frame => d.layers.all layerFrameOk && frameShape d)
  let strata := d.mode == .strata
  (if shape then [] else b 0x01) ++
  (if strata && 8 < (d.units.map (·.weightSets)).sum then b 0x02 else []) ++
  (if forwardOk im.stages k d then [] else b 0x03) ++
  (if strata && d.i * segInterval im < serviceOf d then b 0x04 else []) ++
  (if !strata && d.tileTime < (d.units.map (·.wcet)).sum then b 0x05 else []) ++
  (if 0x7C000 < d.resident + d.slots + d.working then b Config.regionReason else [])

/-- A vocabulary under R243. -/
def vocabOk (v : List (List Byte × Nat)) : Bool :=
  v.length ≤ 65536 && v.all (fun e => 1 ≤ e.1.length && e.1.length ≤ 32 && e.2 < 65536) &&
    (v.map (fun e => e.1.length)).sum ≤ 2 ^ 20 &&
    (List.range 256).all (fun b => v.any (fun e => e.1 == [BitVec.ofNat 8 b])) &&
    decide ((v.map (·.1)).Nodup)

/-- Rules that the image breaks as a whole (R79, R89, R101, R243, R273). -/
def brokenImage (full : Bool) (d : ImageDecl) : List Broken :=
  let b (r : Nat) : List Broken := [{ stage := none, unit := none, reason := r }]
  let strata := d.stages.any (fun st => st.mode == .strata)
  (if d.stages.isEmpty || (strata && d.minPeriod < 1500) then b 0x01 else []) ++
  (if strata && 1000 < d.worstPath then b 0x04 else []) ++
  (match d.vocab with
    | none => []
    | some v => if vocabOk v then [] else b 0x0B) ++
  (if full then b 0x0C else [])

/-- Every rule that an image breaks. -/
def brokenRules (full : Bool) (cls : SafetyClass) (f : ImageFile) : List Broken :=
  brokenImage full f.decl ++
  (f.decl.stages.zipIdx.map (fun p =>
    brokenStage f.decl p.2 p.1 ++
      (p.1.units.zipIdx.map (fun u => brokenUnit cls p.2 u.2 u.1 p.1.layers[u.2]?)).flatten)).flatten ++
  f.bad.map (fun p => { stage := p.1, unit := p.2, reason := 0x0D })

/-! ### Versions and weight sums -/

/-- A header that the running release accepts (R3, R272). -/
def headerOk (c : Ctl) : ImageHeader → Bool
  | .fxt5 => false
  | .unreadable => false
  | .version major minor =>
    (major == c.fmtMajor && minor ≤ c.minorCur) || (major + 1 == c.fmtMajor && minor ≤ c.minorPrev)

/-- Sums of the columns of a weight tensor over all rows, of the values that the cells take (R111). -/
def columnSums (f : Nat) (ws : List (List Int)) : List Int :=
  ws.foldl (fun acc row =>
    (List.range (max acc.length row.length)).map (fun j => acc.getD j 0 + weightValue f (row.getD j 0))) []

/-- Weight sums of a unit: for output channel j the sum of column j over all rows (R111); none for floating-point weights. -/
def weightSums (u : UnitDecl) : List Int := if intFmt u.fmt then columnSums u.fmt u.weights else []

/-- Weight sums of the first product of a fused pair (R94, R111). -/
def midSums (u : UnitDecl) : List Int :=
  match u.mid with
  | none => []
  | some m => if intFmt u.fmt then columnSums u.fmt m.weights else []

/-! ### LOAD_IMAGE and UNLOAD -/

/-- The number of image IDs (R272). -/
def imageSlots : Nat := 1024

/-- Check and store a stage image (R272, R273); the injection of R293 rejects it before any check.
DESIGN CHOICE: log entry 9.
DESIGN CHOICE: log entry 90. -/
def doLoadImage (cmd : Cmd) (len : Nat) (crc : W32) (file : ImageFile) (s0 : State) : State :=
  let (inj, s) := takeInj .ctl Bit.ctlRejected s0
  let part := s.partOf cmd.ctx.val
  if inj then
    finish cmd opLoadImage Status.rejected noEpoch (Broken.detail ⟨none, none, 0x0C⟩) s
  else if len < 64 ∨ 2 ^ 30 < len then finishOpen cmd opLoadImage Status.badArgs noEpoch s
  else if !headerOk s.ctl file.header || crc != file.crc then
    finishOpen cmd opLoadImage Status.unsupportedFormat noEpoch s
  else
    match firstBroken (brokenRules (imageSlots ≤ s.images.length) (s.classOf part) file) with
    | some b => finish cmd opLoadImage Status.rejected noEpoch b.detail s
    | none =>
      let (id, s1) := pickUnused imageSlots (s.images.map (·.1)) s
      let im : Image :=
        { part := part, decl := file.decl, wsums := file.decl.stages.map (fun st => st.units.map weightSums),
          midSums := file.decl.stages.map (fun st => st.units.map midSums) }
      finish cmd opLoadImage Status.ok noEpoch id { s1 with images := Tab.insert s1.images id im }

/-- Remove an image that no declared stream uses (R272). -/
def doUnload (cmd : Cmd) (image : Nat) (s : State) : State :=
  match Tab.find s.images image with
  | none => finishOpen cmd opService Status.badArgs noEpoch s
  | some im =>
    if im.part ≠ s.partOf cmd.ctx.val then finishOpen cmd opService Status.notPermitted noEpoch s
    else if s.streams.any (fun e => e.2.image == image) then finishOpen cmd opService Status.busy noEpoch s
    else finishOpen cmd opService Status.ok noEpoch { s with images := Tab.erase s.images image }

end Sys2Proof.Machine
end

