-- ==== Sys2Proof/Machine/Declare.lean ====
section
/-! DEFINITION. DECLARE_STREAM: the declaration block (R275), what the manual asks of its values (R17, R79, R89,
R211, R217, R218, R227, R230, R266, R304, R305), and what declaring a stream brings into being (R189, R211,
R230, R234, R263, R265). -/

namespace Sys2Proof.Machine

open Sys2Proof Sys2Proof.Machine.Bits

/-! ### The declaration block -/

/-- The items of a block. -/
def blockItems (block : List Byte) : List (List Byte) :=
  (List.range (block.length / 16)).map (fun i => (block.drop (16 * i)).take 16)

/-- Read one item into a declaration; none when a reserved byte, bit or code is set (R275). -/
def parseItem (d : StreamDecl) (it : List Byte) : Option StreamDecl :=
  let n := field it
  let ok (c : Bool) (x : StreamDecl) : Option StreamDecl := if c && zeroAt it 2 2 then some x else none
  match n 0 2 with
  | 0x01 =>
    ok (zeroAt it 7 1 && zeroAt it 14 2 && n 4 1 ≤ 4)
      { d with kind := n 4 1, port := n 5 1, vc := n 6 1, srcIp := n 8 4, udpPort := n 12 2 }
  | 0x02 =>
    ok (zeroAt it 11 1)
      { d with width := n 4 2, height := n 6 2, depth := n 8 1, comps := n 9 1, cfa := n 10 1,
               lineBytes := n 12 4 }
  | 0x03 => ok true { d with period := n 4 4, deadline := n 8 4, minPeriod := n 12 4 }
  | 0x04 =>
    ok (zeroAt it 7 1 && n 4 1 ≤ 1 && n 5 1 ≤ 16 && (n 4 1 == 0 || zeroAt it 14 2))
      { d with egress := n 4 1, egFn := n 5 1, egLane := n 6 1,
               egAddr := if n 4 1 = 0 then n 8 8 else n 8 4, egPort := if n 4 1 = 0 then 0 else n 12 2 }
  | 0x05 =>
    ok (zeroAt it 10 2 && n 7 1 ≤ 1 && n 8 2 < 4096)
      { d with cpl := n 4 2, filter := n 6 1, dir := n 7 1 == 1, cams := n 8 2, lineTimeout := n 12 4 }
  | 0x06 =>
    ok (zeroAt it 7 1 && n 4 1 < 64 && n 5 1 < 16 && n 6 1 ≤ 1)
      { d with align := some (n 4 1, n 5 1, n 6 1 == 1, n 8 4, n 12 4) }
  | 0x07 => ok (zeroAt it 6 10) { d with frozen := some (n 4 1, n 5 1) }
  | 0x08 =>
    ok (zeroAt it 7 1 && zeroAt it 10 6 && n 4 1 < 16 && n 5 1 < 4 && n 6 1 ≤ 3)
      { d with quadMask := n 4 1, exclusive := (n 5 1).testBit 0, shareable := (n 5 1).testBit 1,
               bufPlace := n 6 1, maxCores := n 8 2 }
  | 0x09 =>
    ok (zeroAt it 12 4)
      { d with maxWidth := n 4 2, maxHeight := n 6 2, maxBoxes := n 8 2, maxTokens := n 10 2 }
  | 0x0A => ok (zeroAt it 14 2) { d with adapt := some (n 4 2, n 6 8) }
  | 0x0B => ok (zeroAt it 6 2) { d with colour := some (n 4 2, n 8 8) }
  | 0x0C => ok (zeroAt it 9 7) { d with output := some (BitVec.ofNat 32 (n 4 4), n 8 1) }
  | _ => none

/-- Read the items in order. -/
def parseItems : StreamDecl → List (List Byte) → Option StreamDecl
  | d, [] => some d
  | d, it :: its =>
    match parseItem d it with
    | none => none
    | some d' => parseItems d' its

/-- PPE shapes the frames of a declaration: it declares a colour conversion or a colour filter (R236). -/
def StreamDecl.shapes (d : StreamDecl) : Bool :=
  (d.kind == 1 || d.kind == 2) && (d.colour.isSome || (1 ≤ Config.cfaPattern d.cfa && Config.cfaPattern d.cfa ≤ 4))

/-- The types of the items that a declaration requires (R236, R275): LIMITS when the image crops or tokenises, and OUTPUT, the step
of PPE that is never absent, when PPE shapes the frames. -/
def requiredItems (d : StreamDecl) (im : ImageDecl) : List Nat :=
  [0x01, 0x04] ++ (if d.kind = 4 then [] else [0x02, 0x03]) ++ (if d.kind = 0 then [0x05] else []) ++
    (if d.shapes then [0x0C] else []) ++
    (if im.vocab.isSome || im.stages.any (fun st => st.layers.any (fun l => l.boxes.isSome)) then [0x09] else [])

/-- The declaration of a block; none where R275 makes the command complete with BAD_ARGS. -/
def parseBlock (im : ImageDecl) (block : List Byte) : Option StreamDecl :=
  let its := blockItems block
  let types := its.map (fun it => field it 0 2)
  if !decide (types.Nodup) then none
  else
    match parseItems {} its with
    | none => none
    | some d => if (requiredItems d im).all (types.contains ·) then some d else none

/-! ### Checks on the values -/

/-- The image contains a Strata stage. -/
def hasStrata (im : ImageDecl) : Bool := im.stages.any (fun st => st.mode == .strata)

/-- An ING port is a SerDes lane in 10GBASE-R or 25GBASE-R mode (R17, R252). -/
def State.ethernet (s : State) (p : Nat) : Bool := 12 ≤ p && p < 36 && ((s.port p).type == 3 || (s.port p).type == 4)

/-- The ING binding that a stream takes: port and binding number; none when the port cannot carry it or
the binding is taken (R17, R211): a camera pair takes no Ethernet lane, and lidar takes nothing else. -/
def bindingOf (d : StreamDecl) (s : State) : Option (Nat × Nat) :=
  let free (p b : Nat) : Option (Nat × Nat) :=
    if (Tab.find (s.port p).bind b).isNone then some (p, b) else none
  if d.kind = 1 then (if d.port < 12 ∧ d.vc < 4 then free d.port d.vc else none)
  else if d.kind = 0 ∨ d.kind = 2 then
    (if 12 ≤ d.port ∧ d.port < 36 ∧ d.port % 2 = 0 ∧ (s.port (d.port + 1)).bind.isEmpty ∧ !s.ethernet d.port ∧
        !s.ethernet (d.port + 1) then free d.port 0 else none)
  else if d.kind = 3 then
    (if s.ethernet d.port then
       (((List.range 8).map (free d.port)).find? Option.isSome).join
     else none)
  else none

/-- The alignment item fits its group (R230): a stream of frames or sweeps, ranges of W and L, frame mode, a free slot, the group's
W and L. -/
def alignOk (d : StreamDecl) (im : ImageDecl) (s : State) : Bool :=
  match d.align with
  | none => true
  | some (g, slot, _, w, l) =>
    let grp := Tab.get s.tal.groups {} g
    1 ≤ d.kind && d.kind ≤ 3 && 1 ≤ w && w ≤ 100000000 && w ≤ l && l ≤ 1000000000 && !hasStrata im &&
      (Tab.find grp.members slot).isNone && (grp.members.isEmpty || (grp.w == w && grp.l == l))

/-- Ranges of R17, R79, R89, R97, R217, R227 and R230 on a declaration: outside them the block is a bad argument.
DESIGN CHOICE: log entry 9. -/
def declOk (d : StreamDecl) (im : ImageDecl) (s : State) : Bool :=
  (d.kind == 0 || !hasStrata im) &&
  (d.kind != 0 || (
    (!hasStrata im || (256 ≤ d.width && d.width ≤ 16384)) && 1 ≤ d.cpl &&
    (d.lineTimeout == 0 || (1000 ≤ d.lineTimeout && d.lineTimeout ≤ 1000000)))) &&
  (d.kind != 3 || (1 ≤ d.height && d.height ≤ 4096 && 64 ≤ d.lineBytes && d.lineBytes ≤ 8960)) &&
  (d.kind == 4 || (bindingOf d s).isSome) &&
  d.maxBoxes ≤ 4096 && (d.egress != 1 || s.ethernet (12 + d.egLane)) &&
  alignOk d im s

/-- The declaration as it holds: a line timeout that is not given is twice the minimum line period (R227). -/
def withDefaults (d : StreamDecl) : StreamDecl :=
  if d.lineTimeout = 0 then { d with lineTimeout := 2 * d.minPeriod } else d

/-- Record size of a stream of an image: header and payload. -/
def ImageDecl.recordSize (im : ImageDecl) : Nat := im.recordBytes

/-- R304 and R218. -/
def declRejected (d : StreamDecl) (cls : SafetyClass) (im : ImageDecl) : Bool :=
  (isSafety cls && d.period < d.deadline) ||
    (d.egress == 1 && Config.laneMtu d.egLane < ImageDecl.recordSize im + 28)

/-! ### Placement -/

/-- Vote points of a TRIPLEX stream: the declared ones and the record unit's (R87). -/
def votePoints (cls : SafetyClass) (im : ImageDecl) : Nat :=
  if cls = .triplex then (im.stages.filter (·.votePoint)).length + 1 else 0

/-- Vote units of the placement: one for each vote point, free, none shared (R305). -/
def votesOk (st : Stream) (points : Nat) (s : State) : Bool :=
  st.place.votes.length == points && decide ((st.place.votes.map (·.val)).Nodup) &&
    st.place.votes.all (fun v => (s.vote v.val).stream.isNone)

/-- Stops of the cores of a stage of a copy. -/
def stageStops (st : Stream) (stage copy : Nat) : List (Nat × Nat) :=
  ((st.place.slots.filter (fun p => p.stage == stage && p.copy == copy)).map
    (fun p => p.cores.map (fun c => (coreX c.val, coreY c.val)))).flatten

/-- Stops of the record cores of a copy, the stage after the image's last one (R88). -/
def recordStops (st : Stream) (copy : Nat) : List (Nat × Nat) :=
  (st.place.slots.filter (fun p => p.record && p.copy == copy)).flatMap (fun p => p.cores.map (fun c => (coreX c.val, coreY c.val)))

/-- Every pair of stops is at most `n` hops apart. -/
def within (n : Nat) (xs ys : List (Nat × Nat)) : Bool := xs.all (fun a => ys.all (fun b => hops a b ≤ n))

/-- Stop of the vote unit of the record, the last that the placement names, when the stream votes (R86, R458).
DEDUCED: log entry 21. -/
def recordVoteStop (st : Stream) : List (Nat × Nat) :=
  if st.cls = .triplex then (st.place.votes.getLast?.map (fun v => voteStop v.val)).toList else []

/-- The distances of R86 for a Strata stream. -/
def distancesOk (st : Stream) (im : ImageDecl) : Bool :=
  !hasStrata im ||
  (([0, 1, 2].all (fun k =>
      (List.range (im.stages.length - 1)).all (fun i => within 8 (stageStops st i k) (stageStops st (i + 1) k)) &&
      within 8 (stageStops st (im.stages.length - 1) k) (recordStops st k) &&
      within 16 [portStop st.decl.port] (stageStops st 0 k))) &&
    (st.place.slots.filter (·.record)).all (fun p =>
      within 16 (p.cores.map (fun c => (coreX c.val, coreY c.val))) (pceStop :: recordVoteStop st)) &&
    within 16 (recordVoteStop st) [pceStop])

/-- The cores of one sub-group of a slot, G cores each (R81). -/
def isSubGroup (p : SlotPlan) (g : Nat) (cs : List CoreNum) : Bool :=
  (List.range (ceilDiv p.cores.length (max 1 g))).any (fun i => (p.cores.drop (i * g)).take g == cs)

/-- The windows of a STRATA_SLOT pool: five buffers, whose windows are free and lie in the slot region of every core of one
consuming sub-group (R84, R128, R132, R175). -/
def windowsOk (st : Stream) (s : State) (p : PoolPlan) : Bool :=
  p.count == 5 && p.window0 + p.count ≤ 256 &&
  (match windowStage s st p with
    | none => false
    | some d =>
      st.place.slots.any (fun q => isSubGroup q d.g p.windowCores) &&
      p.windowCores.all (fun c =>
        let base := (s.core c.val).nextBase st.part
        decide (base + d.resident ≤ p.base ∧ p.base + p.count * p.units * 16 ≤ base + d.resident + d.slots) &&
        (List.range p.count).all (fun i => ((s.core c.val).window (p.window0 + i)).state == .unused)))

/-- Two pools use no window of a core in common (R132). -/
def windowsApart (a b : PoolPlan) : Bool :=
  a.kind != 1 || b.kind != 1 || !a.windowCores.any (b.windowCores.contains ·) ||
    a.window0 + a.count ≤ b.window0 || b.window0 + b.count ≤ a.window0

/-- The properties of a pool (R170, R175); the buffers of a DRAM pool stand on 256-byte boundaries one after the other. -/
def poolOk (st : Stream) (s : State) (p : PoolPlan) : Bool :=
  1 ≤ p.kind && p.kind ≤ 4 && 1 ≤ p.units && p.units ≤ 262144 && 1 ≤ p.count && p.count ≤ 262144 && 1 ≤ p.consumers &&
    p.consumers ≤ 8 && p.base % poolAlign p.kind == 0 && (p.kind != 3 || p.units % 4 == 0) &&
    (p.kind != 1 || windowsOk st s p)

/-- A DATA queue of a placement (R181, R187). -/
def queuePlanOk (q : QueuePlan) : Bool :=
  q.log2Depth ≤ 15 && 1 ≤ q.outLimit && q.outLimit ≤ 64 && q.fanout < 4096 && 1 ≤ q.consumers.length && q.consumers.length ≤ 8

/-- The cores that target `t` of a link to a slot feeds: sub-group `t` of a Strata stage, core `t` of a frame stage, or the
record core (R80, R91, R187). -/
def targetCores (st : Stream) (s : State) (p : SlotPlan) (t : Nat) : List CoreNum :=
  match (if p.record then none else s.stageOf st p.stage) with
  | none => p.cores
  | some d => if d.mode = .strata then (p.cores.drop (t * d.g)).take d.g else (p.cores.drop t).take 1

/-- Targets of a link to a slot: I sub-groups of a Strata stage, the G cores of a frame stage, one record core (R186). -/
def targetCount (st : Stream) (s : State) (p : SlotPlan) : Nat :=
  match (if p.record then none else s.stageOf st p.stage) with
  | none => 1
  | some d => if d.mode = .strata then d.i else p.cores.length

/-- Target `t` of a link: its queue lists the cores of the target and its pool counts them as consumers; the copies of a Strata
slot lie in those cores (R175, R186, R187). -/
def targetOk (st : Stream) (s : State) (l : LinkPlan) (p : SlotPlan) (t : Nat) : Bool :=
  let cs := targetCores st s p t
  st.place.queues.any (fun q => q.queue.val == l.firstQueue.val + t && q.consumers == cs) &&
    st.place.pools.any (fun x => x.pool == l.firstPool + (if l.perTarget then t else 0) && x.consumers == cs.length &&
      (x.kind != 1 || x.windowCores == cs))

/-- A link of a placement (R186, R187): a free entry of the table, one to eight targets as its stage has them, one for SINGLE, SEGMENT for
Strata and VISIT for frame stages. -/
def linkOk (st : Stream) (s : State) (l : LinkPlan) : Bool :=
  l.link < 16384 && (Tab.find s.qmg.links l.link).isNone && 1 ≤ l.targets && l.targets ≤ 8 &&
  (match (st.place.queues.find? (fun q => q.queue == l.firstQueue)).bind (fun q => q.consumers.head?.bind (fun c => st.slotOf c.val)) with
    | none => false
    | some p =>
      l.targets == targetCount st s p && (l.steer != .single || l.targets == 1) &&
        (p.record || (s.stageOf st p.stage).all (fun d =>
          l.steer == .single || (l.steer == .segment) == (d.mode == .strata))) &&
        (List.range l.targets).all (targetOk st s l p))

/-- A slot of a Strata stage has I sub-groups of G cores, and one of a frame stage the cores that it declares (R80, R100). -/
def slotShaped (st : Stream) (s : State) (p : SlotPlan) : Bool :=
  p.record || (s.stageOf st p.stage).all (fun d =>
    p.cores.length == (if d.mode = .strata then d.g * d.i else d.coresPerCopy))

/-- The regions of the stages fit the scratchpads of their cores (R128, R129). -/
def regionsFit (st : Stream) (s : State) : Bool :=
  st.place.slots.all (fun p =>
    match s.stageOf st p.stage with
    | none => true
    | some d => p.cores.all (fun c =>
        (s.core c.val).nextBase st.part + d.resident + d.slots + (s.core c.val).workWords st.part d ≤ 0x7C000))

/-- Numbers that the placement takes are free, its cores are usable and in one stage group each, and what it creates has the
properties of R22, R175 and R181 (R265). -/
def numbersFree (st : Stream) (s : State) : Bool :=
  let slots := st.place.slots.map (·.slot.val)
  let pools := st.place.pools.map (·.pool)
  let queues := st.place.queues.map (·.queue.val) ++ st.place.pools.map (·.freeQueue.val)
  decide slots.Nodup && decide pools.Nodup && decide queues.Nodup &&
  slots.all (fun k => !(s.streams.any (fun e => e.2.place.slots.any (fun p => p.slot.val == k)))) &&
  pools.all (fun p => p < 4096 && (s.pool? p).isNone) &&
  queues.all (fun q => q < 0x3E000 && (Tab.find s.qmg.queues q).isNone) &&
  st.place.pools.all (poolOk st s) && st.place.pools.all (fun a => st.place.pools.all (fun b => a.pool == b.pool || windowsApart a b)) &&
  st.place.queues.all queuePlanOk && decide (st.place.queues.map (·.fanout)).Nodup &&
  st.place.queues.all (fun q => (Tab.find s.qmg.fanouts q.fanout).isNone) && regionsFit st s &&
  decide (st.place.links.map (·.link)).Nodup && st.place.links.all (linkOk st s) && st.place.slots.all (slotShaped st s) &&
  decide st.cores.Nodup && st.cores.all s.usable

/-- Quotas of the partition with the new placement (R262). -/
def quotasOk (st : Stream) (s : State) : Bool :=
  match s.part? st.part with
  | none => false
  | some p =>
    ((s.coresHeld st.part ++ st.cores).eraseDups).length ≤ p.coreQuota &&
      (s.qmg.queues.filter (fun q => q.2.part == st.part && (q.2.type == .data || q.2.type == .free))).length +
        st.place.queues.length + st.place.pools.length ≤ p.queueQuota &&
      (s.qmg.pools.filter (fun q => q.2.part == st.part)).length + st.place.pools.length ≤ p.poolQuota

/-- The stages of the image are all placed, and a placement names no other stage. -/
def stagesPlaced (st : Stream) (im : ImageDecl) : Bool :=
  (List.range im.stages.length).all (fun k => st.place.slots.any (fun p => p.stage == k && !p.record)) &&
    st.place.slots.all (fun p => p.record || p.stage < im.stages.length)

/-- A placement that Lode may choose (R86, R262, R265 to R269, R305).
DESIGN CHOICE: log entry 50. -/
def placeable (id : Nat) (st : Stream) (im : ImageDecl) (s : State) : Bool :=
  stagesPlaced st im && numbersFree st s && quotasOk st s && votesOk st (votePoints st.cls im) s &&
    distancesOk st im && placementOk id st s && (st.cls != .triplex || s.sparesEven (st.cores.map coreQuad))

/-! ### DECLARE_STREAM -/

/-- Active lanes of a CSI-2 port, one of the three numbers of R252: no rule says where they are declared.
DESIGN CHOICE: log entry 7. -/
def declaredLanes (p : Nat) : Nat := ([1, 2, 4][Config.csiLanes p % 3]?).getD 1

/-- Bind the stream to its port, that of a camera pair to both of its lanes (R17, R211, R252). -/
def bindPort (id : Nat) (d : StreamDecl) (s : State) : State :=
  match bindingOf d s with
  | none => s
  | some (p, b) =>
    let s1 := s.modPort p (fun x => { x with
      bind := Tab.insert x.bind b id
      type := if d.kind = 1 then 1 else if d.kind = 3 then x.type else 2
      lanes := if d.kind = 1 then declaredLanes p else if d.kind = 3 then 1 else 2 })
    if d.kind = 0 ∨ d.kind = 2 then s1.modPort (p + 1) (fun x => { x with bind := Tab.insert x.bind b id, type := 2, lanes := 2, second := true })
    else s1

/-- Join the stream to its alignment group (R230). -/
def joinGroup (id : Nat) (d : StreamDecl) (s : State) : State :=
  match d.align with
  | none => s
  | some (g, slot, mand, w, l) =>
    s.modTal (fun t =>
      let x := Tab.get t.groups {} g
      { t with groups := (Tab.insert t.groups g
          { x with w := w, l := l, members := Tab.insert x.members slot id,
                   mandatory := if mand then x.mandatory ||| 2 ^ slot else x.mandatory }) })

/-- Bind a frozen-frame detector that serves no stream (R234); which one, the manual does not say. -/
def bindDetector (id : Nat) (d : StreamDecl) (s : State) : State :=
  match d.frozen with
  | none => s
  | some (excl, thresh) =>
    let (k, s1) := pickUnused 128 (s.tal.detectors.map (·.1)) s
    s1.modTal (fun t => { t with detectors := (Tab.insert t.detectors k
      { en := true, excl := excl, thresh := thresh, stream := id }) })

/-- A detector is free where one is asked for. -/
def detectorFree (d : StreamDecl) (s : State) : Bool := d.frozen.isNone || s.tal.detectors.length < 128

/-- Declare stream `id` (R263, R265, R275).
DESIGN CHOICE: log entry 9. -/
def doDeclare (cmd : Cmd) (id image : Nat) (block : List Byte) (crc : W32) (lode : Option Placement)
    (s : State) : State :=
  let ctx := cmd.ctx.val
  let part := s.partOf ctx
  let fin (status : Nat) (s : State) : State := finishOpen cmd opDeclareStream status noEpoch s
  match Tab.find s.images image with
  | none => fin Status.badArgs s
  | some im =>
    if im.part ≠ part ∨ (s.stream? id).any (fun st => st.ctx != ctx) then fin Status.notPermitted s
    else if id = 0xFFFF ∨ (s.stream? id).isSome ∨ crc ≠ crc32c block then fin Status.badArgs s
    else
      match parseBlock im.decl block with
      | none => fin Status.badArgs s
      | some d0 =>
        let d := withDefaults d0
        let cls := s.classOf part
        if !declOk d im.decl s then fin Status.badArgs s
        else if declRejected d cls im.decl then fin Status.rejected s
        else
          match lode with
          | none => fin Status.noPlacement s
          | some pl =>
            let st : Stream := { ctx := ctx, part := part, cls := cls, image := image, decl := d, place := pl }
            if placeable id st im.decl s && detectorFree d s then
              let s1 := bindDetector id d (joinGroup id d (bindPort id d (s.setStream id st)))
              finish cmd opDeclareStream Status.ok noEpoch
                (id % 65536 + st.coresPerCopy % 256 * 65536) (homePools st (placeStream id st s1))
            else fin Status.noPlacement s

end Sys2Proof.Machine
end

