-- ==== Sys2Proof/Machine/Arm.lean ====
section
/-! DEFINITION. Arming and re-arming streams: ARM_STREAM (R80, R189, R196, R214, R224, R227, R274, R289, R316, R365,
R372, R418), REARM (R193 to R195) and the moment its drain ends. -/

namespace Sys2Proof.Machine

open Sys2Proof Sys2Proof.Machine.Bits

/-! ### Shared parts -/

/-- Upper Tj bound of the grade in 1/8 °C (R4).
DEDUCED: log entry 86. -/
def State.gradeBound (s : State) : Int := if s.nvm.gradeT then 920 else 840

/-- After THERMTRIP, some sensor has not yet read 10 °C below the bound (R372). -/
def State.tooHot (s : State) : Bool := s.pwr.thermHold

/-- A running re-placement of the stream has not reached its end (R289). -/
def State.replacing (s : State) (id : Nat) : Bool := s.replStream == some id

/-- An ARM_STREAM or REARM of the stream that started before order `o` has not completed (R193). -/
def State.armingOf (s : State) (id o : Nat) : Bool :=
  (s.stream? id).any (fun st => st.rearm.isSome) ||
  s.ctl.waiting.any (fun h => h.order < o &&
    match h.cmd with
    | .armStream _ k _ _ _ => k == id && h.why != .behind
    | .rearm _ k _ _ _ => k == id && h.why != .behind
    | _ => false)

/-- The line rings of a core start empty (R80): their words are cleared, and the missing history reads as padding until
lines have entered (R78).
DEDUCED: log entry 34. -/
def CoreSt.emptyRings (c : CoreSt) : CoreSt :=
  let inside (w : Nat) : Bool := c.rings.any (fun r => r.1 ≤ w && w < r.1 + r.2)
  { c with sp := c.sp.filter (fun e => !inside e.1), spPoison := c.spPoison.filter (fun w => !inside w), ringFlag := 0,
           ringLines := 0, ringSeq := none }

/-- Empty the line rings of every core of a stream. -/
def emptyRings (st : Stream) (s : State) : State :=
  forEach st.cores (fun n s => s.modCore n CoreSt.emptyRings) s

/-- Set EPOCH of every queue of a stream (R194).
DESIGN CHOICE: log entry 17. -/
def setQueueEpochs (id e : Nat) (s : State) : State :=
  s.modQmg (fun m =>
    { m with queues := m.queues.map (fun q =>
        (q.1, if q.2.stream = some id then { q.2 with epoch := e } else q.2)) })

/-- LOG2_DEPTH and slot size of the stream's result ring; none when its descriptor is out of range (R418).  A
stream that leaves by UDP has no ring. -/
def ringOf (st : Stream) (im : ImageDecl) (ring : List Byte) : Option (Nat × Nat) :=
  if st.decl.egress = 0 then parseRing ring (ImageDecl.recordSize im) else some (0, 0)

/-! ### The odometer (R224, R227) -/

/-- Number of grid positions up to position `p`: the grid positions are whole multiples of `cpl` above `g`. -/
def gridIndex (g : Int) (cpl : Nat) (p : Int) : Int := (p - g) / (cpl : Int)

/-- The ODOMETER item gives the COUNTS_PER_LINE, FILTER and DIR in force, or no line-scan stream is armed. -/
def odometerFits (d : StreamDecl) (s : State) : Bool :=
  d.kind != 0 || s.lineStreams.isEmpty ||
    (d.cpl == s.tal.odoCpl && d.filter == s.tal.odoFilter && d.dir == s.tal.odoDir)

/-- The first line-scan stream loads TAL_ODO_CFG and fixes the grid at the present position. -/
def fixGrid (d : StreamDecl) (s : State) : State :=
  if d.kind = 0 && s.lineStreams.isEmpty then
    s.modTal (fun t => { t with
      odoEn := true, odoDir := d.dir, odoFilter := d.filter, odoCpl := d.cpl,
      grid := some t.pos, highWater := t.pos, lastTrig := none })
  else s

/-- The sequence number of the next trigger position to be passed, when the first one above the present position
carries `first` (R227): positions that lie below the high-water mark keep their numbers. -/
def lineStart (first : Nat) (s : State) : Nat :=
  match s.tal.grid with
  | none => first
  | some g =>
    first + (gridIndex g s.tal.odoCpl (max s.tal.highWater s.tal.pos) - gridIndex g s.tal.odoCpl s.tal.pos).toNat

/-! ### ARM_STREAM -/

/-- SAFE's check of a SIMPLEX or TRIPLEX placement against R267, R268 and its own copy of the partition
settings (R316). -/
def safeCheck (id : Nat) (st : Stream) (s : State) : Bool :=
  !isSafety st.cls ||
    (placementOk id st s && Tab.get s.safe.classes .none st.part == st.cls &&
      st.cores.all (fun n => (s.core n).part == st.part))

/-- The fault record of a failed placement check. -/
def checkFailed (id : Nat) (st : Stream) (s : State) : State :=
  report { unit := 0xC7, cause := Cause.placementCheck, ctx := st.ctx, part := st.part, stream := some id, cls := 1 } s

/-- The declared speed of a camera pair, one of the seven of R214: no item of R275 carries it.
DESIGN CHOICE: log entry 7. -/
def declaredSpeed (pair : Nat) : Nat := ([1, 2, 3, 5, 6, 10, 12][Config.cxpSpeed pair % 7]?).getD 1

/-- Arm a stream whose every condition holds: it takes an epoch and accepts input. -/
def armNow (cmd : Cmd) (id : Nat) (st : Stream) (first : Nat) (ring : Nat × Nat) (s0 : State) : State :=
  let (e, s) := openEpoch cmd.ctx.val (some id) none s0
  let s1 := fixGrid st.decl (setQueueEpochs id e (emptyRings st s))
  let st' : Stream := { st with
    armed := true, epoch := e, nextSeq := if st.decl.kind = 0 then lineStart first s1 else first,
    lastFrameNo := none, lines := [], cutLines := [], frame := none, ringLog2 := ring.1, ringSlot := ring.2, closed := false }
  let s2 := refreshOdometer (s1.setStream id st')
  let s3 := if st.decl.kind = 0 ∨ st.decl.kind = 2 then
      forEach [st.decl.port, st.decl.port + 1] (fun p s =>
        s.modPort p (fun x => { x with speed := declaredSpeed ((st.decl.port - 12) / 2) })) s2
    else s2
  finish cmd opArmStream Status.ok e 0 s3

/-- ARM_STREAM with start order `o` (R274). -/
def doArm (o : Nat) (cmd : Cmd) (id : Nat) (firstSeq : Option Nat) (camera : Bool) (ring : List Byte)
    (s : State) : State :=
  let i : Instr := .armStream cmd id firstSeq camera ring
  let fin (status : Nat) (s : State) : State := finishOpen cmd opArmStream status noEpoch s
  match s.stream? id with
  | none => fin Status.badArgs s
  | some st =>
    if st.ctx ≠ cmd.ctx.val then fin Status.notPermitted s
    else if s.replacing id then hold .replacement cmd opArmStream o i s
    else
      match (Tab.find s.images st.image).bind (fun im => ringOf st im.decl ring) with
      | none => fin Status.badArgs s
      | some r =>
        if st.armed then fin Status.badArgs s
        else if s.tooHot || (!camera && (st.decl.kind == 0 || st.decl.kind == 2)) || !odometerFits st.decl s then
          fin Status.rejected s
        else if !safeCheck id st s then fin Status.rejected (checkFailed id st s)
        else if isSafety st.cls && !s.bedrockReady st then hold .bedrock cmd opArmStream o i s
        else if s.epochsFull then hold .epochs cmd opArmStream o i s
        else armNow cmd id st (firstSeq.getD 0) r s

/-! ### REARM -/

/-- The entry names a pool of the stream or a DRAM or host-memory queue of it, and its base is aligned (R175, R181,
R193). -/
def rebaseOk (id : Nat) (s : State) (r : Bool × Nat × Nat × Nat) : Bool :=
  match r with
  | (true, n, base, _) =>
    match Tab.find s.qmg.queues n with
    | none => false
    | some q => q.stream == some id && q.loc ≤ 1 && base % 64 == 0
  | (false, n, base, _) =>
    match s.pool? n with
    | none => false
    | some p => p.stream == some id && base % poolAlign p.kind == 0

/-- The first line or frame after the next boundary: a line in reception, some of whose pixels have come, and an open frame lie
before it (R194). -/
def Stream.boundary (st : Stream) : Nat :=
  (st.lines.filter (fun l => l.begun == 0)).foldl (fun a l => min a l.seq) st.nextSeq

/-- The rebase list, checked (R193). -/
def rebaseList (id : Nat) (s : State) (entries : List (List Byte)) : Option (List (Bool × Nat × Nat × Nat)) :=
  let rs := entries.filterMap parseRebase
  if rs.length == entries.length && rs.all (rebaseOk id s) &&
      decide ((rs.map (fun r => (r.1, r.2.1))).Nodup) then some rs
  else none

/-- Open the epoch of a REARM and stop allocation from the ingress pools (R194 step 1, R196). -/
def rearmNow (o : Nat) (cmd : Cmd) (id : Nat) (firstSeq : Option Nat) (rs : List (Bool × Nat × Nat × Nat))
    (ring : Nat × Nat) (s0 : State) : State :=
  let (e, s) := openEpoch cmd.ctx.val (some id) (some o) s0
  (addRunning cmd opRearm o e s).modStream id (fun st => { st with
    closed := true,
    rearm := some { order := o, epoch := e, firstSeq := firstSeq, rebase := rs, ringLog2 := ring.1, ringSlot := ring.2,
                    boundary := st.boundary } })

/-- REARM with start order `o` (R193). -/
def doRearm (o : Nat) (cmd : Cmd) (id : Nat) (firstSeq : Option Nat) (rebase : List (List Byte)) (ring : List Byte)
    (s : State) : State :=
  let i : Instr := .rearm cmd id firstSeq rebase ring
  let fin (status : Nat) (s : State) : State := finishOpen cmd opRearm status noEpoch s
  match s.stream? id with
  | none => fin Status.badArgs s
  | some st =>
    if st.ctx ≠ cmd.ctx.val then fin Status.notPermitted s
    else if s.armingOf id o then hold (.rearm id) cmd opRearm o i s
    else if s.replacing id then hold .replacement cmd opRearm o i s
    else
      match (Tab.find s.images st.image).bind (fun im => ringOf st im.decl ring), rebaseList id s rebase with
      | some r, some rs =>
        if !st.armed then fin Status.badArgs s
        else if s.epochsFull then hold .epochs cmd opRearm o i s
        else rearmNow o cmd id firstSeq rs r s
      | _, _ => fin Status.badArgs s

/-- Every item accepted before the boundary is recorded and every buffer of the stream's pools lies in its free queue (R194
step 2). -/
def drained (id : Nat) (st : Stream) (s : State) : Bool :=
  let before (n : Nat) : Bool := st.rearm.all (fun r => n < r.boundary)
  st.items.all (fun it => !before it.seq) && st.frame.all (fun f => !before f.seq) &&
    s.qmg.pools.all (fun p =>
      p.2.stream != some id || (s.queue p.2.freeQueue).entries.length == p.2.count)

/-- Advance the generation of every buffer of a pool (R194 step 3). -/
def advanceAll (p : Nat) (pl : PoolSt) (s : State) : State :=
  forEach (List.range pl.count) (fun i s => s.modBuffer p i (fun b => { b with gen := nextGen b.gen })) s

/-- The windows of a STRATA_SLOT pool follow its base (R132, R193). -/
def moveWindows (pl : PoolSt) (s : State) : State :=
  if pl.kind = 1 then
    forEach pl.windowCores (fun c s => s.modCore c (fun k =>
      (List.range pl.count).foldl (fun k i =>
        k.modWindow (pl.window0 + i) (fun w => { w with base := pl.base + i * pl.units * 16 })) k)) s
  else s

/-- Write a new base of a pool or queue. -/
def rebaseOne (r : Bool × Nat × Nat × Nat) (s : State) : State :=
  match r with
  | (true, n, base, _) => s.modQueue n (fun q => { q with ringBase := base })
  | (false, n, base, mbase) =>
    match s.pool? n with
    | none => s
    | some pl =>
      moveWindows { pl with base := base } (advanceAll n pl (s.modQmg (fun m => { m with
        pools := Tab.insert m.pools n { pl with base := base, metaBase := mbase } })))

/-- Steps 3 and 4 of R194 once the stream has drained: the new bases, generations and epoch in one cycle, line
rings empty, allocation open again, and the REARM completes. -/
def rearmDone (id : Nat) (s : State) : State :=
  match s.stream? id with
  | none => s
  | some st =>
    match st.rearm with
    | none => s
    | some r =>
      if drained id st s then
        let s1 := emptyRings st (setQueueEpochs id r.epoch (forEach r.rebase rebaseOne s))
        let s2 := s1.modStream id (fun st => { st with
          epoch := r.epoch, nextSeq := r.firstSeq.getD st.nextSeq, ringLog2 := r.ringLog2, ringSlot := r.ringSlot,
          rearm := none, closed := false })
        endRunning st.ctx r.order Status.ok 0 (modEpoch r.epoch (fun x => { x with opener := none }) s2)
      else s

end Sys2Proof.Machine
end

