-- ==== Sys2Proof/Machine/Jobs.lean ====
section
/-! DEFINITION. Jobs: DISPATCH and its admission (R91, R196, R279, R281, R405), the accounting of finished jobs (R283),
adaptation jobs that a corrupt sample holds (R248, R249), and phase hints (R284, R363). -/

namespace Sys2Proof.Machine

open Sys2Proof Sys2Proof.Machine.Bits

/-! ### Admission (R281) -/

/-- The units of an image, by stage. -/
def imageUnits (s : State) (image : Nat) : List (List UnitDecl) :=
  match Tab.find s.images image with
  | none => []
  | some im => im.decl.stages.map (·.units)

/-- P: the declared worst-case times along the chain of a job's units, stage after stage (R281; log entry 22). -/
def criticalPath (s : State) (image : Nat) : Nat :=
  ((imageUnits s image).map (fun us => (us.map (·.wcet)).sum)).sum

/-- Largest declared time among the units of stream `st` on a core of `cores`. -/
def largestOn (s : State) (st : Stream) (cores : List Nat) : Nat :=
  (st.place.slots.filter (fun p => p.cores.any (fun c => cores.contains c.val))).foldl (fun a p =>
    ((s.stageOf st p.stage).map (fun d => (d.units.map (·.wcet)).foldl max 0)).getD 0 |> max a) 0

/-- B: the largest declared time of a unit of another stream that may run on a core of the job. -/
def blockingTime (s : State) (id : Nat) (cores : List Nat) : Nat :=
  s.streams.foldl (fun a e => if e.1 = id then a else max a (largestOn s e.2 cores)) 0

/-- Q: critical paths of admitted jobs with a deadline, of equal or higher priority, that share a core. -/
def queuedTime (s : State) (prio : Nat) (cores : List Nat) : Nat :=
  s.streams.foldl (fun a e =>
    if e.2.cores.any (cores.contains ·) then
      a + ((e.2.jobs.filter (fun j => j.deadline ≠ 0 && prio ≤ j.prio)).map (·.path)).sum
    else a) 0

/-- now + B + Q + P ≤ deadline; a job without a deadline is admitted (R281).
DEDUCED: log entry 22. -/
def admitted (s : State) (id : Nat) (st : Stream) (prio deadline : Nat) : Bool :=
  deadline == 0 ||
    s.tal.time + blockingTime s id st.cores + queuedTime s prio st.cores + criticalPath s st.image ≤ deadline

/-! ### DISPATCH -/

/-- The cores of a slot by tile: tile k goes to core k mod G (R91). -/
def tileCore (p : SlotPlan) (k : Nat) : Option Nat := (p.cores[k % max 1 p.cores.length]?).map (·.val)

/-- Make the units of one tile of the first stage ready on its core. -/
def readyTile (id : Nat) (st : Stream) (job : Job) (p : SlotPlan) (d : StageDecl) (n k : Nat) (s0 : State) : State :=
  match tileCore p k with
  | none => s0
  | some c =>
    let (o, s) := s0.nextOrder
    let u : UnitInst :=
      { ctx := job.ctx, part := st.part, stream := id, slot := p.slot.val, stage := 0, unit := 0, copy := p.copy,
        seq := job.seq, tile := k, last := k + 1 == n, epoch := job.epoch,
        wcet := ((d.units[0]?).map (·.wcet)).getD 0, prio := job.prio, deadline := job.deadline, order := o,
        readyAt := s.clock, record := p.record }
    s.modCore c (fun x => { x with ready := x.ready ++ [u], releasedAt := some s.clock })

/-- Number of tiles of a stage's grid (R91): those of its Hilbert visit order. -/
def tileCount (d : StageDecl) : Nat := d.cw * d.ch

/-- Make the units of a job's first stage ready, tile by tile in visit order. -/
def readyJob (id : Nat) (st : Stream) (job : Job) (s : State) : State :=
  let d := (s.stageOf st 0).getD { mode := .frame }
  let n := tileCount d
  forEach (st.place.slots.filter (fun p => p.stage == 0 && !p.record)) (fun p s =>
    forEach (List.range n) (readyTile id st job p d n) s) s

/-- Admit a job: it takes an epoch, one record is owed for it, and its first units are ready (R196, R279). -/
def dispatchNow (o : Nat) (cmd : Cmd) (id : Nat) (st : Stream) (prio : Nat) (adapt : Bool) (deadline : Nat)
    (roundSeed augSeed : W64) (first : Nat) (s0 : State) : State :=
  let (e, s1) := openEpoch cmd.ctx.val (some id) (some o) s0
  let job : Job :=
    { ctx := cmd.ctx.val, epoch := e, prio := prio, deadline := deadline, path := criticalPath s0 st.image,
      order := o, adapt := adapt, roundSeed := roundSeed, augSeed := augSeed, sample := first, first := first, seq := st.nextSeq,
      unitsLeft := tileCount ((s0.stageOf st 0).getD { mode := .frame }) }
  let it : Item := { seq := st.nextSeq, stamp := Config.freeNat s1.free % 2 ^ 64, checked := true, epoch := e }
  let s2 := { s1 with free := s1.free + 1 }
  let s3 := s2.modStream id (fun st => { st with
    jobs := st.jobs ++ [job], nextSeq := st.nextSeq + 1, items := insertItem it st.items })
  let s4 := if st.jobs.isEmpty then setQueueEpochs id e s3 else s3
  readyJob id st job (addRunning cmd opDispatch o e s4)

/-- DISPATCH with start order `o` (R281). -/
def doDispatch (o : Nat) (cmd : Cmd) (id : Nat) (prio : Fin 8) (adapt : Bool) (input output : W64) (deadline : Nat)
    (roundSeed augSeed : W64) (first : Nat) (s : State) : State :=
  let fin (status : Nat) (s : State) : State := finishOpen cmd opDispatch status noEpoch s
  match s.stream? id with
  | none => fin Status.badArgs s
  | some st =>
    if st.ctx ≠ cmd.ctx.val then fin Status.notPermitted s
    else if st.decl.kind ≠ 4 ∨ (adapt = true ∧ st.decl.adapt = none) then fin Status.badArgs s
    else if !admitted s id st prio.val deadline then fin Status.deadline s
    else if s.epochsFull then
      hold .epochs cmd opDispatch o
        (.dispatch cmd id prio adapt input output deadline roundSeed augSeed first) s
    else dispatchNow o cmd id st prio.val adapt deadline roundSeed augSeed first s

/-! ### The end of a job (R274, R283) -/

/-- JOBS_DONE counts one more record written; a wrap sets OVF (R283). -/
def Ctx.jobDone (x : Ctx) : Ctx :=
  { x with jobsDone := (x.jobsDone + 1) % 2 ^ 32, ovf := x.ovf || x.jobsDone + 1 == 2 ^ 32 }

/-- The record of a job item has been written: the job ends and its DISPATCH completes with the jobs completed
on the stream.
DESIGN CHOICE: log entry 15.
DESIGN CHOICE: log entry 17. -/
def endJob (id seq : Nat) (s : State) : State :=
  match s.stream? id with
  | none => s
  | some st =>
    match st.jobs.find? (fun j => j.seq == seq) with
    | none => s
    | some j =>
      let rest := st.jobs.filter (fun k => k.seq != seq)
      let s1 := s.modStream id (fun st => { st with jobs := rest, jobsDone := (st.jobsDone + 1) % 2 ^ 32 })
      let s2 := match rest with
        | [] => s1
        | k :: _ => setQueueEpochs id k.epoch s1
      endRunning j.ctx j.order Status.ok ((st.jobsDone + 1) % 2 ^ 32)
        (modEpoch j.epoch (fun x => { x with opener := none }) (s2.modCtx j.ctx Ctx.jobDone))

/-! ### Held adaptation jobs (R249) -/

/-- The adaptation job that was held last among those that are held. -/
def State.lastHeld (s : State) : Option Job :=
  (s.streams.flatMap (fun e => e.2.jobs.filter (fun j => j.held.isSome))).foldl (fun a j =>
    if a.any (fun x => j.heldAt < x.heldAt) then a else some j) none

/-- PPE_HELD and PPE_HELD_SAMPLE (R249, R259). -/
def refreshHeld (s : State) : State :=
  match s.lastHeld with
  | none => s.modPpe (fun p => { p with held := false })
  | some j => s.modPpe (fun p => { p with held := true, heldCtx := j.ctx, heldSample := j.held.getD 0 % 2 ^ 32 })

/-- Samples of the micro-batch of sample `k` that a job has fed before it: batch b holds samples b × B to b × B + B − 1, from the first of
the job on and without those that SKIP has dropped (R249). -/
def Job.partialBatch (j : Job) (b k : Nat) : List Nat :=
  ((List.range (k % b)).map (fun i => k / b * b + i)).filter (fun i => j.first ≤ i && !j.dropped.contains i)

/-- A corrupt sample stops the adaptation job of its stream at that sample, holds its partial micro-batch and
completes the DISPATCH with HELD (R249, R276).
DESIGN CHOICE: log entry 15. -/
def holdJob (id k : Nat) (s : State) : State :=
  match s.stream? id with
  | none => s
  | some st =>
    match st.jobs.find? (fun j => j.adapt && j.held.isNone) with
    | none => s
    | some j =>
      let b := max 1 ((st.decl.adapt.map (·.1)).getD 1)
      let s1 := s.modStream id (fun st => { st with
        jobs := st.jobs.map (fun x =>
          if x.seq = j.seq then { x with held := some k, heldSamples := j.partialBatch b k, heldAt := s.ppe.holds } else x) })
      let s2 := raise .ppe Bit.ppeHeld (refreshHeld (s1.modPpe (fun p => { p with holds := p.holds + 1 })))
      endRunning j.ctx j.order Status.held (k % 2 ^ 32) (modEpoch j.epoch (fun x => { x with opener := none }) s2)

/-- The stream and job of a context that is held. -/
def State.heldOf (s : State) (ctx : Nat) : Option (Nat × Job) :=
  ((s.streams.map (fun e => (e.2.jobs.filter (fun j => j.ctx == ctx && j.held.isSome)).map (fun j => (e.1, j)))).flatten).head?

/-- SKIP: the corrupt sample is dropped and the job goes on after it, its micro-batch with the samples that it has (R249). -/
def skipHeld (id : Nat) (j : Job) (s : State) : State :=
  refreshHeld (s.modStream id (fun st => { st with
    jobs := st.jobs.map (fun x =>
      if x.seq = j.seq then { x with held := none, heldSamples := [], sample := max x.sample (j.held.getD 0 + 1), dropped := x.dropped ++ j.held.toList } else x) }))

/-- ABORT: the held samples are discarded and the job ends; stored gradients stay (R123, R249).
DESIGN CHOICE: log entry 18. -/
def abortHeld (id : Nat) (j : Job) (s : State) : State :=
  refreshHeld (s.modStream id (fun st => { st with
    jobs := st.jobs.filter (fun x => x.seq != j.seq), items := st.items.filter (fun it => it.seq != j.seq) }))

/-- SERVICE RESUME_HELD with SKIP (R278).
DESIGN CHOICE: log entry 15. -/
def doResumeSkip (cmd : Cmd) (s : State) : State :=
  match s.heldOf cmd.ctx.val with
  | none => finishOpen cmd opService Status.badArgs noEpoch s
  | some (id, j) => finishOpen cmd opService Status.ok noEpoch (skipHeld id j s)

/-- SERVICE RESUME_HELD with ABORT (R278). -/
def doResumeAbort (cmd : Cmd) (s : State) : State :=
  match s.heldOf cmd.ctx.val with
  | none => finishOpen cmd opService Status.badArgs noEpoch s
  | some (id, j) => finishOpen cmd opService Status.ok noEpoch (abortHeld id j s)

/-! ### CANCEL (R197, R199, R278, R289) -/

/-- Held jobs of the epoch are aborted first (R278). -/
def abortHeldOf (e : Nat) (s : State) : State :=
  forEach ((s.streams.map (fun x => (x.2.jobs.filter (fun j => j.epoch == e && j.held.isSome)).map (fun j => (x.1, j)))).flatten)
    (fun p s => abortHeld p.1 p.2 s) s

/-- CANCEL with start order `o`: a live epoch of its own context, or NO_EPOCH at once (R197). -/
def doCancel (o : Nat) (cmd : Cmd) (e : Nat) (s : State) : State :=
  match Tab.find s.qmg.epochs e with
  | none => finishOpen cmd opCancel Status.noEpoch e s
  | some x =>
    if x.ctx ≠ cmd.ctx.val then finishOpen cmd opCancel Status.noEpoch e s
    else
      let s1 := modEpoch e (fun x => { x with cancels := x.cancels ++ [o] }) (addRunning cmd opCancel o e s)
      if x.cancelled then s1
      else
        let mine := s1.replStream.any (fun id => (s1.streamsOfEpoch e).contains id)
        cancelEpoch e (abortHeldOf e (if mine then abandonForCancel s1 else s1))

/-- The queues of every job stream carry the epoch of its oldest job.
DESIGN CHOICE: log entry 17. -/
def nextJobs (s : State) : State :=
  forEach s.streams (fun x s =>
    match x.2.jobs with
    | [] => s
    | j :: _ => setQueueEpochs x.1 j.epoch s) s

/-- A cancelled epoch and its twin are quiet: CANCEL completes with OK and the command that opened the epoch,
when it has not completed, with CANCELLED (R198, R199).  A re-placement that the CANCEL abandoned becomes pending again
(R289). -/
def epochQuietNow (e : Nat) (s : State) : State :=
  match Tab.find s.qmg.epochs e with
  | none => s
  | some x =>
    let es := e :: x.twin.toList
    if x.cancelled && es.all (fun k => quiet k s) then
      let close (k : Nat) (s : State) : State :=
        match Tab.find s.qmg.epochs k with
        | none => s
        | some y =>
          let s1 := forEach y.cancels (fun o s => endRunning y.ctx o Status.ok 0 s) s
          let s2 := forEach y.opener.toList (fun o s => endOpen y.ctx o Status.cancelled s) s1
          modEpoch k (fun y => { y with cancels := [], opener := none }) s2
      nextJobs ((forEach es close s).modCtl (fun c =>
        { c with pendRepl := c.retry.foldl addOnce c.pendRepl, retry := [] }))
    else s

/-- A cancelled epoch is still not quiet 1 ms after its CANCEL: a fatal device error (R198, R389). -/
def cancelTimedOut (e : Nat) (s : State) : State :=
  match Tab.find s.qmg.epochs e with
  | none => s
  | some x =>
    if x.cancelled && !x.cancels.isEmpty && x.cancelAt + 1000000 ≤ s.clock && !(e :: x.twin.toList).all (fun k => quiet k s)
    then fatalError Fatal.cancelTimeout (raise .qmg Bit.qmgCancelTimeout s)
    else s

/-- A completion of the epoch is held behind a full completion ring (R196, R204). -/
def State.completionHeld (s : State) (e : Nat) : Bool := s.ctxs.any (fun c => c.2.cplHeld.any (fun x => x.1.epoch == e))

/-- An epoch is live until it is quiet and its last completion has been posted; then its number is free (R196). -/
def freeEpoch (e : Nat) (s : State) : State :=
  match Tab.find s.qmg.epochs e with
  | none => s
  | some x =>
    if quiet e s && x.cancels.isEmpty && x.opener.isNone && !s.epochInUse e && !s.completionHeld e then
      s.modQmg (fun m => { m with epochs := Tab.erase m.epochs e })
    else s

/-! ### FENCE and HINT_PHASE -/

/-- FENCE with start order `o` (R274).
DESIGN CHOICE: log entry 16. -/
def doFence (o : Nat) (cmd : Cmd) (e : Nat) (s : State) : State :=
  settleFences ((addRunning cmd opFence o e s).modCtl (fun c =>
    { c with fences := c.fences ++ [{ ctx := cmd.ctx.val, order := o, epoch := e }] }))

/-- The context has work on some quadrant. -/
def State.hasWork (s : State) (ctx : Nat) : Bool := s.streams.any (fun e => e.2.ctx == ctx && !e.2.cores.isEmpty)

/-- HINT_PHASE: the phase comes into force at the next allocator decision, for the given time; a hint of a
context without work is ignored (R284, R363). -/
def doHint (cmd : Cmd) (phase : Fin 16) (us : Nat) (s : State) : State :=
  finish cmd opHintPhase Status.ok noEpoch 0
    (if s.hasWork cmd.ctx.val then
      s.modCtx cmd.ctx.val (fun x =>
        { x with phase := 0, hint := some phase.val, phaseUntil := some (s.clock + us * 1000) })
     else s)

/-- The duration of a hint ends: phase 0 (R363). -/
def hintEnds (ctx : Nat) (s : State) : State :=
  match (s.ctx ctx).phaseUntil with
  | none => s
  | some t => if t ≤ s.clock then s.modCtx ctx (fun x => { x with phase := 0, hint := none, phaseUntil := none }) else s

end Sys2Proof.Machine
end

