-- ==== Sys2Proof/Machine/Query.lean ====
section
/-! DEFINITION. QUERY: the placement table (R270), image summaries, stream state, accounting, fault records and
spares (R277, R283), and the byte form of a fault record (R301). -/

namespace Sys2Proof.Machine

open Sys2Proof Sys2Proof.Machine.Bits

/-! ### Fault records (R301) -/

/-- Bytes 0 to 27 of a fault record. -/
def FaultRec.body (r : FaultRec) : List Byte :=
  let e := r.ev
  toBytes 8 e.time ++ toBytes 8 e.seq ++ toBytes 2 (if e.ctx = 0xFFFF then 0xFFFF else e.ctx % 4096) ++
    toBytes 1 e.part ++ toBytes 1 e.unit ++ toBytes 2 e.slot ++ toBytes 1 e.cause ++
    toBytes 1 ((if e.masked then 16 else 0) + (if r.dangerous then 8 else 0) + (if r.permanent then 4 else 0) + e.cls % 4) ++
    toBytes 4 (e.bit % 256 + e.reason % 256 * 256)

/-- The 32 bytes of a fault record, its CRC-32C last. -/
def FaultRec.bytes (r : FaultRec) : List Byte := r.body ++ toBytes 4 (crc32c r.body).toNat

/-! ### The placement table (R270) -/

/-- Number of stage slots. -/
def slotCount : Nat := 4096

/-- The stream and plan of a stage slot. -/
def State.slotUse (s : State) (k : Nat) : Option (Nat × Stream × SlotPlan) :=
  (s.streams.filterMap (fun e => (e.2.place.slots.find? (fun p => p.slot.val == k)).map (fun p => (e.1, e.2, p)))).head?

/-- The code of a quadrant, 0xFF when the cores span quadrants. -/
def quadCode (cores : List Nat) : Nat :=
  match (cores.map coreQuad).eraseDups with
  | [q] => q
  | _ => 0xFF

/-- Pool numbers of the input links of a slot: the pools of the link targets whose queues its cores consume. -/
def inputPools (st : Stream) (p : SlotPlan) : List Nat :=
  ((st.place.links.map (fun l =>
    (List.range l.targets).filterMap (fun t =>
      if st.place.queues.any (fun q => q.queue.val == l.firstQueue.val + t && q.consumers.any (p.cores.contains ·)) then
        some (if l.perTarget then l.firstPool + t else l.firstPool)
      else none))).flatten).eraseDups

/-- `xs` cut or filled with `d` to length `n`. -/
def padTo {α : Type} (n : Nat) (d : α) (xs : List α) : List α := xs.take n ++ List.replicate (n - xs.length) d

/-- The 96 bytes of a slot.  Bytes 2 to 7 of an unused slot have no stated content: a free value. -/
def slotBytes (s : State) (k : Nat) : List Byte :=
  let epoch := toBytes 4 (Tab.get s.slotEpochs 0 k)
  match s.slotUse k with
  | none =>
    toBytes 2 0xFFFF ++ toBytes 6 (Config.freeNat (s.free + k)) ++ epoch ++ toBytes 1 0xFF ++ toBytes 3 0 ++
      List.replicate 16 0xFF ++ List.replicate 64 0xFF
  | some (id, st, p) =>
    let d := (s.stageOf st p.stage).getD { mode := .frame }
    let strata := d.mode == .strata
    toBytes 2 id ++ toBytes 1 p.stage ++ toBytes 1 (if st.cls = .triplex then p.copy else 0xFF) ++
      toBytes 1 st.part ++ toBytes 1 (if strata then 0 else 1) ++ toBytes 1 d.g ++ toBytes 1 d.i ++ epoch ++
      toBytes 1 (quadCode (p.cores.map (·.val))) ++ toBytes 3 0 ++
      ((padTo 8 0xFFFF (inputPools st p)).map (toBytes 2)).flatten ++
      ((padTo 64 0xFF (p.cores.map (·.val))).map (toBytes 1)).flatten

/-- Partitions of the contexts that a function owns. -/
def State.partsOfFn (s : State) (fn : Nat) : List Nat :=
  (s.ctxs.filterMap (fun e => if e.2.fn = fn then e.2.part else none)).eraseDups

/-- The slots that a function receives: all for the physical function, those of its contexts' partitions for a
virtual function. -/
def visibleSlots (s : State) (fn : Nat) : List Nat :=
  if fn = 0 then List.range slotCount
  else (List.range slotCount).filter (fun k =>
    (s.slotUse k).any (fun u => (s.partsOfFn fn).contains u.2.1.part))

/-- Write the answer of a QUERY and complete it with the bytes written; a destination that is too short receives
the first bytes (log entry 23). -/
def answer (cmd : Cmd) (len : Nat) (bytes : List Byte) (s : State) : State :=
  let out := bytes.take len
  finish cmd opQuery Status.ok noEpoch out.length (s.emit (.query cmd.ctx.val out))

/-- Write an answer whose layout the manual leaves open, `size` bytes long.
DESIGN CHOICE: log entry 23. -/
def answerFields (cmd : Cmd) (len size : Nat) (fields : List Nat) (s : State) : State :=
  finish cmd opQuery Status.ok noEpoch (min len size) (s.emit (.queryFields cmd.ctx.val fields))

/-! ### The subjects (R277) -/

/-- 0x01: the placement slots. -/
def doQueryPlacement (cmd : Cmd) (len : Nat) (s : State) : State :=
  answer cmd len (((visibleSlots s (s.ctx cmd.ctx.val).fn).map (slotBytes s)).flatten) { s with free := s.free + slotCount }

/-- Code of a safety class (R263). -/
def classCode : SafetyClass → Nat
  | .none => 0
  | .simplex => 1
  | .triplex => 2

/-- The summary of a stage, in the order of R277. -/
def stageSummary (im : ImageDecl) (d : StageDecl) : List Nat :=
  [if d.mode = .strata then 0 else 1, classCode d.needs, d.g, d.i, d.coresPerCopy, d.slice, d.halo, im.worstPath,
   im.minPeriod, d.tileTime, d.downstream, d.units.length]

/-- 0x02: a 32-byte summary per stage of an image of the context's partition. -/
def doQueryImage (cmd : Cmd) (image len : Nat) (s : State) : State :=
  match Tab.find s.images image with
  | none => finishOpen cmd opQuery Status.badArgs noEpoch s
  | some im =>
    if im.part ≠ s.partOf cmd.ctx.val then finishOpen cmd opQuery Status.notPermitted noEpoch s
    else answerFields cmd len (32 * im.decl.stages.length) ((im.decl.stages.map (stageSummary im.decl)).flatten) s

/-- 0x03: the state of a stream of the context. -/
def doQueryStream (cmd : Cmd) (id len : Nat) (s : State) : State :=
  match s.stream? id with
  | none => finishOpen cmd opQuery Status.badArgs noEpoch s
  | some st =>
    if st.ctx ≠ cmd.ctx.val then finishOpen cmd opQuery Status.notPermitted noEpoch s
    else
      answerFields cmd len Config.streamStateBytes
        [id, st.image, classCode st.cls, if st.armed then 1 else 0, st.epoch, st.nextSeq, st.items.length,
         if st.faulted then 1 else 0, st.jobsDone] s

/-- 0x04: the accounting record of the context; reading it clears OVF (R283). -/
def doQueryAccounting (cmd : Cmd) (len : Nat) (s : State) : State :=
  let x := s.ctx cmd.ctx.val
  answerFields cmd len Config.accountingBytes
    [x.jobsDone, x.waitNs, x.maxWait, x.passed, if x.trace then 1 else 0, if x.ovf then 1 else 0]
    (s.modCtx cmd.ctx.val (fun x => { x with ovf := false }))

/-- 0x05: the last 256 fault records of the context. -/
def doQueryFaults (cmd : Cmd) (len : Nat) (s : State) : State :=
  answer cmd len ((((s.ctx cmd.ctx.val).faults.take 256).map FaultRec.bytes).flatten) s

/-- 0x06: spare-pool cores per quadrant. -/
def doQuerySpares (cmd : Cmd) (len : Nat) (s : State) : State :=
  answerFields cmd len Config.sparesBytes [s.sparesIn 0, s.sparesIn 1, s.sparesIn 2, s.sparesIn 3] s

end Sys2Proof.Machine
end

