-- ==== Sys2Proof/Machine/Service.lean ====
section
/-! DEFINITION. SERVICE (R278): partitions (R262, R282), bindings (R264), core tests, slice bypass (R152), settings (R429),
camera registers, seconds (R220), accounting (R283) and firmware updates (R402 to R404). -/

namespace Sys2Proof.Machine

open Sys2Proof Sys2Proof.Machine.Bits

/-- Complete a SERVICE at once; no rule states its DETAIL.
DESIGN CHOICE: log entry 13. -/
def served (cmd : Cmd) (status : Nat) (s : State) : State := finishOpen cmd opService status noEpoch s

/-- A function marked PF: NOT_PERMITTED for a virtual function (R278). -/
def pfOnly (cmd : Cmd) (s t : State) : State := if s.isPF cmd then t else served cmd Status.notPermitted s

/-- A context has a live epoch. -/
def State.hasEpoch (s : State) (c : Nat) : Bool := s.qmg.epochs.any (fun e => e.2.ctx == c)

/-! ### Partitions (R262, R282, R325, R326) -/

/-- A property given, or the present value. -/
def applyProps (p : PartProps) (x : Partition) : Partition :=
  { x with
    cls := p.cls.getD x.cls, coreQuota := p.coreQuota.getD x.coreQuota, queueQuota := p.queueQuota.getD x.queueQuota,
    poolQuota := p.poolQuota.getD x.poolQuota, wayMask := p.wayMask.getD x.wayMask,
    meshShare := p.meshShare.getD x.meshShare, dramShare := p.dramShare.getD x.dramShare,
    functions := p.functions.getD x.functions, period := p.period.getD x.period }

/-- The budget a context has after the properties are given.
DESIGN CHOICE: log entry 33. -/
def budgetWith (p : PartProps) (s : State) (c : Nat) : Nat :=
  match p.budgets.find? (fun b => b.1.val == c) with
  | some b => b.2
  | none => ((s.ctx c).budget).getD 0

/-- Contexts that count for the budgets of a partition whose properties are given: those bound to it and those named. -/
def budgetContexts (p : PartProps) (s : State) (n : Nat) : List Nat :=
  ((s.ctxs.filter (fun e => e.2.part == some n)).map (·.1) ++ p.budgets.map (·.1.val)).eraseDups

/-- The budgets of the contexts of another partition, as far as the properties name them, go beyond its cores and period (R282). -/
def othersOver (p : PartProps) (s : State) (n : Nat) : Bool :=
  s.parts.any (fun e => e.1 != n && p.budgets.any (fun b => (s.ctx b.1.val).part == some e.1) &&
    e.2.coreQuota * e.2.period < ((s.ctxs.filter (fun c => c.2.part == some e.1)).map (fun c => budgetWith p s c.1)).sum)

/-- The ways of a safety partition lie in no other partition's mask (R151, R262). -/
def waysClash (n : Nat) (x : Partition) (s : State) : Bool :=
  s.parts.any (fun e => e.1 != n && (isSafety x.cls || isSafety e.2.cls) && (e.2.wayMask &&& x.wayMask) != 0)

/-- A value of the properties lies outside its range, or a sum over the partitions is exceeded: cores 160, mesh
cycles 64, DRAM slots 60, budgets the core count times the period.
DESIGN CHOICE: log entry 33. -/
def propsBad (p : PartProps) (s : State) (n : Nat) (x : Partition) : Bool :=
  let others := s.parts.filter (fun e => e.1 != n)
  160 < x.coreQuota + (others.map (·.2.coreQuota)).sum ||
    64 < x.meshShare + (others.map (·.2.meshShare)).sum ||
    60 < x.dramShare + (others.map (·.2.dramShare)).sum || waysClash n x s ||
    0x10000 ≤ x.wayMask || 0x20000 ≤ x.functions || x.period < 100000 || 100000000 < x.period ||
    x.coreQuota * x.period < ((budgetContexts p s n).map (budgetWith p s)).sum || othersOver p s n

/-- Store a partition, SAFE's copy of its class, and the budgets given. -/
def putPartition (n : Nat) (x : Partition) (p : PartProps) (s : State) : State :=
  let s1 := { s with
    parts := Tab.insert s.parts n x
    safe := { s.safe with classes := Tab.insert s.safe.classes n x.cls } }
  forEach p.budgets (fun b s => s.modCtx b.1.val (fun c => { c with budget := some b.2, budgetLeft := b.2 })) s1

/-- PARTITION create (R262): a property that is not given takes its default.
DESIGN CHOICE: log entry 10. -/
def doPartCreate (cmd : Cmd) (n : Nat) (p : PartProps) (s : State) : State :=
  let x := { applyProps p {} with periodAt := s.clock }
  pfOnly cmd s
    (if (s.part? n).isSome || propsBad p s n x then served cmd Status.badArgs s
     else served cmd Status.ok (putPartition n x p s))

/-- A stream of the partition is armed. -/
def State.partArmed (s : State) (n : Nat) : Bool := s.streams.any (fun e => e.2.part == n && e.2.armed)

/-- The partition has a declared stream or a loaded image. -/
def State.partUsed (s : State) (n : Nat) : Bool :=
  s.streams.any (fun e => e.2.part == n) || s.images.any (fun e => e.2.part == n)

/-- PARTITION change (R262).
DESIGN CHOICE: log entry 10. -/
def doPartChange (cmd : Cmd) (n : Nat) (p : PartProps) (s : State) : State :=
  pfOnly cmd s
    (match s.part? n with
    | none => served cmd Status.badArgs s
    | some x =>
      if s.partArmed n || (p.cls.any (fun c => c != x.cls) && s.partUsed n) then served cmd Status.busy s
      else if propsBad p s n (applyProps p x) || p.coreQuota.any (fun q => q < (s.coresHeld n).length) then
        served cmd Status.badArgs s
      else served cmd Status.ok (putPartition n (applyProps p x) p s))

/-- Unbind a context that is bound to partition `n`. -/
def Ctx.unbind (n : Nat) (x : Ctx) : Ctx := if x.part = some n then { x with part := none } else x

/-- The contexts after partition `n` has gone; every context that nothing has written is bound to partition 0.
DESIGN CHOICE: log entry 85. -/
def unbindAll (n : Nat) (s : State) : Tab Ctx :=
  if n = 0 then (List.range 4096).map (fun c => (c, (s.ctx c).unbind 0)) else s.ctxs.map (fun e => (e.1, e.2.unbind n))

/-- Remove a partition: its streams, images, cores, queues, pools, ways and shares go, its contexts are unbound.
DESIGN CHOICE: log entry 85. -/
def dropPartition (n : Nat) (s : State) : State :=
  let s1 := forEach (s.streamIds (fun st => st.part == n)) dropStream s
  { s1 with
    images := s1.images.filter (fun e => e.2.part != n)
    parts := Tab.erase s1.parts n
    safe := { s1.safe with classes := Tab.erase s1.safe.classes n }
    ctxs := unbindAll n s1 }

/-- A context bound to the partition has EN at 1 or a live epoch. -/
def State.partLive (s : State) (n : Nat) : Bool :=
  s.ctxs.any (fun e => e.2.part == some n && (e.2.en || s.hasEpoch e.1))

/-- PARTITION remove (R262).
DESIGN CHOICE: log entry 10. -/
def doPartRemove (cmd : Cmd) (n : Nat) (s : State) : State :=
  pfOnly cmd s
    (if (s.part? n).isNone then served cmd Status.badArgs s
     else if s.partArmed n || s.partLive n then served cmd Status.busy s
     else served cmd Status.ok (dropPartition n s))

/-! ### CONTEXT_BIND (R264) -/

/-- Vectors of a function (R416). -/
def vectorsOf (fn : Nat) : Nat := if fn = 0 then 1024 else 192

/-- The budgets of a partition's contexts with context `c` among them (R282). -/
def budgetsBound (s : State) (n c : Nat) : Nat :=
  (((s.ctxs.filter (fun e => e.2.part == some n && e.1 != c)).map (fun e => (e.2.budget).getD 0))).sum + ((s.ctx c).budget).getD 0

/-- CONTEXT_BIND: only while EN is 0 and no epoch of the context is live, and with a budget that the partition has room for (R264,
R282). -/
def doBind (cmd : Cmd) (c n fn vector : Nat) (s : State) : State :=
  pfOnly cmd s
    (if (s.ctx c).en || s.hasEpoch c then served cmd Status.busy s
     else
      match s.part? n with
      | none => served cmd Status.badArgs s
      | some x =>
        if !x.functions.testBit fn || vectorsOf fn ≤ vector || x.coreQuota * x.period < budgetsBound s n c then served cmd Status.badArgs s
        else served cmd Status.ok (s.modCtx c (fun y => { y with part := some n, fn := fn, vector := vector })))

/-! ### CORE_TEST and SLICE_BYPASS -/

/-- Slots of a core's stages, to be moved off it (R285, R323). -/
def State.slotsOn (s : State) (n : Nat) : List Nat :=
  ((s.streams.map (fun e => (e.2.place.slots.filter (fun p => p.cores.any (fun c => c.val == n))).map (fun p => p.slot.val))).flatten).eraseDups

/-- Ask for the re-placement of slots (R459). -/
def wantReplacement (slots : List Nat) (s : State) : State :=
  s.modCtl (fun c => { c with pendRepl := slots.foldl addOnce c.pendRepl })

/-- CORE_TEST with start order `o`: the core drains, its stages move off it, and its test of 16 slices follows; the
command completes when the test has ended (R278, R285, R322). -/
def doCoreTest (o : Nat) (cmd : Cmd) (n : Nat) (s : State) : State :=
  pfOnly cmd s
    (if (s.core n).pool == .fused || (s.core n).pool == .retired || (s.hdr (.core n)).isolated then
      served cmd Status.badArgs s
    else if s.ctl.tests.any (fun t => t.core == n) then served cmd Status.busy s
    else
      let s1 := (addRunning cmd opService o noEpoch s).modCtl (fun c =>
        { c with tests := c.tests ++ [{ core := n, ctx := cmd.ctx.val, order := o }] })
      wantReplacement (s.slotsOn n) (s1.modCore n (fun c =>
        { c with slices := 0, drainReq := c.run.isSome, seq := if c.seq = .run then .drain else c.seq })))

/-- SLICE_BYPASS (R152): the takers are slices of the same quadrant in service; the bypass is recorded. -/
def doBypass (cmd : Cmd) (k : Nat) (takers : List Nat) (s : State) : State :=
  pfOnly cmd s
    (if (s.slice k).bypassed || takers.isEmpty ||
        !takers.all (fun j => sliceQuad j == sliceQuad k && j != k && !(s.slice j).bypassed) then
      served cmd Status.badArgs s
    else served cmd Status.ok (firmwareRecord 0x0082 k [] (bypassSlice k takers s)))

/-! ### SETTINGS_WRITE, CAMERA_REG, TIME_SECONDS, ACCT_TRACE -/

/-- SETTINGS_WRITE (R429): a firmware-owned type is not permitted, a record that the device would ignore is refused;
the record takes effect at the next warm or power-on reset. -/
def doSettings (cmd : Cmd) (record : List Byte) (s : State) : State :=
  pfOnly cmd s
    (match parseSetting record with
    | none => served cmd Status.badArgs s
    | some (type, inst, gen, value) =>
      if firmwareOwned type then served cmd Status.notPermitted s
      else if !settingInRange type value then served cmd Status.badArgs s
      else
        served cmd Status.ok
          { s with nvm := s.nvm.append { type := type, inst := inst, gen := gen, value := value } })

/-- CAMERA_REG: an access to a register of the camera of a CoaXPress stream of the context (R214, R278). -/
def doCamera (cmd : Cmd) (id : Nat) (write : Bool) (reg : Nat) (value : W32) (s : State) : State :=
  match s.stream? id with
  | none => served cmd Status.badArgs s
  | some st =>
    if st.ctx ≠ cmd.ctx.val then served cmd Status.notPermitted s
    else if st.decl.kind ≠ 0 ∧ st.decl.kind ≠ 2 then served cmd Status.badArgs s
    else served cmd Status.ok (s.emit (.camera ((st.decl.port - 12) / 2) write reg value))

/-- Some stream is armed: the timebase does not step (R221). -/
def State.anyArmed (s : State) : Bool := s.streams.any (fun e => e.2.armed)

/-- Nanoseconds of a second. -/
def secNs : Nat := 1000000000

/-- TIME_SECONDS (R220, R221): the seconds of the present second under PPS; never backward, nor past the end of the timebase,
which would wrap below it; a step of the whole seconds
while no stream is armed, otherwise the slew of the coming edges. -/
def doSeconds (cmd : Cmd) (seconds : Nat) (s : State) : State :=
  pfOnly cmd s
    (if s.tal.src ≠ 2 ∨ seconds < s.tal.time / secNs ∨ 2 ^ 64 ≤ seconds * secNs + s.tal.time % secNs then
      served cmd Status.badArgs s
    else
      served cmd Status.ok (s.modTal (fun t =>
        { t with
          seconds := some seconds
          time := if s.anyArmed then t.time else seconds * secNs + t.time % secNs })))

/-- ACCT_TRACE sets or clears TRACE (R283). -/
def doTrace (cmd : Cmd) (set : Bool) (s : State) : State :=
  served cmd Status.ok (s.modCtx cmd.ctx.val (fun x => { x with trace := set }))

/-! ### FW_UPDATE (R402 to R404) -/

/-- The image of a slot, true for B. -/
def Nvm.slot (n : Nvm) (b : Bool) : Option FwImage := if b then n.slotB else n.slotA
/-- Write a slot. -/
def Nvm.setSlot (n : Nvm) (b : Bool) (x : Option FwImage) : Nvm :=
  if b then { n with slotB := x } else { n with slotA := x }

/-- The four conditions of R425 but the counter: the key digest, the revocation fuse and the signature. -/
def Nvm.signed (n : Nvm) (x : FwImage) : Bool := x.keyDigestOk && !n.revoked.contains x.keyIndex && x.signatureOk

/-- An image verifies (R425). -/
def Nvm.verifies (n : Nvm) (x : FwImage) : Bool := n.signed x && n.counter ≤ x.svn

/-- Reason for which an update cannot go on (R402, R404); 0 for none. -/
def updateReason (mode : Nat) (x : FwImage) (s : State) : Nat :=
  if !s.nvm.signed x then 1
  else if x.svn < s.nvm.counter then 2
  else if mode = 1 ∧ (x.fmtMajor ≠ s.ctl.fmtMajor ∨ x.sameSafe = false) then 4
  else 0

/-- An update fails: DBG_FW_UPD and FW_UPD_FAIL (R410, R411). -/
def updateFailed (reason : Nat) (s : State) : State :=
  raise .dbg Bit.dbgFwFail (s.modDbg (fun d => { d with updState := .failed, updReason := reason, liveCore := 0xFF }))

/-- DETAIL of a rejected update: the reason in [31:24], the other bits open. -/
def rejectDetail (reason : Nat) (s : State) : Nat × State :=
  (reason * 2 ^ 24 + (s.drawWord).1.toNat % 2 ^ 24, (s.drawWord).2)

/-- FW_UPDATE with start order `o` (R402, R403): the image is read and verified, and the write of the inactive slot
begins.
DESIGN CHOICE: log entry 90. -/
def doFwUpdate (mode o : Nat) (cmd : Cmd) (len : Nat) (crc : W32) (x : FwImage) (s : State) : State :=
  pfOnly cmd s
    (if s.ctl.upd.isSome then served cmd Status.busy s
    else if len < 65536 ∨ 67108864 < len ∨ x.crc ≠ crc then served cmd Status.badArgs s
    else
      let r := updateReason mode x s
      if r ≠ 0 then
        let (d, s1) := rejectDetail r s
        finish cmd opService Status.rejected noEpoch d (updateFailed r s1)
      else
        let s1 := (addRunning cmd opService o noEpoch s).modCtl (fun c =>
          { c with upd := some { ctx := cmd.ctx.val, order := o, mode := mode, img := x } })
        { s1 with
          nvm := s1.nvm.setSlot (!s1.nvm.activeB) none
          dbg := { s1.dbg with updState := .writing } })

/-- The running update ends REJECTED. -/
def rejectUpdate (u : FwUpd) (reason : Nat) (s : State) : State :=
  let (d, s1) := rejectDetail reason s
  endRunning u.ctx u.order Status.rejected d ((updateFailed reason s1).modCtl (fun c => { c with upd := none, switched := [] }))

/-- The running update ends OK, DETAIL the new release. -/
def acceptUpdate (u : FwUpd) (st : UpdState) (s : State) : State :=
  endRunning u.ctx u.order Status.ok u.img.release.toNat
    ((s.modDbg (fun d => { d with updState := st, liveCore := 0xFF })).modCtl (fun c => { c with upd := none, switched := [] }))

/-- The next control core in service from number `k` up. -/
def Ctl.coreFrom (c : Ctl) (k : Nat) : Option Nat := (List.range 8).find? (fun n => k ≤ n && !c.down.contains n)

/-- The control core `n` restarts on the new image (R404). -/
def switchCore (n : Nat) (s : State) : State :=
  (s.modDbg (fun d => { d with liveCore := n })).modCtl (fun c => { c with switchAt := s.clock })

/-- The last core has rejoined: the slot marker, CTL_FW_VER and the completion (R404). -/
def activated (u : FwUpd) (s : State) : State :=
  let s1 := { s with
    nvm := { s.nvm with activeB := !s.nvm.activeB }
    ctl := s.ctl.runs u.img.release u.img.fmtMajor s.free
    free := s.free + 2 }
  acceptUpdate u .idle (postNotice 0x01 u.img.release.toNat none s1)

/-- The flash write and its read-back end (R403). -/
def flashVerified (ok : Bool) (s : State) : State :=
  match s.ctl.upd with
  | none => s
  | some u =>
    if s.dbg.updState ≠ .writing then s
    else if !ok then rejectUpdate u 3 s
    else
      let s1 := { s with nvm := s.nvm.setSlot (!s.nvm.activeB) (some u.img) }
      if u.mode = 0 then acceptUpdate u .staged s1
      else if u.mode = 2 then
        let s2 := { s1 with nvm := { s1.nvm with pending := some (!s1.nvm.activeB) } }
        acceptUpdate u .pending (postNotice 0x01 u.img.release.toNat none s2)
      else
        let s2 := s1.modDbg (fun d => { d with updState := .activating })
        match s2.ctl.coreFrom 0 with
        | none => activated u s2
        | some n => switchCore n s2

/-- The control core being switched returns to service: the next core follows (R404). -/
def rejoined (n : Nat) (s : State) : State :=
  match s.ctl.upd with
  | none => s
  | some u =>
    if s.dbg.updState ≠ .activating ∨ s.dbg.liveCore ≠ n then s
    else
      let s1 := s.modCtl (fun c => { c with switched := addOnce c.switched n })
      match s1.ctl.coreFrom (n + 1) with
      | none => activated u s1
      | some k => switchCore k s1

/-- A core has not rejoined within 500 ms: the activation ends, every switched core runs the old image again and the
marker stays (R404). -/
def rejoinTimedOut (n : Nat) (s : State) : State :=
  match s.ctl.upd with
  | none => s
  | some u =>
    if s.dbg.updState ≠ .activating ∨ s.dbg.liveCore ≠ n ∨ s.clock < s.ctl.switchAt + 500000000 then s
    else rejectUpdate u 5 s

end Sys2Proof.Machine
end

