-- ==== Sys2Proof/Machine/Resume.lean ====
section
/-! DEFINITION. Commands that wait inside the device: when what holds them ends, and how they go on (R193, R196, R203,
R289, R365, R404). -/

namespace Sys2Proof.Machine

open Sys2Proof Sys2Proof.Machine.Bits

/-- A live activation runs (R404). -/
def State.activating (s : State) : Bool := s.dbg.updState == .activating

/-- LOAD_IMAGE waits during a live activation (R404). -/
def startLoad (o : Nat) (cmd : Cmd) (len : Nat) (crc : W32) (file : ImageFile) (s : State) : State :=
  if s.activating then hold .activation cmd opLoadImage o (.loadImage cmd len crc file) s
  else doLoadImage cmd len crc file s

/-- DECLARE_STREAM waits during a live activation (R404). -/
def startDeclare (o : Nat) (cmd : Cmd) (id image : Nat) (block : List Byte) (crc : W32) (lode : Option Placement)
    (s : State) : State :=
  if s.activating then hold .activation cmd opDeclareStream o (.declareStream cmd id image block crc lode) s
  else doDeclare cmd id image block crc lode s

/-- The stream that a waiting ARM_STREAM or REARM names. -/
def heldStream : Instr → Option Nat
  | .armStream _ id _ _ _ => some id
  | .rearm _ id _ _ _ => some id
  | _ => none

/-- What holds a command has ended. -/
def lifted (h : Held) (s : State) : Bool :=
  match h.why with
  | .epochs => !s.epochsFull
  | .replacement => (heldStream h.cmd).all (fun id => !s.replacing id)
  | .activation => !s.activating
  | .rearm id => !s.armingOf id h.order
  | .bedrock => ((heldStream h.cmd).bind s.stream?).all (fun st => s.bedrockReady st)
  | .behind => !s.headBlocked h.ctx

/-- Run a command of a context that waited, with the start order it has. -/
def runHeld (o : Nat) (i : Instr) (s : State) : State :=
  match i with
  | .loadImage cmd len crc file => startLoad o cmd len crc file s
  | .declareStream cmd id image block crc lode => startDeclare o cmd id image block crc lode s
  | .armStream cmd id first camera ring => doArm o cmd id first camera ring s
  | .rearm cmd id first rebase ring => doRearm o cmd id first rebase ring s
  | .dispatch cmd id prio adapt a b deadline rs as first => doDispatch o cmd id prio adapt a b deadline rs as first s
  | .fence cmd e => doFence o cmd e s
  | .hintPhase cmd phase us => doHint cmd phase us s
  | .queryPlacement cmd len => doQueryPlacement cmd len s
  | .queryImageSummary cmd image len => doQueryImage cmd image len s
  | .queryStreamState cmd id len => doQueryStream cmd id len s
  | .queryAccounting cmd len => doQueryAccounting cmd len s
  | .queryFaultRecords cmd len => doQueryFaults cmd len s
  | .querySpares cmd len => doQuerySpares cmd len s
  | .partitionCreate cmd p props => doPartCreate cmd p.val props s
  | .partitionChange cmd p props => doPartChange cmd p.val props s
  | .partitionRemove cmd p => doPartRemove cmd p.val s
  | .contextBind cmd c p fn vector => doBind cmd c.val p.val fn.val vector s
  | .unload cmd image => doUnload cmd image s
  | .coreTest cmd n => doCoreTest o cmd n.val s
  | .sliceBypass cmd k takers => doBypass cmd k.val (takers.map (·.val)) s
  | .settingsWrite cmd record => doSettings cmd record s
  | .cameraRegRead cmd id reg answer => doCamera cmd id false reg answer s
  | .cameraRegWrite cmd id reg value => doCamera cmd id true reg value s
  | .timeSeconds cmd seconds => doSeconds cmd seconds s
  | .resumeHeldSkip cmd => doResumeSkip cmd s
  | .resumeHeldAbort cmd => doResumeAbort cmd s
  | .acctTrace cmd set => doTrace cmd set s
  | .fwUpdateStage cmd len crc img => doFwUpdate 0 o cmd len crc img s
  | .fwUpdateLive cmd len crc img => doFwUpdate 1 o cmd len crc img s
  | .fwUpdateNextReset cmd len crc img => doFwUpdate 2 o cmd len crc img s
  | _ => s

/-- Take a command out of the waiting ones: it goes on from its start. -/
def unhold (h : Held) (s : State) : State :=
  (s.modCtl (fun c => { c with waiting := c.waiting.filter (fun g => g.order != h.order) })).modCtx h.ctx (fun x =>
    { x with running := x.running.filter (fun r => r.order != h.order) })

/-- Let waiting commands go on, oldest first, at most `fuel` of them. -/
def resumeHeld : (fuel : Nat) → State → State
  | 0, s => s
  | fuel + 1, s =>
    match s.ctl.waiting.find? (fun h => lifted h s) with
    | none => s
    | some h => resumeHeld fuel (runHeld h.order h.cmd (unhold h s))

/-- After an event: every waiting command whose wait has ended goes on, then every fence that may complete does.
DESIGN CHOICE: log entry 3. -/
def settle (s : State) : State := settleFences (resumeHeld s.ctl.waiting.length s)

end Sys2Proof.Machine
end

