-- ==== Sys2Proof/Machine/Stops.lean ====
section
/-! DEFINITION. Fault stops of a core (R65) and what becomes of the item whose record unit stops. -/

namespace Sys2Proof.Machine

open Sys2Proof Sys2Proof.Machine.Bits

/-- The record unit of an item has stopped: its result is marked INVALID by the QMG, unless the copies vote on it (R20,
R65, R305). -/
def stopRecord (u : UnitInst) (cause : Nat) (s : State) : State :=
  if u.record && u.last && !(s.stream? u.stream).any (fun st => st.cls == .triplex) then
    qmgRecord u.stream u.seq cause s
  else s

/-- The stall of a core with no unit ends in a fault stop: the pop is given up, and the core is FAULTED (R61, R65).
DEDUCED: log entry 99. -/
def stallStop (c cause bit reason : Nat) (counted : Bool) (s : State) : State :=
  if (s.waitOf c).isNone then s
  else
    report { coreEv s c cause bit with reason := reason, counted := counted }
      ((dropWaits c s).modCore c (fun k => { k.closeAll with seq := .faulted, faultCause := cause }))

/-- A fault stop of core `c` (R65): the unit is flagged with `cause`, its outputs go onward, every buffer it
held returns, its windows close, the core is FAULTED and SAFE gets a report with ERR_STAT bit `bit`.  A Strata output slot
is with its consumers already (R83): the pieces that its stream engine still writes there carry the flag (R82, R382). -/
def faultStop (c : CoreNum) (cause bit reason : Nat) (counted : Bool) (s : State) : State :=
  match (s.core c.val).run with
  | none => stallStop c.val cause bit reason counted s
  | some u0 =>
    let u := u0.flag cause
    let ev := { unitEv c.val u cause bit with reason := reason, counted := counted }
    let s1 := dropWaits c.val (s.modCore c.val (fun k => { k with run := some u }))
    let s2 := pushOutputs c u s1
    let s3 := s2.modCore c.val (fun k =>
      { k.dropAcc.closeAll.unjoin with
        run := none, seq := .faulted, faultCause := cause, bundles := 0, strands := 0 })
    report ev (reportOwed c.val u false (stopRecord u cause
      (forEach u.inputs (fun h s => giveBack .firmware h s) s3)))

/-- A malformed unit program (R65, R130): SEQ_ILLEGAL and a fault stop. -/
def seqIllegal (c : CoreNum) (s : State) : State :=
  faultStop c Cause.faultStop Bit.coreIllegal 0 false (raise (.core c.val) Bit.coreIllegal s)

/-- A fault event of a check that no ERR_STAT bit shows: bits [7:0] of its detail are a free value (R301).
DESIGN CHOICE: log entry 63. -/
def checkEvent (n : Nat) (u : Option UnitInst) (cause : Nat) (s : State) : State :=
  let bit := Config.freeNat s.free % 256
  let ev : FaultEv := match u with
    | some u => unitEv n u cause bit
    | none => { unit := n, cause := cause, bit := bit }
  report ev { s with free := s.free + 1 }

end Sys2Proof.Machine
end

