-- ==== Sys2Proof/Machine/Votes.lean ====
section
/-! DEFINITION. Triplex voting (R305 to R308, R460): signatures, majorities, outvoted copies, vote points before the
record unit, and the test of a vote unit (R322). -/

namespace Sys2Proof.Machine

open Sys2Proof Sys2Proof.Machine.Bits

/-! ### Entries of a vote unit -/

/-- The causes that keep a copy out of a majority (R305). -/
def votesNot (cause : Nat) : Bool := 1 ≤ cause && cause ≤ 0x1F

/-- The entry of a sequence number. -/
def VoteUnit.entry? (v : VoteUnit) (seq : Nat) : Option VoteSeq := v.held.find? (fun e => e.seq == seq)

/-- Change the entry of a sequence number. -/
def VoteUnit.modEntry (v : VoteUnit) (seq : Nat) (f : VoteSeq → VoteSeq) : VoteUnit :=
  { v with held := v.held.map (fun e => if e.seq = seq then f e else e) }

/-- Two signatures that agree and are not flagged, by order of arrival: the pair that forms first (R305). -/
def firstPair : List Sig → Option (Sig × Sig)
  | [] => none
  | x :: xs =>
    if votesNot x.cause then firstPair xs
    else
      match xs.find? (fun y => y.sig == x.sig && !votesNot y.cause) with
      | some y => some (x, y)
      | none => firstPair xs

/-- Which of two agreeing copies is forwarded: one without CORRECTED, then the one whose signature arrived first (R305);
two signatures of one entry never arrive together here. -/
def forwardOf (x y : Sig) : Sig := if x.corrected && !y.corrected then y else x

/-- Own flags of the forwarded copy; CORRECTED counts as a corrected ABFT error.
DESIGN CHOICE: log entry 127. -/
def Sig.own (g : Sig) : List Nat :=
  (if g.cause = 0 then [] else [g.cause]) ++ (if g.corrected then [Cause.corrected Cause.abft] else [])

/-- Every copy has presented a signature, has missed its deadline or is suspended (R306). -/
def allIn (st : Stream) (e : VoteSeq) : Bool :=
  [0, 1, 2].all (fun k => e.sigs.any (fun g => g.copy == k) || e.missed.contains k || st.suspended.contains k)

/-! ### Outvoted copies (R305, R310, R460) -/

/-- The core of a copy that runs the unit of an item at the stage of a vote point. -/
def coresOfCopy (s : State) (id copy seq : Nat) : List Nat :=
  (s.cores.filter (fun c => c.2.run.any (fun u => u.stream == id && u.copy == copy && u.seq == seq))).map (·.1)

/-- A copy is outvoted for an item: it is noted with the item, and its running output is flagged (R460).
DEDUCED: log entry 58. -/
def markOutvoted (id copy seq cause : Nat) (s : State) : State :=
  forEach (coresOfCopy s id copy seq) (fun n s => flagUnit n cause s)
    (s.modItem id seq (fun it =>
      { it with outvoted := if it.outvoted.any (fun p => p.1 == copy) then it.outvoted else it.outvoted ++ [(copy, cause)] }))

/-- SAFE logs an outvoted copy with MASKED set (R305). -/
def logOutvoted (id : Nat) (st : Stream) (seq copy cause : Nat) (s : State) : State :=
  report { unit := 0xC1, cause := cause, ctx := st.ctx, part := st.part, stream := some id, seq := seq, masked := true,
           copy := some copy } s

/-- The cause with which a copy is outvoted against the agreed signature: none when it agrees or is still to come.
DEDUCED: log entry 58. -/
def outvoteCause (agreed : W64) (e : VoteSeq) (copy : Nat) : Option Nat :=
  match e.sigs.find? (fun g => g.copy == copy) with
  | some g => if votesNot g.cause then some g.cause else if g.sig = agreed then none else some Cause.outvoted
  | none => if e.missed.contains copy then some Cause.stageDeadline else none

/-- Log every copy that is outvoted against the agreed signature and not logged yet. -/
def outvoteOthers (v id : Nat) (st : Stream) (seq : Nat) (s : State) : State :=
  forEach ([0, 1, 2].filter (fun k => !st.suspended.contains k)) (fun k s =>
    match (s.vote v).entry? seq with
    | none => s
    | some e =>
      match e.agreed with
      | none => s
      | some a =>
        match outvoteCause a e k with
        | none => s
        | some cause =>
          if e.logged.contains k then s
          else
            markOutvoted id k seq cause (logOutvoted id st seq k cause
              (s.modVote v (fun u => u.modEntry seq (fun e => { e with logged := e.logged ++ [k] }))))) s

/-! ### Decisions (R305, R306) -/

/-- A majority has formed: one copy is forwarded, and at the record unit its record core forms the header (R299, R305). -/
def forwardVote (v id seq : Nat) (x y : Sig) (s : State) : State :=
  let g := forwardOf x y
  let s1 := s.modVote v (fun u =>
    { u.modEntry seq (fun e => { e with agreed := some g.sig, decided := true }) with votedAt := some s.clock })
  if (s.vote v).record then formRecord id seq (g.own ++ itemFlags id seq s1) [] g.payload s1 else s1

/-- No majority forms: a dangerous fault; the QMG writes the record, and at an earlier vote point every copy flags its
output (R306, R460). -/
def noMajority (v id : Nat) (st : Stream) (e : VoteSeq) (s : State) : State :=
  let cause := if 2 ≤ e.sigs.length then Cause.voteNoMajority else Cause.stageDeadline
  let s1 := report { unit := 0xC1, cause := cause, ctx := st.ctx, part := st.part, stream := some id, seq := e.seq }
    (s.modVote v (fun u => { u.modEntry e.seq (fun e => { e with decided := true }) with votedAt := some s.clock }))
  if (s.vote v).record then qmgRecord id e.seq cause s1
  else forEach [0, 1, 2] (fun k s => markOutvoted id k e.seq cause s) s1

/-- Decide what can be decided for a sequence number: `last` says that its stage deadline has passed. -/
def decideVote (v id seq : Nat) (last : Bool) (s : State) : State :=
  match (s.vote v).entry? seq, s.stream? id with
  | some e, some st =>
    let s1 :=
      if e.decided then s
      else
        match firstPair (e.sigs.filter (fun g => !st.suspended.contains g.copy)) with
        | some (x, y) => forwardVote v id seq x y s
        | none => if last || allIn st e then noMajority v id st e s else s
    outvoteOthers v id st seq s1
  | _, _ => s

/-- A decided entry whose copies are all accounted for is held no longer; one that is dropped is retired (R305).
DESIGN CHOICE: log entry 64. -/
def dropVote (v id seq : Nat) (force : Bool) (s : State) : State :=
  match (s.vote v).entry? seq, s.stream? id with
  | some e, some st =>
    if force || (e.decided && allIn st e) then
      s.modVote v (fun u =>
        { u with held := u.held.filter (fun e => e.seq != seq),
                 retired := addOnce (u.retired.filter (fun q => (st.item? q).isSome)) seq })
    else s
  | _, _ => s

/-- Retire a sequence number as if its stage deadline had passed: the copies without a signature are outvoted (R305).
DESIGN CHOICE: log entry 64. -/
def retireVote (v id seq : Nat) (s : State) : State :=
  let absent (e : VoteSeq) : List Nat := [0, 1, 2].filter (fun k => !e.sigs.any (fun g => g.copy == k))
  dropVote v id seq true (decideVote v id seq true
    (s.modVote v (fun u => u.modEntry seq (fun e => { e with missed := (absent e).foldl addOnce e.missed }))))

/-- Make room for a sequence number: a ninth retires the oldest (R305).
DESIGN CHOICE: log entry 64. -/
def roomFor (v id seq : Nat) (s : State) : State :=
  if ((s.vote v).entry? seq).isSome then s
  else
    let s1 := match (s.vote v).held with
      | e :: rest => if 8 ≤ rest.length + 1 then retireVote v id e.seq s else s
      | [] => s
    let stamp := (((s.stream? id).bind (·.item? seq)).map (·.stamp)).getD 0
    s1.modVote v (fun u => { u with held := u.held ++ [{ seq := seq, stamp := stamp }] })

/-- A signature that is discarded and counted. -/
def discardSig (v : Nat) (s : State) : State := s.modVote v (fun u => { u with discarded := u.discarded + 1 })

/-- A signature that the unit does not latch: a second one of its copy, one of a suspended copy or one that missed its
deadline, and one for a sequence number that is retired or recorded. -/
def sigUnwanted (v : Nat) (st : Stream) (g : Sig) (seq : Nat) (s : State) : Bool :=
  let u := s.vote v
  u.retired.contains seq || st.suspended.contains g.copy ||
    match u.entry? seq with
    | some e => e.sigs.any (fun x => x.copy == g.copy) || e.missed.contains g.copy
    | none => (st.item? seq).isNone

/-- The flag of a signature: that of its output, or of an outvote earlier in the item (R311, R460).
DEDUCED: log entry 58. -/
def sigFlag (st : Stream) (seq : Nat) (g : Sig) : Sig :=
  match ((st.item? seq).map (·.outvoted)).bind (fun o => o.find? (fun p => p.1 == g.copy)) with
  | some p => if votesNot g.cause then g else { g with cause := p.2 }
  | none => g

/-- A copy presents its signature (R305). -/
def presentSig (v seq : Nat) (g : Sig) (s : State) : State :=
  match (s.vote v).stream with
  | none => s
  | some id =>
    match s.stream? id with
    | none => s
    | some st =>
      if sigUnwanted v st g seq s then discardSig v s
      else
        let s1 := roomFor v id seq s
        let s2 := s1.modVote v (fun u => u.modEntry seq (fun e => { e with sigs := e.sigs ++ [sigFlag st seq g] }))
        dropVote v id seq false (decideVote v id seq false s2)

/-- The suspensions of a stream have changed: what its vote units hold is decided anew (R306, R307). -/
def resettleVotes (id : Nat) (s : State) : State :=
  forEach (s.qmg.votes.filter (fun v => v.2.stream == some id)) (fun v s =>
    forEach (v.2.held.map (·.seq)) (fun seq s => dropVote v.1 id seq false (decideVote v.1 id seq false s)) s) s

/-! ### Vote points before the record unit (R460) -/

/-- The vote unit that follows a stage: the vote points of an image in order of its stages, the record's last. -/
def votePointOf (s : State) (st : Stream) (stage : Nat) : Option Nat :=
  if st.cls != .triplex then none
  else
    match s.stageOf st stage with
    | none => none
    | some d =>
      if d.votePoint then
        let before := (List.range stage).filter (fun k => (s.stageOf st k).any (fun (d : StageDecl) => d.votePoint))
        (st.place.votes[before.length]?).map (·.val)
      else none

/-- A unit of a stage with a vote point has its verdict: forward, outvoted or no majority. -/
def verdictIn (s : State) (u : UnitInst) : Bool :=
  match s.stream? u.stream with
  | none => true
  | some st =>
    match votePointOf s st u.stage with
    | none => true
    | some v =>
      !u.last || st.suspended.contains u.copy || (s.vote v).retired.contains u.seq || (st.item? u.seq).isNone ||
        ((s.vote v).entry? u.seq).any (fun e => e.decided)

/-! ### The test of a vote unit (R322) -/

/-- Vote units that serve no stream and have not failed. -/
def freeVotes (s : State) : List Nat :=
  (List.range 128).filter (fun v => (s.vote v).stream.isNone && !(s.vote v).failed)

/-- Put another unit in a placement's vote point. -/
def swapVote (a b : Nat) (p : Placement) : Placement :=
  { p with votes := p.votes.map (fun v => if v.val = a then (if h : b < 128 then ⟨b, h⟩ else v) else v) }

/-- A vote unit fails its test: a permanent fault of the unit.  Lode moves the vote point to a free unit; without one the
stream runs as if one copy were suspended.  No rule says which unit, which copy or which cause: free values.
DESIGN CHOICE: log entry 12. -/
def voteUnitFails (v : Nat) (s : State) : State :=
  let u := s.vote v
  match u.stream with
  | none => s.modVote v (fun u => { u with failed := true })
  | some id =>
    let f := s.free
    let s1 := report { unit := 0xC1, cause := Config.freeNat f % 256, permanent := true, stream := some id } { s with free := f + 2 }
    let s2 := s1.modVote v (fun _ => { failed := true })
    match freeVotes s2 with
    | [] => resettleVotes id (s2.modStream id (fun st => { st with suspended := addOnce st.suspended (Config.freeNat (f + 1) % 3) }))
    | w :: ws =>
      let b := (w :: ws).getD (Config.freeNat (f + 1) % (ws.length + 1)) w
      (s2.modVote b (fun _ => u)).modStream id (fun st => { st with place := swapVote v b st.place })

/-- A vote unit tests itself within 100 ns after a vote (R322). -/
def testVote (v : Nat) (pass : Bool) (s : State) : State :=
  let u := s.vote v
  if u.failed || !u.votedAt.any (fun t => s.clock ≤ t + 100) then s
  else if pass then s.modVote v (fun u => { u with testedAt := s.clock })
  else voteUnitFails v s

end Sys2Proof.Machine
end

