-- ==== Sys2Proof/Machine/Safe.lean ====
section
/-! DEFINITION. The safety island (R294 to R333): fault reports and their classes, stream faults and suspensions,
invalidations on their way to the QMG, clock and supply monitors, pins, egress frames, self-test and the mailbox. -/

namespace Sys2Proof.Machine

open Sys2Proof Sys2Proof.Machine.Bits

/-! ### Classification (R298, R312) -/

/-- The fault was detected in a resource that a SIMPLEX or TRIPLEX stream uses (R298). -/
def touchesSafety (e : FaultEv) (s : State) : Bool :=
  if e.cls = 2 then s.safetyArmed
  else
    (e.stream.bind s.stream?).any (fun st => isSafety st.cls) || (e.unit < 192 && s.safetyOn e.unit) ||
      (e.part != 0xFF && isSafety (s.classOf e.part))

/-- A device cause: from 0x01 to 0x1F and no warning (R298). -/
def deviceCause (c : Nat) : Bool := 1 ≤ c && c ≤ 0x1F && !(0x17 ≤ c && c ≤ 0x1D)

/-- A fault of one copy's unit of work in a TRIPLEX stream: the vote masks it, or reports that it could not (R305,
R306; log entry 30). -/
def leftToVote (e : FaultEv) (s : State) : Bool :=
  e.copy.isSome && (e.stream.bind s.stream?).any (fun st => st.cls == .triplex)

/-- R298.
DEDUCED: log entry 30. -/
def isDangerous (e : FaultEv) (s : State) : Bool :=
  deviceCause e.cause && !e.masked && !e.corrected && !leftToVote e s && touchesSafety e s

/-- Times of the events of its core that came before a fault report: those that SAFE keeps, or, for the record of an
event sent ahead, those before that event (R43, R312). -/
def eventsBefore (e : FaultEv) (s : State) : List Nat :=
  let ts := Tab.get s.safe.events [] e.unit
  if e.phase = 2 then (ts.dropWhile (· != e.time)).drop 1 else ts

/-- The event is the third of its core at most 1 s after the first of the three (R312). -/
def thirdEvent (e : FaultEv) (s : State) : Bool :=
  (e.counted || e.phase == 2) && match eventsBefore e s with
    | _ :: first :: _ => e.time ≤ first + secNs
    | _ => false

/-- R312: permanent. -/
def isPermanent (e : FaultEv) (s : State) : Bool := e.permanent || thirdEvent e s

/-! ### Egress frames (R321) and pins (R320) -/

/-- Device state of a frame: 0 RUN, 1 FAULT, 2 SAFE_STATE. -/
def Safe.frameState (f : Safe) : Nat := if f.ssCause ≠ 0 then 2 else if f.faultN then 0 else 1

/-- Payload bytes of a safety egress frame (R321). -/
def SafetyFrame.bytes (serial : Nat) (f : SafetyFrame) : List Byte :=
  let b := toBytes 2 1 ++ toBytes 1 f.kind ++ toBytes 1 f.state ++ toBytes 4 f.seq ++ toBytes 8 f.time ++
    toBytes 8 serial ++ toBytes 4 f.placeEpoch ++ toBytes 2 f.lost ++ toBytes 1 f.records.length ++
    toBytes 1 f.ssCause ++ (f.records.map FaultRec.bytes).flatten
  b ++ toBytes 4 (crc32c b).toNat

/-- Send a frame with up to `n` queued records, oldest first.  Without an SGMII link nothing is sent and the records
stay queued (log entry 26). -/
def sendFrame (kind n : Nat) (s : State) : State :=
  if s.safe.linkUp then
    let f := s.safe
    let x : SafetyFrame :=
      { kind := kind, state := f.frameState, seq := f.frameSeq, time := s.tal.time, placeEpoch := s.ctl.placeEpoch,
        lost := f.lostSeen, ssCause := f.ssCause, records := f.egress.take n }
    (s.modSafe (fun f => { f with frameSeq := (f.frameSeq + 1) % 2 ^ 32, egress := f.egress.drop n })).emit (.frame x)
  else s

/-- Queue a record for egress; a full queue of 64 drops it (R321).
DESIGN CHOICE: log entry 26. -/
def queueEgress (r : FaultRec) (s : State) : State :=
  if s.safe.egress.length < 64 then s.modSafe (fun f => { f with egress := f.egress ++ [r] })
  else
    raise .safe Bit.safeOverflow (s.modSafe (fun f =>
      { f with egressLost := sat32 (f.egressLost + 1), lostSeen := min 0xFFFF (f.lostSeen + 1) }))

/-- Some stream is in stream fault (R313, R386). -/
def State.anyStreamFault (s : State) : Bool := s.streams.any (fun e => e.2.faulted)

/-- FAULT_N may be released (R320, R333). -/
def faultMayRelease (s : State) : Bool :=
  !s.inSafe && !s.anyStreamFault && s.safe.pinTest.isNone &&
    s.safe.dangerAt.all (fun t => t + s.safe.faultHold * 1000000 ≤ s.clock)

/-- Release FAULT_N when every condition holds. -/
def releaseFault (s : State) : State :=
  if s.safe.mode = .run && faultMayRelease s then s.modSafe (fun f => { f with faultN := true }) else s

/-! ### Stream faults, suspensions and replacement (R307, R313, R386, R459) -/

/-- Ask for a record invalidation, and for its withdrawal. -/
def withdraw (t : InvTarget) (sc : InvScope) (cause : Nat) (s : State) : State :=
  sendInval { target := t, scope := sc, cause := cause, withdraw := true } s

/-- A stream enters stream fault: FROM_NEXT STREAM_FAULT on a SIMPLEX or TRIPLEX stream, with its dangerous fault
record; the records of a stream without copies are written by the QMG (R313, R386). -/
def streamFault (id : Nat) (s : State) : State :=
  match s.stream? id with
  | none => s
  | some st =>
    if st.faulted then s
    else
      let s1 := s.modStream id (fun st => { st with faulted := true })
      let s2 :=
        if isSafety st.cls then
          report { unit := 0xC7, cause := Cause.streamFault, ctx := st.ctx, part := st.part, stream := some id,
                   cls := 1, bit := Bit.safeStreamFault }
            (sendInval { target := .stream id, scope := .fromNext, cause := Cause.streamFault }
              (raise .safe Bit.safeStreamFault s1))
        else s1
      if st.cls = .triplex then s2 else recordAll Cause.streamFault id s2

/-- What a fault that takes core or quadrant stages out means for a stream: its copies on those cores are suspended, or
it enters stream fault (R307, R313, R386). -/
def loseStages (id : Nat) (copies : List Nat) (cause : Nat) (s : State) : State :=
  match s.stream? id with
  | none => s
  | some st =>
    if st.cls = .triplex then
      forEach (copies.filter (fun k => !st.suspended.contains k)) (fun k s =>
        sendInval { target := .stream id, scope := .copy k, cause := cause } s) s
    else streamFault id s

/-- The spare pool has fallen below 8 cores (R269). -/
def checkSpares (before : Nat) (s : State) : State :=
  if 8 ≤ before && s.spares.length < 8 then
    postNotice 0x06 0 none
      (report { unit := 0xC5, cause := Cause.sparesLow, cls := 2, bit := Bit.ctlSparesLow } (raise .ctl Bit.ctlSparesLow s))
  else s

/-- Core `n` leaves service for a permanent fault: RETIRED, recorded in the settings, its stages to be replaced
(R312, R385, R387, R459).  With no unit running its windows close at once (R135), and Lode keeps 160 cores schedulable
(R13). -/
def retireCore (n : Nat) (s : State) : State :=
  if (s.core n).pool = .retired then s
  else
    let ready := (s.core n).ready
    let before := s.spares.length
    let s1 := s.modCore n (fun c =>
      { (if c.run.isSome then c else c.closeAll) with pool := .retired, ready := [], drainReq := c.run.isSome })
    let s2 := recordRetirement n (forEach ((ready.map (·.inputs)).flatten) forceFree s1)
    let s3 := wantReplacement (s2.slotsOn n) s2
    let s4 := forEach (s3.streamsOn n) (fun id s =>
      loseStages id (((s.stream? id).map (fun st => st.copiesOn n)).getD []) Cause.faultStop s) s3
    checkSpares before (rebalance s4)

/-- A new core of a re-placement that has not committed (R289). -/
def State.isNewCore (s : State) (n : Nat) : Bool :=
  s.ctl.jState == .prepare && s.ctl.repl.any (fun r => r.new.contains n && !r.old.contains n)

/-! ### Fault reports (R301, R312, R318) -/

/-- The counter of a record: masked, permanent, or transient for core events and unit overruns (R329). -/
def countRecord (r : FaultRec) (f : Safe) : Safe :=
  if r.ev.masked then { f with evtMasked := sat32 (f.evtMasked + 1) }
  else if r.permanent then { f with evtPermanent := sat32 (f.evtPermanent + 1) }
  else if r.ev.counted || r.ev.phase = 2 || r.ev.cause = Cause.unitOverrun then { f with evtTransient := sat32 (f.evtTransient + 1) }
  else f

/-- Keep the times of the last 3 events of a core (R312). -/
def noteEvent (e : FaultEv) (f : Safe) : Safe :=
  if e.counted then { f with events := Tab.insert f.events e.unit ((e.time :: Tab.get f.events [] e.unit).take 3) } else f

/-- Log a record: the log of 1,024, its counter, the queue for egress, the context's 256 records, the notice and a FAULT
frame (R294, R321, R277, R407). -/
def logRecord (r : FaultRec) (s : State) : State :=
  let s1 := s.modSafe (fun f => countRecord r { f with log := (r :: f.log).take 1024 })
  let s2 := if r.ev.ctx < 4096 then
      s1.modCtx r.ev.ctx (fun x => { x with faults := (r :: x.faults).take 256 })
    else s1
  let s3 := queueEgress r s2
  let s4 := if r.dangerous || r.permanent then postNotice 0x02 0 (some r) s3 else s3
  sendFrame 2 8 s4

/-- A dangerous fault drives FAULT_N low (R318, R320). -/
def danger (s : State) : State :=
  raise .safe Bit.safeDangerous (s.modSafe (fun f => { f with faultN := false, driven := true, dangerAt := some s.clock }))

/-- SAFE's reaction to an event: a re-placement loses its new core, and a permanent fault takes the core out of service
(R289, R312). -/
def reactTo (e : FaultEv) (perm : Bool) (s : State) : State :=
  let s1 := if perm then raise .safe Bit.safePermanent s else s
  let s2 := if s1.isNewCore e.unit then abandon s1 else s1
  if perm && e.unit < 192 then retireCore e.unit s2 else s2

/-- SAFE takes the oldest error event: it classifies it, logs it and reacts (R298, R312, R318).  An event that comes ahead
of its record (R43, R45) is reacted to at once; the record that follows is classified and logged.  With its pairs stopped
it writes nothing (R317).  An uncorrectable error of the retention memory, which holds the log, enters the safe state
(R296).
DESIGN CHOICE: log entry 65. -/
def faultReport (u : Upset) (s : State) : State :=
  match s.safe.inbox with
  | [] => s
  | e :: rest =>
    if u = .uncorrectable then enterSafe SS.retention s else
    let s0 := s.modSafe (fun f => { f with inbox := rest })
    if !s.safeRuns then s0
    else
      let perm := isPermanent e s0
      let r : FaultRec := { ev := e, dangerous := isDangerous e s0, permanent := perm }
      let s1 := if e.phase = 2 then s0 else s0.modSafe (noteEvent e)
      let s2 := if e.phase ≠ 1 ∧ r.dangerous then danger s1 else s1
      let s3 := if e.phase = 1 then s2 else logRecord r s2
      if e.phase = 2 then s3 else reactTo e perm s3

/-! ### Record invalidations (R302) -/

/-- The oldest invalidation lands in the QMG: it stands, or is withdrawn; a COPY invalidation suspends a copy, and two
suspended copies are a stream fault (R302, R307, R313).
DESIGN CHOICE: log entry 87. -/
def landInval (s : State) : State :=
  match s.safe.invOut with
  | [] => s
  | i :: rest =>
    let s0 := s.modSafe (fun f => { f with invOut := rest })
    match i.target, i.scope with
    | .stream id, .copy k =>
      let s1 := s0.modStream id (fun st =>
        { st with suspended := if i.withdraw then dropAll st.suspended k else addOnce st.suspended k })
      resettleVotes id
        (if !i.withdraw && (s1.stream? id).any (fun st => 2 ≤ st.suspended.length) then streamFault id s1 else s1)
    | t, sc =>
      if i.withdraw then
        s0.modQmg (fun m => { m with invals := m.invals.filter (fun j => !(j.target == t && j.scope == sc && j.cause == i.cause)) })
      else s0.modQmg (fun m => { m with invals := if m.invals.contains i then m.invals else m.invals ++ [i] })

/-! ### Isolation of a quadrant (R29, R314) -/

/-- Handles that units of a core hold, each with its unit. -/
def CoreSt.heldBy (c : CoreSt) : List (UnitInst × W64) :=
  (c.run.toList ++ c.ready).flatMap (fun u => (u.inputs ++ u.outputs.map (·.2) ++ u.ahead).map (fun h => (u, h)))

/-- The handles that a core of an isolated quadrant held are lost; the QMG records each as a fault that names the
context (R29). -/
def loseHandles (n : Nat) (s : State) : State :=
  let c := s.core n
  let lost := c.heldBy
  let s0 := match c.run with
    | none => s
    | some u => reportOwed n u false s
  let s1 := dropWaits n (s0.modCore n (fun c =>
    { c.dropAcc.closeAll with run := none, ready := [], seq := .idle, drainReq := false, wbuf := [],
                              bundles := 0, strands := 0 }))
  if lost.isEmpty then s1
  else
    forEach lost (fun x s => report { unitEv n x.1 Cause.queueFault Bit.qmgHandleLost with unit := 0xC1 } s)
      (raise .qmg Bit.qmgHandleLost
        (s1.modQmg (fun m => { m with handlesLost := sat32 (m.handlesLost + lost.length) })))

/-- Set ISOLATE of a core page: isolation is complete (R29, R433). -/
def isolateCore (n : Nat) (s : State) : State :=
  loseHandles n (s.modHdr (.core n) (fun h => { h with isolate := true, isolated := true }))

/-- Streams with a stage on quadrant `q`. -/
def State.streamsInQuad (s : State) (q : Nat) : List Nat :=
  s.streamIds (fun st => st.cores.any (fun n => coreQuad n == q))

/-- A clock or supply fault of quadrant `q`: it is isolated, its copies are suspended or its streams fault, and its
stages are to be placed again (R314, R386, R459). -/
def isolateQuad (q cause : Nat) (s : State) : State :=
  if (s.quad q).isolated then s.modQuad q (fun x => { x with goodSince := s.clock })
  else
    let ids := s.streamsInQuad q
    let s1 := forEach (quadCores q) isolateCore (s.modQuad q (fun x => { x with isolated := true, goodSince := s.clock }))
    let s2 := forEach ids (fun id s =>
      match s.stream? id with
      | none => s
      | some st =>
        let copies := ((st.place.slots.filter (fun p => p.cores.any (fun c => coreQuad c.val == q))).map (·.copy)).eraseDups
        loseStages id copies cause
          (report { unit := 0xC7, cause := cause, ctx := st.ctx, part := st.part, stream := some id, cls := 1 } s)) s1
    let s3 := if ids.isEmpty then report { unit := 0xC7, cause := cause } s2 else s2
    let s4 := wantReplacement ((quadCores q).flatMap (fun n => s3.slotsOn n)) s3
    match s4.ctl.repl with
    | some r => if r.new.any (fun n => coreQuad n == q) then abandon s4 else s4
    | none => s4

/-- A window of a clock monitor: a count more than 2 % away is a clock fault (R314).
DESIGN CHOICE: log entry 25. -/
def clockFault (count expected : Nat) : Bool := 2 * expected < 100 * (max count expected - min count expected)

/-- A clock monitor's window ends (R314).
DESIGN CHOICE: log entry 25. -/
def clockWindow (d : ClockDom) (count expected : Nat) (s : State) : State :=
  if clockFault count expected then
    match d with
    | .core q => isolateQuad q.val Cause.clockFault s
    | .dbg => report { unit := 0xC7, cause := Cause.clockFault } s
    | .slow => report { unit := 0xC7, cause := Cause.clockFault } s
    | _ => enterSafe SS.clock (report { unit := 0xC7, cause := Cause.clockFault, cls := 2 } s)
  else s

/-- A supply excursion of 500 ns (R314). -/
def supplyFault (r : Rail) (s : State) : State :=
  match r with
  | .core q => isolateQuad q.val Cause.supplyFault s
  | .other => enterSafe SS.supply (report { unit := 0xC7, cause := Cause.supplyFault, cls := 2 } s)

/-- SAFEREF is lost, or PWR detects a CK_SAFE fault (R314, R317). -/
def loseSaferef (s : State) : State := enterSafe SS.saferef (s.modSafe (fun f => { f with saferefOk := false }))

/-! ### Lockstep, kicks and the heartbeat (R295, R315, R319) -/

/-- A pair's outputs differ: the gate stops the pair and enters the safe state (R295). -/
def lockstepLost (pair : Nat) (s : State) : State :=
  enterSafe SS.lockstep (s.modSafe (fun f => if pair = 0 then { f with pair0Ok := false } else { f with pair1Ok := false }))

/-- A pair kicks the heartbeat generator, unless it is stopped (R295). -/
def kick (pair : Nat) (s : State) : State :=
  if s.safeRuns then
    s.modSafe (fun f => if pair = 0 then { f with kicked0 := true } else { f with kicked1 := true })
  else s

/-- A toggle instant (R295, R319).  The first toggle, from both pins at one level, opens the first half-period. -/
def toggle (s : State) : State :=
  if s.inSafe || s.safe.mode != .run then s
  else if s.safe.okP != s.safe.okN && !(s.safe.kicked0 && s.safe.kicked1) then enterSafe SS.hbKick s
  else
    s.modSafe (fun f => { f with okP := !f.okP, okN := f.okP, kicked0 := false, kicked1 := false, driven := true })

/-- A control core kicks SAFE (R315). -/
def ctrlKick (n : Nat) (s : State) : State := s.modSafe (fun f => { f with kicks := Tab.insert f.kicks n s.clock })

/-- A control core has not kicked for 1 ms: it leaves service, but for the deliberate restart of R404 (R315). -/
def ctrlLost (n : Nat) (s : State) : State :=
  if s.ctl.down.contains n || (s.activating && s.dbg.liveCore == n) || s.clock < Tab.get s.safe.kicks 0 n + 1000000 then s
  else
    let s1 := s.modCtl (fun c => { c with down := addOnce c.down n })
    let s2 := report { unit := 0xC5, cause := Cause.ctrlCoreLost, cls := 2 } s1
    if 8 < s2.ctl.down.length + 2 then enterSafe SS.ctrl s2 else s2

/-! ### Self-test (R322, R323) -/

/-- A safety stage on a core releases no unit before `until` (R323). -/
def stageQuiet (n deadline : Nat) (s : State) (st : Stream) (p : SlotPlan) : Bool :=
  !st.armed ||
    match (s.stageOf st p.stage).map (fun (d : StageDecl) => d.mode) with
    | some .strata => s.tal.lastTrig.any (fun t => s.tal.time + (deadline - s.clock) ≤ t + st.decl.minPeriod)
    | _ => (s.core n).releasedAt.any (fun t => deadline ≤ t + st.decl.period * 15 / 16)

/-- A slice of 200 µs and its guard of 10 µs end before the next release of every SIMPLEX or TRIPLEX stage on the
core (R323). -/
def sliceFits (n : Nat) (s : State) : Bool :=
  (s.core n).ready.isEmpty &&
    s.streams.all (fun e => !isSafety e.2.cls ||
      e.2.place.slots.all (fun p => !(p.cores.any (fun c => c.val == n)) || stageQuiet n (s.clock + 210000) s e.2 p))

/-- A self-test slice starts on an idle core in service (R60, R323). -/
def sliceStart (n : Nat) (s : State) : State :=
  let c := s.core n
  if c.seq = .idle && c.run.isNone && (c.pool == .schedulable || c.pool == .spare) && !(s.hdr (.core n)).isolated &&
      sliceFits n s then
    (s.modCore n (fun c => { c with seq := .test, drainReq := false })).modHdr (.core n) (fun h => { h with inTest := true })
  else s

/-- SERVICE CORE_TEST of core `n` completes.
DESIGN CHOICE: log entry 11. -/
def endCoreTest (n : Nat) (s : State) : State :=
  match s.ctl.tests.find? (fun t => t.core == n) with
  | none => s
  | some t => endOpen t.ctx t.order Status.ok (s.modCtl (fun c => { c with tests := c.tests.filter (fun x => x.core != n) }))

/-- A slice ends: the sixteenth ends the full test; a slice that fails, or a comparator that misses its injected
mismatch, is a permanent fault of the core (R48, R312, R322).  No rule gives its cause code: a free value.
The mismatches that the slice injects leave CORE_ABFT_LAST as it was (R72).
DESIGN CHOICE: log entry 11.
DESIGN CHOICE: log entry 12.
DESIGN CHOICE: log entry 111. -/
def sliceDone (n : Nat) (pass comparatorOk : Bool) (s : State) : State :=
  if (s.core n).seq ≠ .test then s
  else
    let s1 := (s.modCore n (fun c => { c with seq := .idle })).modHdr (.core n) (fun h => { h with inTest := false })
    if pass && comparatorOk then
      if 16 ≤ (s1.core n).slices + 1 then
        endCoreTest n (s1.modCore n (fun c => { c with slices := 0, testedAt := s.clock, late := false }))
      else s1.modCore n (fun c => { c with slices := c.slices + 1 })
    else
      endCoreTest n (report { unit := n, cause := Config.freeNat s1.free % 256, permanent := true }
        { s1 with free := s1.free + 1 })

/-- A core hosts a Strata stage: it is never tested in place (R323). -/
def State.hostsStrata (s : State) (n : Nat) : Bool :=
  s.streams.any (fun e => e.2.place.slots.any (fun p =>
    p.cores.any (fun c => c.val == n) && (s.stageOf e.2 p.stage).any (fun d => d.mode == .strata)))

/-- 80 s of a core's interval have passed: its Strata stage moves off it (R323). -/
def deferralLimit (n : Nat) (s : State) : State :=
  if (s.core n).testedAt + 80 * secNs ≤ s.clock && s.hostsStrata n then wantReplacement (s.slotsOn n) s else s

/-- A core is still untested when its interval of 100 s ends (R323). -/
def latentCore (n : Nat) (s : State) : State :=
  if (s.core n).testedAt + 100 * secNs ≤ s.clock && !(s.core n).late && (s.core n).pool != .fused && (s.core n).pool != .retired then
    let s1 := (s.modCore n (fun c => { c with late := true })).modSafe (fun f => { f with lateCore := n })
    wantReplacement (s1.slotsOn n)
      (report { unit := n, cause := Cause.latent, cls := 2, bit := Bit.safeLatent } (raise .safe Bit.safeLatent s1))
  else s

/-! ### The mailbox (R331, R333) -/

/-- Words of a fault record as SAFE_MBOX_OUT and SAFE_LAST_REC show it. -/
def FaultRec.words (r : FaultRec) : List W32 := (List.range 8).map (fun k => BitVec.ofNat 32 (field r.bytes (4 * k) 4))

/-- The mailbox refuses a command: MBOX_REFUSED and RESULT REFUSED. -/
def mboxRefuse (s : State) : State := raise .safe Bit.safeMbox (s.modSafe (fun f => { f with mboxResult := .refused }))

/-- A command is accepted and done. -/
def mboxDone (cmd : Nat) (s : State) : State := s.modSafe (fun f => { f with mboxLast := cmd, mboxResult := .done })

/-- The record that READ_LOG reads; an entry that the log does not hold reads as free values (R333 states none).
DESIGN CHOICE: log entry 36. -/
def readLogWords (s : State) : List W32 × State :=
  match s.safe.log[(Tab.get s.safe.mboxArg 0 0).toNat % 1024]? with
  | some r => (r.words, s)
  | none => ((List.range 8).map (fun k => Config.freeWord (s.free + k)), { s with free := s.free + 8 })

/-- Some stream of SIMPLEX or TRIPLEX class is armed, the mailbox is busy, the command is reserved, or a virtual function
writes it: refused (R333). -/
def mboxBad (fn cmd : Nat) (s : State) : Bool :=
  fn != 0 || s.safe.mboxResult == .busy || !(1 ≤ cmd && cmd ≤ 4) || (cmd == 3 && s.safetyArmed)

/-- A write to SAFE_MBOX_CMD (R333).  With its pairs stopped SAFE answers none.
DESIGN CHOICE: log entry 35. -/
def mbox (fn cmd : Nat) (s : State) : State :=
  if !s.safeRuns then s
  else if mboxBad fn cmd s then mboxRefuse s
  else if cmd = 1 then enterSafe SS.host (mboxDone cmd s)
  else if cmd = 2 then
    let (ws, s1) := readLogWords s
    mboxDone cmd (s1.modSafe (fun f => { f with mboxOut := ws }))
  else if cmd = 3 then
    sendFrame 2 0 (mboxDone cmd (s.modSafe (fun f => { f with pinTest := some s.clock, faultN := false })))
  else mboxDone cmd (s.modSafe (fun f => { f with evtTransient := 0, evtPermanent := 0, evtMasked := 0, egressLost := 0 }))

/-- The 1 ms of PIN_TEST ends (R333). -/
def endPinTest (s : State) : State :=
  match s.safe.pinTest with
  | none => s
  | some t => if t + 1000000 ≤ s.clock then releaseFault (s.modSafe (fun f => { f with pinTest := none })) else s

/-! ### Core samples (R395 to R400) -/

/-- DBG_CS_CTRL.COPY (R400): while the clocks of R371 are stopped it waits for the warm reset. -/
def copySample (s : State) : State :=
  if s.dbg.csState = .kept ∨ s.dbg.csState = .part ∨ s.dbg.csState = .copyDone then
    if s.pwr.retention then s.modDbg (fun d => { d with csWait := true })
    else s.modDbg (fun d => { d with csState := .copying })
  else s

/-- The copy ends (R400). -/
def copyDone (s : State) : State :=
  if s.dbg.csState = .copying then (s.modDbg (fun d => { d with csState := .copyDone })).emit .sampleCopy else s

/-- DBG_CS_CTRL.RELEASE (R396): the region is free again. -/
def releaseSample (s : State) : State :=
  if s.dbg.csState = .writing then s
  else s.modDbg (fun d => { d with csState := .none, sample := none, csWait := false })

end Sys2Proof.Machine
end

