-- ==== Sys2Proof/Machine/Power.lean ====
section
/-! DEFINITION. The power and thermal manager (R355 to R373): P-step changes, estimates and the guard, the allocator and its
table, the hard limits, the junction sensors, and the stop on coolant loss and THERMTRIP. -/

namespace Sys2Proof.Machine

open Sys2Proof Sys2Proof.Machine.Bits

/-! ### P-step changes (R356) -/

/-- The change of quadrant `q` ends with the switch of its clock: the idle PLL goes to the step below, and a target that
has moved on meanwhile starts the next change.  An upward change switches once the regulator reports the voltage
settled.
DESIGN CHOICE: log entry 92. -/
def switchStep (q : Nat) (s : State) : State :=
  let x := s.quad q
  match x.change with
  | none => s
  | some c =>
    if c.up && (c.noAck || !x.vrdy) then s
    else
      startStep q x.target (s.modQuad q (fun x =>
        { x with pstep := c.target, idlePll := c.target - 1, volt := c.target, change := none }))

/-- The regulator has not acknowledged or settled within 200 µs: the quadrant keeps its step and voltage (R356).
DESIGN CHOICE: log entry 92. -/
def regulatorFail (q : Nat) (s : State) : State :=
  let x := s.quad q
  match x.change with
  | none => s
  | some c =>
    if c.up && (c.noAck || c.since + 200000 ≤ s.clock) then
      report { unit := 0xC6, cause := Cause.regulatorFail, cls := 2, bit := Bit.pwrRegFail }
        (raise .pwr Bit.pwrRegFail (s.modQuad q (fun x =>
          { x with target := x.pstep, volt := x.pstep, idlePll := x.pstep - 1, change := none })))
    else s

/-! ### Estimates and the guard (R358, R362) -/

/-- The largest reading of a list of sensors that have a valid one. -/
def hottestOf (s : State) (ns : List Nat) : Int :=
  match (ns.filter (s.pwr.valid.contains ·)).map (fun n => Tab.get s.pwr.tj 0 n) with
  | [] => 0
  | t :: ts => ts.foldl max t

/-- The divider of a quadrant is engaged: some agent holds it (R357). -/
def Quad.div (x : Quad) : Bool := x.divAlloc || x.divGuard || x.divLimit

/-- Quadrants that are not in Bedrock mode. -/
def State.freeQuads (s : State) : List Nat := [0, 1, 2, 3].filter (fun q => !(s.quad q).bedrock)

/-- The estimate of quadrant `q` over a window, in 1/16 W. -/
def quadEstimate (q : Nat) (a : Activity) (s : State) : Nat :=
  Config.quadPower q (s.quad q).pstep (s.quad q).div a (hottestOf s ((List.range 12).map (· + 12 * q)))

/-- Store a new estimate of every region (R358). -/
def storeEstimate (quads : List Activity) (rest : Activity) (s : State) : State :=
  let es := [0, 1, 2, 3].map (fun q => quadEstimate q (quads.getD q {}) s)
  let r := Config.restPower rest (hottestOf s ((List.range 16).map (· + 48)))
  let total := es.sum + r
  let s1 := forEach [0, 1, 2, 3] (fun q s => s.modQuad q (fun x => { x with est := es.getD q 0 })) s
  s1.modPwr (fun p => { p with est := total, rest := r, hist := (total :: p.hist).take 500 })

/-- The guard engages: the divider of every quadrant that is not in Bedrock mode (R362). -/
def guardCheck (s : State) : State :=
  if 16 * (s.pwr.cap + s.pwr.guard) < s.pwr.est && !s.freeQuads.isEmpty && !s.pwr.guardActive then
    raise .pwr Bit.pwrGuard
      ((forEach s.freeQuads (fun q s => s.modQuad q (fun x => { x with divGuard := true })) s).modPwr (fun p =>
        { p with guardActive := true, guardEvents := sat32 (p.guardEvents + 1) }))
  else if 16 * (s.pwr.cap + s.pwr.guard) < s.pwr.est && s.pwr.guardActive then
    forEach s.freeQuads (fun q s => s.modQuad q (fun x => { x with divGuard := true })) s
  else s

/-- PWR_EST_AVG: the mean of the last 500 estimates (R358). -/
def Pwr.average (p : Pwr) : Nat := p.hist.sum / max 1 p.hist.length

/-! ### The allocator (R360, R361, R363, R364, R369) -/

/-- A setting of a quadrant: level 0 is step 0 with the divider, level k + 1 is step k. -/
def levelOf (x : Quad) : Nat := if x.target = 0 ∧ x.divAlloc = true then 0 else x.target + 1

/-- Key of the learned table. -/
def tableKey (q phase level : Nat) : Nat := (q * 16 + phase) * 17 + (if level = 0 then 16 else level - 1)

/-- Learned power and progress of a quadrant in a phase at a level; Sertoyr's default until the first update. -/
def learned (s : State) (q phase level : Nat) : Nat × Nat :=
  let step := if level = 0 then 16 else level - 1
  Tab.get s.pwr.table (Config.tableDefault q phase step) (tableKey q phase level)

/-- Phases in force on quadrant `q`: those of the contexts with work there (R363). -/
def phasesOn (s : State) (q : Nat) : List Nat :=
  match ((s.streams.filter (fun e => e.2.cores.any (fun n => coreQuad n == q))).map (fun e => (s.ctx e.2.ctx).phase)).eraseDups with
  | [] => [0]
  | ps => ps

/-- The phase whose learned power is highest at a level. -/
def phaseFor (s : State) (q level : Nat) : Nat :=
  (phasesOn s q).foldl (fun best p => if (learned s q best level).1 < (learned s q p level).1 then p else best)
    ((phasesOn s q).headD 0)

/-- Forecast power and progress of a quadrant at a level. -/
def forecast (s : State) (q level : Nat) : Nat × Nat := learned s q (phaseFor s q level) level

/-- entry + (measured − entry) / 8 (R361). -/
def learn (entry measured : Nat) : Nat := ((entry : Int) + ((measured : Int) - entry) / 8).toNat

/-- Update the table entry of each quadrant, its phase and its step with what was measured (R361). -/
def updateTable (measured : List (Nat × Nat)) (s : State) : State :=
  forEach (measured.zipIdx) (fun m s =>
    let q := m.2
    let level := levelOf (s.quad q)
    let ph := phaseFor s q level
    let old := learned s q ph level
    s.modPwr (fun p => { p with
      table := Tab.insert p.table (tableKey q ph level) (learn old.1 m.1.1, learn old.2 m.1.2) })) s

/-- Hints announced since the last decision come into force (R363). -/
def takeHints (s : State) : State :=
  { s with ctxs := s.ctxs.map (fun e =>
      match e.2.hint with
      | none => e
      | some p => (e.1, { e.2 with phase := p, hint := none })) }

/-- Levels of the quadrants that the allocator may change, by quadrant. -/
abbrev Levels := List (Nat × Nat)

/-- Forecast total in 1/16 W: the free quadrants at these levels, the others and the rest as last estimated. -/
def totalPower (s : State) (ls : Levels) : Nat :=
  (ls.map (fun e => (forecast s e.1 e.2).1)).sum +
    (([0, 1, 2, 3].filter (fun q => !(ls.any (fun e => e.1 == q)))).map (fun q => (s.quad q).est)).sum + s.pwr.rest

/-- A quadrant with no armed stream and no running job goes first (R360). -/
def idleQuad (s : State) (q : Nat) : Bool :=
  !s.streams.any (fun e => (e.2.armed || !e.2.jobs.isEmpty) && e.2.cores.any (fun n => coreQuad n == q))

/-- Progress per watt as a fraction: progress lost or gained and watts saved or spent by a move of one level. -/
def moveRatio (s : State) (q a b : Nat) : Int × Int :=
  (((forecast s q b).2 : Int) - (forecast s q a).2, ((forecast s q b).1 : Int) - (forecast s q a).1)

/-- The first ratio is smaller, where a move that costs or saves no power counts as boundless. -/
def ratioLt (x y : Int × Int) : Bool :=
  if x.2 ≤ 0 then false else if y.2 ≤ 0 then true else decide (x.1 * y.2 < y.1 * x.2)

/-- The quadrant to lower: idle ones first, then the least progress lost per watt saved.
DESIGN CHOICE: log entry 48. -/
def pickLower (s : State) (ls : Levels) : Option (Nat × Nat) :=
  let cs := ls.filter (fun e => 0 < e.2)
  let pool := if cs.any (fun e => idleQuad s e.1) then cs.filter (fun e => idleQuad s e.1) else cs
  match pool with
  | [] => none
  | c :: rest => some (rest.foldl (fun best e =>
      if ratioLt (moveRatio s e.1 (e.2 - 1) e.2) (moveRatio s best.1 (best.2 - 1) best.2) then e else best) c)

/-- The quadrant to raise: the most progress gained per watt among those that keep the total under the cap; never one
of `held`.
DESIGN CHOICE: log entry 48. -/
def pickRaise (s : State) (held : Option Nat) (ls : Levels) : Option (Nat × Nat) :=
  let cs := ls.filter (fun e => held != some e.1 && e.2 < 10 &&
    totalPower s (ls.map (fun f => if f.1 = e.1 then (f.1, f.2 + 1) else f)) ≤ 16 * s.pwr.cap)
  match cs with
  | [] => none
  | c :: rest => some (rest.foldl (fun best e =>
      if ratioLt (moveRatio s best.1 best.2 (best.2 + 1)) (moveRatio s e.1 e.2 (e.2 + 1)) then e else best) c)

/-- Lower quadrants while the forecast exceeds the cap.
DESIGN CHOICE: log entry 48. -/
def lowerAll (s : State) : (fuel : Nat) → Levels → Levels
  | 0, ls => ls
  | n + 1, ls =>
    if totalPower s ls ≤ 16 * s.pwr.cap then ls
    else
      match pickLower s ls with
      | none => ls
      | some e => lowerAll s n (ls.map (fun f => if f.1 = e.1 then (f.1, f.2 - 1) else f))

/-- Raise quadrants while the forecast stays under the cap, but not the one `held`. -/
def raiseAll (s : State) (held : Option Nat) : (fuel : Nat) → Levels → Levels
  | 0, ls => ls
  | n + 1, ls =>
    match pickRaise s held ls with
    | none => ls
    | some e => raiseAll s held n (ls.map (fun f => if f.1 = e.1 then (f.1, f.2 + 1) else f))

/-- The hottest sensor of all. -/
def State.hottest (s : State) : Int := hottestOf s (List.range 64)

/-- The free quadrant with the hottest sensor. -/
def hottestQuad (s : State) : Option Nat :=
  match s.freeQuads with
  | [] => none
  | q :: qs => some (qs.foldl (fun best k =>
      if hottestOf s ((List.range 12).map (· + 12 * best)) < hottestOf s ((List.range 12).map (· + 12 * k)) then k else best) q)

/-- Order a level of a free quadrant: its step, and the allocator's divider (R357, R360).
DESIGN CHOICE: log entry 92. -/
def orderLevel (q level : Nat) (s : State) : State :=
  startStep q (level - 1) (s.modQuad q (fun x => { x with divAlloc := level == 0 }))

/-- Throttling begins when the hottest sensor reaches PWR_TJ_HOT and lasts until it reads 2 °C below (R369). -/
def throttle (s : State) : State :=
  let on := if s.pwr.tjHotOn then s.pwr.tjHot - 16 ≤ s.hottest else s.pwr.tjHot ≤ s.hottest && !s.pwr.valid.isEmpty
  let s1 := if on && !s.pwr.tjHotOn then raise .pwr Bit.pwrTjHot s else s
  s1.modPwr (fun p => { p with tjHotOn := on })

/-- CAP_INFEASIBLE at a decision (R364). -/
def infeasibleCheck (s : State) : State :=
  let above := 16 * s.pwr.cap < s.pwr.average
  if !above then s.modPwr (fun p => { p with infeasible := false })
  else if !s.pwr.infeasible && s.freeQuads.all (fun q => (s.quad q).pstep == 0 && (s.quad q).divAlloc) then
    raise .pwr Bit.pwrInfeasible (s.modPwr (fun p => { p with infeasible := true }))
  else s

/-- The levels that the allocator chooses (R360): while it throttles, the hottest free quadrant goes one level down from where
it stands, or further for the cap, and is not raised (R369). -/
def chosenLevels (s : State) : Levels :=
  let now := s.freeQuads.map (fun q => (q, levelOf (s.quad q)))
  let low := lowerAll s 64 now
  match (if s.pwr.tjHotOn then hottestQuad s else none) with
  | none => raiseAll s none 64 low
  | some q => raiseAll s (some q) 64 (low.map (fun e => if e.1 = q then (e.1, min e.2 (levelOf (s.quad q) - 1)) else e))

/-- One decision of the allocator, every 100 µs (R360 to R364, R369). -/
def allocatorDecide (measured : List (Nat × Nat)) (s : State) : State :=
  let s1 := throttle (infeasibleCheck (takeHints (updateTable measured s)))
  let s2 := (forEach [0, 1, 2, 3] (fun q s => s.modQuad q (fun x => { x with divGuard := false })) s1).modPwr (fun p =>
    { p with guardActive := false })
  forEach (chosenLevels s1) (fun e s => orderLevel e.1 e.2 s) s2

/-! ### Hard limits (R367 to R371) -/

/-- FROM_NEXT POWER_LIMIT on every SIMPLEX and TRIPLEX stream. -/
def powerInval (withdrawn : Bool) : Inval :=
  { target := .safety, scope := .fromNext, cause := Cause.powerLimit, withdraw := withdrawn }

/-- PWR_LIMIT_N low (R367). -/
def powerLimit (s : State) : State :=
  let s1 := (forEach [0, 1, 2, 3] (fun q s => s.modQuad q (fun x => { x with divLimit := true })) s).modPwr (fun p =>
    { p with limitActive := true, limitEvents := sat32 (p.limitEvents + 1) })
  sendInval (powerInval false)
    (report { unit := 0xC6, cause := Cause.powerLimit, cls := 2, bit := Bit.pwrLimit } (raise .pwr Bit.pwrLimit s1))

/-- PWR_LIMIT_N has been high for 1 ms (R367).  The invalidation stays while R370 holds it too. -/
def powerRelease (s : State) : State :=
  if s.pwr.limitActive then
    let s1 := (forEach [0, 1, 2, 3] (fun q s => s.modQuad q (fun x => { x with divLimit := false })) s).modPwr (fun p =>
      { p with limitActive := false })
    if s1.pwr.overGrade then s1 else sendInval (powerInval true) s1
  else s

/-- A sensor's reading lies outside −50 to +150 °C, or differs by more than 10 °C from both of its neighbours (R368). -/
def sensorBad (n : Nat) (t : Int) (s : State) : Bool :=
  let (a, b) := Config.neighbours n
  let far (k : Nat) : Bool := s.pwr.valid.contains k && 80 < (t - Tab.get s.pwr.tj 0 k).natAbs
  t < -400 || 1200 < t || (far a && far b)

/-- A reading above the grade bound invalidates; 2 °C below it for 10 ms ends that (R370).  Every sensor at least 10 °C
below it ends the hold after THERMTRIP (R372).
DEDUCED: log entry 86. -/
def gradeCheck (n : Nat) (t : Int) (s : State) : State :=
  let s1 :=
    if s.gradeBound < t && !s.pwr.overGrade then
      sendInval (powerInval false)
        (report { unit := 0xC6, cause := Cause.powerLimit, cls := 2, bit := Bit.pwrOverGrade, reason := n }
          (raise .pwr Bit.pwrOverGrade (s.modPwr (fun p => { p with overGrade := true }))))
    else s
  let cool := s1.pwr.valid.all (fun k => Tab.get s1.pwr.tj 0 k ≤ s1.gradeBound - 16)
  let cold := (List.range 64).all (fun k =>
    s1.pwr.excluded.contains k || (s1.pwr.valid.contains k && Tab.get s1.pwr.tj 0 k ≤ s1.gradeBound - 80))
  s1.modPwr (fun p => { p with
    coolSince := if cool then some (p.coolSince.getD s.clock) else none, thermHold := p.thermHold && !cold })

/-- A sample of sensor `n` in 1/8 °C (R368 to R370); an armed SENSOR_FAIL injection makes sensor 0 read out of range. -/
def sampleSensor (n : Nat) (t : Int) (s0 : State) : State :=
  let (inj, s) := if n = 0 then takeInj .pwr Bit.pwrSensor s0 else (false, s0)
  if inj || sensorBad n t s then
    let s1 := s.modPwr (fun p =>
      { p with tj := Tab.insert p.tj n t, valid := dropAll p.valid n, excluded := addOnce p.excluded n })
    if s.pwr.excluded.contains n then s1
    else report { unit := 0xC6, cause := Cause.sensorExcluded, cls := 2, bit := Bit.pwrSensor } (raise .pwr Bit.pwrSensor s1)
  else
    gradeCheck n t (s.modPwr (fun p =>
      { p with tj := Tab.insert p.tj n t, valid := addOnce p.valid n, excluded := dropAll p.excluded n }))

/-- Every sensor has read at least 2 °C below the bound for 10 ms (R370). -/
def gradeClear (s : State) : State :=
  if s.pwr.overGrade && s.pwr.coolSince.any (fun t => t + 10000000 ≤ s.clock) then
    let s1 := s.modPwr (fun p => { p with overGrade := false })
    if s1.pwr.limitActive then s1 else sendInval (powerInval true) s1
  else s

/-- The reaction of R371 begins: the array and vector clocks stop, ingress closes and the safe state is entered. -/
def stopDevice (cause : Nat) (s : State) : State :=
  enterSafe cause
    { s with pwr := { s.pwr with stopped := true }, boot := { s.boot with ingressClosed := true } }

/-- A sensor's comparator asserts THERMTRIP (R370). -/
def thermTrip (s : State) : State :=
  stopDevice SS.thermtrip (raise .pwr Bit.pwrThermtrip (s.modPwr (fun p => { p with thermtrip := true })))

/-- COOLANT_OK has been low for 2 µs (R371).
DESIGN CHOICE: log entry 47. -/
def coolantLost (s : State) : State :=
  stopDevice SS.coolant (raise .pwr Bit.pwrCoolant
    { s with pwr := { s.pwr with coolantOk := false }, boot := { s.boot with coolantLowAt := s.clock } })

/-- Every DMC channel that is active enters self-refresh (R162). -/
def selfRefresh (s : State) : State :=
  { s with dmcs := s.dmcs.map (fun e => (e.1, if e.2.mode = .active then { e.2 with mode := .selfRefresh } else e.2)) }

/-- The records are written, DRAM is in self-refresh, and the listed clocks stop (R371). -/
def clocksStop (s : State) : State :=
  if s.pwr.stopped && !s.pwr.retention then
    let s1 := selfRefresh (recordEverything Cause.safeState s)
    { s1 with pwr := { s1.pwr with retention := true }, qmg := { s1.qmg with frozen := true } }
  else s

/-- VRDY_Qq falls: a supply fault of the quadrant, unless its voltage is being changed (R314, R454). -/
def vrdyLow (q : Nat) (s : State) : State :=
  let changing := (s.quad q).change.isSome
  let s1 := s.modQuad q (fun x => { x with vrdy := false })
  if changing || !s.boot.ready then s1 else isolateQuad q Cause.supplyFault s1

/-! ### PWR_CAP and PWR_GUARD (R359, R375, R377) -/

/-- A value clamped to 150 to 450 W. -/
def clampCap (v : Nat) : Nat := max 150 (min 450 v)

end Sys2Proof.Machine
end

