-- ==== Sys2Proof/Machine/Boot.lean ====
section
/-! DEFINITION. Boot and resets (R387 to R394, R412, R417, R424 to R427, R429, R451). -/

namespace Sys2Proof.Machine

open Sys2Proof Sys2Proof.Machine.Bits

/-! ### Settings at boot (R428 to R430) -/

/-- Partition 0 as it exists when no settings record declares a partition (R262, R327); the quotas and ways that no rule
states are all there are (log entry 27). -/
def defaultPartition : Partition :=
  { cls := .none, coreQuota := 160, queueQuota := 253952, poolQuota := 4096, wayMask := 0xFFFF, meshShare := 64,
    dramShare := 60, functions := 0x1FFFF, period := 1000000 }

/-- The partition of a settings record: a property that it omits takes its default (R262). -/
def settingPartition (v : List Byte) : Partition :=
  let f (k d : Nat) : Nat := if Config.settingHas 0x0010 k v then Config.settingField 0x0010 k v else d
  { cls := if f 0 0 = 0 then .none else if f 0 0 = 1 then .simplex else .triplex,
    coreQuota := f 1 0, queueQuota := f 2 0, poolQuota := f 3 0, wayMask := f 4 0, meshShare := f 5 0, dramShare := f 6 0,
    functions := f 7 1 }

/-- A partition beside those of lower number: its quotas and shares take no more than these leave of 160 cores, 64 mesh cycles and 60
DRAM slots, and no way of it is a way of theirs where either is a safety partition (R151, R262, R325, R326).
DESIGN CHOICE: log entry 27. -/
def fitPartition (ps : Tab Partition) (x : Partition) : Partition :=
  let left (cap : Nat) (f : Partition → Nat) : Nat := cap - (ps.map (fun e => f e.2)).sum
  { x with
    coreQuota := min x.coreQuota (left 160 (·.coreQuota)), meshShare := min x.meshShare (left 64 (·.meshShare)),
    dramShare := min x.dramShare (left 60 (·.dramShare)),
    wayMask := ps.foldl (fun m e =>
      if isSafety x.cls || isSafety e.2.cls then m &&& (0xFFFF ^^^ (e.2.wayMask % 65536)) else m) x.wayMask }

/-- The partitions that the settings declare, or the default one (R262).
DESIGN CHOICE: log entry 27. -/
def bootPartitions (n : Nvm) : Tab Partition :=
  match (List.range 16).filterMap (fun p => (n.setting 0x0010 p).map (fun v => (p, settingPartition v))) with
  | [] => [(0, defaultPartition)]
  | ps => ps.foldl (fun acc e => acc ++ [(e.1, fitPartition acc e.2)]) []

/-- Records that the device ignores (R428). -/
def ignoredRecords (n : Nvm) : Nat := n.badCrc + (n.settings.filter (fun x => !settingInRange x.type x.value)).length

/-- The signed value of a 12-bit field. -/
def signed12 (v : Nat) : Int := if v < 2048 then v else (v : Int) - 4096

/-- Context bindings of the settings (R430). -/
def bindFromSettings (s : State) : State :=
  forEach ((List.range 4096).filter (fun c => (s.nvm.setting 0x0011 c).isSome)) (fun c s =>
    s.modCtx c (fun x => { x with
      part := some (s.nvm.fieldOf 0x0011 c 0 0), vector := s.nvm.fieldOf 0x0011 c 1 0, fn := s.nvm.fieldOf 0x0011 c 2 0 })) s

/-- Ethernet lanes of the settings (R216, R252). -/
def portsFromSettings (s : State) : State :=
  forEach ((List.range 24).filter (fun l => (s.nvm.setting 0x0021 l).isSome)) (fun l s =>
    s.modPort (12 + l) (fun p => { p with
      type := if s.nvm.fieldOf 0x0021 l 0 0 = 0 then 3 else 4, lanes := 1, fec := s.nvm.fieldOf 0x0021 l 1 0 = 1,
      mac := s.nvm.fieldOf 0x0021 l 2 0 % 2 ^ 48, ip := s.nvm.fieldOf 0x0021 l 3 0 % 2 ^ 32 })) s

/-- The values that come from settings, read at each power-on and warm reset (R429, R430). -/
def applySettings (s : State) : State :=
  let n := s.nvm
  let t : State := { s with
    tal := { s.tal with src := n.fieldOf 0x0020 0 0 0, lane := n.fieldOf 0x0020 0 1 0, domain := n.fieldOf 0x0020 0 2 0 }
    safe := { s.safe with egressUs := n.fieldOf 0x0030 0 0 1000, faultHold := n.fieldOf 0x0030 0 1 10 }
    scrubHours := n.fieldOf 0x0040 0 1 4
    dmcs := s.dmcs.map (fun e => (e.1, { e.2 with rate := n.fieldOf 0x0040 0 0 0 }))
    dbg := { s.dbg with
      csSize := n.fieldOf 0x0041 0 0 0, csBase := n.fieldOf 0x0041 0 1 0, hangWait := n.fieldOf 0x0041 0 3 100 }
    boot := { s.boot with
      autoRestart := n.fieldOf 0x0041 0 2 0 == 1, badRecords := min 255 (ignoredRecords n) }
    pwr := { s.pwr with
      cap := n.fieldOf 0x0050 0 0 450
      tjHot := ((n.setting 0x0050 0).map (fun v => signed12 (Config.settingField 0x0050 1 v))).getD (s.gradeBound - 40) } }
  let t1 := portsFromSettings (bindFromSettings t)
  if 0 < ignoredRecords n then raise .boot Bit.block t1 else t1

/-! ### Stopping and going on -/

/-- The boot stops with a code (R427). -/
def bootStop (code : Nat) (s : State) : State :=
  raise .glb Bit.block (s.modBoot (fun b => { b with stopCode := code, state := .stopped, ready := false }))

/-- Start a warm reset (R391 step 1): ingress closes, units stop as under R64, and the cause is kept (R410).  The safety
pins are no longer driven (R444). -/
def beginWarm (source : Nat) (s : State) : State :=
  let cause := s.safe.ssCause
  let s1 := { s with
    boot := { s.boot with
      ready := false, ingressClosed := true, warm := source, warmCut := false, warmAt := s.clock, warmPending := false }
    dbg := { s.dbg with
      rstSource := source, rstCause := cause, rstCount := sat32 (s.dbg.rstCount + 1),
      csState := if s.dbg.csState = .writing then .part else s.dbg.csState }
    safe := { s.safe with driven := false, okP := false, okN := false, faultN := false } }
  forEach (s1.cores.map (·.1)) stopUnit s1

/-- A warm reset is requested: honoured in READY, STOPPED and WAIT_COOLANT and while one runs, latched otherwise (R451). -/
def requestWarm (source : Nat) (s : State) : State :=
  if s.boot.warm ≠ 0 ∨ s.boot.state = .ready ∨ s.boot.state = .stopped ∨ s.boot.state = .waitCoolant then
    beginWarm source s
  else s.modBoot (fun b => { b with warmPending := true, pendSource := source })

/-- A latched request begins when the boot reaches READY or STOPPED (R451). -/
def takePending (s : State) : State := if s.boot.warmPending then beginWarm s.boot.pendSource s else s

/-- The boot stops, and a latched warm reset begins. -/
def stopBoot (code : Nat) (s : State) : State := takePending (bootStop code s)

/-- Every quadrant regulator is ready (R449). -/
def State.allVrdy (s : State) : Bool := [0, 1, 2, 3].all (fun q => (s.quad q).vrdy)

/-- After the SAFE test: on to the image, or to WAIT_COOLANT, once every regulator is ready (R424, R449). -/
def afterSafeTest (s : State) : State :=
  if s.boot.state = .safeTest && s.boot.safeDone && s.allVrdy then
    s.modBoot (fun b => { b with state := if s.pwr.coolantOk then .image else .waitCoolant })
  else s

/-! ### Power-on (R390, R424) -/

/-- Power-on reset: everything but fuses and flash (R390), and the rows queued for the repair at this boot (R161).  The model's own
clock, record and queue go on.
DEDUCED: log entry 129. -/
def powerOn (s : State) : State :=
  { State.reset with
    pending := s.pending, clock := s.clock, free := s.free, outs := s.outs, nvm := s.nvm
    dmcs := (s.dmcs.filter (fun e => e.2.ppr != 0)).map (fun e => (e.1, { State.reset.dmc e.1 with ppr := e.2.ppr }))
    boot := { State.reset.boot with porstAt := s.clock } }

/-- The fuses are read, or the boot stops (R424, R427). -/
def fusesRead (ok : Bool) (s : State) : State :=
  if s.boot.state ≠ .powerOn then s
  else if !ok then stopBoot 5 s
  else
    forEach s.nvm.fused (fun n s => s.modCore n (fun c => { c with pool := .fused }))
      (s.modBoot (fun b => { b with state := .safeTest }))

/-- SAFE's boot self-test ends (R297, R424, R427). -/
def safeTested (pass : Bool) (s : State) : State :=
  if s.boot.state ≠ .safeTest then s
  else if !pass then stopBoot 1 s
  else
    afterSafeTest { s with
      boot := { s.boot with safeDone := true }
      safe := { s.safe with saferefOk := true, pair0Ok := true, pair1Ok := true } }

/-- A regulator asserts VRDY (R449). -/
def vrdyHigh (q : Nat) (s : State) : State := afterSafeTest (s.modQuad q (fun x => { x with vrdy := true }))

/-- VRDY_Qq is still low 100 ms after PORST_N rose (R449). -/
def vrdyTimeout (q : Nat) (s : State) : State :=
  if s.boot.state = .safeTest && !(s.quad q).vrdy && s.boot.porstAt + 100000000 ≤ s.clock then stopBoot 6 s else s

/-- COOLANT_OK has been high for 10 ms (R424).
DESIGN CHOICE: log entry 47. -/
def coolantBack (s : State) : State :=
  let s1 := s.modPwr (fun p => { p with coolantOk := true })
  if s.boot.state = .waitCoolant && !s.pwr.stopped then s1.modBoot (fun b => { b with state := .image }) else s1

/-- The slot that the boot takes first: the pending one, else the active one (R426). -/
def Nvm.firstSlot (n : Nvm) : Bool := n.pending.getD n.activeB

/-- A slot holds an image that verifies (R425). -/
def Nvm.slotGood (n : Nvm) (b : Bool) : Bool := (n.slot b).any n.verifies

/-- Reason that DBG_FW_UPD shows for a pending slot that fails (R402, R426). -/
def slotReason (n : Nvm) (b : Bool) : Nat := if (n.slot b).any n.signed then 2 else 1

/-- A pending slot that fails clears its mark (R426). -/
def dropPendingSlot (s : State) : State :=
  match s.nvm.pending with
  | none => s
  | some b => { s with
      nvm := { s.nvm with pending := none }
      dbg := { s.dbg with updState := .failed, updReason := slotReason s.nvm b } }

/-- Run the image of slot `b`. -/
def runSlot (b : Bool) (s : State) : State :=
  match s.nvm.slot b with
  | none => s
  | some x =>
    { s with
      boot := { s.boot with slotB := b, svn := x.svn }
      ctl := s.ctl.runs x.release x.fmtMajor s.free
      free := s.free + 2 }

/-- Choose and verify the slot: the other one on a failure, none stops the boot (R426, R427).  The Bool says that an image
runs. -/
def chooseSlot (s : State) : Bool × State :=
  let b := s.nvm.firstSlot
  if s.nvm.slotGood b then (true, runSlot b (s.modBoot (fun x => { x with fallback := false })))
  else if s.nvm.slotGood (!b) then
    (true, runSlot (!b) ((dropPendingSlot s).modBoot (fun x => { x with fallback := true })))
  else (false, dropPendingSlot s)

/-- The image is verified (R424). -/
def imageVerified (s : State) : State :=
  if s.boot.state ≠ .image then s
  else
    match chooseSlot s with
    | (true, s1) => s1.modBoot (fun b => { b with state := .train })
    | (false, s1) => stopBoot 2 s1

/-- What MR8 of the dies of a channel reads (R155). -/
def diesOf (dies : List ChannelDies) (c : Nat) : ChannelDies := dies.getD c { density := 4, ranks := 1 }

/-- The dies of a channel agree with the settings record, where there is one (R155, R430).
DESIGN CHOICE: log entry 24. -/
def diesAgree (n : Nvm) (d : ChannelDies) : Bool :=
  n.fieldOf 0x0040 0 2 d.density == d.density && n.fieldOf 0x0040 0 3 (d.ranks - 1) + 1 == d.ranks

/-- A channel's mode after training: MAPPED_OUT by its settings record or where its dies disagree with the record of the
configuration, ACTIVE, or still TRAINING when it failed (R155, R161).
DESIGN CHOICE: log entry 128. -/
def trainMode (n : Nvm) (trained : BitVec 12) (d : ChannelDies) (c : Nat) : DmcMode :=
  if (n.setting 0x0083 c).isSome || !diesAgree n d then .mappedOut else if trained.getLsbD c then .active else .training

/-- A channel after training: its configuration from MR8, and the queued rows repaired as far as the dies have resources
(R155, R161, R168). -/
def Dmc.train (d : Dmc) (x : ChannelDies) (mode : DmcMode) : Dmc :=
  { d with mode := mode, density := x.density, ranks := x.ranks - 1,
           ppr := d.ppr - x.repairs, repairs := x.repairs - d.ppr }

/-- Channels that failed training: TRAIN_FAIL and a map-out request in the settings (R161). -/
def trainFail (c : Nat) (s : State) : State := firmwareRecord 0x0083 c [] (raise (.dmc c) Bit.dmcTrainFail s)

/-- Apply the repair of a row of a core, given by core × 32,768 + bank × 512 + row. -/
def applyCoreRow (inst : Nat) (s : State) : State :=
  let bank := inst / 512 % 64
  s.modCore (inst / 32768) (fun c =>
    let used := Tab.get c.spareRows 0 bank
    { c with rowMap := Tab.insert c.rowMap (inst % 32768) used, spareRows := Tab.insert c.spareRows bank (used + 1) })

/-- Apply the repair of a row of a slice, given by slice × 64 + part. -/
def applySliceRow (inst : Nat) (s : State) : State := s.modSlice (inst / 64) (fun x => x.useSpare (inst % 64))

/-- The fused repairs, then the field repairs and the slice bypasses of the settings (R143, R152).  A repair record's
instance names a row of a core, or from 192 × 32,768 up a part of a slice (log entry 24). -/
def applyRepairs (s0 : State) : State :=
  let s := forEach s0.nvm.sliceRows applySliceRow (forEach s0.nvm.coreRows applyCoreRow s0)
  let s1 := forEach (s.nvm.settings.filter (fun x => x.type == 0x0080)) (fun x s =>
    if x.inst < 192 * 32768 then applyCoreRow x.inst s else applySliceRow ((x.inst - 192 * 32768) / 16) s) s
  forEach ((List.range 48).filter (fun k => (s.nvm.setting 0x0082 k).isSome)) (fun k s =>
    let (ts, s1) := lodeTakers k s
    bypassSlice k ts s1) s1

/-- DMC training ends, with MR8 of the dies read (R155); with fewer than 8 channels the boot stops (R424, R427). -/
def trainDone (trained : BitVec 12) (dies : List ChannelDies) (s : State) : State :=
  if s.boot.state ≠ .train then s
  else
    let s1 := forEach (List.range 12) (fun c s =>
      let x := diesOf dies c
      s.modDmc c (fun d => d.train x (trainMode s.nvm trained x c))) s
    let bad := (List.range 12).filter (fun c => (s1.dmc c).mode == .training)
    let s2 := forEach bad trainFail s1
    let s3 := s2.modBoot (fun b => { b with trained := (s2.activeChans.map (2 ^ ·)).sum })
    if s3.activeChans.length < 8 then stopBoot 3 s3
    else (applyRepairs s3).modBoot (fun b => { b with state := .coreTest })

/-- Cores that may serve after the boot self-test: good, and with at most one retirement record (R387). -/
def goodCores (s : State) (failed : List Nat) : List Nat :=
  allCores.filter (fun n => (s.core n).pool != .fused && !failed.contains n && s.nvm.retirements n < 2)

/-- Lode's choice of the 160 schedulable cores: cores without a record first, which ones the manual leaves to Lode (R13,
R387).
DESIGN CHOICE: log entry 50. -/
def chooseCores (s : State) (good : List Nat) : List Nat :=
  let clean := good.filter (fun n => s.nvm.retirements n = 0)
  let once := good.filter (fun n => s.nvm.retirements n ≠ 0)
  let k := Config.freeNat s.free % max 1 clean.length
  (clean.drop k ++ clean.take k ++ once).take 160

/-- The cores' boot self-test ends: retirements apply and the pools are formed, or the boot stops (R387, R427); the settings
that the training does not need take effect here, DMC_CFG.RATE among them.
DESIGN CHOICE: log entry 128. -/
def coresTested (failed : List Nat) (s : State) : State :=
  if s.boot.state ≠ .coreTest then s
  else
    let good := goodCores s failed
    let chosen := chooseCores s good
    let pool (n : Nat) : PoolMember :=
      if (s.core n).pool = .fused then .fused
      else if !good.contains n then .retired
      else if chosen.contains n then .schedulable else .spare
    let s1 := forEach allCores (fun n s => s.modCore n (fun c => { c with pool := pool n, testedAt := s.clock })) s
    let s2 := { s1 with free := s1.free + 1 }
    let s3 := forEach (failed.filter (fun n => (s.core n).pool != .fused && s.nvm.retirements n = 0)) recordRetirement s2
    if good.length < 160 then stopBoot 4 s3
    else applySettings (s3.modBoot (fun b => { b with state := .settings }))

/-- A pending slot that reached READY becomes the active one, and the counter rises to the image's SVN (R426). -/
def confirmSlot (s : State) : State :=
  let n := s.nvm
  let s1 := { s with nvm := { n with counter := max n.counter s.boot.svn } }
  match n.pending with
  | none => s1
  | some b => postNotice 0x01 s1.ctl.fwVer.toNat none
      { s1 with nvm := { s1.nvm with activeB := b, pending := none }, dbg := { s1.dbg with updState := .idle } }

/-- GLB_STAT.READY rises: SAFE runs, the heartbeat grid and FAULT_N start, commands are accepted (R319, R424, R444). -/
def becomeReady (s : State) : State :=
  releaseFault (confirmSlot { s with
    boot := { s.boot with state := .ready, ready := true, booted := true, warm := 0, warmCut := false, ingressClosed := false }
    qmg := { s.qmg with frozen := false }
    safe := { s.safe with
      mode := .run, driven := true, okP := false, okN := false, kicked0 := false, kicked1 := false,
      classes := s.parts.map (fun e => (e.1, e.2.cls)), kicks := (List.range 8).map (fun k => (k, s.clock)) } })

/-- The boot ends: partitions exist and the device is ready (R424).  A warm reset under way ends by itself (R391). -/
def bootDone (s : State) : State :=
  if s.boot.state ≠ .settings ∨ s.boot.warm ≠ 0 then s
  else takePending (becomeReady { s with parts := bootPartitions s.nvm })

/-! ### Warm reset (R390, R391) -/

/-- Send every record that is formed, oldest first, for every stream (R20). -/
def flushRecords (s : State) : State := forEach (s.streams.map (·.1)) sendFormed s

/-- Records not yet written: items without a record and records that have not left. -/
def unwritten (s : State) : Nat := (s.streams.map (fun e => e.2.items.length + e.2.formed.length)).sum

/-- A core after a warm reset: pool, test times, repair maps and RWS counters stay (R387, R390).
DESIGN CHOICE: log entry 46. -/
def CoreSt.warm (c : CoreSt) : CoreSt :=
  { pool := c.pool, abftEvents := c.abftEvents, spareRows := c.spareRows, rowMap := c.rowMap, testedAt := c.testedAt,
    late := c.late }

/-- A stream of a stage that stays out of service keeps its fault (R386, R391). -/
def State.stillOut (s : State) (st : Stream) : Bool :=
  st.cores.any (fun n => (s.core n).pool == .retired || (s.quad (coreQuad n)).isolated)

/-- A stream after a warm reset: its declaration and placement stay (R390).
DESIGN CHOICE: log entry 46. -/
def warmStream (s : State) (st : Stream) : Stream :=
  { ctx := st.ctx, part := st.part, cls := st.cls, image := st.image, decl := st.decl, place := st.place,
    faulted := st.faulted && s.stillOut st, suspended := if s.stillOut st then st.suspended else [] }

/-- What the reset of step 3 leaves (R390): everything that R390 keeps, and the rest as after power-on.
DESIGN CHOICE: log entry 46. -/
def warmState (s : State) : State :=
  let z := State.reset
  { z with
    pending := s.pending, clock := s.clock, free := s.free, outs := s.outs, nvm := s.nvm
    dram := s.dram, dramPoison := s.dramPoison
    cores := s.cores.map (fun e => (e.1, e.2.warm))
    parts := s.parts, images := s.images, slotEpochs := s.slotEpochs
    streams := s.streams.map (fun e => (e.1, warmStream s e.2))
    ctxs := s.ctxs.map (fun e => (e.1, { part := e.2.part, fn := e.2.fn, vector := e.2.vector, budget := e.2.budget,
                                         budgetLeft := e.2.budget.getD 0 }))
    qmg := { z.qmg with
      handlesLost := s.qmg.handlesLost, descCorr := s.qmg.descCorr, order := s.qmg.order
      invals := s.qmg.invals.filter (fun i => i.cause == Cause.streamFault &&
        s.streams.any (fun e => i.target == .stream e.1 && e.2.faulted && s.stillOut e.2)) }
    ports := s.ports.map (fun e => (e.1, { bind := e.2.bind, type := e.2.type, lanes := e.2.lanes, second := e.2.second }))
    tal := { z.tal with
      groups := s.tal.groups.map (fun e =>
        (e.1, { w := e.2.w, l := e.2.l, members := e.2.members, mandatory := e.2.mandatory }))
      detectors := s.tal.detectors.map (fun e =>
        (e.1, { en := e.2.en, excl := e.2.excl, thresh := e.2.thresh, stream := e.2.stream })) }
    slices := s.slices.map (fun e => (e.1, { bypassed := e.2.bypassed, eccCorr := e.2.eccCorr, dataUsed := e.2.dataUsed,
                                             tagSpares := e.2.tagSpares, tagSpares1 := e.2.tagSpares1,
                                             cleanUncorr := e.2.cleanUncorr }))
    mesh := s.mesh
    dmcs := s.dmcs.map (fun e =>
      (e.1, { e.2 with mode := if e.2.mode = .selfRefresh then .active else e.2.mode }))
    safe := { z.safe with
      frameSeq := s.safe.frameSeq, lostSeen := s.safe.lostSeen, log := s.safe.log, events := s.safe.events,
      evtTransient := s.safe.evtTransient, evtPermanent := s.safe.evtPermanent, evtMasked := s.safe.evtMasked,
      egressLost := s.safe.egressLost, linkUp := s.safe.linkUp, saferefOk := true, pair0Ok := true, pair1Ok := true }
    pwr := { z.pwr with
      limitEvents := s.pwr.limitEvents, coolantOk := s.pwr.coolantOk,
      thermHold := s.pwr.thermHold || s.safe.ssCause == SS.thermtrip,
      quads := s.pwr.quads.map (fun e =>
        (e.1, { vrdy := e.2.vrdy, isolated := e.2.isolated, goodSince := s.clock })) }
    ctl := { z.ctl with
      fwVer := s.ctl.fwVer, fmtMajor := s.ctl.fmtMajor, minorCur := s.ctl.minorCur, minorPrev := s.ctl.minorPrev,
      placeEpoch := s.ctl.placeEpoch, jSlot := s.ctl.jSlot, jLast := s.ctl.jLast, jState := s.ctl.jState,
      repl := s.ctl.repl, pendRepl := s.ctl.pendRepl, retry := s.ctl.retry }
    dbg := { s.dbg with
      hangWait := 100, csWait := false, liveCore := 0xFF,
      csState := if s.dbg.csWait then .copying else s.dbg.csState,
      updState := if s.dbg.updState = .writing ∨ s.dbg.updState = .activating then .failed else s.dbg.updState,
      updReason := if s.dbg.updState = .writing ∨ s.dbg.updState = .activating then 6 else s.dbg.updReason }
    pce := s.pce
    pages := (s.pages.filter (fun e => e.2.isolated)).map (fun e => (e.1, { isolate := true, isolated := true }))
    boot := { s.boot with state := .settings, stopCode := 0, warmCut := true, ready := false, ingressClosed := true } }

/-- A warm reset of a device that has not been READY since power-on takes its boot up again: from the fuses after
STOP_CODE 5, else after SAFE's boot test, with the image next (R391, R424, R427).  Settings repairs apply anew in the boot.
DESIGN CHOICE: log entry 46. -/
def bootAgain (safePass : Bool) (s : State) : State :=
  let t := warmState s
  let u : State := { t with
    cores := t.cores.map (fun e => (e.1, { e.2 with spareRows := [], rowMap := [] }))
    slices := t.slices.map (fun e => (e.1, { eccCorr := e.2.eccCorr }))
    boot := { t.boot with warm := 0, warmCut := false, ingressClosed := false, safeDone := false } }
  if s.boot.stopCode = 5 then u.modBoot (fun b => { b with state := .powerOn })
  else if !safePass then bootStop 1 u
  else afterSafeTest (u.modBoot (fun b => { b with state := .safeTest, safeDone := true }))

/-- The reset takes effect and SAFE runs its boot test (R391 step 3): a failure stops the boot, and after coolant loss with
COOLANT_OK still low the device returns to the state of R371 (R372). -/
def takeReset (safePass : Bool) (s : State) : State :=
  if !s.boot.booted then bootAgain safePass s
  else match chooseSlot (warmState s) with
  | (false, t) => bootStop 2 (t.modBoot (fun b => { b with warm := 0 }))
  | (true, t) =>
    if !safePass then bootStop 1 (t.modBoot (fun b => { b with warm := 0 }))
    else if s.safe.ssCause = SS.coolant ∧ s.pwr.coolantOk = false then
      enterSafe SS.coolant { t with
        pwr := { t.pwr with stopped := true, retention := true }
        boot := { t.boot with state := .waitCoolant, warm := 0, warmCut := false } }
    else t

/-- The quiesce finishes in time: the QMG has written a CANCELLED record for every item without one, the records have
left, and DRAM is in self-refresh (R391). -/
def quiesced (safePass : Bool) (s : State) : State :=
  if s.boot.warm ≠ 0 ∧ s.boot.warmCut = false then
    takeReset safePass (selfRefresh (flushRecords (recordEverything Cause.cancelled s)))
  else s

/-- The quiesce is cut off after 1 ms: records not yet written are lost and counted (R391). -/
def cutOff (safePass : Bool) (s : State) : State :=
  if s.boot.warm ≠ 0 ∧ s.boot.warmCut = false ∧ s.boot.warmAt + 1000000 ≤ s.clock then
    takeReset safePass (selfRefresh (s.modDbg (fun d => { d with rstLost := sat32 (d.rstLost + unwritten s) })))
  else s

/-- Firmware reads the journal (R288): PREPARE keeps the old placement, and its re-placement is pending
again; COMMITTED is completed. -/
def readJournal (s : State) : State :=
  match s.ctl.jState with
  | .idle => s
  | .prepare =>
    let again := s.ctl.repl.toList.flatMap Repl.slots
    raise .ctl Bit.ctlRecovered (wantReplacement again ((discardNew s).modCtl (fun c => { c with jLast := 1 })))
  | .committed =>
    raise .ctl Bit.ctlRecovered ((forEach s.ctl.repl.toList endRepl s).modCtl (fun c => { c with jLast := 2, jState := .idle }))

/-- Rebuild queues, pools, windows, links and fan-outs from the kept placement, every buffer free at generation 1, and load
the cores (R391 step 5). -/
def rebuild (s : State) : State :=
  let s1 := forEach (s.streams.map (·.1)) (fun id s =>
    match s.stream? id with
    | none => s
    | some st => placeStream id st s) s
  { s1 with slotEpochs := s.slotEpochs }

/-- DBG_RST_CAUSE as a word (R410). -/
def Dbg.rstWord (d : Dbg) : Nat := d.rstCause * 256 + d.rstSource

/-- A warm reset ends: journal, rebuild, and READY with every stream disarmed and every context disabled (R391).
DESIGN CHOICE: log entry 65. -/
def warmDone (s : State) : State :=
  if s.boot.warm ≠ 0 ∧ s.boot.warmCut = true then
    takePending (postNotice 0x04 s.dbg.rstWord none (becomeReady (applySettings (rebuild (readJournal s)))))
  else s

/-- Automatic restart after a fatal error (R389): enabled, the sample complete, and 100 ms since the entry. -/
def autoWarm (s : State) : State :=
  if s.boot.autoRestart && s.safe.ssCause == SS.fatal && s.dbg.csState != .writing && s.boot.warm == 0 &&
      s.boot.fatalAt + 100000000 ≤ s.clock then beginWarm 3 s
  else s

/-! ### Quadrant, function-level and port resets (R390, R392, R393, R417, R451) -/

/-- A core after a quadrant reset: RWS fields, pool, placement fields and repair maps stay. -/
def CoreSt.quadReset (c : CoreSt) : CoreSt :=
  { c.warm with slot := c.slot, part := c.part, regions := c.regions, slotBase := c.slotBase, workBase := c.workBase,
                workEnd := c.workEnd, rings := c.rings }

/-- A quadrant reset starts: the quadrant's clock and rail have been in range for 10 ms (R393). -/
def quadReset (q : Nat) (s : State) : State :=
  if s.boot.ready && (s.quad q).isolated && !(s.quad q).resetting && (s.quad q).goodSince + 10000000 ≤ s.clock then
    let s1 := match s.ctl.repl with
      | some r => if r.new.any (fun n => coreQuad n == q) then abandon s else s
      | none => s
    forEach (quadCores q) (fun n s => s.modCore n CoreSt.quadReset) (s1.modQuad q (fun x => { x with resetting := true }))
  else s

/-- A core of the quadrant after its 16 slices: the spare pool, or RETIRED (R393). -/
def quadCoreTested (failed : List Nat) (n : Nat) (s : State) : State :=
  let c := s.core n
  let s1 := s.modHdr (.core n) (fun h => { h with isolate := false, isolated := false })
  if c.pool = .fused ∨ c.pool = .retired then s1
  else if failed.contains n then recordRetirement n (s1.modCore n (fun c => { c with pool := .retired }))
  else s1.modCore n (fun c => { c with pool := .spare, testedAt := s.clock, late := false })

/-- A quadrant reset ends: the isolation ends, and stages that still name a core of the quadrant are placed again
(R393, R459). -/
def quadResetDone (q : Nat) (failed : List Nat) (s : State) : State :=
  if (s.quad q).resetting then
    let before := s.spares.length
    let s1 := forEach (quadCores q) (quadCoreTested failed)
      (s.modQuad q (fun x => { x with resetting := false, isolated := false }))
    checkSpares before (rebalance (wantReplacement ((quadCores q).flatMap (fun n => s1.slotsOn n)) s1))
  else s

/-- Contexts on which a reset of function `fn` acts: its own, and for the physical function every one (R392, R417). -/
def resetContexts (fn : Nat) (s : State) : List Nat :=
  (s.ctxs.filter (fun e => fn == 0 || e.2.fn == fn)).map (·.1)

/-- Disable a context: EN 0, its live epochs cancelled, its streams disarmed; commands that wait are dropped (R392).
DESIGN CHOICE: log entry 49. -/
def disableContext (c : Nat) (s : State) : State :=
  let s1 := (s.modCtl (fun x => { x with waiting := x.waiting.filter (fun h => h.ctx != c) })).modCtx c (fun x =>
    { x with en := false, fetched := [] })
  let live := (s1.qmg.epochs.filter (fun e => e.2.ctx == c && !e.2.cancelled)).map (·.1)
  let s2 := forEach live (fun e s => cancelEpoch e (abortHeldOf e s)) s1
  forEach (s2.streamIds (fun st => st.ctx == c && st.armed)) (fun id s => disarm id (recordAll Cause.cancelled id s)) s2

/-- A function-level reset (R392, R417).
DESIGN CHOICE: log entry 49. -/
def functionReset (fn : Nat) (s : State) : State :=
  let s1 := forEach (resetContexts fn s) disableContext s
  if fn = 0 then
    { s1 with
      dbg := { s1.dbg with noticeEn := false }
      pages := s1.pages.map (fun e => (e.1, { e.2 with intEn := 0 })) }
  else s1

/-- PCIE_PERST_N low (R451): the PCE block is reset, the link goes down, and the physical function is reset. -/
def perst (s : State) : State :=
  functionReset 0 { s with pce := {}, pages := Tab.erase s.pages Block.pce.page }

/-- The link trains (R412). -/
def linkUp (speed width mps : Nat) (s : State) : State :=
  let s1 := { s with pce := { s.pce with up := true, speed := speed, width := width, mps := mps } }
  if speed < 5 ∨ width < 16 then raise .pce Bit.pceDegraded s1 else s1

/-- The link leaves L0, and what AER reports of it: a corrected or an uncorrectable PCIe error (R436).
DESIGN CHOICE: log entry 117. -/
def linkDown (pm : Bool) (aer : Upset) (s : State) : State :=
  let s1 := match aer with
    | .clean => s
    | .corrected => raise .pce Bit.pceCorr s
    | .uncorrectable => raise .pce Bit.pceUncorr s
  if pm then s1 else raise .pce Bit.pceLinkDown { s1 with pce := { s1.pce with up := false } }

/-- A port reset (R390): the PHY and the packet logic; bindings and armed state stay, a frame in reception is not whole. -/
def resetPort (p : Nat) (s : State) : State :=
  let s1 := s.modPort p (fun x => { x with up := false, trained := false })
  forEach ((s.port p).bind.map (·.2)) (fun id s =>
    s.modStream id (fun st => { st with
      frame := st.frame.map (fun f => { f with badShape := true })
      lines := st.lines.map (fun l => { l with bytes := [] }) })) s1

/-! ### Requests and the recovery loader (R427, R437) -/

/-- A write of GLB_RST_REQ (R414, R437). -/
def resetRequest (fn : Nat) (value : W32) (s : State) : State :=
  if fn ≠ 0 then lockWrite .glb s
  else if value.toNat % 65536 = 0x5EB0 then requestWarm 2 s else s

/-- A write of BOOT_LOAD_CMD (R427, R437). -/
def loadStart (fn : Nat) (value : W32) (s : State) : State :=
  if fn ≠ 0 then lockWrite .boot s
  else if value.getLsbD 0 && s.boot.stopCode == 2 then s.modBoot (fun b => { b with loadStat := .loading }) else s

/-- The recovery loader has read its image: it is written into slot A when it verifies (R427). -/
def loadDone (x : FwImage) (s : State) : State :=
  if s.boot.loadStat ≠ .loading then s
  else if s.nvm.verifies x then
    { s with nvm := s.nvm.setSlot false (some x), boot := { s.boot with loadStat := .done } }
  else s.modBoot (fun b => { b with loadStat := .failed })

end Sys2Proof.Machine
end

