-- ==== Sys2Proof/Machine/HostRegs.lean ====
section
/-! DEFINITION. Host register writes (R7 to R9, R414, R415, R432 to R435), injections (R47, R250, R375), doorbells and
the registers of a context's queues (R200, R201, R204, R209), monitors (R439 to R441) and the notice ring (R406, R408). -/

namespace Sys2Proof.Machine

open Sys2Proof Sys2Proof.Machine.Bits

/-! ### Injections -/

/-- Streams that an ingress port serves: those bound to it (R251).
DEDUCED: log entry 40. -/
def State.portStreams (s : State) (p : Nat) : List Nat := (s.port p).bind.map (·.2)

/-- Every stream of a list has class NONE.
DEDUCED: log entry 40. -/
def State.allNone (s : State) (ids : List Nat) : Bool :=
  ids.all (fun id => (s.stream? id).all (fun st => st.cls == .none))

/-- Streams that TAL serves: those of a sensor; and that PPE serves: every declared stream.
DEDUCED: log entry 40. -/
def State.talStreams (s : State) : List Nat := s.streamIds (fun st => st.decl.kind != 4)

/-- The block's rule on injections accepts one (R47, R250, R375); a block without a rule takes every one. -/
def injAllowed (b : Block) (s : State) : Bool :=
  match b with
  | .core n => (s.hdr b).inTest || ((s.core n).slot != 0xFFFF && s.classOf (s.core n).part == .none)
  | .ing p => (s.hdr b).inTest || s.allNone (s.portStreams p)
  | .tal => (s.hdr b).inTest || s.allNone s.talStreams
  | .ppe => (s.hdr b).inTest || s.allNone (s.streamIds (fun _ => true))
  | .pwr => !s.safetyArmed
  | _ => true

/-- An injection is discarded: INJ_REFUSED where the page has the bit. -/
def injRefused (b : Block) (s : State) : State :=
  match b.injRefusedBit with
  | none => s
  | some bit => raiseTold b bit s

/-- Bits of an accepted write that stay void: the ABFT injection with a COLUMN above 32 (R73). -/
def injVoid (b : Block) (s : State) : W32 :=
  match b with
  | .core n => if 32 < bitField (s.core n).injSel.toNat 8 6 then 1 else 0
  | _ => 0

/-- A write of ERR_INJ while LOCK is closed: a core sets INJ_REFUSED for an injection as well (R47, R434). -/
def injLocked (b : Block) (value : W32) (s : State) : State :=
  match b with
  | .core _ => if value &&& BitVec.ofNat 32 b.injMask = 0 then s else injRefused b s
  | _ => s

/-- Ones written to the ERR_INJ bits of a page whose LOCK is open: each listed injection arms or is refused. -/
def injWrite (b : Block) (value : W32) (s : State) : State :=
  let v := value &&& BitVec.ofNat 32 b.injMask
  if v = 0 then s
  else if !injAllowed b s then injRefused b s
  else
    let void := v &&& injVoid b s
    let s1 := s.modHdr b (fun h => { h with inj := h.inj ||| (v &&& ~~~void) })
    if void = 0 then s1 else injRefused b s1

/-! ### LOCK (R434) -/

/-- 1 ms in ns. -/
def lockNs : Nat := 1000000

/-- The page is open. -/
def State.lockOpen (s : State) (b : Block) : Bool := (s.hdr b).lockOpen && s.clock < (s.hdr b).lockAt + lockNs

/-- A write of the physical function to LOCK. -/
def writeLock (b : Block) (value : W32) (s : State) : State :=
  s.modHdr b (fun h => { h with lockOpen := value.toNat % 65536 == 0xA5C3, lockAt := s.clock })

/-- 1 ms without a write to a protected register closes the page. -/
def closeLock (b : Block) (s : State) : State :=
  if (s.hdr b).lockOpen && (s.hdr b).lockAt + lockNs ≤ s.clock then s.modHdr b (fun h => { h with lockOpen := false }) else s

/-- A write of the physical function to a register that LOCK protects: it takes effect and closes the page, or is
recorded in LOCK_WRITE.
DESIGN CHOICE: log entry 37. -/
def underLock (b : Block) (effect : State → State) (s : State) : State :=
  if s.lockOpen b then effect (s.modHdr b (fun h => { h with lockOpen := false })) else lockWrite b s

/-! ### Header registers (R432) -/

/-- Number of implemented ERR_STAT bits of a page. -/
def Block.errBits : Block → Nat
  | .core _ => 11 | .shc _ => 5 | .dmc _ => 6 | .qmg => 11 | .ing _ => 10 | .tal => 11 | .ppe => 8 | .ctl => 6
  | .safe => 8 | .pwr => 10 | .dbg => 8 | .glb => 2 | .boot => 2 | .mon => 2 | .pce => 5 | .tlk _ => 6 | .mesh => 0

/-- The implemented ERR_STAT bits of a page. -/
def Block.errMask (b : Block) : W32 := BitVec.ofNat 32 (2 ^ b.errBits - 1)

/-- The implemented INT_STAT bits of a page: NOTICE is the DBG page's alone. -/
def Block.intMask : Block → BitVec 2
  | .dbg => 3
  | _ => 1

/-- Ones written to ERR_STAT clear those bits (R7, R435). -/
def clearErr (b : Block) (value : W32) (s : State) : State :=
  s.modHdr b (fun h => { h with errStat := h.errStat &&& ~~~value })

/-- The host may write ERR_INJ of the page, under LOCK; SAFE's list of what the host writes leaves it out (R328, R432). -/
def hostInj (b : Block) : Bool :=
  match b with
  | .safe => false
  | _ => true

/-- A write of the physical function to a register of the common header that is not read-only. -/
def writeHeader (b : Block) (off : Nat) (value : W32) (s : State) : State :=
  if off = 0x14 then clearErr b value s
  else if off = 0x18 then s.modHdr b (fun h => { h with errEn := value &&& b.errMask })
  else if off = 0x1C then
    if hostInj b then underLock b (injWrite b value) (if s.lockOpen b then s else injLocked b value s) else lockWrite b s
  else if off = 0x30 then s.modHdr b (fun h => { h with intStat := h.intStat &&& ~~~(value.setWidth 2) })
  else if off = 0x34 then s.modHdr b (fun h => { h with intEn := value.setWidth 2 &&& b.intMask })
  else if off = 0x38 then
    s.modHdr b (fun h => { h with vecValid := value.getLsbD 31, vec := value.setWidth 10 })
  else if off = 0x40 then writeLock b value s
  else lockWrite b s

/-! ### A context's queues (R200 to R204, R209) -/

/-- Commands of a context that wait in its ring: read and not started, or waiting at its head (R196). -/
def State.inRing (s : State) (c : Nat) : Nat :=
  (s.ctx c).fetched.length +
    (s.ctl.waiting.filter (fun h => h.ctx == c && (h.why == .epochs || h.why == .behind))).length

/-- HEAD count of a command queue. -/
def State.cmdHead (s : State) (c : Nat) : Nat := ((s.ctx c).cmdTail + 2 ^ 19 - s.inRing c % 2 ^ 19) % 2 ^ 19

/-- The QMG reads one new descriptor of a context: it waits to start, or completes at once with BAD_COMMAND (R203).
DESIGN CHOICE: log entry 90. -/
def fetchOne (c : CtxNum) (d : List Byte) (s : State) : State :=
  let tag : W32 := BitVec.ofNat 32 (field d 4 4)
  if descOk d c.val then s.modCtx c.val (fun x => { x with fetched := x.fetched ++ [(tag, field d 0 1)] })
  else
    raise .qmg Bit.qmgBadCommand
      (finishOpen { ctx := c, tag := tag, irq := field d 1 1 % 2 == 1 } (field d 0 1) Status.badCommand noEpoch s)

/-- A doorbell write is accepted: from the owning function, on an enabled queue that is not FAULTED, with a count between HEAD and HEAD
plus the depth (R201).
DESIGN CHOICE: log entry 39. -/
def doorbellOk (fn c tail : Nat) (s : State) : Bool :=
  let x := s.ctx c
  x.fn == fn && x.en && !x.cmdFault && (tail + 2 ^ 19 - s.cmdHead c) % 2 ^ 19 ≤ 2 ^ (x.cmdLog2 + 3)

/-- Commands that a new TAIL count adds; none when it lies among those already read.
DESIGN CHOICE: log entry 39. -/
def newCommands (c tail : Nat) (s : State) : Nat :=
  let n := (tail + 2 ^ 19 - (s.ctx c).cmdTail) % 2 ^ 19
  if n + s.inRing c ≤ 2 ^ ((s.ctx c).cmdLog2 + 3) then n else 0

/-- A doorbell write of function `fn` for context `c`, with the descriptors that lie in the ring between the old and
the new count (R201, R203).  A slot for which none is given reads as a malformed descriptor.
DESIGN CHOICE: log entry 39. -/
def doorbell (fn : Nat) (c : CtxNum) (value : W32) (descs : List (List Byte)) (s : State) : State :=
  let tail := value.toNat % 2 ^ 19
  if !doorbellOk fn c.val tail s then
    raise .qmg Bit.qmgDoorbell (if fn ≠ 0 ∧ (s.ctx c.val).fn ≠ fn then lockWrite .qmg s else s)
  else
    let (ok, s0) := readDescriptor (0x3F000 + c.val) .clean s
    if !ok then s0
    else
      let n := newCommands c.val tail s0
      let s1 := s0.modCtx c.val (fun x => { x with cmdTail := (x.cmdTail + n) % 2 ^ 19, cmdPushed := (x.cmdPushed + n) % 2 ^ 32 })
      forEach (List.range n) (fun k s => fetchOne c (descs.getD k []) s) s1

/-- Write the completions that a context holds while its ring has space. -/
def drainCpl (c : Nat) (s : State) : State := drainHeld (s.ctx c).cplHeld.length c s

/-- A write of QMG_CTX_QCFG (R209). -/
def writeQcfg (c : Nat) (value : W32) (s : State) : State :=
  let x := s.ctx c
  let en := value.getLsbD 8
  if x.en then
    if en then s
    else retireCtx c s
  else
    let s1 := s.modCtx c (fun x =>
      { x with cplLog2 := bitField value.toNat 4 4, cmdLog2 := bitField value.toNat 0 4 })
    if en then
      drainCpl c (s1.modCtx c (fun x =>
        { x with en := true, retiring := false, cmdFault := false, cplFault := false, cmdTail := 0, cplHead := 0, cplTail := 0, cmdPushed := 0, cplPushed := 0,
                 fetched := [] }))
    else s1

/-- A write of QMG_CTX_CPL_HEAD returns ring space (R204). -/
def writeCplHead (c : Nat) (value : W32) (s : State) : State :=
  drainCpl c (s.modCtx c (fun x => { x with cplHead := value.toNat % 2 ^ 19 }))

/-- Replace the low or the high word of a 64-bit address register. -/
def putLow (x : W64) (v : W32) : W64 := (x &&& 0xFFFFFFFF00000000) ||| (v &&& 0xFFFFFFC0).setWidth 64
/-- Replace the high word. -/
def putHigh (x : W64) (v : W32) : W64 := (x &&& 0xFFFFFFFF) ||| (v.setWidth 64 <<< 32)

/-- A write of a ring address; discarded and recorded while EN is 1 (R9, R206). -/
def writeRing (c off : Nat) (v : W32) (s : State) : State :=
  if (s.ctx c).en then lockWrite .qmg s
  else s.modCtx c (fun x =>
    if off = 0x164 then { x with cmdBase := putLow x.cmdBase v }
    else if off = 0x168 then { x with cmdBase := putHigh x.cmdBase v }
    else if off = 0x16C then { x with cplBase := putLow x.cplBase v }
    else { x with cplBase := putHigh x.cplBase v })

/-- BAR0 offset of a register. -/
def regAddr (b : Block) (off : Nat) : Nat := b.page * 65536 + off

/-- What a function has written to a SEL register (R415). -/
def State.sel (s : State) (fn : Nat) (b : Block) (off : Nat) : Nat :=
  (Tab.get s.sels 0 (regAddr b off * 17 + fn)).toNat

/-- A write of a SEL register: only the writing function's copy changes. -/
def writeSel (fn : Nat) (b : Block) (off : Nat) (value : W32) (s : State) : State :=
  { s with sels := Tab.insert s.sels (regAddr b off * 17 + fn) (value &&& BitVec.ofNat 32 (writeMask b off)) }

/-- The context that a function has selected in QMG_CTX_SEL or CTL_ACCT_SEL; none when a virtual function names one of
another function (R414). -/
def State.selCtx (s : State) (fn : Nat) (b : Block) (off : Nat) : Option Nat :=
  let c := s.sel fn b off % 4096
  if fn = 0 ∨ (s.ctx c).fn = fn then some c else none

/-- A write of function `fn` to one of the registers behind QMG_CTX_SEL. -/
def writeCtxReg (fn off : Nat) (value : W32) (s : State) : State :=
  match s.selCtx fn .qmg 0x160 with
  | none => lockWrite .qmg s
  | some c =>
    if off = 0x174 then writeQcfg c value s
    else if off = 0x178 then writeCplHead c value s
    else writeRing c off value s

/-! ### Monitors (R439 to R441) -/

/-- A source is signed (R374, R439). -/
def monSigned (src : Nat) : Bool := src == 0x0407 || src == 0x0408 || src == 0x0500 || (0x0440 ≤ src && src ≤ 0x047F)

/-- A source of the lists of R374 and R439.
DESIGN CHOICE: log entry 41. -/
def monKnown (src : Nat) : Bool :=
  src ≤ 0xBF || (0x100 ≤ src && src ≤ 0x123) || [0x200, 0x201, 0x300, 0x301, 0x302].contains src ||
    (0x380 ≤ src && src ≤ 0x38B) || (0x390 ≤ src && src ≤ 0x3BF) || (0x400 ≤ src && src ≤ 0x408) ||
    (0x440 ≤ src && src ≤ 0x47F) || src == 0x500 || src == 0x501

/-- The physical function may use a partition (R262). -/
def State.pfOwns (s : State) (p : Nat) : Bool := (s.part? p).any (fun x => x.functions % 2 == 1)

/-- The source of a monitor is available: a listed one, whose ARG names a stream, queue or pool of a partition that the
physical function owns where it needs one.
DESIGN CHOICE: log entry 41. -/
def monAvailable (m : Mon) (s : State) : Bool :=
  if m.src = 0x200 ∨ m.src = 0x201 then (s.stream? m.arg).any (fun st => s.pfOwns st.part)
  else if m.src = 0x300 ∨ m.src = 0x302 then
    (Tab.find s.qmg.queues m.arg).any (fun q => q.state != .unused && s.pfOwns q.part)
  else if m.src = 0x301 then (s.pool? m.arg).any (fun p => s.pfOwns p.part)
  else monKnown m.src

/-- A value saturated to 32 bits, signed or unsigned (R439).
DESIGN CHOICE: log entry 41. -/
def monValue (sign : Bool) (v : Int) : Int :=
  if sign then max (-2147483648) (min 2147483647 v) else max 0 (min 4294967295 v)

/-- A 32-bit register as a number in the source's sign. -/
def monEdge (sign : Bool) (w : W32) : Int := if sign then w.toInt else w.toNat

/-- The bin of a sample (R441). -/
def monBin (m : Mon) (v : Int) : Nat :=
  let e0 := monEdge (monSigned m.src) m.e0
  if m.log then
    let e := max 1 e0
    if v < e then 0 else min 31 (Nat.log2 (v / e).toNat + 1)
  else
    let step : Int := if m.step = 0 then 1 else m.step.toNat
    if v < e0 + step then 0 else min 31 ((v - e0) / step).toNat

/-- CLEAR: MIN, MAX, COUNT and the bins to their initial values. -/
def Mon.clear (m : Mon) : Mon := { m with min := none, max := none, count := 0, bins := [] }

/-- Take a sample. -/
def Mon.take (m : Mon) (raw : Int) : Mon :=
  let v := monValue (monSigned m.src) raw
  let b := monBin m v
  { m with
    min := some (m.min.elim v (fun x => if v < x then v else x)),
    max := some (m.max.elim v (fun x => if x < v then v else x)),
    count := sat32 (m.count + 1), bins := Tab.insert m.bins b (sat32 (Tab.get m.bins 0 b + 1)) }

/-- The source of monitor `k` delivers a value. -/
def monSample (k : Nat) (v : Int) (s : State) : State :=
  let m := s.mon k
  if !m.en then s
  else if monAvailable m s then s.modMon k (fun m => m.take v)
  else raise .mon Bit.block s

/-- A write of MON_CFG: a change of EN from 0 to 1 clears; LOG and PERIOD change only while EN is 0 (R440). -/
def writeMonCfg (k : Nat) (value : W32) (s : State) : State :=
  s.modMon k (fun m =>
    let en := value.getLsbD 31
    if m.en then { m with en := en }
    else
      let m1 := { m with en := en, log := value.getLsbD 30, period := value.toNat % 65536 }
      if en then m1.clear else m1)

/-- A write of the physical function to a register of monitor `k`; while EN is 1 one to the source, the argument or the edges is
discarded and recorded (R9, R440). -/
def writeMon (k r : Nat) (value : W32) (s : State) : State :=
  if r = 0x08 then writeMonCfg k value s
  else if r = 0x20 then if value.getLsbD 0 then s.modMon k Mon.clear else s
  else if (s.mon k).en then lockWrite .mon s
  else s.modMon k (fun m =>
    if r = 0x00 then { m with src := value.toNat % 65536 }
    else if r = 0x04 then { m with arg := value.toNat % 2 ^ 18 }
    else if r = 0x0C then { m with e0 := value }
    else { m with step := value })

/-! ### DBG (R406, R408) -/

/-- Announce the notices that were dropped as soon as the ring has space (R406, R407).
DESIGN CHOICE: log entry 38. -/
def announceLost (s : State) : State :=
  if s.dbg.noticeOwed ≠ 0 ∧ s.dbg.noticeEn = true ∧ s.dbg.noticeSpace = true then
    writeNotice 0x08 s.dbg.noticeLost none (s.modDbg (fun d => { d with noticeOwed := 0 }))
  else s

/-- A write of DBG_NOTICE_CFG: enabling the ring starts its counts at 0, so that PHASE starts at 1 (R407).
DESIGN CHOICE: log entry 38. -/
def writeNoticeCfg (value : W32) (s : State) : State :=
  s.modDbg (fun d =>
    let d1 := { d with noticeEn := value.getLsbD 8, noticeLog2 := value.toNat % 16 }
    if value.getLsbD 8 && !d.noticeEn then { d1 with noticeHead := 0, noticeTail := 0 } else d1)

/-- A write of DBG_NOTICE_HEAD returns ring space. -/
def writeNoticeHead (value : W32) (s : State) : State :=
  announceLost (s.modDbg (fun d => { d with noticeHead := value.toNat % 2 ^ 19 }))

/-- A write of the physical function to a DBG register that R408 opens. -/
def writeDbg (off : Nat) (value : W32) (s : State) : State :=
  if off = 0x130 then s.modDbg (fun d => { d with csHost := putLow d.csHost value })
  else if off = 0x134 then s.modDbg (fun d => { d with csHost := putHigh d.csHost value })
  else if off = 0x138 then
    let s1 := if value.getLsbD 0 then copySample s else s
    if value.getLsbD 1 then releaseSample s1 else s1
  else if off = 0x140 then
    s.modDbg (fun d => if d.noticeEn then d else { d with noticeBase := putLow d.noticeBase value })
  else if off = 0x144 then
    s.modDbg (fun d => if d.noticeEn then d else { d with noticeBase := putHigh d.noticeBase value })
  else if off = 0x148 then writeNoticeCfg value s
  else writeNoticeHead value s

/-! ### The other pages -/

/-- CORE_CNT_CLR (R67). -/
def clearCore (n : Nat) (value : W32) (s : State) : State :=
  if value.getLsbD 0 then s.modCore n (fun c => { c with arrayBusy := [], vecBusy := 0, unitMax := 0 }) else s

/-- ING_CNT_CLR (R251). -/
def clearPort (p : Nat) (value : W32) (s : State) : State :=
  if value.getLsbD 0 then
    s.modPort p (fun x => { x with pkts := 0, hdrCorr := 0, pktDrop := 0, crcErr := 0, overrun := 0, stray := 0 })
  else s

/-- PWR_CAP clamped, PWR_GUARD limited (R377). -/
def writePwr (off : Nat) (value : W32) (s : State) : State :=
  if off = 0x100 then s.modPwr (fun p => { p with cap := clampCap (value.toNat % 512) })
  else s.modPwr (fun p => { p with guard := min 100 (value.toNat % 128) })

/-- A write of the BOOT_LOAD registers (R427, R437). -/
def writeBoot (off : Nat) (value : W32) (s : State) : State :=
  if off = 0x110 then s.modBoot (fun b => { b with loadAddr := (b.loadAddr &&& 0xFFFFFFFF00000000) ||| value.setWidth 64 })
  else if off = 0x114 then s.modBoot (fun b => { b with loadAddr := putHigh b.loadAddr value })
  else if off = 0x118 then s.modBoot (fun b => { b with loadLen := value &&& 0x7FFFFFF })
  else loadStart 0 value s

/-- A write of the physical function to a register after the header that is mapped and not read-only. -/
def writeBody (b : Block) (off : Nat) (value : W32) (s : State) : State :=
  if bodyAccess b off = some .rws then lockWrite b s
  else if isSel b off then writeSel 0 b off value s
  else
    match b with
    | .glb => resetRequest 0 value s
    | .safe =>
      if off = 0x190 then mbox 0 (value.toNat % 256) s
      else s.modSafe (fun f => { f with mboxArg := Tab.insert f.mboxArg ((off - 0x180) / 4) value })
    | .pwr => underLock .pwr (writePwr off value) s
    | .boot => writeBoot off value s
    | .dbg => writeDbg off value s
    | .mon => writeMon ((off - 0x1000) / 0x100) (off % 0x100) value s
    | .ing p => clearPort p value s
    | .core n =>
      if off = 0x118 then
        underLock b (fun s => s.modCore n (fun c => { c with injSel := value &&& 0x1F3F03 })) s
      else clearCore n value s
    | .qmg =>
      if 0x4000 ≤ off then doorbell 0 (Fin.ofNat 4096 ((off - 0x4000) / 4)) value [] s else writeCtxReg 0 off value s
    | _ => s

/-- A write of a virtual function to a mapped register that is not read-only (R414).
DESIGN CHOICE: log entry 36. -/
def writeVirtual (fn : Nat) (b : Block) (off : Nat) (value : W32) (s : State) : State :=
  match b with
  | .ctl => if off = 0x120 then writeSel fn b off value s else lockWrite b s
  | .safe => if off = 0x190 then mbox fn (value.toNat % 256) s else lockWrite b s
  | .qmg =>
    if off = 0x160 then writeSel fn b off value s
    else if 0x4000 ≤ off then doorbell fn (Fin.ofNat 4096 ((off - 0x4000) / 4)) value [] s
    else if 0x164 ≤ off ∧ off ≤ 0x178 then writeCtxReg fn off value s
    else lockWrite b s
  | _ => lockWrite b s

/-! ### A host write (R9, R371, R414) -/

/-- Blocks whose clock domains stop after coolant loss (R371). -/
def Block.stops : Block → Bool
  | .ing _ => true | .ppe => true | .qmg => true | .dmc _ => true | .mesh => true | .shc _ => true
  | .tlk _ => true | .core _ => true
  | _ => false

/-- The page of a block answers: its clock runs, and its core is not fused out (R67, R371). -/
def State.answers (s : State) (b : Block) : Bool :=
  !(s.pwr.retention && b.stops) &&
    match b with
    | .core n => (s.core n).pool != .fused
    | _ => true

/-- A write of function `fn` to offset `off` of a block's page.
DESIGN CHOICE: log entry 37. -/
def writeReg (fn : Nat) (b : Block) (off : Nat) (value : W32) (s : State) : State :=
  if !s.answers b then s
  else
    match regAccess b off with
    | none => s
    | some .ro => s
    | some _ =>
      if fn ≠ 0 then writeVirtual fn b off value s
      else if off < 0x100 then writeHeader b off value s
      else writeBody b off value s

/-- The queue descriptor window (R205, R431). -/
def inWindow (addr : Nat) : Bool := 0x08000000 ≤ addr && addr < 0x08800000

/-- A write of function `fn` at BAR0 offset `addr` (R9).
DESIGN CHOICE: log entry 37. -/
def hostWrite (fn addr : Nat) (value : W32) (s0 : State) : State :=
  let s := receiveTlp s0
  if inWindow addr then if s.answers .qmg then lockWrite .qmg s else s
  else
    match blockOfPage (addr / 65536) with
    | none => s
    | some b => writeReg fn b (addr % 65536) value s

end Sys2Proof.Machine
end

