-- ==== Sys2Proof/Machine/Memory.lean ====
section
/-! DEFINITION. Scratchpad accesses (R124 to R130, R139 to R144), DRAM as the host, the DMCs and the patrol scrubber see
it (R158 to R161, R413), mesh lanes and planes (R154, R388), and the bandwidth shares (R325, R326). -/

namespace Sys2Proof.Machine

open Sys2Proof Sys2Proof.Machine.Bits

/-! ### Scratchpad words -/

/-- Bank of a word (R124). -/
def wordBank (w : Nat) : Nat := w % 64
/-- Physical row of a word within its bank (R124). -/
def wordRow (w : Nat) : Nat := w / 1024
/-- Words of a row of a bank. -/
def rowWords (bank row : Nat) : List Nat := (List.range 16).map (fun i => row * 1024 + i * 64 + bank)

/-- The newest value of a word in the write buffer, with its poison tag (R126, R139). -/
def CoreSt.buffered (c : CoreSt) (w : Nat) : Option (W32 × Bool) := (c.wbuf.reverse.find? (fun e => e.1 == w)).map (·.2)

/-- A corrected error of a word; `pass` says that a scrub pass found it (R143). -/
def CoreSt.noteCorr (c : CoreSt) (w : Nat) (pass : Bool) : CoreSt :=
  { c with corrWords := Tab.insert c.corrWords w (Tab.get c.corrWords 0 w + (if pass then 1 else 0)) }

/-- What a bank read of word `w` meets: the code's finding and the injections of R75.  A corrected word is written back
and reported (R75), an uncorrectable one poisoned in place (R140).  The Bool says that the read found an uncorrectable
error.
DESIGN CHOICE: log entry 91. -/
def bankRead (n w : Nat) (u : Upset) (pass : Bool) (s : State) : Bool × State :=
  let b := Block.core n
  let (ic, s1) := takeInj b Bit.coreEccCorr s
  let (iu, s2) := takeInj b Bit.coreEccUncorr s1
  if iu || u == .uncorrectable then
    (true, raiseAt b Bit.coreEccUncorr w none
      (s2.modCore n (fun c => { c.poisonAt w with badWords := addOnce c.badWords w })))
  else if ic || u == .corrected then
    (false, report { unit := n, cause := 0, bit := Bit.coreEccCorr, corrected := true }
      (raise b Bit.coreEccCorr (s2.modCore n (fun c => c.noteCorr w pass))))
  else (false, s2)

/-- An uncorrectable error of a read stops the unit that reads; without one it is reported (R139, R140). -/
def readFault (n : CoreNum) (s : State) : State :=
  match (s.core n.val).run with
  | some _ => faultStop n Cause.memPoison Bit.coreEccUncorr 0 true s
  | none => report { coreEv s n.val Cause.memPoison Bit.coreEccUncorr with counted := true } s

/-- A local read of word `w` by core `n` (R126, R139, R140): a word in the write buffer reads as buffered; an uncorrectable
error stops the unit that reads; a poisoned word flags its output. -/
def localRead (n : CoreNum) (w : Nat) (u : Upset) (s : State) : State :=
  match (s.core n.val).buffered w with
  | some (v, false) => s.emit (.data n.val [v] false)
  | some (_, true) => flagUnit n.val Cause.memPoison (s.emit (.data n.val [poisonWord] true))
  | none =>
    let (bad, s1) := bankRead n.val w u false s
    let c := s1.core n.val
    let poisoned := c.spPoison.contains w
    let s2 := s1.emit (.data n.val [if poisoned then poisonWord else Tab.get c.sp 0 w] poisoned)
    if bad then readFault n s2
    else if poisoned then flagUnit n.val Cause.memPoison s2
    else s2

/-- The words of ranges (first word, count), in order. -/
def rangeWords (rs : List (Nat × Nat)) : List Nat := rs.flatMap (fun r => (List.range r.2).map (r.1 + ·))

/-- What a read of words of the scratchpad by the unit's own engines meets (R126, R139, R140).  Words in the write buffer are no
bank access; of the others the code finds what it finds at the `k`-th, and the injections of R75 meet the first.  An
uncorrectable error stops the unit, and a poisoned word flags it.  The Bool says that the unit was stopped. -/
def readRanges (n : CoreNum) (rs : List (Nat × Nat)) (u : Upset) (k : Nat) (s : State) : Bool × State :=
  let words := rangeWords rs
  let bank := words.filter (fun w => ((s.core n.val).buffered w).isNone)
  let (bad, s1) := match bank with
    | [] => (false, s)
    | w :: _ =>
      let (b1, s1) := bankRead n.val w .clean false s
      let (b2, s2) := if u = Upset.clean then (false, s1) else bankRead n.val (bank.getD k w) u false s1
      (b1 || b2, s2)
  if bad then (true, readFault n s1)
  else if (s1.core n.val).drain.spPoison.any (words.contains ·) then (false, flagUnit n.val Cause.memPoison s1)
  else (false, s1)

/-- A word lies in a line ring. -/
def CoreSt.inRing (c : CoreSt) (w : Nat) : Bool := c.rings.any (fun r => r.1 ≤ w && w < r.1 + r.2)

/-- A unit may write a word: the working region, and the line rings (R128, R130). -/
def CoreSt.unitMayWrite (c : CoreSt) (w : Nat) : Bool := w < 0x7C000 && (c.workBase ≤ w || c.inRing w)

/-- A write by the running unit: it lands, or is malformed and stops the unit (R130).  With the clocks stopped nothing is
written (R371).
DESIGN CHOICE: log entry 88. -/
def unitWrite (n : CoreNum) (w : Nat) (v : W32) (s : State) : State :=
  if (s.core n.val).run.isNone || s.pwr.stopped then s
  else if (s.core n.val).unitMayWrite w then s.modCore n.val (fun c => c.writeWord w v)
  else seqIllegal n s

/-- An access of the bank that holds a word (R125, R140). -/
def spAccess (n : CoreNum) (op : SpOp) (u : Upset) (s : State) : State :=
  match op with
  | .read w =>
    if (s.core n.val).run.isSome && 0x7C000 ≤ w then seqIllegal n s else localRead n w u s
  | .unitWrite w v => unitWrite n w v s
  | .fwWrite w v => s.modCore n.val (fun c => c.writeWord w v)

/-- The scrubber reads a word: an uncorrectable one is poisoned in place and reported, and the core does not stop (R141). -/
def scrubWord (n w : Nat) (u : Upset) (s : State) : State :=
  let (bad, s1) := bankRead n w u true s
  if bad then report { unit := n, cause := Cause.memPoison, bit := Bit.coreEccUncorr, counted := true } s1 else s1

/-! ### Row repair (R142 to R144) -/

/-- A row needs repair: corrected errors at two words, or at one word on two scrub passes, or an uncorrectable error. -/
def rowNeedsRepair (c : CoreSt) (bank row : Nat) : Bool :=
  let ws := rowWords bank row
  let corr := ws.filterMap (fun w => Tab.find c.corrWords w)
  2 ≤ corr.length || corr.any (2 ≤ ·) || ws.any (c.badWords.contains ·)

/-- The contents of a row that an uncorrectable error lost: values that no rule states, but for the poisoned words.
DESIGN CHOICE: log entry 44. -/
def loseRow (n bank row : Nat) (s : State) : State :=
  forEach (rowWords bank row) (fun w s =>
    if (s.core n).spPoison.contains w then s
    else
      let (v, s1) := s.drawWord
      s1.modCore n (fun c => c.writeWord w v)) s

/-- Firmware repairs a row of a core in TEST, IDLE or FAULTED; with no spare row of the bank left the core is retired. -/
def repairRow (n bank row : Nat) (s : State) : State :=
  let c := s.core n
  if !(c.seq = .test ∨ c.seq = .idle ∨ c.seq = .faulted) || !rowNeedsRepair c bank row then s
  else if 8 ≤ Tab.get c.spareRows 0 bank then retireCore n s
  else
    let lost := (rowWords bank row).any (c.badWords.contains ·)
    let s1 := if lost then loseRow n bank row s else s
    let s2 := s1.modCore n (fun c =>
      { c with reloadDue := c.reloadDue || lost,
               badWords := c.badWords.filter (fun w => !(rowWords bank row).contains w),
               rowMap := Tab.insert c.rowMap (bank * 512 + row) (Tab.get c.spareRows 0 bank),
               spareRows := Tab.insert c.spareRows bank (Tab.get c.spareRows 0 bank + 1),
               corrWords := c.corrWords.filter (fun e => !(rowWords bank row).contains e.1) })
    firmwareRecord 0x0080 (n * 32768 + bank * 512 + row) [] s2

/-! ### The planes of the mesh (R16) -/

/-- State of a plane. -/
def State.plane (s : State) (p : Nat) : PlaneState := Tab.get s.mesh.planes .up p

/-- The member of a list of planes that the hash of a destination chooses. -/
def hashedPlane (ps : List Nat) (dest : Nat) : Option Nat := ps[Config.planeHash dest % max 1 ps.length]?

/-- The plane of a transfer: a hash of its destination over the planes in service.  A plane that is being taken out stays in
the hash until its transfers in flight have arrived (R16, R388).
DESIGN CHOICE: log entry 45. -/
def planeOf (s : State) (dest : Nat) : Option Nat := hashedPlane ((List.range 8).filter (fun p => s.plane p ≠ .out)) dest

/-- The plane that a new transfer takes now, none while the mesh holds it: it is held while its plane pauses or is being taken
out, but for Strata traffic of a safety partition, which moves to another plane for the pause (R16, R154, R388). -/
def planeNow (s : State) (dest : Nat) (safety : Bool) : Option Nat :=
  (planeOf s dest).bind (fun p =>
    match s.plane p with
    | .up => some p
    | .steering => if safety then hashedPlane ((List.range 8).filter (fun q => s.plane q = .up)) dest else none
    | .draining => none
    | .out => none)

/-- The mesh holds a transfer to or from a line of DRAM: its plane pauses or is being taken out (R16, R154, R388).
DESIGN CHOICE: log entry 88. -/
def dramHeld (s : State) (off : Nat) : Bool := (planeNow s (deviceAddr (lineBase off)) false).isNone

/-! ### DRAM -/

/-- Firmware records a map-out request for a channel that asks for one (R161). -/
def recordMapOuts (s : State) : State :=
  forEach ((List.range 12).filter (fun c => (s.dmc c).mapOut && (s.nvm.setting 0x0083 c).isNone))
    (fun c s => firmwareRecord 0x0083 c [] s) s

/-- Little-endian words of a byte string. -/
def wordsOf (bs : List Byte) : List W32 :=
  (List.range (bs.length / 4)).map (fun i => BitVec.ofNat 32 (field bs (4 * i) 4))

/-- A request at a line's home slice, and what a read returns to the requester (R151); the mesh may hold it (R154). -/
def sliceAccess (ctx part off : Nat) (op : LineOp) (tag data : Upset) (oneCopy : Bool) (copy : Nat) (dram : DramUpset)
    (s : State) : State :=
  if dramHeld s off then s
  else
    let (r, s1) := lineAccess off ctx part op tag data oneCopy copy dram s
    recordMapOuts (if op = .read && !r.1.isEmpty then s1.emit (.data 0xC2 (wordsOf r.1) r.2) else s1)

/-- A BAR4 access of the host (R413): the window is 256 GiB; a stopped domain reads 0 and discards (R371); the mesh may hold the transfer
(R154).
DESIGN CHOICE: log entry 29. -/
def hostDram (off : Nat) (op : LineOp) (tag data : Upset) (dram : DramUpset) (s0 : State) : State :=
  let s := receiveTlp s0
  if s.pwr.retention ∨ 2 ^ 38 ≤ off then
    if op = .read then s.emit (.hostData (List.replicate 64 0)) else s
  else if dramHeld s off then s
  else
    let (r, s1) := lineAccess off 0xFFFF 0xFF op tag data false 0 dram s
    recordMapOuts (if op = .read then s1.emit (.hostData (if r.1.isEmpty then List.replicate 64 0 else r.1)) else s1)

/-- Count a request of a partition in the present window of a channel (R326).
DESIGN CHOICE: log entry 45. -/
def countShare (part c : Nat) (s : State) : State :=
  s.modPart part (fun p => { p with dramUsed := Tab.insert p.dramUsed c (Tab.get p.dramUsed 0 c + 1) })

/-- Bytes of a line after a write. -/
def writtenLine (old : List Byte) : LineOp → List Byte
  | .read => old
  | .writeLine d => d.take 64
  | .writePart off d => (patch old off d).take 64

/-- What a channel serves its home slice has: a dirty copy of the line is written back first (R149). -/
def writeBack (off : Nat) (s : State) : State :=
  let k := (s.home off).1
  match (s.slice k).wayOf (off / 64) with
  | none => s
  | some w =>
    let key := setOf (off / 64) * 16 + w
    match Tab.find (s.slice k).lines key with
    | none => s
    | some x =>
      if x.dirty then
        dramLine off x.data x.poison (s.modSlice k (fun y =>
          { y with writebacks := sat32 (y.writebacks + 1), lines := Tab.insert y.lines key { x with dirty := false } }))
      else s

/-- The copy of a line that its home slice keeps follows what the slice has its channel write (R149, R151). -/
def syncHome (off : Nat) (s : State) : State :=
  let k := (s.home off).1
  match (s.slice k).wayOf (off / 64) with
  | none => s
  | some w =>
    let key := setOf (off / 64) * 16 + w
    let x : CacheLine :=
      { line := off / 64, dirty := false, poison := s.dramPoison.contains (off / 64), data := s.readDram (lineBase off) 64 }
    s.modSlice k (fun y => { y with lines := Tab.insert y.lines key x })

/-- A DMC serves a read or a write of a home slice (R149, R158): a full-line write ends the poisoning of its line, and a
single-bit link error of the write data is corrected and counted.  A stopped channel returns a NACK (R29). -/
def dmcServe (off : Nat) (op : LineOp) (u : DramUpset) (ctx part : Nat) (s0 : State) : State :=
  if s0.pwr.retention then s0.emit (.nack 0xC3)
  else if s0.dramSize ≤ off then s0
  else
    let c := s0.chanOf off
    let s := writeBack off (countShare part c s0)
    match op with
    | .read =>
      let (pz, s1) := dmcRead off u ctx part s
      recordMapOuts (s1.emit
        (.data 0xC3 (wordsOf (if pz then poisonLine else s1.tablesOver (lineBase off) (s1.readDram (lineBase off) 64))) pz))
    | .writeLine d => syncHome off (dmcWriteLink off u (dramLine off d false s))
    | .writePart k d =>
      let (pz, s1) := dmcRead off u ctx part s
      recordMapOuts (syncHome off
        (dmcWriteLink off (writeHalf u) (dramLine off (writtenLine (s1.readDram (lineBase off) 64) (.writePart k d)) pz s1)))

/-- A row of a channel as the patrol scrubber names it. -/
def rowKey (s : State) (off : Nat) : Nat :=
  let d := dramLoc (max 1 s.activeChans.length) off (rankRows (s.dmc (s.chanOf off)).density)
  ((d.sub * 16 + d.bank) * 2 + d.rank) * 2 ^ 20 + d.row

/-- The patrol scrubber reads a line; a row with corrected errors on two passes is queued for repair (R160, R161).  DMC_PPR_PENDING
saturates.
DESIGN CHOICE: log entry 128. -/
def patrol (off : Nat) (u : DramUpset) (second : Bool) (s : State) : State :=
  if s.pwr.retention || s.dramSize ≤ off then s
  else
    let c := s.chanOf off
    let key := rowKey s off
    let hit := ((takeInj (.dmc c) Bit.dmcEccCorr s).1 || u == .eccCorr)
    let (_, s1) := dmcRead off u 0xFFFF 0xFF s
    let s2 := if !hit then s1
      else
        s1.modDmc c (fun d =>
          if d.corrRows.contains key then
            if second then { d with corrRows := dropAll d.corrRows key, ppr := min 255 (d.ppr + 1) } else d
          else { d with corrRows := d.corrRows ++ [key] })
    recordMapOuts s2

/-- A window of DRAM-share accounting of a channel ends (R326). -/
def shareWindow (c : Nat) (s : State) : State :=
  { s with parts := s.parts.map (fun e => (e.1, { e.2 with dramUsed := Tab.erase e.2.dramUsed c })) }

/-! ### The mesh -/

/-- Change the state of a plane. -/
def setPlane (p : Nat) (x : PlaneState) (s : State) : State :=
  s.modMesh (fun m => { m with planes := Tab.insert m.planes p x })

/-- Key of a link direction of a plane. -/
def laneKey (p link : Nat) : Nat := p * 4096 + link % 4096

/-- Firmware steers a failing lane onto a spare; the plane pauses (R154). -/
def steerLane (p link : Nat) (s : State) : State :=
  let used := Tab.get s.mesh.spares 0 (laneKey p link)
  if s.plane p = .up ∧ used < 4 then
    setPlane p .steering (s.modMesh (fun m =>
      { m with spares := Tab.insert m.spares (laneKey p link) (used + 1), lanesSpared := min 65535 (m.lanesSpared + 1) }))
  else s

/-- The steering ends (R154). -/
def steerDone (p : Nat) (s : State) : State := if s.plane p = .steering then setPlane p .up s else s

/-- Planes that are out of service or being taken out.
DEDUCED: log entry 43. -/
def State.planesOut (s : State) : Nat :=
  ((List.range 8).filter (fun p => s.plane p = .draining ∨ s.plane p = .out)).length

/-- Some link direction of a plane has used its 4 spare lanes. -/
def State.lanesSpent (s : State) (p : Nat) : Bool := s.mesh.spares.any (fun e => e.1 / 4096 == p && 4 ≤ e.2)

/-- A plane is taken out: a permanent mesh fault, and a fatal error where two are out already (R154, R322, R388, R389).
DEDUCED: log entry 43. -/
def planeOut (p : Nat) (why : PlaneLoss) (s : State) : State :=
  if s.plane p = .draining ∨ s.plane p = .out ∨ (why = .fifthLane ∧ s.lanesSpent p = false) then s
  else
    let s1 := report { unit := 0xC4, cause := Config.freeNat s.free % 256, cls := 2, bit := Bit.dbgPlane, permanent := true }
      { s with free := s.free + 1 }
    if 2 ≤ s1.planesOut then fatalError Fatal.meshPlanes s1
    else setPlane p .draining (raise .dbg Bit.dbgPlane s1)

/-- The transfers in flight on the plane have arrived: destinations hash over the remaining planes (R388). -/
def planeRehash (p : Nat) (s : State) : State := if s.plane p = .draining then setPlane p .out s else s

/-- Tokens of every partition refill to its share (R325).
DESIGN CHOICE: log entry 45. -/
def refillTokens (s : State) : State :=
  { s with parts := s.parts.map (fun e =>
      (e.1, { e.2 with tokens := (List.range 8).map (fun p => (p, e.2.meshShare)) })) }

end Sys2Proof.Machine
end

