-- ==== Sys2Proof/Machine/Arrays.lean ====
section
/-! DEFINITION. The arrays of a core and their foot units (R30 to R51, R76 to R80, R94, R95, R104 to R106, R118): loading a
weight set with its checksum column, the row former, streaming one row through an array, the comparator's verdict and the
accumulator. -/

namespace Sys2Proof.Machine

open Sys2Proof Sys2Proof.Machine.Bits

/-- What the commands of the arrays answer. -/
abbrev ArrayResult := Host.Outcome State Fault Refusal

/-! ### Declarations of a unit -/

/-- The declaration of a unit. -/
def unitDeclOf (s : State) (u : UnitInst) : Option UnitDecl := (stageDeclOf s u).bind (fun d => d.units[u.unit]?)

/-- The layer that a unit runs. -/
def layerOf (s : State) (u : UnitInst) : Option LayerDecl := (stageDeclOf s u).bind (fun d => d.layers[u.unit]?)

/-- The stages of the image of a unit's stream. -/
def stagesOf (s : State) (u : UnitInst) : List StageDecl :=
  (((s.stream? u.stream).bind (fun st => Tab.find s.images st.image)).map (fun im => im.decl.stages)).getD []

/-- The declaration of the unit that core `n` runs, else an empty one. -/
def runDecl (s : State) (n : Nat) : UnitDecl := ((s.core n).run.bind (unitDeclOf s)).getD { wcet := 0 }

/-- The layer that core `n` runs, when its unit has one. -/
def runLayer (s : State) (n : Nat) : Option LayerDecl := (s.core n).run.bind (layerOf s)

/-- Position of core `n` among the cores of a unit's stage slot, by sub-group and position (R81, R91). -/
def corePos (s : State) (n : Nat) (u : UnitInst) : Nat :=
  (((s.stream? u.stream).bind (fun st => st.place.slots.find? (fun p => p.slot.val == u.slot))).map
    (fun p => (p.cores.map (·.val)).idxOf n)).getD 0

/-! ### Formats (R37) -/

/-- A floating-point format: FP8 in four combinations, and BF16. -/
def fmtFloat (f : Nat) : Bool := 4 ≤ f && f ≤ 8
/-- INT4 and UINT4 cover 64 rows of K. -/
def fmtFour (f : Nat) : Bool := f == 2 || f == 3
/-- Formats whose elements take two bytes: BF16, INT16 and complex INT8. -/
def fmtWide (f : Nat) : Bool := 8 ≤ f && f ≤ 10
/-- The format of the activations of an FP8 or BF16 code. -/
def actFmt (f : Nat) : Fmt := if f = 8 then .bf16 else if f = 4 ∨ f = 5 then .e4m3 else .e5m2
/-- The format of the weights of an FP8 or BF16 code. -/
def weightFmt (f : Nat) : Fmt := if f = 8 then .bf16 else if f = 4 ∨ f = 6 then .e4m3 else .e5m2

/-! ### Operands (R50) -/

/-- The top 4 bits of the significand of a BF16 code, with its exponent, as a BF16 code.
DESIGN CHOICE: log entry 52. -/
def bf16High (c : Nat) : Nat :=
  match Fp.bf16.decode c with
  | .fin n m e => Fp.bf16.encode .toInf (.fin n (m / 16 * 16) e)
  | v => Fp.bf16.encode .toInf v

/-- The bottom 4 bits of the significand, 4 places lower.  An infinity leaves nothing here; a NaN stays one.
DESIGN CHOICE: log entry 52. -/
def bf16Low (c : Nat) : Nat :=
  match Fp.bf16.decode c with
  | .fin n m e => Fp.bf16.encode .toInf (.fin n (m % 16) e)
  | .inf n => Fp.bf16.encode .toInf (.fin n 0 0)
  | .nan => Fp.bf16.nanCode

/-- Low and high byte of a two-byte element. -/
def lowByte (c : Nat) : Nat := c % 256
/-- High byte of a two-byte element. -/
def highByte (c : Nat) : Nat := c / 256 % 256

/-- The operand that a cell holds for the stored weight `c`, in set A or B, where `third` says that set A is loaded
for pass 3 of complex INT8 (R50).  A complex weight c + di holds c in its low byte (R103).
DESIGN CHOICE: log entry 51. -/
def weightOperand (f : Nat) (setB third : Bool) (c : Nat) : Int :=
  if f ≤ 1 then Fp.intOfCode .int8 c
  else if fmtFour f then Fp.intOfCode .int4 c
  else if f ≤ 7 then (c % 256 : Nat)
  else if f = 8 then (if setB then bf16Low c else bf16High c : Nat)
  else if f = 9 then (if setB then (lowByte c : Int) else Fp.intOfCode .int8 (highByte c))
  else
    let re := Fp.intOfCode .int8 (lowByte c)
    let im := Fp.intOfCode .int8 (highByte c)
    if setB then im - re else if third then re + im else re

/-- In a transposed product the cells hold activations and the rows are weights (R95): the FP8 combinations change places. -/
def cellFmt (transposed : Bool) (f : Nat) : Nat := if transposed then (if f = 5 then 6 else if f = 6 then 5 else f) else f

/-- The operand of a cell for a stored element: a weight, or an activation of a transposed product, whose multi-pass recipe
splits it in the same way (R50, R95). -/
def cellOperand (transposed : Bool) (f : Nat) (setB third : Bool) (c : Nat) : Int :=
  if transposed && f == 1 then Fp.intOfCode .uint8 c
  else if transposed && f == 3 then Fp.intOfCode .uint4 c
  else weightOperand f setB third c

/-- The activation operand of pass `p`, from 0, for the stored activation `c` (R37, R50). -/
def actOperand (f p c : Nat) : Int :=
  if f = 0 then Fp.intOfCode .int8 c
  else if f = 1 then Fp.intOfCode .uint8 c
  else if f = 2 then Fp.intOfCode .int4 c
  else if f = 3 then Fp.intOfCode .uint4 c
  else if f ≤ 7 then (c % 256 : Nat)
  else if f = 8 then (c % 65536 : Nat)
  else if f = 9 then (if p % 2 = 0 then Fp.intOfCode .int8 (highByte c) else (lowByte c : Int))
  else
    let re := Fp.intOfCode .int8 (lowByte c)
    let im := Fp.intOfCode .int8 (highByte c)
    if p = 0 then re + im else if p = 1 then re else im

/-- The operand that enters a row in pass `p`: an activation, or a weight of a transposed product (R95). -/
def rowOperand (transposed : Bool) (f p c : Nat) : Int :=
  if transposed && f == 1 then Fp.intOfCode .int8 c
  else if transposed && f == 3 then Fp.intOfCode .int4 c
  else actOperand f p c

/-! ### Checksum column (R40) -/

/-- FP32 word of a weight operand of a floating-point format. -/
def weight32 (f : Nat) (w : Int) : W32 := Fp.enc32 ((Fp.fmtSpec (weightFmt f)).decode w.toNat)

/-- c[i] of a weight row: exact in the integer formats, in FP32 by ascending column in the others. -/
def checkSum (f : Nat) (row : List Int) : Int :=
  if fmtFloat f then
    match row.map (weight32 f) with
    | [] => 0
    | x :: xs => ((xs.foldl Fp.add32 x).toNat : Int)
  else row.sum

/-- Accumulator entries that a row takes: two in INT16, four in complex INT8 (R50). -/
def entriesOf (f : Nat) : Nat := if f = 9 then 2 else if f = 10 then 4 else 1

/-- A weight set from its rows of operands. -/
def weightSet (f : Nat) (rows : List (List Int)) : WeightSet := { rows := rows, sums := rows.map (checkSum f) }

/-! ### Weight loads (R35, R40, R95, R99) -/

/-- Words of a stored weight row: 32 bytes, or 64 where an element takes two. -/
def rowWordsOf (f : Nat) : Nat := if fmtWide f then 16 else 8

/-- The 32 stored elements of the weight row at word `a`, little-endian (R103).
DESIGN CHOICE: log entry 51. -/
def storedRow (c : CoreSt) (f a : Nat) : List Nat :=
  (List.range 32).map (fun j =>
    if fmtWide f then (Tab.get c.sp 0 (a + j / 2)).toNat / 2 ^ (16 * (j % 2)) % 65536
    else (Tab.get c.sp 0 (a + j / 4)).toNat / 2 ^ (8 * (j % 4)) % 256)

/-- The rows of operands of a weight set stored from word `base`: in INT4 each byte holds W[2i][j] low and
W[2i + 1][j] high, which makes two rows of K (R37, R103).
DESIGN CHOICE: log entry 51. -/
def loadRows (c : CoreSt) (f base : Nat) (setB third : Bool) : List (List Int) :=
  let row (i : Nat) : List Nat := storedRow c f (base + i * rowWordsOf f)
  if fmtFour f then
    (List.range 64).map (fun k =>
      (row (k / 2)).map (fun b => weightOperand f setB third (if k % 2 = 0 then b % 16 else b / 16)))
  else (List.range 32).map (fun k => (row k).map (weightOperand f setB third))

/-- A unit runs on core `n` and its clocks do. -/
def State.unitRuns (s : State) (n : Nat) : Bool :=
  (s.core n).run.isSome && !s.pwr.stopped &&
    ((s.core n).seq == .run || (s.core n).seq == .wait || (s.core n).seq == .drain)

/-- Arrays that a load fills: in SHARE_W all four by broadcast (R35, R38). -/
def loadTargets (c : CoreSt) (a : Nat) : List Nat := if c.gang = 1 then [0, 1, 2, 3] else [a]

/-- Set A of complex INT8 is reloaded for pass 3 once a row of pass 1 or 2 has entered every array that the load fills, until
their rows of pass 3 enter (R39, R50, R51). -/
def loadsThird (c : CoreSt) (a f : Nat) (setB : Bool) : Bool :=
  f == 10 && !setB && (loadTargets c a).all (fun b => (Tab.find c.apass b).any (· < 2))

/-- Columns of a transposed block: the activation rows of the unit and of the units that joined its block, at most 32 (R95,
R96). -/
def blockColumns (c : CoreSt) (m : Nat) : Nat := min 32 (m * (1 + (c.ready.filter (·.joined)).length))

/-- The stationary block of K-block `b` of a transposed product: activation row j, a row of `k` elements, fills column j, and
unfilled columns and rows of K hold 0 (R95, R96). -/
def transposedRows (c : CoreSt) (f k base b m : Nat) (setB third : Bool) : List (List Int) :=
  (List.range (blockK f)).map (fun i =>
    let e := b * blockK f + i
    (List.range 32).map (fun j =>
      if m ≤ j ∨ k ≤ e then 0
      else cellOperand true f setB third
        (Operand.read (codeBits f) 0 c.sp (elementAt f 1 (base + j * ceilDiv (k * codeBits f) 32, e) 0))))

/-- The rows of operands of one load of core `n`, and the words that it reads: a DFT matrix, a K-block of the activations of a
transposed product, or stored weights (R35, R95, R99). -/
def loadBlock (c : CoreSt) (d : UnitDecl) (l : Option LayerDecl) (f base b : Nat) (setB third : Bool) :
    List (List Int) × List (Nat × Nat) :=
  match d.dftFactor, l.filter (·.transposed) with
  | some q, _ => ((Fp.dftBlock q).map (fun r => r.map (weightOperand f setB third)), [])
  | none, some x =>
    let m := blockColumns c x.rowsM
    let w := blockK f * codeBits f / 32
    (transposedRows c (cellFmt true f) x.cin base b m setB third,
      (List.range m).map (fun j => (base + j * ceilDiv (x.cin * codeBits f) 32 + b * w, w)))
  | none, none => (loadRows c f base setB third, [(base, 32 * rowWordsOf f)])

/-- Words of the scale entries of the activation rows that a transposed block holds, one for each column (R118, R120). -/
def blockEntries (c : CoreSt) (d : UnitDecl) (l : Option LayerDecl) (f base : Nat) : List Nat :=
  match l.filter (·.transposed) with
  | none => []
  | some x =>
    if d.scope = .static then []
    else (List.range (blockColumns c x.rowsM)).map (fun j => base + entryOffset d.inRows d.rowLen (codeBits f) + 2 * j)

/-- One weight set as the load path forms it, with its checksum column, and the words that the load reads, scale entries among them
(R35, R40, R118).  The set names what it was loaded from, for the reload of R45. -/
def formSet (c : CoreSt) (d : UnitDecl) (l : Option LayerDecl) (f base b : Nat) (setB third : Bool) (slot unit : Nat) :
    WeightSet × List (Nat × Nat) :=
  let (rows, reads) := loadBlock c d l f base b setB third
  let es := blockEntries c d l f base
  ({ weightSet (cellFmt (l.any (fun x => x.transposed)) f) rows with
      base := base, third := third, slot := slot, unit := unit, block := b, scales := es.map (entryWord c.sp) },
    reads ++ es.map (fun a => (a, 2)))

/-- The load path fills one set of one array, with its checksum column.  A read outside the regions of the unit is a
malformed program (R130), and so is a transposed product of 32 rows or more (R95); what the reads find follows R139 and
R140. -/
def loadWeights (n : CoreNum) (a : Nat) (setB : Bool) (src : WeightRead) (s : State) : State :=
  if !s.unitRuns n.val then s
  else
    let c := (s.core n.val).drain
    let f := Tab.get c.fmt 0 a
    let l := runLayer s n.val
    let third := loadsThird c a f setB
    let (w, reads) := formSet c (runDecl s n.val) l f src.base src.block setB third
      ((c.run.map (·.slot)).getD 0xFFFF) ((c.run.map (·.unit)).getD 0)
    if reads.any (fun r => 0x7C000 < r.1 + r.2) || l.any (fun x => x.transposed && 32 ≤ x.rowsM) then seqIllegal n s
    else
      let (stopped, s1) := readRanges n reads src.upset src.upsetAt s
      if stopped then s1
      else
        s1.modCore n.val (fun c =>
          { c with wsets := (loadTargets c a).foldl (fun t b => Tab.insert t (2 * b + (if setB then 1 else 0)) w) c.wsets })

/-- A WEIGHT_SET_LOAD (R35). -/
def execWeightSetLoad (core : CoreNum) (array : Fin 4) (setB : Bool) (src : WeightRead) (s : State) : ArrayResult :=
  .next (loadWeights core array.val setB src s)

/-! ### One row through an array (R32, R36, R106) -/

/-- One cell of a floating-point column: the exact product and the partial sum, rounded once (R106). -/
def fpCell (x w : Fp.FVal) (part : W32) : W32 := Fp.enc32 (Fp.addV (Fp.mulV x w) (Fp.dec32 part))

/-- Column `j` of an output row, as an integer or an FP32 bit pattern. -/
def columnSum (f : Nat) (xs : List Int) (rows : List (List Int)) (j : Nat) : Int :=
  if fmtFloat f then
    ((xs.zip rows).foldl (fun part p =>
      fpCell ((Fp.fmtSpec (actFmt f)).decode p.1.toNat) ((Fp.fmtSpec (weightFmt f)).decode ((p.2[j]?).getD 0).toNat) part)
      (0 : W32)).toNat
  else ((xs.zip rows).map (fun p => p.1 * (p.2[j]?).getD 0)).sum

/-- The checksum column: each product rounded to FP32 and the column summed in FP32 (R40). -/
def checksumColumn (f : Nat) (xs sums : List Int) : Int :=
  if fmtFloat f then
    ((xs.zip sums).foldl (fun part p =>
      Fp.add32 part (Fp.mul32 (Fp.enc32 ((Fp.fmtSpec (actFmt f)).decode p.1.toNat)) (BitVec.ofInt 32 p.2))) (0 : W32)).toNat
  else ((xs.zip sums).map (fun p => p.1 * p.2)).sum

/-- The 33 values that leave the foot of an array for one row of operands. -/
def outputRow (f : Nat) (w : WeightSet) (xs : List Int) : List Int :=
  (List.range 32).map (columnSum f xs w.rows) ++ [checksumColumn f xs w.sums]

/-- Add a fault's disturbance to a column: an FP32 pattern wraps at 32 bits. -/
def disturb (f : Nat) (y : List Int) (fault : Option (Nat × Int)) : List Int :=
  match fault with
  | none => y
  | some (j, d) => y.modify j (fun v => if fmtFloat f then (v + d) % 2 ^ 32 else v + d)

/-- Invert bit `b` of a 32-bit column value (R47). -/
def flipBit (f b : Nat) (v : Int) : Int :=
  let x : W32 := BitVec.ofInt 32 v ^^^ BitVec.ofNat 32 (2 ^ b)
  if fmtFloat f then (x.toNat : Int) else x.toInt

/-! ### The comparator (R41) -/

/-- A value with no infinity and no NaN. -/
def isFin : Fp.FVal → Bool
  | .fin .. => true
  | _ => false

/-- The floating-point rule: special values first, then the tolerance, compared exactly. -/
def fpMismatch (relShift absExp : Nat) (y : List W32) (check : W32) : Bool :=
  let sum := Fp.dec32 (Fp.pairTree 5 y)
  let c := Fp.dec32 check
  if isFin sum && isFin c then
    let bound := Fp.addV
      (Fp.mulV (.fin false 1 (-(relShift : Int)))
        ((y.map (fun v => Fp.absV (Fp.dec32 v))).foldl Fp.addV (Fp.absV c)))
      (.fin false 1 ((absExp : Int) - 127))
    Fp.ltV bound (Fp.absV (Fp.addV c (Fp.negV sum)))
  else sum != c

/-- The comparator reports a mismatch on the 33 values of a row. -/
def mismatch (f relShift absExp : Nat) (y : List Int) : Bool :=
  let check := (y[32]?).getD 0
  if fmtFloat f then fpMismatch relShift absExp ((y.take 32).map (BitVec.ofInt 32 ·)) (BitVec.ofInt 32 check)
  else check != (y.take 32).sum

/-! ### The accumulator (R46, R50, R105) -/

/-- Width of an accumulator entry in bits (R105). -/
def accBits (f : Nat) : Nat := if f = 9 ∨ f = 10 then 64 else 32

/-- Saturate an integer entry (R105). -/
def satAcc (f : Nat) (v : Int) : Int :=
  let h : Int := 2 ^ (accBits f - 1)
  max (-h) (min (h - 1) v)

/-- The foot adder: FP32 in a floating-point format, exact and saturating in an integer format.
DESIGN CHOICE: log entry 53. -/
def footAdd (f : Nat) (a b : Int) : Int :=
  if fmtFloat f then (Fp.add32 (BitVec.ofInt 32 a) (BitVec.ofInt 32 b)).toNat else satAcc f (a + b)

/-- Key of an accumulator cell.
DESIGN CHOICE: log entry 53. -/
def accKey (array entry col : Nat) : Nat := (array * 512 + entry) * 33 + col

/-- Add the values of a row into an entry, or start the entry with them.
DESIGN CHOICE: log entry 53. -/
def accumulate (f array entry : Nat) (first : Bool) (y : List Int) (t : Tab Int) : Tab Int :=
  (y.zipIdx).foldl (fun t v =>
    let k := accKey array entry v.2
    Tab.insert t k (if first then (if fmtFloat f then v.1 else satAcc f v.1) else footAdd f (Tab.get t 0 k) v.1)) t

/-- One row at the foot of an array: where it belongs and what its steps so far say (R50, R76). -/
structure FootRow where
  entry : Nat
  pass : Nat
  /-- it starts its entry -/
  first : Bool
  /-- step of the entry, and row within the unit of work -/
  step : Nat
  row : Nat
  deriving DecidableEq, Repr

/-- The foot action of a pass (R50): the entries of INT16 are scaled sums, complex INT8 holds k1 and writes the
real part at its entry and the imaginary part two entries later. -/
def footAction (f array : Nat) (row : FootRow) (y : List Int) (c : CoreSt) : CoreSt :=
  if f = 9 then
    let scale : Int := if row.pass = 0 then 2 ^ 16 else if row.pass = 3 then 1 else 2 ^ 8
    { c with acc := accumulate f array row.entry row.first (y.map (· * scale)) c.acc }
  else if f = 10 then
    let held := (List.range 33).map (fun j => Tab.get c.k1 0 (accKey array row.entry j))
    if row.pass = 0 then { c with k1 := accumulate f array row.entry true y c.k1 }
    else if row.pass = 1 then
      { c with acc := accumulate f array (row.entry + 2) row.first (held.zipWith (· + ·) y) c.acc }
    else { c with acc := accumulate f array row.entry row.first (held.zipWith (· - ·) y) c.acc }
  else { c with acc := accumulate f array row.entry row.first y c.acc }

/-- SUM_K: a row waits in its foot unit until all four arrays have theirs of the same step; array 0 then forms
(a0 + a1) + (a2 + a3) (R38, R39).
DESIGN CHOICE: log entry 54. -/
def footSumK (f array : Nat) (row : FootRow) (y : List Int) (c : CoreSt) : CoreSt :=
  let key := row.step * 512 + row.entry
  let t := Tab.insert c.sumk (key * 4 + array) y
  match Tab.find t (key * 4), Tab.find t (key * 4 + 1), Tab.find t (key * 4 + 2), Tab.find t (key * 4 + 3) with
  | some a0, some a1, some a2, some a3 =>
    let sum := (a0.zipWith (footAdd f) a1).zipWith (footAdd f) (a2.zipWith (footAdd f) a3)
    footAction f 0 row sum { c with sumk := t.filter (fun e => e.1 / 4 != key) }
  | _, _, _, _ => { c with sumk := t }

/-- The foot unit of an array takes a row. -/
def footTake (f array : Nat) (row : FootRow) (y : List Int) (c : CoreSt) : CoreSt :=
  if c.gang = 3 then footSumK f array row y c else footAction f array row y c

/-! ### ABFT events (R43 to R46) -/

/-- The mode of a unit's stage. -/
def unitMode (s : State) (u : UnitInst) : StageMode :=
  (((s.stream? u.stream).bind (fun st => s.stageOf st u.stage)).map (fun (d : StageDecl) => d.mode)).getD .frame

/-- An ABFT mismatch or an accumulator check: the unit is flagged, the ERR_STAT bit sets, and the first in a unit of
work is an event that is counted and sent to SAFE at once.  In frame mode its fault record follows when the outcome of a
possible re-execution is known, which decides whether the event was corrected (R43 to R45, R298; log entry 31). -/
def abftEvent (n cause bit : Nat) (s : State) : State :=
  match (s.core n).run with
  | none => s
  | some u =>
    let s1 := flagUnit n cause (raiseAt (.core n) bit 0 (some (u.ctx, u.part)) s)
    if u.abft then s1
    else
      let s2 := s1.modCore n (fun c =>
        { c with abftEvents := sat32 (c.abftEvents + 1), run := c.run.map (fun u => { u with abft := true }) })
      if unitMode s u == .frame then
        report { unitEv n u cause bit with counted := true, phase := 1 }
          (s2.modCore n (fun c => { c with run := c.run.map (fun u => { u with owed := cause, owedAt := s.tal.time }) }))
      else report { unitEv n u cause bit with counted := true } s2

/-- CORE_ABFT_LAST (R72). -/
def abftLastWord (f array : Nat) (row : FootRow) : W32 :=
  BitVec.ofNat 32 ((if fmtFloat f then 2 ^ 16 else 0) + min row.row 4095 * 16 + row.pass % 4 * 4 + array % 4)

/-- The injected inversion of the next row of the selected array (R47, R73, R75).  CORE_INJ_SEL counts as it stands when the
row leaves the foot; a column above 32 then names no value, and the injection ends with nothing inverted.
DESIGN CHOICE: log entry 101. -/
def injectRow (n f array : Nat) (y : List Int) (s : State) : List Int × State :=
  let sel := (s.core n).injSel.toNat
  if sel % 4 = array then
    let (hit, s1) := takeInj (.core n) Bit.coreAbft s
    if hit then (y.modify (bitField sel 8 6) (flipBit f (bitField sel 16 5)), s1) else (y, s1)
  else (y, s)

/-- The accumulator check of a read of array `array`: parity of the entry read and agreement of the two adders, or an injected
error of the next read (R46, R75); CORE_INJ_SEL counts as it stands at the read.
DEDUCED: log entry 31.
DESIGN CHOICE: log entry 101. -/
def accCheck (n array : Nat) (ok : Bool) (s : State) : State :=
  let sel := (s.core n).injSel.toNat
  let (hit, s1) := if sel % 4 = array then takeInj (.core n) Bit.coreAcc s else (false, s)
  if hit || !ok then abftEvent n Cause.accCheck Bit.coreAcc s1 else s1

/-- A row of SUM_K is the last of its four: the combination follows (R39). -/
def sumKLast (c : CoreSt) (array : Nat) (row : FootRow) : Bool :=
  [0, 1, 2, 3].all (fun b => b == array || (Tab.find c.sumk ((row.step * 512 + row.entry) * 4 + b)).isSome)

/-- A row is added to what its entry holds, so that the entry is read: not the first step of an entry, nor pass 1 of complex INT8,
whose k1 starts anew (R50). -/
def addsToEntry (f : Nat) (row : FootRow) : Bool := !row.first && !(f == 10 && row.pass == 0)

/-- The checks of the foot unit on a row (R46): of the entry that it is added to, and of the SUM_K combination, which array 0
makes once the four rows are there (R39). -/
def footCheck (n f a : Nat) (c : CoreSt) (row : FootRow) (ok : Bool) (s : State) : State :=
  if c.gang = 3 then
    if !sumKLast c a row then s
    else if addsToEntry f row then accCheck n 0 ok s
    else if ok then s else abftEvent n Cause.accCheck Bit.coreAcc s
  else if addsToEntry f row then accCheck n a ok s
  else s

/-! ### The row former (R50, R76 to R80, R94, R95, R118) -/

/-- Width of the image at the input of a stage: in Strata mode that of the stream's own line, over the strides of the stages before
it, so that positions beyond its last pixel are padding (R79). -/
def imageWidth (s : State) (u : UnitInst) (d : StageDecl) : Nat :=
  match s.stream? u.stream with
  | none => d.inW
  | some st =>
    if d.mode = .strata ∧ st.decl.kind = 0 ∧ 0 < st.decl.width then
      ceilDiv st.decl.width (strideX (((stagesOf s u).take u.stage).flatMap (·.layers)))
    else d.inW

/-- The geometry of the layer that the unit of core `n` runs.  The tile of a stage with a channel block holds the channels of that
block (R90).
DESIGN CHOICE: log entry 121. -/
def rowForm (s : State) (n : Nat) (u : UnitInst) (d : UnitDecl) : RowForm :=
  let stages := stagesOf s u
  let st := (stageDeclOf s u).getD { mode := .frame }
  let earlier := st.layers.take u.unit
  let here := st.layers.drop u.unit
  let px := strideX earlier
  let py := strideY earlier
  let layer := (st.layers[u.unit]?).getD {}
  let flat := st.layers[u.unit]?.isNone || layer.transposed
  let width := ceilDiv (imageWidth s u st) px
  if st.mode = .strata then
    let pos := corePos s n u
    let left : Int := ((u.tile * segWidthOf stages u.stage + pos % max 1 st.g * st.slice) / px : Nat)
    { layer := layer, flat := flat, strata := true, fmt := d.fmt, width := width, height := 1,
      left := left - haloOf 1 here, top := 0, cols := lineCols st u.unit, chans := layer.cin,
      ring := (((s.core n).rings.head?).map (·.1)).getD 0 +
        ringStart st (ceilDiv (segmentsOf stages u.stage) (max 1 st.i)) (u.tile / max 1 st.i) u.unit,
      ringLine := lineWords st u.unit d.fmt, lines := (s.core n).ringLines }
  else
    { layer := layer, flat := flat, strata := false, fmt := d.fmt, width := width, height := ceilDiv st.inH py,
      left := (u.pos.1 * st.tw / px : Nat) - (haloOf 1 here : Int), top := (u.pos.2 * st.th / py : Nat) - (haloRows 1 here : Int),
      cols := ceilDiv st.tw px + 2 * haloOf 1 here,
      chans := if u.unit = 0 then (st.channels.map (·.2)).getD layer.cin else layer.cin, ring := 0, ringLine := 0, lines := 0 }

/-- Taps, K-blocks and passes that one output row takes: a stacked row and the second product of a fused pair have one tap and
one block, a grouped layer takes the one block of its own channels, and in SUM_K four arrays share the blocks (R38, R50, R56,
R76, R77, R94). -/
def stepCount (gang f : Nat) (l : LayerDecl) (second : Bool) : Nat × Nat × Nat :=
  if second || l.stacked then (1, 1, passesOf f)
  else if l.group ≠ 0 then (l.kh * l.kw, 1, passesOf f)
  else (l.kh * l.kw, ceilDiv l.cin (blockK f * (if gang = 3 then 4 else 1)), passesOf f)

/-- The set that a row selects: in a multi-pass format the pass decides (R34, R50). -/
def rowSet (f pass : Nat) (setB : Bool) : Bool :=
  if f = 8 then pass == 1 else if f = 9 then 2 ≤ pass else if f = 10 then pass == 1 else setB

/-- What a row is in its array: its place at the foot, its set, its operands, and the steps of the entry after it. -/
structure FormedRow where
  foot : FootRow
  setB : Bool
  operands : List Operand
  next : Nat
  deriving DecidableEq, Repr

/-- The row former: tap, K-block and pass follow from the steps that the entry has taken, in ascending dy, dx, K-block and
pass (R50, R76).
DEDUCED: log entry 98. -/
def formRow (c : CoreSt) (g : RowForm) (a f : Nat) (row : ArrayRow) : FormedRow :=
  let (taps, blocks, passes) := stepCount c.gang f g.layer row.second
  let step := Tab.get c.steps 0 (a * 512 + row.entry)
  let pass := step % passes
  let k := step / passes
  let blk := k % max 1 blocks
  let g1 := { g with fmt := f }
  { foot :=
      { entry := row.entry, pass := pass, first := k == 0 && (pass == 0 || f == 10), step := step, row := row.row }
    setB := rowSet f pass row.setB
    operands :=
      if row.second then stagedOperands f g.layer.fuseK2 row.base row.x
      else
        g1.operands row.base row.pitch row.x row.y (k / max 1 blocks)
          (if g.layer.group ≠ 0 then 32 * (row.block + if c.gang = 3 then a else 0)
            else blockK f * (if c.gang = 3 then 4 * blk + a else blk))
    next := if step + 1 = taps * blocks * passes then 0 else step + 1 }

/-- Word of the scale entry of the input row that a row comes from, in a product whose input has PER_ROW scope; the entry goes to
the foot unit with the row (R113, R118). -/
def rowEntry (d : UnitDecl) (g : RowForm) (f : Nat) (row : ArrayRow) : Option Nat :=
  if d.scope = .static || row.second || g.layer.transposed then none
  else some (row.base + entryOffset d.inRows d.rowLen (codeBits f) + 2 * g.inputRow row.x row.y)

/-- In a ganged mode the four arrays run the same pass: a row of another pass than theirs may enter only once all of them have
streamed rows of theirs (R39).
DESIGN CHOICE: log entry 122. -/
def passTogether (c : CoreSt) (pass : Nat) : Bool :=
  c.gang == 0 || c.apass.isEmpty || pass == c.pass || [0, 1, 2, 3].all (fun b => Tab.find c.apass b == some c.pass)

/-- A row that no well-formed program streams: an entry beyond the buffer (R50), a pass ahead of the other arrays of a gang (R39),
taps stacked beyond the rows of K (R77), a staged row outside the working region (R94), or any row of a unit that the image
declares for the vector engine (R100). -/
def rowMalformed (c : CoreSt) (d : UnitDecl) (g : RowForm) (a f : Nat) (row : ArrayRow) : Bool :=
  512 < row.entry + entriesOf f || !d.onArray || !passTogether c (formRow c g a f row).foot.pass || (g.layer.stacked && !row.second && blockK f < g.layer.kh * g.layer.kw * g.layer.cin) ||
    (row.second && (!g.layer.fused || row.base < c.workBase))

/-! ### A row streams -/

/-- Zero point of the activations of the second product of a fused pair: that of the row between the products (R94, R119). -/
def secondZero (d : UnitDecl) (a : Nat) : Nat :=
  match d.mid with
  | none => arrayZero d a
  | some m => if arrayFmt d a = 1 ∨ arrayFmt d a = 3 then m.zero else 0

/-- The 33 sums that a row of core `c` leaves at the foot of array `a` (R32, R36, R50, R95). -/
def rowSums (c : CoreSt) (d : UnitDecl) (g : RowForm) (a : Nat) (row : ArrayRow) : List Int :=
  let f := Tab.get c.fmt 0 a
  let r := formRow c g a f row
  let t := g.layer.transposed && !row.second
  outputRow (cellFmt t f) (Tab.get c.wsets { rows := [], sums := [] } (2 * a + (if r.setB then 1 else 0)))
    (r.operands.map (fun o =>
      rowOperand t (cellFmt t f) r.foot.pass (o.read (codeBits f) (if t then 0 else if row.second then secondZero d a else arrayZero d a) c.sp)))

/-- What a row leaves in the core beside its sums: the registers that show it, the steps of its entry, its scale entry, and the
cycles that its array was busy (R50, R67, R70, R118). -/
def CoreSt.noteRow (k c : CoreSt) (d : UnitDecl) (g : RowForm) (a busy : Nat) (row : ArrayRow) : CoreSt :=
  let r := formRow c g a (Tab.get c.fmt 0 a) row
  { k with
    pass := r.foot.pass % 4, wsel := Tab.insert k.wsel a r.setB, apass := Tab.insert k.apass a r.foot.pass,
    steps := Tab.insert k.steps (a * 512 + row.entry) r.next,
    rowScale := match rowEntry d g (Tab.get c.fmt 0 a) row with
      | none => k.rowScale
      | some w =>
        let t := Tab.insert k.rowScale (a * 512 + row.entry) (entryWord c.sp w)
        if Tab.get c.fmt 0 a = 10 then Tab.insert t (a * 512 + (row.entry + 2)) (entryWord c.sp w) else t
    arrayBusy := Tab.insert k.arrayBusy a (sat32 (Tab.get k.arrayBusy 0 a + busy)) }

/-- One row streams through array `a`: its 33 sums, the comparator's verdict, and the accumulator entry.  Conditions detected
together are reported in ascending order of their bits (R49).
DESIGN CHOICE: log entry 55.
DESIGN CHOICE: log entry 91. -/
def arrayRow (n : Nat) (c : CoreSt) (d : UnitDecl) (g : RowForm) (row : ArrayRow) (fault : Option (Nat × Int)) (ok : Bool)
    (a : Nat) (s : State) : State :=
  let f := Tab.get c.fmt 0 a
  let r := formRow c g a f row
  let (y, s1) := injectRow n f a (disturb f (rowSums c d g a row) fault) s
  let busy := Config.freeNat s1.free % 65 + 1
  let s2 := ({ s1 with free := s1.free + 1 }).modCore n (fun k => footTake f a r.foot y (k.noteRow c d g a busy row))
  let s3 :=
    if mismatch f c.relShift c.absExp y then
      abftEvent n Cause.abft Bit.coreAbft (s2.modCore n (fun c => { c with abftLast := abftLastWord f a r.foot }))
    else s2
  footCheck n f a c r.foot ok s3

/-- The arrays that a row stream feeds: in SHARE_X all four by broadcast (R38). -/
def rowTargets (gang a : Nat) : List Nat := if gang = 2 then [0, 1, 2, 3] else [a]

/-- A verdict of the running unit of core `n` is in: a Strata unit owes a trailer after it (R87). -/
def owePiece (n : Nat) (s : State) : State :=
  s.modCore n (fun c => { c with run := c.run.map (fun u => { u with owesPiece := true }) })

/-- One row of array `a` of core `n`: the row former reads it from the scratchpad, and it streams through the arrays that it
feeds.  The fault and the accumulator check of the command are those of array `a`. -/
def streamRow (n : CoreNum) (a : Nat) (row : ArrayRow) (s : State) : State :=
  if !s.unitRuns n.val then s
  else
    match (s.core n.val).run with
    | none => s
    | some u =>
      let c := (s.core n.val).drain
      let d := (unitDeclOf s u).getD { wcet := 0 }
      let g := rowForm s n.val u d
      let ts := rowTargets c.gang a
      let f := Tab.get c.fmt 0 a
      let reads := (formRow c g a f row).operands.filterMap (fun o => o.word?.map (fun w => (w, 1))) ++
        (rowEntry d g f row).toList.map (fun w => (w, 2))
      if ts.any (fun b => rowMalformed c d g b (Tab.get c.fmt 0 b) row) || reads.any (fun r => 0x7C000 < r.1 + r.2) then
        seqIllegal n s
      else
        let (stopped, s1) := readRanges n reads row.upset row.upsetAt s
        if stopped then s1
        else
          owePiece n.val (forEach ts (fun b s =>
            arrayRow n.val c d g row (if b = a then row.fault else none) (b != a || row.accOk) b s) s1)

/-- An ARRAY_ROW_VERDICT (R43). -/
def execArrayRowVerdict (core : CoreNum) (array : Fin 4) (row : ArrayRow) (s : State) : ArrayResult :=
  .next (streamRow core array.val row s)

end Sys2Proof.Machine
end

