-- ==== Sys2Proof/Machine/Commands.lean ====
section
/-! DEFINITION. The meanings of the commands of a context (R202, R274) and of the device events that end them: images,
streams, jobs, epochs, QUERY and SERVICE. -/

namespace Sys2Proof.Machine

open Sys2Proof Sys2Proof.Machine.Bits

/-- What a command of this device answers: the next state. -/
abbrev Result := Host.Outcome State Fault Refusal

/-- LOAD_IMAGE (R272, R273). -/
def execLoadImage (cmd : Cmd) (len : Nat) (crc : W32) (file : ImageFile) (s : State) : Result :=
  .next (settle (gate (.loadImage cmd len crc file) cmd opLoadImage (fun o s => startLoad o cmd len crc file s) s))

/-- DECLARE_STREAM (R275). -/
def execDeclareStream (cmd : Cmd) (id image : Nat) (block : List Byte) (crc : W32) (lode : Option Placement)
    (s : State) : Result :=
  .next (settle (gate (.declareStream cmd id image block crc lode) cmd opDeclareStream
    (fun o s => startDeclare o cmd id image block crc lode s) s))

/-- ARM_STREAM (R274). -/
def execArmStream (cmd : Cmd) (id : Nat) (first : Option Nat) (camera : Bool) (ring : List Byte) (s : State) : Result :=
  .next (settle (gate (.armStream cmd id first camera ring) cmd opArmStream
    (fun o s => doArm o cmd id first camera ring s) s))

/-- REARM (R193). -/
def execRearm (cmd : Cmd) (id : Nat) (first : Option Nat) (rebase : List (List Byte)) (ring : List Byte)
    (s : State) : Result :=
  .next (settle (gate (.rearm cmd id first rebase ring) cmd opRearm (fun o s => doRearm o cmd id first rebase ring s) s))

/-- The drain of a REARM ends (R194). -/
def execRearmDrained (id : Nat) (s : State) : Result := .next (settle (rearmDone id s))

/-- DISPATCH (R281). -/
def execDispatch (cmd : Cmd) (id : Nat) (prio : Fin 8) (adapt : Bool) (input output : W64) (deadline : Nat)
    (roundSeed augSeed : W64) (first : Nat) (s : State) : Result :=
  .next (settle (gate (.dispatch cmd id prio adapt input output deadline roundSeed augSeed first) cmd opDispatch
    (fun o s => doDispatch o cmd id prio adapt input output deadline roundSeed augSeed first s) s))

/-- FENCE (R274). -/
def execFence (cmd : Cmd) (e : Nat) (s : State) : Result :=
  .next (settle (gate (.fence cmd e) cmd opFence (fun o s => doFence o cmd e s) s))

/-- HINT_PHASE (R284). -/
def execHintPhase (cmd : Cmd) (phase : Fin 16) (us : Nat) (s : State) : Result :=
  .next (settle (gate (.hintPhase cmd phase us) cmd opHintPhase (fun _ s => doHint cmd phase us s) s))

/-- The duration of a hint ends (R363). -/
def execPhaseHintExpiry (c : CtxNum) (s : State) : Result := .next (hintEnds c.val s)

/-- CANCEL (R197): it takes effect as soon as it is read, whatever stands before it in the ring (R196, R203). -/
def execCancel (cmd : Cmd) (e : Nat) (s : State) : Result :=
  .next (settle (if s.accepts cmd && (s.ctx cmd.ctx.val).fetched.contains (cmd.tag, opCancel) then
      let (o, s1) := (dropFetched cmd opCancel s).nextOrder
      doCancel o cmd e s1
    else s))

/-- A cancelled epoch is quiet (R198). -/
def execEpochQuiet (e : Nat) (s : State) : Result := .next (settle (epochQuietNow e s))

/-- A cancelled epoch is not quiet after 1 ms (R198). -/
def execCancelTimeout (e : Nat) (s : State) : Result := .next (cancelTimedOut e s)

/-- An epoch is no longer live (R196). -/
def execEpochNumberFreed (e : Nat) (s : State) : Result := .next (settle (freeEpoch e s))

/-- QUERY 0x01 (R277). -/
def execQueryPlacement (cmd : Cmd) (len : Nat) (s : State) : Result :=
  .next (settle (gate (.queryPlacement cmd len) cmd opQuery (fun _ s => doQueryPlacement cmd len s) s))

/-- QUERY 0x02 (R277). -/
def execQueryImageSummary (cmd : Cmd) (image len : Nat) (s : State) : Result :=
  .next (settle (gate (.queryImageSummary cmd image len) cmd opQuery (fun _ s => doQueryImage cmd image len s) s))

/-- QUERY 0x03 (R277). -/
def execQueryStreamState (cmd : Cmd) (id len : Nat) (s : State) : Result :=
  .next (settle (gate (.queryStreamState cmd id len) cmd opQuery (fun _ s => doQueryStream cmd id len s) s))

/-- QUERY 0x04 (R277, R283). -/
def execQueryAccounting (cmd : Cmd) (len : Nat) (s : State) : Result :=
  .next (settle (gate (.queryAccounting cmd len) cmd opQuery (fun _ s => doQueryAccounting cmd len s) s))

/-- QUERY 0x05 (R277). -/
def execQueryFaultRecords (cmd : Cmd) (len : Nat) (s : State) : Result :=
  .next (settle (gate (.queryFaultRecords cmd len) cmd opQuery (fun _ s => doQueryFaults cmd len s) s))

/-- QUERY 0x06 (R277). -/
def execQuerySpares (cmd : Cmd) (len : Nat) (s : State) : Result :=
  .next (settle (gate (.querySpares cmd len) cmd opQuery (fun _ s => doQuerySpares cmd len s) s))

/-- SERVICE PARTITION, create (R262). -/
def execPartitionCreate (cmd : Cmd) (p : PartNum) (props : PartProps) (s : State) : Result :=
  .next (settle (gate (.partitionCreate cmd p props) cmd opService (fun _ s => doPartCreate cmd p.val props s) s))

/-- SERVICE PARTITION, change (R262). -/
def execPartitionChange (cmd : Cmd) (p : PartNum) (props : PartProps) (s : State) : Result :=
  .next (settle (gate (.partitionChange cmd p props) cmd opService (fun _ s => doPartChange cmd p.val props s) s))

/-- SERVICE PARTITION, remove (R262). -/
def execPartitionRemove (cmd : Cmd) (p : PartNum) (s : State) : Result :=
  .next (settle (gate (.partitionRemove cmd p) cmd opService (fun _ s => doPartRemove cmd p.val s) s))

/-- SERVICE CONTEXT_BIND (R264). -/
def execContextBind (cmd : Cmd) (c : CtxNum) (p : PartNum) (fn : FnNum) (vector : Nat) (s : State) : Result :=
  .next (settle (gate (.contextBind cmd c p fn vector) cmd opService
    (fun _ s => doBind cmd c.val p.val fn.val vector s) s))

/-- SERVICE UNLOAD (R272). -/
def execUnload (cmd : Cmd) (image : Nat) (s : State) : Result :=
  .next (settle (gate (.unload cmd image) cmd opService (fun _ s => doUnload cmd image s) s))

/-- SERVICE CORE_TEST (R278). -/
def execCoreTest (cmd : Cmd) (n : CoreNum) (s : State) : Result :=
  .next (settle (gate (.coreTest cmd n) cmd opService (fun o s => doCoreTest o cmd n.val s) s))

/-- SERVICE SLICE_BYPASS (R152). -/
def execSliceBypass (cmd : Cmd) (k : SliceNum) (takers : List SliceNum) (s : State) : Result :=
  .next (settle (gate (.sliceBypass cmd k takers) cmd opService
    (fun _ s => doBypass cmd k.val (takers.map (·.val)) s) s))

/-- SERVICE SETTINGS_WRITE (R429). -/
def execSettingsWrite (cmd : Cmd) (record : List Byte) (s : State) : Result :=
  .next (settle (gate (.settingsWrite cmd record) cmd opService (fun _ s => doSettings cmd record s) s))

/-- SERVICE CAMERA_REG, read (R278). -/
def execCameraRegRead (cmd : Cmd) (id reg : Nat) (answer : W32) (s : State) : Result :=
  .next (settle (gate (.cameraRegRead cmd id reg answer) cmd opService
    (fun _ s => doCamera cmd id false reg answer s) s))

/-- SERVICE CAMERA_REG, write (R278). -/
def execCameraRegWrite (cmd : Cmd) (id reg : Nat) (value : W32) (s : State) : Result :=
  .next (settle (gate (.cameraRegWrite cmd id reg value) cmd opService
    (fun _ s => doCamera cmd id true reg value s) s))

/-- SERVICE TIME_SECONDS (R220). -/
def execTimeSeconds (cmd : Cmd) (seconds : Nat) (s : State) : Result :=
  .next (settle (gate (.timeSeconds cmd seconds) cmd opService (fun _ s => doSeconds cmd seconds s) s))

/-- SERVICE RESUME_HELD, SKIP (R249). -/
def execResumeHeldSkip (cmd : Cmd) (s : State) : Result :=
  .next (settle (gate (.resumeHeldSkip cmd) cmd opService (fun _ s => doResumeSkip cmd s) s))

/-- SERVICE RESUME_HELD, ABORT (R249). -/
def execResumeHeldAbort (cmd : Cmd) (s : State) : Result :=
  .next (settle (gate (.resumeHeldAbort cmd) cmd opService (fun _ s => doResumeAbort cmd s) s))

/-- SERVICE ACCT_TRACE (R283). -/
def execAcctTrace (cmd : Cmd) (set : Bool) (s : State) : Result :=
  .next (settle (gate (.acctTrace cmd set) cmd opService (fun _ s => doTrace cmd set s) s))

/-- SERVICE FW_UPDATE, STAGE (R403). -/
def execFwUpdateStage (cmd : Cmd) (len : Nat) (crc : W32) (img : FwImage) (s : State) : Result :=
  .next (settle (gate (.fwUpdateStage cmd len crc img) cmd opService (fun o s => doFwUpdate 0 o cmd len crc img s) s))

/-- SERVICE FW_UPDATE, NEXT_RESET (R403). -/
def execFwUpdateNextReset (cmd : Cmd) (len : Nat) (crc : W32) (img : FwImage) (s : State) : Result :=
  .next (settle (gate (.fwUpdateNextReset cmd len crc img) cmd opService
    (fun o s => doFwUpdate 2 o cmd len crc img s) s))

/-- SERVICE FW_UPDATE, LIVE (R404). -/
def execFwUpdateLive (cmd : Cmd) (len : Nat) (crc : W32) (img : FwImage) (s : State) : Result :=
  .next (settle (gate (.fwUpdateLive cmd len crc img) cmd opService (fun o s => doFwUpdate 1 o cmd len crc img s) s))

/-- The write and read-back of the inactive slot end (R403). -/
def execFwFlashVerified (ok : Bool) (s : State) : Result := .next (settle (flashVerified ok s))

/-- A control core returns to service during a live activation (R404). -/
def execLiveCoreRejoin (n : CtrlNum) (s : State) : Result := .next (settle (rejoined n.val s))

/-- A control core has not rejoined within 500 ms (R404). -/
def execLiveRejoinTimeout (n : CtrlNum) (s : State) : Result := .next (settle (rejoinTimedOut n.val s))

end Sys2Proof.Machine
end

