-- ==== Sys2Proof/Machine/RegRead.lean ====
section
/-! DEFINITION. What host reads return: every register of R432 to R441 and of each block's page, the queue descriptors of
R181 and the scratchpad windows of R145.  A read changes nothing but the latches of R254 and R291. -/

namespace Sys2Proof.Machine

open Sys2Proof Sys2Proof.Machine.Bits

/-- A word from fields, each with the bit it starts at; the fields do not overlap. -/
def packWord (fs : List (Nat × Nat)) : Nat := (fs.map (fun f => f.2 * 2 ^ f.1)).sum

/-- A flag as a number. -/
def b2n (b : Bool) : Nat := if b then 1 else 0

/-- Two's complement of a number in `n` bits. -/
def twos (n : Nat) (v : Int) : Nat := (v % (2 ^ n : Nat)).toNat

/-! ### Codes -/

/-- CORE_STATE.SEQ (R60, R69). -/
def Seq.code : Seq → Nat
  | .idle => 0 | .run => 1 | .wait => 2 | .drain => 3 | .test => 4 | .faulted => 5

/-- CORE_STATE.POOL (R69). -/
def PoolMember.code : PoolMember → Nat
  | .schedulable => 0 | .spare => 1 | .retired => 2 | .fused => 3

/-- WIN_STATE.STATE (R147). -/
def WinState.code : WinState → Nat
  | .closed => 0 | .opened => 1 | .unused => 2

/-- Queue TYPE and STATE (R181). -/
def QType.code : QType → Nat
  | .data => 0 | .free => 1 | .command => 2 | .completion => 3
/-- Queue STATE (R181). -/
def QState.code : QState → Nat
  | .unused => 0 | .armed => 1 | .held => 2 | .faulted => 3

/-- QMG_LINK_CFG.STEER (R208). -/
def steerCode : Steer → Nat
  | .segment => 1 | .visit => 2 | .single => 3

/-- TAL_DISC.STATE (R255). -/
def Disc.code : Disc → Nat
  | .free => 0 | .acquiring => 1 | .locked => 2 | .holdover => 3

/-- MESH_HOME.MODE (R165). -/
def HomeMode.code : HomeMode → Nat
  | .slice => 1 | .quadrant => 2 | .noAllocate => 3

/-- DMC_STAT (R167). -/
def DmcMode.code : DmcMode → Nat
  | .active => 0 | .selfRefresh => 1 | .mappedOut => 2 | .training => 3

/-- GLB_STAT.BOOT_STATE (R438). -/
def BootState.code : BootState → Nat
  | .powerOn => 0 | .safeTest => 1 | .image => 2 | .train => 3 | .coreTest => 4 | .settings => 5 | .ready => 6
  | .waitCoolant => 7 | .stopped => 15

/-- BOOT_LOAD_STAT (R437). -/
def LoadStat.code : LoadStat → Nat
  | .idle => 0 | .loading => 1 | .done => 2 | .failed => 3

/-- SAFE_MBOX_STAT.RESULT (R331). -/
def MboxResult.code : MboxResult → Nat
  | .idle => 0 | .busy => 1 | .done => 2 | .refused => 3

/-- CTL_JOURNAL.STATE (R292). -/
def JState.code : JState → Nat
  | .idle => 0 | .prepare => 1 | .committed => 2

/-- DBG_CS_STAT.STATE (R410). -/
def CsState.code : CsState → Nat
  | .none => 0 | .writing => 1 | .kept => 2 | .part => 3 | .copying => 4 | .copyDone => 5

/-- DBG_FW_UPD.STATE (R410). -/
def UpdState.code : UpdState → Nat
  | .idle => 0 | .writing => 1 | .staged => 2 | .pending => 3 | .activating => 4 | .failed => 5

/-! ### The header (R432, R433) -/

/-- STAT.READY of a page (R433). -/
def blockReady (s : State) (b : Block) : Bool :=
  let h := s.hdr b
  let service := h.en && !h.isolated && !h.bypass
  s.boot.ready &&
    match b with
    | .glb => true
    | .ing p => service && (s.port p).trained
    | .core n => ((s.core n).pool == .schedulable || (s.core n).pool == .spare) && (s.core n).seq != .faulted
    | .dmc c => service && (s.dmc c).mode != .mappedOut
    | .shc k => service && !(s.slice k).bypassed
    | _ => service

/-- Monitor sources of a block: how many, and the first code (R432, R439). -/
def monSources : Block → Nat × Nat
  | .core n => (1, n)
  | .ing p => (1, 0x100 + p)
  | .qmg => (3, 0x300)
  | .dmc c => (1, 0x380 + c)
  | .shc k => (1, 0x390 + k)
  | .pwr => (73, 0x400)
  | .tal => (2, 0x500)
  | _ => (0, 0)

/-- A source code is one of a block's. -/
def ofBlock (b : Block) (src : Nat) : Bool :=
  match b with
  | .pwr => (0x400 ≤ src && src ≤ 0x408) || (0x440 ≤ src && src ≤ 0x47F)
  | _ => (monSources b).2 ≤ src && src < (monSources b).2 + (monSources b).1

/-- One bit per monitor from `first` whose source is one of the block's. -/
def monBound (s : State) (b : Block) (first : Nat) : Nat :=
  ((List.range 32).map (fun i => b2n (ofBlock b (s.mon (first + i)).src && (s.mon (first + i)).en) * 2 ^ i)).sum

/-- A header register. -/
def readHeader (s : State) (b : Block) (off : Nat) : Nat :=
  let h := s.hdr b
  if off = 0x00 then packWord [(16, b.ident.1), (0, b.ident.2)]
  else if off = 0x04 then 0x010000A1
  else if off = 0x0C then
    let bypass := h.bypass || match b with
      | .shc k => (s.slice k).bypassed
      | _ => false
    packWord [(3, b2n h.isolate), (2, b2n bypass), (0, b2n h.en)]
  else if off = 0x10 then
    let busy := h.busy || match b with
      | .core n => (s.core n).run.isSome
      | _ => false
    packWord [(3, b2n h.inTest), (2, b2n h.isolated), (1, b2n busy), (0, b2n (blockReady s b))]
  else if off = 0x14 then h.errStat.toNat
  else if off = 0x18 then (h.errEn &&& b.errMask).toNat
  else if off = 0x20 then h.errAddr.toNat % 2 ^ 32
  else if off = 0x24 then h.errAddr.toNat / 2 ^ 32
  else if off = 0x28 then h.errCtx.toNat
  else if off = 0x30 then h.intStat.toNat
  else if off = 0x34 then h.intEn.toNat
  else if off = 0x38 then packWord [(31, b2n h.vecValid), (0, h.vec.toNat)]
  else if off = 0x40 then b2n (s.lockOpen b)
  else if off = 0x80 then packWord [(16, (monSources b).1), (0, (monSources b).2)]
  else if off = 0x88 then monBound s b 0
  else if off = 0x8C then monBound s b 32
  else 0

/-! ### Page bodies -/

/-- GLB (R437, R438). -/
def readGlb (s : State) (off : Nat) : Nat :=
  if off = 0x100 then packWord [(16, 9), (8, 0xA1), (0, if s.nvm.gradeT then 1 else 2)]
  else if off = 0x104 then s.nvm.serial % 2 ^ 32
  else if off = 0x108 then s.nvm.serial / 2 ^ 32 % 2 ^ 32
  else if off = 0x110 then
    packWord [(24, s.boot.stopCode), (8, s.boot.state.code), (1, b2n s.boot.warmPending), (0, b2n s.boot.ready)]
  else if off = 0x114 then packWord [(16, 192 - s.nvm.fused.length), (8, 160), (0, s.spares.length)]
  else if off = 0x118 then
    ((List.range 12).map (fun c => b2n ((s.dmc c).mode == .active || (s.dmc c).mode == .selfRefresh) * 2 ^ c)).sum
  else 0

/-- CTL (R291, R292). -/
def readCtl (s : State) (fn off : Nat) : Nat :=
  let acct (f : Ctx → Nat) : Nat := ((s.selCtx fn .ctl 0x120).map (fun c => f (s.ctx c))).getD 0
  if off = 0x100 then s.ctl.fwVer.toNat
  else if off = 0x104 then s.ctl.coresUp
  else if off = 0x108 then s.ctl.placeEpoch % 2 ^ 32
  else if off = 0x10C then packWord [(24, s.sparesIn 3), (16, s.sparesIn 2), (8, s.sparesIn 1), (0, s.sparesIn 0)]
  else if off = 0x110 then packWord [(8, s.ctl.jSlot), (2, s.ctl.jLast), (0, s.ctl.jState.code)]
  else if off = 0x114 then
    packWord [(24, s.ctl.minorCur), (16, s.ctl.minorPrev), (8, s.ctl.fmtMajor), (0, s.ctl.fmtMajor - 1)]
  else if off = 0x120 then s.sel fn .ctl 0x120
  else if off = 0x124 then acct (·.jobsDone)
  else if off = 0x128 then acct (fun x => x.waitNs % 2 ^ 32)
  else if off = 0x12C then if (s.selCtx fn .ctl 0x120).isSome then (Tab.get s.ctl.acctHi 0 fn).toNat else 0
  else if off = 0x130 then acct (·.maxWait)
  else if off = 0x134 then acct (·.passed)
  else if off = 0x138 then acct (fun x => packWord [(1, b2n x.trace), (0, b2n x.ovf)])
  else 0

/-- Cores past their test interval (R329). -/
def lateCores (s : State) : Nat := (allCores.filter (fun n => (s.core n).late)).length

/-- SAFE (R329 to R331). -/
def readSafe (s : State) (off : Nat) : Nat :=
  let f := s.safe
  if off = 0x100 then
    packWord [(24, f.ssCause), (16, min 255 (s.streamIds (·.faulted)).length), (10, b2n f.saferefOk), (9, b2n f.pair1Ok),
      (8, b2n f.pair0Ok), (3, b2n (0 < lateCores s)), (2, b2n (f.driven && !f.faultN)), (0, f.stateCode)]
  else if off = 0x104 then packWord [(2, b2n f.faultN), (1, b2n f.okN), (0, b2n f.okP)]
  else if off = 0x108 then f.faultHold
  else if off = 0x10C then packWord [(31, b2n f.linkUp), (0, f.egressUs)]
  else if off = 0x110 then f.evtTransient
  else if off = 0x114 then f.evtPermanent
  else if off = 0x118 then f.evtMasked
  else if off = 0x11C then f.egressLost
  else if 0x120 ≤ off ∧ off ≤ 0x13C then
    match f.log with
    | [] => 0
    | r :: _ => (r.words.getD ((off - 0x120) / 4) 0).toNat
  else if off = 0x140 then packWord [(16, lateCores s), (0, f.lateCore)]
  else if 0x180 ≤ off ∧ off ≤ 0x18C then (Tab.get f.mboxArg 0 ((off - 0x180) / 4)).toNat
  else if off = 0x194 then packWord [(8, f.mboxLast), (0, f.mboxResult.code)]
  else if 0x1A0 ≤ off ∧ off ≤ 0x1BC then (f.mboxOut.getD ((off - 0x1A0) / 4) 0).toNat
  else 0

/-- The hottest valid sensor and its reading; 0 when none is valid (R378). -/
def hottestValid (s : State) : Nat × Int :=
  s.pwr.valid.foldl (fun best n =>
    let t := Tab.get s.pwr.tj 0 n
    if s.pwr.valid.head? == some n || best.2 < t then (n, t) else best) (0, 0)

/-- PWR (R376 to R378). -/
def readPwr (s : State) (off : Nat) : Nat :=
  let p := s.pwr
  if off = 0x100 then p.cap
  else if off = 0x104 then p.guard
  else if off = 0x108 then min 65535 p.est
  else if off = 0x10C then min 65535 p.average
  else if 0x110 ≤ off ∧ off ≤ 0x11C then
    let q := s.quad ((off - 0x110) / 4)
    packWord [(16, min 65535 q.est), (12, q.target), (9, b2n q.div), (8, b2n q.bedrock), (0, q.pstep)]
  else if off = 0x120 then
    packWord [(6, b2n p.guardActive), (5, b2n p.tjHotOn), (4, b2n p.overGrade), (3, b2n p.thermtrip),
      (2, b2n p.coolantOk), (1, b2n p.limitActive), (0, b2n p.infeasible)]
  else if off = 0x124 then packWord [(16, (hottestValid s).1), (0, twos 12 (hottestValid s).2)]
  else if off = 0x128 then twos 12 p.tjHot
  else if off = 0x12C then p.limitEvents
  else if off = 0x130 then p.guardEvents
  else if 0x200 ≤ off ∧ off ≤ 0x2FC then
    let n := (off - 0x200) / 4
    packWord [(31, b2n (p.valid.contains n)), (0, twos 12 (Tab.get p.tj 0 n))]
  else 0

/-- BOOT (R437). -/
def readBoot (s : State) (off : Nat) : Nat :=
  let b := s.boot
  if off = 0x100 then
    packWord [(24, min 255 b.badRecords), (17, b2n b.fallback), (16, b2n b.slotB), (8, s.nvm.counter), (0, b.svn)]
  else if off = 0x110 then b.loadAddr.toNat % 2 ^ 32
  else if off = 0x114 then b.loadAddr.toNat / 2 ^ 32
  else if off = 0x118 then b.loadLen.toNat
  else if off = 0x120 then b.loadStat.code
  else 0

/-- DBG_MESH_PLANES: the planes in service (R409). -/
def planesUp (s : State) : Nat :=
  ((List.range 8).map (fun p =>
    let st := Tab.get s.mesh.planes .up p
    b2n (st == .up || st == .steering) * 2 ^ p)).sum

/-- DBG (R409, R410). -/
def readDbg (s : State) (off : Nat) : Nat :=
  let d := s.dbg
  if off = 0x100 then d.rstWord
  else if off = 0x104 then d.rstCount
  else if off = 0x108 then d.rstLost
  else if off = 0x10C then d.fatal
  else if off = 0x110 then d.hangWait
  else if off = 0x114 then planesUp s
  else if off = 0x120 then d.csBase % 2 ^ 32
  else if off = 0x124 then d.csBase / 2 ^ 32 % 2 ^ 32
  else if off = 0x128 then d.csSize
  else if off = 0x12C then d.csState.code
  else if off = 0x130 then d.csHost.toNat % 2 ^ 32
  else if off = 0x134 then d.csHost.toNat / 2 ^ 32
  else if off = 0x140 then d.noticeBase.toNat % 2 ^ 32
  else if off = 0x144 then d.noticeBase.toNat / 2 ^ 32
  else if off = 0x148 then packWord [(8, b2n d.noticeEn), (0, d.noticeLog2)]
  else if off = 0x150 then d.noticeLost
  else if off = 0x160 then
    packWord [(16, b2n s.nvm.activeB), (8, d.liveCore), (4, d.updReason), (0, d.updState.code)]
  else 0

/-- A monitor (R440). -/
def readMon (s : State) (off : Nat) : Nat :=
  let m := s.mon ((off - 0x1000) / 0x100)
  let r := off % 0x100
  let sign := monSigned m.src
  if r = 0x00 then m.src
  else if r = 0x04 then m.arg
  else if r = 0x08 then packWord [(31, b2n m.en), (30, b2n m.log), (29, b2n sign), (0, m.period)]
  else if r = 0x0C then m.e0.toNat
  else if r = 0x10 then m.step.toNat
  else if r = 0x14 then twos 32 (m.min.getD (if sign then 0x7FFFFFFF else 0xFFFFFFFF))
  else if r = 0x18 then twos 32 (m.max.getD (if sign then -0x80000000 else 0))
  else if r = 0x1C then m.count
  else if 0x80 ≤ r then Tab.get m.bins 0 ((r - 0x80) / 4)
  else 0

/-- A binding: BOUND and the stream ID (R251). -/
def bindWord (x : Option Nat) : Nat := (x.map (fun id => 0x10000 + id % 65536)).getD 0

/-- ING (R251, R252). -/
def readIng (s : State) (p off : Nat) : Nat :=
  let x := s.port p
  if off = 0x100 then
    packWord [(12, b2n x.second), (11, b2n x.fec), (8, x.lanes), (4, x.speed), (0, x.type)]
  else if off = 0x104 then packWord [(1, b2n x.trained), (0, b2n x.up)]
  else if 0x110 ≤ off ∧ off ≤ 0x11C then bindWord (Tab.find x.bind ((off - 0x110) / 4))
  else if off = 0x120 then x.pkts
  else if off = 0x124 then x.hdrCorr
  else if off = 0x128 then x.pktDrop
  else if off = 0x12C then x.crcErr
  else if off = 0x130 then x.overrun
  else if off = 0x134 then x.stray
  else if 0x140 ≤ off ∧ off ≤ 0x14C then bindWord (Tab.find x.bind ((off - 0x140) / 4 + 4))
  else 0

/-- The line-scan stream bound to a camera pair, whose master lane is 2k (R17, R254). -/
def State.lineStreamOf (s : State) (pair : Nat) : Option Nat :=
  (s.streams.find? (fun e => e.2.decl.kind == 0 && e.2.decl.port == pairPort pair)).map (·.1)

/-- TAL (R254 to R257). -/
def readTal (s : State) (fn off : Nat) : Nat :=
  let t := s.tal
  let g := Tab.get t.groups {} (s.sel fn .tal 0x140)
  let d := Tab.get t.detectors {} (s.sel fn .tal 0x160)
  let line := s.lineStreamOf (s.sel fn .tal 0x134)
  if off = 0x100 then t.time % 2 ^ 32
  else if off = 0x104 then t.timeHi.toNat
  else if off = 0x108 then packWord [(8, t.lane), (4, t.disc.code), (0, t.src)]
  else if off = 0x10C then twos 32 t.offset
  else if off = 0x110 then packWord [(31, b2n t.odoEn), (30, b2n t.odoDir), (16, t.odoFilter), (0, t.odoCpl)]
  else if off = 0x114 then t.odoMinPer
  else if off = 0x118 then twos 48 t.pos % 2 ^ 32
  else if off = 0x11C then t.posHi.toNat
  else if off = 0x120 then b2n t.reverse
  else if off = 0x124 then t.skipped
  else if off = 0x128 then t.illegal
  else if off = 0x12C then t.cams
  else if off = 0x130 then ((line.bind s.stream?).map (·.decl.lineTimeout)).getD 0
  else if off = 0x134 then s.sel fn .tal 0x134
  else if off = 0x138 then bindWord line
  else if off = 0x140 then s.sel fn .tal 0x140
  else if off = 0x144 then g.w
  else if off = 0x148 then g.l
  else if off = 0x14C then packWord [(16, g.mandatory), (0, g.lastMissing)]
  else if off = 0x150 then g.partials
  else if off = 0x154 then g.late
  else if off = 0x160 then s.sel fn .tal 0x160
  else if off = 0x164 then packWord [(31, b2n d.en), (16, d.excl), (0, d.thresh)]
  else if off = 0x168 then d.stream
  else if off = 0x16C then packWord [(31, b2n d.frozen), (0, d.repeats)]
  else if off = 0x170 then d.events
  else if 0x180 ≤ off ∧ off ≤ 0x1BC then
    ((Tab.find g.members ((off - 0x180) / 4)).map (fun id => 0x80000000 + id % 65536)).getD 0
  else 0

/-- PPE (R259). -/
def readPpe (s : State) (off : Nat) : Nat :=
  let p := s.ppe
  if off = 0x100 then ((List.range 4).map (fun d => b2n (Tab.find p.decoders d).isSome * 2 ^ d)).sum
  else if off = 0x104 then p.jlsDone
  else if off = 0x108 then p.jlsReject
  else if off = 0x10C then packWord [(16, p.jlsStream), (0, p.jlsReason)]
  else if off = 0x110 then p.tokDone
  else if off = 0x114 then p.tokReject
  else if off = 0x118 then p.boxInvalid
  else if off = 0x11C then packWord [(31, b2n p.held), (0, p.heldCtx)]
  else if off = 0x120 then p.heldSample % 2 ^ 32
  else 0

/-- STATE of a context's queue that may be FAULTED: both are ARMED while EN is 1 or running commands remain (R200, R209). -/
def Ctx.queueState (x : Ctx) (faulted : Bool) : QState :=
  if faulted then .faulted else if x.en || x.retiring then .armed else .unused

/-- Queues of a context in STATE ARMED. -/
def Ctx.armedQueues (x : Ctx) : Nat :=
  (if x.queueState x.cmdFault = .armed then 1 else 0) + (if x.queueState x.cplFault = .armed then 1 else 0)

/-- Queues in STATE ARMED: those of veins and pools, and those of contexts (R206, R209). -/
def armedQueues (s : State) : Nat :=
  (s.qmg.queues.filter (fun e => e.2.state == .armed)).length + (s.ctxs.map (fun e => e.2.armedQueues)).sum

/-- QMG (R206 to R209). -/
def readQmg (s : State) (fn off : Nat) : Nat :=
  let pool := s.pool? (s.sel fn .qmg 0x110)
  let link := Tab.find s.qmg.links (s.sel fn .qmg 0x130)
  let fan := Tab.get s.qmg.fanouts [] (s.sel fn .qmg 0x140)
  let ctx (f : Ctx → Nat) : Nat := ((s.selCtx fn .qmg 0x160).map (fun c => f (s.ctx c))).getD 0
  let cores (k : Nat) : Nat := packWord ((List.range 4).map (fun i => (8 * i, fan.getD (4 * k + i) 0xFF)))
  if off = 0x100 then
    packWord [(16, s.liveEpochs), (0, (s.qmg.epochs.map (fun e => e.2.cancels)).flatten.eraseDups.length)]
  else if off = 0x104 then armedQueues s
  else if off = 0x110 then s.sel fn .qmg 0x110
  else if off = 0x114 then
    (pool.map (fun p => packWord [(28, p.kind), (24, p.part), (21, p.consumers - 1), (0, p.units)])).getD 0
  else if off = 0x118 then (pool.map (·.count)).getD 0
  else if off = 0x11C then (pool.map (fun p => (s.queue p.freeQueue).entries.length)).getD 0
  else if off = 0x120 then (pool.map (fun p => p.base % 2 ^ 32)).getD 0
  else if off = 0x124 then (pool.map (fun p => p.base / 2 ^ 32 % 2 ^ 32)).getD 0
  else if off = 0x128 then (pool.map (fun p => p.metaBase % 2 ^ 32)).getD 0
  else if off = 0x12C then (pool.map (fun p => p.metaBase / 2 ^ 32 % 2 ^ 32)).getD 0
  else if off = 0x130 then s.sel fn .qmg 0x130
  else if off = 0x134 then (link.map (fun l => packWord [(4, steerCode l.steer), (0, l.targets - 1)])).getD 0
  else if off = 0x138 then (link.map (·.firstQueue)).getD 0
  else if off = 0x13C then (link.map (fun l => packWord [(12, b2n l.perTarget), (0, l.firstPool)])).getD 0
  else if off = 0x140 then s.sel fn .qmg 0x140
  else if off = 0x144 then cores 0
  else if off = 0x148 then cores 1
  else if off = 0x160 then s.sel fn .qmg 0x160
  else if off = 0x164 then ctx (fun x => x.cmdBase.toNat % 2 ^ 32)
  else if off = 0x168 then ctx (fun x => x.cmdBase.toNat / 2 ^ 32)
  else if off = 0x16C then ctx (fun x => x.cplBase.toNat % 2 ^ 32)
  else if off = 0x170 then ctx (fun x => x.cplBase.toNat / 2 ^ 32)
  else if off = 0x174 then ctx (fun x => packWord [(8, b2n x.en), (4, x.cplLog2), (0, x.cmdLog2)])
  else if off = 0x180 then s.qmg.pushStalls
  else if off = 0x184 then s.qmg.popWaits
  else if off = 0x188 then s.qmg.handlesLost
  else if off = 0x18C then s.qmg.descCorr
  else 0

/-- Active channels (R168). -/
def activeCount (s : State) : Nat := ((List.range 12).filter (fun c => (s.dmc c).mode == .active || (s.dmc c).mode == .selfRefresh)).length

/-- DMC (R167, R168). -/
def readDmc (s : State) (c off : Nat) : Nat :=
  let d := s.dmc c
  if off = 0x100 then packWord [(8, activeCount s), (6, d.rate), (4, d.ranks), (0, d.density)]
  else if off = 0x104 then d.mode.code
  else if off = 0x108 then d.eccCorr
  else if off = 0x10C then d.eccUncorr
  else if off = 0x110 then d.linkCorr
  else if off = 0x114 then s.scrubHours
  else if off = 0x118 then min 255 d.ppr
  else 0

/-- MESH (R164, R165). -/
def readMesh (s : State) (off : Nat) : Nat :=
  let m := s.mesh
  if off = 0x100 then m.lanesSpared
  else if 0x200 ≤ off ∧ off ≤ 0x2BC then
    packWord ((List.range 4).map (fun i =>
      let b := off - 0x200 + i
      (8 * i, Tab.get m.buckets (b % 48) b)))
  else if 0x1000 ≤ off then
    match Tab.find m.homes ((off - 0x1000) / 8) with
    | none => 0
    | some h =>
      if off % 8 = 0 then packWord [(24, h.length % 256), (0, h.base)]
      else packWord [(30, h.mode.code), (16, h.target), (0, h.length / 256)]
  else 0

/-- SHC (R166). SHC_SPARE_USED[7:0] stands at 255 once 256 spare rows are used.
DESIGN CHOICE: log entry 114. -/
def readShc (s : State) (k off : Nat) : Nat :=
  let c := s.slice k
  if off = 0x100 then packWord [(16, b2n c.bypassed), (0, (c.lines.filter (fun e => e.2.dirty)).length)]
  else if off = 0x110 then c.hits
  else if off = 0x114 then c.misses
  else if off = 0x118 then c.writebacks
  else if off = 0x11C then c.eccCorr
  else if off = 0x120 then packWord [(8, c.tagSpares + c.tagSpares1), (0, min 255 (c.dataUsed.map (·.2)).sum)]
  else if 0x140 ≤ off ∧ off ≤ 0x17C then ((s.part? ((off - 0x140) / 4)).map (·.wayMask)).getD 0
  else 0

/-- CORE (R67 to R74). -/
def readCore (s : State) (n off : Nat) : Nat :=
  let c := s.core n
  if off = 0x100 then
    packWord [(24, coreY n), (20, coreX n), (16, coreQuad n), (12, coreRow n), (8, coreCol n), (0, n)]
  else if off = 0x104 then
    packWord [(16, c.slot), (8, if c.slot = 0xFFFF then 0 else c.part), (4, c.pool.code), (0, c.seq.code)]
  else if off = 0x108 then
    packWord ([(28, c.pass), (24, c.gang)] ++
      ((List.range 4).map (fun a => [(6 * a + 4, b2n (Tab.get c.wsel false a)), (6 * a, Tab.get c.fmt 0 a)])).flatten)
  else if off = 0x10C then packWord [(8, c.absExp), (0, c.relShift)]
  else if off = 0x110 then c.abftLast.toNat
  else if off = 0x114 then c.abftEvents
  else if off = 0x118 then c.injSel.toNat
  else if off = 0x120 then c.unitLast
  else if off = 0x124 then c.unitMax
  else if off = 0x128 then (c.run.map (fun u => sat32 u.wcet)).getD 0
  else if 0x130 ≤ off ∧ off ≤ 0x13C then Tab.get c.arrayBusy 0 ((off - 0x130) / 4)
  else if off = 0x140 then c.vecBusy
  else if off = 0x144 then packWord [(16, c.bundles), (0, c.strands)]
  else 0

/-- PCE and TLK (R437). -/
def readPce (s : State) (off : Nat) : Nat :=
  if off = 0x100 then packWord [(8, s.pce.width), (0, s.pce.speed)] else if off = 0x104 then s.pce.vfs else 0

/-- TLK (R437). -/
def readTlk (s : State) (p off : Nat) : Nat :=
  let t := s.tlk p
  if off = 0x100 then
    packWord [(24, t.peer), (16, t.version), (8, t.lanes), (4, b2n t.spareUsed), (0, b2n t.up)]
  else if off = 0x104 then t.peerFw
  else if off = 0x108 then t.replays
  else 0

/-- A register after the header. -/
def readBody (s : State) (fn : Nat) (b : Block) (off : Nat) : Nat :=
  match b with
  | .glb => readGlb s off
  | .ctl => readCtl s fn off
  | .safe => readSafe s off
  | .pwr => readPwr s off
  | .boot => readBoot s off
  | .dbg => readDbg s off
  | .mon => readMon s off
  | .ing p => readIng s p off
  | .tal => readTal s fn off
  | .ppe => readPpe s off
  | .qmg => readQmg s fn off
  | .dmc c => readDmc s c off
  | .mesh => readMesh s off
  | .shc k => readShc s k off
  | .pce => readPce s off
  | .tlk p => readTlk s p off
  | .core n => readCore s n off

/-- Pages that a virtual function reads as the physical function does (R414). -/
def Block.virtualReads : Block → Bool
  | .glb => true | .ctl => true | .safe => true | .mon => true | .qmg => true
  | _ => false

/-- What the page of a fused-out core answers: ID, VER, CAP, CORE_LOC and POOL = FUSED (R67). -/
def fusedAnswers (off : Nat) : Bool := off == 0x00 || off == 0x04 || off == 0x08 || off == 0x100 || off == 0x104

/-- A read of a block's page (R7, R8, R371, R414). Of a fused-out core STAGE_SLOT of CORE_STATE reads 0, as all beside the
registers that R67 names, and not 0xFFFF.
DESIGN CHOICE: log entry 110. -/
def readReg (s : State) (fn : Nat) (b : Block) (off : Nat) : Nat :=
  if fn ≠ 0 ∧ b.virtualReads = false then 0
  else if s.pwr.retention && b.stops then 0
  else
    match regAccess b off with
    | none => 0
    | some .w1s => 0
    | some .wo => 0
    | some _ =>
      match b with
      | .core n =>
        if (s.core n).pool = .fused then
          if off = 0x104 then packWord [(4, 3)] else if fusedAnswers off then
            (if off < 0x100 then readHeader s b off else readBody s fn b off)
          else 0
        else if off < 0x100 then readHeader s b off else readBody s fn b off
      | _ => if off < 0x100 then readHeader s b off else readBody s fn b off

/-- Word `k` of the descriptor of a vein's or pool's queue (R181). -/
def Queue.word (q : Queue) (k : Nat) : Nat :=
  if k = 0 then q.ringBase / 64 * 64 + packWord [(4, q.loc), (0, q.log2Depth)]
  else if k = 1 then
    packWord [(62, q.type.code), (60, q.state.code), (56, q.part), (50, q.outLimit - 1), (36, q.ctx)]
  else if k = 2 then packWord [(45, q.head), (26, q.tail), (19, q.outCount), (0, q.epoch)]
  else packWord [(52, q.pool), (40, q.fanout), (35, q.fn), (0, q.pushCount)]

/-- The descriptor of a context's queue (R181, R200, R209). -/
def ctxQueue (s : State) (c : Nat) (completion : Bool) : Queue :=
  let x := s.ctx c
  let st := x.queueState (if completion then x.cplFault else x.cmdFault)
  if completion then
    { type := .completion, state := st, part := s.partOf c, ctx := c, head := x.cplHead, tail := x.cplTail, fn := x.fn,
      log2Depth := x.cplLog2, loc := 1, ringBase := x.cplBase.toNat, pushCount := x.cplPushed }
  else
    { type := .command, state := st, part := s.partOf c, ctx := c, head := s.cmdHead c, tail := x.cmdTail, fn := x.fn,
      log2Depth := x.cmdLog2, loc := 1, ringBase := x.cmdBase.toNat, pushCount := x.cmdPushed }

/-- Queue `q` of the device with its ENTRY code (R180, R181). -/
def anyQueue (s : State) (q : Nat) : Queue × Nat :=
  if 0x3F000 ≤ q then (ctxQueue s (q - 0x3F000) false, 2)
  else if 0x3E000 ≤ q then (ctxQueue s (q - 0x3E000) true, 1)
  else (s.queue q, 0)

/-- A read of the descriptor window (R205): a virtual function sees the descriptors of its own contexts' partitions. -/
def readWindow (s : State) (fn off : Nat) : Nat :=
  let (q, ent) := anyQueue s (off / 32)
  let mine := fn = 0 ∨ (s.ctxs.any (fun e => e.2.fn == fn && e.2.part == some q.part)) = true
  if s.pwr.retention then 0
  else if mine then
    let w := q.word (off % 32 / 8) + (if off % 32 / 8 = 1 then ent * 2 ^ 48 else 0)
    if off % 8 < 4 then w % 2 ^ 32 else w / 2 ^ 32
  else 0

/-- A read of function `fn` at BAR0 offset `addr` (R9, R413, R414). -/
def hostRead (s : State) (fn addr : Nat) : W32 :=
  BitVec.ofNat 32
    (if inWindow addr then readWindow s fn (addr - 0x08000000)
     else
       match blockOfPage (addr / 65536) with
       | none => 0
       | some b => readReg s fn b (addr % 65536))

/-- A window page (R146 to R148). -/
def readWinPage (w : Window) (off : Nat) : Nat :=
  if off = 0x00 then w.base
  else if off = 0x04 then w.len
  else if off = 0x08 then packWord [(24, w.gen), (16, w.part), (2, b2n (w.target != 0)), (0, w.state.code)]
  else if off = 0x0C then w.arrived
  else if off = 0x10 then w.target
  else if off = 0x14 then w.late
  else if off = 0x18 then packWord [(8, w.lateReason), (0, w.lateWriter)]
  else 0

/-- A read of the physical function through BAR2 at byte `off` of core `n`'s window (R145). -/
def bar2Read (s : State) (n off : Nat) : W32 :=
  let c := s.core n
  if s.pwr.retention ∨ c.pool = .fused then 0
  else if off < 0x200000 then if c.spPoison.contains (off / 4) then poisonWord else Tab.get c.sp 0 (off / 4)
  else if off < 0x210000 then BitVec.ofNat 32 (readWinPage (c.window ((off - 0x200000) / 0x100)) (off % 0x100))
  else 0

/-- A read of function `fn` at a BAR2 address: core n lies at 0x1_0000_0000 + n × 0x40_0000, and BAR2 exists on the physical
function only (R145). -/
def barTwoRead (s : State) (fn addr : Nat) : W32 :=
  let a := addr - 0x100000000
  if fn = 0 ∧ 0x100000000 ≤ addr ∧ a < 192 * 0x400000 then bar2Read s (a / 0x400000) (a % 0x400000) else 0

/-! ### Reads that latch (R254, R291) -/

/-- Return a register's value to the function that reads it. -/
def giveValue (fn : Nat) (v : Nat) (s : State) : State := s.emit (.regData fn (BitVec.ofNat 32 v))

/-- A read of TAL_TIME_LO latches TAL_TIME_HI. -/
def readTimeLo (fn : Nat) (s : State) : State :=
  if fn ≠ 0 then giveValue fn 0 s
  else giveValue fn s.tal.time (s.modTal (fun t => { t with timeHi := BitVec.ofNat 32 (t.time / 2 ^ 32) }))

/-- A read of TAL_ODO_POS_LO latches TAL_ODO_POS_HI. -/
def readPosLo (fn : Nat) (s : State) : State :=
  if fn ≠ 0 then giveValue fn 0 s
  else giveValue fn (twos 48 s.tal.pos) (s.modTal (fun t => { t with posHi := BitVec.ofNat 32 (twos 48 t.pos / 2 ^ 32) }))

/-- A read of CTL_ACCT_WAIT_LO latches the high word for the reading function (R291, R415). -/
def readWaitLo (fn : Nat) (s : State) : State :=
  match s.selCtx fn .ctl 0x120 with
  | none => giveValue fn 0 s
  | some c =>
    giveValue fn (s.ctx c).waitNs
      (s.modCtl (fun k => { k with acctHi := Tab.insert k.acctHi fn (BitVec.ofNat 32 ((s.ctx c).waitNs / 2 ^ 32)) }))

end Sys2Proof.Machine
end

