-- ==== Sys2Proof/Machine/SafeIsland.lean ====
section
/-! DEFINITION. The meanings of the safety island's commands and events (R294 to R333) and of core samples (R395 to R400). -/

namespace Sys2Proof.Machine

open Sys2Proof Sys2Proof.Machine.Bits

/-- What a command of this device answers: the next state. -/
abbrev SafeResult := Host.Outcome State Fault Refusal

/-- Mailbox ENTER_SAFE_STATE (R333). -/
def execEnterSafeState (fn : FnNum) (s : State) : SafeResult := .next (mbox fn.val 1 (receiveTlp s))

/-- Mailbox READ_LOG (R333). -/
def execReadLog (fn : FnNum) (s : State) : SafeResult := .next (mbox fn.val 2 (receiveTlp s))

/-- Mailbox PIN_TEST (R333). -/
def execPinTest (fn : FnNum) (s : State) : SafeResult := .next (mbox fn.val 3 (receiveTlp s))

/-- The 1 ms of PIN_TEST ends (R333). -/
def execPinTestEnd (s : State) : SafeResult := .next (endPinTest s)

/-- Mailbox CLEAR_COUNTS (R333). -/
def execClearCounts (fn : FnNum) (s : State) : SafeResult := .next (mbox fn.val 4 (receiveTlp s))

/-- SAFE processes the oldest error event (R298, R312, R318). -/
def execFaultReport (retention : Upset) (s : State) : SafeResult := .next (settle (faultReport retention s))

/-- SAFE_FAULT_HOLD ends (R320). -/
def execFaultHoldExpiry (s : State) : SafeResult := .next (releaseFault s)

/-- A toggle instant of the heartbeat (R319). -/
def execHeartbeatToggle (s : State) : SafeResult := .next (toggle s)

/-- A pair kicks the heartbeat generator (R295). -/
def execHbKick (pair : Fin 2) (s : State) : SafeResult := .next (kick pair.val s)

/-- The outputs of a pair differ (R295). -/
def execLockstepMismatch (pair : Fin 2) (s : State) : SafeResult := .next (lockstepLost pair.val s)

/-- A clock monitor's window ends (R314). -/
def execClockMonitorWindow (dom : ClockDom) (count expected : Nat) (s : State) : SafeResult :=
  .next (settle (clockWindow dom count expected s))

/-- A rail leaves its thresholds for 500 ns (R314). -/
def execSupplyExcursion (rail : Rail) (s : State) : SafeResult := .next (settle (supplyFault rail s))

/-- SAFEREF is lost (R314). -/
def execSaferefLoss (s : State) : SafeResult := .next (loseSaferef s)

/-- A control core has not kicked for 1 ms (R315). -/
def execCtrlCoreKickTimeout (core : CtrlNum) (s : State) : SafeResult := .next (ctrlLost core.val s)

/-- A control core kicks SAFE (R315). -/
def execCtrlCoreKick (core : CtrlNum) (s : State) : SafeResult := .next (ctrlKick core.val s)

/-- The STATUS period ends (R321). -/
def execStatusFrame (s : State) : SafeResult :=
  .next (if s.safe.mode = .run ∧ s.safeRuns = true then sendFrame 1 8 s else s)

/-- A self-test slice is due on a core (R323). -/
def execSelfTestSliceStart (core : CoreNum) (s : State) : SafeResult := .next (sliceStart core.val s)

/-- A self-test slice ends (R322). -/
def execSelfTestSliceDone (core : CoreNum) (pass comparatorOk : Bool) (s : State) : SafeResult :=
  .next (settle (sliceDone core.val pass comparatorOk s))

/-- 80 s of a core's test interval have passed (R323). -/
def execTestDeferralLimit (core : CoreNum) (s : State) : SafeResult := .next (deferralLimit core.val s)

/-- A core's test interval ends (R323). -/
def execLatent (core : CoreNum) (s : State) : SafeResult := .next (latentCore core.val s)

/-- The oldest record invalidation lands (R302). -/
def execRecordInvalidation (s : State) : SafeResult := .next (landInval s)

/-- The SGMII link changes (R321). -/
def execSgmiiLinkChange (up : Bool) (s : State) : SafeResult := .next (s.modSafe (fun f => { f with linkUp := up }))

/-- A write of DBG_CS_CTRL.COPY (R400, R408, R414). -/
def execCoreSampleCopy (fn : FnNum) (s : State) : SafeResult :=
  .next (if fn.val = 0 then copySample (receiveTlp s) else lockWrite .dbg (receiveTlp s))

/-- The copy of the core sample ends (R400). -/
def execCoreSampleCopyDone (s : State) : SafeResult := .next (copyDone s)

/-- A write of DBG_CS_CTRL.RELEASE (R396, R408, R414). -/
def execCoreSampleRelease (fn : FnNum) (s : State) : SafeResult :=
  .next (if fn.val = 0 then releaseSample (receiveTlp s) else lockWrite .dbg (receiveTlp s))

end Sys2Proof.Machine
end

