-- ==== Sys2Proof/Machine/CoreSample.lean ====
section
/-! DEFINITION. What a core sample holds (R397 to R399): its sections, its directory and its header, and their bytes in the
region of device DRAM that the settings declare (R396). -/

namespace Sys2Proof.Machine

open Sys2Proof Sys2Proof.Machine.Bits

/-! ### The entries of the sections (R399) -/

/-- `n` bytes whose layout no rule gives: free values, numbered from `k`.
DESIGN CHOICE: log entry 109. -/
def openBytes (s : State) (k n : Nat) : List Byte := (List.range n).map (fun i => BitVec.ofNat 8 (Config.freeNat (s.free + k + i)))

/-- Little-endian bytes of 32-bit words. -/
def wordBytes (ws : List Nat) : List Byte := (ws.map (toBytes 4)).flatten

/-- Queues that are not UNUSED, ascending: those of the QMG, and the completion and command queues of contexts (R180, R399). -/
def sampleQueues (s : State) : List Nat :=
  let all : List Nat :=
    List.map (·.1) s.qmg.queues ++ List.map (fun e => 0x3E000 + e.1) s.ctxs ++ List.map (fun e => 0x3F000 + e.1) s.ctxs
  all.filter (fun q => (anyQueue s q).1.state != .unused)

/-- A queue's entry: its number, 4 reserved bytes, and its 32-byte descriptor (R181, R399). -/
def queueEntry (s : State) (q : Nat) : List Byte :=
  let d := (anyQueue s q).1
  let ent := (anyQueue s q).2
  toBytes 4 q ++ toBytes 4 0 ++
    ((List.range 4).map (fun w => toBytes 8 (d.word w + (if w = 1 then ent * 2 ^ 48 else 0)))).flatten

/-- A core's entry: CORE page 0x100 to 0x147, then ERR_STAT, CTRL and STAT (R399). -/
def coreEntry (s : State) (n : Nat) : List Byte :=
  wordBytes ((List.range 18).map (fun k => readCore s n (0x100 + 4 * k)) ++
    [0x14, 0x0C, 0x10].map (readHeader s (.core n)))

/-- The entry of CTL_JOURNAL and of the DBG page 0x100 to 0x163 (R399). -/
def journalEntry (s : State) : List Byte :=
  wordBytes (readCtl s 0 0x110 :: (List.range 25).map (fun k => readDbg s (0x100 + 4 * k)))

/-- Windows that are not UNUSED, by core (R132, R399). -/
def sampleWindows (s : State) : List (Nat × Nat) :=
  (s.cores.map (fun e => (e.2.windows.filter (fun w => w.2.state != .unused)).map (fun w => (e.1, w.1)))).flatten

/-- A window's entry: WIN_BASE to WIN_LATE_SRC are its last 28 bytes; how the first 4 hold the core and the number no rule
says (R146, R399).
DESIGN CHOICE: log entry 109. -/
def windowEntry (s : State) (k : Nat) (e : Nat × Nat) : List Byte :=
  openBytes s k 4 ++ wordBytes ((List.range 7).map (fun i => readWinPage ((s.core e.1).window e.2) (4 * i)))

/-- A pool's entry begins with QMG_POOL_CFG; the widths of what follows no rule says (R206, R399).
DESIGN CHOICE: log entry 109. -/
def poolEntry (s : State) (k : Nat) (p : PoolSt) : List Byte :=
  toBytes 4 (packWord [(28, p.kind), (24, p.part), (21, p.consumers - 1), (0, p.units)]) ++ openBytes s k 28

/-- Core and queue pairs with transfers outstanding (R190, R399). -/
def sampleEngines (s : State) : List (Nat × Nat) :=
  (s.qmg.transfers.map (fun x => (x.core, x.queue))).eraseDups

/-- Entries of a section, each with the bytes that no rule lays out as free values numbered from 2^32 times the section's
type. -/
def openEntries (s : State) (type len n : Nat) : List (List Byte) :=
  (List.range n).map (fun i => openBytes s (type * 2 ^ 32 + i * len) len)

/-- Entries of the control-core log, which is opaque: how many there are is a free value.
DESIGN CHOICE: log entry 109. -/
def opaqueEntries (s : State) : Nat := Config.freeNat s.free % 65536

/-- The sections in ascending type, each with its entry size and its entries (R399). -/
def sampleSections (s : State) : List (Nat × Nat × List (List Byte)) :=
  [ (0x01, 32, s.safe.log.map FaultRec.bytes),
    (0x02, 16, openEntries s 0x02 16 s.qmg.epochs.length),
    (0x03, 40, (sampleQueues s).map (queueEntry s)),
    (0x04, 32, s.qmg.pools.zipIdx.map (fun e => poolEntry s (0x04 * 2 ^ 32 + 28 * e.2) e.1.2)),
    (0x05, 32, (sampleWindows s).zipIdx.map (fun e => windowEntry s (0x05 * 2 ^ 32 + 4 * e.2) e.1)),
    (0x06, 84, (List.range 192).map (coreEntry s)),
    (0x07, 48, openEntries s 0x07 48 (sampleEngines s).length),
    (0x08, 256, openEntries s 0x08 256 128),
    (0x09, 96, ((List.range slotCount).filter (fun k => (s.slotUse k).isSome)).map (slotBytes s)),
    (0x0A, 104, [journalEntry s]),
    (0x0B, 64, openEntries s 0x0B 64 (opaqueEntries s)) ]

/-! ### The directory and the header (R397, R398) -/

/-- Bytes of the header and the directory of eleven sections. -/
def directoryEnd : Nat := 128 + 32 * 11

/-- Lay one section after what is written: entries that no longer fit are omitted (R398, R399).  Its version is a free value.
DESIGN CHOICE: log entry 109. -/
def laySection (s : State) (room : Nat) (acc : List SampleSection × List Byte) (e : Nat × Nat × List (List Byte)) :
    List SampleSection × List Byte :=
  let at0 := directoryEnd + acc.2.length
  let fit := (room - at0) / e.2.1
  let bytes := (e.2.2.take fit).flatten
  (acc.1 ++ [{ type := e.1, version := Config.freeNat (s.free + e.1) % 65536, size := e.2.1, offset := at0
               written := min fit e.2.2.length, omitted := e.2.2.length - fit, crc := crc32c bytes }],
   acc.2 ++ bytes)

/-- The sections and their bytes, for a region of `room` bytes. -/
def laySections (s : State) (room : Nat) : List SampleSection × List Byte :=
  (sampleSections s).foldl (laySection s room) ([], [])

/-- The 32 bytes of a directory entry (R398). -/
def SampleSection.bytes (x : SampleSection) : List Byte :=
  toBytes 2 x.type ++ toBytes 2 x.version ++ toBytes 4 x.size ++ toBytes 8 x.offset ++ toBytes 4 x.written ++
    toBytes 4 x.omitted ++ toBytes 4 0 ++ toBytes 4 x.crc.toNat

/-- Bytes of a sample in all: its header, its directory and its sections (R397). -/
def Sample.total (x : Sample) : Nat := directoryEnd + (x.sections.map (fun e => e.written * e.size)).sum

/-- Bytes 0 to 123 of the header (R397). -/
def Sample.head (serial : Nat) (x : Sample) : List Byte :=
  toBytes 4 0x43534D50 ++ toBytes 2 1 ++ toBytes 2 0 ++ toBytes 4 directoryEnd ++ toBytes 4 x.total ++ toBytes 8 serial ++
    toBytes 4 x.fwVer.toNat ++ toBytes 1 x.ssCause ++ toBytes 1 x.fatal ++ toBytes 1 x.coresUp ++
    toBytes 1 (packWord [(1, b2n x.truncated), (0, b2n x.complete)]) ++ toBytes 8 x.entry ++ toBytes 8 x.endTime ++
    toBytes 4 x.placeEpoch ++ toBytes 4 x.sections.length ++
    ((x.fault.map FaultRec.bytes).getD (List.replicate 32 0)) ++ List.replicate 36 0

/-- The header and the directory of a sample (R397, R398). -/
def Sample.bytes (serial : Nat) (x : Sample) : List Byte :=
  x.head serial ++ toBytes 4 (crc32c (x.head serial)).toNat ++ (x.sections.map SampleSection.bytes).flatten

/-! ### Writing the sample (R395 to R399) -/

/-- Write bytes into device DRAM past the shared cache: the cached lines of the range are written back and invalidated first,
and its lines are no longer poisoned. -/
def storeRegion (off : Nat) (bytes : List Byte) (s : State) : State :=
  let here (l : Nat) : Bool := off / 64 ≤ l && l < (off + bytes.length + 63) / 64
  let s1 := (forEach (List.range 48) (fun k => flushWhere k (fun x => here x.line)) s).storeDram off bytes
  { s1 with dramPoison := s1.dramPoison.filter (fun l => !here l) }

/-- The sample that firmware finishes: its sections laid in the region, its end, its flags and the record that caused entry.
`cut` says that entries of the opaque log are left out for lack of space. -/
def finishSample (cut : Bool) (s : State) (x : Sample) : Sample × List Byte :=
  let (ds, body) := laySections s (s.dbg.csSize * 2 ^ 20)
  let sections := ds.map (fun d =>
    if cut && d.type == 0x0B then { d with omitted := d.omitted + 1 + Config.freeNat (s.free + 1) % 65536 } else d)
  ({ x with
      endTime := s.tal.time
      complete := true
      truncated := sections.any (fun d => d.omitted != 0)
      fault := s.safe.log.find? (fun r => r.ev.cause == Cause.safeState)
      sections := sections },
   body)

/-- The sample is written: its header, directory and sections stand in the region, the QMG records what is outstanding, and
the notice goes out (R395 to R399). -/
def sampleDone (truncated : Bool) (s : State) : State :=
  if s.dbg.csState ≠ .writing then s
  else
    let (y, body) := finishSample truncated s (s.dbg.sample.getD (newSample s.safe.ssCause s))
    let s1 := storeRegion (dramOffset s.dbg.csBase) (y.bytes s.nvm.serial ++ body)
      { s with free := s.free + 2 ^ 36 }
    let s2 := s1.modDbg (fun d => { d with csState := .kept, sample := some y })
    let s3 := if y.truncated then raise .dbg Bit.dbgTruncated s2 else s2
    postNotice 0x07 0 none (recordEverything Cause.safeState s3)

/-- The core sample is complete (R395). -/
def execCoreSampleDone (truncated : Bool) (s : State) : SafeResult := .next (sampleDone truncated s)

end Sys2Proof.Machine
end

