-- ==== Sys2Proof/Machine/Pixels.lean ====
section
/-! DEFINITION. The pre-processing of area frames and of samples, as pure functions: black level, demosaic (R237), colour
conversion (R238), resize (R98, R239), output conversion (R236) and augmentation draws (R247). -/

namespace Sys2Proof.Machine.Pixels

open Sys2Proof Sys2Proof.Machine.Bits Sys2Proof.Machine.Fp

/-- One channel of an image, row by row. -/
abbrev Plane := List (List W32)

/-- The value at row `y` and column `x` of a plane, 0 where there is none. -/
def at2 (p : Plane) (y x : Nat) : W32 := ((p[y]?).bind (·[x]?)).getD 0

/-- Build a plane from a function of row and column. -/
def build (h w : Nat) (f : Nat → Nat → W32) : Plane := (List.range h).map (fun y => (List.range w).map (f y))

/-! ### Black level and line bytes -/

/-- The samples of a line for a depth of 8 bits, else by the packing that the manual leaves open. -/
def samples (depth : Nat) (line : List Byte) : List Nat :=
  if depth = 8 then line.map (·.toNat) else Config.unpack depth line

/-- FP32 of a sample after black-level subtraction. -/
def level (black v : Nat) : W32 := ofInt32 ((v : Int) - black)

/-! ### Demosaic (R237) -/

/-- An index mirrored without repeating the edge: −1 reads 1 and n reads n − 2. -/
def mirror (n : Nat) (i : Int) : Nat :=
  if i < 0 then (min (-i) ((n : Int) - 1)).toNat
  else if (n : Int) ≤ i then ((n : Int) * 2 - 2 - i).toNat
  else i.toNat

/-- The colour of a site: 0 red, 1 green, 2 blue, for patterns 1 RGGB, 2 GRBG, 3 GBRG and 4 BGGR. -/
def siteColour (pat y x : Nat) : Nat :=
  let k := (y % 2) * 2 + x % 2
  let tab : List Nat :=
    if pat = 1 then [0, 1, 1, 2] else if pat = 2 then [1, 0, 2, 1] else if pat = 3 then [1, 2, 0, 1] else [2, 1, 1, 0]
  (tab[k]?).getD 1

/-- The mean of a plane at offsets from a site, the sum in list order. -/
def meanAt (p : Plane) (h w y x : Nat) (offs : List (Int × Int)) : W32 :=
  let vs := offs.map (fun o => at2 p (mirror h (y + o.1)) (mirror w (x + o.2)))
  div32 (vs.foldl add32 0) (ofInt32 (offs.length : Nat))

/-- The four orthogonal neighbours. -/
def orthogonal : List (Int × Int) := [(-1, 0), (0, -1), (0, 1), (1, 0)]
/-- The four diagonal neighbours. -/
def diagonal : List (Int × Int) := [(-1, -1), (-1, 1), (1, -1), (1, 1)]
/-- The two neighbours in the row. -/
def inRow : List (Int × Int) := [(0, -1), (0, 1)]
/-- The two neighbours in the column. -/
def inColumn : List (Int × Int) := [(-1, 0), (1, 0)]

/-- Channel `c` of a site: its own value, or the mean of the neighbours of that colour. -/
def missing (pat : Nat) (p : Plane) (h w c y x : Nat) : W32 :=
  let own := siteColour pat y x
  if own = c then at2 p y x
  else if c = 1 then meanAt p h w y x orthogonal
  else if own = 1 then meanAt p h w y x (if siteColour pat y (x + 1) = c then inRow else inColumn)
  else meanAt p h w y x diagonal

/-- Demosaic to red, green and blue. -/
def demosaic (pat : Nat) (p : Plane) (h w : Nat) : List Plane :=
  [0, 1, 2].map (fun c => build h w (missing pat p h w c))

/-! ### Colour conversion (R238) -/

/-- YUV422: a pair of pixels in four samples, U and V repeated for both. -/
def yuvPlanes (rows : List (List W32)) (h w : Nat) : List Plane :=
  let sample (y x k : Nat) : W32 := at2 rows y (x / 2 * 4 + Config.yuvPos k % 4)
  [build h w (fun y x => sample y x (x % 2)), build h w (fun y x => sample y x 2), build h w (fun y x => sample y x 3)]

/-- One output channel: fused multiply-adds in ascending k, then the offset. -/
def colourOf (m : List W32) (ins : List Plane) (c y x : Nat) : W32 :=
  let acc := ins.zipIdx.foldl (fun a p => fma32 ((m[3 * c + p.2]?).getD 0) (at2 p.1 y x) a) 0
  add32 acc ((m[9 + c]?).getD 0)

/-- Colour conversion of three planes. -/
def colour (m : List W32) (ins : List Plane) (h w : Nat) : List Plane :=
  [0, 1, 2].map (fun c => build h w (colourOf m ins c))

/-! ### Crop-and-resize (R98, R239) -/

/-- FP32 0.5. -/
def half : W32 := 0x3F000000

/-- The sample coordinate of output index `i` of `n` over the interval from `a` to `b`, clamped to 0 and `size` − 1. -/
def samplePoint (a b : W32) (i n size : Nat) : W32 :=
  let t := div32 (mul32 (add32 (ofInt32 (i : Nat)) half) (add32 b (neg32 a))) (ofInt32 (n : Nat))
  let s := add32 (add32 a t) (neg32 half)
  min32 (max32 s 0) (ofInt32 ((size : Int) - 1))

/-- Floor of a sample coordinate. -/
def floor32 (v : W32) : Nat :=
  match dec32 v with
  | .fin neg m e => (floorInt neg m e).toNat
  | _ => 0

/-- The bilinear value of pixels `q` y x, term by term in the order of R98. -/
def bilinearOf (q : Nat → Nat → W32) (h w : Nat) (sy sx : W32) : W32 :=
  let yl := floor32 sy
  let xl := floor32 sx
  let yh := min (yl + 1) (h - 1)
  let xh := min (xl + 1) (w - 1)
  let fy := add32 sy (neg32 (ofInt32 (yl : Nat)))
  let fx := add32 sx (neg32 (ofInt32 (xl : Nat)))
  let gy := add32 one32 (neg32 fy)
  let gx := add32 one32 (neg32 fx)
  let term (u v p : W32) : W32 := mul32 (mul32 u v) p
  add32 (add32 (add32 (term gy gx (q yl xl)) (term gy fx (q yl xh))) (term fy gx (q yh xl))) (term fy fx (q yh xh))

/-- The bilinear value of a plane (R98). -/
def bilinear (p : Plane) (h w : Nat) (sy sx : W32) : W32 := bilinearOf (at2 p) h w sy sx

/-- Crop-and-resize of the box (y0, x0) to (y1, x1) of a plane to `ho` × `wo`. -/
def crop (p : Plane) (h w : Nat) (y0 x0 y1 x1 : W32) (ho wo : Nat) : Plane :=
  build ho wo (fun i j => bilinear p h w (samplePoint y0 y1 i ho h) (samplePoint x0 x1 j wo w))

/-- Resize of the whole image (R239). -/
def resize (p : Plane) (h w ho wo : Nat) : Plane := crop p h w 0 0 (ofInt32 (h : Nat)) (ofInt32 (w : Nat)) ho wo

/-! ### Box lists (R97, R98) -/

/-- A box entry: y0, x0, y1 and x1. -/
def boxOf (e : List Byte) : W32 × W32 × W32 × W32 :=
  let f (k : Nat) : W32 := BitVec.ofNat 32 (field e (4 * k) 4)
  (f 0, f 1, f 2, f 3)

/-- A valid entry: finite coordinates, y0 below y1 and x0 below x1, and not wholly outside an image of `h` × `w`.
DESIGN CHOICE: log entry 81. -/
def boxValid (h w : Nat) (e : List Byte) : Bool :=
  let (y0, x0, y1, x1) := boxOf e
  let lt (a b : W32) : Bool := ltV (dec32 a) (dec32 b)
  !isNonfinite32 y0 && !isNonfinite32 x0 && !isNonfinite32 y1 && !isNonfinite32 x1 && lt y0 y1 && lt x0 x1 &&
    lt 0 y1 && lt 0 x1 && lt y0 (ofInt32 (h : Nat)) && lt x0 (ofInt32 (w : Nat))

/-- The crop of a plane by an entry; an invalid one yields padding, the value 0 (R78).
DESIGN CHOICE: log entry 81. -/
def cropBy (p : Plane) (h w ho wo : Nat) (e : List Byte) : Plane :=
  let (y0, x0, y1, x1) := boxOf e
  if boxValid h w e then crop p h w y0 x0 y1 x1 ho wo else build ho wo (fun _ _ => 0)

/-! ### Output conversion (R110, R236) -/

/-- Codes of the output, pixel by pixel with its channels together: value div scale, converted under R107. -/
def codes (ps : List Plane) (h w : Nat) (f : Fmt) (scale : W32) (zo : Nat) : List Nat :=
  (List.range h).flatMap (fun y => (List.range w).flatMap (fun x => ps.map (fun p => convert32 (div32 (at2 p y x) scale) f zo)))

/-- Bytes of codes: one, two or four little-endian bytes; two 4-bit codes share a byte, the first in its low half. -/
def codeBytes (f : Fmt) : List Nat → List Byte
  | [] => []
  | [c] => if fmtBits f = 4 then toBytes 1 (c % 16) else toBytes (fmtBits f / 8) c
  | c :: d :: cs =>
    if fmtBits f = 4 then toBytes 1 (c % 16 + 16 * (d % 16)) ++ codeBytes f cs
    else toBytes (fmtBits f / 8) c ++ toBytes (fmtBits f / 8) d ++ codeBytes f cs

/-! ### Augmentation (R247) -/

/-- The uniform value of an output word, u = (word >> 8) × 2^−24 (R246). -/
def uniform (w : Nat) : W32 := ofDyadic ((w / 256 : Nat) : Int) (-24)

/-- A crop offset: floor(u × (range + 1)), exactly. -/
def cropOffset (w range : Nat) : Nat := w / 256 * (range + 1) / 2 ^ 24

/-- A value between two bounds: lo + u × (hi − lo), in FP32. -/
def between (lo hi : W32) (w : Nat) : W32 := add32 lo (mul32 (uniform w) (add32 hi (neg32 lo)))

/-- The noise on an element: (2u − 1) × a. -/
def noise (a : W32) (w : Nat) : W32 := mul32 (add32 (mul32 (ofInt32 2) (uniform w)) (neg32 one32)) a

end Sys2Proof.Machine.Pixels
end

