-- ==== Sys2Proof/Machine/Sequencer.lean ====
section
/-! DEFINITION. The stage sequencer (R59 to R65, R83, R92, R279, R280, R282, R283): which unit starts, what the end of a
unit does, re-execution of a tile (R45, R93), overruns, hangs, drains, and the recovery of a FAULTED core (R381, R382). -/

namespace Sys2Proof.Machine

open Sys2Proof Sys2Proof.Machine.Bits

/-- What the commands of a sequencer answer. -/
abbrev SeqResult := Host.Outcome State Fault Refusal

/-! ### Which unit starts (R92, R279, R282) -/

/-- The context of a unit has the budget for it; a context without a budget is not limited (R282).
DESIGN CHOICE: log entry 33. -/
def hasBudget (s : State) (u : UnitInst) : Bool :=
  (s.ctx u.ctx).budget.isNone || u.wcet ≤ (s.ctx u.ctx).budgetLeft

/-- The slot of another stage of the same copy. -/
def slotOfStage (st : Stream) (stage copy : Nat) : Option SlotPlan :=
  st.place.slots.find? (fun p => p.stage == stage && p.copy == copy && !p.record)

/-- A consumer tile of visit index k starts once its producer has pushed each of its tiles up to index k + lag, as far as its
grid goes (R92).
DESIGN CHOICE: log entry 66. -/
def lagMet (s : State) (u : UnitInst) : Bool :=
  match s.stream? u.stream, stageDeclOf s u with
  | some st, some d =>
    if d.mode != .frame || u.stage = 0 || u.record then true
    else
      match slotOfStage st (u.stage - 1) u.copy, s.stageOf st (u.stage - 1), st.item? u.seq with
      | some p, some prod, some it =>
        prod.mode != .frame ||
          (List.range (min (u.tile + d.lag + 1) (prod.cw * prod.ch))).all (fun k => (Tab.get it.tiles [] p.slot.val).contains k)
      | _, _, _ => true
  | _, _ => true

/-- A unit is ready: its inputs are there and its context has the budget (R279). -/
def unitReady (s : State) (u : UnitInst) : Bool := hasBudget s u && lagMet s u

/-- Unit `a` goes before unit `b`: higher priority, earlier deadline, earlier submission (R279). -/
def unitBefore (a b : UnitInst) : Bool :=
  if a.prio ≠ b.prio then b.prio < a.prio
  else if a.deadline ≠ b.deadline then b.deadline = 0 ∨ (a.deadline ≠ 0 ∧ a.deadline < b.deadline)
  else a.order < b.order

/-- The first unit of a list under R279. -/
def firstUnit : List UnitInst → Option UnitInst
  | [] => none
  | u :: us =>
    match firstUnit us with
    | none => some u
    | some v => if unitBefore v u then some v else some u

/-- A core that may start a unit: IDLE, and not stalled on a queue (R59 to R61, R63). -/
def State.mayStart (s : State) (n : Nat) : Bool :=
  let c := s.core n
  c.seq == .idle && c.run.isNone && (s.waitOf n).isNone && !c.drainReq && !(s.hdr (.core n)).isolated && !s.pwr.stopped &&
    c.pool != .retired && c.pool != .fused

/-! ### Accounting (R283) -/

/-- The extended counters of a context run. -/
def Ctx.extended (x : Ctx) : Bool := x.ovf || x.trace

/-- The wait of a unit that starts, and one more passing of every other unit that stayed waiting. -/
def accountStart (u : UnitInst) (others : List UnitInst) (s : State) : State :=
  let wait := s.clock - u.readyAt
  let s1 := s.modCtx u.ctx (fun x =>
    if x.extended then { x with waitNs := (x.waitNs + wait) % 2 ^ 64, maxWait := sat32 (max x.maxWait wait) } else x)
  forEach others (fun v s => s.modCtx v.ctx (fun x => if x.extended then { x with passed := sat32 (x.passed + 1) } else x)) s1

/-- The declared time is charged at the start (R282). -/
def chargeStart (u : UnitInst) (s : State) : State :=
  s.modCtx u.ctx (fun x => if x.budget.isSome then { x with budgetLeft := x.budgetLeft - u.wcet } else x)

/-- At the end the unused part of the charge comes back, never beyond the full budget; an overrun is charged in full
(R280, R282). -/
def chargeEnd (u : UnitInst) (took : Nat) (s : State) : State :=
  let s1 := s.modCtx u.ctx (fun x =>
    match x.budget with
    | none => x
    | some full =>
      { x with budgetLeft := if took ≤ u.wcet then min full (x.budgetLeft + (u.wcet - took)) else x.budgetLeft - (took - u.wcet) })
  if u.wcet < took && (s.ctx u.ctx).budget.isSome then raise .ctl Bit.ctlOverrun s1 else s1

/-! ### The start of a unit -/

/-- The array configuration, the tolerance and the strands that a unit takes (R38, R42, R53, R70, R74).  Its accumulator
entries begin anew. -/
def CoreSt.configure (c : CoreSt) (d : UnitDecl) : CoreSt :=
  let c1 := { c with
    gang := d.gang, pass := 0, fmt := (List.range 4).map (fun a => (a, arrayFmt d a)),
    steps := [], apass := [], rowScale := [], sumk := [],
    strands := min 8192 d.strands, bundles := ceilDiv (min 8192 d.strands) 64 }
  if (List.range 4).any (fun a => fmtFloat (arrayFmt d a)) then { c1 with relShift := d.relShift, absExp := d.absExp } else c1

/-- The first input of a unit whose copy has not reached its arrival target: the unit waits on it (R83, R137). -/
def openInput (s : State) (n : Nat) (u : UnitInst) : Option (Nat × Nat) :=
  (u.inputs.filterMap (fun h =>
    match slotWindow s n h with
    | none => none
    | some (w, pl) =>
      let t := pl.targetAt (s.buffer (ofHandle h).pool (ofHandle h).index).seg (pl.windowCores.idxOf n)
      if ((s.core n).window w).arrived < t then some (w, t) else none)).head?

/-- A core that has come back from a fault with empty line rings flags its first lines (R382): the count begins at the
line that it starts first.
DEDUCED: log entry 34. -/
def CoreSt.ringStart (c : CoreSt) (seq : Nat) : CoreSt :=
  if c.ringFlag = 0 then c else { c with ringUntil := seq + c.ringFlag, ringFlag := 0 }

/-- The line rings of a Strata core rotate at the end of a line: a unit of another line finds the last one in them (R80). -/
def CoreSt.turnRings (c : CoreSt) (seq : Nat) : CoreSt :=
  match c.ringSeq with
  | none => { c with ringSeq := some seq }
  | some q => if q = seq then c else { c with ringSeq := some seq, ringLines := c.ringLines + 1 }

/-- The maximum box count of the layer that a unit runs, when the layer crops by a box list (R97). -/
def boxLimit (s : State) (u : UnitInst) : Option Nat := (layerOf s u).bind (fun l => l.boxes.map (·.1))

/-- The box list that a unit reads, as far as the declared maximum, with its validity mask over the image at the layer's
input, and the number of entries beyond (R97, R98). -/
def takeBoxes (s : State) (boxes : List (List Byte)) (u : UnitInst) : UnitInst :=
  match boxLimit s u, stageDeclOf s u with
  | some most, some d =>
    let h := ceilDiv d.inH (strideY (d.layers.take u.unit))
    let w := ceilDiv d.inW (strideX (d.layers.take u.unit))
    { u with boxes := boxes.take most, boxValid := (boxes.take most).map (Pixels.boxValid h w), beyond := boxes.length - most }
  | _, _ => u

/-- The position of a frame unit's tile in the grid of its stage (R91). -/
def tilePos (s : State) (u : UnitInst) : Nat × Nat :=
  match stageDeclOf s u with
  | none => (0, 0)
  | some d => if d.mode = .frame then ((visitOrder d.cw d.ch)[u.tile]?).getD (0, 0) else (0, 0)

/-- Start unit `u` on core `n`, with the box list that it reads; the units of `block` start with it and are not passed over
(R96, R283). -/
def beginUnit (n : Nat) (boxes : List (List Byte)) (block : List UnitInst) (u : UnitInst) (s : State) : State :=
  let others := (s.core n).ready.filter (fun v => v.order != u.order)
  let passed := others.filter (fun v => unitReady s v && !block.any (fun w => w.order == v.order))
  let s1 := chargeStart u (accountStart u passed s)
  let v := { takeBoxes s boxes u with startAt := s.clock, pos := tilePos s u }
  let s2 := s1.modCore n (fun c =>
    let c1 := (if unitMode s u = .strata then c.turnRings u.seq else c).ringStart u.seq
    let c2 := match unitDeclOf s u with
      | none => c1
      | some d => c1.configure d
    { c2 with
      seq := .run, ready := others,
      run := some (if u.seq < c1.ringUntil then v.flag Cause.faultStop else v) })
  match openInput s2 n u with
  | some (w, t) => beginWait n (.window w t) s2
  | none => s2

/-- Entries beyond the declared maximum flag the unit with the box-overflow cause (R98); their number stands with the unit, for
the header of its output.
DESIGN CHOICE: log entry 81. -/
def checkBoxes (n : Nat) (u : UnitInst) (count : Nat) (s : State) : State :=
  match boxLimit s u with
  | none => s
  | some most => if most < count then flagUnit n Cause.boxOverflow (checkEvent n (some u) Cause.boxOverflow s) else s

/-! ### Batching (R96) -/

/-- BATCH_WAIT of a layer of the unit's stage, when it runs transposed. -/
def batchWaitOf (d : StageDecl) (unit : Nat) : Option Nat := (d.layers[unit]?).bind (·.batchWait)

/-- The stage and BATCH_WAIT of a unit that the batcher starts: one of a transposed layer that declares it.  Strata units never
batch (R96). -/
def batched (s : State) (u : UnitInst) : Option (StageDecl × Nat) :=
  (stageDeclOf s u).bind (fun d => if d.mode = .frame then (batchWaitOf d u.unit).map (fun w => (d, w)) else none)

/-- The units of one layer and one partition that are ready and wait for the batcher on a core (R92, R96, R279). -/
def batchOf (s : State) (n : Nat) (u : UnitInst) : List UnitInst :=
  ((s.core n).ready.filter (unitReady s)).filter (fun v =>
    v.stage == u.stage && v.unit == u.unit && v.part == u.part && v.slot == u.slot)

/-- Columns that each unit of a transposed layer brings: its activation rows (R95, R96). -/
def columnsOf (d : StageDecl) (unit : Nat) : Nat := max 1 ((d.layers[unit]?.map (·.rowsM)).getD 1)

/-- The block starts: 32 columns, BATCH_WAIT of the oldest, or the latest start of a waiting job (R96). -/
def batchDue (s : State) (d : StageDecl) (wait m : Nat) (us : List UnitInst) : Bool :=
  32 ≤ us.length * m || us.any (fun v => v.readyAt + wait ≤ s.clock) ||
    us.any (fun v => v.deadline != 0 && v.deadline ≤ s.tal.time + v.wcet + d.downstream)

/-- A unit of core `n` may start: it is ready, and the block of a batched one is due (R96, R279). -/
def startable (s : State) (n : Nat) (u : UnitInst) : Bool :=
  unitReady s u && (batched s u).all (fun p => batchDue s p.1 p.2 (columnsOf p.1 u.unit) (batchOf s n u))

/-- Units join a block as far as their contexts have the budget, each charged and accounted for as it starts (R282, R283). -/
def joinBlock : List UnitInst → State → List UnitInst × State
  | [], s => ([], s)
  | v :: vs, s =>
    if hasBudget s v then
      let r := joinBlock vs (chargeStart v (accountStart v [] s))
      (v :: r.1, r.2)
    else joinBlock vs s

/-- Start the block: the first unit runs, and as many others as fit into 32 columns wait as its further columns.
DESIGN CHOICE: log entry 67. -/
def startBlock (n m : Nat) (u : UnitInst) (us : List UnitInst) (s : State) : State :=
  let rest := (us.filter (fun v => v.order != u.order)).take (32 / m - 1)
  let (joined, s1) := joinBlock rest (beginUnit n [] rest u s)
  let inBlock (v : UnitInst) : Bool := joined.any (fun w => w.order == v.order)
  s1.modCore n (fun c => { c with ready := c.ready.map (fun v => if inBlock v then { v with joined := true } else v) })

/-- Start unit `u` of core `n`: alone, or with the block that it heads. -/
def launch (n : Nat) (boxes : List (List Byte)) (u : UnitInst) (s : State) : State :=
  match batched s u with
  | none => checkBoxes n u boxes.length (beginUnit n boxes [] u s)
  | some (d, _) => startBlock n (columnsOf d u.unit) u (batchOf s n u) s

/-- A UNIT_START (R279), with the box list that the unit reads: the first unit that may start does (R96). -/
def startUnit (n : Nat) (boxes : List (List Byte)) (s : State) : State :=
  if s.mayStart n then
    match firstUnit ((s.core n).ready.filter (startable s n)) with
    | none => s
    | some u => launch n boxes u s
  else s

/-- A core starts its next unit (R279). -/
def execUnitStart (core : CoreNum) (boxes : List (List Byte)) (s : State) : SeqResult :=
  .next (startUnit core.val boxes s)

/-! ### Re-execution of a tile (R45, R93) -/

/-- The deadline of the frame that a unit works on. -/
def frameDeadline (s : State) (u : UnitInst) : Nat :=
  if u.deadline ≠ 0 then u.deadline
  else
    match s.stream? u.stream with
    | none => 0
    | some st => (((st.item? u.seq).map (·.stamp)).getD 0) + st.decl.deadline

/-- Cores of the stage group of a unit. -/
def groupSize (s : State) (u : UnitInst) : Nat :=
  (((s.stream? u.stream).bind (fun st => st.place.slots.find? (fun p => p.slot.val == u.slot))).map (·.cores.length)).getD 1

/-- The slack condition of R93: the core's tiles of the frame not yet started are those after the unit's own at its place in
the stage group (R91). -/
def hasSlack (s : State) (u : UnitInst) : Bool :=
  match stageDeclOf s u with
  | none => false
  | some d =>
    let left := (d.cw * d.ch - (u.tile + 1)) / max 1 (groupSize s u)
    s.tal.time + (d.tileTime + left * d.tileTime + d.downstream) < frameDeadline s u

/-- A cause that a clean re-execution corrects. -/
def abftCause (c : Nat) : Bool := c == Cause.abft || c == Cause.accCheck

/-- Reload a weight set of core `n` from the resident region, with its checksum column (R45). -/
def reloadSet (n : CoreNum) (u : UnitInst) (e : Nat × WeightSet) (s : State) : State :=
  if (s.core n.val).run.isNone then s
  else
    let c := (s.core n.val).drain
    let v := { u with unit := e.2.unit }
    let d := (unitDeclOf s v).getD { wcet := 0 }
    let (w, reads) := formSet c d (layerOf s v) (arrayFmt d (e.1 / 2)) e.2.base e.2.block (e.1 % 2 == 1) e.2.third u.slot e.2.unit
    let (stopped, s1) := readRanges n reads .clean 0 s
    if stopped then s1 else s1.modCore n.val (fun c => { c with wsets := Tab.insert c.wsets e.1 w })

/-- The tile runs again on the same core from its first unit, after every weight set that its stage has loaded is loaded anew
(R45); the output buffers that it held go back.
DESIGN CHOICE: log entry 108. -/
def rerunTile (n : CoreNum) (u : UnitInst) (s : State) : State :=
  let took := s.clock - u.startAt
  let first := unitDeclOf s { u with unit := 0 }
  let v := { u with
    unit := 0, wcet := (first.map (·.wcet)).getD u.wcet, outputs := [],
    rerun := 1, abft := false, overrun := false, retry := u.owed, owed := 0, startAt := s.clock,
    causes := u.causes.filter (fun c => !abftCause c) ++ (u.causes.filter abftCause).map Cause.corrected }
  let s1 := (forEach (u.outputs.map (·.2)) forceFree s).modCore n.val (fun c =>
    let c1 := { c.dropAcc with run := some v, pass := 0 }
    match first with
    | none => c1
    | some d => c1.configure d)
  chargeStart v (chargeEnd u took
    (forEach (((s.core n.val).wsets).filter (fun e => e.2.slot == u.slot)) (reloadSet n v) s1))

/-- The tile of a unit that ends is to run again: it carried an ABFT event, it has not run twice, and there is slack. -/
def mustRerun (s : State) (u : UnitInst) : Bool :=
  unitMode s u == .frame && u.owed != 0 && u.rerun == 0 && hasSlack s u

/-! ### The end of a unit (R59, R174, R177) -/

/-- Push the outputs of a unit one after the other, each with the check value and the length of its payload (R19, R174); one
that must wait stays with the unit.  A refused push changes nothing: the unit keeps that output, behind the others (R182).
`fuel` is their number.
DESIGN CHOICE: log entry 100. -/
def pushAll : (fuel : Nat) → CoreNum → List Byte → State → State
  | 0, _, _, s => s
  | fuel + 1, n, payload, s =>
    match (s.core n.val).run with
    | none => s
    | some u =>
      match u.outputs with
      | [] => s
      | (q, h) :: rest =>
        let s1 := checkOutput (some payload) h (stampOutput u h s)
        let k := outHandle s1 u h
        let keep (os : List (Nat × W64)) (s : State) : State :=
          s.modCore n.val (fun c => { c with run := c.run.map (fun v => { v with outputs := os }) })
        match pushTurn .clean (.core n) q k s1 with
        | (.waits, s2) => s2
        | (.refused, _) => pushAll fuel n payload (keep (rest ++ [(q, h)]) (pushTurn .clean (.core n) q k s).2)
        | (.done, s2) => pushAll fuel n payload (keep rest s2)

/-- Return the inputs of a unit one after the other (R179); one that must wait stays with the unit (R184), and one that is
refused goes with the unit that ends.  `fuel` is their number. -/
def returnAll : (fuel : Nat) → CoreNum → State → State
  | 0, _, s => s
  | fuel + 1, n, s =>
    match (s.core n.val).run.bind (·.inputs.head?) with
    | none => s
    | some h =>
      match returnTurn (.core n) h s with
      | (.waits, s1) => s1
      | (_, s1) => returnAll fuel n (s1.modCore n.val (fun c => { c with run := c.run.map (fun v => { v with inputs := v.inputs.drop 1 }) }))

/-- The next unit of the same stage, which takes over the inputs and what has been detected in the work so far (R44, R45). -/
def nextUnit (s : State) (u : UnitInst) : Option UnitInst :=
  ((stageDeclOf s u).bind (fun d => d.units[u.unit + 1]?)).map (fun d =>
    { u with unit := u.unit + 1, wcet := d.wcet, readyAt := s.clock, outputs := [], overrun := false })

/-- The output of a copy's record unit, for the signature that its record core presents (R87, R305): of a copy the last 8.
DESIGN CHOICE: log entry 126. -/
def showOutput (u : UnitInst) (payload : List Byte) (s : State) : State :=
  let mine (x : Shown) : Bool := x.stream == u.stream && x.copy == u.copy
  let held := s.qmg.shown.filter (fun x => mine x && x.seq != u.seq)
  s.modQmg (fun m =>
    { m with shown := m.shown.filter (fun x => !mine x) ++ held.drop (held.length - 7) ++
        [{ stream := u.stream, copy := u.copy, seq := u.seq, causes := u.causes, payload := payload }] })

/-- The record of an item whose record unit ends, outside TRIPLEX: own flags, invalidations and placement epoch (R299); of a copy
its output, for the vote.
An output that arrives after the record is discarded and counted (R310). -/
def endRecord (u : UnitInst) (payload : List Byte) (s : State) : State :=
  match s.stream? u.stream with
  | none => s
  | some st =>
    if !u.record || !u.last then s
    else if st.cls = .triplex then showOutput u payload s
    else if (st.item? u.seq).isSome then formRecord u.stream u.seq (u.causes ++ itemFlags u.stream u.seq s) [] payload s
    else s.modStream u.stream (fun st => { st with lateOutputs := st.lateOutputs + 1 })

/-- What the end of a unit of an adaptation job says of its place in the job: a micro-batch or the optimiser step has ended with the
last of its units (R122).  Of a held job nothing moves (R123).
DESIGN CHOICE: log entry 123. -/
def noteStep (u : UnitInst) (s : State) : State :=
  match unitDeclOf s u with
  | none => s
  | some d =>
    if !u.last || !(d.endsMicro || d.endsStep) then s
    else
      s.modStream u.stream (fun st => { st with jobs := st.jobs.map (fun j =>
        if j.epoch = u.epoch ∧ j.adapt = true ∧ j.held = none then
          if d.endsStep then { j with step := (j.step + 1) % 2 ^ 32, micro := 0 } else { j with micro := (j.micro + 1) % 2 ^ 16 }
        else j) })

/-- The bytes of a unit's output: what its program has left of it in the working region, where the image says where that lies, so
that what a copy presents is what it has computed (R31); else the payload that the command gives.
DESIGN CHOICE: log entry 125. -/
def outputBytes (s : State) (n : Nat) (u : UnitInst) (payload : List Byte) : List Byte :=
  match (unitDeclOf s u).bind (·.outAt) with
  | none => payload
  | some (w, len) =>
    let c := (s.core n).drain
    ((List.range (ceilDiv len 4)).flatMap (fun k => toBytes 4 (Tab.get c.sp 0 (c.workBase + w + k)).toNat)).take len

/-- Timers of the core (R67).
DESIGN CHOICE: log entry 59. -/
def CoreSt.timed (c : CoreSt) (took : Nat) : CoreSt :=
  { c with unitLast := sat32 took, unitMax := max c.unitMax (sat32 took) }

/-- The unit leaves core `n`: the core is IDLE, and a retired core closes its windows (R60, R135). -/
def CoreSt.leave (c : CoreSt) : CoreSt :=
  let c1 := { c with run := none, seq := .idle, strands := 0, bundles := 0, pass := 0 }
  if c.pool = .retired then c1.closeAll else c1

/-- The unit gives the core up: the next unit of its block runs on, on what the block has configured, and ends in its turn,
with what flagged the block (R96); else the core is IDLE.  The units of a block have started together, so that a drain
request lets them all finish (R63).
DESIGN CHOICE: log entry 67. -/
def CoreSt.handOn (c : CoreSt) (u : UnitInst) : CoreSt :=
  match c.ready.find? (·.joined) with
  | none => c.leave
  | some v =>
    { c with
      seq := c.afterWait, ready := c.ready.filter (fun x => x.order != v.order),
      run := some { u.causes.foldl UnitInst.flag v with joined := false, startAt := u.startAt } }

/-- Units that have become ready between `s` and `t` count their wait from now (R279, R283). -/
def stampReady (s t : State) : State :=
  { t with cores := t.cores.map (fun e => (e.1, { e.2 with
      ready := e.2.ready.map (fun u => if unitReady t u && !unitReady s u then { u with readyAt := t.clock } else u) })) }

/-- What remains once every output of unit `u` has been pushed and its inputs have gone back.
DESIGN CHOICE: log entry 59. -/
def finishUnit (n : CoreNum) (u : UnitInst) (payload : List Byte) (s : State) : State :=
  let took := s.clock - u.startAt
  let s2 := noteStep u ((chargeEnd u took s).modCore n.val (fun c => c.timed took))
  let leaving (next : List UnitInst) (s : State) : State :=
    s.modCore n.val (fun c => ({ c with ready := next ++ c.ready } : CoreSt).handOn u)
  match nextUnit s u with
  | some v => stampReady s (leaving [v] s2)
  | none =>
    stampReady s (leaving [] (endRecord u payload (notePushed u (reportOwed n.val u (u.retry != 0 && !u.abft) s2))))

/-- The outputs and the inputs of a unit that ends go. -/
def handOver (n : CoreNum) (u : UnitInst) (payload : List Byte) (s : State) : State :=
  let s1 := pushAll u.outputs.length n payload s
  if (s1.waitOf n.val).isSome || (nextUnit s u).isSome then s1 else returnAll u.inputs.length n s1

/-- A unit may end: the verdicts on its rows and its input are in, its writes have completed, and a Strata unit has written a piece
after the last verdict (R87, R149, R460). -/
def mayEnd (s : State) (n : Nat) (u : UnitInst) : Bool :=
  verdictIn s u && inputVerdicts s n u && u.outputs.all (fun o => writesDone s n o.1) && (u.ahead.isEmpty || !u.owesPiece)

/-- A UNIT_COMPLETE on core `n`: a tile may run again; else the outputs and inputs go, and when all have gone the unit ends. -/
def completeUnit (n : CoreNum) (payload : List Byte) (s : State) : State :=
  match (s.core n.val).run with
  | none => s
  | some u =>
    if !((s.core n.val).seq == .run || (s.core n.val).seq == .drain) || s.pwr.stopped || (s.waitOf n.val).isSome then s
    else if mustRerun s u then rerunTile n u s
    else if !mayEnd s n.val u then s
    else
      let out := outputBytes s n.val u payload
      let s1 := handOver n u out s
      match (s1.core n.val).run with
      | none => s1
      | some v => if (s1.waitOf n.val).isNone then finishUnit n v out s1 else s1

/-- A unit ends (R59). -/
def execUnitComplete (core : CoreNum) (payload : List Byte) (s : State) : SeqResult :=
  .next (settle (completeUnit core payload s))

/-! ### Overruns, hangs and drains -/

/-- A unit has run longer than declared: the bit, the report and, on a safety stream, the invalidation of the item; a copy
of a TRIPLEX stream is outvoted for it (R62, R311).
DESIGN CHOICE: log entry 59. -/
def overrunUnit (n : Nat) (s : State) : State :=
  match (s.core n).run with
  | none => s
  | some u =>
    if u.overrun || s.clock ≤ u.startAt + u.wcet then s
    else
      let s1 := raiseAt (.core n) Bit.coreOverrun 0 (some (u.ctx, u.part))
        (s.modCore n (fun c => { c with run := c.run.map (fun u => { u with overrun := true }) }))
      let s2 := report (unitEv n u Cause.unitOverrun Bit.coreOverrun) s1
      match s.stream? u.stream with
      | none => s2
      | some st =>
        if !isSafety st.cls then s2
        else
          let s3 := sendInval { target := .stream u.stream, scope := .item u.seq, cause := Cause.unitOverrun } s2
          if st.cls = .triplex then markOutvoted u.stream u.seq u.copy Cause.unitOverrun s3 else s3

/-- A unit overruns (R62). -/
def execUnitOverrun (core : CoreNum) (s : State) : SeqResult := .next (overrunUnit core.val s)

/-- A unit is hung (R381): twice its declared time plus 100 µs, or DBG_HANG_WAIT in WAIT on a stage that no monitor
watches.
DESIGN CHOICE: log entry 60. -/
def isHung (s : State) (n : Nat) (u : UnitInst) : Bool :=
  let c := s.core n
  let busy := c.seq == .run || c.seq == .wait || c.seq == .drain
  (busy && u.startAt + 2 * u.wcet + 100000 < s.clock) ||
    (c.seq == .wait && !((s.stream? u.stream).any (fun st => isSafety st.cls)) &&
      c.waitAt + s.dbg.hangWait * 1000000 < s.clock)

/-- A core with no unit has stalled on a queue for longer than DBG_HANG_WAIT, and no monitor watches its stage (R61, R381).
DEDUCED: log entry 99. -/
def stallHung (s : State) (n : Nat) : Bool :=
  (s.waitOf n).isSome && !s.safetyOn n && (s.core n).waitAt + s.dbg.hangWait * 1000000 < s.clock

/-- Firmware stops a hung unit as a fault stop: detail 0xFF, reason 1 for a wait and 2 for a run (R381).
DESIGN CHOICE: log entry 60. -/
def hangStop (n : CoreNum) (s : State) : State :=
  match (s.core n.val).run with
  | none => if stallHung s n.val then raise .dbg Bit.dbgHang (faultStop n Cause.faultStop 0xFF 1 false s) else s
  | some u =>
    if isHung s n.val u then
      raise .dbg Bit.dbgHang
        (faultStop n Cause.faultStop 0xFF (if (s.waitOf n.val).isSome then 1 else 2) false s)
    else s

/-- Firmware stops a hung unit (R381). -/
def execHangStop (core : CoreNum) (s : State) : SeqResult := .next (settle (hangStop core s))

/-- Lode asks a core to drain: it starts no further unit, and a running unit finishes in DRAIN (R60, R63). -/
def drain (n : Nat) (s : State) : State :=
  s.modCore n (fun c => { c with drainReq := true, seq := if c.seq = .run then .drain else c.seq })

/-- A drain request (R63). -/
def execDrainRequest (core : CoreNum) (s : State) : SeqResult := .next (drain core.val s)

/-- A wait on an arrival counter ends once the count is reached (R137). -/
def windowReached (n : Nat) (s : State) : State :=
  match s.waitOf n with
  | some (.window w t) => if t ≤ ((s.core n).window w).arrived then endWait n (.window w t) s else s
  | _ => s

/-- A wait on a window ends (R137). -/
def execWindowWaitEnd (core : CoreNum) (s : State) : SeqResult := .next (windowReached core.val s)

/-! ### A FAULTED core (R382) -/

/-- Target of a link for a line and a segment or visit index (R186, R188). -/
def Link.targetOf (l : Link) (seg : Nat) : Nat :=
  match l.steer with
  | .single => 0
  | _ => seg % max 1 l.targets

/-- Pool and queue of a link's target. -/
def Link.ends (l : Link) (seg : Nat) : Nat × Nat :=
  let t := l.targetOf seg
  (if l.perTarget then l.firstPool + t else l.firstPool, l.firstQueue + t)

/-- The resident regions of a core are read anew from the stage images, poisoned words with them (R144, R382); the row of an uncorrectable
error stays due for repair (R143). -/
def CoreSt.reloadResident (c : CoreSt) : CoreSt :=
  { c.regions.foldl CoreSt.loadRegion c with reloadDue := false }

/-- The working region is discarded (R382). -/
def CoreSt.dropWorking (c : CoreSt) : CoreSt :=
  let inside (w : Nat) : Bool := c.workBase ≤ w && w < c.workEnd
  { c with sp := c.sp.filter (fun e => !inside e.1), spPoison := c.spPoison.filter (fun w => !inside w) }

/-- The stop calls for a reload of the resident region (R144, R382). -/
def CoreSt.wantsReload (c : CoreSt) : Bool :=
  c.faultCause == Cause.strandFault || c.faultCause == Cause.memPoison || !c.badWords.isEmpty || c.reloadDue

/-- The deepest ring of the Strata stage that a core hosts, 0 on any other core. -/
def deepestRing (s : State) (n : Nat) : Nat :=
  s.streams.foldl (fun a e =>
    (e.2.place.slots.filter (fun p => p.cores.any (fun c => c.val == n))).foldl (fun a p =>
      match s.stageOf e.2 p.stage with
      | none => a
      | some d => if d.mode = .strata then max a ((d.layers.map (·.ring)).foldl max 0) else a) a) 0

/-- Firmware recovers a FAULTED core: its working region is discarded, the resident region reloaded where that is due, one
self-test slice, and IDLE; a failing slice is a
permanent fault and the core does not return.  A Strata core returns with empty rings.
DESIGN CHOICE: log entry 12. -/
def recoverCore (n : Nat) (pass : Bool) (s : State) : State :=
  let c := s.core n
  if c.seq ≠ .faulted then s
  else
    let s1 := s.modCore n (fun c => if c.wantsReload then c.dropWorking.reloadResident else c.dropWorking)
    if pass then
      s1.modCore n (fun c => { c.emptyRings with seq := .idle, faultCause := 0, ringFlag := deepestRing s n, ringUntil := 0 })
    else
      report { unit := n, cause := Config.freeNat s1.free % 256, permanent := true } { s1 with free := s1.free + 1 }

/-- Recovery of a FAULTED core (R382). -/
def execCoreRecovery (core : CoreNum) (slicePass : Bool) (s : State) : SeqResult := .next (recoverCore core.val slicePass s)

end Sys2Proof.Machine
end

