-- ==== Sys2Proof/Machine/Queues.lean ====
section
/-! DEFINITION. The queue manager's operations as commands (R177 to R191), waits that end (R184), the recovery of faulted
queues and lost buffers (R383, R384), the batcher (R96), budgets (R282) and the items of a FAULTED core (R382). -/

namespace Sys2Proof.Machine

open Sys2Proof Sys2Proof.Machine.Bits

/-- What the commands of the queue manager answer. -/
abbrev QueueResult := Host.Outcome State Fault Refusal

/-- An operation that reads pool, link or fan-out entries: an uncorrectable error of one is a fatal device error (R389). -/
def withTable (table : Upset) (s t : State) : State := if table = .uncorrectable then fatalError Fatal.qmgTable s else t

/-! ### Allocation (R177, R186, R188) -/

/-- Give the allocated handle to the requester: a core's unit holds it, the others receive it. -/
def giveHandle (a : Agent) (q : Option Nat) (h : W64) (s : State) : State :=
  let s1 := match a with
    | .core c => holdOutput c.val q h s
    | _ => s
  s1.emit (.handle (agentUnit a) h)

/-- A requester that finds no free buffer: a core waits, ING and the others do not (R177). -/
def waitAlloc (a : Agent) (via : AllocVia) (s : State) : State :=
  match a with
  | .core c => if (s.waitOf c.val) = some (.alloc via) then s else beginWait c.val (.alloc via) s
  | _ => s

/-- What an allocation from pool `p` meets. -/
inductive AllocStep where
  | got (h : W64) (s : State)
  | wait (s : State)
  | ended (s : State)

/-- The checks of an allocation from pool `p` by requester `a` (R178, R182, R185); one that passes them goes on with `take`.
DESIGN CHOICE: log entry 63. -/
def allocGate (a : Agent) (p : Nat) (take : PoolSt → State → AllocStep) (s0 : State) : AllocStep :=
  match s0.pool? p with
  | none => .ended (refuseOp a none s0)
  | some pl =>
    let (ok, s) := readDescriptor pl.freeQueue .clean s0
    if !ok then .ended (refuseOp a none s)
    else
      let q := s.queue pl.freeQueue
      match queueVerdict s q (agentPart s a q.part) with
      | .cancelled => .ended s
      | .refuse bit => .ended (refuseOp a bit s)
      | .wait => .wait s
      | .accept => take pl s

/-- Take a buffer of pool `p` for requester `a` and segment or visit index `seg` (R177, R182). -/
def allocFrom (a : Agent) (p seg : Nat) (s0 : State) : AllocStep :=
  allocGate a p (fun pl s =>
    match takeFree p pl seg s with
    | some (h, s1) => .got h s1
    | none => .wait s) s0

/-- A Strata handle that goes ahead of its data carries LAST and no flag (R83, R174). -/
def aheadHandle (s : State) (a : Agent) (h : W64) : W64 :=
  match a with
  | .core c =>
    match (s.core c.val).run with
    | none => h
    | some u => ({ ofHandle h with last := u.last } : Handle).toWord
  | _ => h

/-- The metadata of a Strata slot: sequence number, stamp and stream of the producing unit; byte 22 stays 0 (R174). -/
def stampAhead (a : Agent) (h : W64) (s : State) : State :=
  match a with
  | .core c =>
    match (s.core c.val).run with
    | none => s
    | some u => stampOutput { u with causes := [] } h s
  | _ => s

/-- The last 8 line and segment pairs of a link (R188). -/
def noteRecent (l line seg : Nat) (h : W64) (s : State) : State :=
  s.modQmg (fun m => { m with
    links := Tab.modify m.links l (fun x => { x with recent := ((line, seg, h) :: x.recent).take 8 }) })

/-- A pair older than the eight that the QMG keeps: a malformed unit program (R188).  The pairs of a link outlive CANCEL, ARM_STREAM
and REARM.
DESIGN CHOICE: log entry 128. -/
def staleRequest (x : Link) (line seg : Nat) : Bool :=
  8 ≤ x.recent.length && x.recent.all (fun r => line < r.1 || (line == r.1 && seg < r.2.1))

/-- A core pushes a Strata handle ahead of its data; ING's goes once its pieces have their check values (R83, R188). -/
def pushAhead (a : Agent) (q : Nat) (h : W64) (s : State) : State :=
  match a with
  | .core _ => push a q h s
  | _ => s

/-- A request of a Strata link (R188): the first for a line and segment allocates and pushes, the others receive the same
handle, under the checks of an allocation (R178, R182). -/
def allocStrata (a : Agent) (l : Nat) (x : Link) (line seg : Nat) (s : State) : State :=
  let (p, q) := x.ends seg
  let step := match x.recent.find? (fun r => r.1 == line && r.2.1 == seg) with
    | some r => allocGate a p (fun _ s => .ended (giveHandle a none r.2.2 s)) s
    | none =>
      if staleRequest x line seg then
        .ended (match a with
          | .core c => seqIllegal c s
          | _ => s)
      else allocFrom a p seg s
  match step with
  | .ended s1 => s1
  | .wait s1 => waitAlloc a (.link l line seg) s1
  | .got h s1 =>
    let s2 := noteRecent l line seg h (stampAhead a h s1)
    pushAhead a q (aheadHandle s2 a h) (giveHandle a none h s2)

/-- A request of a frame link (R188): the producer writes before it pushes. -/
def allocFrame (a : Agent) (l : Nat) (x : Link) (line seg : Nat) (s : State) : State :=
  let (p, q) := x.ends seg
  match allocFrom a p seg s with
  | .ended s1 => s1
  | .wait s1 => waitAlloc a (.link l line seg) s1
  | .got h s1 => giveHandle a (some q) h s1

/-- An allocation (R177, R188).  A core that names a link that does not exist runs a malformed program. -/
def allocate (a : Agent) (via : AllocVia) (s : State) : State :=
  match via with
  | .pool p =>
    match allocFrom a p 0 s with
    | .ended s1 => s1
    | .wait s1 => waitAlloc a via s1
    | .got h s1 => giveHandle a (queueOfPool s1 p) h s1
  | .link l line seg =>
    match Tab.find s.qmg.links l with
    | none =>
      match a with
      | .core c => seqIllegal c s
      | _ => s
    | some x =>
      if ((s.pool? (x.ends seg).1).map (·.kind)) = some 1 then allocStrata a l x line seg s else allocFrame a l x line seg s

/-- A core that is already waiting asks for nothing more, and no request of one that is cut off arrives (R29). -/
def agentWaits (s : State) (a : Agent) : Bool :=
  match a with
  | .core c => (s.waitOf c.val).isSome || s.unreachable c.val
  | _ => false

/-- An ALLOCATE (R177). -/
def execAllocate (agent : Agent) (via : AllocVia) (table : Upset) (s : State) : QueueResult :=
  .next (settle (if agentWaits s agent then s else withTable table s (allocate agent via s)))

/-! ### Pushes, pops and returns -/

/-- A handle may enter a vein: its buffer has a check value (R19).  A Strata slot's pieces carry theirs: a core's handle goes
ahead of them, and that of a stage-A slot enters once all of them have been written (R82, R83). -/
def checkedPush (s : State) (a : Agent) (h : W64) : Bool :=
  let x := ofHandle h
  if x.kind = 1 then
    (match a with
      | .core _ => true
      | _ => (s.pool? x.pool).all (fun pl => slotFilled pl x.index s))
  else (s.buffer x.pool x.index).checked

/-- The stream engine stores the check value of an output that has none yet (R174). -/
def checkHeld (a : Agent) (h : W64) (s : State) : State := if checkedPush s a h then s else checkOutput none h s

/-- A push of a buffer without a check value does not enter the vein (R19); one that the QMG refuses is refused all the same. -/
def pushChecked (u : Upset) (a : Agent) (n : Nat) (h : W64) (s : State) : State :=
  let r := pushTurn u a n h s
  if r.1 = .refused || checkedPush s a h then r.2 else s

/-- A unit gives up an output that its push has taken. -/
def dropOutput (n : Nat) (h : W64) (s : State) : State :=
  s.modCore n (fun k => { k with run := k.run.map (fun v => { v with outputs := v.outputs.filter (fun o => o.2 != h) }) })

/-- A core may push what its unit holds: the verdicts that contribute to it are in, and so are the completions of its writes (R87,
R149). -/
def mayPush (s : State) (c n : Nat) (v : UnitInst) (h : W64) : Bool :=
  verdictIn s v && ((ofHandle h).kind == 1 || (inputVerdicts s c v && writesDone s c n))

/-- A core pushes what its unit holds: its stream engine has stored the check value, the handle carries the unit's flags, and
the unit holds it no longer once it is accepted (R19, R174).  A refused push changes nothing (R182). -/
def pushHeld (u : Upset) (c : CoreNum) (n : Nat) (h : W64) (s : State) : State :=
  match (s.core c.val).run with
  | none => pushChecked u (.core c) n h s
  | some v =>
    if !mayPush s c.val n v h then s
    else
      let s1 := checkHeld (.core c) h (stampOutput v h s)
      let k := outHandle s1 v h
      match pushTurn u (.core c) n k s1 with
      | (.refused, _) => (pushTurn u (.core c) n k s).2
      | (.waits, s2) => s2
      | (.done, s2) => dropOutput c.val h s2

/-- A push as a command (R183). -/
def pushNow (u : Upset) (a : Agent) (n : Nat) (h : W64) (s : State) : State :=
  match a with
  | .core c => pushHeld u c n h s
  | _ => pushChecked u a n h s

/-- A QUEUE_PUSH (R183). -/
def execQueuePush (agent : Agent) (queue : QueueNum) (handle : W64) (desc table : Upset) (s : State) : QueueResult :=
  .next (settle (if agentWaits s agent then s else withTable table s (pushNow desc agent queue.val handle s)))

/-- A stream engine holds at most 4 handles beyond the one its unit reads (R92, R191). -/
def runAheadFull (s : State) (n : Nat) : Bool :=
  (if (s.core n).run.isSome then 4 else 5) ≤ (s.core n).ready.length

/-- A QUEUE_POP (R184). -/
def execQueuePop (core : CoreNum) (queue : QueueNum) (desc table : Upset) (s : State) : QueueResult :=
  .next (settle (if agentWaits s (.core core) || runAheadFull s core.val then s
    else withTable table s (pop core queue.val desc s)))

/-- A unit holds an input no longer. -/
def dropInput (n : Nat) (h : W64) (s : State) : State :=
  s.modCore n (fun c => { c with run := c.run.map (fun u => { u with inputs := u.inputs.filter (· != h) }) })

/-- Core `c` returns a handle: accepted, its unit holds it no longer; one that waits or is refused changes nothing (R179, R182,
R184). -/
def coreReturn (c : CoreNum) (h : W64) (s : State) : State :=
  match returnTurn (.core c) h s with
  | (.done, s1) => dropInput c.val h s1
  | (_, s1) => s1

/-- A BUFFER_RETURN (R179). -/
def execBufferReturn (core : CoreNum) (handle : W64) (s : State) : QueueResult :=
  .next (settle (if agentWaits s (.core core) then s else coreReturn core handle s))

/-! ### Waits that end (R184) -/

/-- A waiting pop proceeds: it takes an entry, or leaves its credit with a queue that is ARMED again; one of a foreign partition
is refused then (R182).  A queue that has turned FAULTED ends no wait (R184). -/
def popResumes (c : CoreNum) (n : Nat) (s : State) : State :=
  let q := s.queue n
  match queueVerdict s q (agentPart s (.core c) q.part) with
  | .cancelled => endWait c.val (.pop n) s
  | .refuse (some bit) => refuseOp (.core c) (some bit) (endWait c.val (.pop n) s)
  | .refuse none => s
  | .wait => s
  | .accept =>
    match takeEntry c.val q.entries with
    | some (h, es) =>
      let left := q.entries.length - es.length
      deliver c.val n q h (endWait c.val (.pop n) (s.modQueue n (fun q =>
        { q with entries := es, head := (q.head + left) % 2 ^ 19, credits := dropAll q.credits c.val })))
    | none => s.modQueue n (fun q => { q with credits := addOnce q.credits c.val })

/-- The unit gives up the output in the buffer behind `h`. -/
def dropPushed (c : Nat) (h : W64) (s : State) : State :=
  s.modCore c (fun k => { k with run := k.run.map (fun v =>
    { v with outputs := v.outputs.filter (fun o =>
        (ofHandle o.2).pool != (ofHandle h).pool || (ofHandle o.2).index != (ofHandle h).index) }) })

/-- A waiting push proceeds once the queue is ARMED and has room, under the checks of any push (R178, R182). -/
def pushResumes (c : CoreNum) (n : Nat) (h : W64) (s : State) : State :=
  let q := s.queue n
  let ended := endWait c.val (.push n h) s
  match queueVerdict s q (agentPart s (.core c) q.part) with
  | .cancelled => ended
  | .refuse (some bit) => refuseOp (.core c) (some bit) ended
  | .refuse none => s
  | .wait => s
  | .accept =>
    if foreignPool s (.core c) h then refuseOp (.core c) (some Bit.qmgXpart) ended
    else if !handleCurrent s h then refuseOp (.core c) (some Bit.qmgStale) ended
    else if q.full then s
    else pushEntry n h (dropPushed c.val h ended)

/-- A waiting return proceeds once its free queue is ARMED again. -/
def returnResumes (c : CoreNum) (h : W64) (s : State) : State :=
  match (s.pool? (ofHandle h).pool).map (fun pl => queueStands s (s.queue pl.freeQueue) (agentPart s (.core c) pl.part)) with
  | some .wait => s
  | some (.refuse none) => s
  | _ => coreReturn c h (endWait c.val (.ret h) s)

/-- A waiting allocation proceeds once a buffer is free. -/
def allocResumes (c : CoreNum) (via : AllocVia) (s : State) : State :=
  let t := allocate (.core c) via (endWait c.val (.alloc via) s)
  if (t.waitOf c.val) = some (.alloc via) then s else t

/-- The condition of a core's wait on a queue is met (R184). -/
def queueWaitEnds (c : CoreNum) (s : State) : State :=
  match s.waitOf c.val with
  | some (.pop n) => popResumes c n s
  | some (.push n h) => pushResumes c n h s
  | some (.alloc via) => allocResumes c via s
  | some (.ret h) => returnResumes c h s
  | _ => s

/-- A QUEUE_WAIT_END (R184). -/
def execQueueWaitEnd (core : CoreNum) (s : State) : QueueResult := .next (settle (queueWaitEnds core s))

/-! ### Lost buffers and faulted queues (R383, R384) -/

/-- Handles that some unit, waiting push or link holds. -/
def State.handlesHeld (s : State) : List W64 :=
  s.cores.flatMap (fun c => (c.2.run.toList ++ c.2.ready).flatMap (fun u => u.inputs ++ u.outputs.map (·.2) ++ u.ahead)) ++
    s.qmg.waiters.filterMap (fun w => match w.on with
      | .push _ h => some h
      | .ret h => some h
      | _ => none)

/-- Two handles name one buffer. -/
def sameBuffer (p i : Nat) (h : W64) : Bool := (ofHandle h).pool == p && (ofHandle h).index == i

/-- Buffer `i` of pool `p` lies in some queue. -/
def inSomeQueue (s : State) (p i : Nat) : Bool := s.qmg.queues.any (fun q => q.2.entries.any (fun e => sameBuffer p i e.1))

/-- An orphan (R383). -/
def isOrphan (s : State) (p i : Nat) : Bool :=
  !inSomeQueue s p i && !s.handlesHeld.any (sameBuffer p i) && (s.buffer p i).returns != 0

/-- Firmware takes an orphan back: a new generation, its windows closed, its free queue, and DBG ORPHAN (R383). -/
def reclaim (p : Nat) (pl : PoolSt) (i : Nat) (s : State) : State :=
  raise .dbg Bit.dbgOrphan (giveFree p pl i 0 (s.modBuffer p i (fun b => { b with gen := nextGen b.gen })))

/-- The item of an orphan of a stream without copies is recorded with QUEUE_FAULT (R383). -/
def orphanItem (b : Buffer) (s : State) : State :=
  match s.stream? b.stream with
  | none => s
  | some st => if st.cls = .triplex then s else qmgRecord b.stream b.seq Cause.queueFault s

/-- Insert a buffer by the sequence number of its item. -/
def insertBySeq (b : Buffer) : List Buffer → List Buffer
  | [] => [b]
  | x :: xs => if b.seq < x.seq then b :: x :: xs else x :: insertBySeq b xs

/-- Reconcile buffers of a pool; those in `carry` carried an item. -/
def reclaimAll (p : Nat) (pl : PoolSt) (is : List Nat) (carry : Bool) (s : State) : State :=
  let bs := (is.map (s.buffer p)).foldr insertBySeq []
  let s1 := forEach is (reclaim p pl) s
  if carry then forEach bs orphanItem s1 else s1

/-- Firmware reconciles pool `p` (R383). -/
def reconcile (p : Nat) (s : State) : State :=
  match s.pool? p with
  | none => s
  | some pl => reclaimAll p pl ((List.range pl.count).filter (isOrphan s p)) true s

/-- An ORPHAN_RECONCILE (R383). -/
def execOrphanReconcile (pool : Nat) (s : State) : QueueResult := .next (settle (reconcile pool s))

/-- The epoch that a stream's queues carry: that of its arming, or of its oldest job. -/
def Stream.liveEpoch (st : Stream) : Nat :=
  match st.jobs with
  | j :: _ => j.epoch
  | [] => st.epoch

/-- Pools whose buffers pass through queue `n`. -/
def poolsOf (s : State) (n : Nat) : List Nat :=
  (s.qmg.pools.filter (fun e => e.2.freeQueue == n || queueOfPool s e.1 == some n)).map (·.1)

/-- Recover a faulted DATA or FREE queue: it is emptied, its buffers and every other orphan of its pools are reconciled,
and it is ARMED again with the stream's current epoch; PUSH_COUNT starts anew (R181, R384). -/
def recoverVein (n : Nat) (s : State) : State :=
  let q := s.queue n
  let hs := q.entries.map (·.1)
  let epoch := match q.stream.bind s.stream? with
    | none => q.epoch
    | some st => st.liveEpoch
  let s1 := s.modQueue n (fun q =>
    { q with state := .armed, entries := [], head := q.tail, pushCount := 0, epoch := epoch })
  let s2 := forEach (poolsOf s n) (fun p s =>
    match s.pool? p with
    | none => s
    | some pl =>
      reclaimAll p pl ((hs.filter (fun h => (ofHandle h).pool == p)).map (fun h => (ofHandle h).index)) (q.type != .free) s) s1
  forEach (poolsOf s n) reconcile s2

/-- Recover a context's faulted queue: EN is 0, commands not yet read are lost and every live epoch of the context is
cancelled (R384). -/
def recoverCtx (c : Nat) (s : State) : State :=
  let es := (s.qmg.epochs.filter (fun e => e.2.ctx == c)).map (·.1)
  forEach es cancelEpoch ((retireCtx c s).modCtx c (fun x => { x with cmdFault := false, cplFault := false }))

/-- Firmware recovers a FAULTED queue (R384). -/
def recoverQueue (n : Nat) (s : State) : State :=
  if n < 0x3E000 then (if (s.queue n).state = .faulted then recoverVein n s else s)
  else if n < 0x3F000 then (if (s.ctx (queueCtx n)).cplFault then recoverCtx (queueCtx n) s else s)
  else if (s.ctx (queueCtx n)).cmdFault then recoverCtx (queueCtx n) s
  else s

/-- A QUEUE_RECOVERY (R384). -/
def execQueueRecovery (queue : QueueNum) (s : State) : QueueResult := .next (settle (recoverQueue queue.val s))

/-! ### Batching (R96) -/

/-- The batcher of a stage slot is evaluated, core by core. -/
def batch (slot : Nat) (s : State) : State :=
  forEach ((s.cores.filter (fun c => c.2.slot == slot)).map (·.1)) (fun n s =>
    match firstUnit ((s.core n).ready.filter (startable s n)) with
    | none => s
    | some u => if s.mayStart n && (batched s u).isSome then launch n [] u s else s) s

/-- A BATCH_START (R96). -/
def execBatchStart (slot : SlotNum) (s : State) : QueueResult := .next (batch slot.val s)

/-! ### Budgets (R282) -/

/-- A period boundary of a partition: every budget is restored to its full value. -/
def replenish (p : Nat) (s : State) : State :=
  match s.part? p with
  | none => s
  | some x =>
    if s.clock < x.periodAt + x.period then s
    else
      stampReady s { s.modPart p (fun x => { x with periodAt := x.periodAt + (s.clock - x.periodAt) / max 1 x.period * x.period }) with
        ctxs := s.ctxs.map (fun e =>
          (e.1, if e.2.part = some p then { e.2 with budgetLeft := e.2.budget.getD 0 } else e.2)) }

/-- A BUDGET_REPLENISH (R282). -/
def execBudgetReplenish (part : PartNum) (s : State) : QueueResult := .next (replenish part.val s)

/-! ### The items of a FAULTED core (R382) -/

/-- The link through which the cores of a stage feed the next stage of their copy: its first queue serves a core of that
stage. -/
def linkFrom (s : State) (st : Stream) (stage copy : Nat) : Option (Nat × Link) :=
  let next := (st.place.slots.filter (fun p => p.stage == stage + 1 && p.copy == copy)).flatMap (fun p => p.cores.map (·.val))
  s.qmg.links.find? (fun e =>
    st.place.links.any (fun l => l.link == e.1) && (s.consumers (s.queue e.2.firstQueue)).any (next.contains ·))

/-- The output of an item that a FAULTED core does not compute: a Strata slot whose handle went ahead already needs none; else
a buffer is taken and pushed, flagged unless it is a Strata slot.  None when no buffer is free. -/
def faultedOutput (l : Nat) (x : Link) (v : UnitInst) (s : State) : Option State :=
  let (p, q) := x.ends v.tile
  match s.pool? p with
  | none => some s
  | some pl =>
    if pl.kind = 1 then
      if x.recent.any (fun r => r.1 == v.seq && r.2.1 == v.tile) then some s
      else (takeFree p pl v.tile s).map (fun r =>
        push .firmware q ({ ofHandle r.1 with last := v.last } : Handle).toWord
          (noteRecent l v.seq v.tile r.1 (stampOutput { v with causes := [] } r.1 r.2)))
    else (takeFree p pl v.tile s).map (fun r =>
      let s1 := checkOutput (some []) r.1 (stampOutput v r.1 r.2)
      push .firmware q (outHandle s1 v r.1) s1)

/-- The stream engine of a FAULTED core completes the oldest item delivered to it: its output goes on flagged with FAULT_STOP
and the input goes back; the item of a record core is recorded by the QMG.  Without a free buffer the item waits.  The pieces
with data 0 that it writes are remote writes of their own, whose status words carry the flag.
DESIGN CHOICE: log entry 61. -/
def faultedItem (n : CoreNum) (s : State) : State :=
  match (s.core n.val).ready with
  | [] => s
  | u :: rest =>
    if (s.core n.val).seq ≠ .faulted then s
    else
      let v := u.flag Cause.faultStop
      let done (s : State) : State :=
        forEach u.inputs (fun h s => giveBack .firmware h s) (s.modCore n.val (fun c => { c with ready := rest }))
      match s.stream? u.stream with
      | none => done s
      | some st =>
        if u.record then stopRecord v Cause.faultStop (done s)
        else
          match linkFrom s st u.stage u.copy with
          | none => done s
          | some (l, x) =>
            match faultedOutput l x v s with
            | none => s
            | some s1 => done (notePushed v s1)

/-- A delivered item of a FAULTED core is completed (R382). -/
def execFaultedItem (core : CoreNum) (s : State) : QueueResult := .next (settle (faultedItem core s))

end Sys2Proof.Machine
end

