-- ==== Sys2Proof/Machine/Ingress.lean ====
section
/-! DEFINITION. What every ingress port shares: counters and flags (R251, R253, R298), slots and buffers taken from the
ingress pools (R84, R174, R186, R308), the frozen-frame detector (R234, R235), alignment groups (R230 to R233) and the
delivery of accepted lines, frames and sweeps (R18 to R20, R228, R386). -/

namespace Sys2Proof.Machine

open Sys2Proof Sys2Proof.Machine.Bits

/-! ### Counters and flags -/

/-- Count a packet that a port discards (R212, R213, R216, R217). -/
def dropPacket (p : Nat) (s : State) : State :=
  raise (.ing p) Bit.ingDrop (s.modPort p (fun x => { x with pktDrop := sat32 (x.pktDrop + 1) }))

/-- `n` bytes that no rule states: a free value.
DESIGN CHOICE: log entry 73. -/
def freeBytes (n : Nat) (s : State) : List Byte × State :=
  ((List.range n).map (fun k => BitVec.ofNat 8 (Config.freeNat (s.free + k))), { s with free := s.free + n })

/-- Count an unbound packet or line (R211, R227). -/
def strayPacket (p : Nat) (s : State) : State :=
  raise (.ing p) Bit.ingStray (s.modPort p (fun x => { x with stray := sat32 (x.stray + 1) }))

/-- Count an accepted packet. -/
def countPacket (p : Nat) (s : State) : State := s.modPort p (fun x => { x with pkts := sat32 (x.pkts + 1) })

/-- Count a packet CRC mismatch. -/
def countCrc (p : Nat) (s : State) : State :=
  raise (.ing p) Bit.ingCrc (s.modPort p (fun x => { x with crcErr := sat32 (x.crcErr + 1) }))

/-- The fault record that a flag of ING or TAL yields (R298, R318, R380). -/
def ingressEv (id : Nat) (st : Stream) (seq cause bit : Nat) : FaultEv :=
  { unit := 0xC0, cause := cause, ctx := st.ctx, part := st.part, seq := seq, stream := some id, bit := bit }

/-- Flag an accepted item; the first time that the cause strikes it SAFE hears of it from the unit given.
DESIGN CHOICE: log entry 78. -/
def flagItemAs (unit id seq cause bit : Nat) (s : State) : State :=
  match s.stream? id with
  | none => s
  | some st =>
    match st.item? seq with
    | none => s
    | some it =>
      if it.causes.contains cause then s
      else
        report { ingressEv id st seq cause bit with unit := unit }
          (s.modItem id seq (fun it => { it with causes := it.causes ++ [cause] }))

/-- A flag that ING or TAL sets.
DESIGN CHOICE: log entry 78. -/
def flagItem (id seq cause bit : Nat) (s : State) : State := flagItemAs 0xC0 id seq cause bit s

/-! ### Slots and buffers (R84, R186, R308) -/

/-- Copies in the order in which ING serves item `seq`: copy `seq` mod 3 first, suspended copies not at all (R308, R386).
DESIGN CHOICE: log entry 74. -/
def copyOrder (st : Stream) (seq : Nat) : List Nat :=
  if st.cls = .triplex then
    ([0, 1, 2].map (fun k => (seq + k) % 3)).filter (fun k => !st.suspended.contains k)
  else [0]

/-- The link by which ING feeds copy `k`: its first pool is an ingress pool of that copy. -/
def ingressLink (s : State) (st : Stream) (k : Nat) : Option Link :=
  match st.place.links.find? (fun l => st.place.pools.any (fun p => p.pool == l.firstPool && p.ingress && p.copy == k)) with
  | none => none
  | some l => Tab.find s.qmg.links l.link

/-- Take one buffer for segment `seg` of copy `k`; none when the pool has none to give (R177). -/
def takeOne (st : Stream) (k seg : Nat) (s : State) : Option (Nat × W64) × State :=
  match ingressLink s st k with
  | none => (none, s)
  | some l =>
    match allocFrom .ingress (l.ends seg).1 seg s with
    | .got h s1 => (some ((l.ends seg).2, h), s1)
    | .wait s1 => (none, s1)
    | .ended s1 => (none, s1)

/-- Take a buffer for every copy; without one for each, those taken go back (R84).
DESIGN CHOICE: log entry 74. -/
def takeCopies (st : Stream) (seg : Nat) : List Nat → State → Option (List (Nat × W64)) × State
  | [], s => (some [], s)
  | k :: ks, s =>
    match takeOne st k seg s with
    | (none, s1) => (none, s1)
    | (some x, s1) =>
      match takeCopies st seg ks s1 with
      | (none, s2) => (none, forceFree x.2 s2)
      | (some xs, s2) => (some (x :: xs), s2)

/-- ING takes buffers for item `seq`; none after the boundary at which a REARM has closed the pools (R194, R195). -/
def takeBuffers (st : Stream) (seq seg : Nat) (s : State) : Option (List (Nat × W64)) × State :=
  if st.closed && st.rearm.all (fun r => r.boundary ≤ seq) then (none, s) else takeCopies st seg (copyOrder st seq) s

/-- Give back what ING took and does not push. -/
def dropHandles (hs : List W64) (s : State) : State := forEach hs forceFree s

/-- The metadata that TAL writes (R174, R228). -/
def stampBuffer (h : W64) (id seq stamp len cause : Nat) (crc : W32) (s : State) : State :=
  let x := ofHandle h
  s.modBuffer x.pool x.index (fun b =>
    { b with seq := seq, stamp := stamp, crc := crc, len := len, stream := id, checked := true,
             cause := if b.cause = 0 then cause else b.cause })

/-- The payload of a frame or sweep, row by row: every row that is declared, cut to its declared length (R213); what has not arrived of
it is a free value.
DESIGN CHOICE: log entry 73. -/
def wholeRows (len : Nat) (lines : Tab (List Byte)) : List Nat → State → List (List Byte) × State
  | [], s => ([], s)
  | r :: rs, s =>
    let got := (Tab.get lines [] r).take len
    let (more, s1) := freeBytes (len - got.length) s
    let (rest, s2) := wholeRows len lines rs s1
    ((got ++ more) :: rest, s2)

/-- Push a buffer with LAST and CHECK_TAG; the handle of a buffer that is no Strata slot carries the item's flag (R174).
DESIGN CHOICE: log entry 71. -/
def pushIngress (st : Stream) (id seq : Nat) (last : Bool) (stamp len : Nat) (crc : W32) (q : Nat) (h : W64) (s : State) : State :=
  let x := ofHandle h
  let causes := itemFlags id seq s
  let first := if x.kind = 1 then 0 else (causes.map flagCause).headD 0
  let s1 := stampBuffer h id seq stamp len first crc s
  if st.faulted && st.cls != .triplex then forceFree h s1
  else push .ingress q ({ x with flag := first != 0, last := last, tag := crc.toNat % 256 } : Handle).toWord s1

/-! ### Detectors (R234, R235) -/

/-- REPEATS of a detector after a signature. -/
def Detector.repeatsAfter (d : Detector) (sig : W32) : Nat := if d.lastSig = some sig then min 255 (d.repeats + 1) else 0

/-- THRESH as it acts: 0 acts as 1. -/
def Detector.limit (d : Detector) : Nat := max 1 d.thresh

/-- A detector takes a signature; the Bool says whether the item is frozen. -/
def Detector.observe (d : Detector) (sig : W32) : Bool × Bool × Detector :=
  let n := d.repeatsAfter sig
  let frozen := d.limit ≤ n
  let first := frozen && !d.frozen
  (frozen, first,
    { d with repeats := n, frozen := frozen, lastSig := some sig, events := if first then sat32 (d.events + 1) else d.events })

/-- The detectors of a stream look at an item: its payload without the first EXCL_LINES lines.
DESIGN CHOICE: log entry 78. -/
def detect (id seq : Nat) (rows : List (List Byte)) (s : State) : State :=
  forEach ((s.tal.detectors.filter (fun e => e.2.en && e.2.stream == id)).map (·.1)) (fun k s =>
    let (frozen, first, d) := (Tab.get s.tal.detectors {} k).observe (crc32c ((rows.drop (Tab.get s.tal.detectors {} k).excl).flatten))
    let s1 := s.modTal (fun t => { t with detectors := Tab.insert t.detectors k d })
    let s2 := if first then raise .tal Bit.talFrozen s1 else s1
    if !frozen then s2
    else if first then flagItem id seq Cause.frozenFrame Bit.talFrozen s2
    else s2.modItem id seq (fun it => { it with causes := addOnce it.causes Cause.frozenFrame })) s

/-! ### Completion of an item -/

/-- TAL stamps an item whose data is complete and stores its check value (R18, R19, R228). -/
def checkItem (id seq stamp : Nat) (payload : List Byte) (s : State) : State :=
  s.modItem id seq (fun it => { it with stamp := stamp, checked := true, crc := crc32c payload, len := payload.length })

/-- Write the stamp of an item that is known only now into the metadata of every buffer that carries it, on whatever stage it
stands (R18, R174). -/
def restamp (id seq stamp : Nat) (s : State) : State :=
  let mine (e : Nat × Buffer) : Bool :=
    e.2.stream == id && e.2.seq == seq && (s.pool? (e.1 / 2 ^ 18)).any (fun p => p.stream == some id)
  s.modQmg (fun m => { m with buffers := m.buffers.map (fun e => if mine e then (e.1, { e.2 with stamp := stamp }) else e) })

/-- An item that ING discards under R84 yields its record at once, with its stamp of R18; the port counts it.
DESIGN CHOICE: log entry 74. -/
def overrunItem (id p seq stamp : Nat) (s : State) : State :=
  match s.stream? id with
  | none => s
  | some st =>
    let s1 := raise (.ing p) Bit.ingOverrun (s.modPort p (fun x => { x with overrun := sat32 (x.overrun + 1) }))
    discardRecord id seq Cause.ingressOverrun (report (ingressEv id st seq Cause.ingressOverrun Bit.ingOverrun)
      (restamp id seq stamp (s1.modItem id seq (fun it => { it with stamp := stamp, checked := true }))))

/-- The record of an item whose stream is out of service: the QMG writes it, and its buffers go back (R386). -/
def faultedRecord (id seq : Nat) (hs : List W64) (s : State) : State :=
  qmgRecord id seq Cause.streamFault (dropHandles hs s)

/-- Push the buffers of a complete frame or sweep. -/
def pushFrame (id seq : Nat) (hs : List (Nat × W64)) (s : State) : State :=
  match (s.stream? id).bind (fun st => (st.item? seq).map (fun it => (st, it))) with
  | none => dropHandles (hs.map (·.2)) s
  | some (st, it) => forEach hs (fun x s => pushIngress st id seq true it.stamp it.len it.crc x.1 x.2 s) s

/-! ### Alignment groups (R231 to R233) -/

/-- The group and member slot of a stream; a group has 2 members at least (R230), so the frames of a stream that is alone in one go on
at once.
DESIGN CHOICE: log entry 75. -/
def groupOf (s : State) (id : Nat) : Option (Nat × Nat) :=
  s.tal.groups.findSome? (fun g =>
    if g.2.members.length < 2 then none else (g.2.members.find? (fun m => m.2 == id)).map (fun m => (g.1, m.1)))

/-- Two times at most `w` apart (R231). -/
def near (w a b : Nat) : Bool := max a b - min a b ≤ w

/-- Change an alignment group. -/
def modGroup (g : Nat) (f : Group → Group) (s : State) : State :=
  s.modTal (fun t => { t with groups := Tab.insert t.groups g (f (Tab.get t.groups {} g)) })

/-- Member slots of a group that a set lacks. -/
def Group.lacks (x : Group) (set : AlignSet) : List Nat :=
  (x.members.map (·.1)).filter (fun k => !set.members.any (fun m => m.slot == k))

/-- Insert a member by its slot. -/
def insertMember (m : Member) : List Member → List Member
  | [] => [m]
  | x :: xs => if m.slot < x.slot then m :: x :: xs else x :: insertMember m xs

/-- Release a set of group `g`: its frames go on in member-slot order, marked when a member is missing (R232).
DESIGN CHOICE: log entry 75. -/
def releaseSet (g : Nat) (set : AlignSet) (s : State) : State :=
  let x := Tab.get s.tal.groups {} g
  let gone := x.lacks set
  let s1 := modGroup g (fun x =>
    { x with
      sets := x.sets.filter (· != set)
      released := ((set.reference, gone) :: x.released).take 2
      lastMissing := if gone.isEmpty then x.lastMissing else gone.foldl (fun a k => a + 2 ^ k) 0
      partials := if gone.isEmpty then x.partials else sat32 (x.partials + 1) }) s
  let s2 := if gone.isEmpty then s1 else raise .tal Bit.talPartial s1
  let cause := if gone.any (fun k => x.mandatory.testBit k) then Cause.mandatoryMissing else Cause.missingMember
  forEach set.members (fun m s =>
    pushFrame m.stream m.seq m.handles (if gone.isEmpty then s else flagItem m.stream m.seq cause Bit.talPartial s)) s2

/-- A member frame that came too late for its set (R233).
DESIGN CHOICE: log entry 75. -/
def lateFrame (g id seq : Nat) (hs : List (Nat × W64)) (s : State) : State :=
  pushFrame id seq hs (flagItem id seq Cause.lateMember Bit.talLate
    (raise .tal Bit.talLate (modGroup g (fun x => { x with late := sat32 (x.late + 1) }) s)))

/-- A member frame joins an open set or opens one (R231).
DESIGN CHOICE: log entry 75. -/
def joinSet (g k id seq stamp : Nat) (hs : List (Nat × W64)) (s : State) : State :=
  let x := Tab.get s.tal.groups {} g
  let m : Member := { slot := k, stream := id, seq := seq, handles := hs }
  let fits (set : AlignSet) : Bool := near x.w stamp set.reference && !set.members.any (fun m => m.slot == k)
  match x.sets.find? fits with
  | some set =>
    let set' := { set with members := insertMember m set.members }
    let s1 := modGroup g (fun x => { x with sets := x.sets.map (fun y => if y = set then set' else y) }) s
    if (x.lacks set').isEmpty then releaseSet g set' s1 else s1
  | none =>
    let s1 := match x.sets with
      | old :: _ :: _ => releaseSet g old s
      | _ => s
    modGroup g (fun x => { x with sets := x.sets ++ [{ reference := stamp, members := [m] }] }) s1

/-- Release the sets of a group whose wait has ended (R232). -/
def releaseDue (g : Nat) (s : State) : State :=
  let x := Tab.get s.tal.groups {} g
  forEach (x.sets.filter (fun y => y.reference + x.l ≤ s.tal.time)) (releaseSet g) s

/-- A complete frame of a group: sets that are due go first, then it is late, joins a set or opens one (R231, R233). -/
def groupFrame (g k id seq stamp : Nat) (hs : List (Nat × W64)) (s : State) : State :=
  let s1 := releaseDue g s
  let x := Tab.get s1.tal.groups {} g
  if x.released.any (fun r => near x.w stamp r.1 && r.2.contains k) then lateFrame g id seq hs s1
  else joinSet g k id seq stamp hs s1

/-- A complete, accepted frame or sweep goes on: not on a stream out of service, through its group when it has one. -/
def deliverFrame (id seq stamp : Nat) (hs : List (Nat × W64)) (s : State) : State :=
  match s.stream? id with
  | none => s
  | some st =>
    if st.faulted && st.cls != .triplex then faultedRecord id seq (hs.map (·.2)) s
    else
      match groupOf s id with
      | some (g, k) => groupFrame g k id seq stamp hs s
      | none => pushFrame id seq hs s

/-! ### Frames at their ports -/

/-- Change the open frame of a stream. -/
def modFrame (id : Nat) (f : OpenFrame → OpenFrame) (s : State) : State :=
  s.modStream id (fun st => { st with frame := st.frame.map f })

/-- Open a frame or sweep: it is accepted, and takes its buffers or will be discarded (R20, R84, R228).
DESIGN CHOICE: log entry 72. -/
def openFrame (id seq : Nat) (s : State) : State :=
  let s1 := acceptItem id { seq := seq, stamp := s.tal.time } (s.modStream id (fun st => { st with nextSeq := seq + 1 }))
  match s1.stream? id with
  | none => s1
  | some st =>
    match takeBuffers st seq 0 s1 with
    | (some hs, s2) => s2.modStream id (fun st => { st with frame := some { seq := seq, handles := hs, lastAt := s2.tal.time } })
    | (none, s2) => s2.modStream id (fun st => { st with frame := some { seq := seq, discarded := true, lastAt := s2.tal.time } })

/-- Close a frame or sweep with its payload and the rows that its signature covers, the lines as ING received them whatever PPE makes of
them: stamp, check value, detectors, and on it goes (R18, R19, R84, R228, R234).  One that some rule has recorded meanwhile only gives its
buffers back.
DESIGN CHOICE: log entry 78. -/
def closeFrame (id p : Nat) (f : OpenFrame) (rows : List (List Byte)) (payload : List Byte) (s : State) : State :=
  let s1 := s.modStream id (fun st => { st with frame := none })
  let stamp := if f.discarded then f.lastAt else f.endAt.getD f.lastAt
  if ((s1.stream? id).bind (·.item? f.seq)).isNone then dropHandles (f.handles.map (·.2)) s1
  else if f.discarded then overrunItem id p f.seq stamp s1
  else deliverFrame id f.seq stamp f.handles (detect id f.seq rows (checkItem id f.seq stamp payload s1))

end Sys2Proof.Machine
end

