-- ==== Sys2Proof/Machine/Csi.lean ====
section
/-! DEFINITION. The MIPI CSI-2 ports (R211 to R213, R228) and the pre-processing of an area frame at its end (R236 to
R239). -/

namespace Sys2Proof.Machine

open Sys2Proof Sys2Proof.Machine.Bits

/-- What the commands of a CSI-2 port answer. -/
abbrev CsiResult := Host.Outcome State Fault Refusal

/-! ### Pre-processing (R236 to R239) -/

/-- The planes of a frame before the colour conversion: demosaic for a declared colour filter, the three planes of YUV422
for three components, else one plane.
DESIGN CHOICE: log entry 76. -/
def framePlanes (d : StreamDecl) (rows : List (List Byte)) : List Pixels.Plane :=
  let black := (d.colour.map (·.1)).getD 0
  let px := rows.map (fun r => (Pixels.samples d.depth r).map (Pixels.level black))
  let pat := Config.cfaPattern d.cfa
  if 1 ≤ pat ∧ pat ≤ 4 then Pixels.demosaic pat px d.height d.width
  else if d.comps = 3 then Pixels.yuvPlanes px d.height d.width
  else [px]

/-- The colour planes of a frame, after the colour conversion; a frame of one plane has no three inputs for it and stays as it is.
DESIGN CHOICE: log entry 76. -/
def colourPlanes (d : StreamDecl) (rows : List (List Byte)) : List Pixels.Plane :=
  let ps := framePlanes d rows
  match d.colour with
  | some c => if ps.length = 3 then Pixels.colour (Config.colourMatrix c.2) ps d.height d.width else ps
  | none => ps

/-- The codes that PPE puts into the buffer of a frame, when the stream declares PPE's output. -/
def shapedFrame (id : Nat) (d : StreamDecl) (rows : List (List Byte)) : Option (List Nat) :=
  d.output.map (fun o =>
    let qs := colourPlanes d rows
    match Config.ppeSize id with
    | some (ho, wo) =>
      Pixels.codes (qs.map (fun p => Pixels.resize p d.height d.width ho wo)) ho wo (Config.ppeFormat id) o.1 o.2
    | none => Pixels.codes qs d.height d.width (Config.ppeFormat id) o.1 o.2)

/-! ### Crops (R97, R98, R239) -/

/-- A side of the declared size of crops, from 1 to 256 (R97): no item of R275 carries it. -/
def cropSide (n : Nat) : Nat := max 1 (min 256 n)

/-- `n` codes that no rule states. -/
def freeCodes (n : Nat) (s : State) : List Nat × State :=
  ((List.range n).map (fun k => Config.freeNat (s.free + k)), { s with free := s.free + n })

/-- The crop that an entry makes of the planes of a frame; source image 0 is the frame, and what an entry that names another image crops
no rule says: a free value.
DESIGN CHOICE: log entry 81. -/
def cropEntry (id : Nat) (d : StreamDecl) (o : W32 × Nat) (ho wo : Nat) (ps : List Pixels.Plane) (e : List Byte) (s : State) :
    List Nat × State :=
  if field e 16 2 = 0 then
    (Pixels.codes (ps.map (fun p => Pixels.cropBy p d.height d.width ho wo e)) ho wo (Config.ppeFormat id) o.1 o.2, s)
  else freeCodes (ho * wo * ps.length) s

/-- The output slots of a box list in order (R97): each holds the crop of the last entry that names it, and one that no entry names a free
value.
DESIGN CHOICE: log entry 81. -/
def cropSlots (id : Nat) (d : StreamDecl) (o : W32 × Nat) (ho wo : Nat) (ps : List Pixels.Plane) (es : List (List Byte)) :
    List Nat → State → List Nat × State
  | [], s => ([], s)
  | k :: ks, s =>
    let (cs, s1) := match es.reverse.find? (fun e => field e 18 2 == k) with
      | some e => cropEntry id d o ho wo ps e s
      | none => freeCodes (ho * wo * ps.length) s
    let (rest, s2) := cropSlots id d o ho wo ps es ks s1
    (cs ++ rest, s2)

/-- Box entries of a list beyond the declared maximum stand in the header of the output: of the buffers of the frame (R98). -/
def noteBeyond (f : OpenFrame) (n : Nat) (s : State) : State :=
  forEach f.handles (fun h s => s.modBuffer (ofHandle h.2).pool (ofHandle h.2).index (fun b => { b with beyond := n })) s

/-- What becomes of a box list besides the crops: invalid entries count in PPE_BOX_INVALID, and entries beyond the maximum flag the frame
(R98, R259). -/
def judgeBoxes (id : Nat) (d : StreamDecl) (f : OpenFrame) (boxes : List (List Byte)) (s : State) : State :=
  let bad := ((boxes.take d.maxBoxes).filter (fun e => !Pixels.boxValid d.height d.width e)).length
  let s1 := if bad = 0 then s
    else raise .ppe Bit.ppeBox (s.modPpe (fun p => { p with boxInvalid := sat32 (p.boxInvalid + bad) }))
  if d.maxBoxes < boxes.length then
    flagItemAs 0xC8 id f.seq Cause.boxOverflow (Config.freeNat s1.free % 256)
      (noteBeyond f (boxes.length - d.maxBoxes) { s1 with free := s1.free + 1 })
  else s1

/-- PPE crops a frame by a box list (R97, R98, R239): the first entries up to the declared maximum are cut, an invalid one gives padding. -/
def cropFrame (id : Nat) (d : StreamDecl) (o : W32 × Nat) (size : Nat × Nat) (f : OpenFrame) (boxes rows : List (List Byte))
    (s : State) : List Nat × State :=
  let es := boxes.take d.maxBoxes
  let slots := es.foldl (fun a e => max a (field e 18 2 + 1)) 0
  let (cs, s1) := cropSlots id d o (cropSide size.1) (cropSide size.2) (colourPlanes d rows) es (List.range slots) s
  (cs, (judgeBoxes id d f boxes s1).emit
    (.crops id f.seq (boxes.length - d.maxBoxes) (es.map (Pixels.boxValid d.height d.width)) cs))

/-- The payload of a frame's buffer: the crops of its box list, the codes of the whole frame, or the lines as they came (R236). -/
def framePayload (id : Nat) (d : StreamDecl) (f : OpenFrame) (boxes rows : List (List Byte)) (s : State) : List Byte × State :=
  match d.output, Config.ppeSize id, boxes.isEmpty || d.maxBoxes == 0 with
  | some o, some size, false =>
    let (cs, s1) := cropFrame id d o size f boxes rows s
    (Pixels.codeBytes (Config.ppeFormat id) cs, s1)
  | _, _, _ =>
    match shapedFrame id d rows with
    | some cs => (Pixels.codeBytes (Config.ppeFormat id) cs, s.emit (.pixels id f.seq cs))
    | none => (rows.flatten, s)

/-- Close an area frame with its box list: the wrong shape flags it (R213). -/
def endFrame (id p : Nat) (d : StreamDecl) (f : OpenFrame) (boxes : List (List Byte)) (shape : Bool) (s : State) : State :=
  let bad := shape || f.badShape || f.rows != d.height
  let s1 := if bad then flagItem id f.seq Cause.shape Bit.ingShape (raise (.ing p) Bit.ingShape s) else s
  if f.discarded then closeFrame id p f [] [] s1
  else
    let (rows, s2) := wholeRows d.lineBytes f.lines (List.range d.height) s1
    let (payload, s3) := framePayload id d f boxes rows s2
    closeFrame id p f rows payload s3

/-- One more line of an area frame: lines beyond the declared count are discarded, a longer one is truncated (R213). -/
def OpenFrame.addRow (f : OpenFrame) (d : StreamDecl) (data : List Byte) (now : Nat) : OpenFrame :=
  if d.height ≤ f.rows then { f with rows := f.rows + 1, lastAt := now, badShape := true }
  else
    { f with
      rows := f.rows + 1, lastAt := now, lines := Tab.insert f.lines f.rows (data.take d.lineBytes),
      badShape := f.badShape || data.length != d.lineBytes,
      endAt := if f.rows + 1 = d.height ∧ d.lineBytes ≤ data.length then some now else f.endAt }

/-! ### Packet headers (R213) -/

/-- Flag the open frame of every bound virtual channel of a port. -/
def flagPort (p : Nat) (s : State) : State :=
  forEach ((s.port p).bind.map (·.2)) (fun id s =>
    match (s.stream? id).bind (·.frame) with
    | none => s
    | some f => flagItem id f.seq Cause.ingressIntegrity Bit.ingHdrUncorr s) s

/-- What the header check finds, with the injections of R253; the Bool says whether the packet is accepted. -/
def checkHeader (p : Nat) (ecc : HdrEcc) (s : State) : Bool × State :=
  let (two, s1) := takeInj (.ing p) Bit.ingHdrUncorr s
  let (one, s2) := takeInj (.ing p) Bit.ingHdrCorr s1
  if two || ecc == .uncorrectable then (false, flagPort p (raise (.ing p) Bit.ingHdrUncorr (dropPacket p s2)))
  else if one || ecc == .single then
    (true, raise (.ing p) Bit.ingHdrCorr (s2.modPort p (fun x => { x with hdrCorr := sat32 (x.hdrCorr + 1) })))
  else (true, s2)

/-- The armed stream of a binding; a packet of none is a stray (R211). -/
def boundStream (p b : Nat) (s : State) : Option (Nat × Stream) :=
  (Tab.find (s.port p).bind b).bind (fun id => ((s.stream? id).filter (·.armed)).map (fun st => (id, st)))

/-! ### Frames -/

/-- Frames lost between the last frame number of a stream and this one (R228).
DESIGN CHOICE: log entry 80. -/
def lostFrames (last now : Option Nat) : Nat :=
  match last, now with
  | some a, some b => if a < b then b - a - 1 else Config.framesLost a b
  | _, _ => 0

/-- A Frame Start (R213, R228): an open frame is closed with the shape cause; while ingress takes no new frame the packet
does nothing more (R371, R391).
DESIGN CHOICE: log entry 72. -/
def frameStart (p vc : Nat) (frameNo : Option Nat) (s : State) : State :=
  match boundStream p vc s with
  | none => strayPacket p s
  | some (id, st) =>
    let s1 := countPacket p s
    let s2 := match st.frame with
      | none => s1
      | some f => endFrame id p st.decl f [] true s1
    if s.boot.ingressClosed then s2
    else
      openFrame id (st.nextSeq + lostFrames st.lastFrameNo frameNo)
        (s2.modStream id (fun st => { st with lastFrameNo := if frameNo.isSome then frameNo else st.lastFrameNo }))

/-- A CSI-2 Frame Start (R213). -/
def execCsi2FrameStart (port : PortNum) (vc : Fin 4) (ecc : HdrEcc) (frameNo : Option Nat) (s : State) : CsiResult :=
  let (ok, s1) := checkHeader port.val ecc s
  .next (settle (if ok then frameStart port.val vc.val frameNo s1 else s1))

/-- The data types of R212. -/
def supportedType (dt : Nat) : Bool := [0x2A, 0x2B, 0x2C, 0x2D, 0x2E, 0x1E].contains dt

/-- Line Start and Line End packets, which a port accepts and ignores (R212).
PRESUMED: log entry 130. -/
def lineMarker (dt : Nat) : Bool := dt == 0x02 || dt == 0x03

/-- A long packet whose header is good: its line goes into the open frame; a data type that is not supported, or no open
frame, discards it.
DESIGN CHOICE: log entry 72. -/
def longPacket (p vc dt : Nat) (crcOk : Bool) (data : List Byte) (s : State) : State :=
  match boundStream p vc s with
  | none => strayPacket p s
  | some (id, st) =>
    if lineMarker dt then countPacket p s
    else
      match st.frame with
      | none => dropPacket p s
      | some f =>
        if !supportedType dt then dropPacket p s
        else
          let (inj, s1) := takeInj (.ing p) Bit.ingCrc (countPacket p s)
          let s2 := modFrame id (fun f => f.addRow st.decl data s.tal.time) s1
          if inj || !crcOk then flagItem id f.seq Cause.ingressIntegrity Bit.ingCrc (countCrc p s2) else s2

/-- A CSI-2 long packet (R213). -/
def execCsi2LongPacket (port : PortNum) (vc : Fin 4) (ecc : HdrEcc) (dataType : Nat) (crcOk : Bool) (data : List Byte)
    (s : State) : CsiResult :=
  let (ok, s1) := checkHeader port.val ecc s
  .next (if ok then longPacket port.val vc.val dataType crcOk data s1 else s1)

/-- A Frame End: the frame is closed, with the box list that PPE crops it by; without an open frame the packet is discarded. -/
def frameEnd (p vc : Nat) (boxes : List (List Byte)) (s : State) : State :=
  match boundStream p vc s with
  | none => strayPacket p s
  | some (id, st) =>
    match st.frame with
    | none => dropPacket p s
    | some f =>
      endFrame id p st.decl { f with lastAt := s.tal.time } boxes false (countPacket p s)

/-- A CSI-2 Frame End (R213). -/
def execCsi2FrameEnd (port : PortNum) (vc : Fin 4) (ecc : HdrEcc) (boxes : List (List Byte)) (s : State) :
    CsiResult :=
  let (ok, s1) := checkHeader port.val ecc s
  .next (settle (if ok then frameEnd port.val vc.val boxes s1 else s1))

end Sys2Proof.Machine
end

