-- ==== Sys2Proof/Machine/Transfers.lean ====
section
/-! DEFINITION. Remote writes at a core's write port (R126, R127, R134 to R136) and the return of transfers with the checks
of what was read (R82, R83, R138, R139, R173, R190, R248). -/

namespace Sys2Proof.Machine

open Sys2Proof Sys2Proof.Machine.Bits

/-- What the commands of the write ports and stream engines answer. -/
abbrev XferOutcome := Host.Outcome State Fault Refusal

/-! ### Remote writes -/

/-- Why a write port refuses a write, in the order of REASON: 0 closed, 1 generation, 2 partition, 3 range, 4 overshoot
(R134, R148). -/
def writeRefused (w : Window) (gen part addr n : Nat) : Option Nat :=
  if w.state ≠ .opened then some 0
  else if gen ≠ w.gen then some 1
  else if part ≠ w.part then some 2
  else if addr < w.base ∨ w.base + w.len < addr + n then some 3
  else if w.target ≠ 0 ∧ w.target < w.arrived + beatCount addr n then some 4
  else none

/-- A window takes the count of an accepted write, which may be the trailer of a piece, and closes when it reaches its target
(R82, R134, R135). -/
def Window.count (w : Window) (k : Nat) (trailer : Bool) : Window :=
  let v := { w with arrived := (w.arrived + k) % 2 ^ 24, trailers := if trailer then w.trailers + 1 else w.trailers }
  if v.target ≠ 0 ∧ v.arrived = v.target then v.close else v

/-- A window counts a refused write and keeps its writer and reason (R136, R148). -/
def Window.refuse (w : Window) (writer reason : Nat) : Window :=
  { w with late := sat32 (w.late + 1), lateWriter := writer, lateReason := reason }

/-- The write buffer of a core has room for a write: 64 entries of 32 bytes (R126); writes into one 32-byte block share its
entry.
DESIGN CHOICE: log entry 112. -/
def CoreSt.bufferRoom (c : CoreSt) (addr n : Nat) : Bool :=
  ((c.wbuf.map (fun e => e.1 / 8)).eraseDups).length + beatCount addr n ≤ 64

/-- The pool whose slots window `w` of core `n` backs. -/
def poolOfWindow (s : State) (n w : Nat) : Option (Nat × PoolSt) :=
  s.qmg.pools.find? (fun e =>
    e.2.kind == 1 && e.2.windowCores.contains n && e.2.window0 ≤ w && w < e.2.window0 + e.2.count)

/-- The queue of the link whose slots window `w` of core `n` backs. -/
def queueOfWindow (s : State) (n w : Nat) : Option Nat := (poolOfWindow s n w).bind (fun e => queueOfPool s e.1)

/-- The partition of a writer: a core's own, and for ING and TAL that of the window they fill. -/
def writerPart (s : State) (a : Agent) (w : Window) : Nat := agentPart s a w.part

/-- What a core does about its refused write: the bit, the flag and the fault record with the reason (R136). -/
def writerRefused (a : Agent) (reason : Nat) (s : State) : State :=
  match a with
  | .core c =>
    let who := ((s.core c.val).run).map (fun u => (u.ctx, u.part))
    flagUnit c.val Cause.closedWindow
      (report { coreEv s c.val Cause.closedWindow Bit.coreClosed with reason := reason }
        (raiseAt (.core c.val) Bit.coreClosed 0 who s))
  | _ => s

/-- The writing engine may issue one more transfer for its queue (R190). -/
def mayIssue (s : State) (a : Agent) (q : Option Nat) : Bool :=
  match a, q with
  | .core _, some n => (s.queue n).outCount < (s.queue n).outLimit
  | _, _ => true

/-- A core's write counts against its queue from its issue (R190).
DESIGN CHOICE: log entry 62. -/
def countIssue (a : Agent) (q : Option Nat) (s : State) : State :=
  match a, q with
  | .core c, some n => issueTransfer c.val n none s
  | _, _ => s

/-! ### Pieces and their trailers (R82, R87, R382) -/

/-- Key of a piece in progress: its writer, the core and the window. -/
def pieceKey (a : Agent) (n w : Nat) : Nat := (agentUnit a * 192 + n) * 256 + w

/-- The line whose slot a window backs, as ING holds it. -/
def Stream.lineOfSlot (st : Stream) (p i : Nat) : Option PendLine :=
  st.lines.find? (fun l => l.handles.any (fun h => (ofHandle h.2.2).pool == p && (ofHandle h.2.2).index == i))

/-- The stream whose ingress slot window `w` of core `n` backs, and the number of its line: that of the line that ING holds it for, else
that of its metadata. -/
def itemOfWindow (s : State) (n w : Nat) : Option (Nat × Nat) :=
  (poolOfWindow s n w).bind (fun e =>
    let i := w - e.2.window0
    e.2.stream.map (fun id =>
      (id, (((s.stream? id).bind (fun st => st.lineOfSlot e.1 i)).map (·.seq)).getD (s.buffer e.1 i).seq)))

/-- The causes with which ING's own checks flag the slot that window `w` of core `n` backs: those of the line, of the integrity of its
packets only where one of them touched the slot's segment (R213, R215). -/
def slotCauses (s : State) (n w : Nat) : List Nat :=
  match poolOfWindow s n w, (itemOfWindow s n w).bind (fun x => (s.stream? x.1).map (fun st => (st, x.2))) with
  | some (p, pl), some (st, seq) =>
    let i := w - pl.window0
    let flags := ((st.item? seq).map (·.causes)).getD []
    match st.lineOfSlot p i with
    | some l => flags.filter (fun c => c != Cause.ingressIntegrity || l.hit.contains (s.buffer p i).seg)
    | none => flags
  | _, _ => []

/-- The flag that a writer puts into a trailer: a FAULTED core's FAULT_STOP, a unit's first flag, or that of ING's own checks on
the line (R82, R87, R382). -/
def pieceFlag (a : Agent) (n w : Nat) (s : State) : Option Nat :=
  match a with
  | .core c =>
    if (s.core c.val).seq = .faulted then some Cause.faultStop
    else ((s.core c.val).run).bind (fun u => firstFlag u.causes)
  | .ingress => firstFlag (slotCauses s n w)
  | .ppe => none
  | .firmware => none

/-- The status word of a trailer: FLAG and the cause in the low half, its complement in the high one (R82). -/
def statusWord (flag : Option Nat) : W32 :=
  let low := match flag with
    | none => 0
    | some c => 256 + c % 256
  BitVec.ofNat 32 (low + (0xFFFF - low) * 65536)

/-- The bytes of words, little-endian. -/
def bytesOf (ws : List W32) : List Byte := ws.flatMap (fun w => toBytes 4 w.toNat)

/-- The words that a writer sends: those of the command, zeros from a FAULTED core (R382), or the trailer of what it has
written to the window since its last trailer (R82). -/
def sentWords (a : Agent) (n w : Nat) (data : List W32) (trailer : Bool) (s : State) : List W32 :=
  if trailer then
    [crc32c (Tab.get s.mesh.pieces [] (pieceKey a n w)), statusWord (pieceFlag a n w s)]
  else
    match a with
    | .core c => if (s.core c.val).seq = .faulted then data.map (fun _ => 0) else data
    | _ => data

/-- The writer's engine keeps the running check value of its piece, and begins the next one after a trailer. -/
def notePiece (a : Agent) (n w : Nat) (ws : List W32) (trailer : Bool) (s : State) : State :=
  let k := pieceKey a n w
  s.modMesh (fun m => { m with
    pieces := if trailer then Tab.erase m.pieces k else Tab.insert m.pieces k (Tab.get m.pieces [] k ++ bytesOf ws) })

/-- Why a write port refuses a write, a window of a cancelled epoch being closed (R134, R135, R148). -/
def refusedAt (s : State) (x : Window) (gen part addr n : Nat) : Option Nat :=
  if s.epochCancelled x.epoch then some 0 else writeRefused x gen part addr n

/-- The mesh holds a write of core `n`'s word `addr` back: its plane pauses or is being taken out (R16, R154, R388). -/
def meshHolds (s : State) (n addr part : Nat) : Bool := (planeNow s (n * 2 ^ 19 + addr) (isSafety (s.classOf part))).isNone

/-- The consumer of the forward map that core `n` is, as its place in the sub-group whose slots window `w` backs (R82). -/
def consumerAt (s : State) (n w : Nat) : Option Nat := (poolOfWindow s n w).map (fun e => e.2.windowCores.idxOf n)

/-- The slice of its segment that core `c` computes: its place in its sub-group (R80). -/
def sliceAt (st : Stream) (d : StageDecl) (c : Nat) : Option Nat :=
  (st.slotOf c).map (fun p => (p.cores.map (·.val)).idxOf c % max 1 d.g)

/-- The stream engine of a Strata unit writes to the consumer cores that the forward map names for its slice (R82).
DEDUCED: log entry 118. -/
def mapNames (s : State) (a : Agent) (n w : Nat) : Bool :=
  match a with
  | .core c =>
    match (s.core c.val).run with
    | none => true
    | some u =>
      match s.stream? u.stream, stageDeclOf s u with
      | some st, some d =>
        d.mode != .strata || d.forward.isEmpty ||
          (match sliceAt st d c.val, consumerAt s n w with
            | some j, some k => d.forward.any (fun r => r.slice == j && r.consumer == k)
            | _, _ => true)
      | _, _ => true
  | _ => true

/-- A trailer goes out as one write within an aligned 32-byte block, once the verdicts of the unit's input are in (R82, R87). -/
def trailerGoes (s : State) (a : Agent) (addr : Nat) (trailer : Bool) : Bool :=
  !trailer || (addr % 8 ≤ 6 &&
    (match a with
      | .core c => ((s.core c.val).run).all (fun u => inputVerdicts s c.val u)
      | _ => true))

/-- The engine issues a write: the limit of its queue, the forward map and the rules of a trailer let it go, the write buffer has
room for it and a plane carries it (R82, R87, R126, R154, R190). -/
def writeGoes (s : State) (a : Agent) (n w addr : Nat) (trailer : Bool) (words part : Nat) : Bool :=
  mayIssue s a (queueOfWindow s n w) && mapNames s a n w && trailerGoes s a addr trailer &&
    (s.core n).bufferRoom addr words && !meshHolds s n addr part

/-- A unit whose engine has written a trailer owes none until its next verdict (R87). -/
def paidTrailer (a : Agent) (trailer : Bool) (s : State) : State :=
  match a with
  | .core c =>
    if trailer then s.modCore c.val (fun k => { k with run := k.run.map (fun u => { u with owesPiece := false }) }) else s
  | _ => s

/-- A remote write reaches the write port of core `n` (R134 to R136).  What the engine may not issue yet is held back; an isolated
or stopped side refuses it with a NACK (R29).
DESIGN CHOICE: log entry 71.
DESIGN CHOICE: log entry 88. -/
def remoteWrite (a : Agent) (n w gen addr : Nat) (data : List W32) (poison : List Nat) (trailer : Bool) (s : State) : State :=
  let x := (s.core n).window w
  let ws := sentWords a n w data trailer s
  if !writeGoes s a n w addr trailer ws.length x.part then s
  else
    let s1 := paidTrailer a trailer (notePiece a n w ws trailer (countIssue a (queueOfWindow s n w) s))
    if s.unreachable n then s1.emit (.nack (agentUnit a))
    else
      match refusedAt s x gen (writerPart s a x) addr ws.length with
      | some reason =>
        writerRefused a reason
          ((s1.modCore n (fun c => c.modWindow w (·.refuse (agentUnit a) reason))).emit (.nack (agentUnit a)))
      | none =>
        s1.modCore n (fun c =>
          { c.modWindow w (·.count (beatCount addr ws.length) trailer) with
            wbuf := c.wbuf ++ (ws.zipIdx).map (fun d => (addr + d.2, d.1, !trailer && poison.contains d.2)) })

/-! ### The return of a transfer -/

/-- The outstanding transfer of core `c` for queue `n` that returns: the oldest that reads `h`, or the oldest write. -/
def State.xferOf (s : State) (c n : Nat) (h : Option W64) : Option Xfer :=
  s.qmg.transfers.find? (fun x => x.core == c && x.queue == n && x.handle == h)

/-- A transfer has returned: OUT_COUNT of its queue falls, so do the transfers of the epoch that it carries, and a fetch that
waited goes on (R190, R191, R192).
DESIGN CHOICE: log entry 62. -/
def endTransfer (x : Xfer) (s : State) : State :=
  issueFetches x.queue ((s.modQueue x.queue (fun q => { q with outCount := q.outCount - 1 })).modQmg (fun m =>
    { m with
      transfers := m.transfers.erase x
      epochs := Tab.modify m.epochs x.epoch (fun e => { e with outstanding := e.outstanding - 1 }) }))

/-- A write of core `c` for queue `n`, or a read that was refused, has ended. -/
def endWrite (c n : Nat) (s : State) : State :=
  match s.qmg.transfers.find? (fun x => x.core == c && x.queue == n && x.handle.isNone) with
  | some x => endTransfer x s
  | none =>
    match s.qmg.transfers.find? (fun x => x.core == c && x.queue == n) with
    | some x => endTransfer x s
    | none => s

/-- Flag the unit that holds handle `h` as an input on core `n`: the running one, or one that is ready. -/
def flagHolder (n : Nat) (h : W64) (cause : Nat) (s : State) : State :=
  s.modCore n (fun c =>
    if c.ready.any (fun u => u.inputs.contains h) then
      { c with ready := c.ready.map (fun u => if u.inputs.contains h then u.flag cause else u) }
    else { c with run := c.run.map (·.flag cause) })

/-- The unit that holds a handle on core `n`, else the running one. -/
def holderOf (s : State) (n : Nat) (h : W64) : Option UnitInst :=
  match (s.core n).ready.find? (fun u => u.inputs.contains h) with
  | some u => some u
  | none => (s.core n).run

/-- A failed check of a buffer read through `h`: the holder is flagged and SAFE told.  The buffer of a sample of an adaptation job makes
that sample corrupt and holds the job instead (R248, R249). -/
def readCheckFailed (n : Nat) (h : W64) (cause : Nat) (s : State) : State :=
  let x := ofHandle h
  let u := holderOf s n h
  let job := (u.bind (fun u => s.stream? u.stream)).bind (fun st => st.jobs.find? (fun j => j.adapt && j.held.isNone))
  match u, job.filter (fun _ => (s.pool? x.pool).any (·.ingress)) with
  | some u, some _ => holdJob u.stream (s.buffer x.pool x.index).sample (checkEvent n (some u) cause s)
  | _, _ => flagHolder n h cause (checkEvent n u cause s)

/-- The working region, into which a stream engine fetches (R128, R191). -/
def CoreSt.inWorking (c : CoreSt) (w n : Nat) : Bool := c.workBase ≤ w && w + n ≤ c.workEnd

/-- A fill that the core's own stream engine fetched enters the write port, with its poison tags (R126).  Outside the working
region it is malformed: it writes nothing and stops the unit (R128, R130). -/
def fill (n : CoreNum) (dest : Nat) (ws : List (W32 × Bool)) (s : State) : State :=
  if (s.core n.val).inWorking dest ws.length then
    s.modCore n.val (fun c => { c with wbuf := c.wbuf ++ (ws.zipIdx).map (fun d => (dest + d.2, d.1)) })
  else seqIllegal n s

/-- What has come back of the buffer behind handle `h`. -/
def CoreSt.got (c : CoreSt) (h : W64) : List Byte := ((c.reading.find? (fun r => r.1 == h)).map (·.2)).getD []

/-- Checks of what is read of a buffer, `got` before and `more` now: no buffer is read without a check value; CHECK_TAG at the
first read; and the check value over the payload once all of it has come (R19, R173).  The pieces of a Strata slot carry their own
(R83). -/
def dataBad (x : Handle) (b : Buffer) (got more : List Byte) : Bool :=
  x.kind != 1 && (!b.checked || (got.isEmpty && x.tag != b.crc.toNat % 256) ||
    (b.len ≤ (got ++ more).length && crc32c ((got ++ more).take b.len) != b.crc))

/-- Keep what has come back of a buffer until all of it has; what no unit of the core reads any more is forgotten. -/
def keepRead (n : Nat) (h : W64) (b : Buffer) (more : List Byte) (s : State) : State :=
  let all := (s.core n).got h ++ more
  s.modCore n (fun c => { c with
    reading := (c.reading.filter (fun r => r.1 != h && s.reads n r.1)) ++ (if b.len ≤ all.length then [] else [(h, all)]) })

/-- A read through a stale handle: the bit, the report and the flag (R138). -/
def staleRead (n : Nat) (u : Option UnitInst) (s : State) : State :=
  let ev : FaultEv := match u with
    | some u => unitEv n u Cause.staleHandle Bit.coreStale
    | none => { unit := n, cause := Cause.staleHandle, bit := Bit.coreStale }
  report ev (raiseAt (.core n) Bit.coreStale 0 (u.map (fun u => (u.ctx, u.part))) s)

/-- A read through a handle returns: the generation first, then CHECK_TAG, then the check value over the data, then
poison (R138, R139, R173). -/
def checkRead (n : Nat) (h : W64) (data : List W32) (poisoned : Bool) (s : State) : State :=
  let x := ofHandle h
  let b := s.buffer x.pool x.index
  if x.gen ≠ b.gen then
    flagHolder n h Cause.staleHandle (staleRead n (holderOf s n h) (s.emit (.data n [poisonWord] true)))
  else
    let s1 := keepRead n h b (bytesOf data) s
    if dataBad x b ((s.core n).got h) (bytesOf data) then readCheckFailed n h Cause.e2eCheck s1
    else if poisoned then flagHolder n h Cause.memPoison s1
    else s1

/-- The words of a read as they land: through a stale handle every one is the poisoned word (R138, R139). -/
def readWords (s : State) (h : W64) (data : List W32) (poison : List Nat) : List (W32 × Bool) :=
  let x := ofHandle h
  if x.gen ≠ (s.buffer x.pool x.index).gen then data.map (fun _ => (poisonWord, true))
  else (data.zipIdx).map (fun d => if poison.contains d.2 then (poisonWord, true) else (d.1, false))

/-- A read through a handle of words that go to `dest`: what it finds, and the fill. -/
def readReturns (n : CoreNum) (h : W64) (dest : Nat) (data : List W32) (poison : List Nat) (s : State) : State :=
  fill n dest (readWords s h data poison) (checkRead n.val h data (!poison.isEmpty) s)

/-- The epoch of a read: the one that its transfer carries, else that of the unit that holds the handle (R192). -/
def readEpoch (s : State) (n q : Nat) (h : W64) : Nat :=
  match s.xferOf n q (some h) with
  | some x => x.epoch
  | none => ((holderOf s n h).map (·.epoch)).getD 0xFFFF

/-- The transfer of a read ends. -/
def endRead (n q : Nat) (h : W64) (s : State) : State :=
  match s.xferOf n q (some h) with
  | some x => endTransfer x s
  | none => s

/-- Data for core `n` return: into a sink when their epoch is cancelled, refused when the core is cut off, held back by the mesh
when the write buffer is full or a plane pauses, else checked and filled in (R29, R126, R127, R154, R197). -/
def dataReturns (n : CoreNum) (q : Nat) (h : W64) (dest : Nat) (data : List W32) (poison : List Nat) (s : State) : State :=
  if s.epochCancelled (readEpoch s n.val q h) then endRead n.val q h s
  else if s.unreachable n.val then (endRead n.val q h s).emit (.nack n.val)
  else if (planeNow s (n.val * 2 ^ 19 + dest) false).isNone then s
  else if (s.core n.val).bufferRoom dest data.length then readReturns n h dest data poison (endRead n.val q h s)
  else s

/-- The status word of a piece trailer: none when its halves are not complementary, else whether it is flagged, and with which
cause (R82, R83). -/
def trailerCause (word : W32) : Option (Option Nat) :=
  let low := word.toNat % 65536
  if low + word.toNat / 65536 ≠ 0xFFFF then none
  else some (if low / 256 % 2 = 1 then some (low % 256) else none)

/-- The input of the running unit in whose copy word `w` of core `n` lies, with its window (R82, R132). -/
def inputAt (s : State) (n w : Nat) : Option (W64 × Window) :=
  (((s.core n).run.map (·.inputs)).getD []).findSome? (fun h =>
    (slotWindow s n h).bind (fun p =>
      let x := (s.core n).window p.1
      if x.base ≤ w && w < x.base + x.len then some (h, x) else none))

/-- The handle through which a piece is read is stale: the window of the copy has another generation (R138, R174). -/
def stalePiece (s : State) (n w : Nat) : Bool := (inputAt s n w).any (fun p => (ofHandle p.1).gen != p.2.gen)

/-- A verdict on the piece at word `base` is in; the unit owes a trailer after it (R87). -/
def noteVerdict (n base : Nat) (s : State) : State :=
  s.modCore n (fun c => { c with run := c.run.map (fun u => { u with verified := addOnce u.verified base, owesPiece := true }) })

/-- What the check value and the status word of a piece of `words` words say (R83): nothing, or the cause that they call for and
whether SAFE hears of it. -/
def pieceVerdict (data : List W32) (crc status : W32) : Option (Nat × Bool) :=
  if crc ≠ crc32c (bytesOf data) then some (Cause.e2eCheck, true)
  else
    match trailerCause status with
    | none => some (Cause.e2eCheck, true)
    | some none => none
    | some (some cause) => some (cause, false)

/-- A Strata piece of `words` words is read from the core's own copy: no word of the reserved region (R130), through a current
handle (R138), its words as the banks give them (R140), then its check value and its status word (R83). -/
def pieceReturns (n : CoreNum) (base words : Nat) (u : Upset) (k : Nat) (s0 : State) : State :=
  if 0x7C000 < base + words + 2 then seqIllegal n s0
  else if stalePiece s0 n.val base then
    noteVerdict n.val base (flagUnit n.val Cause.staleHandle (staleRead n.val (s0.core n.val).run s0))
  else
    let (stopped, s1) := readRanges n [(base, words + 2)] u k s0
    if stopped then s1
    else
      let s := noteVerdict n.val base s1
      let c := (s.core n.val).drain
      let at' (k : Nat) : W32 := Tab.get c.sp 0 (base + k)
      match pieceVerdict ((List.range words).map at') (at' words) (at' (words + 1)) with
      | none => s
      | some (cause, told) => flagUnit n.val cause (if told then checkEvent n.val (s.core n.val).run cause s else s)

/-- A transfer of core `n` for queue `q` returns with a result. -/
def transferReturns (n : CoreNum) (q : Nat) (r : XferResult) (s : State) : State :=
  match r with
  | .done => endWrite n.val q s
  | .nack => endWrite n.val q s
  | .read h dest data poison => dataReturns n q h dest data poison s
  | .piece base words u k => pieceReturns n base words u k s

/-- A TRANSFER_COMPLETE (R190). -/
def execTransferComplete (core : CoreNum) (queue : QueueNum) (result : XferResult) (s : State) : XferOutcome :=
  .next (settle (transferReturns core queue.val result s))

end Sys2Proof.Machine
end

