-- ==== Sys2Proof/Machine/Cxp.lean ====
section
/-! DEFINITION. The CoaXPress ports (R17, R211, R214, R215): lines of line-scan cameras with their slots (R82 to R84, R227)
and frames of area cameras; and the line timeout (R227). -/

namespace Sys2Proof.Machine

open Sys2Proof Sys2Proof.Machine.Bits

/-- What the commands of a camera pair answer. -/
abbrev CxpResult := Host.Outcome State Fault Refusal

/-! ### Segments of a line -/

/-- The first stage of a stream. -/
def firstStage (s : State) (st : Stream) : Option StageDecl := s.stageOf st 0

/-- Bytes of a segment of a line, 256 pixels (R79); a line that feeds a frame-mode stage is one piece. -/
def segmentBytes (s : State) (st : Stream) : Nat :=
  match firstStage s st with
  | none => max 1 st.decl.lineBytes
  | some d =>
    if d.mode = .strata ∧ 0 < st.decl.width then max 1 (256 * st.decl.lineBytes / st.decl.width)
    else max 1 st.decl.lineBytes

/-- Segments of a line. -/
def segmentCount (s : State) (st : Stream) : Nat := max 1 (ceilDiv st.decl.lineBytes (segmentBytes s st))

/-- Bytes of the right halo that segment data needs from the segment after it. -/
def haloBytes (s : State) (st : Stream) : Nat :=
  match firstStage s st with
  | none => 0
  | some d => if st.decl.width = 0 then 0 else d.halo * st.decl.lineBytes / st.decl.width

/-! ### Lines in reception -/

/-- The line of a sequence number whose last pixel has not arrived. -/
def Stream.line? (st : Stream) (seq : Nat) : Option PendLine := st.lines.find? (fun l => l.seq == seq && l.endAt.isNone)

/-- Change a pending line. -/
def modLine (id seq : Nat) (f : PendLine → PendLine) (s : State) : State :=
  s.modStream id (fun st => { st with lines := st.lines.map (fun l => if l.seq = seq then f l else l) })

/-- Forget a pending line; slots that it took and has not pushed go back. -/
def dropLine (id : Nat) (l : PendLine) (s : State) : State :=
  dropHandles (l.handles.map (fun h => h.2.2))
    (s.modStream id (fun st => { st with lines := st.lines.filter (fun x => x.seq != l.seq) }))

/-- ING discards the rest of a line that finds no slot (R84): the record carries the time of the trigger (R18).  What still comes of the
line is no stray. -/
def discardLine (id p : Nat) (l : PendLine) (s : State) : State :=
  overrunItem id p l.seq l.trigAt ((dropLine id l s).modStream id (fun st => { st with cutLines := addOnce st.cutLines l.seq }))

/-- Take slots for the segments whose first pixel has arrived; at most `fuel` of them.  The Bool says whether all were
found. -/
def takeSegments : (fuel : Nat) → (id seq : Nat) → State → Bool × State
  | 0, _, _, s => (true, s)
  | fuel + 1, id, seq, s =>
    match (s.stream? id).bind (fun st => (st.line? seq).map (fun l => (st, l))) with
    | none => (true, s)
    | some (st, l) =>
      if l.begun < segmentCount s st ∧ l.begun * segmentBytes s st < l.bytes.length then
        match takeBuffers st seq l.begun s with
        | (none, s1) => (false, s1)
        | (some hs, s1) =>
          takeSegments fuel id seq (modLine id seq (fun l =>
            { l with begun := l.begun + 1, handles := l.handles ++ hs.map (fun h => (l.begun, h.1, h.2)) }) s1)
      else (true, s)

/-- Payload of segment `k` of a line. -/
def segmentData (s : State) (st : Stream) (l : PendLine) (k : Nat) : List Byte :=
  (l.bytes.drop (k * segmentBytes s st)).take (segmentBytes s st)

/-- A segment is whole: its bytes and its right halo have arrived, or the line has ended. -/
def segmentWhole (s : State) (st : Stream) (l : PendLine) (ended : Bool) (k : Nat) : Bool :=
  ended || min st.decl.lineBytes ((k + 1) * segmentBytes s st + haloBytes s st) ≤ l.bytes.length

/-- The handle of a segment may enter the vein: TAL has stored the check values of all its pieces, that is, ING has written them with
their trailers (R19, R83). -/
def piecesStored (s : State) (h : W64) : Bool :=
  (ofHandle h).kind != 1 || (s.pool? (ofHandle h).pool).all (fun pl => slotFilled pl (ofHandle h).index s)

/-- The time that the metadata of a segment shows: that of the line's last pixel, and until it has come a free value, which TAL writes
over then (R18).
DESIGN CHOICE: log entry 73. -/
def lineStamp (l : PendLine) (s : State) : Nat × State :=
  match l.endAt with
  | some t => (t, s)
  | none => (Config.freeNat s.free % 2 ^ 64, { s with free := s.free + 1 })

/-- A line that has ended is held no longer than its slots. -/
def forgetLine (id seq : Nat) (s : State) : State :=
  s.modStream id (fun st => { st with lines := st.lines.filter (fun l => l.seq != seq || l.endAt.isNone || !l.handles.isEmpty) })

/-- Push the segments of a line that are whole and whose pieces are stored (R19, R79, R83). -/
def pushSegments (id seq : Nat) (s : State) : State :=
  match (s.stream? id).bind (fun st => (st.lines.find? (fun l => l.seq == seq)).map (fun l => (st, l))) with
  | none => s
  | some (st, l) =>
    let (stamp, s0) := lineStamp l s
    let go := l.handles.filter (fun h => segmentWhole s st l l.endAt.isSome h.1 && piecesStored s h.2.2)
    let s1 := modLine id seq (fun l => { l with handles := l.handles.filter (fun h => !go.contains h) }) s0
    forgetLine id seq (forEach go (fun h s =>
      let data := segmentData s st l h.1
      pushIngress st id seq (h.1 + 1 == segmentCount s st) stamp data.length (crc32c data) h.2.1 h.2.2 s) s1)

/-- What a write of ING may have completed: a slot of stage A, whose handle goes then (R83). -/
def pieceWritten (a : Agent) (n w : Nat) (s : State) : State :=
  match a with
  | .ingress =>
    match itemOfWindow s n w with
    | some (id, seq) => settle (pushSegments id seq s)
    | none => s
  | _ => s

/-- A REMOTE_WRITE (R134). -/
def execRemoteWrite (writer : Agent) (core : CoreNum) (window : Fin 256) (gen : Byte) (addr : Nat) (data : WriteBeat)
    (s : State) : CxpResult :=
  .next (pieceWritten writer core.val window.val
    (remoteWrite writer core.val window.val gen.toNat addr data.words data.poison data.trailer s))

/-! ### The line timeout (R227) -/

/-- The line timed out: the missing-line cause, the record and the time of the trigger. -/
def missLine (id : Nat) (st : Stream) (l : PendLine) (s : State) : State :=
  qmgRecord id l.seq Cause.missingLine
    (report (ingressEv id st l.seq Cause.missingLine Bit.talMissing)
      (raise .tal Bit.talMissing (restamp id l.seq l.trigAt
        ((dropLine id l s).modItem id l.seq (fun it => { it with stamp := l.trigAt, checked := true })))))

/-- The last pixel is missing after the timeout; one at the timeout itself is in time. -/
def lineLate (st : Stream) (l : PendLine) (now : Nat) : Bool := l.endAt.isNone && decide (l.trigAt + st.decl.lineTimeout < now)

/-- The lines of a pair that have timed out. -/
def timeoutLines (k : Nat) (s : State) : State :=
  match Tab.find (s.port (pairPort k)).bind 0 with
  | none => s
  | some id =>
    match s.stream? id with
    | none => s
    | some st => forEach (st.lines.filter (fun l => lineLate st l s.tal.time)) (missLine id st) s

/-- A LINE_TIMEOUT (R227). -/
def execLineTimeout (pair : PairNum) (s : State) : CxpResult := .next (settle (timeoutLines pair.val s))

/-! ### Packets of a line-scan camera -/

/-- The line has ended: its shape is judged, the item is complete, and the segments go whose pieces are stored (R18, R19, R215,
R228).  What is missing of its declared bytes is a free value.
DESIGN CHOICE: log entry 73. -/
def endLine (id p : Nat) (st : Stream) (seq : Nat) (s : State) : State :=
  match (s.stream? id).bind (·.line? seq) with
  | none => s
  | some l =>
    let bad := l.bytes.length < st.decl.lineBytes
    let s1 := if bad then flagItem id seq Cause.shape Bit.ingShape (raise (.ing p) Bit.ingShape s) else s
    let (more, s2) := freeBytes (st.decl.lineBytes - l.bytes.length) s1
    let payload := l.bytes ++ more
    let s3 := detect id seq [payload] (checkItem id seq s2.tal.time payload (restamp id seq s2.tal.time s2))
    if st.faulted && st.cls != .triplex then faultedRecord id seq [] (dropLine id l s3)
    else pushSegments id seq (modLine id seq (fun l => { l with bytes := payload, endAt := some s.tal.time }) s3)

/-- The segments that a packet of `n` bytes at offset `off` touches. -/
def segmentsHit (s : State) (st : Stream) (off n : Nat) : List Nat :=
  if n = 0 then []
  else (List.range ((off + n - 1) / segmentBytes s st + 1)).filter (fun k => off / segmentBytes s st ≤ k)

/-- Bytes of a packet at their place in the line; bytes before them that have not come are a free value, and none counts beyond the
declared length (R215). -/
def putBytes (len off : Nat) (old data : List Byte) (s : State) : List Byte × State :=
  let (gap, s1) := freeBytes (off - old.length) s
  ((old.take off ++ gap ++ data ++ old.drop (off + data.length)).take len, s1)

/-- A packet of line `seq`: its pixels are kept whatever its CRC, and with a mismatch the segments that it touches are flagged
(R215). -/
def linePacket (id p : Nat) (st : Stream) (l : PendLine) (off : Nat) (data : List Byte) (crcOk lineEnd : Bool) (s : State) : State :=
  let (inj, s1) := takeInj (.ing p) Bit.ingCrc (countPacket p s)
  let bad := inj || !crcOk
  let s2 := if bad then flagItem id l.seq Cause.ingressIntegrity Bit.ingCrc (countCrc p s1) else s1
  let hit := if bad then segmentsHit s st off data.length else []
  let (bytes, s2') := putBytes st.decl.lineBytes off l.bytes data s2
  let s3 := modLine id l.seq (fun l => { l with bytes := bytes, hit := hit.foldl addOnce l.hit }) s2'
  let (ok, s4) := takeSegments (segmentCount s3 st) id l.seq s3
  if !ok then
    match (s4.stream? id).bind (·.line? l.seq) with
    | none => s4
    | some x => discardLine id p x s4
  else if lineEnd then endLine id p st l.seq s4
  else pushSegments id l.seq s4

/-- A packet of a line that no trigger awaits: ING_STRAY counts the line once, with its first packet (R227, R251).
DEDUCED: log entry 131. -/
def strayOnce (p : Nat) (line : CxpLine) (lineEnd : Bool) (s : State) : State :=
  let s1 := if (s.port p).strayLine = some line then s else strayPacket p s
  s1.modPort p (fun x => { x with strayLine := if lineEnd then none else some line })

/-- A packet of the camera of a line-scan stream: of a line that a trigger awaits, of one that has timed out, of one of which ING has
discarded the rest, or of none (R84, R227). -/
def lineScanPacket (id p : Nat) (st : Stream) (line : CxpLine) (off : Nat) (data : List Byte) (crcOk lineEnd : Bool)
    (s : State) : State :=
  match line.trigger.bind st.line? with
  | none =>
    if line.trigger.any (st.cutLines.contains ·) then
      s.modStream id (fun st => { st with cutLines := if lineEnd then dropAll st.cutLines (line.trigger.getD 0) else st.cutLines })
    else strayOnce p line lineEnd s
  | some l =>
    if lineLate st l s.tal.time then strayOnce p line lineEnd (missLine id st l s)
    else linePacket id p st l off data crcOk lineEnd s

/-! ### Packets of an area camera -/

/-- A packet of an area camera: the first one opens the frame, and the frame ends with its last line (R215, R228).
DESIGN CHOICE: log entry 77. -/
def areaPacket (id p : Nat) (st : Stream) (boxes : List (List Byte)) (data : List Byte) (crcOk lineEnd : Bool) (s : State) : State :=
  let s0 := countPacket p s
  let s1 := if st.frame.isNone && !s.boot.ingressClosed then openFrame id st.nextSeq s0 else s0
  match (s1.stream? id).bind (·.frame) with
  | none => s1
  | some f =>
    let row := Tab.get f.lines [] f.rows ++ data
    let (inj, s2) := takeInj (.ing p) Bit.ingCrc s1
    let s3 := if inj || !crcOk then flagItem id f.seq Cause.ingressIntegrity Bit.ingCrc (countCrc p s2) else s2
    if lineEnd then
      let g := f.addRow st.decl row s.tal.time
      let s4 := modFrame id (fun _ => g) s3
      if st.decl.height ≤ g.rows then endFrame id p st.decl g boxes false s4 else s4
    else modFrame id (fun f => { f with lines := Tab.insert f.lines f.rows row, lastAt := s.tal.time }) s3

/-- A CoaXPress stream packet of pair `k`. -/
def cxpPacket (k : Nat) (line : CxpLine) (off : Nat) (data : List Byte) (crcOk lineEnd : Bool) (s : State) : State :=
  let p := pairPort k
  match boundStream p 0 s with
  | none => strayPacket p s
  | some (id, st) =>
    if st.decl.kind = 0 then lineScanPacket id p st line off data crcOk lineEnd s
    else areaPacket id p st line.boxes data crcOk lineEnd s

/-- A CXP_STREAM_PACKET (R215). -/
def execCxpStreamPacket (pair : PairNum) (line : CxpLine) (off : Nat) (data : List Byte) (crcOk lineEnd : Bool)
    (s : State) : CxpResult := .next (settle (cxpPacket pair.val line off data crcOk lineEnd s))

end Sys2Proof.Machine
end

