-- ==== Sys2Proof/Machine/Decoders.lean ====
section
/-! DEFINITION. The JPEG-LS decoders (R240 to R242), the tokeniser (R243, R244), the augmentations of a decoded sample (R246,
R247) and corrupt samples (R248, R249). -/

namespace Sys2Proof.Machine

open Sys2Proof Sys2Proof.Machine.Bits

/-- What the commands of the decoders and of the tokeniser answer. -/
abbrev DecodeResult := Host.Outcome State Fault Refusal

/-! ### Corrupt samples (R248, R249) -/

/-- The job that a sample of a stream feeds: its oldest one that is not held.
DESIGN CHOICE: log entry 84. -/
def Stream.feeding (st : Stream) : Option Job := st.jobs.find? (fun j => j.held.isNone)

/-- PPE tells SAFE of a corrupt sample. -/
def sampleEv (id : Nat) (st : Stream) (seq cause bit : Nat) : FaultEv :=
  { unit := 0xC8, cause := cause, ctx := st.ctx, part := st.part, seq := seq, stream := some id, bit := bit }

/-- A corrupt sample: it holds an adaptation job, and marks the record of any other.
DESIGN CHOICE: log entry 84. -/
def corruptSample (id sample cause bit : Nat) (s : State) : State :=
  match (s.stream? id).bind (fun st => st.feeding.map (fun j => (st, j))) with
  | none => s
  | some (st, j) =>
    let s1 := report (sampleEv id st j.seq cause bit) s
    if j.adapt then holdJob id sample s1 else qmgRecord id j.seq cause s1

/-- PPE has fed a sample to the job of its stream: the samples of a job go in ascending order (R249). -/
def fedSample (id sample : Nat) (s : State) : State :=
  s.modStream id (fun st => { st with jobs := st.jobs.map (fun j =>
    if some j.seq = st.feeding.map (·.seq) then { j with sample := max j.sample (sample + 1) } else j) })

/-! ### JPEG-LS (R240 to R242) -/

/-- Bytes of a decoded image: X × Y × Nf × B. -/
def imageBytes (h : JlsHeader) : Nat := h.x * h.y * h.components * (if h.precision = 8 then 1 else 2)

/-- Bytes of a buffer of the pool that the decoder's output goes to. -/
def outputSize (s : State) (st : Stream) : Nat :=
  match ingressLink s st 0 with
  | none => 0
  | some l => ((s.pool? (l.ends 0).1).map (fun p => p.units * 64)).getD 0

/-- The checks of R241. -/
def dimensionsFit (s : State) (st : Stream) (h : JlsHeader) : Bool :=
  h.x ≤ st.decl.maxWidth && h.y ≤ st.decl.maxHeight && h.precision == st.decl.depth && h.components == st.decl.comps &&
    imageBytes h ≤ outputSize s st

/-- The greatest NEAR of T.87 for samples of a precision: the lesser of 255 and half of the greatest sample (R240).
PRESUMED: log entry 130. -/
def nearMax (precision : Nat) : Nat := min 255 ((2 ^ precision - 1) / 2)

/-- A header within the scope of R240: SOF55, 8 to 16 bits, one component or three with line interleave, sampling factors of 1, an allowed
NEAR, no LSE but preset coding parameters, no DNL and a height. -/
def withinScope (h : JlsHeader) : Bool :=
  !h.unsupported && h.sof == 0xF7 && 8 ≤ h.precision && h.precision ≤ 16 && (h.components == 1 || (h.components == 3 && h.ilv == 1)) &&
    h.ilv ≤ 1 && h.near ≤ nearMax h.precision && h.sampling.all (· == 0x11) && h.lse.all (· == 1) && !h.dnl && h.y != 0

/-- Reason for which a header is rejected; 0 for none (R240, R241, R242).
DESIGN CHOICE: log entry 84. -/
def headerReason (s : State) (st : Stream) (h : JlsHeader) : Nat :=
  if h.malformed then 5
  else if !withinScope h then 4
  else if !dimensionsFit s st h then 1
  else 0

/-- ERR_STAT bit of a reason (R260). -/
def reasonBit (reason : Nat) : Nat :=
  if reason = 1 then Bit.ppeDim else if reason = 4 then Bit.ppeUnsupported else Bit.ppeCorrupt

/-- Reject an image: counted, shown in PPE_JLS_LAST, its sample corrupt (R242). -/
def rejectImage (id sample reason : Nat) (s : State) : State :=
  corruptSample id sample Cause.decodeReject (reasonBit reason)
    (raise .ppe (reasonBit reason)
      (s.modPpe (fun p => { p with jlsReject := sat32 (p.jlsReject + 1), jlsStream := id % 65536, jlsReason := reason })))

/-- The decoder has read a good header: it takes a buffer of the output pool and decodes; without a free one it
does not start. -/
def startDecode (d id sample : Nat) (st : Stream) (h : JlsHeader) (s : State) : State :=
  match ingressLink s st 0 with
  | none => s
  | some l =>
    match allocFrom .ppe (l.ends 0).1 0 s with
    | .got x s1 =>
      let (cut, s2) := takeInj .ppe Bit.ppeCorrupt s1
      s2.modPpe (fun p =>
        { p with
          decoders := Tab.insert p.decoders d
            { stream := id, sample := sample, handle := x, queue := (l.ends 0).2, len := imageBytes h,
              elems := h.x * h.y * h.components, width := h.x, height := h.y, comps := h.components,
              precision := h.precision, cut := cut } })
    | .wait s1 => s1
    | .ended s1 => s1

/-- An image for decoder `d`, when that is free and a job of the stream takes samples, an adaptation job none that lies before those it has
been fed (R249). -/
def decodeImage (d id sample : Nat) (h : JlsHeader) (s : State) : State :=
  if (Tab.find s.ppe.decoders d).isSome then s
  else
    match s.stream? id with
    | none => s
    | some st =>
      if st.feeding.all (fun j => j.adapt && sample < j.sample) then s
      else
        let r := headerReason s st h
        if r = 0 then startDecode d id sample st h s else rejectImage id sample r s

/-- A JLS_DECODE (R241). -/
def execJlsDecode (decoder : Fin 4) (stream : StreamId) (sample : Nat) (hdr : JlsHeader) (s : State) : DecodeResult :=
  .next (settle (decodeImage decoder.val stream sample hdr s))

/-! ### Augmentation (R246, R247) -/

/-- What the augmentations of a sample depend on: the image, its draws by number, and the declared ranges. -/
structure Augment where
  width : Nat
  height : Nat
  comps : Nat
  draw : Nat → Nat
  range : Nat → W32

/-- The augmentations of a decoded sample of an adaptation job. -/
def augmentOf (x : Decoder) (st : Stream) (j : Job) (s : State) : Augment :=
  let set := ((Tab.find s.images st.image).map (fun im => im.decl.augSet)).getD 0
  { width := x.width, height := x.height, comps := max 1 x.comps,
    draw := fun n => augDraw j.augSeed n x.sample set, range := Config.augRange ((st.decl.adapt.map (·.2)).getD 0) }

/-- The crop ranges in y and x: a range leaves at least one line and one pixel.
DESIGN CHOICE: log entry 84. -/
def Augment.ranges (a : Augment) : Nat × Nat := (min (a.range 0).toNat (a.height - 1), min (a.range 1).toNat (a.width - 1))

/-- The crop offsets in y and x. -/
def Augment.offsets (a : Augment) : Nat × Nat := (Pixels.cropOffset (a.draw 1) a.ranges.1, Pixels.cropOffset (a.draw 2) a.ranges.2)

/-- Lines and pixels of a line that a crop leaves. -/
def Augment.size (a : Augment) : Nat × Nat := (a.height - a.ranges.1, a.width - a.ranges.2)

/-- Elements of the augmented sample. -/
def Augment.count (a : Augment) : Nat := a.size.1 * a.size.2 * a.comps

/-- The element of the image that element `e` of the crop of the flipped image reads; the components of a pixel stand together.
DESIGN CHOICE: log entry 84. -/
def Augment.source (a : Augment) (e : Nat) : Nat :=
  let p := e / a.comps
  let row := p / a.size.2 + a.offsets.1
  let col := p % a.size.2 + a.offsets.2
  (row * a.width + (if a.draw 0 % 2 = 1 then a.width - 1 - col else col)) * a.comps + e % a.comps

/-- Gain and offset of a sample. -/
def Augment.gain (a : Augment) : W32 := Pixels.between (a.range 2) (a.range 3) (a.draw 3)
def Augment.offset (a : Augment) : W32 := Pixels.between (a.range 4) (a.range 5) (a.draw 4)

/-- Noise on element `e`. -/
def Augment.noise (a : Augment) (e : Nat) : W32 := Pixels.noise (a.range 6) (a.draw (16 + e))

/-- Element `e` of the augmented sample, in FP32: times the gain, plus the offset, plus its noise. -/
def Augment.element (a : Augment) (codes : List Nat) (e : Nat) : W32 :=
  Fp.add32 (Fp.add32 (Fp.mul32 (Fp.ofInt32 (((codes[a.source e]?).getD 0 : Nat) : Int)) a.gain) a.offset) (a.noise e)

/-- The sample value that stores an element: the nearest one of the image's precision.
DESIGN CHOICE: log entry 84. -/
def storedSample (precision : Nat) (v : W32) : Nat :=
  match Fp.dec32 v with
  | .fin neg m e => (max 0 (min ((2 ^ precision : Nat) - 1 : Int) (Fp.nearestInt neg m e))).toNat
  | _ => 0

/-- The bytes of samples, one for a precision of 8 and two otherwise (R241). -/
def sampleBytes (precision : Nat) (vs : List Nat) : List Byte := vs.flatMap (toBytes (if precision = 8 then 1 else 2))

/-- What PPE writes into the buffer of a decoded image, augmented for an adaptation job.  T.87's decoding itself is not modelled: the decoded
elements are free values.
DESIGN CHOICE: log entry 84. -/
def decodedBytes (x : Decoder) (st : Stream) (j : Job) (s : State) : List Byte × State :=
  let codes := (List.range x.elems).map (fun e => Config.freeNat (s.free + e) % 2 ^ x.precision)
  let s1 := { s with free := s.free + x.elems }
  if j.adapt then
    let a := augmentOf x st j s
    let vs := (List.range a.count).map (a.element codes)
    (sampleBytes x.precision (vs.map (storedSample x.precision)),
      s1.emit (.augmented x.stream x.sample (a.draw 0 % 2 == 1) a.offsets.1 a.offsets.2 a.gain a.offset
        ((List.range a.count).map a.noise) vs))
  else (sampleBytes x.precision codes, s1)

/-- A decode has ended well: its buffer goes on, augmented for an adaptation job. -/
def finishDecode (x : Decoder) (s : State) : State :=
  match (s.stream? x.stream).bind (fun st => st.feeding.map (fun j => (st, j))) with
  | none => forceFree x.handle s
  | some (st, j) =>
    let s1 := fedSample x.stream x.sample (s.modPpe (fun p => { p with jlsDone := sat32 (p.jlsDone + 1) }))
    let (bytes, s2) := decodedBytes x st j s1
    let crc := crc32c bytes
    let b := ofHandle x.handle
    let s3 := (stampBuffer x.handle x.stream j.seq (((st.item? j.seq).map (·.stamp)).getD 0) bytes.length 0 crc s2).modBuffer b.pool b.index
      (fun b => { b with sample := x.sample })
    push .ppe x.queue ({ b with last := true, tag := crc.toNat % 256 } : Handle).toWord s3

/-- A decode ends: well, or cut short, or with bytes after EOI (R242). -/
def endDecode (d : Nat) (how : JlsEnd) (s : State) : State :=
  match Tab.find s.ppe.decoders d with
  | none => s
  | some x =>
    let s1 := s.modPpe (fun p => { p with decoders := Tab.erase p.decoders d })
    if x.cut ∨ how = .truncated then rejectImage x.stream x.sample 2 (forceFree x.handle s1)
    else if how = .trailing then rejectImage x.stream x.sample 3 (forceFree x.handle s1)
    else finishDecode x s1

/-- A JLS_DECODE_DONE (R242). -/
def execJlsDecodeDone (decoder : Fin 4) (result : JlsEnd) (s : State) : DecodeResult :=
  .next (settle (endDecode decoder.val result s))

/-! ### The tokeniser (R243, R244) -/

/-- The vocabulary of a stream's image. -/
def vocabOf (s : State) (st : Stream) : Option (List (List Byte × Nat)) :=
  (Tab.find s.images st.image).bind (fun im => im.decl.vocab)

/-- Tokenise an input of a stream, or reject it as a corrupt sample. -/
def tokeniseInput (id sample : Nat) (input : List Byte) (s : State) : State :=
  match (s.stream? id).bind (fun st => (vocabOf s st).map (fun v => (st, v))) with
  | none => s
  | some (st, v) =>
    let ids := tokens v input.length input
    if st.decl.maxTokens < ids.length then
      corruptSample id sample Cause.tokenOverflow Bit.ppeTok
        (raise .ppe Bit.ppeTok (s.modPpe (fun p => { p with tokReject := sat32 (p.tokReject + 1) })))
    else (fedSample id sample (s.modPpe (fun p => { p with tokDone := sat32 (p.tokDone + 1) }))).emit (.tokens id ids)

/-- A TOKENISE (R244). -/
def execTokenise (stream : StreamId) (sample : Nat) (input : List Byte) (s : State) : DecodeResult :=
  .next (settle (tokeniseInput stream sample input s))

end Sys2Proof.Machine
end

