-- ==== Sys2Proof/Machine/Lidar.lean ====
section
/-! DEFINITION. Lidar sweeps on an Ethernet lane (R216, R217) and their stamps and sequence numbers (R18, R228). -/

namespace Sys2Proof.Machine

open Sys2Proof Sys2Proof.Machine.Bits

/-- What a packet of an Ethernet lane answers. -/
abbrev LidarResult := Host.Outcome State Fault Refusal

/-- The port page of an Ethernet lane. -/
def lanePort (lane : Nat) : Nat := 12 + lane

/-- The armed stream that a UDP packet belongs to: bound to the lane, with its source address and port (R217). -/
def lidarStream (p : Nat) (pkt : UdpPacket) (s : State) : Option (Nat × Stream) :=
  ((s.port p).bind.map (·.2)).findSome? (fun id =>
    ((s.stream? id).filter (fun st =>
      st.armed && st.decl.kind == 3 && st.decl.srcIp == pkt.srcIp && st.decl.udpPort == pkt.dstPort)).map (fun st => (id, st)))

/-- The packet index in the payload: byte offset, width and byte order as declared. -/
def packetIndex (id : Nat) (payload : List Byte) : Nat :=
  let (off, width, big) := Config.lidarIndex id
  let bs := (payload.drop off).take (if width = 32 then 4 else 2)
  (if big then bs else bs.reverse).foldl (fun a b => a * 256 + b.toNat) 0

/-- Close a sweep: packet i stands at offset i × L of its buffer; a missing packet flags it, and it is never filled in (R217): what the
buffer holds there is a free value. -/
def endSweep (id p : Nat) (st : Stream) (f : OpenFrame) (s : State) : State :=
  let bad := f.lines.length < st.decl.height
  let s1 := if bad then flagItem id f.seq Cause.missingData Bit.ingShape (raise (.ing p) Bit.ingShape s) else s
  let (rows, s2) := wholeRows st.decl.lineBytes f.lines (List.range st.decl.height) s1
  closeFrame id p { f with endAt := none } rows rows.flatten s2

/-- Write packet `i` into the open sweep; with its last packet the sweep closes.
DESIGN CHOICE: log entry 79. -/
def addPacket (id p : Nat) (st : Stream) (i : Nat) (payload : List Byte) (s : State) : State :=
  match (s.stream? id).bind (·.frame) with
  | none => s
  | some f =>
    let g := { f with lines := Tab.insert f.lines i payload, rows := f.rows + 1, lastIdx := i, lastAt := s.tal.time }
    let s1 := modFrame id (fun _ => g) s
    if st.decl.height ≤ g.lines.length then endSweep id p st g s1 else s1

/-- Packet `i` opens a sweep, unless ingress takes no new one (R371, R391).
DESIGN CHOICE: log entry 79. -/
def openSweep (id p : Nat) (st : Stream) (i : Nat) (payload : List Byte) (s : State) : State :=
  if s.boot.ingressClosed then s
  else
    match s.stream? id with
    | none => s
    | some now => addPacket id p st i payload (openFrame id now.nextSeq s)

/-- A packet of stream `id` with the declared payload length (R217).
DESIGN CHOICE: log entry 79. -/
def sweepPacket (id p : Nat) (st : Stream) (payload : List Byte) (s : State) : State :=
  let i := packetIndex id payload
  if st.decl.height ≤ i then
    let s1 := dropPacket p s
    match st.frame with
    | none => s1
    | some f => flagItem id f.seq Cause.shape Bit.ingShape (raise (.ing p) Bit.ingShape s1)
  else
    match st.frame with
    | none => openSweep id p st i payload (countPacket p s)
    | some f =>
      if i < f.lastIdx then openSweep id p st i payload (endSweep id p st f (countPacket p s))
      else if (Tab.find f.lines i).isSome then dropPacket p s
      else addPacket id p st i payload (countPacket p s)

/-- The 16-bit words of bytes, the first one the high one of each; an odd byte is padded with 0. -/
def words16 : List Byte → List Nat
  | [] => []
  | [a] => [a.toNat * 256]
  | a :: b :: rest => (a.toNat * 256 + b.toNat) :: words16 rest

/-- The checksum of a UDP packet over IPv4 holds: none given, or the ones' complement sum over the pseudo-header, the UDP header and the
payload has every bit set (R216).
PRESUMED: log entry 130. -/
def checksumHolds (pkt : UdpPacket) : Bool :=
  let len := 8 + pkt.payload.length
  pkt.checksum == 0 ||
    ([pkt.srcIp / 65536, pkt.srcIp % 65536, pkt.dstIp / 65536, pkt.dstIp % 65536, 17, len, pkt.srcPort, pkt.dstPort, len, pkt.checksum] ++
      words16 pkt.payload).sum % 65535 == 0

/-- Bytes of the frame of a UDP packet, its check sequence included.
PRESUMED: log entry 130. -/
def frameBytes (pkt : UdpPacket) : Nat := 14 + 4 * pkt.tags + pkt.hdrLen + 8 + pkt.payload.length + 4

/-- A packet is for the lane: to its own static address or to all (R216).
PRESUMED: log entry 130. -/
def addressed (x : PortSt) (pkt : UdpPacket) : Bool :=
  (pkt.dstMac == x.mac || pkt.dstMac == 2 ^ 48 - 1) && (pkt.dstIp == x.ip || pkt.dstIp == 2 ^ 32 - 1)

/-- A packet that an Ethernet lane accepts (R216). -/
def accepted (x : PortSt) (pkt : UdpPacket) : Bool :=
  pkt.ok && pkt.tags ≤ 1 && pkt.hdrLen == 20 && !pkt.fragment && frameBytes pkt ≤ 9216 && checksumHolds pkt && addressed x pkt

/-- A UDP packet of an Ethernet lane: what is not accepted IPv4 is discarded and counted, what no armed stream is bound to is
a stray (R211, R216). -/
def udpPacket (lane : Nat) (pkt : UdpPacket) (s : State) : State :=
  let p := lanePort lane
  if !accepted (s.port p) pkt then dropPacket p s
  else
    match lidarStream p pkt s with
    | none => strayPacket p s
    | some (id, st) =>
      if pkt.payload.length ≠ st.decl.lineBytes then dropPacket p s else sweepPacket id p st pkt.payload s

/-- A LIDAR_PACKET (R217). -/
def execLidarPacket (lane : LaneNum) (pkt : UdpPacket) (s : State) : LidarResult :=
  .next (settle (udpPacket lane.val pkt s))

end Sys2Proof.Machine
end

