-- ==== Sys2Proof/Machine/Discipline.lean ====
section
/-! DEFINITION. Discipline of the timebase by PTP or PPS (R219 to R222). -/

namespace Sys2Proof.Machine

open Sys2Proof Sys2Proof.Machine.Bits

/-- What the commands of the timebase answer. -/
abbrev TimeResult := Host.Outcome State Fault Refusal

/-- A warning of TAL to SAFE (R221, R222). -/
def timeWarning (bit : Nat) (s : State) : State :=
  report { unit := 0xC0, cause := Cause.timebase, cls := 2, bit := bit } (raise .tal bit s)

/-- The greatest rate correction: 200 ppm of 4 ns, in units of 2^−32 ns a cycle (R219, R221). -/
def rateLimit : Nat := 3435973

/-- A slew: some rate correction within the limit.  R221 gives the limit and no control law: a free value. -/
def slew (s : State) : State :=
  { s with
    free := s.free + 1
    tal := { s.tal with rate := ((Config.freeNat s.free % (2 * rateLimit + 1) : Nat) : Int) - rateLimit } }

/-- The state of the discipline after an offset: the first one leads to ACQUIRING, eight in a row within 100 ns to LOCKED. -/
def Tal.afterOffset (t : Tal) (o : Int) : Tal :=
  let first := t.disc == .free || t.disc == .holdover
  let good := if o.natAbs ≤ 100 then (if first then 0 else t.good) + 1 else 0
  let disc : Disc := if first then .acquiring else t.disc
  { t with
    offset := max (-(2 ^ 31)) (min (2 ^ 31 - 1) o), good := min 8 good
    disc := if 8 ≤ good then .locked else disc }

/-- The forward step of ACQUIRING, only while no stream is armed; one that 64 bits do not hold would not go forward (R219). -/
def maySteps (t : Tal) (o : Int) (armed : Bool) : Bool :=
  t.disc == .acquiring && decide (0 < o) && !armed && decide (t.time + o.toNat < 2 ^ 64)

/-- An offset has been measured: state, correction, and the warning when the source lies more than 1 s behind (R221). -/
def measured (o : Int) (s : State) : State :=
  let s1 := s.modTal (fun t => t.afterOffset o)
  let s2 :=
    if maySteps s1.tal o s1.anyArmed then s1.modTal (fun t => { t with time := t.time + o.toNat })
    else slew s1
  if o < -(secNs : Int) then timeWarning Bit.talBehind s2 else s2

/-- The fields of a data set in the order in which the best-master algorithm compares them (R220).
PRESUMED: log entry 130. -/
def clockFields (c : PtpClock) : List Nat :=
  [c.priority1, c.clockClass, c.accuracy, c.variance, c.priority2, c.identity, c.steps]

/-- The first list is below the second at the first place where they differ. -/
def below : List Nat → List Nat → Bool
  | a :: as, b :: bs => decide (a < b) || (a == b && below as bs)
  | _, _ => false

/-- Master `a` is a better one than `b`: its data set is lower (R220). -/
def betterMaster (a b : PtpClock) : Bool := below (clockFields a) (clockFields b)

/-- A Sync of the master, with its origin timestamp: the device sends a delay request, over the transport that the Sync came by, and keeps
the Sync's two times and that of the request (R220).  The request leaves at once.
DESIGN CHOICE: log entry 82. -/
def askDelay (m : PtpMsg) (origin arrived : Nat) (s : State) : State :=
  (s.modTal (fun t => { t with syncRx := none, delayReq := some (origin, arrived, t.time) })).emit (.delayReq m.lane.val m.udp)

/-- The offset of the master from the timebase by the delay request-response mechanism: t1 is the origin of the Sync, t2 its arrival, t3
the request's departure and t4 its arrival at the master (R220).
PRESUMED: log entry 130. -/
def ptpOffset (t1 t2 t3 t4 : Nat) : Int := -((((t2 : Int) - t1) - ((t4 : Int) - t3)) / 2)

/-- What the messages of the master in use do: a Sync of a one-step master and the Follow_Up of a two-step one bring its origin timestamp, a
Delay_Resp the offset (R220); every Sync restarts the holdover limit (R221). -/
def fromMaster (m : PtpMsg) (s : State) : State :=
  let synced (s : State) : State := s.modTal (fun t => { t with lastSync := some s.clock, syncInt := m.interval })
  match m.body with
  | .announce => s
  | .sync (some t1) => askDelay m t1 s.tal.time (synced s)
  | .sync none => (synced s).modTal (fun t => { t with syncRx := some s.tal.time })
  | .followUp t1 =>
    match s.tal.syncRx with
    | none => s
    | some t2 => askDelay m t1 t2 s
  | .delayResp t4 =>
    match s.tal.delayReq with
    | none => s
    | some (t1, t2, t3) => measured (ptpOffset t1 t2 t3 t4) (s.modTal (fun t => { t with delayReq := none }))

/-- A PTP message of the lane and domain in use: a better master takes over, and messages of a worse one change nothing (R220).
DESIGN CHOICE: log entry 82. -/
def ptpTaken (m : PtpMsg) (s : State) : State :=
  match s.tal.master with
  | none => fromMaster m (s.modTal (fun t => { t with master := some m.master, syncRx := none, delayReq := none }))
  | some old =>
    if betterMaster old m.master then s
    else if old = m.master then fromMaster m s
    else fromMaster m (s.modTal (fun t => { t with master := some m.master, syncRx := none, delayReq := none }))

/-- A PTP message: on another lane, on a lane that is no Ethernet lane, or without PTP discipline, it is a packet that the lane
does not accept (R17, R216).
DESIGN CHOICE: log entry 82. -/
def ptpMessage (m : PtpMsg) (s : State) : State :=
  let p := lanePort m.lane.val
  if s.tal.src ≠ 1 ∨ m.lane.val ≠ s.tal.lane ∨ s.ethernet p = false then dropPacket p s
  else
    let s1 := countPacket p s
    if m.domain = s.tal.domain then ptpTaken m s1 else s1

/-- A PTP_MESSAGE (R220). -/
def execPtpMessage (msg : PtpMsg) (s : State) : TimeResult := .next (ptpMessage msg s)

/-- The second that a PPS edge marks: the one after that which software set, else no rule says which: a free value.
DESIGN CHOICE: log entry 82. -/
def edgeSecond (s : State) : Nat × State :=
  match s.tal.seconds with
  | some n => (n + 1, s)
  | none => (Config.freeNat s.free, { s with free := s.free + 1 })

/-- A rising PPS edge: a second boundary (R220).  Without PPS discipline it changes nothing. -/
def ppsEdge (s : State) : State :=
  if s.tal.src ≠ 2 then s
  else
    let (n, s1) := edgeSecond s
    measured (((n * secNs : Nat) : Int) - s1.tal.time)
      (s1.modTal (fun t => { t with seconds := t.seconds.map (fun _ => n), lastSync := some s.clock }))

/-- A PPS_EDGE (R220). -/
def execPpsEdge (s : State) : TimeResult := .next (ppsEdge s)

/-- The limit after which the source counts as missing: 4 sync intervals, or 1.5 s. -/
def Tal.holdLimit (t : Tal) : Nat := if t.src = 1 then 4 * t.syncInt else 1500000000

/-- The source is missing for its limit. -/
def sourceMissing (s : State) : Bool :=
  (s.tal.disc == .acquiring || s.tal.disc == .locked) && s.tal.lastSync.any (fun t => t + s.tal.holdLimit ≤ s.clock)

/-- Entry into HOLDOVER (R221, R222). -/
def enterHoldover (s : State) : State :=
  if sourceMissing s then
    timeWarning Bit.talHoldover (s.modTal (fun t => { t with disc := .holdover, holdAt := s.clock, good := 0, master := none, syncRx := none, delayReq := none }))
  else s

/-- A HOLDOVER_ENTRY (R221). -/
def execHoldoverEntry (s : State) : TimeResult := .next (enterHoldover s)

/-- After 10 s in HOLDOVER the timebase is FREE, with the last rate correction (R221, R222). -/
def leaveHoldover (s : State) : State :=
  if s.tal.disc = .holdover ∧ s.tal.holdAt + 10 * secNs ≤ s.clock then
    timeWarning Bit.talFree (s.modTal (fun t => { t with disc := .free }))
  else s

/-- A HOLDOVER_EXPIRY (R221). -/
def execHoldoverExpiry (s : State) : TimeResult := .next (leaveHoldover s)

end Sys2Proof.Machine
end

