-- ==== Sys2Proof/Machine/Injections.lean ====
section
/-! DEFINITION. The meanings of error injections: a 1 written to one ERR_INJ bit of a page (R47, R75, R169, R210, R250,
R253, R258, R260, R293, R375, R379, R432, R436). -/

namespace Sys2Proof.Machine

open Sys2Proof Sys2Proof.Machine.Bits

/-- What a write of an ERR_INJ bit answers: the next state. -/
abbrev InjResult := Host.Outcome State Fault Refusal

/-- A 1 written to bit `bit` of a page's ERR_INJ by function `fn`. -/
def inject (fn : FnNum) (b : Block) (bit : Nat) (s : State) : State :=
  hostWrite fn.val (regAddr b 0x1C) (BitVec.ofNat 32 (2 ^ bit)) s

/-- A 1 written to ABFT_MISMATCH of a core (R47, R75). -/
def execInjAbftMismatch (fn : FnNum) (core : CoreNum) (s : State) : InjResult :=
  .next (inject fn (.core core.val) Bit.coreAbft s)

/-- A 1 written to ACC_CHECK of a core (R46, R75). -/
def execInjAccCheck (fn : FnNum) (core : CoreNum) (s : State) : InjResult :=
  .next (inject fn (.core core.val) Bit.coreAcc s)

/-- A 1 written to STRAND_FAULT of a core (R58, R75). -/
def execInjStrandFault (fn : FnNum) (core : CoreNum) (s : State) : InjResult :=
  .next (inject fn (.core core.val) Bit.coreStrand s)

/-- A 1 written to SP_ECC_CORR of a core (R75). -/
def execInjSpEccCorr (fn : FnNum) (core : CoreNum) (s : State) : InjResult :=
  .next (inject fn (.core core.val) Bit.coreEccCorr s)

/-- A 1 written to SP_ECC_UNCORR of a core (R75). -/
def execInjSpEccUncorr (fn : FnNum) (core : CoreNum) (s : State) : InjResult :=
  .next (inject fn (.core core.val) Bit.coreEccUncorr s)

/-- A 1 written to TAG_CORR of a slice (R169). -/
def execInjShcTagCorr (fn : FnNum) (slice : SliceNum) (s : State) : InjResult :=
  .next (inject fn (.shc slice.val) Bit.shcTagCorr s)

/-- A 1 written to DATA_CORR of a slice (R169). -/
def execInjShcDataCorr (fn : FnNum) (slice : SliceNum) (s : State) : InjResult :=
  .next (inject fn (.shc slice.val) Bit.shcDataCorr s)

/-- A 1 written to DATA_UNCORR of a slice (R169). -/
def execInjShcDataUncorr (fn : FnNum) (slice : SliceNum) (s : State) : InjResult :=
  .next (inject fn (.shc slice.val) Bit.shcDataUncorr s)

/-- A 1 written to ECC_CORR of a channel (R169). -/
def execInjDmcEccCorr (fn : FnNum) (chan : ChanNum) (s : State) : InjResult :=
  .next (inject fn (.dmc chan.val) Bit.dmcEccCorr s)

/-- A 1 written to ECC_UNCORR of a channel (R169). -/
def execInjDmcEccUncorr (fn : FnNum) (chan : ChanNum) (s : State) : InjResult :=
  .next (inject fn (.dmc chan.val) Bit.dmcEccUncorr s)

/-- A 1 written to LINK_CORR of a channel (R169). -/
def execInjDmcLinkCorr (fn : FnNum) (chan : ChanNum) (s : State) : InjResult :=
  .next (inject fn (.dmc chan.val) Bit.dmcLinkCorr s)

/-- A 1 written to LINK_UNCORR of a channel (R169). -/
def execInjDmcLinkUncorr (fn : FnNum) (chan : ChanNum) (s : State) : InjResult :=
  .next (inject fn (.dmc chan.val) Bit.dmcLinkUncorr s)

/-- A 1 written to DESC_CORR (R210). -/
def execInjDescCorr (fn : FnNum) (s : State) : InjResult :=
  .next (inject fn (.qmg) Bit.qmgDescCorr s)

/-- A 1 written to DESC_UNCORR (R210). -/
def execInjDescUncorr (fn : FnNum) (s : State) : InjResult :=
  .next (inject fn (.qmg) Bit.qmgDescUncorr s)

/-- A 1 written to CRC of a port (R253). -/
def execInjIngCrc (fn : FnNum) (port : PortNum) (s : State) : InjResult :=
  .next (inject fn (.ing port.val) Bit.ingCrc s)

/-- A 1 written to HDR_CORR of a port (R253). -/
def execInjHdrCorr (fn : FnNum) (port : PortNum) (s : State) : InjResult :=
  .next (inject fn (.ing port.val) Bit.ingHdrCorr s)

/-- A 1 written to HDR_UNCORR of a port (R253). -/
def execInjHdrUncorr (fn : FnNum) (port : PortNum) (s : State) : InjResult :=
  .next (inject fn (.ing port.val) Bit.ingHdrUncorr s)

/-- A 1 written to ODO_ILLEGAL (R258). -/
def execInjOdoIllegal (fn : FnNum) (s : State) : InjResult :=
  .next (inject fn (.tal) Bit.talOdo s)

/-- A 1 written to JLS_CORRUPT (R260). -/
def execInjJlsCorrupt (fn : FnNum) (s : State) : InjResult :=
  .next (inject fn (.ppe) Bit.ppeCorrupt s)

/-- A 1 written to CMD_REJECTED (R293). -/
def execInjCmdRejected (fn : FnNum) (s : State) : InjResult :=
  .next (inject fn (.ctl) Bit.ctlRejected s)

/-- A 1 written to REG_FAIL (R375, R379). -/
def execInjRegFail (fn : FnNum) (s : State) : InjResult :=
  .next (inject fn (.pwr) Bit.pwrRegFail s)

/-- A 1 written to SENSOR_FAIL (R375, R379). -/
def execInjSensorFail (fn : FnNum) (s : State) : InjResult :=
  .next (inject fn (.pwr) Bit.pwrSensor s)

/-- A 1 written to CORR of PCE (R436). -/
def execInjPceCorr (fn : FnNum) (s : State) : InjResult :=
  .next (inject fn (.pce) Bit.pceCorr s)

/-- A 1 written to LANE_SPARED of a port (R436). -/
def execInjTlkLaneSpared (fn : FnNum) (port : TlkNum) (s : State) : InjResult :=
  .next (inject fn (.tlk port.val) Bit.tlkSpared s)

/-- A 1 written to REPLAY of a port (R436). -/
def execInjTlkReplay (fn : FnNum) (port : TlkNum) (s : State) : InjResult :=
  .next (inject fn (.tlk port.val) Bit.tlkReplay s)

end Sys2Proof.Machine
end

