-- ==== Sys2Proof/Machine/Links.lean ====
section
/-! DEFINITION. Ternlink (R405, R421 to R423) and the links of ingress ports (R253, R433); the meanings of memory, mesh and
link commands. -/

namespace Sys2Proof.Machine

open Sys2Proof Sys2Proof.Machine.Bits

/-! ### Ternlink -/

/-- The running release in the form of TLK_PEER_FW: major, minor and the low byte of the build (R437). -/
def Ctl.release24 (c : Ctl) : Nat := c.fwVer.toNat / 65536 * 256 + c.fwVer.toNat % 256

/-- Post PEER_VERSION for a port (R405, R407). -/
def peerNotice (p : Nat) (s : State) : State := postNotice 0x05 (p * 2 ^ 24 + (s.tlk p).peerFw % 2 ^ 24) none s

/-- The highest protocol version that both ports support; release 3.x supports 2 and 3 (R422). -/
def commonVersion (lo hi : Nat) : Option Nat :=
  if max 2 lo ≤ min 3 hi then some (min 3 hi) else none

/-- A port trains (R405, R422).
DESIGN CHOICE: log entry 42. -/
def tlkTrain (p lo hi dev release : Nat) (s : State) : State :=
  match commonVersion lo hi with
  | none => raise (.tlk p) Bit.tlkNoVersion (s.modTlk p (fun t => { t with up := false, lanes := 0 }))
  | some v =>
    let s1 := s.modTlk p (fun t =>
      { t with up := true, version := v, peer := dev % 256, lanes := 8, spareUsed := false, failed := [],
               steering := false, peerFw := release % 2 ^ 24 })
    if release % 2 ^ 24 = s.ctl.release24 then s1 else peerNotice p s1

/-- The part of a transfer that lies in the line of its first byte, and the rest. -/
def splitLine (off : Nat) (d : List Byte) : List Byte × List Byte := (d.take (64 - off % 64), d.drop (64 - off % 64))

/-- Write bytes through the home slices, line by line; `fuel` bounds the lines. -/
def writeLines : (fuel : Nat) → (off : Nat) → (d : List Byte) → (part : Nat) → State → State
  | 0, _, _, _, s => s
  | fuel + 1, off, d, part, s =>
    if d.isEmpty then s
    else
      let (x, rest) := splitLine off d
      let op : LineOp := if x.length = 64 then .writeLine x else .writePart (off % 64) x
      writeLines fuel (off + x.length) rest part (lineAccess off 0xFFFF part op .clean .clean false 0 .clean s).2

/-- An aperture of a port takes a transfer: opened, for the transfer's partition, and wide enough (R421). -/
def apertureOk (t : Tlk) (ap part off len : Nat) : Bool :=
  (Tab.find t.apertures ap).any (fun a => a.1 == part && a.2.1 ≤ off && off + len ≤ a.2.2 + 1)

/-- A flit arrives (R421): a failed CRC is replayed, a transfer into another partition's aperture refused with a NACK.
DESIGN CHOICE: log entry 42. -/
def tlkFlit (p : Nat) (crcOk : Bool) (part ap off : Nat) (d : List Byte) (s : State) : State :=
  if !(s.tlk p).up || (s.tlk p).steering || s.pwr.retention then s
  else
    let (inj, s1) := takeInj (.tlk p) Bit.tlkReplay s
    if inj || !crcOk then
      raise (.tlk p) Bit.tlkReplay (s1.modTlk p (fun t => { t with replays := sat32 (t.replays + 1) }))
    else if apertureOk (s1.tlk p) ap part off d.length then writeLines (d.length + 1) off d part s1
    else raise (.tlk p) Bit.tlkPartNack (s1.emit (.ternNack p))

/-- A lane fails (R423): the first is steered onto the spare, the second narrows the port, the third takes it down.  The
spare itself failing unused leaves no spare.  An armed injection fails the check on lane 0 (R436).
DESIGN CHOICE: log entry 42. -/
def tlkLaneFail (p lane : Nat) (s0 : State) : State :=
  let (inj, s) := takeInj (.tlk p) Bit.tlkSpared s0
  let l := if inj then 0 else lane
  let t := s.tlk p
  if !t.up || t.failed.contains l then s
  else
    let s1 := s.modTlk p (fun t => { t with failed := t.failed ++ [l] })
    if t.failed.isEmpty then
      if l = 8 then s1
      else raise (.tlk p) Bit.tlkSpared (s1.modTlk p (fun t => { t with spareUsed := true, steering := true }))
    else if t.failed.length = 1 then
      postNotice 0x02 0 none (raise (.tlk p) Bit.tlkWidth (s1.modTlk p (fun t => { t with lanes := 4 })))
    else s1.modTlk p (fun t => { t with up := false, lanes := 0, steering := false })

/-- The steering ends: every flit in flight is replayed; how many, no rule says (R423). -/
def tlkSteered (p : Nat) (s : State) : State :=
  if (s.tlk p).steering then
    let n := Config.freeNat s.free
    let s1 := ({ s with free := s.free + 1 } : State).modTlk p (fun t => { t with steering := false, replays := sat32 (t.replays + n) })
    if n = 0 then s1 else raise (.tlk p) Bit.tlkReplay s1
  else s

/-- A firmware message announces the peer's release (R405). -/
def tlkMessage (p release : Nat) (s : State) : State :=
  if !(s.tlk p).up || release % 2 ^ 24 == (s.tlk p).peerFw then s
  else peerNotice p (s.modTlk p (fun t => { t with peerFw := release % 2 ^ 24 }))

/-! ### Links of ingress ports -/

/-- A port loses its link; LINK_DOWN when a stream is bound to it (R253). -/
def portDown (p : Nat) (s : State) : State :=
  if (s.port p).up then
    let s1 := s.modPort p (fun x => { x with up := false, trained := false })
    if (s.port p).bind.isEmpty then s1 else raise (.ing p) Bit.ingLinkDown s1
  else s

/-- A port's link comes up and trains (R433). -/
def portUp (p : Nat) (s : State) : State := s.modPort p (fun x => { x with up := true, trained := true })

/-! ### Meanings -/

/-- What a memory or link command of this device answers: the next state. -/
abbrev MemResult := Host.Outcome State Fault Refusal

/-- A BAR4 access of the host (R413). -/
def execHostDramAccess (off : Nat) (op : LineOp) (tag data : Upset) (dram : DramUpset) (s : State) : MemResult :=
  .next (hostDram off op tag data dram s)

/-- An access of a scratchpad bank (R140). -/
def execScratchpadAccess (core : CoreNum) (op : SpOp) (upset : Upset) (s : State) : MemResult :=
  .next (spAccess core op upset s)

/-- Firmware repairs a row (R144). -/
def execRowRepair (core : CoreNum) (bank : Fin 64) (row : Fin 512) (s : State) : MemResult :=
  .next (settle (repairRow core.val bank.val row.val s))

/-- The scrubber reads a word (R141). -/
def execScratchpadScrub (core : CoreNum) (word : Nat) (upset : Upset) (s : State) : MemResult :=
  .next (scrubWord core.val word upset s)

/-- A request at a line's home slice (R151). -/
def execShcAccess (ctx : CtxNum) (part : PartNum) (off : Nat) (op : LineOp) (tag data : Upset)
    (tagCopy : Option (Fin 2)) (dram : DramUpset) (s : State) : MemResult :=
  .next (sliceAccess ctx.val part.val off op tag data tagCopy.isSome (tagCopy.elim 0 (·.val)) dram s)

/-- A DMC serves a request (R158). -/
def execDmcAccess (off : Nat) (op : LineOp) (upset : DramUpset) (ctx : CtxNum) (part : PartNum) (s : State) : MemResult :=
  .next (dmcServe off op upset ctx.val part.val s)

/-- The patrol scrubber reads a line (R160). -/
def execPatrolScrub (off : Nat) (upset : DramUpset) (secondPass : Bool) (s : State) : MemResult :=
  .next (patrol off upset secondPass s)

/-- Firmware steers a mesh lane (R154). -/
def execMeshLaneSteer (plane : PlaneNum) (link : Nat) (s : State) : MemResult := .next (steerLane plane.val link s)

/-- A steering of a mesh lane ends (R154). -/
def execMeshLaneSteerDone (plane : PlaneNum) (s : State) : MemResult := .next (steerDone plane.val s)

/-- A mesh plane is taken out (R388). -/
def execMeshPlaneOut (plane : PlaneNum) (why : PlaneLoss) (s : State) : MemResult := .next (planeOut plane.val why s)

/-- Destinations hash over the remaining planes (R388). -/
def execMeshPlaneRehash (plane : PlaneNum) (s : State) : MemResult := .next (planeRehash plane.val s)

/-- A 1 µs period of mesh shares begins (R325). -/
def execMeshTokenRefill (s : State) : MemResult := .next (refillTokens s)

/-- A 10 µs window of DRAM shares ends (R326). -/
def execDramShareWindow (chan : ChanNum) (s : State) : MemResult := .next (shareWindow chan.val s)

/-- A Ternlink port trains (R422). -/
def execTernlinkTraining (port : TlkNum) (lo hi peerDev peerRelease : Nat) (s : State) : MemResult :=
  .next (tlkTrain port.val lo hi peerDev peerRelease s)

/-- A Ternlink flit arrives (R421). -/
def execTernlinkFlit (port : TlkNum) (crcOk : Bool) (part : PartNum) (aperture off : Nat) (data : List Byte) (s : State) :
    MemResult :=
  .next (tlkFlit port.val crcOk part.val aperture off data s)

/-- A Ternlink lane fails (R423). -/
def execTernlinkLaneFail (port : TlkNum) (lane : Fin 9) (s : State) : MemResult := .next (tlkLaneFail port.val lane.val s)

/-- A firmware message from a peer (R405). -/
def execTernlinkFwMessage (port : TlkNum) (release : Nat) (s : State) : MemResult := .next (tlkMessage port.val release s)

/-- The steering of a Ternlink lane ends (R423). -/
def execTernlinkLaneSteerDone (port : TlkNum) (s : State) : MemResult := .next (tlkSteered port.val s)

/-- An ingress port loses its link (R253). -/
def execIngLinkDown (port : PortNum) (s : State) : MemResult := .next (portDown port.val s)

/-- An ingress port's link comes up (R433). -/
def execIngLinkUp (port : PortNum) (s : State) : MemResult := .next (portUp port.val s)

end Sys2Proof.Machine
end

