-- ==== Sys2Proof/Machine/Odometer.lean ====
section
/-! DEFINITION. The odometer unit: quadrature decoding (R223), line triggers (R224 to R226), acceptance of lines at their
trigger (R227); and the wait of an alignment set (R232). -/

namespace Sys2Proof.Machine

open Sys2Proof Sys2Proof.Machine.Bits

/-- What the commands of the odometer and of the alignment groups answer. -/
abbrev OdoResult := Host.Outcome State Fault Refusal

/-! ### Quadrature (R223, R256) -/

/-- Both inputs changed in one sample. -/
def illegalStep (a0 b0 a b : Bool) : Bool := a != a0 && b != b0

/-- Counts of a legal sample with ODO_A leading counted up: 1, −1 or 0. -/
def quadStep (a0 b0 a b : Bool) : Int :=
  if a != a0 then (if a != b then 1 else -1)
  else if b != b0 then (if a == b then 1 else -1)
  else 0

/-- A position as 48 signed bits. -/
def wrap48 (p : Int) : Int := (p + 2 ^ 47) % 2 ^ 48 - 2 ^ 47

/-- The position after a legal sample; DIR set counts ODO_B leading up. -/
def Tal.stepTo (t : Tal) (a b : Bool) : Int :=
  wrap48 (t.pos + (if t.odoDir then -1 else 1) * quadStep t.odoA t.odoB a b)

/-- A report of TAL to SAFE about the odometer.
DESIGN CHOICE: log entry 83. -/
def odoReport (cause bit : Nat) (s : State) : State := report { unit := 0xC0, cause := cause, bit := bit } s

/-- An illegal transition: the position stays, it is counted and reported, and the next line carries its flag. -/
def illegalSample (s : State) : State :=
  odoReport Cause.odometer Bit.talOdo
    (raise .tal Bit.talOdo (s.modTal (fun t => { t with illegal := sat32 (t.illegal + 1), flagOdo := true })))

/-! ### Triggers (R224, R226) -/

/-- The position rises past the next trigger position above the high-water mark. -/
def Tal.crosses (t : Tal) : Bool :=
  match t.grid with
  | none => false
  | some g => decide (t.highWater < t.pos) && (t.pos - g) % (t.odoCpl : Int) == 0

/-- The last issued trigger is less than TAL_ODO_MINPER ago. -/
def Tal.tooSoon (t : Tal) : Bool := t.lastTrig.any (fun x => t.time < x + t.odoMinPer)

/-- IDs of the armed line-scan streams. -/
def State.lineIds (s : State) : List Nat := s.streamIds (fun st => st.armed && st.decl.kind == 0)

/-- A trigger position passes without a line: the sequence numbers skip it. -/
def skipLine (id : Nat) (s : State) : State := s.modStream id (fun st => { st with nextSeq := st.nextSeq + 1 })

/-- A skipped position (R226).
DESIGN CHOICE: log entry 83. -/
def skipPosition (s : State) : State :=
  forEach s.lineIds skipLine (odoReport Cause.overspeed Bit.talOverspeed
    (raise .tal Bit.talOverspeed (s.modTal (fun t => { t with skipped := sat32 (t.skipped + 1), flagSpeed := true }))))

/-- The flags that the line of a trigger carries. -/
def Tal.lineCauses (t : Tal) : List Nat :=
  (if t.flagOdo then [Cause.odometer] else []) ++ (if t.flagSpeed then [Cause.overspeed] else [])

/-- A line is accepted at its trigger (R20, R227). -/
def acceptLine (now : Nat) (causes : List Nat) (id : Nat) (s : State) : State :=
  match s.stream? id with
  | none => s
  | some st =>
    acceptItem id { seq := st.nextSeq, stamp := now, causes := causes }
      (s.modStream id (fun st =>
        { st with
          nextSeq := st.nextSeq + 1
          lines := st.lines ++ [{ seq := st.nextSeq, trigAt := now }] }))

/-- A trigger goes to the camera pairs of TAL_ODO_CAMS, with the time from the crossing to the packet's start in its delay field, of which
R225 gives the bound alone: a free value.  Every armed line-scan stream accepts its line. -/
def issueTrigger (s : State) : State :=
  let s1 := forEach s.lineIds (acceptLine s.tal.time s.tal.lineCauses)
    ({ s with free := s.free + 1 }.emit (.trigger s.tal.cams (Config.freeNat s.free)))
  s1.modTal (fun t => { t with lastTrig := some t.time, flagOdo := false, flagSpeed := false })

/-- A trigger position is crossed: a trigger, a skipped position, or neither while ingress takes no new line (R371, R391).
DESIGN CHOICE: log entry 83. -/
def crossPosition (s : State) : State :=
  if s.boot.ingressClosed then forEach s.lineIds skipLine s
  else if s.tal.tooSoon then skipPosition s
  else issueTrigger s

/-- A legal sample moves the position (R223, R224). -/
def moveTo (a b : Bool) (s : State) : State :=
  let s1 := s.modTal (fun t =>
    let p := t.stepTo a b
    { t with pos := p, odoA := a, odoB := b, reverse := t.grid.isSome && decide (p < t.highWater) })
  let s2 := if s1.tal.crosses then crossPosition s1 else s1
  s2.modTal (fun t => { t with highWater := if t.grid.isSome then max t.highWater t.pos else t.highWater })

/-- A filtered sample of ODO_A and ODO_B. -/
def odoSample (a b : Bool) (s : State) : State :=
  let (inj, s1) := takeInj .tal Bit.talOdo s
  if inj || illegalStep s.tal.odoA s.tal.odoB a b then illegalSample (s1.modTal (fun t => { t with odoA := a, odoB := b }))
  else moveTo a b s1

/-- An ODO_FILTERED_SAMPLE (R223). -/
def execOdoFilteredSample (a b : Bool) (s : State) : OdoResult := .next (odoSample a b s)

/-! ### Alignment waits -/

/-- An ALIGN_WAIT_TIMEOUT (R232). -/
def execAlignWaitTimeout (group : GroupNum) (s : State) : OdoResult := .next (settle (releaseDue group.val s))

end Sys2Proof.Machine
end

