-- ==== Sys2Proof/Machine/PowerEvents.lean ====
section
/-! DEFINITION. The meanings of the power and thermal events (R356 to R371, R454). -/

namespace Sys2Proof.Machine

open Sys2Proof Sys2Proof.Machine.Bits

/-- What a command of this device answers: the next state. -/
abbrev PowerResult := Host.Outcome State Fault Refusal

/-- A 2 µs estimate, and the guard on it (R358, R362). -/
def execPowerEstimate (quads : List Activity) (rest : Activity) (s : State) : PowerResult :=
  .next (guardCheck (storeEstimate quads rest s))

/-- The allocator decides (R360). -/
def execAllocatorDecision (measured : List (Nat × Nat)) (s : State) : PowerResult := .next (allocatorDecide measured s)

/-- A quadrant switches its clock (R356); what waits for step 6 goes on (R365). -/
def execPstepSwitch (q : QuadNum) (s : State) : PowerResult := .next (settle (switchStep q.val s))

/-- A regulator fails (R356). -/
def execRegFail (q : QuadNum) (s : State) : PowerResult := .next (regulatorFail q.val s)

/-- PWR_LIMIT_N is low (R367). -/
def execPwrLimit (s : State) : PowerResult := .next (powerLimit s)

/-- PWR_LIMIT_N has been high for 1 ms (R367). -/
def execPwrLimitRelease (s : State) : PowerResult := .next (powerRelease s)

/-- A junction sensor is sampled (R368). -/
def execSensorSample (n : Fin 64) (t : Int) (s : State) : PowerResult := .next (sampleSensor n.val t s)

/-- Every sensor has read below the bound for 10 ms (R370). -/
def execTjOverGradeClear (s : State) : PowerResult := .next (gradeClear s)

/-- THERMTRIP (R370); the comparator of an excluded sensor stays armed (R368). -/
def execThermtrip (_n : Fin 64) (s : State) : PowerResult := .next (thermTrip s)

/-- Coolant loss (R371). -/
def execCoolant (s : State) : PowerResult := .next (coolantLost s)

/-- The listed clocks stop (R371). -/
def execCoolantClockStop (s : State) : PowerResult := .next (clocksStop s)

/-- VRDY_Qq falls (R454). -/
def execVrdyFall (q : QuadNum) (s : State) : PowerResult := .next (settle (vrdyLow q.val s))

end Sys2Proof.Machine
end

