-- ==== Sys2Proof/Machine/Registers.lean ====
section
/-! DEFINITION. The meanings of host register accesses with a row of their own (R7 to R9, R201 to R209, R254, R291,
R375, R406, R432 to R441). -/

namespace Sys2Proof.Machine

open Sys2Proof Sys2Proof.Machine.Bits

/-- What a register access of this device answers: the next state. -/
abbrev RegResult := Host.Outcome State Fault Refusal

/-- A write of QMG_DOORBELLc (R201), when the QMG's page answers. -/
def execQmgDoorbell (fn : FnNum) (ctx : CtxNum) (tail : W32) (descs : List (List Byte)) (s : State) : RegResult :=
  .next (if s.answers .qmg then doorbell fn.val ctx tail descs (receiveTlp s) else receiveTlp s)

/-- A write of QMG_CTX_QCFG (R209). -/
def execQmgCtxQcfgWrite (fn : FnNum) (value : W32) (s : State) : RegResult :=
  .next (hostWrite fn.val (regAddr .qmg 0x174) value s)

/-- A write of QMG_CTX_CPL_HEAD (R204). -/
def execQmgCtxCplHeadWrite (fn : FnNum) (value : W32) (s : State) : RegResult :=
  .next (hostWrite fn.val (regAddr .qmg 0x178) value s)

/-- A write of a page's LOCK (R434). -/
def execLockKeyWrite (fn : FnNum) (page : Nat) (value : W32) (s : State) : RegResult :=
  .next (hostWrite fn.val (page * 65536 + 0x40) value s)

/-- 1 ms without a write to a protected register (R434). -/
def execLockTimeout (page : Nat) (s : State) : RegResult :=
  .next (match blockOfPage page with
    | none => s
    | some b => closeLock b s)

/-- A write of a page's ERR_STAT (R7, R435). -/
def execErrStatClear (fn : FnNum) (page : Nat) (value : W32) (s : State) : RegResult :=
  .next (hostWrite fn.val (page * 65536 + 0x14) value s)

/-- A host write at a BAR0 offset (R9). -/
def execRegisterWrite (fn : FnNum) (addr : Nat) (value : W32) (s : State) : RegResult :=
  .next (hostWrite fn.val addr value s)

/-- A read of TAL_TIME_LO (R254). -/
def execTalTimeLoRead (fn : FnNum) (s : State) : RegResult := .next (readTimeLo fn.val (receiveTlp s))

/-- A read of TAL_ODO_POS_LO (R254). -/
def execTalOdoPosLoRead (fn : FnNum) (s : State) : RegResult := .next (readPosLo fn.val (receiveTlp s))

/-- A read of CTL_ACCT_WAIT_LO (R291). -/
def execCtlAcctWaitLoRead (fn : FnNum) (s : State) : RegResult := .next (readWaitLo fn.val (receiveTlp s))

/-- A write of CORE_CNT_CLR (R67). -/
def execCoreCntClr (fn : FnNum) (core : CoreNum) (value : W32) (s : State) : RegResult :=
  .next (hostWrite fn.val (regAddr (.core core.val) 0x148) value s)

/-- A write of ING_CNT_CLR (R251). -/
def execIngCntClr (fn : FnNum) (port : PortNum) (value : W32) (s : State) : RegResult :=
  .next (hostWrite fn.val (regAddr (.ing port.val) 0x13C) value s)

/-- A write of MON_CTRL (R440). -/
def execMonClear (fn : FnNum) (mon : MonNum) (value : W32) (s : State) : RegResult :=
  .next (hostWrite fn.val (regAddr .mon (0x1020 + 0x100 * mon.val)) value s)

/-- A write of MON_CFG (R440). -/
def execMonCfgWrite (fn : FnNum) (mon : MonNum) (value : W32) (s : State) : RegResult :=
  .next (hostWrite fn.val (regAddr .mon (0x1008 + 0x100 * mon.val)) value s)

/-- A monitor's source delivers a value (R439, R441). -/
def execMonSample (mon : MonNum) (value : MonValue) (s : State) : RegResult := .next (monSample mon.val value s)

/-- A write of PWR_CAP (R359, R375, R377). -/
def execPwrCapWrite (fn : FnNum) (value : W32) (s : State) : RegResult :=
  .next (hostWrite fn.val (regAddr .pwr 0x100) value s)

/-- A write of DBG_NOTICE_HEAD (R406). -/
def execDbgNoticeHeadWrite (fn : FnNum) (value : W32) (s : State) : RegResult :=
  .next (hostWrite fn.val (regAddr .dbg 0x14C) value s)

end Sys2Proof.Machine
end

