-- ==== Sys2Proof/Machine/Replacement.lean ====
section
/-! DEFINITION. Re-placement of stages (R285 to R289, R385, R386, R459): its start under PREPARE, the commit point and
the end of the old cores. -/

namespace Sys2Proof.Machine

open Sys2Proof Sys2Proof.Machine.Bits

/-- What the commands of a re-placement answer. -/
abbrev ReplResult := Host.Outcome State Fault Refusal

/-! ### The new placement -/

/-- Split a list of cores by slot. -/
def splitCores : List SlotPlan → List CoreNum → List (Nat × List CoreNum)
  | [], _ => []
  | p :: ps, cs => (p.slot.val, cs.take p.cores.length) :: splitCores ps (cs.drop p.cores.length)

/-- The slots of the copy of slot `p`. -/
def Stream.slotsOfCopy (st : Stream) (p : SlotPlan) : List SlotPlan := st.place.slots.filter (fun x => x.copy == p.copy)

/-- What Lode moves: the cores of slot `p`, or those of every slot of its copy when it names that many (R285, R385). -/
def movesOf (st : Stream) (p : SlotPlan) (cores : List CoreNum) : Option (List (Nat × List CoreNum)) :=
  if cores.length = p.cores.length then some [(p.slot.val, cores)]
  else if cores.length = ((st.slotsOfCopy p).map (fun x => x.cores.length)).sum then some (splitCores (st.slotsOfCopy p) cores)
  else none

/-- The cores of a slot after the moves. -/
def newCores (ms : List (Nat × List CoreNum)) (p : SlotPlan) : List CoreNum :=
  ((ms.find? (fun m => m.1 == p.slot.val)).map (·.2)).getD p.cores

/-- Old and new cores of the moves, position by position. -/
def movePairs (st : Stream) (ms : List (Nat × List CoreNum)) : List (CoreNum × CoreNum) :=
  st.place.slots.flatMap (fun p => p.cores.zip (newCores ms p))

/-- The core that takes the place of core `c`. -/
def mapCore (ps : List (CoreNum × CoreNum)) (c : CoreNum) : CoreNum :=
  ((ps.find? (fun p => p.1 == c)).map (·.2)).getD c

/-- Quadrant `q` after the moves: that of the cores that take the places of its cores, when those leave it. -/
def mapQuad (ps : List (CoreNum × CoreNum)) (q : Nat) : Nat :=
  ((ps.find? (fun p => coreQuad p.1.val == q)).map (fun p => coreQuad p.2.val)).getD q

/-- The home of a pool follows the cores of its copy to another quadrant (R150, R267). -/
def movedHome (ps : List (CoreNum × CoreNum)) : PoolHome → PoolHome
  | .slice k => .slice (Fin.ofNat 48 (mapQuad ps (sliceQuad k.val) * 12 + k.val % 12))
  | .quadrant q => .quadrant (Fin.ofNat 4 (mapQuad ps q.val))
  | .noAllocate => .noAllocate

/-- The moves of the cores of copy `k`. -/
def pairsOfCopy (pl : Placement) (ps : List (CoreNum × CoreNum)) (k : Nat) : List (CoreNum × CoreNum) :=
  ps.filter (fun x => pl.slots.any (fun p => p.copy == k && p.cores.contains x.1))

/-- The placement after the moves: slots, windows and fan-outs name the new cores, and homes follow a copy to its quadrant. -/
def Placement.moved (pl : Placement) (ms : List (Nat × List CoreNum)) (ps : List (CoreNum × CoreNum)) : Placement :=
  { pl with
    slots := pl.slots.map (fun p => { p with cores := newCores ms p })
    pools := pl.pools.map (fun p =>
      { p with windowCores := p.windowCores.map (mapCore ps), home := p.home.map (movedHome (pairsOfCopy pl ps p.copy)) })
    queues := pl.queues.map (fun q => { q with consumers := q.consumers.map (mapCore ps) }) }

/-- The stream on its new placement. -/
def Stream.moved (st : Stream) (ms : List (Nat × List CoreNum)) : Stream :=
  { st with place := Placement.moved st.place ms (movePairs st ms) }

/-! ### The start (R286 steps 1 to 4) -/

/-- A core that Lode may move a stage to: a spare, in no isolated quadrant and not under test (R385, R459). -/
def State.candidate (s : State) (n : Nat) : Bool :=
  (s.core n).pool == .spare && (s.core n).seq == .idle && !(s.hdr (.core n)).isolated && !(s.quad (coreQuad n)).isolated

/-- A core that keeps its stages through a re-placement of them: not RETIRED, not fused out, not isolated (R14, R459). -/
def State.keeps (s : State) (n : Nat) : Bool :=
  (s.core n).pool != .retired && (s.core n).pool != .fused && !(s.hdr (.core n)).isolated && !(s.quad (coreQuad n)).isolated

/-- The slots of a stream name disjoint cores (R22). -/
def Stream.coresDisjoint (st : Stream) : Bool :=
  let cs := st.place.slots.flatMap (fun p => p.cores.map (·.val))
  cs.eraseDups.length == cs.length

/-- The moves are sound: cores named once, those that change are candidates, those that stay are in service, and the new
placement breaks no constraint (R14, R22, R86, R265 to R268).
DESIGN CHOICE: log entry 68. -/
def movesOk (id : Nat) (st : Stream) (ms : List (Nat × List CoreNum)) (s : State) : Bool :=
  let cs := ms.flatMap (fun m => m.2.map (·.val))
  cs.eraseDups.length == cs.length && cs.any (fun n => !st.hosts n) &&
    cs.all (fun n => if st.hosts n then s.keeps n else s.candidate n) && (st.moved ms).coresDisjoint && placementOk id (st.moved ms) s &&
    (Tab.find s.images st.image).all (fun im => distancesOk (st.moved ms) im.decl)

/-- A window of a core that takes over with the refused writes that the core's own window has counted since reset (R146,
R148). -/
def Window.withLate (w : Window) (own : Window) : Window :=
  { w with late := own.late, lateWriter := own.lateWriter, lateReason := own.lateReason }

/-- The windows of a core that takes over from core `old`, CLOSED, with the bases of the stage's slots (R133, R286). -/
def CoreSt.takeWindows (c : CoreSt) (old : CoreSt) : CoreSt :=
  old.windows.foldl (fun k e =>
    k.modWindow e.1 (fun w => Window.withLate
      (if e.2.state = .unused then { e.2 with epoch := 0xFFFF }
        else { base := e.2.base, len := e.2.len, part := e.2.part, state := .closed }) w)) c

/-- Firmware clears and loads a new core and lays out its windows. -/
def prepareCore (st : Stream) (p : SlotPlan) (x : CoreNum × CoreNum) (s : State) : State :=
  if st.hosts x.2.val then s
  else
    (hostCore p.slot.val st.part st.image p.stage ((s.stageOf st p.stage).getD { mode := .frame }) x.2.val s).modCore x.2.val
      (fun c => c.takeWindows (s.core x.1.val))

/-- The journal entry PREPARE, and the new cores (R286).  A new quadrant of a safety stage goes to Bedrock mode (R365). -/
def prepare (st : Stream) (p : SlotPlan) (ms : List (Nat × List CoreNum)) (s : State) : State :=
  let ps := movePairs st ms
  let moving := ps.filter (fun x => x.1 != x.2)
  let r : Repl :=
    { slot := p.slot.val, moves := ms, old := moving.map (fun x => x.1.val), new := moving.map (fun x => x.2.val) }
  let s1 := forEach st.place.slots (fun q s => forEach (q.cores.zip (newCores ms q)) (prepareCore st q) s) s
  refreshBedrock (s1.modCtl (fun c =>
    { c with jState := .prepare, jSlot := p.slot.val, repl := some r,
             pendRepl := c.pendRepl.filter (fun k => !r.slots.contains k) }))

/-- Lode starts the re-placement of a pending slot, or, for power, of a slot of a class NONE stream: none runs, and no live activation
does (R285, R404, R459). -/
def startReplacement (slot : Nat) (cores : List CoreNum) (s : State) : State :=
  if s.ctl.repl.isSome || s.activating then s
  else
    match (s.streamIds (fun st => st.place.slots.any (fun p => p.slot.val == slot))).head? with
    | none => s
    | some id =>
      match s.stream? id with
      | none => s
      | some st =>
        if !s.ctl.pendRepl.contains slot && st.cls != .none then s
        else
        match st.place.slots.find? (fun p => p.slot.val == slot) with
        | none => s
        | some p =>
          match movesOf st p cores with
          | none => s
          | some ms => if movesOk id st ms s then prepare st p ms s else s

/-- A REPLACEMENT_START (R459). -/
def execReplacementStart (slot : SlotNum) (cores : List CoreNum) (s : State) : ReplResult :=
  .next (startReplacement slot.val cores s)

/-! ### The commit point (R286 step 5) -/

/-- What the shadow writes and the replay have brought about at N: the windows, slots and line rings of the new core of a
Strata stage hold what those of the old one hold (R31, R287). -/
def CoreSt.mirror (c : CoreSt) (old : CoreSt) : CoreSt :=
  let inside (w : Nat) : Bool := (c.slotBase ≤ w && w < c.workBase) || c.rings.any (fun r => r.1 ≤ w && w < r.1 + r.2)
  let c1 := (old.sp.filter (fun e => inside e.1)).foldl (fun c e => c.writeWord e.1 e.2) c
  old.windows.foldl (fun k e => k.modWindow e.1 (fun w => Window.withLate e.2 w))
    { c1 with wbuf := old.wbuf, ringLines := old.ringLines, ringSeq := old.ringSeq,
              spPoison := (old.spPoison.filter inside).foldl addOnce c1.spPoison }

/-- A core that hosts a stage is schedulable (R14). -/
def CoreSt.serve (c : CoreSt) : CoreSt := if c.pool = .spare then { c with pool := .schedulable } else c

/-- A new core enters service: one that has hosted another slot of the stream is laid out for this one now (R128); on an armed Strata
stream it mirrors the old one. -/
def enterService (st : Stream) (p : SlotPlan) (x : CoreNum × CoreNum) (s0 : State) : State :=
  if x.1 = x.2 then s0.modCore x.2.val CoreSt.serve
  else
    let d := s0.stageOf st p.stage
    let s := if st.hosts x.2.val then
        hostCore p.slot.val st.part st.image p.stage (d.getD { mode := .frame }) x.2.val
          (s0.modCore x.2.val (fun c =>
            if (s0.streamsOn x.2.val).length = 1 then c.release else c.unhost (st.place.slots.map (·.slot.val))))
      else s0
    let strata := d.any (fun d => d.mode == .strata)
    s.modCore x.2.val (fun c =>
      let c1 := if st.armed && strata then c.mirror (s0.core x.1.val) else c.takeWindows (s0.core x.1.val)
      { c1 with pool := .schedulable })

/-- The QMG's tables name the new cores, and entries of items from N on wait for them (R286). -/
def switchTables (id : Nat) (ps : List (CoreNum × CoreNum)) (boundary : Nat) (s : State) : State :=
  let f (n : Nat) : Nat := ((ps.find? (fun p => p.1.val == n)).map (fun p => p.2.val)).getD n
  let mine (q : Queue) : Bool := q.stream == some id && q.type == .data
  let used := (s.qmg.queues.filter (fun q => mine q.2)).map (fun q => q.2.fanout)
  let late (h : W64) : Bool := boundary ≤ (s.buffer (ofHandle h).pool (ofHandle h).index).seq
  s.modQmg (fun m =>
    { m with
      fanouts := m.fanouts.map (fun e => (e.1, if used.contains e.1 then e.2.map f else e.2))
      pools := m.pools.map (fun e =>
        (e.1, if e.2.stream = some id then { e.2 with windowCores := e.2.windowCores.map f } else e.2))
      queues := m.queues.map (fun e =>
        (e.1, if mine e.2 then
            { e.2 with entries := e.2.entries.map (fun x => (x.1, if late x.1 then x.2.map f else x.2)) } else e.2)) })

/-- A stage of the stream, of copy `k` or of any, still stands on a core out of service or on an isolated quadrant. -/
def Stream.broken (st : Stream) (k : Option Nat) (s : State) : Bool :=
  st.place.slots.any (fun p => (k.isNone || k == some p.copy) &&
    p.cores.any (fun c => (s.core c.val).pool == .retired || (s.core c.val).pool == .spare || (s.quad (coreQuad c.val)).isolated))

/-- What the commit restores: a copy without a broken stage is no longer suspended, and a stream without one, or with at
most one copy suspended, is out of stream fault (R307, R313, R386). -/
def restoreStream (id : Nat) (s : State) : State :=
  match s.stream? id with
  | none => s
  | some st =>
    let back := st.suspended.filter (fun k => !st.broken (some k) s)
    let s1 := forEach back (fun k s => withdraw (.stream id) (.copy k) Cause.streamFault s) s
    let whole := if st.cls = .triplex then st.suspended.length < back.length + 2 else !st.broken none s
    if st.faulted && whole then
      let s2 := s1.modStream id (fun st => { st with faulted := false })
      releaseFault (if isSafety st.cls then withdraw (.stream id) .fromNext Cause.streamFault s2 else s2)
    else s1

/-- N follows every item that an old core has been given, except on a stream that is not armed (R286).
DESIGN CHOICE: log entry 68. -/
def boundaryOk (st : Stream) (r : Repl) (n : Nat) (s : State) : Bool :=
  !st.armed || r.old.all (fun c =>
    ((s.core c).run.toList ++ (s.core c).ready).all (fun u => !r.slots.contains u.slot || u.seq < n))

/-- COMMITTED: tables, placement and epoch switch together, and the tile buffers follow their stage group to another quadrant (R150).
DESIGN CHOICE: log entry 68. -/
def commit (id : Nat) (st : Stream) (r : Repl) (boundary : Nat) (s : State) : State :=
  let ps := movePairs st r.moves
  let before := s.spares.length
  let s1 := forEach (st.place.slots.filter (fun p => r.slots.contains p.slot.val)) (fun p s =>
    forEach (p.cores.zip (newCores r.moves p)) (enterService st p) s) s
  let s2 := (switchTables id ps boundary s1).setStream id (st.moved r.moves)
  let s3 := s2.modCtl (fun c =>
    { c with jState := .committed, placeEpoch := (c.placeEpoch + 1) % 2 ^ 32, repl := some { r with boundary := boundary } })
  let s4 := { s3 with slotEpochs := r.slots.foldl (fun t k => Tab.insert t k s3.ctl.placeEpoch) s3.slotEpochs }
  checkSpares before (restoreStream id (refreshBedrock (evenSpares (rebalance (rehomePools (st.moved r.moves) (streamHomes st s) s4)))))

/-- The commit point: it waits for Bedrock mode (R365); a placement that fails SAFE's check abandons the re-placement, with
a fault record (R316). -/
def commitReplacement (boundary : Nat) (s : State) : State :=
  match s.ctl.repl, s.replStream with
  | some r, some id =>
    match s.stream? id with
    | none => s
    | some st =>
      if s.ctl.jState ≠ .prepare ∨ !boundaryOk st r boundary s then s
      else if !safeCheck id (st.moved r.moves) s then abandon (checkFailed id st s)
      else if isSafety st.cls && !s.bedrockReady (st.moved r.moves) then s
      else commit id st r boundary s
  | _, _ => s

/-- A REPLACEMENT_COMMIT (R286). -/
def execReplacementCommit (boundary : Nat) (s : State) : ReplResult := .next (settle (commitReplacement boundary s))

/-! ### The end (R286 steps 6 and 7) -/

/-- An old core has no unit of the moved slots left. -/
def oldDone (r : Repl) (n : Nat) (s : State) : Bool :=
  r.new.contains n || ((s.core n).run.toList ++ (s.core n).ready).all (fun u => !r.slots.contains u.slot)

/-- The old cores have finished before N: they leave, and the journal shows DONE. -/
def replacementDone (s : State) : State :=
  match s.ctl.repl with
  | none => s
  | some r => if s.ctl.jState = .committed ∧ r.old.all (fun n => oldDone r n s) then endRepl r s else s

/-- A REPLACEMENT_DONE (R286). -/
def execReplacementDone (s : State) : ReplResult := .next (settle (replacementDone s))

end Sys2Proof.Machine
end

