-- ==== Sys2Proof/Machine/Resets.lean ====
section
/-! DEFINITION. The meanings of boot, reset and PCIe events (R390 to R393, R412, R417, R424 to R427, R436, R437, R451). -/

namespace Sys2Proof.Machine

open Sys2Proof Sys2Proof.Machine.Bits

/-- What a command of this device answers: the next state. -/
abbrev ResetResult := Host.Outcome State Fault Refusal

/-- PORST_N low (R390). -/
def execPowerOnReset (s : State) : ResetResult := .next (powerOn s)

/-- The fuse read ends (R424, R427). -/
def execBootFuseReadDone (fuses : FuseData) (s : State) : ResetResult := .next (fusesRead fuses.ok s)

/-- SAFE's boot self-test ends (R424). -/
def execBootSafeTestDone (pass : Bool) (s : State) : ResetResult := .next (safeTested pass s)

/-- The boot verifies its image (R426). -/
def execBootImageVerified (s : State) : ResetResult := .next (imageVerified s)

/-- DMC training ends (R155, R424). -/
def execBootTrainDone (found : TrainResult) (s : State) : ResetResult := .next (trainDone found.trained found.dies s)

/-- The cores' self-test ends (R387). -/
def execBootCoreTestDone (failed : List CoreNum) (s : State) : ResetResult := .next (coresTested (failed.map (·.val)) s)

/-- The boot ends (R424). -/
def execBootReady (s : State) : ResetResult := .next (bootDone s)

/-- COOLANT_OK has been high for 10 ms (R424). -/
def execWaitCoolantEnd (s : State) : ResetResult := .next (coolantBack s)

/-- VRDY_Qq is still low 100 ms after PORST_N rose (R449). -/
def execVrdyBootTimeout (q : QuadNum) (s : State) : ResetResult := .next (vrdyTimeout q.val s)

/-- VRDY_Qq rises (R449). -/
def execVrdyRise (q : QuadNum) (s : State) : ResetResult := .next (vrdyHigh q.val s)

/-- WARM_RST_N low (R391, R451). -/
def execWarmReset (s : State) : ResetResult := .next (requestWarm 1 s)

/-- The quiesce finishes (R391). -/
def execQuiesceDone (safePass : Bool) (s : State) : ResetResult := .next (quiesced safePass s)

/-- The quiesce is cut off (R391). -/
def execQuiesceCutOff (safePass : Bool) (s : State) : ResetResult := .next (cutOff safePass s)

/-- The warm reset is complete (R391). -/
def execWarmResetReady (retention : Upset) (s : State) : ResetResult :=
  .next (settle (if s.boot.warm != 0 && s.boot.warmCut && retention == .uncorrectable then enterSafe SS.retention (warmDone s)
    else warmDone s))

/-- Automatic restart (R389). -/
def execAutoRestart (s : State) : ResetResult := .next (autoWarm s)

/-- A quadrant reset starts (R393). -/
def execQuadrantReset (q : QuadNum) (s : State) : ResetResult := .next (settle (quadReset q.val s))

/-- A quadrant reset ends (R393). -/
def execQuadrantResetDone (q : QuadNum) (failed : List CoreNum) (s : State) : ResetResult :=
  .next (quadResetDone q.val (failed.map (·.val)) s)

/-- A port reset (R390). -/
def execPortReset (p : PortNum) (s : State) : ResetResult := .next (resetPort p.val s)

/-- A function-level reset (R392, R417). -/
def execFunctionLevelReset (fn : FnNum) (s : State) : ResetResult := .next (settle (functionReset fn.val s))

/-- PCIE_PERST_N low (R451). -/
def execPciePerst (s : State) : ResetResult := .next (settle (perst s))

/-- The PCIe link trains (R412). -/
def execPcieLinkUp (speed width mps : Nat) (s : State) : ResetResult := .next (linkUp speed width mps s)

/-- The PCIe link leaves L0 (R436). -/
def execPcieLinkDown (loss : LinkLoss) (s : State) : ResetResult := .next (linkDown loss.powerManagement loss.aer s)

/-- A write of GLB_RST_REQ (R437). -/
def execGlbRstReq (fn : FnNum) (value : W32) (s : State) : ResetResult := .next (resetRequest fn.val value (receiveTlp s))

/-- A write of BOOT_LOAD_CMD (R427). -/
def execBootLoadStart (fn : FnNum) (value : W32) (s : State) : ResetResult := .next (loadStart fn.val value (receiveTlp s))

/-- The recovery load ends (R427). -/
def execBootLoadDone (img : FwImage) (s : State) : ResetResult := .next (loadDone img s)

end Sys2Proof.Machine
end

