-- ==== Sys2Proof/Machine/Functions.lean ====
section
/-! DEFINITION. The functions of the vector engine whose error R54 bounds: exp, exp2, log, log2, sigmoid, tanh and GELU.
The exact value is formed in integers with 192 fractional bits; what the engine returns is any FP32 value within the bound
of it, chosen by a constant of Config that has no body (log entry 56). -/

namespace Sys2Proof.Machine.Fp

open Sys2Proof

/-- Fractional bits of the exact values. -/
def fixBits : Nat := 192
/-- 1 with that many fractional bits. -/
def fixOne : Nat := 2 ^ fixBits
/-- ln 2. -/
def fixLn2 : Nat := 4350955369971217654477563090224794165364344896676135745069
/-- The square root of 2 / π. -/
def fixGelu : Nat := 5008402561253905729789098622498677126536126712276965002673

/-- A finite value with `fixBits` fractional bits; the exponent of an FP32 value is never below −149. -/
def toFix (neg : Bool) (m : Nat) (e : Int) : Int :=
  let a : Int := (m * 2 ^ (e + fixBits).toNat : Nat)
  if neg then -a else a

/-- Sum of the exponential series for an argument below 1: `n` terms from term `k` of value `t`. -/
def expSeries (x : Nat) : (n k t : Nat) → Nat
  | 0, _, _ => 0
  | n + 1, k, t => t + expSeries x n (k + 1) (t * x / fixOne / (k + 1))

/-- 2^(f / ln 2) for a fixed-point `f` from 0 to ln 2. -/
def expFrac (f : Nat) : Nat := expSeries f 48 0 fixOne

/-- e to a fixed-point number, as an exact value. -/
def expFix (x : Int) : FVal :=
  let k := x / (fixLn2 : Int)
  .fin false (expFrac (x % (fixLn2 : Int)).toNat) (k - fixBits)

/-- 2 to a fixed-point number. -/
def exp2Fix (x : Int) : FVal :=
  let k := x / (fixOne : Int)
  .fin false (expFrac ((x % (fixOne : Int)).toNat * fixLn2 / fixOne)) (k - fixBits)

/-- The odd series of the inverse hyperbolic tangent: `n` terms of powers `t` of `u`, from the divisor `k`. -/
def athSeries (u2 : Nat) : (n k t : Nat) → Nat
  | 0, _, _ => 0
  | n + 1, k, t => t / k + athSeries u2 n (k + 2) (t * u2 / fixOne)

/-- The natural logarithm of m × 2^e, m above 0, in fixed point. -/
def lnFix (m : Nat) (e : Int) : Int :=
  let top := Nat.log2 m
  let z := m * 2 ^ fixBits / 2 ^ top
  let u := (z - fixOne) * fixOne / (z + fixOne)
  (e + top) * fixLn2 + 2 * (athSeries (u * u / fixOne) 64 1 u : Nat)

/-- e to the negative of a magnitude, in fixed point; what lies below the last bit is 0. -/
def expNeg (a : Nat) : Nat :=
  match expFix (-(a : Int)) with
  | .fin _ m e => if 0 ≤ e then m * 2 ^ e.toNat * fixOne else if e < -600 then 0 else m * fixOne / 2 ^ (-e).toNat
  | _ => 0

/-- The logistic function in fixed point. -/
def sigmoidFix (x : Int) : Nat :=
  let q := expNeg x.natAbs
  if 0 ≤ x then fixOne * fixOne / (fixOne + q) else q * fixOne / (fixOne + q)

/-- An exact value from fixed point. -/
def ofFix (i : Int) : FVal := .fin (decide (i < 0)) i.natAbs (-fixBits)

/-- Twice the argument of the hyperbolic tangent in the tanh form of GELU: 2 √(2/π) (x + 0.044715 x³).
PRESUMED: log entry 116. -/
def geluArg (x : Int) : Int :=
  let cube := x * x * x / (fixOne * fixOne : Nat)
  2 * (x + 44715 * cube / 1000000) * fixGelu / fixOne

/-- The exact value of function `k` at a finite operand: 2 exp, 3 exp2, 4 log, 5 log2, 6 sigmoid, 7 tanh, 8 GELU in its
tanh form; none where R54 states no bound.
DEDUCED: log entry 56. -/
def exactOf (k : Nat) (neg : Bool) (m : Nat) (e : Int) : Option FVal :=
  let x := toFix neg m e
  let small := decide (x.natAbs < 256 * fixOne)
  let tiny : Option FVal := if neg then some (.fin false 1 (-400)) else none
  if k = 2 then (if small then some (expFix x) else tiny)
  else if k = 3 then (if small then some (exp2Fix x) else tiny)
  else if k = 4 ∨ k = 5 then
    if neg || m == 0 || decide (e + Nat.log2 m < -126) then none
    else if k = 4 then some (ofFix (lnFix m e))
    else some (ofFix (lnFix m e * fixOne / fixLn2))
  else
    let far := if small then x else if neg then -(256 * fixOne : Nat) else (256 * fixOne : Nat)
    if k = 6 then some (ofFix (sigmoidFix far : Nat))
    else if k = 7 then some (ofFix (2 * (sigmoidFix (2 * far) : Nat) - fixOne))
    else if k = 8 then
      let a := geluArg x
      let b := if a.natAbs < 256 * fixOne then a else if a < 0 then -(256 * fixOne : Nat) else (256 * fixOne : Nat)
      some (ofFix (x * (sigmoidFix b : Nat) / fixOne))
    else none

/-- The spacing of FP32 at an exact value. -/
def ulpOf (v : FVal) : FVal :=
  match v with
  | .fin _ m e => .fin false 1 (max (e + (Nat.log2 m : Nat) - 23) (-149))
  | w => w

/-- The bounds of R54 by function: units in the last place, and an absolute error. -/
def errorBound (k : Nat) : Nat × Option Int :=
  if k ≤ 5 then (2, none) else if k ≤ 7 then (3, some (-24)) else (4, some (-22))

/-- A word lies within the bound of function `k` of an exact value. -/
def withinBound (k : Nat) (v : FVal) (w : W32) : Bool :=
  let d := absV (addV (dec32 w) (negV v))
  let (u, a) := errorBound k
  !isNonfinite32 w &&
    (!ltV (mulV (.fin false u 0) (ulpOf v)) d ||
      match a with
      | none => false
      | some e => !ltV (.fin false 1 e) d)

/-- What function `k` returns for operand `x` (R54): a value within the bound that `pick` names, else the nearest one.  Where
the rule states no bound (an infinity or a NaN, a logarithm below 2^−126, a result beyond the range) it is `pick` itself. -/
def bounded (k : Nat) (x pick : W32) : W32 :=
  match dec32 x with
  | .fin n m e =>
    match exactOf k n m e with
    | none => canon32 pick
    | some v =>
      if isNonfinite32 (enc32 v) then canon32 pick
      else if withinBound k v pick then pick else enc32 v
  | _ => canon32 pick

end Sys2Proof.Machine.Fp
end

