-- ==== Sys2Proof/Machine/Vector.lean ====
section
/-! DEFINITION. The vector engine (R52 to R58, R107 to R123): which bundle issues, what an instruction reads, what it
computes in each lane, and what a strand-file parity error does. -/

namespace Sys2Proof.Machine

open Sys2Proof Sys2Proof.Machine.Bits

/-- What a VECTOR_ISSUE answers. -/
abbrev VectorResult := Host.Outcome State Fault Refusal

/-! ### The strand file -/

/-- Register `r` of strand `k`. -/
def CoreSt.reg (c : CoreSt) (k : Nat) (r : Fin 8) : W32 := Tab.get c.strand 0 (k * 8 + r.val)
/-- Write register `r` of strand `k`. -/
def CoreSt.setReg (c : CoreSt) (k : Nat) (r : Fin 8) (v : W32) : CoreSt :=
  { c with strand := Tab.insert c.strand (k * 8 + r.val) v }

/-- The bundle that issues: the first of the ready ones in round-robin order, after the bundle that issued last (R53). -/
def pickBundle (last : Nat) (ready : List Nat) : Option Nat :=
  ((List.range 128).map (fun i => (last + 1 + i) % 128)).find? (ready.contains ·)

/-! ### Results per lane -/

/-- A produced NaN is the canonical one (R103). -/
def canon (w : W32) : W32 := if Fp.isNan32 w then BitVec.ofNat 32 Fp.f32.nanCode else w

/-- The two FP32 values that enclose an exact finite value lie within 1 ulp of it; which one a function returns is open
(R54).
DEDUCED: log entry 56. -/
def withinUlp (q : Fp.FVal) (away : Bool) : W32 :=
  let n := Fp.enc32 q
  if !away || Fp.isNonfinite32 n || n &&& 0x7FFFFFFF == 0 then n
  else if Fp.ltV (Fp.absV (Fp.dec32 n)) (Fp.absV q) then n + 1
  else if Fp.ltV (Fp.absV q) (Fp.absV (Fp.dec32 n)) then n - 1
  else n

/-- Reciprocal (R54): within 1 ulp over finite operands; 0, infinities and NaN have no stated result.
DEDUCED: log entry 56. -/
def recipOf (x : W32) : W32 :=
  match Fp.dec32 x with
  | .fin n m e => if m = 0 then canon (Config.vecFn 0 x) else withinUlp (Fp.divV (.fin false 1 0) (.fin n m e)) (Config.vecAway 0 x)
  | _ => canon (Config.vecFn 0 x)

/-- The exact reciprocal square root of m × 2^e, e even, with a sticky bit. -/
def rsqrtV (m : Nat) (e : Int) : Fp.FVal :=
  let r := Nat.sqrt (2 ^ 160 / m)
  .fin false (2 * r + (if r * r * m = 2 ^ 160 then 0 else 1)) (-81 - e / 2)

/-- Reciprocal square root (R54): within 1 ulp over positive finite operands. -/
def rsqrtOf (x : W32) : W32 :=
  match Fp.dec32 x with
  | .fin false m e =>
    if m = 0 then canon (Config.vecFn 1 x)
    else withinUlp (if e % 2 = 0 then rsqrtV m e else rsqrtV (2 * m) (e - 1)) (Config.vecAway 1 x)
  | _ => canon (Config.vecFn 1 x)

/-- Byte `k` of a word. -/
def byteAt (w : W32) (k : Nat) : Nat := w.toNat / 2 ^ (8 * k) % 256

/-- Sum of the four products of a dot product.  In UINT8 the activations in `a` are unsigned and the weights in `b` INT8, as in
the array format of R37.
DESIGN CHOICE: log entry 107. -/
def dot4 (unsigned : Bool) (a b : W32) : Int :=
  ((List.range 4).map (fun k =>
    (if unsigned then (byteAt a k : Int) else Fp.intOfCode .int8 (byteAt a k)) * Fp.intOfCode .int8 (byteAt b k))).sum

/-- Two BF16 operations of one word, each rounded to nearest even (R52). -/
def pairBf (f : Fp.FVal → Fp.FVal → Fp.FVal) (a b : W32) : W32 :=
  let half (k : Nat) : Nat :=
    Fp.bf16.encode .toInf (f (Fp.bf16.decode (a.toNat / 2 ^ (16 * k) % 65536)) (Fp.bf16.decode (b.toNat / 2 ^ (16 * k) % 65536)))
  BitVec.ofNat 32 (half 0 + half 1 * 65536)

/-- Half-even quotient of an integer sum by a count. -/
def halfEven (t : Int) (n : Nat) : Int :=
  let q := t / (n : Int)
  let r := t % (n : Int)
  if 2 * r < n then q else if 2 * r = n ∧ q % 2 = 0 then q else q + 1

/-- Formats whose 8-bit elements share a word four by four (R57). -/
def packed (f : Fmt) : Bool := f == .int8 || f == .uint8

/-- Pack the codes of four INT8 lanes. -/
def pack4 (cs : List Nat) : W32 := BitVec.ofNat 32 ((cs.take 4).foldr (fun c a => c % 256 + 256 * a) 0)

/-- Maximum of the elements of a pool window, NaN when one is NaN (R57): a code per INT8 lane, an FP32 value in a
floating-point format.
DESIGN CHOICE: log entry 57. -/
def maxPoolOf (f : Fmt) (ws : List W32) : W32 :=
  match Fp.intRange f with
  | some (lo, _) =>
    let top (cs : List Nat) : Nat := Fp.intCode (Fp.fmtBits f) ((cs.map (Fp.intOfCode f)).foldl max lo)
    if packed f then pack4 ((List.range 4).map (fun k => top (ws.map (byteAt · k)))) else BitVec.ofNat 32 (top (ws.map (·.toNat)))
  | none => canon (Fp.rowMax32 (ws.map (fun w => Fp.enc32 (Fp.valueOfCode f (w.toNat % 2 ^ Fp.fmtBits f)))))

/-- Average of a pool window (R57).  The rule states it for INT8, UINT8 and the floating-point formats.
DESIGN CHOICE: log entry 57. -/
def avgPoolOf (f : Fmt) (ws : List W32) : W32 :=
  if packed f then
    pack4 ((List.range 4).map (fun k =>
      Fp.intCode 8 (halfEven ((ws.map (fun w => Fp.intOfCode f (byteAt w k))).sum) ws.length)))
  else
    match Fp.intRange f with
    | some _ => Config.vecOpen 2 ws
    | none =>
      match ws.map (fun w => Fp.enc32 (Fp.valueOfCode f (w.toNat % 2 ^ Fp.fmtBits f))) with
      | [] => Config.vecOpen 1 []
      | x :: xs => Fp.div32 (xs.foldl Fp.add32 x) (Fp.ofInt32 ws.length)

/-- A pool over the in-image positions of a window (R57). -/
def windowPool (average : Bool) (f : Fmt) (ws : List W32) : W32 :=
  if ws.isEmpty then Config.vecOpen 1 [] else if average then avgPoolOf f ws else maxPoolOf f ws

/-! ### What the unit's declaration gives an instruction (R110 to R123) -/

/-- The declared constants of the unit that runs: its declaration and layer, the weight sums that firmware formed at LOAD_IMAGE
(R111), the rounding seed, optimiser step and micro-batch number of its job (R122), and its box list (R97).  A unit that works
for no job has none of these; its key and counters are 0.
DESIGN CHOICE: log entry 123. -/
structure VecUnit where
  decl : UnitDecl
  layer : Option LayerDecl
  wsums : List Int
  midSums : List Int
  seed : W64
  step : Nat
  micro : Nat
  boxes : List (List Byte)
  valid : List Bool
  /-- its adaptation job is held at a corrupt sample (R123, R249) -/
  held : Bool

/-- The job that a unit works for. -/
def jobOf (s : State) (u : UnitInst) : Option Job := (s.stream? u.stream).bind (fun st => st.jobs.find? (fun j => j.epoch == u.epoch))

/-- The constants of the unit that core `n` runs. -/
def vecUnit (s : State) (n : Nat) : VecUnit :=
  match (s.core n).run with
  | none =>
    { decl := { wcet := 0 }, layer := none, wsums := [], midSums := [], seed := 0, step := 0, micro := 0, boxes := [],
      valid := [], held := false }
  | some u =>
    let sums (f : Image → List (List (List Int))) : List Int :=
      (((s.stream? u.stream).bind (fun st => Tab.find s.images st.image)).map
        (fun im => ((f im).getD u.stage []).getD u.unit [])).getD []
    { decl := (unitDeclOf s u).getD { wcet := 0 }, layer := layerOf s u, wsums := sums (·.wsums), midSums := sums (·.midSums),
      seed := ((jobOf s u).map (·.roundSeed)).getD 0, step := ((jobOf s u).map (·.step)).getD 0,
      micro := ((jobOf s u).map (·.micro)).getD 0, boxes := u.boxes, valid := u.boxValid,
      held := (jobOf s u).any (fun j => j.adapt && j.held.isSome) }

/-- A scale entry as a consumer reads it: with NONFINITE set every element of its row becomes NaN (R115). -/
def readEntry (w : W64) : Fp.ScaleEntry :=
  let e := Fp.ofEntry w
  if e.nonfinite then { e with s := BitVec.ofNat 32 Fp.f32.nanCode } else e

/-- Word address of the scale entry of a row of the unit's input buffer, whose elements have `bits` bits (R118). -/
def VecUnit.inEntryAt (v : VecUnit) (src : RowAt) (bits : Nat) : Nat :=
  src.base + entryOffset v.decl.inRows v.decl.rowLen bits + 2 * src.row

/-- Word address of the scale entry of a row of the unit's output buffer (R118). -/
def VecUnit.outEntryAt (v : VecUnit) (dst : RowAt) : Nat :=
  dst.base + entryOffset v.decl.outRows v.decl.outLen (Fp.fmtBits v.decl.outFmt) + 2 * dst.row

/-- The scale entry of a row of the input: the declared scale, or the row's own (R113). -/
def VecUnit.inEntry (v : VecUnit) (sp : Tab W32) (src : RowAt) (bits : Nat) : Fp.ScaleEntry :=
  if v.decl.scope = .static then Fp.staticEntry v.decl.inScale v.decl.zeroPoint
  else readEntry (entryAt sp src.base v.decl.inRows v.decl.rowLen bits src.row)

/-- The scale entry of a row of the output. -/
def VecUnit.outEntry (v : VecUnit) (sp : Tab W32) (dst : RowAt) : Fp.ScaleEntry :=
  if v.decl.outScope = .static then Fp.staticEntry v.decl.outScale v.decl.outZero
  else Fp.ofEntry (entryAt sp dst.base v.decl.outRows v.decl.outLen (Fp.fmtBits v.decl.outFmt) dst.row)

/-- The format may be stored with stochastic rounding (R109). -/
def stochFmt (f : Fmt) : Bool := f == .e4m3 || f == .e5m2 || f == .bf16

/-- The unit declares stochastic rounding of its store (R109). -/
def VecUnit.rounds (v : VecUnit) : Bool := v.decl.stochastic && stochFmt v.decl.outFmt

/-- Declared scale of a STATIC output for output channel `j` (R113, R121). -/
def VecUnit.outScaleOf (v : VecUnit) (j : Nat) : W32 := v.decl.outScales.getD j v.decl.outScale

/-- The constants of R119 for output channel `j` with the scale entry of the activation row, in format `f`: the weight scale, sum
and bias of the channel, the clamp, and r of a STATIC output.  Only UINT4 and UINT8 activations have a zero point (R112, R120).
A channel for which the image lists no weight scale has 1.0.
DESIGN CHOICE: log entry 120. -/
def VecUnit.constants (v : VecUnit) (f j : Nat) (e : Fp.ScaleEntry) : Requant :=
  { za := if f = 1 ∨ f = 3 then e.zp else 0, wsum := v.wsums.getD j 0, isInt := !fmtFloat f,
    sa := e.s, sw := v.decl.wScale.getD j Fp.one32, bias := v.decl.bias.getD j 0, loC := v.decl.clamp.1, hiC := v.decl.clamp.2,
    r := (Fp.staticEntry (v.outScaleOf j) 0).r, zo := v.decl.outZero, out := v.decl.outFmt }

/-- The constants of R119 between the two products of a fused pair: the first product's, with the format, scale and zero point of
the row that the second one takes (R94). -/
def VecUnit.midConstants (v : VecUnit) (m : MidDecl) (f j : Nat) (e : Fp.ScaleEntry) : Requant :=
  { za := if f = 1 ∨ f = 3 then e.zp else 0, wsum := v.midSums.getD j 0, isInt := !fmtFloat f,
    sa := e.s, sw := m.wScale.getD j Fp.one32, bias := m.bias.getD j 0, loC := m.clamp.1, hiC := m.clamp.2,
    r := (Fp.staticEntry m.scale 0).r, zo := m.zero, out := m.fmt }

/-- The requantisation pipeline on an accumulator value (R119): all seven steps for a STATIC output; steps 1 to 6 where step 7
rounds stochastically, which is an instruction of its own; steps 1 to 5 for a PER_ROW output, whose row scale follows. -/
def VecUnit.requantise (v : VecUnit) (acc : Int) (q : Requant) : W32 :=
  if v.decl.outScope = .perRow then Fp.rescale acc q
  else if v.rounds then Fp.mul32 (Fp.rescale acc q) q.r
  else BitVec.ofNat 32 (Fp.requant acc q)

/-- Elements of a row that a code word of `bits` bits holds, and element `part` of it. -/
def partOf (f : Fmt) (w : W32) (part : Nat) : Nat := w.toNat / 2 ^ (part * Fp.fmtBits f) % 2 ^ Fp.fmtBits f

/-- The exact value of element `part` of a register; of a complex word the elements are its parts in turn (R56, R103). -/
def widenPart (f : Fmt) (w : W32) (part : Nat) : W32 :=
  if f = .cint8 then Fp.ofInt32 (Fp.intOfCode .int8 (byteAt w part)) else Fp.enc32 (Fp.valueOfCode f (partOf f w part))

/-- The real value of a stored code with its row's entry (R110, R115, R121). -/
def realPart (f : Fmt) (c : Nat) (e : Fp.ScaleEntry) : W32 :=
  if e.nonfinite then BitVec.ofNat 32 Fp.f32.nanCode else Fp.realOf f c e.s e.zp

/-- Source image index and output slot of a box entry (R97). -/
def boxImage (e : List Byte) : Nat := field e 16 2
/-- Output slot of a box entry. -/
def boxSlot (e : List Byte) : Nat := field e 18 2

/-- A pixel of a feature map in the scratchpad, as a real value (R110). -/
def mapPixel (v : VecUnit) (sp : Tab W32) (f : Fmt) (base w chs ch y x : Nat) : W32 :=
  let bit := ((y * w + x) * chs + ch) * Fp.fmtBits f
  realPart f ((Tab.get sp 0 (base + bit / 32)).toNat / 2 ^ (bit % 32) % 2 ^ Fp.fmtBits f)
    (v.inEntry sp { base := base, row := y * w + x } (Fp.fmtBits f))

/-- The first word of the image that box `box` names, when the entry is one that is cropped and valid (R97, R98). -/
def VecUnit.source (v : VecUnit) (box : Nat) (srcs : List Nat) : Option (List Byte × Nat) :=
  match v.boxes[box]? with
  | none => none
  | some e => if v.valid.getD box false then (srcs[boxImage e]?).map (fun b => (e, b)) else none

/-- Pixel (i, j) of the crop of a feature map by a box entry, as a real value; a crop of an invalid entry is padding, which
stands for 0 (R78, R98).
DESIGN CHOICE: log entry 81. -/
def cropPixel (v : VecUnit) (sp : Tab W32) (f : Fmt) (box : Nat) (srcs : List Nat) (h w chs ch i j : Nat) : W32 :=
  match v.source box srcs, v.layer.bind (·.boxes) with
  | some (e, base), some (_, ho, wo) =>
    let (y0, x0, y1, x1) := Pixels.boxOf e
    Pixels.bilinearOf (mapPixel v sp f base w chs ch) h w (Pixels.samplePoint y0 y1 i ho h) (Pixels.samplePoint x0 x1 j wo w)
  | _, _ => 0

/-- The layer runs transposed (R95). -/
def VecUnit.transposed (v : VecUnit) : Bool := v.layer.any (fun l => l.transposed)

/-- The outcome of an exact comparison (R54). -/
def compareOf (a b : W32) : Nat :=
  if Fp.isNan32 a || Fp.isNan32 b then 3
  else if Fp.ltV (Fp.dec32 a) (Fp.dec32 b) then 0 else if Fp.ltV (Fp.dec32 b) (Fp.dec32 a) then 2 else 1

/-! ### Instructions -/

/-- What an instruction computes for a lane from its strand, the words it reads and the unit's declaration: the destination
and the value.
DEDUCED: log entry 56.
DESIGN CHOICE: log entry 57. -/
def laneResult (v : VecUnit) (c : CoreSt) (k lane : Nat) : VecOp → Option (Fin 8 × W32)
  | .fadd d a b => some (d, Fp.add32 (c.reg k a) (c.reg k b))
  | .fmul d a b => some (d, Fp.mul32 (c.reg k a) (c.reg k b))
  | .ffma d a b e => some (d, Fp.fma32 (c.reg k a) (c.reg k b) (c.reg k e))
  | .fmin d a b => some (d, Fp.min32 (c.reg k a) (c.reg k b))
  | .fmax d a b => some (d, Fp.max32 (c.reg k a) (c.reg k b))
  | .fcmp d a b => some (d, Config.vecCompare (compareOf (c.reg k a) (c.reg k b)))
  | .dotS8 d a b => some (d, dot (c.reg k d) (c.reg k a) (c.reg k b) (dot4 false (c.reg k a) (c.reg k b)))
  | .dotU8 d a b => some (d, dot (c.reg k d) (c.reg k a) (c.reg k b) (dot4 true (c.reg k a) (c.reg k b)))
  | .bfMul d a b => some (d, pairBf Fp.mulV (c.reg k a) (c.reg k b))
  | .bfAdd d a b => some (d, pairBf Fp.addV (c.reg k a) (c.reg k b))
  | .requant d a chan src =>
    let q := v.constants v.decl.fmt (chan + lane) (v.inEntry c.sp src (codeBits v.decl.fmt))
    some (d, v.requantise (if q.isInt then (c.reg k a).toInt else ((c.reg k a).toNat : Int)) q)
  | .accRead d arr e => if lane < 32 then some (d, BitVec.ofInt 32 (Tab.get c.acc 0 (accKey arr.val e lane))) else none
  | .requantAcc d arr e chan =>
    if lane < 32 then
      let q := v.constants (arrayFmt v.decl arr.val) (if v.transposed then chan else chan + lane)
        (match v.decl.mid with
          | none => accEntry arr.val e
          | some m => Fp.staticEntry m.scale m.zero)
      some (d, v.requantise (Tab.get c.acc 0 (accKey arr.val e lane)) q)
    else none
  | .requantMid d arr e chan =>
    match v.decl.mid with
    | none => none
    | some m =>
      if lane < 32 then
        let q := v.midConstants m (arrayFmt v.decl arr.val) (chan + lane) (accEntry arr.val e)
        some (d, BitVec.ofNat 32 (Fp.requant (Tab.get c.acc 0 (accKey arr.val e lane)) q))
      else none
  | .toStatic d a chan =>
    let t := Fp.mul32 (c.reg k a) (Fp.staticEntry (v.outScaleOf chan) 0).r
    some (d, if v.rounds then t else BitVec.ofNat 32 (Fp.convertV (Fp.dec32 t) v.decl.outFmt v.decl.outZero))
  | .toCode d a r dst =>
    let e := v.outEntry c.sp dst
    let t := Fp.mul32 (c.reg k a) (c.reg k r)
    some (d, if v.rounds then t
      else BitVec.ofNat 32 (Fp.convertV (if e.nonfinite then .nan else Fp.dec32 t) v.decl.outFmt e.zp))
  | .toComplex d a b r =>
    some (d, BitVec.ofNat 32
      (Fp.convertComplex (Fp.dec32 (Fp.mul32 (c.reg k a) (c.reg k r))) (Fp.dec32 (Fp.mul32 (c.reg k b) (c.reg k r)))))
  | .widen d a f part => some (d, widenPart f (c.reg k a) part)
  | .decodeRow d a f part src => some (d, realPart f (partOf f (c.reg k a) part) (v.inEntry c.sp src (Fp.fmtBits f)))
  | .recip d a => some (d, recipOf (c.reg k a))
  | .rsqrt d a => some (d, rsqrtOf (c.reg k a))
  | .exp d a => some (d, fn 2 (c.reg k a))
  | .exp2 d a => some (d, fn 3 (c.reg k a))
  | .log d a => some (d, fn 4 (c.reg k a))
  | .log2 d a => some (d, fn 5 (c.reg k a))
  | .sigmoid d a => some (d, fn 6 (c.reg k a))
  | .tanh d a => some (d, fn 7 (c.reg k a))
  | .gelu d a => some (d, fn 8 (c.reg k a))
  | .rowSum d base n => some (d, Fp.rowSum32 (wordsAt base n))
  | .rowMax d base n => some (d, canon (Fp.rowMax32 (wordsAt base n)))
  | .maxPool d f ws => some (d, windowPool false f (ws.map (fun w => Tab.get c.sp 0 (w + lane))))
  | .avgPool d f ws => some (d, windowPool true f (ws.map (fun w => Tab.get c.sp 0 (w + lane))))
  | .rowScale d base n _ => some (d, rowFactor base n)
  | .rowScaleUpdate d base n _ _ => some (d, rowFactor base n)
  | .convert d a f zo => some (d, BitVec.ofNat 32 (Fp.convert32 (c.reg k a) f zo))
  | .stoch d a st =>
    some (d, BitVec.ofNat 32 (Fp.stochV (Fp.dec32 (c.reg k a)) v.decl.outFmt
      (roundDraw v.seed v.decl.tensor v.step v.micro (st.elem + lane))))
  | .gradAdd d a base n =>
    match wordsAt (base + lane * n) n with
    | [] => some (d, c.reg k a)
    | x :: xs => some (d, Fp.add32 (c.reg k a) (xs.foldl Fp.add32 x))
  | .crop d f box srcs h w chs ch i j =>
    if (v.layer.bind (·.boxes)).any (fun b => i < b.2.1 && j + lane < b.2.2) then
      some (d, cropPixel v c.sp f box srcs h w chs ch i (j + lane))
    else none
  | .load d w => some (d, Tab.get c.sp 0 (w + lane))
  | .store .. => none
  | .storeLanes .. => none
  | .storeUpdate .. => none
  | .storeCrop .. => none
  | .illegal => none
where
  /-- words of the scratchpad -/
  wordsAt (base n : Nat) : List W32 := (List.range n).map (fun i => Tab.get c.sp 0 (base + i))
  /-- r of a PER_ROW output (R114) -/
  rowFactor (base n : Nat) : W32 :=
    let e := Fp.rowScale v.decl.outFmt (wordsAt base n)
    if e.nonfinite then BitVec.ofNat 32 Fp.f32.nanCode else e.r
  /-- a 32-bit integer accumulation; a sum outside 32 bits has no stated result -/
  dot (acc a b : W32) (t : Int) : W32 :=
    let v := acc.toInt + t
    if -(2 ^ 31) ≤ v ∧ v < 2 ^ 31 then BitVec.ofInt 32 v else Config.vecOpen 0 [acc, a, b]
  /-- a function within the bound of R54 -/
  fn (f : Nat) (x : W32) : W32 := Fp.bounded f x (Config.vecFn f x)
  /-- the scale entry of the activation row of column `lane` of an accumulator entry: the row's own, in a transposed product
  that of the activation row in the column (R118, R120) -/
  accEntry (arr e : Nat) : Fp.ScaleEntry :=
    if v.decl.scope = .static then Fp.staticEntry v.decl.inScale v.decl.zeroPoint
    else if v.transposed then
      readEntry ((Tab.get c.wsets { rows := [], sums := [] } (2 * arr + (if Tab.get c.wsel false arr then 1 else 0))).scales.getD lane 0)
    else readEntry (Tab.get c.rowScale 0 (arr * 512 + e))

/-- The instruction reads the strand file. -/
def readsStrand : VecOp → Bool
  | .accRead .. | .requantAcc .. | .requantMid .. | .rowSum .. | .rowMax .. | .maxPool .. | .avgPool .. | .rowScale ..
  | .rowScaleUpdate .. | .load .. | .crop ..
  | .illegal => false
  | _ => true

/-- The array whose accumulators an instruction reads. -/
def readsAcc : VecOp → Option Nat
  | .accRead _ arr _ => some arr.val
  | .requantAcc _ arr _ _ => some arr.val
  | .requantMid _ arr _ _ => some arr.val
  | _ => none

/-- The words of the scratchpad that an instruction reads, as (first, length) ranges over the 64 lanes. -/
def vecRanges (v : VecUnit) : VecOp → List (Nat × Nat)
  | .rowSum _ base n => [(base, n)]
  | .rowMax _ base n => [(base, n)]
  | .maxPool _ _ ws => ws.map (fun w => (w, 64))
  | .avgPool _ _ ws => ws.map (fun w => (w, 64))
  | .rowScale _ base n _ => [(base, n)]
  | .rowScaleUpdate _ base n _ g => [(base, n), (v.inEntryAt g 8, 2)]
  | .gradAdd _ _ base n => [(base, 64 * n)]
  | .load _ w => [(w, 64)]
  | .requant _ _ _ src => if v.decl.scope = .static then [] else [(v.inEntryAt src (codeBits v.decl.fmt), 2)]
  | .toCode _ _ _ dst => if v.decl.outScope = .static then [] else [(v.outEntryAt dst, 2)]
  | .decodeRow _ _ f _ src => if v.decl.scope = .static then [] else [(v.inEntryAt src (Fp.fmtBits f), 2)]
  | .storeUpdate _ _ _ g => [(v.inEntryAt g 8, 2)]
  | .crop _ f box srcs h w chs _ _ _ =>
    match v.source box srcs with
    | none => []
    | some (_, base) =>
      (base, ceilDiv (h * w * chs * Fp.fmtBits f) 32) ::
        (if v.decl.scope = .static then [] else [(v.inEntryAt { base := base, row := 0 } (Fp.fmtBits f), 2 * (h * w))])
  | _ => []

/-- An instruction that no well-formed unit program holds: an unknown one, an access of the reserved region (R130), a row
of more than 4,096 elements (R54, R113), an accumulator entry beyond 511 (R30), a pool window beyond 8 × 8 (R57), an element
that a register does not hold, or a stochastic store that the unit does not declare (R109). -/
def vecMalformed (v : VecUnit) (o : VecOp) : Bool :=
  (vecRanges v o).any (fun r => 0x7C000 < r.1 + r.2) ||
  match o with
  | .illegal => true
  | .rowSum _ _ n => 4096 < n
  | .rowMax _ _ n => 4096 < n
  | .rowScale _ _ n _ => (if v.decl.outFmt = .cint8 then 8192 else 4096) < n
  | .rowScaleUpdate _ _ n _ _ => (if v.decl.outFmt = .cint8 then 8192 else 4096) < n
  | .accRead _ _ e => 512 ≤ e
  | .requantAcc _ _ e _ => 512 ≤ e
  | .requantMid _ _ e _ => 512 ≤ e || v.decl.mid.isNone
  | .maxPool _ _ ws => 64 < ws.length
  | .avgPool _ _ ws => 64 < ws.length
  | .widen _ _ f part => 32 / (if f = .cint8 then 8 else Fp.fmtBits f) ≤ part
  | .decodeRow _ _ f part _ => 32 / Fp.fmtBits f ≤ part
  | .stoch .. => !v.rounds
  | _ => false

/-- Write the lanes of the issuing bundle: the strands of the unit only. -/
def writeLanes (v : VecUnit) (o : VecOp) (b : Nat) (view c : CoreSt) : CoreSt :=
  (List.range 64).foldl (fun t lane =>
    if b * 64 + lane < view.strands then
      match laneResult v view (b * 64 + lane) lane o with
      | some (d, x) => t.setReg (b * 64 + lane) d x
      | none => t
    else t) c

/-- The words that hold the codes of the lanes of a bundle in register `a`, in lane order (R103).  The bytes of the last word beyond
the last lane's code become 0.
DESIGN CHOICE: log entry 124. -/
def laneWords (c : CoreSt) (b : Nat) (a : Fin 8) (f : Fmt) : List W32 :=
  let bits := Fp.fmtBits f
  let codes := (List.range (min 64 (c.strands - b * 64))).map (fun lane => (c.reg (b * 64 + lane) a).toNat % 2 ^ bits)
  let per := 32 / bits
  (List.range (ceilDiv codes.length per)).map (fun i =>
    BitVec.ofNat 32 (((codes.drop (i * per)).take per).zipIdx.foldl (fun x e => x + e.1 * 2 ^ (bits * e.2)) 0))

/-- Write words one after the other. -/
def unitWrites (n : CoreNum) (w : Nat) (xs : List W32) (s : State) : State :=
  forEach xs.zipIdx (fun x s => unitWrite n (w + x.2) x.1 s) s

/-- The effects of an instruction beside its lanes: a store, a scale entry with the non-finite flag (R115, R117, R118), and the
accumulator check of a read (R46).  Of a held adaptation job nothing is stored (R123), and an update on a gradient row that is
not finite leaves its row as it was and flags the unit (R121). -/
def vecEffects (n : CoreNum) (v : VecUnit) (o : VecOp) (b : Nat) (ok : Bool) (view : CoreSt) (s : State) : State :=
  let store (w : Nat) (xs : List W32) (s : State) : State := if v.held then s else unitWrites n w xs s
  let putEntry (base len : Nat) (dst : RowAt) (s : State) : State :=
    let e := Fp.rowScale v.decl.outFmt ((List.range len).map (fun i => Tab.get view.sp 0 (base + i)))
    let s1 := if e.nonfinite then flagUnit n.val Cause.nonfiniteScale s else s
    store (v.outEntryAt dst) [e.s, BitVec.ofNat 32 (e.toWord.toNat / 2 ^ 32)] s1
  let badGrad (g : RowAt) : Bool := (Fp.ofEntry (entryAt view.sp g.base v.decl.inRows v.decl.rowLen 8 g.row)).nonfinite
  match o with
  | .store a w => store w [view.reg (b * 64) a] s
  | .storeLanes a f w => store w (laneWords view b a f) s
  | .storeUpdate a f w g =>
    if badGrad g then flagUnit n.val Cause.nonfiniteScale s else store w (laneWords view b a f) s
  | .storeCrop a f box base words off =>
    match v.boxes[box]? with
    | none => s
    | some e => store (base + boxSlot e * words + off) (laneWords view b a f) s
  | .rowScale _ base len dst => putEntry base len dst s
  | .rowScaleUpdate _ base len dst g =>
    if badGrad g then flagUnit n.val Cause.nonfiniteScale s else putEntry base len dst s
  | _ =>
    match readsAcc o with
    | none => s
    | some a => accCheck n.val a ok s

/-- One instruction of one ready bundle issues (R53).  A strand-file parity error on its reads stops the unit (R58); what its
scratchpad reads find follows R139 and R140.
DESIGN CHOICE: log entry 55. -/
def issue (n : CoreNum) (ready : List Nat) (o : VecOp) (parityOk : Bool) (u : Upset) (k : Nat) (s : State) : State :=
  let c := s.core n.val
  if !s.unitRuns n.val then s
  else
    match pickBundle c.lastBundle (ready.filter (· < c.bundles)) with
    | none => s
    | some b =>
      let v := vecUnit s n.val
      let s1 := s.modCore n.val (fun c => { c with lastBundle := b, vecBusy := sat32 (c.vecBusy + 1) })
      if vecMalformed v o then seqIllegal n s1
      else
        let (hit, s2) := if readsStrand o then takeInj (.core n.val) Bit.coreStrand s1 else (false, s1)
        if readsStrand o && (hit || !parityOk) then
          faultStop n Cause.strandFault Bit.coreStrand 0 true
            (raiseAt (.core n.val) Bit.coreStrand 0 ((c.run).map (fun u => (u.ctx, u.part))) s2)
        else
          let (stopped, s3) := readRanges n (vecRanges v o) u k s2
          if stopped then s3
          else
            let view := c.drain
            vecEffects n v o b parityOk view (s3.modCore n.val (writeLanes v o b view))

/-- A VECTOR_ISSUE (R53). -/
def execVectorIssue (core : CoreNum) (ready : List (Fin 128)) (op : VecOp) (checks : ReadChecks) (s : State) :
    VectorResult := .next (issue core (ready.map (·.val)) op checks.parityOk checks.upset checks.upsetAt s)

end Sys2Proof.Machine
end

