-- ==== Sys2Proof/Machine/Voting.lean ====
section
/-! DEFINITION. The commands of the vote units, of the deadline monitors and of record egress (R20, R218, R283, R305 to
R311, R322, R419). -/

namespace Sys2Proof.Machine

open Sys2Proof Sys2Proof.Machine.Bits

/-- What these commands answer. -/
abbrev VoteResult := Host.Outcome State Fault Refusal

/-- The unit at whose end vote unit `v` stands: the last one of its stage, or of the record stage, for the item and copy. -/
def votesAt (s : State) (v copy seq : Nat) (u : UnitInst) : Bool :=
  some u.stream == (s.vote v).stream && u.copy == copy && u.seq == seq && u.last &&
    (if (s.vote v).record then u.record else (s.stream? u.stream).any (fun st => votePointOf s st u.stage == some v))

/-- The output that a copy presents to vote unit `v` and its flag causes, as its unit has computed them (R31, R87): of the unit that
runs, or of the record unit that has ended; none when the copy has computed none, and then the signature's own operands stand
for what its core presents.
DESIGN CHOICE: log entry 126. -/
def computedOutput (v copy seq : Nat) (payload : List Byte) (s : State) : Option (List Byte × List Nat) :=
  match s.cores.findSome? (fun c => (c.2.run.filter (votesAt s v copy seq)).map (fun u => (outputBytes s c.1 u payload, u.causes))) with
  | some x => some x
  | none =>
    if (s.vote v).record then
      (s.qmg.shown.find? (fun x => some x.stream == (s.vote v).stream && x.copy == copy && x.seq == seq)).map
        (fun x => (x.payload, x.causes))
    else none

/-- The signature of a copy: the CRC-64 of its output as it arrives, with its flag (R87, R305). -/
def presented (v copy seq : Nat) (flips : W64) (cause : Nat) (corrected : Bool) (payload : List Byte) (s : State) : Sig :=
  match computedOutput v copy seq payload s with
  | some (bytes, causes) =>
    { copy := copy, sig := Bits.crc64 bytes ^^^ flips, cause := (firstFlag causes).getD 0,
      corrected := causes.any (fun f => flagState f == .corrected), payload := bytes }
  | none => { copy := copy, sig := Bits.crc64 payload ^^^ flips, cause := cause, corrected := corrected, payload := payload }

/-- A copy presents its signature, the CRC-64 of its output buffer as it arrives (R305), with the flag of its output (R87).
DESIGN CHOICE: log entry 91. -/
def execVoteSignature (unit : VoteNum) (copy : Fin 3) (seq : Nat) (flips : W64) (cause : Nat) (corrected : Bool)
    (payload : List Byte) (s : State) : VoteResult :=
  .next (settle (presentSig unit.val seq
    (presented unit.val copy.val seq flips cause corrected payload s) s))

/-- A vote unit tests itself (R322). -/
def execVoteUnitTest (unit : VoteNum) (pass : Bool) (s : State) : VoteResult := .next (testVote unit.val pass s)

/-! ### Egress -/

/-- The oldest record that may leave does: into the host's ring while the PCIe link is up, or as a datagram.  The record of
a job ends the job.
DESIGN CHOICE: log entry 69. -/
def egress (id : Nat) (s : State) : State :=
  match s.stream? id with
  | none => s
  | some st =>
    match st.nextOut with
    | none => s
    | some r =>
      if st.decl.egress = 0 && !s.pce.up then s
      else
        endJob id r.seq (sendRecord st r (s.modStream id (fun st =>
          { st with formed := st.formed.drop 1 })))

/-- A RECORD_EGRESS (R20). -/
def execRecordEgress (stream : StreamId) (s : State) : VoteResult := .next (settle (egress stream s))

/-! ### Deadline monitors (R309, R310) -/

/-- The stage deadline of an item with stamp `stamp` (R309).
DESIGN CHOICE: log entry 70. -/
def stageDeadlineOf (st : Stream) (d : StageDecl) (seq stamp : Nat) : Nat :=
  match d.mode with
  | .strata => stamp + d.path
  | .frame =>
    let job := (st.jobs.find? (fun j => j.seq == seq)).map (·.deadline)
    (match job with
      | some t => if t = 0 then stamp + st.decl.deadline else t
      | none => stamp + st.decl.deadline) - d.downstream

/-- The vote unit at or after a stage of a copy: that of the next declared vote point, or the record's. -/
def nextVotePoint (s : State) (st : Stream) (stage : Nat) : Option Nat :=
  match ((List.range 64).map (· + stage)).findSome? (fun k => votePointOf s st k) with
  | some v => some v
  | none => st.place.votes.getLast?.map (·.val)

/-- The stamp of an item: of the accepted one, or of the entry that a vote unit still holds.
DESIGN CHOICE: log entry 70. -/
def stampOf (s : State) (st : Stream) (v : Option Nat) (seq : Nat) : Option Nat :=
  match st.item? seq with
  | some it => if it.checked then some it.stamp else none
  | none => (v.bind (fun v => (s.vote v).entry? seq)).map (·.stamp)

/-- A copy misses its stage deadline: it is outvoted for the item (R305, R310). -/
def missDeadline (v id copy seq : Nat) (s : State) : State :=
  let held := ((s.vote v).entry? seq).isSome
  let s1 := if held || (s.vote v).retired.contains seq || ((s.stream? id).bind (·.item? seq)).isNone then s else roomFor v id seq s
  let s2 := s1.modVote v (fun u => u.modEntry seq (fun e =>
    { e with missed := if e.sigs.any (fun g => g.copy == copy) then e.missed else addOnce e.missed copy }))
  dropVote v id seq false (decideVote v id seq false (markOutvoted id copy seq Cause.stageDeadline s2))

/-- A stream without copies: an ITEM invalidation, the QMG's record and a dangerous fault (R310). -/
def substitute (id slot : Nat) (st : Stream) (seq : Nat) (s : State) : State :=
  report { unit := 0xC7, cause := Cause.stageDeadline, ctx := st.ctx, part := st.part, slot := slot, stream := some id, seq := seq }
    (qmgRecord id seq Cause.stageDeadline
      (sendInval { target := .stream id, scope := .item seq, cause := Cause.stageDeadline } s))

/-- Cores of a slot that wait on the item, or that have stalled with no unit, leave their wait in a fault stop; no rule names an ERR_STAT bit for it: a free
value (R61, R65, R310; log entry 99). -/
def stopWaiting (slot id seq : Nat) (s : State) : State :=
  forEach (List.finRange 192) (fun c s =>
    let k := s.core c.val
    if (k.seq = .wait && k.slot == slot && k.run.any (fun u => u.stream == id && u.seq == seq)) ||
        (k.run.isNone && k.slot == slot && (s.waitOf c.val).isSome) then
      faultStop c Cause.faultStop (Config.freeNat s.free % 256) 0 false { s with free := s.free + 1 }
    else s) s

/-- The monitor of a slot of a stream fires for an item that the stage has not pushed in time. -/
def fireMonitor (id : Nat) (st : Stream) (p : SlotPlan) (d : StageDecl) (seq : Nat) (s : State) : State :=
  let v := if st.cls = .triplex then nextVotePoint s st p.stage else none
  let pushed := (st.item? seq).any (fun it => it.pushed.contains p.slot.val)
  match stampOf s st v seq with
  | none => s
  | some t =>
    if pushed || s.tal.time ≤ stageDeadlineOf st d seq t then s
    else
      match v with
      | some v => stopWaiting p.slot.val id seq (missDeadline v id p.copy seq s)
      | none => stopWaiting p.slot.val id seq (substitute id p.slot.val st seq s)

/-- The deadline monitor of stage slot `slot` for item `seq` (R309): only slots of SIMPLEX and TRIPLEX streams have one.
DESIGN CHOICE: log entry 70. -/
def monitorFires (slot seq : Nat) (s : State) : State :=
  forEach (s.streamIds (fun st => isSafety st.cls && st.place.slots.any (fun p => p.slot.val == slot))) (fun id s =>
    match s.stream? id with
    | none => s
    | some st =>
      match st.place.slots.find? (fun p => p.slot.val == slot) with
      | none => s
      | some p =>
        match s.stageOf st p.stage with
        | none => s
        | some d => fireMonitor id st p d seq s) s

/-- A STAGE_DEADLINE (R309). -/
def execStageDeadline (slot : SlotNum) (seq : Nat) (s : State) : VoteResult := .next (settle (monitorFires slot.val seq s))

end Sys2Proof.Machine
end

