-- ==== Sys2Proof/Machine/Dispatch.lean ====
section
/-! DEFINITION. Which meaning each command has: one arm per constructor of `Instr`. -/

namespace Sys2Proof.Machine

open Sys2Proof

/-- The effect of a command on everything but the queue of waiting commands. -/
def exec (i : Instr) (s : State) : Host.Outcome State Fault Refusal :=
  match i with
  | .loadImage cmd len crc file => Sys2Proof.Machine.execLoadImage cmd len crc file s
  | .declareStream cmd stream image block crc lode => Sys2Proof.Machine.execDeclareStream cmd stream image block crc lode s
  | .armStream cmd stream firstSeq camera ring => Sys2Proof.Machine.execArmStream cmd stream firstSeq camera ring s
  | .rearm cmd stream firstSeq rebase ring => Sys2Proof.Machine.execRearm cmd stream firstSeq rebase ring s
  | .rearmDrained stream => Sys2Proof.Machine.execRearmDrained stream s
  | .dispatch cmd stream prio adapt input output deadline roundSeed augSeed firstSample => Sys2Proof.Machine.execDispatch cmd stream prio adapt input output deadline roundSeed augSeed firstSample s
  | .fence cmd epoch => Sys2Proof.Machine.execFence cmd epoch s
  | .hintPhase cmd phase durationUs => Sys2Proof.Machine.execHintPhase cmd phase durationUs s
  | .phaseHintExpiry ctx => Sys2Proof.Machine.execPhaseHintExpiry ctx s
  | .cancel cmd epoch => Sys2Proof.Machine.execCancel cmd epoch s
  | .epochQuiet epoch => Sys2Proof.Machine.execEpochQuiet epoch s
  | .cancelTimeout epoch => Sys2Proof.Machine.execCancelTimeout epoch s
  | .epochNumberFreed epoch => Sys2Proof.Machine.execEpochNumberFreed epoch s
  | .queryPlacement cmd len => Sys2Proof.Machine.execQueryPlacement cmd len s
  | .queryImageSummary cmd image len => Sys2Proof.Machine.execQueryImageSummary cmd image len s
  | .queryStreamState cmd stream len => Sys2Proof.Machine.execQueryStreamState cmd stream len s
  | .queryAccounting cmd len => Sys2Proof.Machine.execQueryAccounting cmd len s
  | .queryFaultRecords cmd len => Sys2Proof.Machine.execQueryFaultRecords cmd len s
  | .querySpares cmd len => Sys2Proof.Machine.execQuerySpares cmd len s
  | .partitionCreate cmd part props => Sys2Proof.Machine.execPartitionCreate cmd part props s
  | .partitionChange cmd part props => Sys2Proof.Machine.execPartitionChange cmd part props s
  | .partitionRemove cmd part => Sys2Proof.Machine.execPartitionRemove cmd part s
  | .contextBind cmd target part fn vector => Sys2Proof.Machine.execContextBind cmd target part fn vector s
  | .unload cmd image => Sys2Proof.Machine.execUnload cmd image s
  | .coreTest cmd core => Sys2Proof.Machine.execCoreTest cmd core s
  | .sliceBypass cmd slice takers => Sys2Proof.Machine.execSliceBypass cmd slice takers s
  | .settingsWrite cmd record => Sys2Proof.Machine.execSettingsWrite cmd record s
  | .cameraRegRead cmd stream reg answer => Sys2Proof.Machine.execCameraRegRead cmd stream reg answer s
  | .cameraRegWrite cmd stream reg value => Sys2Proof.Machine.execCameraRegWrite cmd stream reg value s
  | .timeSeconds cmd seconds => Sys2Proof.Machine.execTimeSeconds cmd seconds s
  | .resumeHeldSkip cmd => Sys2Proof.Machine.execResumeHeldSkip cmd s
  | .resumeHeldAbort cmd => Sys2Proof.Machine.execResumeHeldAbort cmd s
  | .acctTrace cmd set => Sys2Proof.Machine.execAcctTrace cmd set s
  | .fwUpdateStage cmd len crc img => Sys2Proof.Machine.execFwUpdateStage cmd len crc img s
  | .fwUpdateNextReset cmd len crc img => Sys2Proof.Machine.execFwUpdateNextReset cmd len crc img s
  | .fwUpdateLive cmd len crc img => Sys2Proof.Machine.execFwUpdateLive cmd len crc img s
  | .fwFlashVerified ok => Sys2Proof.Machine.execFwFlashVerified ok s
  | .liveCoreRejoin core => Sys2Proof.Machine.execLiveCoreRejoin core s
  | .liveRejoinTimeout core => Sys2Proof.Machine.execLiveRejoinTimeout core s
  | .qmgDoorbell fn ctx tail descs => Sys2Proof.Machine.execQmgDoorbell fn ctx tail descs s
  | .qmgCtxQcfgWrite fn value => Sys2Proof.Machine.execQmgCtxQcfgWrite fn value s
  | .qmgCtxCplHeadWrite fn value => Sys2Proof.Machine.execQmgCtxCplHeadWrite fn value s
  | .enterSafeState fn => Sys2Proof.Machine.execEnterSafeState fn s
  | .readLog fn => Sys2Proof.Machine.execReadLog fn s
  | .pinTest fn => Sys2Proof.Machine.execPinTest fn s
  | .pinTestEnd => Sys2Proof.Machine.execPinTestEnd s
  | .clearCounts fn => Sys2Proof.Machine.execClearCounts fn s
  | .lockKeyWrite fn page value => Sys2Proof.Machine.execLockKeyWrite fn page value s
  | .lockTimeout page => Sys2Proof.Machine.execLockTimeout page s
  | .errStatClear fn page value => Sys2Proof.Machine.execErrStatClear fn page value s
  | .registerWrite fn addr value => Sys2Proof.Machine.execRegisterWrite fn addr value s
  | .talTimeLoRead fn => Sys2Proof.Machine.execTalTimeLoRead fn s
  | .talOdoPosLoRead fn => Sys2Proof.Machine.execTalOdoPosLoRead fn s
  | .ctlAcctWaitLoRead fn => Sys2Proof.Machine.execCtlAcctWaitLoRead fn s
  | .coreCntClr fn core value => Sys2Proof.Machine.execCoreCntClr fn core value s
  | .ingCntClr fn port value => Sys2Proof.Machine.execIngCntClr fn port value s
  | .monClear fn mon value => Sys2Proof.Machine.execMonClear fn mon value s
  | .monCfgWrite fn mon value => Sys2Proof.Machine.execMonCfgWrite fn mon value s
  | .monSample mon value => Sys2Proof.Machine.execMonSample mon value s
  | .pwrCapWrite fn value => Sys2Proof.Machine.execPwrCapWrite fn value s
  | .glbRstReq fn value => Sys2Proof.Machine.execGlbRstReq fn value s
  | .bootLoadStart fn value => Sys2Proof.Machine.execBootLoadStart fn value s
  | .bootLoadDone img => Sys2Proof.Machine.execBootLoadDone img s
  | .coreSampleCopy fn => Sys2Proof.Machine.execCoreSampleCopy fn s
  | .coreSampleCopyDone => Sys2Proof.Machine.execCoreSampleCopyDone s
  | .coreSampleRelease fn => Sys2Proof.Machine.execCoreSampleRelease fn s
  | .dbgNoticeHeadWrite fn value => Sys2Proof.Machine.execDbgNoticeHeadWrite fn value s
  | .injAbftMismatch fn core => Sys2Proof.Machine.execInjAbftMismatch fn core s
  | .injAccCheck fn core => Sys2Proof.Machine.execInjAccCheck fn core s
  | .injStrandFault fn core => Sys2Proof.Machine.execInjStrandFault fn core s
  | .injSpEccCorr fn core => Sys2Proof.Machine.execInjSpEccCorr fn core s
  | .injSpEccUncorr fn core => Sys2Proof.Machine.execInjSpEccUncorr fn core s
  | .injShcTagCorr fn slice => Sys2Proof.Machine.execInjShcTagCorr fn slice s
  | .injShcDataCorr fn slice => Sys2Proof.Machine.execInjShcDataCorr fn slice s
  | .injShcDataUncorr fn slice => Sys2Proof.Machine.execInjShcDataUncorr fn slice s
  | .injDmcEccCorr fn chan => Sys2Proof.Machine.execInjDmcEccCorr fn chan s
  | .injDmcEccUncorr fn chan => Sys2Proof.Machine.execInjDmcEccUncorr fn chan s
  | .injDmcLinkCorr fn chan => Sys2Proof.Machine.execInjDmcLinkCorr fn chan s
  | .injDmcLinkUncorr fn chan => Sys2Proof.Machine.execInjDmcLinkUncorr fn chan s
  | .injDescCorr fn => Sys2Proof.Machine.execInjDescCorr fn s
  | .injDescUncorr fn => Sys2Proof.Machine.execInjDescUncorr fn s
  | .injIngCrc fn port => Sys2Proof.Machine.execInjIngCrc fn port s
  | .injHdrCorr fn port => Sys2Proof.Machine.execInjHdrCorr fn port s
  | .injHdrUncorr fn port => Sys2Proof.Machine.execInjHdrUncorr fn port s
  | .injOdoIllegal fn => Sys2Proof.Machine.execInjOdoIllegal fn s
  | .injJlsCorrupt fn => Sys2Proof.Machine.execInjJlsCorrupt fn s
  | .injCmdRejected fn => Sys2Proof.Machine.execInjCmdRejected fn s
  | .injRegFail fn => Sys2Proof.Machine.execInjRegFail fn s
  | .injSensorFail fn => Sys2Proof.Machine.execInjSensorFail fn s
  | .injPceCorr fn => Sys2Proof.Machine.execInjPceCorr fn s
  | .injTlkLaneSpared fn port => Sys2Proof.Machine.execInjTlkLaneSpared fn port s
  | .injTlkReplay fn port => Sys2Proof.Machine.execInjTlkReplay fn port s
  | .hostDramAccess off op tag data dram => Sys2Proof.Machine.execHostDramAccess off op tag data dram s
  | .functionLevelReset fn => Sys2Proof.Machine.execFunctionLevelReset fn s
  | .pciePerst => Sys2Proof.Machine.execPciePerst s
  | .pcieLinkUp speed width mps => Sys2Proof.Machine.execPcieLinkUp speed width mps s
  | .pcieLinkDown loss => Sys2Proof.Machine.execPcieLinkDown loss s
  | .powerOnReset => Sys2Proof.Machine.execPowerOnReset s
  | .bootSafeTestDone pass => Sys2Proof.Machine.execBootSafeTestDone pass s
  | .bootImageVerified => Sys2Proof.Machine.execBootImageVerified s
  | .bootTrainDone found => Sys2Proof.Machine.execBootTrainDone found s
  | .bootCoreTestDone failed => Sys2Proof.Machine.execBootCoreTestDone failed s
  | .bootReady => Sys2Proof.Machine.execBootReady s
  | .waitCoolantEnd => Sys2Proof.Machine.execWaitCoolantEnd s
  | .vrdyBootTimeout quad => Sys2Proof.Machine.execVrdyBootTimeout quad s
  | .warmReset => Sys2Proof.Machine.execWarmReset s
  | .quiesceDone safePass => Sys2Proof.Machine.execQuiesceDone safePass s
  | .quiesceCutOff safePass => Sys2Proof.Machine.execQuiesceCutOff safePass s
  | .warmResetReady retention => Sys2Proof.Machine.execWarmResetReady retention s
  | .autoRestart => Sys2Proof.Machine.execAutoRestart s
  | .quadrantReset quad => Sys2Proof.Machine.execQuadrantReset quad s
  | .quadrantResetDone quad failed => Sys2Proof.Machine.execQuadrantResetDone quad failed s
  | .portReset port => Sys2Proof.Machine.execPortReset port s
  | .csi2FrameStart port vc ecc frameNo => Sys2Proof.Machine.execCsi2FrameStart port vc ecc frameNo s
  | .csi2LongPacket port vc ecc dataType crcOk data => Sys2Proof.Machine.execCsi2LongPacket port vc ecc dataType crcOk data s
  | .csi2FrameEnd port vc ecc boxes => Sys2Proof.Machine.execCsi2FrameEnd port vc ecc boxes s
  | .cxpStreamPacket pair line off data crcOk lineEnd => Sys2Proof.Machine.execCxpStreamPacket pair line off data crcOk lineEnd s
  | .lineTimeout pair => Sys2Proof.Machine.execLineTimeout pair s
  | .lidarPacket lane pkt => Sys2Proof.Machine.execLidarPacket lane pkt s
  | .ptpMessage msg => Sys2Proof.Machine.execPtpMessage msg s
  | .ppsEdge => Sys2Proof.Machine.execPpsEdge s
  | .holdoverEntry => Sys2Proof.Machine.execHoldoverEntry s
  | .holdoverExpiry => Sys2Proof.Machine.execHoldoverExpiry s
  | .odoFilteredSample a b => Sys2Proof.Machine.execOdoFilteredSample a b s
  | .alignWaitTimeout group => Sys2Proof.Machine.execAlignWaitTimeout group s
  | .jlsDecode decoder stream sample hdr => Sys2Proof.Machine.execJlsDecode decoder stream sample hdr s
  | .jlsDecodeDone decoder result => Sys2Proof.Machine.execJlsDecodeDone decoder result s
  | .tokenise stream sample input => Sys2Proof.Machine.execTokenise stream sample input s
  | .unitStart core boxes => Sys2Proof.Machine.execUnitStart core boxes s
  | .unitComplete core payload => Sys2Proof.Machine.execUnitComplete core payload s
  | .weightSetLoad core array setB src => Sys2Proof.Machine.execWeightSetLoad core array setB src s
  | .arrayRowVerdict core array row => Sys2Proof.Machine.execArrayRowVerdict core array row s
  | .vectorIssue core ready op checks => Sys2Proof.Machine.execVectorIssue core ready op checks s
  | .scratchpadAccess core op upset => Sys2Proof.Machine.execScratchpadAccess core op upset s
  | .faultedItem core => Sys2Proof.Machine.execFaultedItem core s
  | .coreRecovery core slicePass => Sys2Proof.Machine.execCoreRecovery core slicePass s
  | .unitOverrun core => Sys2Proof.Machine.execUnitOverrun core s
  | .hangStop core => Sys2Proof.Machine.execHangStop core s
  | .drainRequest core => Sys2Proof.Machine.execDrainRequest core s
  | .remoteWrite writer core window gen addr data => Sys2Proof.Machine.execRemoteWrite writer core window gen addr data s
  | .windowWaitEnd core => Sys2Proof.Machine.execWindowWaitEnd core s
  | .transferComplete core queue result => Sys2Proof.Machine.execTransferComplete core queue result s
  | .allocate agent via table => Sys2Proof.Machine.execAllocate agent via table s
  | .queuePush agent queue handle desc table => Sys2Proof.Machine.execQueuePush agent queue handle desc table s
  | .queuePop core queue desc table => Sys2Proof.Machine.execQueuePop core queue desc table s
  | .bufferReturn core handle => Sys2Proof.Machine.execBufferReturn core handle s
  | .queueWaitEnd core => Sys2Proof.Machine.execQueueWaitEnd core s
  | .queueRecovery queue => Sys2Proof.Machine.execQueueRecovery queue s
  | .orphanReconcile pool => Sys2Proof.Machine.execOrphanReconcile pool s
  | .batchStart slot => Sys2Proof.Machine.execBatchStart slot s
  | .budgetReplenish part => Sys2Proof.Machine.execBudgetReplenish part s
  | .voteSignature unit copy seq flips cause corrected payload => Sys2Proof.Machine.execVoteSignature unit copy seq flips cause corrected payload s
  | .voteUnitTest unit pass => Sys2Proof.Machine.execVoteUnitTest unit pass s
  | .recordInvalidation => Sys2Proof.Machine.execRecordInvalidation s
  | .recordEgress stream => Sys2Proof.Machine.execRecordEgress stream s
  | .stageDeadline slot seq => Sys2Proof.Machine.execStageDeadline slot seq s
  | .faultReport retention => Sys2Proof.Machine.execFaultReport retention s
  | .coreSampleDone truncated => Sys2Proof.Machine.execCoreSampleDone truncated s
  | .faultHoldExpiry => Sys2Proof.Machine.execFaultHoldExpiry s
  | .heartbeatToggle => Sys2Proof.Machine.execHeartbeatToggle s
  | .hbKick pair => Sys2Proof.Machine.execHbKick pair s
  | .lockstepMismatch pair => Sys2Proof.Machine.execLockstepMismatch pair s
  | .clockMonitorWindow dom count expected => Sys2Proof.Machine.execClockMonitorWindow dom count expected s
  | .supplyExcursion rail => Sys2Proof.Machine.execSupplyExcursion rail s
  | .saferefLoss => Sys2Proof.Machine.execSaferefLoss s
  | .ctrlCoreKickTimeout core => Sys2Proof.Machine.execCtrlCoreKickTimeout core s
  | .statusFrame => Sys2Proof.Machine.execStatusFrame s
  | .selfTestSliceStart core => Sys2Proof.Machine.execSelfTestSliceStart core s
  | .selfTestSliceDone core pass comparatorOk => Sys2Proof.Machine.execSelfTestSliceDone core pass comparatorOk s
  | .testDeferralLimit core => Sys2Proof.Machine.execTestDeferralLimit core s
  | .latent core => Sys2Proof.Machine.execLatent core s
  | .replacementStart slot cores => Sys2Proof.Machine.execReplacementStart slot cores s
  | .replacementCommit boundary => Sys2Proof.Machine.execReplacementCommit boundary s
  | .replacementDone => Sys2Proof.Machine.execReplacementDone s
  | .rowRepair core bank row => Sys2Proof.Machine.execRowRepair core bank row s
  | .scratchpadScrub core word upset => Sys2Proof.Machine.execScratchpadScrub core word upset s
  | .shcAccess ctx part off op tag data tagCopy dram => Sys2Proof.Machine.execShcAccess ctx part off op tag data tagCopy dram s
  | .dmcAccess off op upset ctx part => Sys2Proof.Machine.execDmcAccess off op upset ctx part s
  | .patrolScrub off upset secondPass => Sys2Proof.Machine.execPatrolScrub off upset secondPass s
  | .meshLaneSteer plane link => Sys2Proof.Machine.execMeshLaneSteer plane link s
  | .meshLaneSteerDone plane => Sys2Proof.Machine.execMeshLaneSteerDone plane s
  | .meshPlaneOut plane why => Sys2Proof.Machine.execMeshPlaneOut plane why s
  | .meshPlaneRehash plane => Sys2Proof.Machine.execMeshPlaneRehash plane s
  | .powerEstimate quads rest => Sys2Proof.Machine.execPowerEstimate quads rest s
  | .allocatorDecision measured => Sys2Proof.Machine.execAllocatorDecision measured s
  | .pstepSwitch quad => Sys2Proof.Machine.execPstepSwitch quad s
  | .regFail quad => Sys2Proof.Machine.execRegFail quad s
  | .pwrLimit => Sys2Proof.Machine.execPwrLimit s
  | .pwrLimitRelease => Sys2Proof.Machine.execPwrLimitRelease s
  | .sensorSample sensor reading => Sys2Proof.Machine.execSensorSample sensor reading s
  | .tjOverGradeClear => Sys2Proof.Machine.execTjOverGradeClear s
  | .thermtrip sensor => Sys2Proof.Machine.execThermtrip sensor s
  | .coolant => Sys2Proof.Machine.execCoolant s
  | .coolantClockStop => Sys2Proof.Machine.execCoolantClockStop s
  | .vrdyFall quad => Sys2Proof.Machine.execVrdyFall quad s
  | .ternlinkTraining port lo hi peerDev peerRelease => Sys2Proof.Machine.execTernlinkTraining port lo hi peerDev peerRelease s
  | .ternlinkFlit port crcOk part aperture off data => Sys2Proof.Machine.execTernlinkFlit port crcOk part aperture off data s
  | .ternlinkLaneFail port lane => Sys2Proof.Machine.execTernlinkLaneFail port lane s
  | .ternlinkFwMessage port release => Sys2Proof.Machine.execTernlinkFwMessage port release s
  | .ingLinkDown port => Sys2Proof.Machine.execIngLinkDown port s
  | .ingLinkUp port => Sys2Proof.Machine.execIngLinkUp port s
  | .sgmiiLinkChange up => Sys2Proof.Machine.execSgmiiLinkChange up s
  | .meshTokenRefill => Sys2Proof.Machine.execMeshTokenRefill s
  | .dramShareWindow chan => Sys2Proof.Machine.execDramShareWindow chan s
  | .ctrlCoreKick core => Sys2Proof.Machine.execCtrlCoreKick core s
  | .vrdyRise quad => Sys2Proof.Machine.execVrdyRise quad s
  | .ternlinkLaneSteerDone port => Sys2Proof.Machine.execTernlinkLaneSteerDone port s
  | .bootFuseReadDone fuses => Sys2Proof.Machine.execBootFuseReadDone fuses s

end Sys2Proof.Machine
end

