-- ==== Sys2Proof/Machine/Step.lean ====
section
/-! DEFINITION. One step of the block: the command at the front of the queue, or one CK_TIME
cycle when no command waits (log entry 4). -/

namespace Sys2Proof.Machine

open Sys2Proof

/-- One step: run the command at the front of the queue on the state with the queue's rest.
DESIGN CHOICE: log entry 4.
DESIGN CHOICE: log entry 89. -/
def step (s : State) : Host.Outcome State Fault Refusal :=
  match s.pending with
  | c :: rest => exec c { s with pending := rest }
  | [] => .next (tick s)

/-- `s` with the command that the word spells at the front of its queue; no word spells one (log
entry 2).
DESIGN CHOICE: log entry 2. -/
def State.withFetchWord (s : State) (nbits w : Nat) : State :=
  match decodeTableWord nbits w with
  | none => s
  | some c => { s with pending := c :: s.pending }

end Sys2Proof.Machine
end

