-- ==== Sys2Proof/Safety.lean ====
section
/-! DEFINITION. The terms in which the statements speak of a run: a command that completes, what leaves the device, the
memories that a command leaves alone, and the invariants of the machine. -/

namespace Sys2Proof.Machine

open Sys2Proof

/-! ### Completion of a command -/

/-- Command `i` answers a next state, and that state has property `P`. -/
def Completes (i : Instr) (s : State) (P : State → Prop) : Prop := ∃ t, exec i s = .next t ∧ P t

/-- Between `s` and `t` the device sent `o`, and took back nothing that it had sent. -/
def Sends (s t : State) (o : Out) : Prop := ∃ new, t.outs = s.outs ++ new ∧ o ∈ new

/-- Between `s` and `t` the completion of `cmd` was posted with this status (R204). -/
def Posts (cmd : Cmd) (status : Nat) (s t : State) : Prop :=
  ∃ (e : Completion) (a : Nat), e.tag = cmd.tag ∧ e.status = status ∧ Sends s t (.completion cmd.ctx.val a e.bytes)

/-- Between `s` and `t` the completion of `cmd` was posted with this status, epoch and DETAIL (R204). -/
def Answers (cmd : Cmd) (status epoch detail : Nat) (s t : State) : Prop :=
  ∃ (e : Completion) (a : Nat), e.tag = cmd.tag ∧ e.status = status ∧ e.epoch = epoch ∧ e.detail = detail ∧
    Sends s t (.completion cmd.ctx.val a e.bytes)

/-- `cmd` has started at `t` and has not completed (R203). -/
def Runs (cmd : Cmd) (opcode : Nat) (t : State) : Prop :=
  ∃ r ∈ (t.ctx cmd.ctx.val).running, r.cmd = cmd ∧ r.opcode = opcode

/-- The command that runs in context `ctx` under start order `order` is `r`, and its completion finds space (R203, R204). -/
def CanEnd (s : State) (ctx order : Nat) (r : Running) : Prop :=
  s.runningAt ctx order = some r ∧ r.cmd.ctx.val = ctx ∧ (s.ctx ctx).cplHeld = [] ∧ (s.ctx ctx).cplSpace = true

/-- The device takes this command, of opcode `op`, at once: it is the next that has been read from the ring of its context, nothing
waits inside the device, and its completion finds space (R196, R203, R204). -/
def Takes (s : State) (cmd : Cmd) (op : Nat) : Prop :=
  s.accepts cmd = true ∧ (s.ctx cmd.ctx.val).fetched.head? = some (cmd.tag, op) ∧ s.ctl.waiting = [] ∧ s.ctl.fences = [] ∧
    (s.ctx cmd.ctx.val).cplHeld = [] ∧ (s.ctx cmd.ctx.val).cplSpace = true

/-- No command waits inside the device. -/
def NoneWaits (s : State) : Prop := s.ctl.waiting = [] ∧ s.ctl.fences = []

/-- Queue `n` is ARMED and takes an operation of requester `a` for its partition, and no descriptor injection is armed in
the QMG (R182 to R185, R197). -/
def QueueServes (s : State) (a : Agent) (n : Nat) : Prop :=
  (s.hdr .qmg).inj = 0 ∧ queueVerdict s (s.queue n) (agentPart s a (s.queue n).part) = .accept

/-! ### Frames -/

/-- Every byte of DRAM reads as before. -/
def SameDram (s t : State) : Prop := ∀ a, t.dramByte a = s.dramByte a

/-- Every byte of DRAM reads as before but for the lines that some slice of the shared cache held dirty: they may have been
written back (R151, R152). -/
def DramButDirty (s t : State) : Prop :=
  ∀ a, t.dramByte a = s.dramByte a ∨ ∃ k key x, Tab.find (s.slice k).lines key = some x ∧ x.dirty = true ∧ x.line = a / 64

/-- Every word of every scratchpad reads as before. -/
def SameScratchpads (s t : State) : Prop := ∀ n w, t.spWord n w = s.spWord n w

/-- Every byte of DRAM and every word of every scratchpad reads as before. -/
def SameMemory (s t : State) : Prop := SameDram s t ∧ SameScratchpads s t

/-- Every context but `c` is unchanged. -/
def OtherContexts (c : Nat) (s t : State) : Prop := ∀ d, d ≠ c → t.ctx d = s.ctx d

/-- Every stream but `id` is unchanged. -/
def OtherStreams (id : Nat) (s t : State) : Prop := ∀ k, k ≠ id → t.stream? k = s.stream? k

/-- Every core but `n` is unchanged. -/
def OtherCores (n : Nat) (s t : State) : Prop := ∀ m, m ≠ n → t.core m = s.core m

/-- A core but for the times from which the waits of its ready units count (R283). -/
def CoreSt.untimed (c : CoreSt) : CoreSt := { c with ready := c.ready.map (fun u => { u with readyAt := 0 }) }

/-- What taking a command and posting its completion may change: contexts, what is sent, MSI-X pending bits, the free-value
counter and the start order of commands. -/
def PostFrame (s t : State) : Prop :=
  t = { s with ctxs := t.ctxs, outs := t.outs, pce := t.pce, free := t.free, qmg := { s.qmg with order := t.qmg.order } }

/-- Nothing else changes, and no context but `c`. -/
def PostOnly (c : Nat) (s t : State) : Prop := OtherContexts c s t ∧ PostFrame s t

/-- Nothing changes but register page headers, what is sent and MSI-X pending bits: what an error flag and its interrupt may
change (R435). -/
def PageFrame (s t : State) : Prop := t = { s with pages := t.pages, outs := t.outs, pce := t.pce }

/-! ### Invariants -/

/-- While a safe-state cause stands, SAFE_OK_P, SAFE_OK_N and FAULT_N are low (R317). -/
def PinsLow (s : State) : Prop :=
  s.safe.ssCause ≠ 0 → s.safe.okP = false ∧ s.safe.okN = false ∧ s.safe.faultN = false

end Sys2Proof.Machine
end

