-- ==== Sys2Proof/Certificates/Slice0/Obligations.lean ====
section
/-! DEFINITION. What is claimed of the model: one proposition for each obligation of OBLIGATIONS.json.  Wherever a statement
says `Completes i s P`, command `i` answers a next state from every state and with every operand that meet the statement's
hypotheses, and that next state has property `P`. -/

open Sys2Proof Sys2Proof.Machine Sys2Proof.Machine.Bits

/-- With command c at the front of the queue of waiting commands, a step answers what exec answers for c on the
state with the rest of the queue (the model's own queue, log entry 4). -/
def Obligations.StepRunsFrontCommand : Prop :=
  ∀ (c : Instr) (rest : List Instr) (s : State), step { s with pending := c :: rest } = exec c { s with pending := rest }

/-- With no command waiting a step is one CK_TIME cycle (the model's choice, log entry 4): the model's clock
advances by 4 ns, the timebase by 4 ns plus the rate correction in units of 2^-32 ns (R219), and nothing but the
clock, time alignment and the cores, whose write-port buffers drain, changes. -/
def Obligations.IdleStepIsOneTimebaseCycle : Prop :=
  ∀ s : State, s.pending = [] → ∃ t, step s = .next t ∧ t.clock = s.clock + 4 ∧
    (-(2 ^ 32 : Int) ≤ s.tal.rate → s.tal.time * 2 ^ 32 + s.tal.frac + (4 * 2 ^ 32 + s.tal.rate).toNat < 2 ^ 96 →
      (t.tal.time : Int) * 2 ^ 32 + t.tal.frac = s.tal.time * 2 ^ 32 + s.tal.frac + 4 * 2 ^ 32 + s.tal.rate) ∧
    t = { s with clock := t.clock, cores := t.cores, tal := { s.tal with time := t.tal.time, frac := t.tal.frac } }

/-- After reset the boot is at POWER_ON and not READY; SAFE is in BOOT with no safe-state cause and its three pins
low; the timebase is 0 and FREE, the odometer's FILTER 10 and COUNTS_PER_LINE 0; every core is IDLE with no stage
slot and the tolerances of R71; every page is enabled with ERR_STAT 0, ERR_EN all ones and LOCK closed; no command
waits and both memories list nothing. -/
def Obligations.ResetLeavesWhatTheManualGives : Prop :=
  State.reset.boot.state = .powerOn ∧ State.reset.boot.ready = false ∧ State.reset.boot.stopCode = 0 ∧
    State.reset.boot.warmPending = false ∧
    State.reset.safe.mode = .boot ∧ State.reset.safe.ssCause = 0 ∧ State.reset.safe.okP = false ∧
    State.reset.safe.okN = false ∧ State.reset.safe.faultN = false ∧
    State.reset.tal.time = 0 ∧ State.reset.tal.disc = .free ∧ State.reset.tal.odoFilter = 10 ∧
    State.reset.tal.odoCpl = 0 ∧ State.reset.tal.odoEn = false ∧
    (∀ n, (State.reset.core n).seq = .idle ∧ (State.reset.core n).slot = 0xFFFF ∧ (State.reset.core n).relShift = 14 ∧
      (State.reset.core n).absExp = 0x67 ∧ (State.reset.core n).injSel = 0) ∧
    (∀ b, (State.reset.hdr b).en = true ∧ (State.reset.hdr b).errStat = 0 ∧ (State.reset.hdr b).errEn = 0xFFFFFFFF ∧
      (State.reset.hdr b).inj = 0 ∧ (State.reset.hdr b).lockOpen = false) ∧
    (∀ p, (State.reset.port p).type = 0 ∧ (State.reset.port p).speed = 0 ∧ (State.reset.port p).lanes = 0) ∧
    State.reset.pending = [] ∧ State.reset.dram = [] ∧ State.reset.cores = []

/-- At reset the invariant holds that while a safe-state cause stands SAFE_OK_P, SAFE_OK_N and FAULT_N are low. -/
def Obligations.SafePinsLowAtReset : Prop :=
  PinsLow State.reset

/-- If, while a safe-state cause stands, SAFE_OK_P, SAFE_OK_N and FAULT_N are low, then the same holds after every
step that answers a next state, whatever command it runs; so in the safe state nothing but the resets that clear the
cause lets a pin rise. -/
def Obligations.SafeStatePinsStayLow : Prop :=
  ∀ s t : State, PinsLow s → step s = .next t → PinsLow t

/-- If DRAM and every scratchpad list their cells by strictly rising address and no cell equal to what an unlisted
cell reads (0, log entry 8), then so they do after every step that answers a next state, whatever command it runs. -/
def Obligations.MemoryKeepsItsCanonicalForm : Prop :=
  ∀ s t : State, memoryWf s = true → step s = .next t → memoryWf t = true

/-- At reset DRAM and every scratchpad are in canonical form. -/
def Obligations.MemoryCanonicalAtReset : Prop :=
  memoryWf State.reset = true

/-- On a device that takes the command: ACCT_TRACE sets or clears TRACE of its own context and posts OK, and changes
no other context. CONTEXT_BIND from the physical function binds a context whose EN is 0 and that has no live epoch
to an existing partition, a function that the partition allows and a vector of that function, and posts OK, and
leaves every other context but the issuing one as it was; apart from contexts, what is sent, MSI-X pending bits, the
free-value counter and the start order these two change nothing. TIME_SECONDS, SETTINGS_WRITE, CAMERA_REG read and
CAMERA_REG write complete and post OK where they may run: the seconds are stored, the record is appended, the access
reaches the camera. -/
def Obligations.AccountingAndBindingCommandsComplete : Prop :=
  ∀ (s : State) (cmd : Cmd), Takes s cmd opService →
    (∀ b : Bool, Completes (.acctTrace cmd b) s (fun t =>
      (t.ctx cmd.ctx.val).trace = b ∧ Posts cmd Status.ok s t ∧ PostOnly cmd.ctx.val s t)) ∧
    (∀ (c : CtxNum) (p : PartNum) (fn : FnNum) (v : Nat) (x : Partition),
      s.isPF cmd = true → (s.ctx c.val).en = false → s.hasEpoch c.val = false → s.part? p.val = some x →
      x.functions.testBit fn.val = true → v < vectorsOf fn.val →
      Completes (.contextBind cmd c p fn v) s (fun t =>
        (t.ctx c.val).part = some p.val ∧ (t.ctx c.val).fn = fn.val ∧ (t.ctx c.val).vector = v ∧
        Posts cmd Status.ok s t ∧ PostFrame s t ∧ ∀ d, d ≠ c.val → d ≠ cmd.ctx.val → t.ctx d = s.ctx d)) ∧
    (∀ n : Nat, s.isPF cmd = true → s.tal.src = 2 → s.tal.time / secNs ≤ n → n * secNs + s.tal.time % secNs < 2 ^ 64 →
      Completes (.timeSeconds cmd n) s (fun t => t.tal.seconds = some n ∧ Posts cmd Status.ok s t)) ∧
    (∀ (record value : List Byte) (type inst gen : Nat), s.isPF cmd = true →
      parseSetting record = some (type, inst, gen, value) → firmwareOwned type = false → settingInRange type value = true →
      Completes (.settingsWrite cmd record) s (fun t =>
        t.nvm = s.nvm.append { type := type, inst := inst, gen := gen, value := value } ∧ Posts cmd Status.ok s t)) ∧
    (∀ (id : StreamId) (st : Stream) (reg : Nat) (v : W32), s.stream? id = some st → st.ctx = cmd.ctx.val →
      (st.decl.kind = 0 ∨ st.decl.kind = 2) →
      Completes (.cameraRegRead cmd id reg v) s (fun t =>
        Sends s t (.camera ((st.decl.port - 12) / 2) false reg v) ∧ Posts cmd Status.ok s t) ∧
      Completes (.cameraRegWrite cmd id reg v) s (fun t =>
        Sends s t (.camera ((st.decl.port - 12) / 2) true reg v) ∧ Posts cmd Status.ok s t))

/-- From the physical function, with property values in range: create gives a new partition the properties given and
the defaults of the others; change replaces the properties given of a partition that has no armed stream, keeps its
class or has no stream and no image, and does not set its core quota below the cores held; remove takes away the
partition, its images and its bindings when no stream of it is armed and no context bound to it is enabled or has a
live epoch, and writes nothing to DRAM but dirty lines of the shared cache, those only where buffers have homes.
Each posts OK. Create and change leave every other partition, and all but partitions, SAFE's copy of the classes,
contexts, what is sent, MSI-X pending bits, the free-value counter and the start order, as they were. -/
def Obligations.PartitionCommandsComplete : Prop :=
  ∀ (s : State) (cmd : Cmd) (p : PartNum) (props : PartProps), Takes s cmd opService → s.isPF cmd = true →
    (s.part? p.val = none → propsBad props s p.val { applyProps props {} with periodAt := s.clock } = false →
      Completes (.partitionCreate cmd p props) s (fun t =>
        t.part? p.val = some { applyProps props {} with periodAt := s.clock } ∧ (∀ q, q ≠ p.val → t.part? q = s.part? q) ∧
        Posts cmd Status.ok s t ∧
        t = { s with parts := t.parts, safe := { s.safe with classes := t.safe.classes }, ctxs := t.ctxs, outs := t.outs,
                     pce := t.pce, free := t.free, qmg := { s.qmg with order := t.qmg.order } })) ∧
    (∀ x : Partition, s.part? p.val = some x → s.partArmed p.val = false →
      (props.cls.getD x.cls = x.cls ∨ s.partUsed p.val = false) → propsBad props s p.val (applyProps props x) = false →
      (s.coresHeld p.val).length ≤ props.coreQuota.getD (s.coresHeld p.val).length →
      Completes (.partitionChange cmd p props) s (fun t =>
        t.part? p.val = some (applyProps props x) ∧ (∀ q, q ≠ p.val → t.part? q = s.part? q) ∧ Posts cmd Status.ok s t ∧
        t = { s with parts := t.parts, safe := { s.safe with classes := t.safe.classes }, ctxs := t.ctxs, outs := t.outs,
                     pce := t.pce, free := t.free, qmg := { s.qmg with order := t.qmg.order } })) ∧
    ((s.part? p.val).isSome = true → s.partArmed p.val = false → s.partLive p.val = false →
      Completes (.partitionRemove cmd p) s (fun t =>
        t.parts = Tab.erase s.parts p.val ∧ (∀ e ∈ t.images, e.2.part ≠ p.val) ∧
        (∀ c : CtxNum, (t.ctx c.val).part ≠ some p.val) ∧ Posts cmd Status.ok s t ∧ DramButDirty s t ∧
        (s.mesh.homes = [] → SameDram s t)))

/-- TIME_SECONDS from the physical function, under PPS, not behind the timebase and with a sum that the 64-bit
timebase holds (log entry 82), stores the seconds and steps the timebase forward only while no stream is armed.
SETTINGS_WRITE from the physical function appends a well-formed record of a host-owned type that the device would
not ignore. CAMERA_REG reads or writes a register of the camera of a CoaXPress stream of the context. Each posts OK,
and nothing else changes but contexts, what is sent, MSI-X pending bits, the free-value counter and the start order. -/
def Obligations.SettingCommandsComplete : Prop :=
  ∀ (s : State) (cmd : Cmd), Takes s cmd opService →
    (∀ n : Nat, s.isPF cmd = true → s.tal.src = 2 → s.tal.time / secNs ≤ n → n * secNs + s.tal.time % secNs < 2 ^ 64 →
      Completes (.timeSeconds cmd n) s (fun t =>
        t.tal.seconds = some n ∧ (s.anyArmed = true → t.tal.time = s.tal.time) ∧
        (s.anyArmed = false → t.tal.time = n * secNs + s.tal.time % secNs) ∧ Posts cmd Status.ok s t ∧
        PostFrame { s with tal := { s.tal with seconds := t.tal.seconds, time := t.tal.time } } t)) ∧
    (∀ (record value : List Byte) (type inst gen : Nat), s.isPF cmd = true →
      parseSetting record = some (type, inst, gen, value) → firmwareOwned type = false → settingInRange type value = true →
      Completes (.settingsWrite cmd record) s (fun t =>
        t.nvm = s.nvm.append { type := type, inst := inst, gen := gen, value := value } ∧ Posts cmd Status.ok s t ∧
        PostFrame { s with nvm := t.nvm } t)) ∧
    (∀ (id : StreamId) (st : Stream) (reg : Nat) (v : W32), s.stream? id = some st → st.ctx = cmd.ctx.val →
      (st.decl.kind = 0 ∨ st.decl.kind = 2) →
      Completes (.cameraRegRead cmd id reg v) s (fun t =>
        Sends s t (.camera ((st.decl.port - 12) / 2) false reg v) ∧ Posts cmd Status.ok s t ∧ PostOnly cmd.ctx.val s t) ∧
      Completes (.cameraRegWrite cmd id reg v) s (fun t =>
        Sends s t (.camera ((st.decl.port - 12) / 2) true reg v) ∧ Posts cmd Status.ok s t ∧ PostOnly cmd.ctx.val s t))

/-- On a device that takes the command, with no live activation and no armed injection: LOAD_IMAGE of a file of a
legal length, an accepted header and the right CRC stores the image with its weight sums for the context's partition
under the ID that DETAIL gives when no rule is broken, and otherwise changes no image and completes REJECTED with
the first broken rule as DETAIL. UNLOAD removes an image of the partition that no declared stream uses. No DRAM byte
and no scratchpad word changes, and of all else only contexts, what is sent, MSI-X pending bits, the free-value
counter, the start order and, on a rejection, the CTL page header. -/
def Obligations.ImageCommandsComplete : Prop :=
  ∀ (s : State) (cmd : Cmd),
    (∀ (len : Nat) (crc : W32) (file : ImageFile), Takes s cmd opLoadImage → s.activating = false →
      (s.hdr .ctl).inj &&& BitVec.ofNat 32 (2 ^ Bit.ctlRejected) = 0 → 64 ≤ len → len ≤ 2 ^ 30 →
      headerOk s.ctl file.header = true → crc = file.crc →
      (firstBroken (brokenRules (imageSlots ≤ s.images.length) (s.classOf (s.partOf cmd.ctx.val)) file) = none →
        Completes (.loadImage cmd len crc file) s (fun t =>
          ∃ id, t.images = Tab.insert s.images id
              { part := s.partOf cmd.ctx.val, decl := file.decl,
                wsums := file.decl.stages.map (fun st => st.units.map weightSums) } ∧
            Answers cmd Status.ok noEpoch id s t ∧ PostFrame { s with images := t.images } t)) ∧
      (∀ b : Broken,
        firstBroken (brokenRules (imageSlots ≤ s.images.length) (s.classOf (s.partOf cmd.ctx.val)) file) = some b →
        Completes (.loadImage cmd len crc file) s (fun t =>
          Answers cmd Status.rejected noEpoch b.detail s t ∧ PostFrame { s with pages := t.pages } t))) ∧
    (∀ (image : Nat) (im : Image), Takes s cmd opService → Tab.find s.images image = some im → im.part = s.partOf cmd.ctx.val →
      (∀ e ∈ s.streams, e.2.image ≠ image) →
      Completes (.unload cmd image) s (fun t =>
        t.images = Tab.erase s.images image ∧ Posts cmd Status.ok s t ∧ PostFrame { s with images := t.images } t))

/-- On a device that takes the command, with no live activation: DECLARE_STREAM of a new stream ID, with an image of
the context's partition, a block with the right CRC that is well formed and in range, and a placement that keeps
every constraint, declares the stream as the block, the partition's class and the placement give it, not armed, and
completes OK with the stream ID and the cores of one copy as DETAIL. Every other stream, every image and the
settings stay as they were, and so does every DRAM byte, but for dirty lines of the shared cache where the placement
has buffers in DRAM. -/
def Obligations.DeclareStreamCompletes : Prop :=
  ∀ (s : State) (cmd : Cmd) (id image : Nat) (block : List Byte) (crc : W32) (im : Image) (d : StreamDecl) (pl : Placement),
    Takes s cmd opDeclareStream → s.activating = false → Tab.find s.images image = some im → im.part = s.partOf cmd.ctx.val →
    s.stream? id = none → id ≠ 0xFFFF → crc = crc32c block → parseBlock im.decl block = some d →
    declOk (withDefaults d) im.decl s = true → declRejected (withDefaults d) (s.classOf im.part) im.decl = false →
    placeable id { ctx := cmd.ctx.val, part := im.part, cls := s.classOf im.part, image := image, decl := withDefaults d,
                   place := pl } im.decl s = true →
    detectorFree (withDefaults d) s = true →
    Completes (.declareStream cmd id image block crc (some pl)) s (fun t =>
      t.stream? id = some { ctx := cmd.ctx.val, part := im.part, cls := s.classOf im.part, image := image,
                            decl := withDefaults d, place := pl } ∧
      (∃ n, Answers cmd Status.ok noEpoch (id % 65536 + n * 65536) s t) ∧ OtherStreams id s t ∧ DramButDirty s t ∧
      ((∀ p ∈ pl.pools, p.kind ≠ 3) → SameDram s t) ∧ t.images = s.images ∧ t.nvm = s.nvm ∧ t.parts = s.parts ∧ t.ctl = s.ctl)

/-- On a device that takes the command: ARM_STREAM of a declared stream of the context that is not armed and not
under re-placement, whose ring descriptor, odometer settings and camera fit, whose cores are not too hot, whose
placement SAFE accepts and whose quadrants are at Bedrock where its class asks for it, with an epoch number free,
arms the stream under that epoch, sets the epoch of the stream's queues, starts its sequence at the number given and
completes OK with the epoch. For a line-scan stream that is the number of the next trigger position: the first such
stream fixes the grid at the present position, and where the grid stands already the positions below its high-water
mark keep their numbers. The epoch is a new one of the context, below 65535, as long as the table of live epochs is
in order, which the arming keeps. Every other stream, every DRAM byte, every image and the settings stay as they
were. -/
def Obligations.ArmStreamCompletes : Prop :=
  ∀ (s : State) (cmd : Cmd) (id : Nat) (first : Option Nat) (camera : Bool) (ring : List Byte) (st : Stream) (im : Image)
    (r : Nat × Nat), Takes s cmd opArmStream → s.stream? id = some st → st.ctx = cmd.ctx.val → s.replacing id = false →
    Tab.find s.images st.image = some im → ringOf st im.decl ring = some r → st.armed = false → s.tooHot = false →
    (camera = true ∨ (st.decl.kind ≠ 0 ∧ st.decl.kind ≠ 2)) → odometerFits st.decl s = true → safeCheck id st s = true →
    (isSafety st.cls = false ∨ s.bedrockReady st = true) → s.epochsFull = false →
    Completes (.armStream cmd id first camera ring) s (fun t => ∃ e st',
      t.stream? id = some st' ∧ st'.armed = true ∧ st'.epoch = e ∧ st'.ringLog2 = r.1 ∧ st'.ringSlot = r.2 ∧
      st'.place = st.place ∧ (st.decl.kind ≠ 0 → st'.nextSeq = first.getD 0 ∧ t.tal.grid = (if s.lineStreams = [] then none else s.tal.grid)) ∧
      (st.decl.kind = 0 → s.lineStreams = [] →
        st'.nextSeq = first.getD 0 ∧ t.tal.grid = some s.tal.pos ∧ t.tal.highWater = s.tal.pos) ∧
      (st.decl.kind = 0 → s.lineStreams ≠ [] → ∀ g, s.tal.grid = some g → t.tal.grid = some g ∧
        st'.nextSeq = first.getD 0 +
          ((max s.tal.highWater s.tal.pos - g) / (s.tal.odoCpl : Int) - (s.tal.pos - g) / (s.tal.odoCpl : Int)).toNat) ∧
      Tab.find t.qmg.epochs e = some { ctx := cmd.ctx.val, stream := some id, opener := none } ∧
      ((s.qmg.epochs.map (·.1)).Pairwise (· < ·) → (∀ k ∈ s.qmg.epochs, k.1 < 65535) →
        Tab.find s.qmg.epochs e = none ∧ e < 65535 ∧ (t.qmg.epochs.map (·.1)).Pairwise (· < ·)) ∧
      (∀ q, (t.queue q).stream = some id → (t.queue q).epoch = e) ∧ Answers cmd Status.ok e 0 s t ∧
      OtherStreams id s t ∧ SameDram s t ∧ t.images = s.images ∧ t.nvm = s.nvm ∧ t.ctl = s.ctl ∧ t.pwr = s.pwr)

/-- On a device that takes the command, REARM of an armed stream of the context, with no earlier arming and no
re-placement of it under way, a fitting ring and rebase list and an epoch number free, starts and runs: the stream
remembers it with the boundary, the first line or frame after it, and closes to that one and every later one. Once
the stream has drained (its items before the boundary recorded, its buffers in their free queues), and nothing waits
inside the device, the end of the drain gives the stream the new epoch and first sequence number, opens allocation
again and posts OK with the epoch that the running command names. Every other stream and every DRAM byte stay as
they were. -/
def Obligations.RearmRunsThenCompletes : Prop :=
  (∀ (s : State) (cmd : Cmd) (id : Nat) (first : Option Nat) (rebase : List (List Byte)) (ring : List Byte) (st : Stream)
    (im : Image) (r : Nat × Nat) (rs : List (Bool × Nat × Nat × Nat)), Takes s cmd opRearm → s.stream? id = some st →
    st.ctx = cmd.ctx.val → st.rearm = none → s.replacing id = false → Tab.find s.images st.image = some im →
    ringOf st im.decl ring = some r → rebaseList id s rebase = some rs → st.armed = true → s.epochsFull = false →
    Completes (.rearm cmd id first rebase ring) s (fun t => ∃ e,
      t.stream? id = some { st with closed := true, rearm := (some
        { order := s.qmg.order, epoch := e, firstSeq := first, rebase := rs, ringLog2 := r.1, ringSlot := r.2, boundary := st.boundary }) } ∧
      Runs cmd opRearm t ∧ OtherStreams id s t ∧ SameMemory s t ∧ t.outs = s.outs)) ∧
  (∀ (s : State) (id : Nat) (st : Stream) (r : PendRearm) (run : Running), NoneWaits s → s.stream? id = some st →
    st.rearm = some r → drained id st s = true → CanEnd s st.ctx r.order run →
    Completes (.rearmDrained id) s (fun t =>
      t.stream? id = some { st with epoch := r.epoch, nextSeq := r.firstSeq.getD st.nextSeq, ringLog2 := r.ringLog2,
                                    ringSlot := r.ringSlot, rearm := none, closed := false } ∧
      Answers run.cmd Status.ok run.epoch 0 s t ∧ OtherStreams id s t ∧ SameDram s t))

/-- On a device that takes the command: DISPATCH to a job stream of the context, with an adaptation declaration
where it asks for one, admitted by its deadline and with an epoch number free, appends a job of its priority,
deadline and seeds that owes the stream's next record, and runs. RESUME_HELD of a context that has a held job posts
OK: SKIP drops the held sample and lets the job go on after it, ABORT takes the job and its item away. Every other
stream and every DRAM byte stay as they were. -/
def Obligations.DispatchAndResumeComplete : Prop :=
  ∀ (s : State) (cmd : Cmd),
    (∀ (id : Nat) (prio : Fin 8) (adapt : Bool) (input output : W64) (deadline : Nat) (rs as : W64) (first : Nat)
        (st : Stream), Takes s cmd opDispatch → s.stream? id = some st → st.ctx = cmd.ctx.val → st.decl.kind = 4 →
      (adapt = false ∨ st.decl.adapt.isSome = true) → admitted s id st prio.val deadline = true → s.epochsFull = false →
      Completes (.dispatch cmd id prio adapt input output deadline rs as first) s (fun t => ∃ job st',
        t.stream? id = some st' ∧ st'.jobs = st.jobs ++ [job] ∧ st'.nextSeq = st.nextSeq + 1 ∧ job.seq = st.nextSeq ∧
        job.ctx = cmd.ctx.val ∧ job.prio = prio.val ∧ job.deadline = deadline ∧ job.adapt = adapt ∧ job.roundSeed = rs ∧
        job.augSeed = as ∧ job.first = first ∧ job.sample = first ∧ job.held = none ∧ Runs cmd opDispatch t ∧ t.outs = s.outs ∧
        OtherStreams id s t ∧ SameDram s t)) ∧
    (∀ (id : Nat) (j : Job), Takes s cmd opService → s.heldOf cmd.ctx.val = some (id, j) →
      Completes (.resumeHeldSkip cmd) s (fun t =>
        t.stream? id = (s.stream? id).map (fun st => { st with jobs := st.jobs.map (fun x =>
          if x.seq = j.seq then { x with held := none, heldSamples := [], sample := max x.sample (j.held.getD 0 + 1),
                                         dropped := x.dropped ++ j.held.toList } else x) }) ∧
        Posts cmd Status.ok s t ∧ OtherStreams id s t ∧ PostFrame { s with streams := t.streams, ppe := t.ppe } t) ∧
      Completes (.resumeHeldAbort cmd) s (fun t =>
        t.stream? id = (s.stream? id).map (fun st => { st with
          jobs := st.jobs.filter (fun x => x.seq != j.seq), items := st.items.filter (fun it => it.seq != j.seq) }) ∧
        Posts cmd Status.ok s t ∧ OtherStreams id s t ∧ PostFrame { s with streams := t.streams, ppe := t.ppe } t))

/-- On a device that takes commands and in which nothing waits: CANCEL of a live epoch of its own context runs, and
afterwards the epoch is cancelled and no stream is armed under it; CANCEL of any other number completes at once with
NO_EPOCH. When a cancelled epoch and its twin are quiet no CANCEL and no opener of it is left waiting, and a sole
CANCEL whose completion finds space is answered OK. An epoch cancelled 1 ms ago that still has a CANCEL waiting and
is not quiet brings the device into the safe state. An epoch that is quiet, unused and owes no completion, none held
behind a full ring, gives its number back, and nothing else changes. -/
def Obligations.EpochCommandsComplete : Prop :=
  (∀ (s : State) (cmd : Cmd) (e : Nat), Takes s cmd opCancel →
    (∀ x, Tab.find s.qmg.epochs e = some x → x.ctx = cmd.ctx.val → x.cancelled = false →
      Completes (.cancel cmd e) s (fun t => Runs cmd opCancel t ∧
        (Tab.find t.qmg.epochs e).map (·.cancelled) = some true ∧ SameDram s t ∧
        ∀ id st, t.stream? id = some st → st.armed = true → st.epoch ≠ e)) ∧
    ((∀ x, Tab.find s.qmg.epochs e = some x → x.ctx ≠ cmd.ctx.val) →
      Completes (.cancel cmd e) s (fun t => Posts cmd Status.noEpoch s t ∧ PostOnly cmd.ctx.val s t))) ∧
  (∀ (s : State) (e : Nat) (x : Epoch), Tab.find s.qmg.epochs e = some x →
    (NoneWaits s → x.cancelled = true → (∀ k ∈ e :: x.twin.toList, quiet k s = true) →
      Completes (.epochQuiet e) s (fun t =>
        (Tab.find t.qmg.epochs e).map (fun y => (y.cancels, y.opener)) = some ([], none) ∧ SameMemory s t ∧
        ∀ o r, x.cancels = [o] → CanEnd s x.ctx o r → Answers r.cmd Status.ok r.epoch 0 s t)) ∧
    (x.cancelled = true → x.cancels ≠ [] → x.cancelAt + 1000000 ≤ s.clock → quiet e s = false → s.safe.ssCause = 0 →
      Completes (.cancelTimeout e) s (fun t => t.safe.ssCause = SS.fatal ∧ PinsLow t ∧
        (s.dbg.fatal = 0 → t.dbg.fatal = Fatal.cancelTimeout) ∧ t.qmg.epochs = s.qmg.epochs)) ∧
    (NoneWaits s → quiet e s = true → x.cancels = [] → x.opener = none → s.epochInUse e = false → s.completionHeld e = false →
      Completes (.epochNumberFreed e) s (fun t =>
        t = { s with qmg := { s.qmg with epochs := Tab.erase s.qmg.epochs e } })))

/-- On a device that takes the command: FENCE, in a context with no running command, of all earlier commands or of
an epoch that is not live or is quiet, completes OK at once; of a live epoch that is not quiet, it runs and waits.
HINT_PHASE completes OK with DETAIL 0, and gives a context with work the phase that takes effect at the next
allocator decision and the clock at which it ends; at that clock the hint ends, with phase 0, and nothing else
changes. -/
def Obligations.FenceAndHintComplete : Prop :=
  (∀ (s : State) (cmd : Cmd),
    (∀ e : Nat, Takes s cmd opFence → (s.ctx cmd.ctx.val).running = [] →
      (e = noEpoch ∨ Tab.find s.qmg.epochs e = none ∨ quiet e s = true) →
      Completes (.fence cmd e) s (fun t => Answers cmd Status.ok e 0 s t ∧ NoneWaits t ∧ SameMemory s t)) ∧
    (∀ e : Nat, Takes s cmd opFence → e ≠ noEpoch → (Tab.find s.qmg.epochs e).isSome = true → quiet e s = false →
      Completes (.fence cmd e) s (fun t => Runs cmd opFence t ∧ t.outs = s.outs ∧ SameMemory s t ∧
        t.ctl.fences = [{ ctx := cmd.ctx.val, order := s.qmg.order, epoch := e }])) ∧
    (∀ (phase : Fin 16) (us : Nat), Takes s cmd opHintPhase →
      Completes (.hintPhase cmd phase us) s (fun t => Answers cmd Status.ok noEpoch 0 s t ∧ PostOnly cmd.ctx.val s t ∧
        (s.hasWork cmd.ctx.val = true → (t.ctx cmd.ctx.val).hint = some phase.val ∧ (t.ctx cmd.ctx.val).phase = 0 ∧
          (t.ctx cmd.ctx.val).phaseUntil = some (s.clock + us * 1000)) ∧
        (s.hasWork cmd.ctx.val = false → (t.ctx cmd.ctx.val).hint = (s.ctx cmd.ctx.val).hint ∧
          (t.ctx cmd.ctx.val).phase = (s.ctx cmd.ctx.val).phase ∧
          (t.ctx cmd.ctx.val).phaseUntil = (s.ctx cmd.ctx.val).phaseUntil)))) ∧
  (∀ (s : State) (c : CtxNum) (u : Nat), (s.ctx c.val).phaseUntil = some u → u ≤ s.clock →
    Completes (.phaseHintExpiry c) s (fun t =>
      t.ctx c.val = { s.ctx c.val with phase := 0, hint := none, phaseUntil := none } ∧ OtherContexts c.val s t ∧
      t = { s with ctxs := t.ctxs }))

/-- On a device that takes the command, each QUERY writes to the issuing context's destination and completes OK with
the number of bytes written as DETAIL: the placement slots that the function may see, cut to the destination; the
stage summaries of an image of the context's partition; the state of a stream of the context; the accounting record,
whose OVF it clears; the last 256 fault records of the context; and the spare-pool cores of each quadrant. Nothing
else changes but contexts, what is sent, MSI-X pending bits, the free-value counter and the start order, and no
other context. -/
def Obligations.QueriesAnswer : Prop :=
  ∀ (s : State) (cmd : Cmd) (len : Nat), Takes s cmd opQuery →
    Completes (.queryPlacement cmd len) s (fun t =>
      let out := (((visibleSlots s (s.ctx cmd.ctx.val).fn).map (slotBytes s)).flatten).take len
      Sends s t (.query cmd.ctx.val out) ∧ Answers cmd Status.ok noEpoch out.length s t ∧ PostOnly cmd.ctx.val s t) ∧
    (∀ (image : Nat) (im : Image), Tab.find s.images image = some im → im.part = s.partOf cmd.ctx.val →
      Completes (.queryImageSummary cmd image len) s (fun t =>
        Sends s t (.queryFields cmd.ctx.val (im.decl.stages.map (stageSummary im.decl)).flatten) ∧
        Answers cmd Status.ok noEpoch (min len (32 * im.decl.stages.length)) s t ∧ PostOnly cmd.ctx.val s t)) ∧
    (∀ (id : Nat) (st : Stream), s.stream? id = some st → st.ctx = cmd.ctx.val →
      Completes (.queryStreamState cmd id len) s (fun t =>
        Sends s t (.queryFields cmd.ctx.val
          [id, st.image, classCode st.cls, if st.armed then 1 else 0, st.epoch, st.nextSeq, st.items.length,
           if st.faulted then 1 else 0, st.jobsDone]) ∧
        (∃ n ≤ len, Answers cmd Status.ok noEpoch n s t) ∧ PostOnly cmd.ctx.val s t)) ∧
    Completes (.queryAccounting cmd len) s (fun t =>
      let x := s.ctx cmd.ctx.val
      Sends s t (.queryFields cmd.ctx.val
        [x.jobsDone, x.waitNs, x.maxWait, x.passed, if x.trace then 1 else 0, if x.ovf then 1 else 0]) ∧
      (t.ctx cmd.ctx.val).ovf = false ∧ (∃ n ≤ len, Answers cmd Status.ok noEpoch n s t) ∧ PostOnly cmd.ctx.val s t) ∧
    Completes (.queryFaultRecords cmd len) s (fun t =>
      let out := ((((s.ctx cmd.ctx.val).faults.take 256).map FaultRec.bytes).flatten).take len
      Sends s t (.query cmd.ctx.val out) ∧ Answers cmd Status.ok noEpoch out.length s t ∧ PostOnly cmd.ctx.val s t) ∧
    Completes (.querySpares cmd len) s (fun t =>
      Sends s t (.queryFields cmd.ctx.val [s.sparesIn 0, s.sparesIn 1, s.sparesIn 2, s.sparesIn 3]) ∧
      (∃ n ≤ len, Answers cmd Status.ok noEpoch n s t) ∧ PostOnly cmd.ctx.val s t)

/-- On a device that takes the command, from the physical function: CORE_TEST of a core that is neither fused nor
retired nor isolated nor under test runs, notes the test, asks the core to drain, starts its slice count at 0 and
asks for the re-placement of the slots on it, while every other core stays as it was. SLICE_BYPASS of a slice in
service onto other slices in service of its quadrant marks the slice bypassed, isolates it, drops its lines, records
the bypass in the settings and posts OK. -/
def Obligations.CoreTestAndBypassComplete : Prop :=
  ∀ (s : State) (cmd : Cmd), Takes s cmd opService → s.isPF cmd = true →
    (∀ n : CoreNum, (s.core n.val).pool ≠ .fused → (s.core n.val).pool ≠ .retired → (s.hdr (.core n.val)).isolated = false →
      (∀ x ∈ s.ctl.tests, x.core ≠ n.val) →
      Completes (.coreTest cmd n) s (fun t => Runs cmd opService t ∧
        t.ctl.tests = s.ctl.tests ++ [{ core := n.val, ctx := cmd.ctx.val, order := s.qmg.order }] ∧
        t.core n.val = { s.core n.val with slices := 0, drainReq := (s.core n.val).run.isSome,
                                           seq := if (s.core n.val).seq = .run then .drain else (s.core n.val).seq } ∧
        (∀ k ∈ s.slotsOn n.val, k ∈ t.ctl.pendRepl) ∧ OtherCores n.val s t ∧ t.outs = s.outs ∧ SameDram s t)) ∧
    (∀ (k : SliceNum) (takers : List SliceNum), (s.slice k.val).bypassed = false → takers ≠ [] →
      (∀ j ∈ takers, sliceQuad j.val = sliceQuad k.val ∧ j ≠ k ∧ (s.slice j.val).bypassed = false) →
      Completes (.sliceBypass cmd k takers) s (fun t =>
        (t.slice k.val).bypassed = true ∧ (t.slice k.val).lines = [] ∧ (t.hdr (.shc k.val)).isolated = true ∧
        (∃ x, t.nvm = s.nvm.append x ∧ x.type = 0x0082 ∧ x.inst = k.val) ∧ Posts cmd Status.ok s t ∧
        SameScratchpads s t ∧ t.streams = s.streams ∧ t.parts = s.parts))

/-- On a device that takes the command, from the physical function and with no update under way: FW_UPDATE of each
mode, with a legal length, the right CRC and an image that passes the checks of its mode, runs: it notes the update,
empties the inactive slot and shows WRITING. Then, with nothing waiting: a good read-back stores the image in the
inactive slot, and STAGE ends OK as STAGED, NEXT_RESET ends OK as PENDING with that slot pending, and LIVE restarts
the first control core in service. The core that rejoins hands over to the next one in service; after the last the
marker moves to the new slot, CTL_FW_VER is the new release and LIVE ends OK. A core that has not rejoined after 500
ms ends the update REJECTED, with reason 5 in DBG_FW_UPD and the marker as before. -/
def Obligations.FirmwareUpdateProceeds : Prop :=
  (∀ (s : State) (cmd : Cmd) (len : Nat) (crc : W32) (x : FwImage), Takes s cmd opService → s.isPF cmd = true → s.ctl.upd = none →
    65536 ≤ len → len ≤ 67108864 → x.crc = crc →
    (∀ (i : Instr) (mode : Nat),
      (i, mode) ∈ [(Instr.fwUpdateStage cmd len crc x, 0), (.fwUpdateLive cmd len crc x, 1), (.fwUpdateNextReset cmd len crc x, 2)] →
      updateReason mode x s = 0 →
      Completes i s (fun t => Runs cmd opService t ∧
        t.ctl.upd = some { ctx := cmd.ctx.val, order := s.qmg.order, mode := mode, img := x } ∧
        t.dbg.updState = .writing ∧ t.nvm = s.nvm.setSlot (!s.nvm.activeB) none ∧ t.outs = s.outs ∧ SameMemory s t))) ∧
  (∀ (s : State) (u : FwUpd), NoneWaits s → s.ctl.upd = some u →
    (s.dbg.updState = .writing →
      Completes (.fwFlashVerified true) s (fun t => t.nvm.slot (!s.nvm.activeB) = some u.img ∧
        t.nvm.activeB = (if u.mode ∈ [0, 2] ∨ s.ctl.coreFrom 0 ≠ none then s.nvm.activeB else !s.nvm.activeB) ∧
        (u.mode = 0 → t.dbg.updState = .staged ∧ t.ctl.upd = none ∧
          ∀ r, CanEnd s u.ctx u.order r → Answers r.cmd Status.ok r.epoch u.img.release.toNat s t) ∧
        (u.mode = 2 → t.dbg.updState = .pending ∧ t.ctl.upd = none ∧ t.nvm.pending = some (!s.nvm.activeB)) ∧
        (u.mode ∉ [0, 2] → ∀ k, s.ctl.coreFrom 0 = some k →
          t.dbg.updState = .activating ∧ t.dbg.liveCore = k ∧ t.ctl.upd = some u ∧ t.ctl.switchAt = s.clock))) ∧
    (∀ n : CtrlNum, s.dbg.updState = .activating → s.dbg.liveCore = n.val →
      Completes (.liveCoreRejoin n) s (fun t =>
        (∀ k, s.ctl.coreFrom (n.val + 1) = some k → t.dbg.liveCore = k ∧ t.ctl.switchAt = s.clock ∧
          t.ctl.upd = some u ∧ t.nvm = s.nvm) ∧
        (s.ctl.coreFrom (n.val + 1) = none → t.ctl.fwVer = u.img.release ∧ t.nvm = { s.nvm with activeB := !s.nvm.activeB } ∧
          t.dbg.updState = .idle ∧ t.ctl.upd = none)) ∧
      (s.ctl.switchAt + 500000000 ≤ s.clock →
        Completes (.liveRejoinTimeout n) s (fun t => t.dbg.updState = .failed ∧ t.dbg.updReason = 5 ∧ t.ctl.upd = none ∧
          t.nvm = s.nvm ∧ ∀ r, CanEnd s u.ctx u.order r → Posts r.cmd Status.rejected s t))))

/-- A 1 that the physical function writes to an ERR_INJ bit of a page that answers, whose LOCK is open and whose
block allows injections sets that bit among the armed injections and closes the page, for every one of the 25
injections at the bit number that the manual gives it (ABFT_MISMATCH needs a COLUMN up to 32). While the block does
not allow injections, no injection of its page is armed. The headers of all other pages stay as the arrival of the
packet leaves them, and only headers, what is sent and MSI-X pending bits change, but for the report to SAFE of an
injection that a core refuses. -/
def Obligations.InjectionsArm : Prop :=
  ∀ (s : State) (c : CoreNum) (k : SliceNum) (d : ChanNum) (p : PortNum) (q : TlkNum) (i : Instr) (b : Block) (bit : Nat),
    (i, b, bit) ∈
      [(Instr.injAbftMismatch 0 c, Block.core c.val, 0), (.injAccCheck 0 c, .core c.val, 1),
       (.injStrandFault 0 c, .core c.val, 4), (.injSpEccCorr 0 c, .core c.val, 7), (.injSpEccUncorr 0 c, .core c.val, 8),
       (.injShcTagCorr 0 k, .shc k.val, 3), (.injShcDataCorr 0 k, .shc k.val, 1), (.injShcDataUncorr 0 k, .shc k.val, 2),
       (.injDmcEccCorr 0 d, .dmc d.val, 1), (.injDmcEccUncorr 0 d, .dmc d.val, 2), (.injDmcLinkCorr 0 d, .dmc d.val, 3),
       (.injDmcLinkUncorr 0 d, .dmc d.val, 4), (.injDescCorr 0, .qmg, 4), (.injDescUncorr 0, .qmg, 5),
       (.injIngCrc 0 p, .ing p.val, 3), (.injHdrCorr 0 p, .ing p.val, 1), (.injHdrUncorr 0 p, .ing p.val, 2),
       (.injOdoIllegal 0, .tal, 0), (.injJlsCorrupt 0, .ppe, 1), (.injCmdRejected 0, .ctl, 0), (.injRegFail 0, .pwr, 8),
       (.injSensorFail 0, .pwr, 0), (.injPceCorr 0, .pce, 2), (.injTlkLaneSpared 0 q, .tlk q.val, 1),
       (.injTlkReplay 0 q, .tlk q.val, 0)] →
    s.answers b = true → s.lockOpen b = true →
    Completes i s (fun t => (t.hdr b).lockOpen = false ∧ PageFrame { s with safe := t.safe } t ∧
      ((∀ n, b ≠ .core n) ∨ (injAllowed b s = true ∧ bitField (s.core c.val).injSel.toNat 8 6 ≤ 32) → t.safe = s.safe) ∧
      (injAllowed b s = true → (i = .injAbftMismatch 0 c → bitField (s.core c.val).injSel.toNat 8 6 ≤ 32) →
        (t.hdr b).inj = ((receiveTlp s).hdr b).inj ||| BitVec.ofNat 32 (2 ^ bit)) ∧
      (injAllowed b s = false → (t.hdr b).inj = ((receiveTlp s).hdr b).inj) ∧
      ∀ e : Block, e.page ≠ b.page → t.hdr e = (receiveTlp s).hdr e)

/-- On a page that answers, and with what the arrival of the packet itself does (R436) taken as given: the physical
function's write of the key 0xA5C3 to LOCK opens the page and any other value closes it; ones written to ERR_STAT
clear those bits and leave the others; ERR_EN and INT_EN take the implemented bits of the value. The same writes of
a virtual function change nothing but the LOCK_WRITE flag of the page, of which SAFE hears when it is a core's. 1 ms
after the page was opened or last kept open it closes. In all of this only page headers, what is sent and MSI-X
pending bits change, and no header but that of the page. -/
def Obligations.PageHeaderWritesComplete : Prop :=
  ∀ (s : State) (page : Nat) (b : Block) (v : W32), blockOfPage page = some b → s.answers b = true →
    Completes (.lockKeyWrite 0 page v) s (fun t =>
      (t.hdr b).lockOpen = (v.toNat % 65536 == 0xA5C3) ∧ (t.hdr b).lockAt = s.clock ∧
      (t.hdr b).errStat = ((receiveTlp s).hdr b).errStat ∧ PageFrame s t ∧
      ∀ e : Block, e.page ≠ b.page → t.hdr e = (receiveTlp s).hdr e) ∧
    Completes (.errStatClear 0 page v) s (fun t =>
      t.hdr b = { (receiveTlp s).hdr b with errStat := ((receiveTlp s).hdr b).errStat &&& ~~~v } ∧ PageFrame s t ∧
      ∀ e : Block, e.page ≠ b.page → t.hdr e = (receiveTlp s).hdr e) ∧
    Completes (.registerWrite 0 (page * 65536 + 0x18) v) s (fun t =>
      t.hdr b = { (receiveTlp s).hdr b with errEn := v &&& b.errMask } ∧ PageFrame s t ∧
      ∀ e : Block, e.page ≠ b.page → t.hdr e = (receiveTlp s).hdr e) ∧
    Completes (.registerWrite 0 (page * 65536 + 0x34) v) s (fun t =>
      t.hdr b = { (receiveTlp s).hdr b with intEn := v.setWidth 2 &&& b.intMask } ∧ PageFrame s t ∧
      ∀ e : Block, e.page ≠ b.page → t.hdr e = (receiveTlp s).hdr e) ∧
    (∀ fn : FnNum, fn ≠ 0 →
      ∀ i ∈ [Instr.lockKeyWrite fn page v, .errStatClear fn page v], Completes i s (fun t =>
        t = lockWrite b (receiveTlp s) ∧ PageFrame { s with safe := t.safe } t ∧ ((∀ n, b ≠ .core n) → t.safe = s.safe))) ∧
    ((s.hdr b).lockOpen = true → (s.hdr b).lockAt + 1000000 ≤ s.clock →
      Completes (.lockTimeout page) s (fun t => t.hdr b = { s.hdr b with lockOpen := false } ∧ PageFrame s t ∧
        ∀ e : Block, e.page ≠ b.page → t.hdr e = s.hdr e))

/-- Writes of the physical function, with what the arrival of the packet does taken as given: bit 0 of CORE_CNT_CLR
clears the busy and maximum counters of a core that answers, and of no other; bit 0 of ING_CNT_CLR clears the six
counters of a port that answers, and of no other; bit 0 of MON_CTRL clears a monitor; MON_CFG with EN rising clears
it and takes LOG and PERIOD, with EN falling only stops it. An enabled monitor with an available source takes each
value: its count goes up by one and stops at all ones, and the value, saturated, bounds MIN and MAX; no other
monitor changes. PWR_CAP with its page open takes the value clamped to its range and the page closes; with the page
closed the cap stays. DBG_NOTICE_HEAD takes 19 bits. -/
def Obligations.CounterAndMonitorWritesComplete : Prop :=
  (∀ (s : State) (v : W32),
    (∀ n : CoreNum, v.getLsbD 0 = true → s.answers (.core n.val) = true →
      Completes (.coreCntClr 0 n v) s (fun t =>
        t.core n.val = { s.core n.val with arrayBusy := [], vecBusy := 0, unitMax := 0 } ∧ OtherCores n.val s t ∧
        PageFrame { s with cores := t.cores } t)) ∧
    (∀ p : PortNum, v.getLsbD 0 = true → s.answers (.ing p.val) = true →
      Completes (.ingCntClr 0 p v) s (fun t =>
        t.port p.val = { s.port p.val with pkts := 0, hdrCorr := 0, pktDrop := 0, crcErr := 0, overrun := 0, stray := 0 } ∧
        (∀ k, k ≠ p.val → t.port k = s.port k) ∧ PageFrame { s with ports := t.ports } t)) ∧
    (∀ m : MonNum,
      (v.getLsbD 0 = true → Completes (.monClear 0 m v) s (fun t => (t.mon m.val).min = none ∧ (t.mon m.val).max = none ∧
        (t.mon m.val).count = 0 ∧ (t.mon m.val).bins = [] ∧ (∀ k, k ≠ m.val → t.mon k = s.mon k) ∧
        PageFrame { s with mons := t.mons } t)) ∧
      Completes (.monCfgWrite 0 m v) s (fun t =>
        (t.mon m.val).en = v.getLsbD 31 ∧
        ((s.mon m.val).en = true → t.mon m.val = { s.mon m.val with en := v.getLsbD 31 }) ∧
        ((s.mon m.val).en = false → (t.mon m.val).log = v.getLsbD 30 ∧ (t.mon m.val).period = v.toNat % 65536 ∧
          (v.getLsbD 31 = true → (t.mon m.val).count = 0 ∧ (t.mon m.val).min = none ∧ (t.mon m.val).bins = [])) ∧
        (∀ k, k ≠ m.val → t.mon k = s.mon k) ∧ PageFrame { s with mons := t.mons } t)) ∧
    (s.lockOpen .pwr = true → Completes (.pwrCapWrite 0 v) s (fun t =>
      t.pwr = { s.pwr with cap := max 150 (min 450 (v.toNat % 512)) } ∧ (t.hdr .pwr).lockOpen = false ∧
      PageFrame { s with pwr := t.pwr } t)) ∧
    (s.lockOpen .pwr = false → Completes (.pwrCapWrite 0 v) s (fun t => PageFrame s t)) ∧
    Completes (.dbgNoticeHeadWrite 0 v) s (fun t => t.dbg.noticeHead = v.toNat % 2 ^ 19 ∧
      PageFrame { s with dbg := t.dbg } t)) ∧
  (∀ (s : State) (m : MonNum) (v : Int), (s.mon m.val).en = true → monAvailable (s.mon m.val) s = true →
    Completes (.monSample m v) s (fun t =>
      let x := monValue (monSigned (s.mon m.val).src) v
      (t.mon m.val).count = min (2 ^ 32 - 1) ((s.mon m.val).count + 1) ∧
      (∃ lo hi, (t.mon m.val).min = some lo ∧ (t.mon m.val).max = some hi ∧ lo ≤ x ∧ x ≤ hi) ∧
      (∀ k, k ≠ m.val → t.mon k = s.mon k) ∧ t = { s with mons := t.mons }))

/-- A read of TAL_TIME_LO or TAL_ODO_POS_LO by the physical function returns the low 32 bits of the timebase or of
the 48-bit position and latches the rest; by a virtual function it returns 0 and latches nothing. A read of
CTL_ACCT_WAIT_LO returns the low word of WAIT_NS of the context that the function has selected and latches the high
word for that function alone, and returns 0 where a virtual function has selected a context of another function.
Only the latch, page headers, what is sent and MSI-X pending bits change. -/
def Obligations.LatchingReadsComplete : Prop :=
  ∀ (s : State) (fn : FnNum),
    Completes (.talTimeLoRead fn) s (fun t =>
      Sends s t (.regData fn.val (if fn = 0 then BitVec.ofNat 32 s.tal.time else 0)) ∧
      t.tal = (if fn = 0 then { s.tal with timeHi := BitVec.ofNat 32 (s.tal.time / 2 ^ 32) } else s.tal) ∧
      PageFrame { s with tal := t.tal } t) ∧
    Completes (.talOdoPosLoRead fn) s (fun t =>
      Sends s t (.regData fn.val (if fn = 0 then BitVec.ofInt 32 s.tal.pos else 0)) ∧
      (fn ≠ 0 → t.tal = s.tal) ∧ (fn = 0 → t.tal = { s.tal with posHi := t.tal.posHi } ∧
        t.tal.posHi.toNat = (s.tal.pos % 2 ^ 48).toNat / 2 ^ 32) ∧
      PageFrame { s with tal := t.tal } t) ∧
    (∀ c, s.selCtx fn.val .ctl 0x120 = some c → Completes (.ctlAcctWaitLoRead fn) s (fun t =>
      Sends s t (.regData fn.val (BitVec.ofNat 32 (s.ctx c).waitNs)) ∧
      Tab.find t.ctl.acctHi fn.val = some (BitVec.ofNat 32 ((s.ctx c).waitNs / 2 ^ 32)) ∧
      (∀ f, f ≠ fn.val → Tab.find t.ctl.acctHi f = Tab.find s.ctl.acctHi f) ∧
      PageFrame { s with ctl := { s.ctl with acctHi := t.ctl.acctHi } } t)) ∧
    (s.selCtx fn.val .ctl 0x120 = none → Completes (.ctlAcctWaitLoRead fn) s (fun t =>
      Sends s t (.regData fn.val 0) ∧ PageFrame s t))

/-- Where the QMG's page answers and no injection is armed on it: an accepted doorbell whose new descriptors are
well formed adds them to the context's commands to be started, in order, and advances its TAIL and PUSH_COUNT by
their number; a doorbell that is not accepted adds none. A write of QMG_CTX_QCFG to the context that the function
has selected: EN from 1 to 0 drops the commands not yet started, those among them that wait inside the device, EN
from 0 to 1 takes the depths and starts every count of the context at 0, with EN staying 1 it changes nothing.
QMG_CTX_CPL_HEAD takes 19 bits. No other context changes, and no other part of the device but page headers, what is
sent, MSI-X pending bits and, as said, the waiting commands. -/
def Obligations.ContextQueueWritesComplete : Prop :=
  (∀ (s : State) (fn : FnNum) (c : CtxNum) (v : W32) (descs : List (List Byte)), s.answers .qmg = true →
    (s.hdr .qmg).inj = 0 →
    (doorbellOk fn.val c.val (v.toNat % 2 ^ 19) s = true → newCommands c.val (v.toNat % 2 ^ 19) s = descs.length →
      (∀ d ∈ descs, descOk d c.val = true) →
      Completes (.qmgDoorbell fn c v descs) s (fun t =>
        (t.ctx c.val).fetched = (s.ctx c.val).fetched ++ descs.map (fun d => (BitVec.ofNat 32 (field d 4 4), field d 0 1)) ∧
        (t.ctx c.val).cmdTail = ((s.ctx c.val).cmdTail + descs.length) % 2 ^ 19 ∧
        (t.ctx c.val).cmdPushed = ((s.ctx c.val).cmdPushed + descs.length) % 2 ^ 32 ∧ OtherContexts c.val s t ∧
        PageFrame { s with ctxs := t.ctxs } t)) ∧
    (doorbellOk fn.val c.val (v.toNat % 2 ^ 19) s = false →
      Completes (.qmgDoorbell fn c v descs) s (fun t => PageFrame s t ∧ (t.hdr .qmg).errStat.getLsbD 8 = true))) ∧
  (∀ (s : State) (fn : FnNum) (c : Nat) (v : W32), s.answers .qmg = true → s.selCtx fn.val .qmg 0x160 = some c →
    Completes (.qmgCtxQcfgWrite fn v) s (fun t =>
      (t.ctx c).en = v.getLsbD 8 ∧ OtherContexts c s t ∧
      PageFrame { s with ctxs := t.ctxs, ctl := { s.ctl with waiting := t.ctl.waiting } } t ∧
      ((s.ctx c).en = true → v.getLsbD 8 = true → t.ctx c = s.ctx c) ∧
      ((s.ctx c).en = false ∨ v.getLsbD 8 = true → t.ctl = s.ctl) ∧
      ((s.ctx c).en = true → v.getLsbD 8 = false → (t.ctx c).fetched = [] ∧
        t.ctl.waiting = s.ctl.waiting.filter (fun h => !(h.ctx == c && (h.why == .epochs || h.why == .behind))) ∧
        (t.ctx c).running = (s.ctx c).running.filter (fun r =>
          !s.ctl.waiting.any (fun h => h.ctx == c && (h.why == .epochs || h.why == .behind) && h.order == r.order)) ∧
        (t.ctx c).retiring = !(t.ctx c).running.isEmpty) ∧
      ((s.ctx c).en = false → (t.ctx c).cplLog2 = v.toNat / 16 % 16 ∧ (t.ctx c).cmdLog2 = v.toNat % 16 ∧
        (v.getLsbD 8 = true → (t.ctx c).cmdTail = 0 ∧ (t.ctx c).cplHead = 0 ∧ (t.ctx c).cmdPushed = 0 ∧
          (t.ctx c).fetched = [] ∧ (t.ctx c).cmdFault = false ∧ (t.ctx c).cplFault = false))) ∧
    Completes (.qmgCtxCplHeadWrite fn v) s (fun t =>
      (t.ctx c).cplHead = v.toNat % 2 ^ 19 ∧ OtherContexts c s t ∧ PageFrame { s with ctxs := t.ctxs } t))

/-- While both pairs of SAFE run and no mailbox command is in progress, a mailbox command of the physical function
is done and shown as the last one: ENTER_SAFE_STATE enters the safe state for the host's cause with its pins low
unless a cause already stands; READ_LOG gives the eight words of the log entry that ARG0 names; PIN_TEST, while no
safety stream is armed, drives FAULT_N low; CLEAR_COUNTS sets the four counters to 0. 1 ms later PIN_TEST ends and
FAULT_N rises when SAFE is in RUN and nothing else holds it low. A mailbox command of a virtual function is refused
and has none of these effects. -/
def Obligations.MailboxCommandsComplete : Prop :=
  (∀ s : State, s.safeRuns = true → s.safe.mboxResult ≠ .busy →
    Completes (.enterSafeState 0) s (fun t => t.safe.mboxLast = 1 ∧ t.safe.mboxResult = .done ∧
      t.safe.ssCause = (if s.safe.ssCause = 0 then SS.host else s.safe.ssCause) ∧
      (s.safe.ssCause = 0 → t.safe.okP = false ∧ t.safe.okN = false ∧ t.safe.faultN = false) ∧
      (PinsLow s → PinsLow t)) ∧
    (∀ r, s.safe.log[(Tab.get s.safe.mboxArg 0 0).toNat % 1024]? = some r →
      Completes (.readLog 0) s (fun t =>
        t.safe = { s.safe with mboxOut := r.words, mboxLast := 2, mboxResult := .done } ∧
        PageFrame { s with safe := t.safe } t)) ∧
    (s.safetyArmed = false → Completes (.pinTest 0) s (fun t => t.safe.pinTest = some s.clock ∧ t.safe.faultN = false ∧
      t.safe.mboxLast = 3 ∧ t.safe.mboxResult = .done ∧ PageFrame { s with safe := t.safe } t)) ∧
    Completes (.clearCounts 0) s (fun t =>
      t.safe = { s.safe with evtTransient := 0, evtPermanent := 0, evtMasked := 0, egressLost := 0, mboxLast := 4,
                             mboxResult := .done } ∧ PageFrame { s with safe := t.safe } t) ∧
    (∀ fn : FnNum, fn ≠ 0 → ∀ i ∈ [Instr.enterSafeState fn, .readLog fn, .pinTest fn, .clearCounts fn],
      Completes i s (fun t => t.safe = { s.safe with mboxResult := .refused } ∧ PageFrame { s with safe := t.safe } t))) ∧
  (∀ (s : State) (u : Nat), s.safe.pinTest = some u → u + 1000000 ≤ s.clock →
    Completes .pinTestEnd s (fun t => t.safe.pinTest = none ∧ t = { s with safe := t.safe } ∧
      (s.safe.mode = .run → s.safe.ssCause = 0 → (∀ e ∈ s.streams, e.2.faulted = false) → s.safe.dangerAt = none →
        t.safe.faultN = true) ∧
      (s.safe.ssCause ≠ 0 → t.safe.faultN = s.safe.faultN)))

/-- While both pairs of SAFE run, nothing waits inside the device and the retention memory yields no uncorrectable
error, the oldest fault report is logged first in the log of 1,024 with its class: a dangerous one drives FAULT_N
low and dates it, a permanent one of a core leaves that core RETIRED. Of an event whose record follows once the
outcome of a re-execution is known (log entry 31) the event leaves the core RETIRED and the record is logged. With
an uncorrectable error of the retention memory SAFE enters the safe state instead, unless a cause already stands,
with its pins low. -/
def Obligations.FaultReportIsLoggedAndAnswered : Prop :=
  ∀ (s : State) (e : FaultEv) (rest : List FaultEv) (u : Upset), NoneWaits s → s.safe.inbox = e :: rest →
    (u ≠ .uncorrectable → s.safeRuns = true →
      Completes (.faultReport u) s (fun t =>
        (e.phase ≠ 1 →
          t.safe.log = ({ ev := e, dangerous := isDangerous e s, permanent := isPermanent e s } :: s.safe.log).take 1024 ∧
          (isDangerous e s = true → t.safe.faultN = false ∧ t.safe.dangerAt = some s.clock)) ∧
        (e.phase = 1 → t.safe.log = s.safe.log) ∧
        (e.phase ≠ 2 → isPermanent e s = true → e.unit < 192 → (t.core e.unit).pool = .retired) ∧ SameDram s t)) ∧
    (u = .uncorrectable → s.safe.ssCause = 0 →
      Completes (.faultReport u) s (fun t => t.safe.ssCause = SS.retention ∧ t.safe.okP = false ∧ t.safe.okN = false ∧
        t.safe.faultN = false))

/-- With nothing waiting inside the device: a clock window more than 2 % off, and a supply excursion, isolate the
quadrant of a core domain or rail that is not isolated yet, with each of its 48 cores; a clock window of CK_DBG or
CK_SLOW sends SAFE a fault report; every other domain and rail brings in the safe state. So do the loss of SAFEREF,
a lockstep mismatch, which also marks its pair, a toggle instant at which a pair has not kicked, and the loss of a
second control core. A toggle instant with both kicks, or the first one, changes both pins to opposite levels and
clears the kicks. A pair's kick and a control core's kick are noted. -/
def Obligations.SafetyMonitorsReact : Prop :=
  (∀ (s : State) (count expected : Nat), NoneWaits s → 2 * expected < 100 * (max count expected - min count expected) →
    (∀ q : QuadNum, (s.quad q.val).isolated = false →
      ∀ i ∈ [Instr.clockMonitorWindow (.core q) count expected, .supplyExcursion (.core q)],
        Completes i s (fun t => (t.quad q.val).isolated = true ∧ ∀ n ∈ quadCores q.val, (t.hdr (.core n)).isolated = true)) ∧
    (∀ d ∈ [ClockDom.dbg, .slow], Completes (.clockMonitorWindow d count expected) s (fun t =>
      t = report { unit := 0xC7, cause := Cause.clockFault } s)) ∧
    (s.safe.ssCause = 0 →
      (∀ d : ClockDom, (∀ q, d ≠ .core q) → d ≠ .dbg → d ≠ .slow →
        Completes (.clockMonitorWindow d count expected) s (fun t => t.safe.ssCause = SS.clock ∧ PinsLow t)) ∧
      Completes (.supplyExcursion .other) s (fun t => t.safe.ssCause = SS.supply ∧ PinsLow t) ∧
      Completes .saferefLoss s (fun t => t.safe.ssCause = SS.saferef ∧ t.safe.saferefOk = false ∧ PinsLow t) ∧
      Completes (.lockstepMismatch 0) s (fun t => t.safe.ssCause = SS.lockstep ∧ t.safe.pair0Ok = false ∧ PinsLow t) ∧
      Completes (.lockstepMismatch 1) s (fun t => t.safe.ssCause = SS.lockstep ∧ t.safe.pair1Ok = false ∧ PinsLow t))) ∧
  (∀ s : State, s.safe.ssCause = 0 → s.safe.mode = .run →
    ((s.safe.okP = s.safe.okN ∨ (s.safe.kicked0 = true ∧ s.safe.kicked1 = true)) →
      Completes .heartbeatToggle s (fun t => t.safe.okP = !s.safe.okP ∧ t.safe.okN = s.safe.okP ∧
        t.safe.kicked0 = false ∧ t.safe.kicked1 = false ∧ t = { s with safe := t.safe })) ∧
    (s.safe.okP ≠ s.safe.okN → (s.safe.kicked0 = false ∨ s.safe.kicked1 = false) →
      Completes .heartbeatToggle s (fun t => t.safe.ssCause = SS.hbKick ∧ PinsLow t))) ∧
  (∀ (s : State) (n : CtrlNum),
    Completes (.ctrlCoreKick n) s (fun t => Tab.find t.safe.kicks n.val = some s.clock ∧
      (∀ k, k ≠ n.val → Tab.find t.safe.kicks k = Tab.find s.safe.kicks k) ∧
      t = { s with safe := { s.safe with kicks := t.safe.kicks } }) ∧
    (s.safeRuns = true →
      Completes (.hbKick 0) s (fun t => t = { s with safe := { s.safe with kicked0 := true } }) ∧
      Completes (.hbKick 1) s (fun t => t = { s with safe := { s.safe with kicked1 := true } })) ∧
    (n.val ∉ s.ctl.down → (s.activating = true → s.dbg.liveCore ≠ n.val) →
      Tab.get s.safe.kicks 0 n.val + 1000000 ≤ s.clock →
      Completes (.ctrlCoreKickTimeout n) s (fun t => t.ctl.down = s.ctl.down ++ [n.val] ∧
        (s.ctl.down.length = 6 → s.safe.ssCause = 0 → t.safe.ssCause = SS.ctrl ∧ PinsLow t) ∧
        (s.ctl.down.length < 6 → t.safe.ssCause = s.safe.ssCause))))

/-- With SAFE in RUN and its pairs running, the end of the STATUS period sends, over an SGMII link that is up, a
STATUS frame of the state, the frame sequence number and up to 8 queued records, and takes those records from the
queue; over a link that is down nothing changes. SAFE_FAULT_HOLD ends with FAULT_N high when nothing holds it low. A
change of the SGMII link is noted. The oldest record invalidation lands: one that names a whole stream or an item
stands in the QMG or, as a withdrawal, stands no more; one that names a copy suspends it or ends its suspension. -/
def Obligations.EgressAndInvalidationComplete : Prop :=
  (∀ s : State, s.safe.mode = .run →
    (s.safeRuns = true → s.safe.linkUp = true → Completes .statusFrame s (fun t =>
      Sends s t (.frame {
        kind := 1, state := s.safe.frameState, seq := s.safe.frameSeq, time := s.tal.time,
        placeEpoch := s.ctl.placeEpoch, lost := s.safe.lostSeen, ssCause := s.safe.ssCause,
        records := s.safe.egress.take 8 }) ∧
      t = { s with outs := t.outs, safe := { s.safe with
        frameSeq := (s.safe.frameSeq + 1) % 2 ^ 32
        egress := s.safe.egress.drop 8 } })) ∧
    (s.safe.linkUp = false → Completes .statusFrame s (fun t => t = s)) ∧
    (s.safe.ssCause = 0 → (∀ e ∈ s.streams, e.2.faulted = false) → s.safe.pinTest = none →
      (∀ u, s.safe.dangerAt = some u → u + s.safe.faultHold * 1000000 ≤ s.clock) →
      Completes .faultHoldExpiry s (fun t => t = { s with safe := { s.safe with faultN := true } }))) ∧
  (∀ (s : State) (up : Bool), Completes (.sgmiiLinkChange up) s (fun t => t = { s with safe := { s.safe with linkUp := up } })) ∧
  (∀ (s : State) (i : Inval) (rest : List Inval), s.safe.invOut = i :: rest →
    ((∀ k, i.scope ≠ .copy k) → Completes .recordInvalidation s (fun t =>
      t = { s with safe := { s.safe with invOut := rest }, qmg := { s.qmg with invals := t.qmg.invals } } ∧
      (i.withdraw = false → i ∈ t.qmg.invals ∧ ∀ j ∈ s.qmg.invals, j ∈ t.qmg.invals) ∧
      (i.withdraw = true → ∀ j ∈ t.qmg.invals, ¬ (j.target = i.target ∧ j.scope = i.scope ∧ j.cause = i.cause)))) ∧
    (∀ (id k : Nat) (st : Stream), i.target = .stream id → i.scope = .copy k → s.stream? id = some st →
      Completes .recordInvalidation s (fun t => ∃ st', t.stream? id = some st' ∧
        (i.withdraw = false → k ∈ st'.suspended) ∧ (i.withdraw = true → k ∉ st'.suspended))))

/-- A self-test slice starts on an idle core in service whose work leaves it room: the core goes to TEST, shows
IN_TEST and reads no injection rule of normal service. With nothing waiting inside the device, a slice that passes
with its comparator counts one; the sixteenth ends the full test, dates it and clears the core's lateness; a slice
or comparator that fails sends SAFE a report of a permanent fault of that core. 80 s after its last full test a core
with a Strata stage has its slots pending re-placement; 100 s after it a core in service that was not late yet
becomes late, raises LATENT and reports it. -/
def Obligations.SelfTestCommandsComplete : Prop :=
  ∀ (s : State) (n : CoreNum),
    ((s.core n.val).seq = .idle → (s.core n.val).run = none →
      ((s.core n.val).pool = .schedulable ∨ (s.core n.val).pool = .spare) → (s.hdr (.core n.val)).isolated = false →
      sliceFits n.val s = true →
      Completes (.selfTestSliceStart n) s (fun t =>
        t.core n.val = { s.core n.val with seq := .test, drainReq := false } ∧ (t.hdr (.core n.val)).inTest = true ∧
        OtherCores n.val s t ∧ t = { s with cores := t.cores, pages := t.pages })) ∧
    (NoneWaits s → (s.core n.val).seq = .test →
      Completes (.selfTestSliceDone n true true) s (fun t =>
        (t.core n.val).seq = .idle ∧ (t.hdr (.core n.val)).inTest = false ∧ OtherCores n.val s t ∧ t.safe = s.safe ∧
        ((s.core n.val).slices < 15 → (t.core n.val).slices = (s.core n.val).slices + 1) ∧
        (15 ≤ (s.core n.val).slices → (t.core n.val).slices = 0 ∧ (t.core n.val).testedAt = s.clock ∧
          (t.core n.val).late = false)) ∧
      (∀ pass comparator : Bool, (pass && comparator) = false →
        Completes (.selfTestSliceDone n pass comparator) s (fun t => (t.core n.val).seq = .idle ∧
          (∃ e, t.safe.inbox = s.safe.inbox ++ [e] ∧ e.unit = n.val ∧ e.permanent = true) ∧ OtherCores n.val s t))) ∧
    ((s.core n.val).testedAt + 80 * secNs ≤ s.clock → s.hostsStrata n.val = true →
      Completes (.testDeferralLimit n) s (fun t => (∀ k ∈ s.slotsOn n.val, k ∈ t.ctl.pendRepl) ∧
        t = { s with ctl := { s.ctl with pendRepl := t.ctl.pendRepl } })) ∧
    ((s.core n.val).testedAt + 100 * secNs ≤ s.clock → (s.core n.val).late = false → (s.core n.val).pool ≠ .fused →
      (s.core n.val).pool ≠ .retired →
      Completes (.latent n) s (fun t => t.core n.val = { s.core n.val with late := true } ∧ t.safe.lateCore = n.val ∧
        (t.hdr .safe).errStat.getLsbD 4 = true ∧ (∃ e, t.safe.inbox = s.safe.inbox ++ [e] ∧ e.unit = n.val ∧
          e.cause = Cause.latent) ∧ OtherCores n.val s t ∧ SameMemory s t))

/-- A core sample that is being written ends as KEPT, its header complete with its end time and TRUNCATED exactly
where a section omits entries, its eleven sections in ascending type; its header and directory stand at the start of
the declared region of DRAM, and outside the sample no byte of DRAM changes but in dirty lines of the shared cache.
DBG_CS_CTRL.COPY of the physical function, with a sample kept, starts the copy, or waits while the clocks are
stopped; the end of the copy sends it and shows it done; RELEASE, once the sample is written, frees the region. A
virtual function's COPY and RELEASE change no part of the debug block. -/
def Obligations.CoreSampleCommandsComplete : Prop :=
  ∀ s : State,
    (s.dbg.csState = .writing → ∀ cut : Bool, Completes (.coreSampleDone cut) s (fun t => t.dbg.csState = .kept ∧
      (∃ y, t.dbg.sample = some y ∧ y.complete = true ∧ y.endTime = s.tal.time ∧ (cut = true → y.truncated = true) ∧
        (y.truncated = true ↔ ∃ e ∈ y.sections, e.omitted ≠ 0) ∧ y.sections.map (·.type) = (List.range 11).map (· + 1) ∧
        (∀ x, s.dbg.sample = some x → y.ssCause = x.ssCause) ∧
        (∀ i b, (y.bytes s.nvm.serial)[i]? = some b → t.dramByte (dramOffset s.dbg.csBase + i) = b) ∧
        (∀ a, (a < dramOffset s.dbg.csBase ∨ dramOffset s.dbg.csBase + y.total ≤ a) → t.dramByte a = s.dramByte a ∨
          ∃ k key x, Tab.find (s.slice k).lines key = some x ∧ x.dirty = true ∧ x.line = a / 64)) ∧
      SameScratchpads s t)) ∧
    ((s.dbg.csState = .kept ∨ s.dbg.csState = .part ∨ s.dbg.csState = .copyDone) →
      Completes (.coreSampleCopy 0) s (fun t => PageFrame { s with dbg := t.dbg } t ∧
        t.dbg = if s.pwr.retention then { s.dbg with csWait := true } else { s.dbg with csState := .copying })) ∧
    (s.dbg.csState = .copying → Completes .coreSampleCopyDone s (fun t => Sends s t .sampleCopy ∧
      t = { s with outs := t.outs, dbg := { s.dbg with csState := .copyDone } })) ∧
    (s.dbg.csState ≠ .writing → Completes (.coreSampleRelease 0) s (fun t =>
      t.dbg = { s.dbg with csState := .none, sample := none, csWait := false } ∧ PageFrame { s with dbg := t.dbg } t)) ∧
    (∀ fn : FnNum, fn ≠ 0 → ∀ i ∈ [Instr.coreSampleCopy fn, .coreSampleRelease fn], Completes i s (fun t => PageFrame s t))

/-- A power-on reset keeps fuses and flash and returns the boot, SAFE, cores, streams and DRAM to their reset
values. Each step of the boot, in its state, moves it on: the fuse read to SAFE_TEST with the fused cores out; the
SAFE self-test, once every regulator is ready, to IMAGE or, without coolant, to WAIT_COOLANT, which ends when the
coolant is back; a slot that verifies runs, the other one as a fallback that clears a pending mark; training with 8
channels or more, whose dies agree with the settings, takes their density and ranks and goes on to the cores'
self-test, which with 160 good cores or more retires the others and goes on to the settings; the end of the boot,
with no warm reset under way, creates the partitions, starts SAFE with its pins low and makes the device READY, a
pending slot becomes active and the anti-rollback counter rises to the image's SVN. -/
def Obligations.BootCommandsProceed : Prop :=
  ∀ s : State,
    Completes .powerOnReset s (fun t => t.nvm = s.nvm ∧ t.boot = { State.reset.boot with porstAt := s.clock } ∧
      t.safe = State.reset.safe ∧ t.cores = [] ∧ t.streams = [] ∧ t.ctxs = [] ∧ t.dram = []) ∧
    (s.boot.state = .powerOn → ∀ f : FuseData, f.ok = true → Completes (.bootFuseReadDone f) s (fun t =>
      t.boot = { s.boot with state := .safeTest } ∧ (∀ n ∈ s.nvm.fused, (t.core n).pool = .fused) ∧
      (∀ n, n ∉ s.nvm.fused → t.core n = s.core n) ∧ t = { s with boot := t.boot, cores := t.cores })) ∧
    (s.boot.state = .safeTest → Completes (.bootSafeTestDone true) s (fun t =>
      t.boot = { s.boot with safeDone := true, state := t.boot.state } ∧
      (s.allVrdy = true → t.boot.state = if s.pwr.coolantOk then .image else .waitCoolant) ∧
      (s.allVrdy = false → t.boot.state = .safeTest) ∧
      t.safe = { s.safe with saferefOk := true, pair0Ok := true, pair1Ok := true } ∧
      t = { s with boot := t.boot, safe := t.safe })) ∧
    (∀ q : QuadNum, Completes (.vrdyRise q) s (fun t => t.quad q.val = { s.quad q.val with vrdy := true } ∧
      (∀ r, r ≠ q.val → t.quad r = s.quad r) ∧ (s.boot.state ≠ .safeTest → t.boot = s.boot) ∧
      (s.boot.state = .safeTest → s.boot.safeDone = true → (∀ r : QuadNum, r ≠ q → (s.quad r.val).vrdy = true) →
        t.boot.state = if s.pwr.coolantOk then .image else .waitCoolant) ∧
      t = { s with boot := t.boot, pwr := t.pwr })) ∧
    Completes .waitCoolantEnd s (fun t => t.pwr = { s.pwr with coolantOk := true } ∧
      t.boot = (if s.boot.state = .waitCoolant && !s.pwr.stopped then { s.boot with state := .image } else s.boot) ∧
      t = { s with boot := t.boot, pwr := t.pwr }) ∧
    (s.boot.state = .image → ∀ (b : Bool) (x : FwImage), s.nvm.pending.getD s.nvm.activeB = b →
      (s.nvm.slot b = some x → s.nvm.verifies x = true → Completes .bootImageVerified s (fun t =>
        t.boot = { s.boot with state := .train, fallback := false, slotB := b, svn := x.svn } ∧ t.nvm = s.nvm ∧
        t.ctl.fwVer = x.release)) ∧
      (s.nvm.slotGood b = false → s.nvm.slot (!b) = some x → s.nvm.verifies x = true →
        Completes .bootImageVerified s (fun t =>
          t.boot = { s.boot with state := .train, fallback := true, slotB := !b, svn := x.svn } ∧
          t.nvm = { s.nvm with pending := none } ∧ (s.nvm.pending.isSome = true → t.dbg.updState = .failed) ∧
          t.ctl.fwVer = x.release))) ∧
    (s.boot.state = .train → ∀ (trained : BitVec 12) (dies : List ChannelDies),
      8 ≤ ((List.range 12).filter (fun c => trained.getLsbD c && (s.nvm.setting 0x0083 c).isNone &&
        diesAgree s.nvm (diesOf dies c))).length →
      Completes (.bootTrainDone ⟨trained, dies⟩) s (fun t => t.boot.state = .coreTest ∧
        ∀ c < 12, (t.dmc c).mode = trainMode s.nvm trained (diesOf dies c) c ∧ (t.dmc c).density = (diesOf dies c).density ∧
          (t.dmc c).ranks = (diesOf dies c).ranks - 1)) ∧
    (s.boot.state = .coreTest → ∀ failed : List CoreNum, 160 ≤ (goodCores s (failed.map (·.val))).length →
      Completes (.bootCoreTestDone failed) s (fun t => t.boot.state = .settings ∧
        ∀ n : CoreNum, ((s.core n.val).pool = .fused → (t.core n.val).pool = .fused) ∧
          ((s.core n.val).pool ≠ .fused → (n ∈ failed ∨ 2 ≤ s.nvm.retirements n.val) → (t.core n.val).pool = .retired) ∧
          ((s.core n.val).pool ≠ .fused → n ∉ failed → s.nvm.retirements n.val < 2 →
            (t.core n.val).pool = .schedulable ∨ (t.core n.val).pool = .spare))) ∧
    (s.boot.state = .settings → s.boot.warm = 0 → s.boot.warmPending = false → Completes .bootReady s (fun t =>
      t.boot.state = .ready ∧ t.boot.ready = true ∧ t.boot.ingressClosed = false ∧ t.parts = bootPartitions s.nvm ∧
      t.safe.mode = .run ∧ t.safe.okP = false ∧ t.safe.okN = false ∧ t.nvm.counter = max s.nvm.counter s.boot.svn ∧
      t.nvm.pending = none ∧ t.nvm.activeB = s.nvm.pending.getD s.nvm.activeB ∧ SameMemory s t))

/-- Without a latched warm reset, a fuse read error stops the boot with STOP_CODE 5, a failed SAFE self-test with 1,
two slots that do not verify with 2, fewer than 8 trained channels with 3, fewer than 160 good cores with 4, and a
regulator not ready 100 ms after PORST_N rose with 6; the boot is then STOPPED and not READY. The physical
function's START, with STOP_CODE 2 only, starts the recovery loader; an image that verifies is then written into
slot A, and one that does not leaves the flash as it was and shows FAILED. A START of another function, or under
another code, starts nothing. -/
def Obligations.BootStopsWithItsCode : Prop :=
  ∀ s : State,
    (s.boot.warmPending = false →
      (s.boot.state = .powerOn → ∀ f : FuseData, f.ok = false → Completes (.bootFuseReadDone f) s (fun t =>
        t.boot = { s.boot with stopCode := 5, state := .stopped, ready := false } ∧
        PageFrame { s with boot := t.boot } t)) ∧
      (s.boot.state = .safeTest → Completes (.bootSafeTestDone false) s (fun t =>
        t.boot = { s.boot with stopCode := 1, state := .stopped, ready := false } ∧
        PageFrame { s with boot := t.boot } t)) ∧
      (s.boot.state = .image → s.nvm.slotGood true = false → s.nvm.slotGood false = false →
        Completes .bootImageVerified s (fun t =>
          t.boot = { s.boot with stopCode := 2, state := .stopped, ready := false } ∧ t.nvm = { s.nvm with pending := none })) ∧
      (s.boot.state = .train → ∀ (trained : BitVec 12) (dies : List ChannelDies),
        ((List.range 12).filter (fun c => trained.getLsbD c && (s.nvm.setting 0x0083 c).isNone &&
          diesAgree s.nvm (diesOf dies c))).length < 8 →
        Completes (.bootTrainDone ⟨trained, dies⟩) s (fun t => t.boot.stopCode = 3 ∧ t.boot.state = .stopped ∧ t.boot.ready = false)) ∧
      (s.boot.state = .coreTest → ∀ failed : List CoreNum, (goodCores s (failed.map (·.val))).length < 160 →
        Completes (.bootCoreTestDone failed) s (fun t => t.boot.stopCode = 4 ∧ t.boot.state = .stopped ∧ t.boot.ready = false)) ∧
      (∀ q : QuadNum, s.boot.state = .safeTest → (s.quad q.val).vrdy = false → s.boot.porstAt + 100000000 ≤ s.clock →
        Completes (.vrdyBootTimeout q) s (fun t =>
          t.boot = { s.boot with stopCode := 6, state := .stopped, ready := false } ∧
          PageFrame { s with boot := t.boot } t))) ∧
    (∀ value : W32,
      (value.getLsbD 0 = true → s.boot.stopCode = 2 → Completes (.bootLoadStart 0 value) s (fun t =>
        t.boot = { s.boot with loadStat := .loading } ∧ PageFrame { s with boot := t.boot } t)) ∧
      (s.boot.stopCode ≠ 2 → Completes (.bootLoadStart 0 value) s (fun t => PageFrame s t)) ∧
      (∀ fn : FnNum, fn ≠ 0 → Completes (.bootLoadStart fn value) s (fun t =>
        (t.hdr .boot).errStat.getLsbD 1 = true ∧ PageFrame s t))) ∧
    (s.boot.loadStat = .loading → ∀ x : FwImage,
      (s.nvm.verifies x = true → Completes (.bootLoadDone x) s (fun t => t.boot.loadStat = .done ∧ t.nvm.slot false = some x ∧
        t.nvm.slot true = s.nvm.slot true ∧ t = { s with nvm := s.nvm.setSlot false (some x), boot := t.boot })) ∧
      (s.nvm.verifies x = false → Completes (.bootLoadDone x) s (fun t =>
        t = { s with boot := { s.boot with loadStat := .failed } })))

/-- A warm reset requested by its pin or by 0x5EB0 in GLB_RST_REQ begins in READY, STOPPED and WAIT_COOLANT, and in
another boot state is latched; another value of GLB_RST_REQ changes nothing but an error flag, and so does a write
of a virtual function. When it begins, ingress closes, READY falls, no unit runs, the safety pins are low and
source, cause and count of the reset are kept; automatic restart begins one 100 ms after a fatal error. On a device
that has been READY since power-on, the quiesce, or its cut-off after 1 ms, which counts the records that it loses,
keeps DRAM, partitions, images and fuses, disables every context and disarms every stream; a SAFE test that fails
then stops the boot with code 1. On one that has not, and whose fuses were read, the quiesce leads back into the
boot, to the image or, without coolant, to WAIT_COOLANT (log entry 46, the model's choice). With nothing waiting
inside the device and no reset latched, the end of the reset makes the device READY with SAFE in RUN; an
uncorrectable error of the retention memory enters the safe state. -/
def Obligations.WarmResetRunsInItsOrder : Prop :=
  (∀ s : State,
    ((s.boot.state = .ready ∨ s.boot.state = .stopped ∨ s.boot.state = .waitCoolant) →
      ∀ i ∈ [Instr.warmReset, .glbRstReq 0 0x5EB0], Completes i s (fun t =>
        t.boot.warm = (if i = .warmReset then 1 else 2) ∧ t.boot.ready = false ∧ t.boot.ingressClosed = true ∧
        t.boot.warmAt = s.clock ∧ t.dbg.rstSource = t.boot.warm ∧ t.dbg.rstCause = s.safe.ssCause ∧
        t.dbg.rstCount = min (s.dbg.rstCount + 1) (2 ^ 32 - 1) ∧ (∀ n, (t.core n).run = none) ∧
        t.safe.okP = false ∧ t.safe.okN = false ∧ t.safe.faultN = false ∧ SameDram s t)) ∧
    (s.boot.warm = 0 → s.boot.state ≠ .ready → s.boot.state ≠ .stopped → s.boot.state ≠ .waitCoolant →
      Completes .warmReset s (fun t => t = { s with boot := { s.boot with warmPending := true, pendSource := 1 } }) ∧
      Completes (.glbRstReq 0 0x5EB0) s (fun t =>
        PageFrame { s with boot := { s.boot with warmPending := true, pendSource := 2 } } t)) ∧
    (∀ (fn : FnNum) (value : W32), (fn ≠ 0 ∨ value.toNat % 65536 ≠ 0x5EB0) →
      Completes (.glbRstReq fn value) s (fun t => PageFrame s t)) ∧
    (s.boot.autoRestart = true → s.safe.ssCause = SS.fatal → s.dbg.csState ≠ .writing → s.boot.warm = 0 →
      s.boot.fatalAt + 100000000 ≤ s.clock → Completes .autoRestart s (fun t => t.boot.warm = 3 ∧ t.boot.ready = false ∧
        t.dbg.rstSource = 3 ∧ t.dbg.rstCause = SS.fatal ∧ (∀ n, (t.core n).run = none)))) ∧
  (∀ s : State, s.boot.booted = true → s.boot.warm ≠ 0 → s.boot.warmCut = false → (s.nvm.slotGood true = true ∨ s.nvm.slotGood false = true) →
    (∀ i ∈ [Instr.quiesceDone true, .quiesceCutOff true], (i = .quiesceCutOff true → s.boot.warmAt + 1000000 ≤ s.clock) →
      ¬ (s.safe.ssCause = SS.coolant ∧ s.pwr.coolantOk = false) → Completes i s (fun t =>
        t.boot.state = .settings ∧ t.boot.warmCut = true ∧ t.boot.ready = false ∧ (∀ c, (t.ctx c).en = false) ∧
        (∀ id st, t.stream? id = some st → st.armed = false) ∧ t.parts = s.parts ∧ t.images = s.images ∧ SameDram s t ∧
        (i = .quiesceCutOff true → t.dbg.rstLost = min (s.dbg.rstLost + unwritten s) (2 ^ 32 - 1)))) ∧
    (∀ i ∈ [Instr.quiesceDone false, .quiesceCutOff false], (i = .quiesceCutOff false → s.boot.warmAt + 1000000 ≤ s.clock) →
      Completes i s (fun t => t.boot.state = .stopped ∧ t.boot.stopCode = 1 ∧ t.boot.warm = 0))) ∧
  (∀ s : State, s.boot.booted = false → s.boot.warm ≠ 0 → s.boot.warmCut = false → s.boot.stopCode ≠ 5 → s.allVrdy = true →
    Completes (.quiesceDone true) s (fun t => t.boot.warm = 0 ∧ t.boot.stopCode = 0 ∧
      t.boot.state = (if s.pwr.coolantOk then .image else .waitCoolant) ∧ SameDram s t)) ∧
  (∀ (s : State) (u : Upset), NoneWaits s → s.boot.warm ≠ 0 → s.boot.warmCut = true → s.boot.warmPending = false →
    Completes (.warmResetReady u) s (fun t => t.boot.state = .ready ∧ t.boot.ready = true ∧ t.boot.warm = 0 ∧
      t.safe.mode = .run ∧ (u ≠ .uncorrectable → t.safe.ssCause = s.safe.ssCause) ∧
      (u = .uncorrectable → s.safe.ssCause = 0 → t.safe.ssCause = SS.retention ∧ PinsLow t)))

/-- With nothing waiting inside the device and no re-placement running, a quadrant reset of an isolated quadrant
whose clock and rail have been in range for 10 ms clears its cores' units and scratchpads and leaves the rest; its
end brings a core that passes into the spare pool or, while fewer than 160 are, among the schedulable cores, retires
one that fails, and ends the isolation. A port reset takes the port down and keeps its bindings. A function-level
reset disables every context of the function and disarms its streams; the physical function's acts on every
function, clears DBG_NOTICE_CFG.EN and every INT_EN. PERST takes the link down and does the same. A link that trains
shows its speed and width, with LINK_DEGRADED below 32 GT/s or 16 lanes; a link that leaves L0 other than by power
management is down with LINK_DOWN, and what AER reports with it sets CORR or UNCORR (log entry 117). -/
def Obligations.PartialResetsComplete : Prop :=
  (∀ (s : State) (q : QuadNum), NoneWaits s →
    (s.boot.ready = true → (s.quad q.val).isolated = true → (s.quad q.val).resetting = false → s.ctl.repl = none →
      (s.quad q.val).goodSince + 10000000 ≤ s.clock → Completes (.quadrantReset q) s (fun t =>
        (t.quad q.val).resetting = true ∧ (∀ n ∈ quadCores q.val, (t.core n).run = none ∧ (∀ w, t.spWord n w = 0) ∧
          (t.core n).pool = (s.core n).pool ∧ (t.core n).windows = []) ∧
        (∀ n, n ∉ quadCores q.val → t.core n = s.core n) ∧ t = { s with cores := t.cores, pwr := t.pwr })) ∧
    ((s.quad q.val).resetting = true → ∀ failed : List CoreNum, Completes (.quadrantResetDone q failed) s (fun t =>
      (t.quad q.val).resetting = false ∧ (t.quad q.val).isolated = false ∧
      ∀ n : CoreNum, n.val ∈ quadCores q.val → (t.hdr (.core n)).isolated = false ∧
        ((s.core n.val).pool ≠ .fused → (s.core n.val).pool ≠ .retired →
          (n ∈ failed → (t.core n.val).pool = .retired) ∧
          (n ∉ failed → (t.core n.val).pool = .spare ∨ (t.core n.val).pool = .schedulable))))) ∧
  (∀ (s : State) (p : PortNum), Completes (.portReset p) s (fun t => (t.port p.val).up = false ∧
    (t.port p.val).trained = false ∧ (t.port p.val).bind = (s.port p.val).bind ∧ (∀ r, r ≠ p.val → t.port r = s.port r) ∧
    (∀ id, (t.stream? id).map (·.armed) = (s.stream? id).map (·.armed)) ∧
    t = { s with ports := t.ports, streams := t.streams })) ∧
  (∀ (s : State) (fn : FnNum), NoneWaits s → Completes (.functionLevelReset fn) s (fun t =>
    (∀ c, (fn = 0 ∨ (s.ctx c).fn = fn.val) → (t.ctx c).en = false) ∧
    (∀ id st x, t.stream? id = some st → Tab.find s.ctxs st.ctx = some x → (fn = 0 ∨ x.fn = fn.val) → st.armed = false) ∧
    (fn = 0 → t.dbg.noticeEn = false ∧ ∀ b, (t.hdr b).intEn = 0) ∧
    t.images = s.images ∧ t.parts = s.parts ∧ SameDram s t)) ∧
  (∀ s : State, NoneWaits s → Completes .pciePerst s (fun t => t.pce.up = false ∧ (∀ c, (t.ctx c).en = false) ∧
    (∀ id st, t.stream? id = some st → (Tab.find s.ctxs st.ctx).isSome = true → st.armed = false) ∧
    t.dbg.noticeEn = false ∧ t.images = s.images ∧ t.parts = s.parts ∧ SameDram s t)) ∧
  (∀ (s : State) (speed width mps : Nat), Completes (.pcieLinkUp speed width mps) s (fun t =>
    (5 ≤ speed → 16 ≤ width → t = { s with pce := { s.pce with up := true, speed := speed, width := width, mps := mps } }) ∧
    (speed < 5 ∨ width < 16 → (t.hdr .pce).errStat.getLsbD 0 = true ∧ t.pce.up = true ∧ t.pce.speed = speed ∧
      t.pce.width = width ∧ t.pce.mps = mps ∧ PageFrame s t))) ∧
  (∀ s : State, Completes (.pcieLinkDown ⟨true, .clean⟩) s (fun t => t = s) ∧
    (∀ aer, Completes (.pcieLinkDown ⟨false, aer⟩) s (fun t =>
      t.pce.up = false ∧ (t.hdr .pce).errStat.getLsbD 1 = true ∧ PageFrame s t)) ∧
    (∀ pm, Completes (.pcieLinkDown ⟨pm, .corrected⟩) s (fun t => (t.hdr .pce).errStat.getLsbD 2 = true ∧ PageFrame s t) ∧
      Completes (.pcieLinkDown ⟨pm, .uncorrectable⟩) s (fun t => (t.hdr .pce).errStat.getLsbD 3 = true ∧ PageFrame s t)))

/-- With nothing waiting inside the device, a clean or corrected header and no injection armed on the port: a Frame
Start of an armed bound stream without an open frame, while ingress is open, opens and accepts the next frame, past
the frames that its number shows as lost; a long packet of a supported type adds one row to the open frame and
changes nothing but the stream and the port, and one with a bad CRC is counted besides; a Frame End closes the
frame, and the item of a stream in service without a group is complete with its stamp. A frame that found no buffer
yields its record instead, and the port counts it. A packet of no armed stream is a stray, and a packet whose header
cannot be corrected is dropped and leaves every open frame open. -/
def Obligations.CsiPacketsComplete : Prop :=
  ∀ (s : State) (p : PortNum) (vc : Fin 4), NoneWaits s → (s.hdr (.ing p.val)).inj = 0 →
    (∀ (id : Nat) (st : Stream), boundStream p.val vc.val s = some (id, st) →
      (st.frame = none → s.boot.ingressClosed = false → ∀ n : Option Nat,
        Completes (.csi2FrameStart p vc .clean n) s (fun t =>
          (∃ st' f, t.stream? id = some st' ∧ st'.frame = some f ∧ f.seq = st.nextSeq + lostFrames st.lastFrameNo n ∧
            st'.nextSeq = f.seq + 1 ∧ f.lines = [] ∧ ∃ it ∈ st'.items, it.seq = f.seq) ∧
          t.port p.val = { s.port p.val with pkts := sat32 ((s.port p.val).pkts + 1) } ∧
          OtherStreams id s t ∧ SameDram s t)) ∧
      (∀ f, st.frame = some f →
        (∀ (dt : Nat) (data : List Byte), supportedType dt = true →
          Completes (.csi2LongPacket p vc .clean dt true data) s (fun t =>
            t.stream? id = some { st with frame := some (f.addRow st.decl data s.tal.time) } ∧
            t.port p.val = { s.port p.val with pkts := sat32 ((s.port p.val).pkts + 1) } ∧
            OtherStreams id s t ∧ t = { s with streams := t.streams, ports := t.ports }) ∧
          Completes (.csi2LongPacket p vc .single dt false data) s (fun t =>
            t.port p.val = { s.port p.val with pkts := sat32 ((s.port p.val).pkts + 1), crcErr := sat32 ((s.port p.val).crcErr + 1),
                                               hdrCorr := sat32 ((s.port p.val).hdrCorr + 1) } ∧
            (t.stream? id).map (·.frame) = some (some (f.addRow st.decl data s.tal.time)) ∧ OtherStreams id s t ∧
            SameMemory s t)) ∧
        (∀ (boxes : List (List Byte)) (it : Item), st.item? f.seq = some it →
          (f.discarded = false → st.faulted = false → groupOf s id = none →
            Completes (.csi2FrameEnd p vc .clean boxes) s (fun t => ∃ st' it', t.stream? id = some st' ∧ st'.frame = none ∧
              st'.item? f.seq = some it' ∧ it'.checked = true ∧ it'.stamp = f.endAt.getD s.tal.time ∧
              (t.port p.val).pkts = sat32 ((s.port p.val).pkts + 1) ∧ OtherStreams id s t ∧ SameDram s t)) ∧
          (f.discarded = true → Completes (.csi2FrameEnd p vc .clean boxes) s (fun t => ∃ st' r, t.stream? id = some st' ∧
              st'.frame = none ∧ st'.item? f.seq = none ∧ r ∈ st'.formed ∧ r.seq = f.seq ∧ r.stamp = s.tal.time ∧
              (t.port p.val).overrun = sat32 ((s.port p.val).overrun + 1) ∧ OtherStreams id s t ∧ SameDram s t))))) ∧
    (boundStream p.val vc.val s = none → ∀ n dt data crc boxes,
      ∀ i ∈ [Instr.csi2FrameStart p vc .clean n, .csi2LongPacket p vc .clean dt crc data, .csi2FrameEnd p vc .clean boxes],
        Completes i s (fun t => t.port p.val = { s.port p.val with stray := sat32 ((s.port p.val).stray + 1) } ∧
          (∀ r, r ≠ p.val → t.port r = s.port r) ∧ PageFrame { s with ports := t.ports } t)) ∧
    (∀ n dt data crc boxes,
      ∀ i ∈ [Instr.csi2FrameStart p vc .uncorrectable n, .csi2LongPacket p vc .uncorrectable dt crc data,
             .csi2FrameEnd p vc .uncorrectable boxes],
        Completes i s (fun t => t.port p.val = { s.port p.val with pktDrop := sat32 ((s.port p.val).pktDrop + 1) } ∧
          (∀ id, (t.stream? id).map (·.frame) = (s.stream? id).map (·.frame)) ∧ SameMemory s t))

/-- With nothing waiting inside the device and no injection armed on the pair's master port: a packet of a line that
a trigger awaits, whose segments all have their slots, puts its pixels at their place in the line (bytes before them
that have not come are a free value of the model, log entry 73); one of a line after the boundary at which the
stream's pools are closed ends that line with its record, the port counts it, and what still comes of that line is
no stray; one of no awaited line is a stray, and a line counts as one with its first packet (a reading of the model,
log entry 77); one of no armed stream is a stray. The first packet of an area camera, while ingress is open, opens
the next frame, and a later one extends the row in reception and changes nothing but the stream and the port. At the
line timeout no line of the pair's stream stays pending past its time, and with none late nothing changes. -/
def Obligations.CameraPairPacketsComplete : Prop :=
  ∀ (s : State) (k : PairNum), NoneWaits s → (s.hdr (.ing (pairPort k.val))).inj = 0 →
    (∀ (id : Nat) (st : Stream) (line : CxpLine) (off : Nat) (data : List Byte), boundStream (pairPort k.val) 0 s = some (id, st) →
      (st.decl.kind = 0 → ∀ l, line.trigger.bind st.line? = some l → lineLate st l s.tal.time = false →
        (l.begun = segmentCount s st → Completes (.cxpStreamPacket k line off data true false) s (fun t => ∃ gap : List Byte,
          gap.length = off - l.bytes.length ∧
          (t.stream? id).bind (·.line? l.seq) = some { l with
            bytes := (l.bytes.take off ++ gap ++ data ++ l.bytes.drop (off + data.length)).take st.decl.lineBytes
            handles := (((t.stream? id).bind (·.line? l.seq)).map (·.handles)).getD [] } ∧
          t.port (pairPort k.val) = { s.port (pairPort k.val) with pkts := sat32 ((s.port (pairPort k.val)).pkts + 1) } ∧
          OtherStreams id s t ∧ SameDram s t)) ∧
        (st.closed = true → (∀ r, st.rearm = some r → r.boundary ≤ l.seq) → l.begun = 0 → 0 < off + data.length →
          0 < st.decl.lineBytes →
          ∀ lineEnd, Completes (.cxpStreamPacket k line off data true lineEnd) s (fun t =>
            (t.stream? id).bind (·.line? l.seq) = none ∧ (t.stream? id).bind (·.item? l.seq) = none ∧
            (∃ st', t.stream? id = some st' ∧ l.seq ∈ st'.cutLines) ∧
            (t.port (pairPort k.val)).overrun = sat32 ((s.port (pairPort k.val)).overrun + 1) ∧ OtherStreams id s t ∧
            SameDram s t))) ∧
      (st.decl.kind = 0 → line.trigger.bind st.line? = none → ∀ crc lineEnd,
        Completes (.cxpStreamPacket k line off data crc lineEnd) s (fun t =>
          ((∃ n, line.trigger = some n ∧ n ∈ st.cutLines) → OtherStreams id s t ∧ t = { s with streams := t.streams }) ∧
          ((∀ n, line.trigger = some n → n ∉ st.cutLines) →
            t.port (pairPort k.val) = { s.port (pairPort k.val) with
              stray := if (s.port (pairPort k.val)).strayLine = some line then (s.port (pairPort k.val)).stray
                       else sat32 ((s.port (pairPort k.val)).stray + 1)
              strayLine := if lineEnd then none else some line } ∧
            PageFrame { s with ports := t.ports } t))) ∧
      (st.decl.kind ≠ 0 →
        (st.frame = none → s.boot.ingressClosed = false →
          Completes (.cxpStreamPacket k line off data true false) s (fun t => ∃ st' f, t.stream? id = some st' ∧
            st'.frame = some f ∧ f.seq = st.nextSeq ∧ f.lines = [(0, data)] ∧ st'.nextSeq = st.nextSeq + 1 ∧
            (∃ it ∈ st'.items, it.seq = f.seq) ∧ OtherStreams id s t ∧ SameDram s t)) ∧
        (∀ f, st.frame = some f → Completes (.cxpStreamPacket k line off data true false) s (fun t =>
          t.stream? id = some { st with frame := some { f with
            lines := Tab.insert f.lines f.rows (Tab.get f.lines [] f.rows ++ data), lastAt := s.tal.time } } ∧
          OtherStreams id s t ∧ t = { s with streams := t.streams, ports := t.ports })))) ∧
    (boundStream (pairPort k.val) 0 s = none → ∀ line off data crc lineEnd,
      Completes (.cxpStreamPacket k line off data crc lineEnd) s (fun t =>
        (t.port (pairPort k.val)).stray = sat32 ((s.port (pairPort k.val)).stray + 1) ∧ PageFrame { s with ports := t.ports } t)) ∧
    (∀ (id : Nat) (st : Stream), Tab.find (s.port (pairPort k.val)).bind 0 = some id → s.stream? id = some st →
      Completes (.lineTimeout k) s (fun t =>
        (∀ st', t.stream? id = some st' → ∀ l ∈ st'.lines, lineLate st' l s.tal.time = false ∧ l ∈ st.lines) ∧
        (∀ l ∈ st.lines, lineLate st l s.tal.time = true → (t.stream? id).bind (·.item? l.seq) = none) ∧
        ((∀ l ∈ st.lines, lineLate st l s.tal.time = false) → t = s) ∧ OtherStreams id s t ∧ SameDram s t))

/-- With nothing waiting inside the device: a UDP packet that the lane does not accept, or not of the declared
length, or already arrived, is dropped and counted; one of no armed stream is a stray; the next packet of an open
sweep that is not its last joins it, and the first packet of a stream, while ingress is open, opens the next sweep.
A port whose link goes down is down and untrained, with LINK_DOWN when a stream is bound to it; a port whose link
comes up is up and trained. -/
def Obligations.LidarAndLinkCommandsComplete : Prop :=
  (∀ (s : State) (lane : LaneNum) (pkt : UdpPacket), NoneWaits s →
    (accepted (s.port (lanePort lane.val)) pkt = false → Completes (.lidarPacket lane pkt) s (fun t =>
      t.port (lanePort lane.val) = { s.port (lanePort lane.val) with pktDrop := sat32 ((s.port (lanePort lane.val)).pktDrop + 1) } ∧
      PageFrame { s with ports := t.ports } t)) ∧
    (accepted (s.port (lanePort lane.val)) pkt = true → lidarStream (lanePort lane.val) pkt s = none → Completes (.lidarPacket lane pkt) s (fun t =>
      t.port (lanePort lane.val) = { s.port (lanePort lane.val) with stray := sat32 ((s.port (lanePort lane.val)).stray + 1) } ∧
      PageFrame { s with ports := t.ports } t)) ∧
    (accepted (s.port (lanePort lane.val)) pkt = true → ∀ (id : Nat) (st : Stream), lidarStream (lanePort lane.val) pkt s = some (id, st) →
      (pkt.payload.length ≠ st.decl.lineBytes → Completes (.lidarPacket lane pkt) s (fun t =>
        t.port (lanePort lane.val) = { s.port (lanePort lane.val) with pktDrop := sat32 ((s.port (lanePort lane.val)).pktDrop + 1) } ∧
        PageFrame { s with ports := t.ports } t)) ∧
      (pkt.payload.length = st.decl.lineBytes → packetIndex id pkt.payload < st.decl.height →
        (∀ f, st.frame = some f → f.lastIdx ≤ packetIndex id pkt.payload →
          ((Tab.find f.lines (packetIndex id pkt.payload)).isSome = true → Completes (.lidarPacket lane pkt) s (fun t =>
            (t.port (lanePort lane.val)).pktDrop = sat32 ((s.port (lanePort lane.val)).pktDrop + 1) ∧
            PageFrame { s with ports := t.ports } t)) ∧
          (Tab.find f.lines (packetIndex id pkt.payload) = none → f.lines.length + 1 < st.decl.height →
            Completes (.lidarPacket lane pkt) s (fun t =>
              t.stream? id = some { st with frame := some { f with
                lines := Tab.insert f.lines (packetIndex id pkt.payload) pkt.payload, rows := f.rows + 1,
                lastIdx := packetIndex id pkt.payload, lastAt := s.tal.time } } ∧
              (t.port (lanePort lane.val)).pkts = sat32 ((s.port (lanePort lane.val)).pkts + 1) ∧ OtherStreams id s t ∧
              t = { s with streams := t.streams, ports := t.ports }))) ∧
        (st.frame = none → s.boot.ingressClosed = false → 1 < st.decl.height → Completes (.lidarPacket lane pkt) s (fun t =>
          ∃ st' f, t.stream? id = some st' ∧ st'.frame = some f ∧ f.seq = st.nextSeq ∧ st'.nextSeq = st.nextSeq + 1 ∧
            f.lines = [(packetIndex id pkt.payload, pkt.payload)] ∧ (∃ it ∈ st'.items, it.seq = f.seq) ∧ OtherStreams id s t ∧
            SameDram s t))))) ∧
  (∀ (s : State) (p : PortNum),
    Completes (.ingLinkDown p) s (fun t => ((s.port p.val).up = false → t = s) ∧
      ((s.port p.val).up = true → t.port p.val = { s.port p.val with up := false, trained := false } ∧
        (∀ r, r ≠ p.val → t.port r = s.port r) ∧ PageFrame { s with ports := t.ports } t ∧
        ((s.port p.val).bind ≠ [] → (t.hdr (.ing p.val)).errStat.getLsbD Bit.ingLinkDown = true))) ∧
    Completes (.ingLinkUp p) s (fun t => t.port p.val = { s.port p.val with up := true, trained := true } ∧
      (∀ r, r ≠ p.val → t.port r = s.port r) ∧ t = { s with ports := t.ports }))

/-- A PTP message on the Ethernet lane and in the domain in use, from no worse master, makes its sender the master,
and another sender than before starts the exchange anew. A Sync restarts the holdover limit; with its origin, or
with the Follow_Up that brings it, a Delay_Req leaves at once over the transport in use and the times of the
exchange are kept. A Delay_Resp to it gives the offset, and that, like an edge of PPS under PPS discipline, shows
the offset, moves the state on from FREE or HOLDOVER to ACQUIRING and to LOCKED at the eighth offset in a row within
100 ns, and corrects the timebase: a forward step of an ACQUIRING timebase while no stream is armed and 64 bits hold
the time, else a change of rate within 200 ppm and no step. A message of a worse master or of another domain changes
only the packet count; one on another lane, on a lane of a camera pair, or without PTP discipline, is dropped; an
edge without PPS discipline changes nothing. -/
def Obligations.TimebaseFollowsItsSource : Prop :=
  (∀ (s : State) (m : PtpMsg),
    (s.tal.src = 1 → m.lane.val = s.tal.lane → s.ethernet (lanePort m.lane.val) = true →
      ((m.domain ≠ s.tal.domain ∨ ∃ r, s.tal.master = some r ∧ betterMaster r m.master = true) → Completes (.ptpMessage m) s (fun t =>
        t.port (lanePort m.lane.val) = { s.port (lanePort m.lane.val) with pkts := sat32 ((s.port (lanePort m.lane.val)).pkts + 1) } ∧
        t = { s with ports := t.ports })) ∧
      (∀ tal, m.domain = s.tal.domain → (∀ r, s.tal.master = some r → betterMaster r m.master = false) →
        tal = (if s.tal.master = some m.master then s.tal
               else { s.tal with master := some m.master, syncRx := none, delayReq := none }) →
        ((m.body = .announce ∨ (∃ t1, m.body = .followUp t1 ∧ tal.syncRx = none) ∨ (∃ t4, m.body = .delayResp t4 ∧ tal.delayReq = none)) →
          Completes (.ptpMessage m) s (fun t => t.tal = tal ∧ t = { s with ports := t.ports, tal := t.tal })) ∧
        (m.body = .sync none → Completes (.ptpMessage m) s (fun t =>
          t.tal = { tal with lastSync := some s.clock, syncInt := m.interval, syncRx := some s.tal.time } ∧
          t = { s with ports := t.ports, tal := t.tal })) ∧
        (∀ t1, m.body = .sync (some t1) → Completes (.ptpMessage m) s (fun t =>
          t.tal = { tal with lastSync := some s.clock, syncInt := m.interval, syncRx := none,
                             delayReq := some (t1, s.tal.time, s.tal.time) } ∧
          t = { s with ports := t.ports, tal := t.tal, outs := s.outs ++ [.delayReq m.lane.val m.udp] })) ∧
        (∀ t1 t2, m.body = .followUp t1 → tal.syncRx = some t2 → Completes (.ptpMessage m) s (fun t =>
          t.tal = { tal with syncRx := none, delayReq := some (t1, t2, s.tal.time) } ∧
          t = { s with ports := t.ports, tal := t.tal, outs := s.outs ++ [.delayReq m.lane.val m.udp] })) ∧
        (∀ (t1 t2 t3 t4 : Nat) (o : Int), m.body = .delayResp t4 → tal.delayReq = some (t1, t2, t3) →
          o = -(((t2 - t1 : Int) - (t4 - t3)) / 2) → -1000000000 ≤ o → o < 2 ^ 31 → Completes (.ptpMessage m) s (fun t =>
          t.tal.master = some m.master ∧ t.tal.offset = o ∧ t.tal.delayReq = none ∧
          (o.natAbs > 100 → t.tal.good = 0 ∧
            t.tal.disc = (if s.tal.disc = .free ∨ s.tal.disc = .holdover then .acquiring else s.tal.disc)) ∧
          (o.natAbs ≤ 100 → (s.tal.disc = .acquiring ∨ s.tal.disc = .locked) → 7 ≤ s.tal.good → t.tal.disc = .locked) ∧
          (t.tal.disc = .acquiring → 0 < o → s.anyArmed = false → s.tal.time + o.toNat < 2 ^ 64 →
            t.tal.time = s.tal.time + o.toNat ∧ t.tal.rate = s.tal.rate) ∧
          ((t.tal.disc ≠ .acquiring ∨ o ≤ 0 ∨ s.anyArmed = true ∨ 2 ^ 64 ≤ s.tal.time + o.toNat) →
            t.tal.time = s.tal.time ∧ -3435973 ≤ t.tal.rate ∧ t.tal.rate ≤ 3435973) ∧
          t = { s with ports := t.ports, tal := t.tal, free := t.free })))) ∧
    ((s.tal.src ≠ 1 ∨ m.lane.val ≠ s.tal.lane ∨ s.ethernet (lanePort m.lane.val) = false) → Completes (.ptpMessage m) s (fun t =>
      t.port (lanePort m.lane.val) =
        { s.port (lanePort m.lane.val) with pktDrop := sat32 ((s.port (lanePort m.lane.val)).pktDrop + 1) } ∧
      PageFrame { s with ports := t.ports } t))) ∧
  (∀ s : State,
    (s.tal.src ≠ 2 → Completes .ppsEdge s (fun t => t = s)) ∧
    (∀ n, s.tal.src = 2 → s.tal.seconds = some n → s.tal.time ≤ (n + 1) * 1000000000 →
      (n + 1) * 1000000000 < s.tal.time + 2 ^ 31 → Completes .ppsEdge s (fun t =>
        t.tal.seconds = some (n + 1) ∧ t.tal.lastSync = some s.clock ∧
        t.tal.offset = ((n + 1) * 1000000000 : Nat) - (s.tal.time : Int) ∧
        (s.anyArmed = true → t.tal.time = s.tal.time) ∧
        (t.tal.disc = .acquiring → s.anyArmed = false → s.tal.time < (n + 1) * 1000000000 → (n + 1) * 1000000000 < 2 ^ 64 →
          t.tal.time = (n + 1) * 1000000000) ∧
        t = { s with tal := t.tal, free := t.free })))

/-- When the source has been missing for its limit, an ACQUIRING or LOCKED timebase enters HOLDOVER, and 10 s after
that entry it enters FREE. Each entry sets its own bit in TAL ERR_STAT, reports a warning to SAFE and changes no
record state: no stream, and nothing but the state of the discipline, TAL's page, SAFE's incoming reports, what is
sent and MSI-X pending bits; time and rate stay. While the limit or the 10 s have not passed nothing changes. -/
def Obligations.EntryIntoHoldoverOrFreeWarnsSafe : Prop :=
  ∀ s : State,
    (sourceMissing s = true → Completes .holdoverEntry s (fun t =>
      t.tal = { s.tal with disc := .holdover, holdAt := s.clock, good := 0, master := none, syncRx := none, delayReq := none } ∧
      (t.hdr .tal).errStat.getLsbD Bit.talHoldover = true ∧
      (∃ e, t.safe = { s.safe with inbox := s.safe.inbox ++ [e] } ∧ e.cause = Cause.timebase ∧ e.time = s.tal.time) ∧
      PageFrame { s with tal := t.tal, safe := t.safe } t)) ∧
    (sourceMissing s = false → Completes .holdoverEntry s (fun t => t = s)) ∧
    (s.tal.disc = .holdover → s.tal.holdAt + 10000000000 ≤ s.clock → Completes .holdoverExpiry s (fun t =>
      t.tal = { s.tal with disc := .free } ∧ (t.hdr .tal).errStat.getLsbD Bit.talFree = true ∧
      (∃ e, t.safe = { s.safe with inbox := s.safe.inbox ++ [e] } ∧ e.cause = Cause.timebase ∧ e.time = s.tal.time) ∧
      PageFrame { s with tal := t.tal, safe := t.safe } t)) ∧
    ((s.tal.disc ≠ .holdover ∨ s.clock < s.tal.holdAt + 10000000000) → Completes .holdoverExpiry s (fun t => t = s))

/-- Without an injection armed in TAL: a sample in which both inputs changed leaves the position, counts in
TAL_ODO_ILLEGAL, reports to SAFE and marks the next line; any other moves the position by its count and raises the
high-water mark of a fixed grid to it. When the position rises past the next trigger position above the mark, no
earlier than TAL_ODO_MINPER after the last trigger and with ingress open, one trigger goes to the camera pairs of
TAL_ODO_CAMS, and every armed line-scan stream accepts its next line at the time of the trigger with the flags that
wait for it. A sample that crosses no trigger position sends nothing and changes no stream. -/
def Obligations.OdometerMovesAndTriggers : Prop :=
  ∀ (s : State) (a b : Bool), (s.hdr .tal).inj = 0 →
    (illegalStep s.tal.odoA s.tal.odoB a b = true → Completes (.odoFilteredSample a b) s (fun t =>
      t.tal = { s.tal with odoA := a, odoB := b, illegal := sat32 (s.tal.illegal + 1), flagOdo := true } ∧
      (t.hdr .tal).errStat.getLsbD Bit.talOdo = true ∧
      (∃ e, t.safe = { s.safe with inbox := s.safe.inbox ++ [e] } ∧ e.cause = Cause.odometer) ∧
      PageFrame { s with tal := t.tal, safe := t.safe } t)) ∧
    (illegalStep s.tal.odoA s.tal.odoB a b = false → ∀ p, s.tal.stepTo a b = p →
      ((s.tal.grid = none ∨ p ≤ s.tal.highWater ∨ ∃ g, s.tal.grid = some g ∧ (p - g) % (s.tal.odoCpl : Int) ≠ 0) →
        Completes (.odoFilteredSample a b) s (fun t =>
          t = { s with tal := { s.tal with
            pos := p, odoA := a, odoB := b, reverse := s.tal.grid.isSome && decide (p < s.tal.highWater)
            highWater := if s.tal.grid.isSome then max s.tal.highWater p else s.tal.highWater } })) ∧
      (∀ g, s.tal.grid = some g → s.tal.highWater < p → (p - g) % (s.tal.odoCpl : Int) = 0 → s.boot.ingressClosed = false →
        s.tal.tooSoon = false → Completes (.odoFilteredSample a b) s (fun t =>
          (∃ delay, t.outs = s.outs ++ [.trigger s.tal.cams delay]) ∧ t.tal.pos = p ∧ t.tal.highWater = p ∧ t.tal.reverse = false ∧
          t.tal.lastTrig = some s.tal.time ∧ t.tal.flagOdo = false ∧ t.tal.flagSpeed = false ∧
          (∀ id st, s.stream? id = some st → st.armed = true → st.decl.kind = 0 → ∃ st' l it, t.stream? id = some st' ∧
            l ∈ st'.lines ∧ l.seq = st.nextSeq ∧ l.trigAt = s.tal.time ∧ it ∈ st'.items ∧ it.seq = st.nextSeq ∧
            it.causes = s.tal.lineCauses ∧ st.nextSeq < st'.nextSeq) ∧
          (∀ id, id ∉ s.lineIds → t.stream? id = s.stream? id) ∧
          t = { s with tal := t.tal, streams := t.streams, outs := t.outs, free := t.free })))

/-- When a legal sample crosses a trigger position less than TAL_ODO_MINPER after the last issued trigger, with
ingress open, no trigger is sent, TAL_ODO_SKIPPED counts the position, SAFE receives a report of overspeed, and the
next line that is issued carries the overspeed cause: the mark for it stays until a trigger is issued. A sample
sends a trigger only when it crosses a trigger position itself, not too soon; so no trigger is delayed. -/
def Obligations.OverspeedSkipsTheTrigger : Prop :=
  (∀ (s : State) (a b : Bool) (g : Int), (s.hdr .tal).inj = 0 → illegalStep s.tal.odoA s.tal.odoB a b = false →
    s.tal.grid = some g → s.tal.highWater < s.tal.stepTo a b → (s.tal.stepTo a b - g) % (s.tal.odoCpl : Int) = 0 →
    s.boot.ingressClosed = false →
    ((∃ x, s.tal.lastTrig = some x ∧ s.tal.time < x + s.tal.odoMinPer) → Completes (.odoFilteredSample a b) s (fun t =>
      (∀ c d, ¬ Sends s t (.trigger c d)) ∧ t.tal.skipped = sat32 (s.tal.skipped + 1) ∧ t.tal.lastTrig = s.tal.lastTrig ∧
      (∃ e, t.safe = { s.safe with inbox := s.safe.inbox ++ [e] } ∧ e.cause = Cause.overspeed) ∧
      t.tal.flagSpeed = true ∧ Cause.overspeed ∈ t.tal.lineCauses)) ∧
    ((∀ x, s.tal.lastTrig = some x → x + s.tal.odoMinPer ≤ s.tal.time) → s.tal.flagSpeed = true →
      Completes (.odoFilteredSample a b) s (fun t => (∃ d, Sends s t (.trigger s.tal.cams d)) ∧
        ∀ id st, s.stream? id = some st → st.armed = true → st.decl.kind = 0 → ∃ st' it, t.stream? id = some st' ∧
          it ∈ st'.items ∧ it.seq = st.nextSeq ∧ Cause.overspeed ∈ it.causes))) ∧
  (∀ (s t : State) (a b : Bool) (c d : Nat), exec (.odoFilteredSample a b) s = .next t → Sends s t (.trigger c d) →
    ∃ g, s.tal.grid = some g ∧ s.tal.highWater < t.tal.pos ∧ (t.tal.pos - g) % (s.tal.odoCpl : Int) = 0 ∧
      s.tal.tooSoon = false)

/-- With nothing waiting inside the device, the end of an alignment wait releases every set of the group whose
reference plus L has come, and no other; when none is due nothing changes. A set released with a member missing
counts in TAL_GRP_PARTIAL. Members, W, L and the mandatory mask of the group stay, and so does every other group. -/
def Obligations.AlignmentSetsLeaveAtTheirTime : Prop :=
  ∀ (s : State) (g : GroupNum), NoneWaits s →
    Completes (.alignWaitTimeout g) s (fun t =>
      (Tab.get t.tal.groups {} g.val).sets =
        (Tab.get s.tal.groups {} g.val).sets.filter (fun y => s.tal.time < y.reference + (Tab.get s.tal.groups {} g.val).l) ∧
      (Tab.get t.tal.groups {} g.val).members = (Tab.get s.tal.groups {} g.val).members ∧
      (Tab.get t.tal.groups {} g.val).w = (Tab.get s.tal.groups {} g.val).w ∧
      (Tab.get t.tal.groups {} g.val).l = (Tab.get s.tal.groups {} g.val).l ∧
      (Tab.get t.tal.groups {} g.val).mandatory = (Tab.get s.tal.groups {} g.val).mandatory ∧
      (∀ k, k ≠ g.val → Tab.find t.tal.groups k = Tab.find s.tal.groups k) ∧
      (∀ set, (Tab.get s.tal.groups {} g.val).sets = [set] → set.reference + (Tab.get s.tal.groups {} g.val).l ≤ s.tal.time →
        (Tab.get t.tal.groups {} g.val).partials =
          if ((Tab.get s.tal.groups {} g.val).lacks set).isEmpty then (Tab.get s.tal.groups {} g.val).partials
          else sat32 ((Tab.get s.tal.groups {} g.val).partials + 1)) ∧
      ((∀ y ∈ (Tab.get s.tal.groups {} g.val).sets, s.tal.time < y.reference + (Tab.get s.tal.groups {} g.val).l) → t = s) ∧
      SameDram s t)

/-- With nothing waiting inside the device and no injection armed in PPE: a JLS_DECODE for a free decoder, of a
stream with a job that takes samples, an adaptation job none before those it has been fed, whose header is
acceptable and whose output pool has a free buffer, starts the decode in that buffer; a header that is not
acceptable is rejected, counted and shown with its reason. A decode that ends well frees the decoder and counts as
done, and the job goes on to the next sample (a reading of the model, log entry 84); one cut short or with trailing
bytes frees the decoder and is rejected with reason 2 or 3. TOKENISE sends the token IDs of an input that stays
within the stream's maximum, and rejects another one. -/
def Obligations.DecodersAndTokeniserComplete : Prop :=
  (∀ (s : State) (d : Fin 4) (id : StreamId) (sample : Nat) (h : JlsHeader) (st : Stream), NoneWaits s → (s.hdr .ppe).inj = 0 →
    Tab.find s.ppe.decoders d.val = none → s.stream? id = some st →
    (∃ j, st.feeding = some j ∧ (j.adapt = true → j.sample ≤ sample)) →
    (headerReason s st h = 0 → ∀ (l : Link) (x : W64) (s1 : State), ingressLink s st 0 = some l →
      allocFrom .ppe (l.ends 0).1 0 s = .got x s1 → Completes (.jlsDecode d id sample h) s (fun t =>
        ∃ y, Tab.find t.ppe.decoders d.val = some y ∧ y.stream = id ∧ y.sample = sample ∧ y.handle = x ∧ y.cut = false ∧
          y.queue = (l.ends 0).2 ∧ y.len = imageBytes h ∧ t.ppe.jlsReject = s.ppe.jlsReject ∧ t.streams = s.streams ∧
          SameDram s t)) ∧
    (∀ r, headerReason s st h = r → r ≠ 0 → Completes (.jlsDecode d id sample h) s (fun t =>
      t.ppe.jlsReject = sat32 (s.ppe.jlsReject + 1) ∧ t.ppe.jlsReason = r ∧ t.ppe.jlsStream = (id : Nat) % 65536 ∧
      Tab.find t.ppe.decoders d.val = none ∧ (t.hdr .ppe).errStat.getLsbD (reasonBit r) = true ∧ SameMemory s t))) ∧
  (∀ (s : State) (d : Fin 4) (y : Decoder), NoneWaits s → Tab.find s.ppe.decoders d.val = some y →
    (∀ st j, y.cut = false → s.stream? y.stream = some st → st.feeding = some j → Completes (.jlsDecodeDone d .complete) s (fun t =>
      t.ppe = { s.ppe with decoders := Tab.erase s.ppe.decoders d.val, jlsDone := sat32 (s.ppe.jlsDone + 1) } ∧
      (∃ st', t.stream? y.stream = some st' ∧ st'.feeding = some { j with sample := max j.sample (y.sample + 1) }) ∧
      OtherStreams y.stream s t ∧ SameDram s t)) ∧
    (∀ how : JlsEnd, (y.cut = true ∨ how ≠ .complete) → Completes (.jlsDecodeDone d how) s (fun t =>
      t.ppe.decoders = Tab.erase s.ppe.decoders d.val ∧ t.ppe.jlsReject = sat32 (s.ppe.jlsReject + 1) ∧
      t.ppe.jlsReason = (if y.cut = true ∨ how = .truncated then 2 else 3) ∧ SameDram s t))) ∧
  (∀ (s : State) (id : StreamId) (sample : Nat) (input : List Byte) (st : Stream) (v : List (List Byte × Nat)), NoneWaits s →
    s.stream? id = some st → vocabOf s st = some v →
    ((tokens v input.length input).length ≤ st.decl.maxTokens → Completes (.tokenise id sample input) s (fun t =>
      t = { s with outs := s.outs ++ [.tokens id (tokens v input.length input)], streams := t.streams,
                   ppe := { s.ppe with tokDone := sat32 (s.ppe.tokDone + 1) } } ∧ OtherStreams id s t ∧
      (∀ j, st.feeding = some j → ∃ st', t.stream? id = some st' ∧
        st'.feeding = some { j with sample := max j.sample (sample + 1) }))) ∧
    (st.decl.maxTokens < (tokens v input.length input).length → Completes (.tokenise id sample input) s (fun t =>
      t.ppe.tokReject = sat32 (s.ppe.tokReject + 1) ∧ (t.hdr .ppe).errStat.getLsbD Bit.ppeTok = true ∧
      (∀ ids, ¬ Sends s t (.tokens id ids)) ∧ SameMemory s t)))

/-- On a core that may start a unit, the first unit in the order of R279 that may start, which is ready and whose
block, where its layer is batched, is due, starts: it leaves the ready list, runs from now with its inputs, and the
core is in RUN unless an input has not arrived. Without a batcher its declared time is charged to the budget of its
context; with one only units of its block join it. On a core that may not start a unit, or without such a unit,
nothing changes. With nothing waiting inside the device, a unit whose verdicts are in, whose writes have completed,
without an output left to push and with no free queue of its inputs HELD ends: the core is IDLE without a unit, the
unit's time is shown, and the next unit of the same stage, if any, is ready there; a record unit outside TRIPLEX
forms the record of its item with the payload that its program has left and the current placement epoch, and one of
a copy keeps that payload for the vote. Of other units only the time from which their wait counts may change. A tile
that is to run again stays, as its one re-execution, from its first unit, with no output and no accumulator entry,
and with the weight sets of its stage loaded anew. -/
def Obligations.UnitsStartAndComplete : Prop :=
  (∀ (s : State) (n : CoreNum) (boxes : List (List Byte)),
    (∀ u, s.mayStart n.val = true → firstUnit ((s.core n.val).ready.filter (startable s n.val)) = some u →
      Completes (.unitStart n boxes) s (fun t =>
        (∃ v, (t.core n.val).run = some v ∧ v.order = u.order ∧ v.inputs = u.inputs ∧ v.seq = u.seq ∧ v.stream = u.stream ∧
          v.startAt = s.clock) ∧
        (t.core n.val).ready.map (·.order) = ((s.core n.val).ready.map (·.order)).filter (· != u.order) ∧
        ((t.core n.val).seq = .run ∨ (t.core n.val).seq = .wait) ∧
        ((∀ h ∈ u.inputs, slotWindow s n.val h = none) → (t.core n.val).seq = .run) ∧
        (batched s u = none → (t.core n.val).ready = (s.core n.val).ready.filter (fun v => v.order != u.order) ∧
          (t.ctx u.ctx).budgetLeft =
            (if (s.ctx u.ctx).budget.isSome then (s.ctx u.ctx).budgetLeft - u.wcet else (s.ctx u.ctx).budgetLeft)) ∧
        (∀ v ∈ (t.core n.val).ready, v ∈ (s.core n.val).ready ∨ (v.joined = true ∧ ∃ w ∈ batchOf s n.val u, w.order = v.order)) ∧
        OtherCores n.val s t ∧ SameMemory s t)) ∧
    ((s.mayStart n.val = false ∨ (s.core n.val).ready.filter (startable s n.val) = []) →
      Completes (.unitStart n boxes) s (fun t => t = s))) ∧
  (∀ (s : State) (n : CoreNum) (payload : List Byte) (u : UnitInst), NoneWaits s → (s.core n.val).run = some u →
    ((s.core n.val).seq = .run ∨ (s.core n.val).seq = .drain) → s.pwr.stopped = false → s.waitOf n.val = none →
    (mustRerun s u = true → (s.hdr (.core n)).inj = 0 → Completes (.unitComplete n payload) s (fun t =>
      (∃ v, (t.core n.val).run = some v ∧ v.rerun = 1 ∧ v.order = u.order ∧ v.seq = u.seq ∧ v.tile = u.tile ∧ v.retry = u.owed ∧
        v.startAt = s.clock ∧ v.unit = 0 ∧ v.outputs = []) ∧ (t.core n.val).acc = [] ∧
      (∀ k e, Tab.find (s.core n.val).wsets k = some e → e.slot = u.slot →
        ∃ w, Tab.find (t.core n.val).wsets k = some w ∧ w.slot = u.slot) ∧
      (u.outputs = [] → OtherCores n.val s t) ∧ SameMemory s t)) ∧
    (mustRerun s u = false → mayEnd s n.val u = true → u.outputs = [] →
      (∀ v, nextUnit s u = some v → (∀ x ∈ (s.core n.val).ready, x.joined = false) → u.joined = false →
        Completes (.unitComplete n payload) s (fun t => (t.core n.val).run = none ∧ (t.core n.val).seq = .idle ∧
          (t.core n.val).untimed.ready = ({ s.core n.val with ready := v :: (s.core n.val).ready } : CoreSt).untimed.ready ∧
          (t.core n.val).unitLast = sat32 (s.clock - u.startAt) ∧
          (∀ m, m ≠ n.val → (t.core m).untimed = (s.core m).untimed) ∧ SameMemory s t)) ∧
      (nextUnit s u = none → (∀ x ∈ (s.core n.val).ready, x.joined = false) → s.qmg.frozen = false →
        (∀ h ∈ u.inputs, ∀ pl, s.pool? (ofHandle h).pool = some pl → (s.queue pl.freeQueue).state ≠ .held) →
        Completes (.unitComplete n payload) s (fun t => (t.core n.val).run = none ∧ (t.core n.val).seq = .idle ∧
          (t.core n.val).untimed.ready = (s.core n.val).untimed.ready ∧ (t.core n.val).unitLast = sat32 (s.clock - u.startAt) ∧
          (t.core n.val).unitMax = max (s.core n.val).unitMax (sat32 (s.clock - u.startAt)) ∧ SameMemory s t ∧
          (∀ st it, s.stream? u.stream = some st → u.record = true → u.last = true → st.cls ≠ .triplex →
            st.item? u.seq = some it → ∃ st' r, t.stream? u.stream = some st' ∧ st'.item? u.seq = none ∧ r ∈ st'.formed ∧
              r.seq = u.seq ∧ r.payload = outputBytes s n.val u payload ∧ r.stamp = it.stamp ∧ r.placeEpoch = s.ctl.placeEpoch) ∧
          (∀ st, s.stream? u.stream = some st → u.record = true → u.last = true → st.cls = .triplex →
            ∃ x ∈ t.qmg.shown, x.stream = u.stream ∧ x.copy = u.copy ∧ x.seq = u.seq ∧
              x.payload = outputBytes s n.val u payload)))))

/-- While a unit runs on the core, a load whose words all lie below the reserved region, and not of a transposed
product of 32 rows or more, puts the set that the load path forms from what is stored there, with its checksum
column, into the chosen set of each array that it fills, and changes no other set, scratchpad word or core; another
load stops the unit and faults the core, and so does an uncorrectable error of a word read, which is poisoned. A row
that is not malformed, with no injection armed, no poisoned word and a good accumulator read, enters the foot unit
of its array with the 33 sums that the row former and the array give it; when the comparator agrees no ABFT event is
counted, and when it does not, the first event in the unit is counted, shown and flagged. In SHARE_X the row enters
all four arrays. A malformed row, and one that reads the reserved region, faults the core. -/
def Obligations.ArrayCommandsComplete : Prop :=
  ∀ (s : State) (n : CoreNum) (a : Fin 4), s.unitRuns n.val = true →
    (∀ (setB : Bool) (src : WeightRead) (c : CoreSt) (l : Option LayerDecl) (p : WeightSet × List (Nat × Nat)),
      (s.core n.val).drain = c → runLayer s n.val = l →
      formSet c (runDecl s n.val) l (Tab.get c.fmt 0 a.val) src.base src.block setB (loadsThird c a.val (Tab.get c.fmt 0 a.val) setB)
        ((c.run.map (·.slot)).getD 0xFFFF) ((c.run.map (·.unit)).getD 0) = p →
      ((∀ r ∈ p.2, r.1 + r.2 ≤ 0x7C000) → (∀ x, l = some x → x.transposed = true → x.rowsM < 32) →
        ((s.hdr (.core n)).inj = 0 → src.upset = .clean → Completes (.weightSetLoad n a setB src) s (fun t =>
          (∀ b ∈ loadTargets c a.val, Tab.find (t.core n.val).wsets (2 * b + (if setB then 1 else 0)) = some p.1) ∧
          (∀ k, (∀ b ∈ loadTargets c a.val, k ≠ 2 * b + (if setB then 1 else 0)) →
            Tab.find (t.core n.val).wsets k = Tab.find (s.core n.val).wsets k) ∧
          (c.spPoison = [] → t.core n.val = { s.core n.val with wsets := (t.core n.val).wsets }) ∧
          OtherCores n.val s t ∧ SameScratchpads s t ∧ t = { s with cores := t.cores })) ∧
        (∀ w, src.upset = .uncorrectable →
          ((rangeWords p.2).filter (fun w => ((s.core n.val).buffered w).isNone))[src.upsetAt]? = some w →
          Completes (.weightSetLoad n a setB src) s (fun t =>
            (t.core n.val).run = none ∧ (t.core n.val).seq = .faulted ∧ t.spWord n.val w = poisonWord ∧
            (t.hdr (.core n)).errStat.getLsbD Bit.coreEccUncorr = true ∧ SameDram s t))) ∧
      ((∃ r ∈ p.2, 0x7C000 < r.1 + r.2) ∨ (∃ x, l = some x ∧ x.transposed = true ∧ 32 ≤ x.rowsM) →
        Completes (.weightSetLoad n a setB src) s (fun t =>
          (t.core n.val).run = none ∧ (t.core n.val).seq = .faulted ∧
          (t.hdr (.core n)).errStat.getLsbD Bit.coreIllegal = true ∧ SameMemory s t))) ∧
    (∀ (row : ArrayRow) (u : UnitInst) (c : CoreSt) (d : UnitDecl) (g : RowForm), (s.core n.val).run = some u →
      (s.core n.val).drain = c → (unitDeclOf s u).getD { wcet := 0 } = d → rowForm s n.val u d = g →
      (((rowTargets c.gang a.val).any (fun b => rowMalformed c d g b (Tab.get c.fmt 0 b) row) = true ∨
          ∃ o ∈ (formRow c g a.val (Tab.get c.fmt 0 a.val) row).operands, ∃ w, o.word? = some w ∧ 0x7C000 ≤ w) →
        Completes (.arrayRowVerdict n a row) s (fun t =>
          (t.core n.val).run = none ∧ (t.core n.val).seq = .faulted ∧ SameMemory s t)) ∧
      (∀ f r y, Tab.get c.fmt 0 a.val = f → formRow c g a.val f row = r →
        (rowTargets c.gang a.val).any (fun b => rowMalformed c d g b (Tab.get c.fmt 0 b) row) = false →
        (∀ o ∈ r.operands, ∀ w, o.word? = some w → w < 0x7C000) → (∀ w, rowEntry d g f row = some w → w + 2 ≤ 0x7C000) → (s.hdr (.core n)).inj = 0 → row.upset = .clean →
        row.accOk = true → c.spPoison = [] → disturb f (rowSums c d g a.val row) row.fault = y →
        (c.gang ≠ 2 → mismatch f c.relShift c.absExp y = false → Completes (.arrayRowVerdict n a row) s (fun t =>
          (∃ busy, 1 ≤ busy ∧ busy ≤ 65 ∧
            t.core n.val = { footTake f a.val r.foot y ((s.core n.val).noteRow c d g a.val busy row) with
              run := some { u with owesPiece := true } }) ∧
          OtherCores n.val s t ∧ t = { s with cores := t.cores, free := t.free })) ∧
        (c.gang ≠ 2 → mismatch f c.relShift c.absExp y = true → u.abft = false → Completes (.arrayRowVerdict n a row) s (fun t =>
          (t.core n.val).abftEvents = sat32 ((s.core n.val).abftEvents + 1) ∧
          (t.core n.val).abftLast = abftLastWord f a.val r.foot ∧
          (∃ v, (t.core n.val).run = some v ∧ v.abft = true ∧ Cause.abft ∈ v.causes) ∧
          (t.hdr (.core n)).errStat.getLsbD Bit.coreAbft = true ∧ OtherCores n.val s t ∧ SameMemory s t)) ∧
        (c.gang = 2 → Completes (.arrayRowVerdict n a row) s (fun t =>
          (∀ b < 4, Tab.find (t.core n.val).steps (b * 512 + row.entry) =
            some (formRow c g b (Tab.get c.fmt 0 b) row).next) ∧
          OtherCores n.val s t ∧ SameMemory s t))))

/-- In an integer format, for every weight set of rows of 32 operands loaded with its checksum column and every row
of operands: the comparator agrees on the 33 values of an undisturbed row, and reports a mismatch on every row in
which one of the 33 values is off by any amount but 0. -/
def Obligations.IntegerChecksumCatchesEveryFault : Prop :=
  ∀ (f : Nat) (rows : List (List Int)) (xs : List Int) (relShift absExp : Nat), fmtFloat f = false →
    (∀ r ∈ rows, r.length = 32) →
    mismatch f relShift absExp (outputRow f (weightSet f rows) xs) = false ∧
    ∀ (j : Nat) (d : Int), j ≤ 32 → d ≠ 0 →
      mismatch f relShift absExp (disturb f (outputRow f (weightSet f rows) xs) (some (j, d))) = true

/-- While a unit runs, a well-formed instruction of the bundle that round-robin order picks, without a parity error
and with no injection armed, that stores nothing, writes its result into the destination register of each strand of
the bundle that the unit has, and no other register of any strand; the bundle is the last that issued and
CORE_VEC_BUSY counts. A store of lane 0 writes its register to a word that the unit may write, and no other word. A
parity error on an instruction that reads the strand file faults the core, one on a read of the accumulator flags
the unit, and a malformed instruction faults the core. With no bundle ready, or no unit running, nothing changes. -/
def Obligations.VectorIssueWritesItsBundle : Prop :=
  ∀ (s : State) (n : CoreNum) (ready : List (Fin 128)) (o : VecOp) (v : VecUnit) (c : CoreSt), vecUnit s n.val = v →
    (s.core n.val).drain = c →
    (∀ b, s.unitRuns n.val = true →
      pickBundle (s.core n.val).lastBundle ((ready.map (·.val)).filter (· < (s.core n.val).bundles)) = some b →
      (vecMalformed v o = false → (s.hdr (.core n)).inj = 0 →
        ((∀ a w, o ≠ .store a w) → (∀ a f w, o ≠ .storeLanes a f w) → (∀ a f w g, o ≠ .storeUpdate a f w g) →
          (∀ a f x base words off, o ≠ .storeCrop a f x base words off) → (∀ d base len dst, o ≠ .rowScale d base len dst) →
          (∀ d base len dst g, o ≠ .rowScaleUpdate d base len dst g) →
          Completes (.vectorIssue n ready o { parityOk := true }) s (fun t =>
            (∀ lane < 64, ∀ d x, b * 64 + lane < c.strands → laneResult v c (b * 64 + lane) lane o = some (d, x) →
              (t.core n.val).reg (b * 64 + lane) d = x) ∧
            (∀ (k : Nat) (r : Fin 8), (∀ lane < 64, k = b * 64 + lane → k < c.strands →
                ∀ d x, laneResult v c k lane o = some (d, x) → r ≠ d) →
              (t.core n.val).reg k r = (s.core n.val).reg k r) ∧
            (t.core n.val).lastBundle = b ∧ (t.core n.val).vecBusy = sat32 ((s.core n.val).vecBusy + 1) ∧
            OtherCores n.val s t ∧ SameScratchpads s t ∧ t = { s with cores := t.cores })) ∧
        (∀ a w, o = .store a w → v.held = false → (s.core n.val).unitMayWrite w = true →
          Completes (.vectorIssue n ready o { parityOk := true }) s (fun t => t.spWord n.val w = c.reg (b * 64) a ∧
            (∀ k, k ≠ w → t.spWord n.val k = s.spWord n.val k) ∧ OtherCores n.val s t ∧ t = { s with cores := t.cores })) ∧
        (∀ a, readsStrand o = false → readsAcc o = some a → Completes (.vectorIssue n ready o { parityOk := false }) s (fun t =>
          (∃ u, (t.core n.val).run = some u ∧ Cause.accCheck ∈ u.causes) ∧
          (t.hdr (.core n)).errStat.getLsbD Bit.coreAcc = true ∧ OtherCores n.val s t ∧ SameMemory s t))) ∧
      (vecMalformed v o = false → readsStrand o = true → ∀ up k, Completes (.vectorIssue n ready o ⟨false, up, k⟩) s (fun t =>
        (t.core n.val).run = none ∧ (t.core n.val).seq = .faulted ∧ (t.core n.val).faultCause = Cause.strandFault ∧
        (t.hdr (.core n)).errStat.getLsbD Bit.coreStrand = true ∧ SameMemory s t)) ∧
      (vecMalformed v o = true → ∀ checks, Completes (.vectorIssue n ready o checks) s (fun t =>
        (t.core n.val).run = none ∧ (t.core n.val).seq = .faulted ∧
        (t.hdr (.core n)).errStat.getLsbD Bit.coreIllegal = true ∧ SameMemory s t))) ∧
    ((s.unitRuns n.val = false ∨
        pickBundle (s.core n.val).lastBundle ((ready.map (·.val)).filter (· < (s.core n.val).bundles)) = none) →
      ∀ checks, Completes (.vectorIssue n ready o checks) s (fun t => t = s))

/-- A unit that has run longer than declared is marked and reported once, with ERR_STAT.UNIT_OVERRUN, and on a
safety stream its item is invalidated; one that has not leaves everything as it is. With nothing waiting inside the
device, firmware stops a hung unit and the core is FAULTED; a FAULTED core completes its oldest delivered item where
that is a record unit's or its stream is gone. A drain request stands and turns RUN into DRAIN. A wait on an arrival
counter ends once the count is reached, and not before. A FAULTED core whose self-test slice passes returns to IDLE;
one whose slice fails stays, with the report of a permanent fault. -/
def Obligations.CoreSupervisionComplete : Prop :=
  ∀ (s : State) (n : CoreNum),
    (∀ u, (s.core n.val).run = some u → u.overrun = false → u.startAt + u.wcet < s.clock → Completes (.unitOverrun n) s (fun t =>
      (∃ v, (t.core n.val).run = some v ∧ v.overrun = true ∧ v.order = u.order) ∧
      ((∀ st, s.stream? u.stream = some st → st.cls ≠ .triplex) →
        t.core n.val = { s.core n.val with run := some { u with overrun := true } } ∧ OtherCores n.val s t) ∧
      (t.hdr (.core n.val)).errStat.getLsbD Bit.coreOverrun = true ∧
      (∃ e, t.safe.inbox = s.safe.inbox ++ [e] ∧ e.unit = n.val ∧ e.cause = Cause.unitOverrun ∧ e.seq = u.seq) ∧
      (∀ st, s.stream? u.stream = some st → isSafety st.cls = true → t.safe.invOut = s.safe.invOut ++
        [{ target := .stream u.stream, scope := .item u.seq, cause := Cause.unitOverrun }]) ∧
      SameMemory s t)) ∧
    ((∀ u, (s.core n.val).run = some u → u.overrun = true ∨ s.clock ≤ u.startAt + u.wcet) →
      Completes (.unitOverrun n) s (fun t => t = s)) ∧
    (∀ u, NoneWaits s → (s.core n.val).run = some u → isHung s n.val u = true → Completes (.hangStop n) s (fun t =>
      (t.core n.val).run = none ∧ (t.core n.val).seq = .faulted ∧ (t.core n.val).faultCause = Cause.faultStop ∧
      (t.hdr .dbg).errStat.getLsbD Bit.dbgHang = true ∧ SameMemory s t)) ∧
    Completes (.drainRequest n) s (fun t =>
      t.core n.val = { s.core n.val with
        drainReq := true, seq := if (s.core n.val).seq = .run then .drain else (s.core n.val).seq } ∧
      OtherCores n.val s t ∧ t = { s with cores := t.cores }) ∧
    (∀ w c, s.waitOf n.val = some (.window w c) →
      (c ≤ ((s.core n.val).window w).arrived → Completes (.windowWaitEnd n) s (fun t =>
        (∀ x ∈ t.qmg.waiters, ¬ (x.core = n.val ∧ x.on = .window w c)) ∧
        t.core n.val = (if (s.core n.val).seq = .wait then { s.core n.val with seq := (s.core n.val).afterWait } else s.core n.val) ∧
        OtherCores n.val s t ∧ t = { s with cores := t.cores, qmg := t.qmg })) ∧
      (((s.core n.val).window w).arrived < c → Completes (.windowWaitEnd n) s (fun t => t = s))) ∧
    (∀ u rest, NoneWaits s → (s.core n.val).seq = .faulted → (s.core n.val).ready = u :: rest →
      (u.record = true ∨ s.stream? u.stream = none) → Completes (.faultedItem n) s (fun t =>
        (t.core n.val).ready = rest ∧ (t.core n.val).seq = .faulted ∧ SameMemory s t ∧
        (∀ st it, s.stream? u.stream = some st → u.last = true → st.cls ≠ .triplex → st.item? u.seq = some it →
          ∃ st' r, t.stream? u.stream = some st' ∧ st'.item? u.seq = none ∧ r ∈ st'.formed ∧ r.seq = u.seq))) ∧
    ((s.core n.val).seq = .faulted →
      Completes (.coreRecovery n true) s (fun t => (t.core n.val).seq = .idle ∧ (t.core n.val).faultCause = 0 ∧
        OtherCores n.val s t ∧ SameDram s t) ∧
      Completes (.coreRecovery n false) s (fun t => (t.core n.val).seq = .faulted ∧ OtherCores n.val s t ∧ SameDram s t ∧
        ∃ e, t.safe.inbox = s.safe.inbox ++ [e] ∧ e.unit = n.val ∧ e.permanent = true))

/-- For a writer other than ING at a slot of its stream: a write, or the trailer of a piece, that the limit of its
queue, the forward map, the rules of a trailer, the write buffer or the mesh holds back changes nothing. One that
goes and finds its window open, of a live epoch, of its generation and partition, in range and short of its target,
enters the write buffer with its poison tags and is counted by its window, which closes at its target; nothing else
changes but the transfers of its queue, the piece in progress and, for a trailer, that the unit owes none. A refused
write stores nothing, gets a NACK, and leaves writer and reason with the window. A write to a core that is cut off
gets a NACK and stores nothing. With nothing waiting inside the device, a write of ING that goes and is not refused
enters the write buffer all the same. A transfer that returns without data counts down the transfers of its queue,
when no fetch waits for it, and changes nothing when none is outstanding. Data of a cancelled epoch go into a sink,
and those for a core that is cut off get a NACK; without room or plane data wait. Data that pass every check enter
the write buffer of their core; data of another generation flag the unit with STALE_HANDLE; a fill outside the
working region stores nothing and is a malformed program. A piece whose check value and status word are good is
noted as checked, a flagged one flags the unit too, and one that fails its check flags it with E2E_CHECK; one in the
reserved region is a malformed program, and one of a stale handle flags the unit with STALE_HANDLE. -/
def Obligations.RemoteWritesAndTransfersComplete : Prop :=
  (∀ (s : State) (a : Agent) (n : CoreNum) (w : Fin 256) (gen : Byte) (addr : Nat) (data : WriteBeat) (x : Window) (ws : List W32),
    (s.core n.val).window w.val = x → sentWords a n.val w.val data.words data.trailer s = ws →
    (a ≠ .ingress ∨ itemOfWindow s n.val w.val = none →
      (writeGoes s a n.val w.val addr data.trailer ws.length x.part = false → Completes (.remoteWrite a n w gen addr data) s (fun t => t = s)) ∧
      (writeGoes s a n.val w.val addr data.trailer ws.length x.part = true →
        (s.unreachable n.val = true → Completes (.remoteWrite a n w gen addr data) s (fun t =>
          Sends s t (.nack (agentUnit a)) ∧ (∀ m, (t.core m).wbuf = (s.core m).wbuf ∧ (t.core m).windows = (s.core m).windows) ∧
          SameMemory s t ∧ t = { s with outs := t.outs, qmg := t.qmg, mesh := t.mesh, cores := t.cores })) ∧
        (s.unreachable n.val = false →
          (refusedAt s x gen.toNat (writerPart s a x) addr ws.length = none →
            Completes (.remoteWrite a n w gen addr data) s (fun t =>
              t.core n.val = { (s.core n.val).modWindow w.val (fun x => x.count (beatCount addr ws.length) data.trailer) with
                wbuf := (s.core n.val).wbuf ++
                  (ws.zipIdx).map (fun d => (addr + d.2, d.1, !data.trailer && data.poison.contains d.2)),
                run := (t.core n.val).run } ∧
              (data.trailer = false ∨ a ≠ .core n → (t.core n.val).run = (s.core n.val).run) ∧
              (∀ c, a = .core c → data.trailer = true →
                (t.core c.val).run = (s.core c.val).run.map (fun u => { u with owesPiece := false })) ∧
              (∀ m, m ≠ n.val → (data.trailer = false ∨ ∀ c, a = .core c → m ≠ c.val) → t.core m = s.core m) ∧
              t = { s with cores := t.cores, qmg := t.qmg, mesh := t.mesh })) ∧
          (∀ reason, refusedAt s x gen.toNat (writerPart s a x) addr ws.length = some reason →
            Completes (.remoteWrite a n w gen addr data) s (fun t =>
              Sends s t (.nack (agentUnit a)) ∧ (t.core n.val).window w.val = x.refuse (agentUnit a) reason ∧
              (t.core n.val).wbuf = (s.core n.val).wbuf ∧ SameMemory s t ∧
              (∀ c, a = .core c → (t.hdr (.core c.val)).errStat.getLsbD Bit.coreClosed = true)))))) ∧
    (a = .ingress → NoneWaits s → writeGoes s a n.val w.val addr data.trailer ws.length x.part = true → s.unreachable n.val = false →
      refusedAt s x gen.toNat (writerPart s a x) addr ws.length = none → Completes (.remoteWrite a n w gen addr data) s (fun t =>
        (t.core n.val).wbuf = (s.core n.val).wbuf ++
          (ws.zipIdx).map (fun d => (addr + d.2, d.1, !data.trailer && data.poison.contains d.2)) ∧ SameDram s t))) ∧
  (∀ (s : State) (n : CoreNum) (q : QueueNum), NoneWaits s →
    (∀ r ∈ [XferResult.done, .nack],
      ((∀ x ∈ s.qmg.transfers, ¬ (x.core = n.val ∧ x.queue = q.val)) → Completes (.transferComplete n q r) s (fun t => t = s)) ∧
      (∀ x, (s.qmg.transfers.find? (fun x => x.core == n.val && x.queue == q.val && x.handle.isNone)).or
            (s.qmg.transfers.find? (fun x => x.core == n.val && x.queue == q.val)) = some x →
        (∀ f ∈ s.qmg.fetches, f.queue ≠ q.val) → Completes (.transferComplete n q r) s (fun t =>
          (t.queue q.val).outCount = (s.queue q.val).outCount - 1 ∧ (∀ k, k ≠ q.val → t.queue k = s.queue k) ∧
          t.qmg.transfers = s.qmg.transfers.erase x ∧ t = { s with qmg := t.qmg }))) ∧
    (∀ (h : W64) (dest : Nat) (data : List W32) (poison : List Nat) (b : Buffer),
      s.buffer (ofHandle h).pool (ofHandle h).index = b →
      (s.epochCancelled (readEpoch s n.val q.val h) = true →
        Completes (.transferComplete n q (.read h dest data poison)) s (fun t => t = { s with qmg := t.qmg })) ∧
      (s.epochCancelled (readEpoch s n.val q.val h) = false →
        (s.unreachable n.val = true → Completes (.transferComplete n q (.read h dest data poison)) s (fun t =>
          Sends s t (.nack n.val) ∧ t = { s with qmg := t.qmg, outs := t.outs })) ∧
        (s.unreachable n.val = false →
          (planeNow s (n.val * 2 ^ 19 + dest) false = none ∨ (s.core n.val).bufferRoom dest data.length = false →
            Completes (.transferComplete n q (.read h dest data poison)) s (fun t => t = s)) ∧
          (∀ plane, planeNow s (n.val * 2 ^ 19 + dest) false = some plane → (s.core n.val).bufferRoom dest data.length = true →
            ((s.core n.val).inWorking dest data.length = false →
              Completes (.transferComplete n q (.read h dest data poison)) s (fun t =>
                (t.hdr (.core n.val)).errStat.getLsbD Bit.coreIllegal = true ∧ (t.core n.val).run = none ∧
                (t.core n.val).wbuf = (s.core n.val).wbuf ∧ SameMemory s t)) ∧
            ((s.core n.val).inWorking dest data.length = true →
              ((ofHandle h).gen = b.gen → dataBad (ofHandle h) b ((s.core n.val).got h) (bytesOf data) = false → poison = [] →
                Completes (.transferComplete n q (.read h dest data poison)) s (fun t =>
                  t.core n.val = { s.core n.val with
                    wbuf := (s.core n.val).wbuf ++ (data.zipIdx).map (fun d => (dest + d.2, d.1, false)),
                    reading := (t.core n.val).reading } ∧
                  OtherCores n.val s t ∧ t = { s with cores := t.cores, qmg := t.qmg })) ∧
              ((ofHandle h).gen ≠ b.gen → Completes (.transferComplete n q (.read h dest data poison)) s (fun t =>
                (t.hdr (.core n.val)).errStat.getLsbD Bit.coreStale = true ∧
                (∃ e, t.safe.inbox = s.safe.inbox ++ [e] ∧ e.cause = Cause.staleHandle) ∧
                (∀ u, (s.core n.val).run = some u → (∀ v ∈ (s.core n.val).ready, h ∉ v.inputs) →
                  (t.core n.val).run = some (u.flag Cause.staleHandle)) ∧ OtherCores n.val s t ∧ SameDram s t))))))) ∧
    (∀ (base words : Nat) (c : CoreSt) (run : Option UnitInst), (s.core n.val).drain = c →
      run = (s.core n.val).run.map (fun u => { u with verified := addOnce u.verified base, owesPiece := true }) →
      (0x7C000 < base + words + 2 → Completes (.transferComplete n q (.piece base words)) s (fun t =>
        (t.core n.val).run = none ∧ (t.hdr (.core n)).errStat.getLsbD Bit.coreIllegal = true ∧ SameMemory s t)) ∧
      (base + words + 2 ≤ 0x7C000 → stalePiece s n.val base = true → Completes (.transferComplete n q (.piece base words)) s (fun t =>
        (∀ u, (t.core n.val).run = some u → Cause.staleHandle ∈ u.causes ∧ base ∈ u.verified) ∧
        (t.hdr (.core n)).errStat.getLsbD Bit.coreStale = true ∧ OtherCores n.val s t ∧ SameMemory s t)) ∧
      (base + words + 2 ≤ 0x7C000 → stalePiece s n.val base = false → (s.hdr (.core n)).inj = 0 → c.spPoison = [] →
        (Tab.get c.sp 0 (base + words) = crc32c (bytesOf ((List.range words).map (fun k => Tab.get c.sp 0 (base + k)))) →
          (trailerCause (Tab.get c.sp 0 (base + (words + 1))) = some none →
            Completes (.transferComplete n q (.piece base words)) s (fun t =>
              t.core n.val = { s.core n.val with run := run } ∧ OtherCores n.val s t ∧ t = { s with cores := t.cores })) ∧
          (∀ k, trailerCause (Tab.get c.sp 0 (base + (words + 1))) = some (some k) →
            Completes (.transferComplete n q (.piece base words)) s (fun t =>
              t.core n.val = { s.core n.val with run := run.map (·.flag k) } ∧ OtherCores n.val s t ∧ t = { s with cores := t.cores }))) ∧
        (Tab.get c.sp 0 (base + words) ≠ crc32c (bytesOf ((List.range words).map (fun k => Tab.get c.sp 0 (base + k)))) →
          Completes (.transferComplete n q (.piece base words)) s (fun t =>
            (t.core n.val).run = run.map (·.flag Cause.e2eCheck) ∧ OtherCores n.val s t ∧ SameMemory s t)))))

/-- With nothing waiting inside the device and queue tables free of error: an allocation from a pool, by its number
or through a link of frames, whose free queue serves the requester, gives the oldest free buffer under its next
generation, due to be returned once by every consumer, and takes it from the free queue; a core that finds none
waits, and another requester changes nothing. A request of a Strata link that was served before, and whose free
queue still serves the requester, gets the same handle. A return of a current handle to a free queue that takes it
frees a buffer that no other consumer holds and counts down one that others hold, and the unit holds the handle no
longer; it is refused for one that none holds. To a HELD free queue it waits. An uncorrectable error of the queue
tables is a fatal error that enters the safe state. -/
def Obligations.AllocationsCommandsComplete : Prop :=
  (∀ (s : State) (a : Agent) (via : AllocVia), NoneWaits s → agentWaits s a = false →
    (∀ (p seg : Nat) (pl : PoolSt),
      (via = .pool p ∨ ∃ l line x, via = .link l line seg ∧ Tab.find s.qmg.links l = some x ∧ (x.ends seg).1 = p ∧ pl.kind ≠ 1) →
      s.pool? p = some pl → QueueServes s a pl.freeQueue →
      (∀ h ws es, (s.queue pl.freeQueue).entries = (h, ws) :: es → Completes (.allocate a via .clean) s (fun t =>
        Sends s t (.handle (agentUnit a) (freeHandle p pl (ofHandle h).index (nextGen (s.buffer p (ofHandle h).index).gen) (ofHandle h).tag)) ∧
        (t.queue pl.freeQueue).entries = es ∧
        (t.buffer p (ofHandle h).index).gen = nextGen (s.buffer p (ofHandle h).index).gen ∧
        (t.buffer p (ofHandle h).index).returns = pl.consumers ∧ SameMemory s t)) ∧
      ((s.queue pl.freeQueue).entries = [] → Completes (.allocate a via .clean) s (fun t =>
        (∀ c, a = .core c → t.waitOf c.val = some (.alloc via)) ∧ ((∀ c, a ≠ .core c) → t = s) ∧
        t = { s with cores := t.cores, qmg := t.qmg }))) ∧
    (∀ l line seg x r pl, via = .link l line seg → Tab.find s.qmg.links l = some x → s.pool? (x.ends seg).1 = some pl → pl.kind = 1 →
      x.recent.find? (fun r => r.1 == line && r.2.1 == seg) = some r → QueueServes s a pl.freeQueue →
      Completes (.allocate a via .clean) s (fun t =>
        Sends s t (.handle (agentUnit a) r.2.2) ∧ t = { s with outs := t.outs, cores := t.cores }))) ∧
  (∀ (s : State) (n : CoreNum) (h : W64) (pl : PoolSt) (b : Buffer), NoneWaits s → agentWaits s (.core n) = false →
    (s.hdr .qmg).inj = 0 → handleGood s h = true → s.pool? (ofHandle h).pool = some pl →
    s.buffer (ofHandle h).pool (ofHandle h).index = b →
    (queueStands s (s.queue pl.freeQueue) (agentPart s (.core n) pl.part) = .wait → Completes (.bufferReturn n h) s (fun t =>
      t.waitOf n.val = some (.ret h) ∧ (t.core n.val).run = (s.core n.val).run ∧ t = { s with cores := t.cores, qmg := t.qmg } ∧
      t.qmg.buffers = s.qmg.buffers ∧ t.qmg.queues = s.qmg.queues)) ∧
    (queueStands s (s.queue pl.freeQueue) (agentPart s (.core n) pl.part) = .accept → handleCurrent s h = true →
      Completes (.bufferReturn n h) s (fun t =>
        (b.returns = 1 →
          (t.queue pl.freeQueue).entries = (s.queue pl.freeQueue).entries ++
            [(freeHandle (ofHandle h).pool pl (ofHandle h).index b.gen (ofHandle h).tag, [])] ∧
          (t.buffer (ofHandle h).pool (ofHandle h).index).returns = 0) ∧
        (1 < b.returns → t.buffer (ofHandle h).pool (ofHandle h).index = { b with returns := b.returns - 1 } ∧
          t.qmg.queues = s.qmg.queues) ∧
        (b.returns = 0 → (t.hdr .qmg).errStat.getLsbD Bit.qmgDouble = true ∧ t.qmg = s.qmg) ∧
        (0 < b.returns → ∀ u, (t.core n.val).run = some u → h ∉ u.inputs) ∧ SameMemory s t))) ∧
  (∀ (s : State) (a : Agent) (via : AllocVia) (n : CoreNum) (q : QueueNum) (h : W64) (desc : Upset), NoneWaits s →
    s.safe.ssCause = 0 → agentWaits s a = false →
    (∀ i ∈ [Instr.allocate a via .uncorrectable, .queuePush a q h desc .uncorrectable],
      Completes i s (fun t => t.safe.ssCause = SS.fatal ∧ PinsLow t)) ∧
    (agentWaits s (.core n) = false → runAheadFull s n.val = false →
      Completes (.queuePop n q desc .uncorrectable) s (fun t => t.safe.ssCause = SS.fatal ∧ PinsLow t)))

/-- With nothing waiting inside the device and descriptors and tables free of error: a push of a good, current and
checked handle of the requester's partition by one that holds no unit, to a queue that serves it and has room, gives
the handle at once to the consumers that hold a credit and leaves an entry for the others, if any; a core whose unit
may push, its verdicts being in and its writes completed, pushes its handle with the unit's flags and holds it no
longer. A pop by a core that does not wait and has room takes its next entry and makes the unit ready there, or
leaves a credit and waits. A waiting pop, push, allocation or return proceeds once its condition is met; a core that
waits for no queue is left as it is. -/
def Obligations.QueueOperationsComplete : Prop :=
  (∀ (s : State) (a : Agent) (n : QueueNum) (h : W64), NoneWaits s → agentWaits s a = false → (s.queue n.val).full = false →
    (handleGood s h = true → handleCurrent s h = true → checkedPush s a h = true → foreignPool s a h = false → QueueServes s a n.val →
      (∀ c, a = .core c → (s.core c.val).run = none) → Completes (.queuePush a n h .clean .clean) s (fun t =>
        (∀ c ∈ s.consumersOf (s.queue n.val) h, c ∈ (s.queue n.val).credits → ∃ u ∈ (t.core c).ready, u.inputs = [h]) ∧
        (t.queue n.val).entries = (s.queue n.val).entries ++
          (if (s.consumersOf (s.queue n.val) h).any (fun c => !(s.queue n.val).credits.contains c) ||
              (s.consumersOf (s.queue n.val) h).isEmpty
            then [(h, (s.consumersOf (s.queue n.val) h).filter (fun c => !(s.queue n.val).credits.contains c))] else []) ∧
        (t.queue n.val).pushCount = ((s.queue n.val).pushCount + 1) % 2 ^ 32 ∧ t = { s with cores := t.cores, qmg := t.qmg })) ∧
    (∀ c v s1 k, a = .core c → (s.core c.val).run = some v → mayPush s c.val n.val v h = true →
      checkHeld a h (stampOutput v h s) = s1 →
      outHandle s1 v h = k → handleGood s1 k = true → handleCurrent s1 k = true → foreignPool s1 a k = false → QueueServes s a n.val →
      Completes (.queuePush a n h .clean .clean) s (fun t =>
        (t.queue n.val).pushCount = ((s.queue n.val).pushCount + 1) % 2 ^ 32 ∧
        (∀ u, (t.core c.val).run = some u → ∀ o ∈ u.outputs, o.2 ≠ h) ∧ t = { s with cores := t.cores, qmg := t.qmg, free := t.free }))) ∧
  (∀ (s : State) (c : CoreNum) (n : QueueNum), NoneWaits s → agentWaits s (.core c) = false → runAheadFull s c.val = false →
    QueueServes s (.core c) n.val →
    (∀ h es, takeEntry c.val (s.queue n.val).entries = some (h, es) → Completes (.queuePop c n .clean .clean) s (fun t =>
      (t.queue n.val).entries = es ∧ (∃ u, (t.core c.val).ready = (s.core c.val).ready ++ [u] ∧ u.inputs = [h]) ∧
      OtherCores c.val s t ∧ t = { s with cores := t.cores, qmg := t.qmg })) ∧
    (takeEntry c.val (s.queue n.val).entries = none → Completes (.queuePop c n .clean .clean) s (fun t =>
      t.waitOf c.val = some (.pop n.val) ∧ c.val ∈ (t.queue n.val).credits ∧ (t.queue n.val).entries = (s.queue n.val).entries ∧
      OtherCores c.val s t ∧ t = { s with cores := t.cores, qmg := t.qmg }))) ∧
  (∀ (s : State) (c : CoreNum), NoneWaits s →
    ((s.waitOf c.val = none ∨ ∃ w k, s.waitOf c.val = some (.window w k)) → Completes (.queueWaitEnd c) s (fun t => t = s)) ∧
    (∀ n h es, s.waitOf c.val = some (.pop n) → QueueServes s (.core c) n → takeEntry c.val (s.queue n).entries = some (h, es) →
      Completes (.queueWaitEnd c) s (fun t => (t.queue n).entries = es ∧
        (∃ u ∈ (t.core c.val).ready, u.inputs = [h]) ∧ (∀ x ∈ t.qmg.waiters, ¬ (x.core = c.val ∧ x.on = .pop n)) ∧
        OtherCores c.val s t ∧ t = { s with cores := t.cores, qmg := t.qmg })) ∧
    (∀ n h, s.waitOf c.val = some (.push n h) → QueueServes s (.core c) n → foreignPool s (.core c) h = false →
      handleCurrent s h = true → (s.queue n).full = false →
      Completes (.queueWaitEnd c) s (fun t => (t.queue n).pushCount = ((s.queue n).pushCount + 1) % 2 ^ 32 ∧
        (∀ x ∈ t.qmg.waiters, ¬ (x.core = c.val ∧ x.on = .push n h)) ∧ t = { s with cores := t.cores, qmg := t.qmg })) ∧
    (∀ p pl h ws es, s.waitOf c.val = some (.alloc (.pool p)) → s.pool? p = some pl → QueueServes s (.core c) pl.freeQueue →
      (∀ x ∈ s.qmg.waiters, x.core = c.val → x.on = .alloc (.pool p)) → (s.queue pl.freeQueue).entries = (h, ws) :: es →
      Completes (.queueWaitEnd c) s (fun t => (t.queue pl.freeQueue).entries = es ∧ t.waitOf c.val = none ∧
        Sends s t (.handle c.val (freeHandle p pl (ofHandle h).index (nextGen (s.buffer p (ofHandle h).index).gen) (ofHandle h).tag)))) ∧
    (∀ h pl, s.waitOf c.val = some (.ret h) → s.pool? (ofHandle h).pool = some pl → (s.hdr .qmg).inj = 0 →
      queueStands s (s.queue pl.freeQueue) (agentPart s (.core c) pl.part) = .accept → handleGood s h = true →
      handleCurrent s h = true → 0 < (s.buffer (ofHandle h).pool (ofHandle h).index).returns →
      Completes (.queueWaitEnd c) s (fun t => (∀ x ∈ t.qmg.waiters, ¬ (x.core = c.val ∧ x.on = .ret h)) ∧
        (t.buffer (ofHandle h).pool (ofHandle h).index).returns = (s.buffer (ofHandle h).pool (ofHandle h).index).returns - 1 ∧
        (∀ u, (t.core c.val).run = some u → h ∉ u.inputs))))

/-- With nothing waiting inside the device: a FAULTED data or free queue is ARMED again with the current epoch of
its stream, one that is not FAULTED is left as it is, and the recovery of a context's faulted command queue clears
EN and loses the commands not yet read. The reconciliation of a pool gives each orphan its next generation and no
other buffer of the pool a new one; without an orphan nothing changes. On the one core of a stage slot a block that
is due starts with the first unit that may start, and the others of its layer and partition whose contexts have no
budget join it as far as 32 columns hold them. At a period boundary a partition's contexts have their full budgets,
its period begins at that boundary, no other context changes, and of units only the time from which their wait
counts; before it nothing changes. -/
def Obligations.RecoveryBatchAndBudgetComplete : Prop :=
  (∀ (s : State) (n : QueueNum), NoneWaits s →
    (n.val < 0x3E000 → (s.queue n.val).state = .faulted → Completes (.queueRecovery n) s (fun t =>
      (t.queue n.val).state = .armed ∧
      (t.queue n.val).epoch = (match (s.queue n.val).stream.bind s.stream? with
        | none => (s.queue n.val).epoch
        | some st => st.liveEpoch) ∧ SameMemory s t)) ∧
    (n.val < 0x3E000 → (s.queue n.val).state ≠ .faulted → Completes (.queueRecovery n) s (fun t => t = s)) ∧
    (0x3F000 ≤ n.val → (s.ctx (queueCtx n.val)).cmdFault = true → Completes (.queueRecovery n) s (fun t =>
      (t.ctx (queueCtx n.val)).en = false ∧ (t.ctx (queueCtx n.val)).cmdFault = false ∧
      (t.ctx (queueCtx n.val)).fetched = [] ∧ SameMemory s t)) ∧
    (0x3E000 ≤ n.val → (s.ctx (queueCtx n.val)).cmdFault = false → (s.ctx (queueCtx n.val)).cplFault = false →
      Completes (.queueRecovery n) s (fun t => t = s))) ∧
  (∀ (s : State) (p : Nat) (pl : PoolSt), NoneWaits s → s.pool? p = some pl → Completes (.orphanReconcile p) s (fun t =>
    (∀ i < pl.count, isOrphan s p i = true → (t.buffer p i).gen = nextGen (s.buffer p i).gen ∧ (t.buffer p i).returns = 0) ∧
    (∀ i, (pl.count ≤ i ∨ isOrphan s p i = false) → t.buffer p i = s.buffer p i) ∧
    ((∀ i < pl.count, isOrphan s p i = false) → t = s) ∧ SameMemory s t)) ∧
  (∀ (s : State) (slot : SlotNum) (n : Nat) (u : UnitInst) (d : StageDecl) (w : Nat),
    (s.cores.filter (fun c => c.2.slot == slot.val)).map (·.1) = [n] → s.mayStart n = true →
    firstUnit ((s.core n).ready.filter (startable s n)) = some u → stageDeclOf s u = some d → batchWaitOf d u.unit = some w →
    d.mode = .frame → Completes (.batchStart slot) s (fun t =>
      (∃ v, (t.core n).run = some v ∧ v.order = u.order ∧ v.startAt = s.clock) ∧
      (∀ v ∈ ((batchOf s n u).filter (fun v => v.order != u.order)).take (32 / columnsOf d u.unit - 1),
        (s.ctx v.ctx).budget = none → ∃ x ∈ (t.core n).ready, x.order = v.order ∧ x.joined = true) ∧
      (t.core n).ready.map (·.order) = ((s.core n).ready.filter (fun v => v.order != u.order)).map (·.order) ∧
      OtherCores n s t ∧ SameMemory s t)) ∧
  (∀ (s : State) (p : PartNum) (x : Partition), s.part? p.val = some x →
    (x.periodAt + x.period ≤ s.clock → Completes (.budgetReplenish p) s (fun t =>
      t.part? p.val = some { x with periodAt := x.periodAt + (s.clock - x.periodAt) / max 1 x.period * x.period } ∧
      (∀ c, (s.ctx c).part = some p.val → t.ctx c = { s.ctx c with budgetLeft := (s.ctx c).budget.getD 0 }) ∧
      (∀ c, (s.ctx c).part ≠ some p.val → t.ctx c = s.ctx c) ∧
      (∀ m, (t.core m).untimed = (s.core m).untimed) ∧ t = { s with parts := t.parts, ctxs := t.ctxs, cores := t.cores })) ∧
    (s.clock < x.periodAt + x.period → Completes (.budgetReplenish p) s (fun t => t = s)))

/-- With nothing waiting inside the device: an unwanted signature is discarded and counted; one that makes no pair
is latched; two unflagged signatures that agree at a record unit form the record of the item with the flags and the
payload of the forwarded copy and the invalidations in force; an unflagged third one that disagrees is logged as
OUTVOTED, masked. A vote unit tests itself only within 100 ns after a vote; one that fails the test is marked as
failed. A signature is the CRC-64 of its copy's output, as it arrives, and carries the flag of that output: of what
the unit of the copy has computed, and of the command's operands where none has (a reading of the model, log entry
126). The oldest formed record of a stream leaves as a ring write or a datagram. The monitor of a SIMPLEX stage that
has not pushed its output in time forms a substitute record with STAGE_DEADLINE; that of a TRIPLEX copy outvotes the
copy for the item; a monitor whose stage is in time changes nothing. -/
def Obligations.VotesEgressAndDeadlinesComplete : Prop :=
  (∀ (s : State) (v : VoteNum) (copy : Fin 3) (seq : Nat) (flips : W64) (cause : Nat) (corr : Bool) (payload : List Byte)
    (id : Nat) (st : Stream) (g : Sig) (bytes : List Byte), NoneWaits s →
    ((computedOutput v.val copy.val seq payload s = none ∧ bytes = payload ∧
        g = { copy := copy.val, sig := crc64 bytes ^^^ flips, cause := cause, corrected := corr, payload := bytes }) ∨
      (∃ causes, computedOutput v.val copy.val seq payload s = some (bytes, causes) ∧
        g = { copy := copy.val, sig := crc64 bytes ^^^ flips, cause := (firstFlag causes).getD 0,
              corrected := causes.any (fun f => flagState f == .corrected), payload := bytes })) →
    (s.vote v.val).stream = some id → s.stream? id = some st →
    (sigUnwanted v.val st g seq s = true → Completes (.voteSignature v copy seq flips cause corr payload) s (fun t =>
      t.vote v.val = { s.vote v.val with discarded := (s.vote v.val).discarded + 1 } ∧ t = { s with qmg := t.qmg })) ∧
    (∀ e, sigUnwanted v.val st g seq s = false → (s.vote v.val).entry? seq = some e → e.decided = false → e.agreed = none →
      (firstPair ((e.sigs ++ [sigFlag st seq g]).filter (fun x => !st.suspended.contains x.copy)) = none →
        allIn st { e with sigs := e.sigs ++ [sigFlag st seq g] } = false →
        Completes (.voteSignature v copy seq flips cause corr payload) s (fun t =>
          (t.vote v.val).entry? seq = some { e with sigs := e.sigs ++ [sigFlag st seq g] } ∧ t = { s with qmg := t.qmg })) ∧
      (∀ x y it, firstPair ((e.sigs ++ [sigFlag st seq g]).filter (fun x => !st.suspended.contains x.copy)) = some (x, y) →
        (s.vote v.val).record = true → st.item? seq = some it →
        Completes (.voteSignature v copy seq flips cause corr payload) s (fun t =>
          ∃ u r, t.stream? id = some u ∧ r ∈ u.formed ∧ u.item? seq = none ∧ r.seq = seq ∧ r.stamp = it.stamp ∧
            r.placeEpoch = s.ctl.placeEpoch ∧ r.payload = (forwardOf x y).payload ∧
            (r.state, r.cause) = recordVerdict ((forwardOf x y).own ++ it.causes) (s.invCauses id st.cls seq)))) ∧
    (∀ e a, sigUnwanted v.val st g seq s = false → (s.vote v.val).entry? seq = some e → e.decided = true → e.agreed = some a →
      sigFlag st seq g = g → votesNot g.cause = false → g.sig ≠ a → e.logged.contains copy.val = false →
      Completes (.voteSignature v copy seq flips cause corr payload) s (fun t =>
        ∃ ev ∈ t.safe.inbox, ev.cause = Cause.outvoted ∧ ev.masked = true ∧ ev.copy = some copy.val ∧ ev.stream = some id))) ∧
  (∀ (s : State) (v : VoteNum),
    ((s.vote v.val).failed = true ∨ (s.vote v.val).votedAt.any (fun x => s.clock ≤ x + 100) = false →
      ∀ pass, Completes (.voteUnitTest v pass) s (fun t => t = s)) ∧
    ((s.vote v.val).failed = false → (s.vote v.val).votedAt.any (fun x => s.clock ≤ x + 100) = true →
      Completes (.voteUnitTest v true) s (fun t =>
        t.vote v.val = { s.vote v.val with testedAt := s.clock } ∧ t = { s with qmg := t.qmg }) ∧
      Completes (.voteUnitTest v false) s (fun t => (t.vote v.val).failed = true ∧
        (∀ id, (s.vote v.val).stream = some id →
          ∃ ev ∈ t.safe.inbox, ev.unit = 0xC1 ∧ ev.permanent = true ∧ ev.stream = some id)))) ∧
  (∀ (s : State) (id : StreamId), NoneWaits s →
    ((s.stream? id).bind Stream.nextOut = none → Completes (.recordEgress id) s (fun t => t = s)) ∧
    (∀ st r, s.stream? id = some st → st.nextOut = some r →
      (st.decl.egress = 0 → s.pce.up = false → Completes (.recordEgress id) s (fun t => t = s)) ∧
      (st.decl.egress = 0 → s.pce.up = true → Completes (.recordEgress id) s (fun t =>
        Sends s t (.record st.decl.egFn (r.seq % 2 ^ st.ringLog2) r r.crc) ∧
        (t.stream? id).map (·.formed) = some (st.formed.drop 1) ∧ SameMemory s t)) ∧
      (st.decl.egress ≠ 0 → Completes (.recordEgress id) s (fun t =>
        Sends s t (.datagram st.decl.egLane st.decl.egAddr st.decl.egPort r r.crc) ∧
        (t.stream? id).map (·.formed) = some (st.formed.drop 1) ∧ SameMemory s t)))) ∧
  (∀ (s : State) (slot : SlotNum) (seq : Nat), NoneWaits s →
    (s.streamIds (fun st => isSafety st.cls && st.place.slots.any (fun p => p.slot.val == slot.val)) = [] →
      Completes (.stageDeadline slot seq) s (fun t => t = s)) ∧
    (∀ id st p d it, s.streamIds (fun st => isSafety st.cls && st.place.slots.any (fun p => p.slot.val == slot.val)) = [id] →
      s.stream? id = some st → st.place.slots.find? (fun p => p.slot.val == slot.val) = some p → s.stageOf st p.stage = some d →
      st.item? seq = some it → it.checked = true →
      (it.pushed.contains slot.val = true ∨ s.tal.time ≤ stageDeadlineOf st d seq it.stamp →
        Completes (.stageDeadline slot seq) s (fun t => t = s)) ∧
      (it.pushed.contains slot.val = false → stageDeadlineOf st d seq it.stamp < s.tal.time →
        (st.cls = .simplex → Completes (.stageDeadline slot seq) s (fun t =>
          (∃ u r, t.stream? id = some u ∧ r ∈ u.formed ∧ u.item? seq = none ∧ r.seq = seq ∧ r.stamp = it.stamp ∧
            (r.state, r.cause) = recordVerdict (ingressData st it s) (Cause.stageDeadline :: s.invCauses id st.cls seq)) ∧
          (∃ ev ∈ t.safe.inbox, ev.cause = Cause.stageDeadline ∧ ev.stream = some id ∧ ev.seq = seq) ∧
          ({ target := .stream id, scope := .item seq, cause := Cause.stageDeadline } : Inval) ∈ t.safe.invOut)) ∧
        (∀ v e, st.cls = .triplex → nextVotePoint s st p.stage = some v → (s.vote v).entry? seq = some e →
          e.decided = false → e.agreed = none → (∀ x ∈ e.sigs, x.copy ≠ p.copy) →
          firstPair (e.sigs.filter (fun x => !st.suspended.contains x.copy)) = none →
          allIn st { e with missed := addOnce e.missed p.copy } = false → (∀ n, (s.core n).seq ≠ .wait ∧ s.waitOf n = none) →
          Completes (.stageDeadline slot seq) s (fun t =>
            (t.vote v).entry? seq = some { e with missed := addOnce e.missed p.copy } ∧
            ∃ u k, t.stream? id = some u ∧ u.item? seq = some k ∧ k.outvoted.any (fun o => o.1 == p.copy) = true ∧
              SameMemory s t)))))

/-- The re-placement of a stage that is not pending, unless its stream is of class NONE, or while another one or a
live activation runs, changes nothing. A sound move of a pending stage, or of one of a class NONE stream, enters
PREPARE with the new cores and changes no stream, no queue, no DRAM and no core that is not new. With nothing
waiting inside the device: at a boundary that follows every item given to an old core, and once the quadrants of a
safety stream are in Bedrock mode, SAFE's check passed, the commit moves the placement, counts the placement epoch
up by one and enters COMMITTED in one step, and of DRAM changes only what the shared cache held dirty, where pools
follow the stage to another quadrant; a placement that fails the check abandons the re-placement with a
PLACEMENT_CHECK fault and leaves the placement as it was. Once every old core has finished its items the committed
re-placement ends; of the other cores at most some schedulable ones go to the spare pool. -/
def Obligations.ReplacementsComplete : Prop :=
  (∀ (s : State) (slot : SlotNum) (cores : List CoreNum),
    (s.ctl.repl.isSome = true ∨ s.activating = true ∨
        (s.streamIds (fun st => st.place.slots.any (fun p => p.slot.val == slot.val))).head? = none ∨
        (s.ctl.pendRepl.contains slot.val = false ∧ ∀ id st,
          (s.streamIds (fun st => st.place.slots.any (fun p => p.slot.val == slot.val))).head? = some id → s.stream? id = some st →
          st.cls ≠ .none) →
      Completes (.replacementStart slot cores) s (fun t => t = s)) ∧
    (∀ id st p ms, (s.ctl.pendRepl.contains slot.val = true ∨ st.cls = .none) → s.ctl.repl = none → s.activating = false →
      (s.streamIds (fun st => st.place.slots.any (fun p => p.slot.val == slot.val))).head? = some id → s.stream? id = some st →
      st.place.slots.find? (fun p => p.slot.val == slot.val) = some p → movesOf st p cores = some ms →
      (movesOk id st ms s = false → Completes (.replacementStart slot cores) s (fun t => t = s)) ∧
      (movesOk id st ms s = true → Completes (.replacementStart slot cores) s (fun t =>
        t.ctl.jState = .prepare ∧ t.ctl.jSlot = slot.val ∧ t.ctl.placeEpoch = s.ctl.placeEpoch ∧
        (∃ r, t.ctl.repl = some r ∧ r.slot = slot.val ∧ r.moves = ms ∧ (∀ n, n ∉ r.new → t.core n = s.core n)) ∧
        t.streams = s.streams ∧ t.qmg = s.qmg ∧ SameDram s t)))) ∧
  (∀ (s : State) (n : Nat), NoneWaits s →
    (s.ctl.repl = none ∨ s.ctl.jState ≠ .prepare → Completes (.replacementCommit n) s (fun t => t = s)) ∧
    (∀ r id st, s.ctl.repl = some r → s.replStream = some id → s.stream? id = some st → s.ctl.jState = .prepare →
      (boundaryOk st r n s = false → Completes (.replacementCommit n) s (fun t => t = s)) ∧
      (boundaryOk st r n s = true → safeCheck id (st.moved r.moves) s = false → Completes (.replacementCommit n) s (fun t =>
        t.ctl.repl = none ∧ t.ctl.jState = .idle ∧ (∀ k ∈ r.slots, k ∈ t.ctl.pendRepl) ∧ t.streams = s.streams ∧
        (t.hdr .ctl).errStat.getLsbD Bit.ctlAbandoned = true ∧
        (∃ ev ∈ t.safe.inbox, ev.cause = Cause.placementCheck ∧ ev.stream = some id) ∧ SameDram s t)) ∧
      (boundaryOk st r n s = true → safeCheck id (st.moved r.moves) s = true → isSafety st.cls = true →
        s.bedrockReady (st.moved r.moves) = false → Completes (.replacementCommit n) s (fun t => t = s)) ∧
      (boundaryOk st r n s = true → safeCheck id (st.moved r.moves) s = true →
        (isSafety st.cls = true → s.bedrockReady (st.moved r.moves) = true) → Completes (.replacementCommit n) s (fun t =>
          (t.stream? id).map (·.place) = some (st.moved r.moves).place ∧ (∀ k, k ≠ id → t.stream? k = s.stream? k) ∧
          t.ctl = { s.ctl with
            jState := .committed, placeEpoch := (s.ctl.placeEpoch + 1) % 2 ^ 32, repl := some { r with boundary := n } } ∧
          (∀ k ∈ r.slots, Tab.find t.slotEpochs k = some t.ctl.placeEpoch) ∧ DramButDirty s t ∧
          (streamHomes (st.moved r.moves) s = streamHomes st s → SameDram s t))))) ∧
  (∀ (s : State), NoneWaits s →
    (s.ctl.repl = none ∨ s.ctl.jState ≠ .committed → Completes .replacementDone s (fun t => t = s)) ∧
    (∀ r, s.ctl.repl = some r → s.ctl.jState = .committed →
      (r.old.all (fun n => oldDone r n s) = true → Completes .replacementDone s (fun t =>
        t.ctl = { s.ctl with repl := none, jState := .idle } ∧ t.streams = s.streams ∧ t.qmg = s.qmg ∧
        (∀ n, (n ∉ r.old ∨ n ∈ r.new) →
          t.core n = s.core n ∨ ((s.core n).pool = .schedulable ∧ t.core n = { s.core n with pool := .spare })) ∧ SameDram s t)) ∧
      (r.old.all (fun n => oldDone r n s) = false → Completes .replacementDone s (fun t => t = s))))

/-- Without an armed injection in the core's page: a read answers a buffered value with its poison tag, else the
stored word or, poisoned, the poison word, which flags the reader's unit; an uncorrectable word is poisoned in
place, sets SP_ECC_UNCORR and stops the unit that reads, while the scrubber only reports it. A unit writes its
working region and line rings; another word is SEQ_ILLEGAL and a fault stop; with the clocks stopped or without a
unit nothing is written. A firmware write lands. A corrected word keeps its value, is counted and reported. Each
write changes the one word it names. A row is repaired only where the rules ask for it and the core is in TEST, IDLE
or FAULTED, onto the next spare row of its bank; without one the core is retired. -/
def Obligations.ScratchpadAccessesAndRepairsComplete : Prop :=
  (∀ (s : State) (n : CoreNum) (w : Nat), (s.hdr (.core n)).inj = 0 → ((s.core n.val).run.isSome = true → w < 0x7C000) →
    (∀ v up, (s.core n.val).buffered w = some (v, false) → Completes (.scratchpadAccess n (.read w) up) s (fun t =>
      Sends s t (.data n.val [v] false) ∧ t = { s with outs := t.outs })) ∧
    (∀ v up, (s.core n.val).buffered w = some (v, true) → Completes (.scratchpadAccess n (.read w) up) s (fun t =>
      Sends s t (.data n.val [poisonWord] true) ∧ (t.core n.val).run = (s.core n.val).run.map (·.flag Cause.memPoison) ∧
      SameMemory s t ∧ OtherCores n.val s t)) ∧
    ((s.core n.val).buffered w = none →
      (w ∉ (s.core n.val).spPoison → Completes (.scratchpadAccess n (.read w) .clean) s (fun t =>
        Sends s t (.data n.val [s.spWord n.val w] false) ∧ t = { s with outs := t.outs })) ∧
      (w ∈ (s.core n.val).spPoison → Completes (.scratchpadAccess n (.read w) .clean) s (fun t =>
        Sends s t (.data n.val [poisonWord] true) ∧ (t.core n.val).run = (s.core n.val).run.map (·.flag Cause.memPoison) ∧
        SameMemory s t ∧ OtherCores n.val s t)) ∧
      Completes (.scratchpadAccess n (.read w) .corrected) s (fun t =>
        (t.hdr (.core n)).errStat.getLsbD Bit.coreEccCorr = true ∧ (Tab.find (t.core n.val).corrWords w).isSome = true ∧
        (∃ ev ∈ t.safe.inbox, ev.unit = n.val ∧ ev.corrected = true) ∧ SameMemory s t ∧ OtherCores n.val s t) ∧
      Completes (.scratchpadAccess n (.read w) .uncorrectable) s (fun t =>
        Sends s t (.data n.val [poisonWord] true) ∧ (t.hdr (.core n)).errStat.getLsbD Bit.coreEccUncorr = true ∧
        (∃ ev ∈ t.safe.inbox, ev.unit = n.val ∧ ev.cause = Cause.memPoison) ∧
        ((s.core n.val).run = none → (t.core n.val).seq = (s.core n.val).seq ∧ t.spWord n.val w = poisonWord) ∧
        ((s.core n.val).run ≠ none → (t.core n.val).seq = .faulted ∧ (t.core n.val).run = none)))) ∧
  (∀ (s : State) (n : CoreNum) (w : Nat) (v : W32) (up : Upset),
    Completes (.scratchpadAccess n (.fwWrite w v) up) s (fun t => t.spWord n.val w = v ∧ w ∉ (t.core n.val).spPoison ∧
      (∀ k, k ≠ w → t.spWord n.val k = s.spWord n.val k) ∧ OtherCores n.val s t ∧ t = { s with cores := t.cores }) ∧
    ((s.core n.val).run = none ∨ s.pwr.stopped = true → Completes (.scratchpadAccess n (.unitWrite w v) up) s (fun t => t = s)) ∧
    ((s.core n.val).run ≠ none → s.pwr.stopped = false →
      ((s.core n.val).unitMayWrite w = true → Completes (.scratchpadAccess n (.unitWrite w v) up) s (fun t =>
        t.spWord n.val w = v ∧ w ∉ (t.core n.val).spPoison ∧ (∀ k, k ≠ w → t.spWord n.val k = s.spWord n.val k) ∧
        OtherCores n.val s t ∧ t = { s with cores := t.cores })) ∧
      ((s.core n.val).unitMayWrite w = false → Completes (.scratchpadAccess n (.unitWrite w v) up) s (fun t =>
        (t.hdr (.core n)).errStat.getLsbD Bit.coreIllegal = true ∧ (t.core n.val).seq = .faulted ∧
        (t.core n.val).run = none ∧ SameMemory s t)))) ∧
  (∀ (s : State) (n : CoreNum) (w : Nat), (s.hdr (.core n)).inj = 0 →
    Completes (.scratchpadScrub n w .clean) s (fun t => t = s) ∧
    Completes (.scratchpadScrub n w .corrected) s (fun t =>
      Tab.find (t.core n.val).corrWords w = some (Tab.get (s.core n.val).corrWords 0 w + 1) ∧
      (t.hdr (.core n)).errStat.getLsbD Bit.coreEccCorr = true ∧ SameMemory s t ∧ OtherCores n.val s t) ∧
    Completes (.scratchpadScrub n w .uncorrectable) s (fun t =>
      t.spWord n.val w = poisonWord ∧ w ∈ (t.core n.val).spPoison ∧ (∀ k, k ≠ w → t.spWord n.val k = s.spWord n.val k) ∧
      (t.core n.val).seq = (s.core n.val).seq ∧ (t.core n.val).run = (s.core n.val).run ∧
      (∃ ev ∈ t.safe.inbox, ev.unit = n.val ∧ ev.cause = Cause.memPoison) ∧ OtherCores n.val s t)) ∧
  (∀ (s : State) (n : CoreNum) (bank : Fin 64) (row : Fin 512), NoneWaits s →
    ((s.core n.val).seq ∉ [.test, .idle, .faulted] ∨ rowNeedsRepair (s.core n.val) bank.val row.val = false →
      Completes (.rowRepair n bank row) s (fun t => t = s)) ∧
    ((s.core n.val).seq ∈ [.test, .idle, .faulted] → rowNeedsRepair (s.core n.val) bank.val row.val = true →
      (8 ≤ Tab.get (s.core n.val).spareRows 0 bank.val → Completes (.rowRepair n bank row) s (fun t =>
        (t.core n.val).pool = .retired)) ∧
      (Tab.get (s.core n.val).spareRows 0 bank.val < 8 → Completes (.rowRepair n bank row) s (fun t =>
        Tab.find (t.core n.val).rowMap (bank.val * 512 + row.val) = some (Tab.get (s.core n.val).spareRows 0 bank.val) ∧
        Tab.get (t.core n.val).spareRows 0 bank.val = Tab.get (s.core n.val).spareRows 0 bank.val + 1 ∧
        (∀ w, w ∉ rowWords bank.val row.val → t.spWord n.val w = s.spWord n.val w) ∧
        ((∀ w ∈ rowWords bank.val row.val, w ∉ (s.core n.val).badWords) → SameMemory s t) ∧
        (∀ w ∈ rowWords bank.val row.val, Tab.find (t.core n.val).corrWords w = none) ∧ OtherCores n.val s t))))

/-- While the mesh holds a line's transfers an access changes nothing; else an isolated home slice and a stopped
mesh answer a NACK. Without armed injections in the pages that an access meets: a hit at the home slice gives the
line's data, or takes the written data, counts a hit and leaves DRAM alone; a miss that keeps nothing reads the line
from DRAM, or writes it to DRAM; a miss that keeps its line leaves it in a way of the slice. The host reads 64
bytes; it reads the poison pattern beyond the addressable range, where a write is dropped, and zeros beyond its
window. What a reader is given shows the QMG's tables where these lie in DRAM (log entry 102). A DMC read answers
the stored line, or a dirty copy of it in its home slice, which is written back first, or the poison pattern where
it is poisoned or its codes fail, which poisons the line and counts an uncorrectable error; a full-line write
replaces the line and ends its poisoning, and a link error of its data is corrected and counted; no other byte
changes. The patrol scrubber counts corrected errors, and on the second pass over a row queues its repair; in
self-refresh a DMC answers a NACK and scrubs nothing. -/
def Obligations.CacheAndDramAccessesComplete : Prop :=
  (∀ (s : State) (ctx : CtxNum) (part : PartNum) (off : Nat) (op : LineOp) (tag data : Upset) (copy : Option (Fin 2))
    (dram : DramUpset),
    (dramHeld s off = true → Completes (.shcAccess ctx part off op tag data copy dram) s (fun t => t = s) ∧
      (s.pwr.retention = false → off < 2 ^ 38 → (s.hdr .pce).inj = 0 →
        Completes (.hostDramAccess off op tag data dram) s (fun t => t = s))) ∧
    (dramHeld s off = false → (s.hdr (.shc (s.home off).1)).isolated = true ∨ s.pwr.retention = true →
      Completes (.shcAccess ctx part off op tag data copy dram) s (fun t =>
        Sends s t (.nack 0xC2) ∧ SameMemory s t ∧ t.slices = s.slices))) ∧
  (∀ (s : State) (ctx : CtxNum) (part : PartNum) (off : Nat) (copy : Option (Fin 2)), s.pwr.retention = false → off < 2 ^ 38 →
    dramHeld s off = false → off < s.dramSize → (s.hdr (.shc (s.home off).1)).isolated = false → (s.hdr .pce).inj = 0 →
    (s.hdr (.shc (s.home off).1)).inj = 0 → (s.hdr (.dmc (s.chanOf off))).inj = 0 →
    (∀ w, (s.slice (s.home off).1).wayOf (off / 64) = some w →
      (∀ x, Tab.find (s.slice (s.home off).1).lines (Machine.setOf (off / 64) * 16 + w) = some x →
        (x.poison = true ∨ x.data ≠ [] → Completes (.shcAccess ctx part off .read .clean .clean copy .clean) s (fun t =>
          Sends s t (.data 0xC2 (wordsOf (if x.poison then poisonLine else s.tablesOver (lineBase off) x.data)) x.poison) ∧
          SameMemory s t)) ∧
        Completes (.hostDramAccess off .read .clean .clean .clean) s (fun t =>
          Sends s t (.hostData (if x.poison then poisonLine else if x.data = [] then List.replicate 64 0
            else s.tablesOver (lineBase off) x.data)) ∧ SameMemory s t) ∧
        (∀ op, ∀ i ∈ [Instr.shcAccess ctx part off op .clean .clean copy .clean, .hostDramAccess off op .clean .clean .clean],
          Completes i s (fun t =>
            Tab.find (t.slice (s.home off).1).lines (Machine.setOf (off / 64) * 16 + w) = some (applyOp x op) ∧
            (t.slice (s.home off).1).hits = sat32 ((s.slice (s.home off).1).hits + 1) ∧ SameMemory s t)))) ∧
    ((s.slice (s.home off).1).wayOf (off / 64) = none →
      ((s.home off).2 = false ∨ ((s.part? part.val).map (·.wayMask)).getD 0 % 65536 = 0 →
        (off / 64 ∉ s.dramPoison → Completes (.shcAccess ctx part off .read .clean .clean copy .clean) s (fun t =>
          Sends s t (.data 0xC2 (wordsOf (s.tablesOver (lineBase off) (s.readDram (lineBase off) 64))) false) ∧ SameMemory s t ∧
          (t.slice (s.home off).1).misses = sat32 ((s.slice (s.home off).1).misses + 1))) ∧
        (∀ d, d.length = 64 → Completes (.shcAccess ctx part off (.writeLine d) .clean .clean copy .clean) s (fun t =>
          t.readDram (lineBase off) 64 = d ∧ off / 64 ∉ t.dramPoison ∧
          (∀ a, (a < lineBase off ∨ lineBase off + 64 ≤ a) → t.dramByte a = s.dramByte a)))) ∧
      ((s.home off).2 = true → ((s.part? part.val).map (·.wayMask)).getD 0 % 65536 ≠ 0 → ∀ op,
        Completes (.shcAccess ctx part off op .clean .clean copy .clean) s (fun t =>
          ((t.slice (s.home off).1).wayOf (off / 64)).isSome = true)))) ∧
  (∀ (s : State) (off : Nat) (tag data : Upset) (dram : DramUpset), (s.hdr .pce).inj = 0 →
    (s.pwr.retention = true ∨ 2 ^ 38 ≤ off → ∀ op, Completes (.hostDramAccess off op tag data dram) s (fun t =>
      (op = .read → Sends s t (.hostData (List.replicate 64 0))) ∧ t = { s with outs := t.outs })) ∧
    (s.pwr.retention = false → off < 2 ^ 38 → dramHeld s off = false → s.dramSize ≤ off →
      (s.hdr (.shc (s.home off).1)).isolated = false → ∀ op, Completes (.hostDramAccess off op tag data dram) s (fun t =>
      (op = .read → Sends s t (.hostData poisonLine)) ∧
      (t.hdr (.shc (s.home off).1)).errStat.getLsbD Bit.shcRange = true ∧ SameMemory s t ∧ t.slices = s.slices))) ∧
  (∀ (s : State) (off : Nat) (ctx : CtxNum) (part : PartNum), (s.hdr (.dmc (s.chanOf off))).inj = 0 →
    (s.pwr.retention = true ∨ s.dramSize ≤ off → ∀ u second, Completes (.patrolScrub off u second) s (fun t => t = s)) ∧
    (s.pwr.retention = true → ∀ op u, Completes (.dmcAccess off op u ctx part) s (fun t =>
      Sends s t (.nack 0xC3) ∧ t = { s with outs := t.outs })) ∧
    (s.pwr.retention = false → s.dramSize ≤ off → ∀ op u, Completes (.dmcAccess off op u ctx part) s (fun t => t = s)) ∧
    (s.pwr.retention = false → off < s.dramSize →
      ((∀ w x, (s.slice (s.home off).1).wayOf (off / 64) = some w →
          Tab.find (s.slice (s.home off).1).lines (Machine.setOf (off / 64) * 16 + w) = some x → x.dirty = false) →
        (off / 64 ∉ s.dramPoison → Completes (.dmcAccess off .read .clean ctx part) s (fun t =>
          Sends s t (.data 0xC3 (wordsOf (s.tablesOver (lineBase off) (s.readDram (lineBase off) 64))) false) ∧ SameMemory s t)) ∧
        (off / 64 ∈ s.dramPoison → Completes (.dmcAccess off .read .clean ctx part) s (fun t =>
          Sends s t (.data 0xC3 (wordsOf poisonLine) true) ∧
          (t.hdr (.dmc (s.chanOf off))).errStat.getLsbD Bit.dmcPoison = true ∧ SameMemory s t)) ∧
        (∀ u ∈ [DramUpset.eccUncorr, .linkTwice], Completes (.dmcAccess off .read u ctx part) s (fun t =>
          Sends s t (.data 0xC3 (wordsOf poisonLine) true) ∧ off / 64 ∈ t.dramPoison ∧
          (t.dmc (s.chanOf off)).eccUncorr = sat32 ((s.dmc (s.chanOf off)).eccUncorr + 1) ∧
          (t.hdr (.dmc (s.chanOf off))).errStat.getLsbD Bit.dmcEccUncorr = true ∧
          (∃ ev ∈ t.safe.inbox, ev.unit = 0xC3 ∧ ev.ctx = ctx.val) ∧ SameMemory s t)) ∧
        (∀ k d, d.length + k ≤ 64 → off / 64 ∉ s.dramPoison → Completes (.dmcAccess off (.writePart k d) .clean ctx part) s (fun t =>
          t.readDram (lineBase off) 64 = patch (s.readDram (lineBase off) 64) k d ∧
          (∀ a, (a < lineBase off ∨ lineBase off + 64 ≤ a) → t.dramByte a = s.dramByte a)))) ∧
      (∀ w x, (s.slice (s.home off).1).wayOf (off / 64) = some w →
        Tab.find (s.slice (s.home off).1).lines (Machine.setOf (off / 64) * 16 + w) = some x → x.dirty = true →
        x.data.length = 64 → Completes (.dmcAccess off .read .clean ctx part) s (fun t =>
          Sends s t (.data 0xC3 (wordsOf (if x.poison then poisonLine else s.tablesOver (lineBase off) x.data)) x.poison) ∧
          t.readDram (lineBase off) 64 = x.data ∧
          (∀ a, (a < lineBase off ∨ lineBase off + 64 ≤ a) → t.dramByte a = s.dramByte a) ∧
          Tab.find (t.slice (s.home off).1).lines (Machine.setOf (off / 64) * 16 + w) = some { x with dirty := false })) ∧
      (∀ d, d.length = 64 → Completes (.dmcAccess off (.writeLine d) .clean ctx part) s (fun t =>
        t.readDram (lineBase off) 64 = d ∧ off / 64 ∉ t.dramPoison ∧
        (∀ a, (a < lineBase off ∨ lineBase off + 64 ≤ a) → t.dramByte a = s.dramByte a) ∧ SameScratchpads s t)) ∧
      (∀ u ∈ [DramUpset.linkCorr, .linkCorrWrite], ∀ d, Completes (.dmcAccess off (.writeLine d) u ctx part) s (fun t =>
        (t.dmc (s.chanOf off)).linkCorr = sat32 ((s.dmc (s.chanOf off)).linkCorr + 1) ∧
        (t.hdr (.dmc (s.chanOf off))).errStat.getLsbD Bit.dmcLinkCorr = true)) ∧
      (∀ second, Completes (.patrolScrub off .clean second) s (fun t => SameMemory s t ∧ t.dramPoison = s.dramPoison) ∧
        Completes (.patrolScrub off .eccCorr second) s (fun t =>
          (t.dmc (s.chanOf off)).eccCorr = sat32 ((s.dmc (s.chanOf off)).eccCorr + 1) ∧ SameMemory s t ∧
          (rowKey s off ∉ (s.dmc (s.chanOf off)).corrRows → rowKey s off ∈ (t.dmc (s.chanOf off)).corrRows ∧
            (t.dmc (s.chanOf off)).ppr = (s.dmc (s.chanOf off)).ppr) ∧
          (rowKey s off ∈ (s.dmc (s.chanOf off)).corrRows → second = true →
            (t.dmc (s.chanOf off)).ppr = min 255 ((s.dmc (s.chanOf off)).ppr + 1) ∧
            rowKey s off ∉ (t.dmc (s.chanOf off)).corrRows)))))

/-- A lane of a plane that is up and has a spare left is steered, which ends on its own command; a plane is taken
out only once, drains with a permanent fault reported, and is out when its transfers have arrived; a third one out
is a fatal error. Tokens and windows of shares restart for every partition. A Ternlink port trains at the highest
version both ends support, with 8 lanes, and stays down with NO_VERSION where there is none. A flit with a failed
CRC is counted for replay and stores nothing; a transfer outside an aperture of its partition is refused with a NACK
and stores nothing; a full line that its home slice does not keep lands in DRAM, and nowhere else. The first failing
lane is steered onto the spare, the second narrows the port, the third takes it down. -/
def Obligations.MeshSharesAndTernlinkComplete : Prop :=
  (∀ (s : State) (p : PlaneNum) (link : Nat),
    (s.plane p.val = .up → Tab.get s.mesh.spares 0 (laneKey p.val link) < 4 → Completes (.meshLaneSteer p link) s (fun t =>
      t.plane p.val = .steering ∧ (∀ k, k ≠ p.val → t.plane k = s.plane k) ∧
      Tab.get t.mesh.spares 0 (laneKey p.val link) = Tab.get s.mesh.spares 0 (laneKey p.val link) + 1 ∧
      t.mesh.lanesSpared = min 65535 (s.mesh.lanesSpared + 1) ∧ t = { s with mesh := t.mesh })) ∧
    (s.plane p.val ≠ .up ∨ 4 ≤ Tab.get s.mesh.spares 0 (laneKey p.val link) →
      Completes (.meshLaneSteer p link) s (fun t => t = s)) ∧
    (s.plane p.val = .steering → Completes (.meshLaneSteerDone p) s (fun t => t.plane p.val = .up ∧
      (∀ k, k ≠ p.val → t.plane k = s.plane k) ∧ t = { s with mesh := t.mesh })) ∧
    (s.plane p.val ≠ .steering → Completes (.meshLaneSteerDone p) s (fun t => t = s)) ∧
    (s.plane p.val = .draining → Completes (.meshPlaneRehash p) s (fun t => t.plane p.val = .out ∧
      (∀ k, k ≠ p.val → t.plane k = s.plane k) ∧ t = { s with mesh := t.mesh })) ∧
    (s.plane p.val ≠ .draining → Completes (.meshPlaneRehash p) s (fun t => t = s)) ∧
    (s.plane p.val ∈ [.draining, .out] → ∀ why, Completes (.meshPlaneOut p why) s (fun t => t = s)) ∧
    (s.lanesSpent p.val = false → Completes (.meshPlaneOut p .fifthLane) s (fun t => t = s)) ∧
    (s.plane p.val ∉ [.draining, .out] → ∀ why, (why = .fifthLane → s.lanesSpent p.val = true) →
      (s.planesOut < 2 → Completes (.meshPlaneOut p why) s (fun t => t.plane p.val = .draining ∧
        (∀ k, k ≠ p.val → t.plane k = s.plane k) ∧ (t.hdr .dbg).errStat.getLsbD Bit.dbgPlane = true ∧
        (∃ ev, t.safe.inbox = s.safe.inbox ++ [ev] ∧ ev.unit = 0xC4 ∧ ev.permanent = true) ∧ SameMemory s t)) ∧
      (2 ≤ s.planesOut → s.safe.ssCause = 0 → Completes (.meshPlaneOut p why) s (fun t =>
        t.safe.ssCause = SS.fatal ∧ PinsLow t)))) ∧
  (∀ (s : State) (c : ChanNum) (p : Nat) (x : Partition), s.part? p = some x →
    Completes .meshTokenRefill s (fun t =>
      t.part? p = some { x with tokens := (List.range 8).map (fun k => (k, x.meshShare)) } ∧ t = { s with parts := t.parts }) ∧
    Completes (.dramShareWindow c) s (fun t =>
      t.part? p = some { x with dramUsed := Tab.erase x.dramUsed c.val } ∧ t = { s with parts := t.parts })) ∧
  (∀ (s : State) (p : TlkNum) (lo hi dev rel : Nat),
    (commonVersion lo hi = none → Completes (.ternlinkTraining p lo hi dev rel) s (fun t => (t.tlk p.val).up = false ∧
      (t.hdr (.tlk p.val)).errStat.getLsbD Bit.tlkNoVersion = true ∧ (∀ k, k ≠ p.val → t.tlk k = s.tlk k) ∧ SameMemory s t)) ∧
    (∀ v, commonVersion lo hi = some v → Completes (.ternlinkTraining p lo hi dev rel) s (fun t =>
      (t.tlk p.val).up = true ∧ (t.tlk p.val).version = v ∧ (t.tlk p.val).lanes = 8 ∧ (t.tlk p.val).failed = [] ∧
      (t.tlk p.val).peerFw = rel % 2 ^ 24 ∧ (∀ k, k ≠ p.val → t.tlk k = s.tlk k) ∧ SameMemory s t)) ∧
    ((s.tlk p.val).up = false ∨ rel % 2 ^ 24 = (s.tlk p.val).peerFw → Completes (.ternlinkFwMessage p rel) s (fun t => t = s)) ∧
    ((s.tlk p.val).up = true → rel % 2 ^ 24 ≠ (s.tlk p.val).peerFw → Completes (.ternlinkFwMessage p rel) s (fun t =>
      t.tlk p.val = { s.tlk p.val with peerFw := rel % 2 ^ 24 } ∧ (∀ k, k ≠ p.val → t.tlk k = s.tlk k) ∧ SameMemory s t)) ∧
    ((s.tlk p.val).steering = true → Completes (.ternlinkLaneSteerDone p) s (fun t => (t.tlk p.val).steering = false ∧
      (t.tlk p.val).lanes = (s.tlk p.val).lanes ∧ (∀ k, k ≠ p.val → t.tlk k = s.tlk k) ∧ SameMemory s t)) ∧
    ((s.tlk p.val).steering = false → Completes (.ternlinkLaneSteerDone p) s (fun t => t = s))) ∧
  (∀ (s : State) (p : TlkNum) (part : PartNum) (ap off : Nat) (d : List Byte), (s.hdr (.tlk p.val)).inj = 0 →
    ((s.tlk p.val).up = false ∨ (s.tlk p.val).steering = true ∨ s.pwr.retention = true →
      ∀ crc, Completes (.ternlinkFlit p crc part ap off d) s (fun t => t = s)) ∧
    ((s.tlk p.val).up = true → (s.tlk p.val).steering = false → s.pwr.retention = false →
      Completes (.ternlinkFlit p false part ap off d) s (fun t =>
        t.tlk p.val = { s.tlk p.val with replays := sat32 ((s.tlk p.val).replays + 1) } ∧
        (t.hdr (.tlk p.val)).errStat.getLsbD Bit.tlkReplay = true ∧ SameMemory s t ∧ t.slices = s.slices) ∧
      (apertureOk (s.tlk p.val) ap part.val off d.length = false → Completes (.ternlinkFlit p true part ap off d) s (fun t =>
        Sends s t (.ternNack p.val) ∧ (t.hdr (.tlk p.val)).errStat.getLsbD Bit.tlkPartNack = true ∧ SameMemory s t ∧
        t.slices = s.slices)) ∧
      (apertureOk (s.tlk p.val) ap part.val off d.length = true → d.length = 64 → off % 64 = 0 → off < s.dramSize →
        (s.hdr (.shc (s.home off).1)).inj = 0 → (s.hdr (.shc (s.home off).1)).isolated = false →
        (s.slice (s.home off).1).wayOf (off / 64) = none → ((s.home off).2 = false ∨ ((s.part? part.val).map (·.wayMask)).getD 0 % 65536 = 0) →
        Completes (.ternlinkFlit p true part ap off d) s (fun t => t.readDram off 64 = d ∧
          (∀ a, (a < off ∨ off + 64 ≤ a) → t.dramByte a = s.dramByte a) ∧ SameScratchpads s t)))) ∧
  (∀ (s : State) (p : TlkNum) (lane : Fin 9), (s.hdr (.tlk p.val)).inj = 0 →
    ((s.tlk p.val).up = false ∨ lane.val ∈ (s.tlk p.val).failed → Completes (.ternlinkLaneFail p lane) s (fun t => t = s)) ∧
    ((s.tlk p.val).up = true → lane.val ∉ (s.tlk p.val).failed → Completes (.ternlinkLaneFail p lane) s (fun t =>
      (t.tlk p.val).failed = (s.tlk p.val).failed ++ [lane.val] ∧ (∀ k, k ≠ p.val → t.tlk k = s.tlk k) ∧ SameMemory s t ∧
      ((s.tlk p.val).failed = [] → lane.val ≠ 8 → (t.tlk p.val).spareUsed = true ∧ (t.tlk p.val).steering = true ∧
        (t.tlk p.val).lanes = (s.tlk p.val).lanes ∧ (t.hdr (.tlk p.val)).errStat.getLsbD Bit.tlkSpared = true) ∧
      ((s.tlk p.val).failed.length = 1 → (t.tlk p.val).lanes = 4 ∧
        (t.hdr (.tlk p.val)).errStat.getLsbD Bit.tlkWidth = true) ∧
      (2 ≤ (s.tlk p.val).failed.length → (t.tlk p.val).up = false ∧ (t.tlk p.val).lanes = 0))))

/-- An estimate stores the power of every quadrant and of the device; above cap and guard it engages the guard's
divider of every quadrant that is not in Bedrock mode, otherwise no divider moves. A decision of the allocator
releases the guard, takes the announced hints into force, and leaves every Bedrock quadrant but for its guard
divider as it is, with every memory, core and stream. With nothing waiting inside the device, a P-step switch ends a
change at its target; an upward one waits for the regulator. A regulator that fails leaves the quadrant at its step,
with a warning. A sensor reading out of range excludes the sensor, with a warning; a good one above the grade bound
asks for POWER_LIMIT on the safety streams, which ends after 10 ms below it. -/
def Obligations.PowerManagementCommandsComplete : Prop :=
  (∀ (s : State) (quads : List Activity) (rest : Activity),
    Completes (.powerEstimate quads rest) s (fun t =>
      t.pwr.est = ([0, 1, 2, 3].map (fun q => quadEstimate q (quads.getD q {}) s)).sum +
        Config.restPower rest (hottestOf s ((List.range 16).map (· + 48))) ∧
      (∀ q < 4, (t.quad q).est = quadEstimate q (quads.getD q {}) s ∧ ((s.quad q).bedrock = true →
        t.quad q = { s.quad q with est := (t.quad q).est })) ∧
      (16 * (s.pwr.cap + s.pwr.guard) < t.pwr.est → s.freeQuads ≠ [] → t.pwr.guardActive = true ∧
        ∀ q ∈ s.freeQuads, (t.quad q).divGuard = true) ∧
      (t.pwr.est ≤ 16 * (s.pwr.cap + s.pwr.guard) → t.pwr.guardActive = s.pwr.guardActive ∧
        ∀ q, (t.quad q).div = (s.quad q).div) ∧
      t = { s with pwr := t.pwr, pages := t.pages, outs := t.outs, pce := t.pce })) ∧
  (∀ (s : State) (measured : List (Nat × Nat)), Completes (.allocatorDecision measured) s (fun t =>
    t.pwr.guardActive = false ∧ (∀ q < 4, (t.quad q).divGuard = false ∧ (t.quad q).divLimit = (s.quad q).divLimit) ∧
    (∀ q < 4, (s.quad q).bedrock = true → t.quad q = { s.quad q with divGuard := false }) ∧
    (∀ c p, (s.ctx c).hint = some p → (t.ctx c).phase = p ∧ (t.ctx c).hint = none) ∧
    t = { s with pwr := t.pwr, ctxs := t.ctxs, pages := t.pages, outs := t.outs, pce := t.pce })) ∧
  (∀ (s : State) (q : QuadNum), NoneWaits s →
    ((s.quad q.val).change = none → Completes (.pstepSwitch q) s (fun t => t = s) ∧
      Completes (.regFail q) s (fun t => t = s)) ∧
    (∀ c, (s.quad q.val).change = some c →
      (c.up = true → c.noAck = true ∨ (s.quad q.val).vrdy = false → Completes (.pstepSwitch q) s (fun t => t = s)) ∧
      (c.up = false ∨ (c.noAck = false ∧ (s.quad q.val).vrdy = true) →
        ((s.quad q.val).target = c.target → Completes (.pstepSwitch q) s (fun t =>
          t.quad q.val = { s.quad q.val with
            pstep := c.target, idlePll := c.target - 1, volt := c.target, change := none } ∧
          (∀ k, k ≠ q.val → t.quad k = s.quad k) ∧ t = { s with pwr := t.pwr })) ∧
        ((s.quad q.val).target ≠ c.target → Completes (.pstepSwitch q) s (fun t => (t.quad q.val).pstep = c.target ∧
          (t.quad q.val).change.map (·.target) = some (s.quad q.val).target ∧
          (∀ k, k ≠ q.val → t.quad k = s.quad k) ∧ t = { s with pwr := t.pwr, pages := t.pages }))) ∧
      (c.up = false ∨ (c.noAck = false ∧ s.clock < c.since + 200000) → Completes (.regFail q) s (fun t => t = s)) ∧
      (c.up = true → c.noAck = true ∨ c.since + 200000 ≤ s.clock → Completes (.regFail q) s (fun t =>
        t.quad q.val = { s.quad q.val with
          target := (s.quad q.val).pstep, volt := (s.quad q.val).pstep, idlePll := (s.quad q.val).pstep - 1, change := none } ∧
        (∀ k, k ≠ q.val → t.quad k = s.quad k) ∧ (t.hdr .pwr).errStat.getLsbD Bit.pwrRegFail = true ∧
        (∃ ev, t.safe.inbox = s.safe.inbox ++ [ev] ∧ ev.cause = Cause.regulatorFail) ∧ SameMemory s t)))) ∧
  (∀ (s : State) (n : Fin 64) (x : Int), (s.hdr .pwr).inj = 0 →
    (sensorBad n.val x s = true → Completes (.sensorSample n x) s (fun t =>
      n.val ∈ t.pwr.excluded ∧ n.val ∉ t.pwr.valid ∧ t.safe.invOut = s.safe.invOut ∧ t.pwr.overGrade = s.pwr.overGrade ∧
      (n.val ∉ s.pwr.excluded → (t.hdr .pwr).errStat.getLsbD Bit.pwrSensor = true ∧
        ∃ ev, t.safe.inbox = s.safe.inbox ++ [ev] ∧ ev.cause = Cause.sensorExcluded) ∧ SameMemory s t)) ∧
    (sensorBad n.val x s = false → Completes (.sensorSample n x) s (fun t =>
      Tab.get t.pwr.tj 0 n.val = x ∧ n.val ∈ t.pwr.valid ∧ n.val ∉ t.pwr.excluded ∧ t.pwr.quads = s.pwr.quads ∧ SameMemory s t ∧
      (s.gradeBound < x → s.pwr.overGrade = false → t.pwr.overGrade = true ∧
        t.safe.invOut = s.safe.invOut ++ [powerInval false] ∧ (t.hdr .pwr).errStat.getLsbD Bit.pwrOverGrade = true) ∧
      (x ≤ s.gradeBound → t.pwr.overGrade = s.pwr.overGrade ∧ t.safe = s.safe)))) ∧
  (∀ (s : State),
    (s.pwr.overGrade = false ∨ s.pwr.coolSince.any (fun x => x + 10000000 ≤ s.clock) = false →
      Completes .tjOverGradeClear s (fun t => t = s)) ∧
    (s.pwr.overGrade = true → s.pwr.coolSince.any (fun x => x + 10000000 ≤ s.clock) = true →
      Completes .tjOverGradeClear s (fun t => t.pwr = { s.pwr with overGrade := false } ∧
        t.safe.invOut = (if s.pwr.limitActive then s.safe.invOut else s.safe.invOut ++ [powerInval true]) ∧
        t = { s with pwr := t.pwr, safe := t.safe })))

/-- PWR_LIMIT_N engages the divider of every quadrant, counts the assertion, reports a device fault and asks for
POWER_LIMIT on the safety streams; its end releases the dividers and withdraws that, unless a sensor above the grade
bound still holds it. THERMTRIP and the loss of coolant stop the array and vector clocks, close ingress, enter the
safe state with their causes and change no core, no stream and no memory. When the clocks stop, every accepted item
has its record, every active DMC channel is in self-refresh and nothing but that, the queues' freeze and the listed
clocks changes; without such a stop nothing changes. After that the pages of the stopped domains read 0 and discard
writes. With nothing waiting inside the device, a fall of VRDY on a booted device while the voltage is not being
changed isolates the quadrant, with a supply fault; while the voltage is being changed or before READY only its
level changes. -/
def Obligations.PowerLimitsAndStopsComplete : Prop :=
  (∀ (s : State),
    Completes .pwrLimit s (fun t => (∀ q < 4, (t.quad q).div = true ∧ t.quad q = { s.quad q with divLimit := true }) ∧
      t.pwr.limitActive = true ∧ t.pwr.limitEvents = sat32 (s.pwr.limitEvents + 1) ∧
      (∃ ev, t.safe.inbox = s.safe.inbox ++ [ev] ∧ ev.cause = Cause.powerLimit ∧ ev.cls = 2) ∧
      t.safe.invOut = s.safe.invOut ++ [powerInval false] ∧ (t.hdr .pwr).errStat.getLsbD Bit.pwrLimit = true ∧
      t.streams = s.streams ∧ t.cores = s.cores ∧ SameMemory s t) ∧
    (s.pwr.limitActive = false → Completes .pwrLimitRelease s (fun t => t = s)) ∧
    (s.pwr.limitActive = true → Completes .pwrLimitRelease s (fun t =>
      (∀ q < 4, t.quad q = { s.quad q with divLimit := false }) ∧ t.pwr.limitActive = false ∧
      t.safe.invOut = (if s.pwr.overGrade then s.safe.invOut else s.safe.invOut ++ [powerInval true]) ∧
      t = { s with pwr := t.pwr, safe := t.safe }))) ∧
  (∀ (s : State) (n : Fin 64), s.safe.ssCause = 0 →
    Completes (.thermtrip n) s (fun t => t.safe.ssCause = SS.thermtrip ∧ PinsLow t ∧ t.pwr.thermtrip = true ∧
      t.pwr.stopped = true ∧ t.boot.ingressClosed = true ∧ t.cores = s.cores ∧ t.streams = s.streams ∧ SameMemory s t) ∧
    Completes .coolant s (fun t => t.safe.ssCause = SS.coolant ∧ PinsLow t ∧ t.pwr.coolantOk = false ∧
      t.pwr.stopped = true ∧ t.boot.ingressClosed = true ∧ t.cores = s.cores ∧ t.streams = s.streams ∧ SameMemory s t)) ∧
  (∀ (s : State) (n : Fin 64), s.safe.ssCause ≠ 0 → ∀ i ∈ [Instr.thermtrip n, .coolant], Completes i s (fun t =>
    t.safe = s.safe ∧ t.pwr.stopped = true ∧ t.boot.ingressClosed = true ∧ t.cores = s.cores ∧ t.streams = s.streams ∧
    SameMemory s t)) ∧
  (∀ (s : State),
    (s.pwr.stopped = false ∨ s.pwr.retention = true → Completes .coolantClockStop s (fun t => t = s)) ∧
    (s.pwr.stopped = true → s.pwr.retention = false → Completes .coolantClockStop s (fun t =>
      t.pwr = { s.pwr with retention := true } ∧ t.qmg = { s.qmg with frozen := true } ∧
      (∀ c, (s.dmc c).mode = .active → (t.dmc c).mode = .selfRefresh) ∧
      (∀ id st, s.stream? id = some st → ∃ u, t.stream? id = some u ∧ u.items = [] ∧
        (∀ it ∈ st.items, ∃ r ∈ u.formed, r.seq = it.seq) ∧ (∀ r ∈ st.formed, r ∈ u.formed)) ∧
      (∀ fn b off, b.stops = true → readReg t fn b off = 0) ∧ (∀ fn b off, b.stops = true → ∀ v, writeReg fn b off v t = t) ∧
      t = { s with pwr := t.pwr, qmg := t.qmg, dmcs := t.dmcs, streams := t.streams, free := t.free } ∧
      t.cores = s.cores ∧ SameMemory s t))) ∧
  (∀ (s : State) (q : QuadNum), NoneWaits s →
    ((s.quad q.val).change.isSome = true ∨ s.boot.ready = false → Completes (.vrdyFall q) s (fun t =>
      t.quad q.val = { s.quad q.val with vrdy := false } ∧ (∀ k, k ≠ q.val → t.quad k = s.quad k) ∧
      t = { s with pwr := t.pwr })) ∧
    ((s.quad q.val).change = none → s.boot.ready = true → Completes (.vrdyFall q) s (fun t =>
      (t.quad q.val).isolated = true ∧ (t.quad q.val).vrdy = false ∧
      ((s.quad q.val).isolated = false →
        ∃ ev ∈ t.safe.inbox, ev.cause = Cause.supplyFault))))
end

