-- ==== Sys2Proof/Laws/Tab.lean ====
section
/-! SUPPORT. What the operations on sparse tables do: reading after writing, and the canonical form of a memory. -/

namespace Sys2Proof.Machine

open Sys2Proof

variable {α : Type}

theorem Tab.find_insert (t : Tab α) (k j : Nat) (v : α) :
    Tab.find (Tab.insert t k v) j = if j = k then some v else Tab.find t j := by
  induction t with
  | nil => simp only [Tab.insert, Tab.find]
  | cons p t ih =>
    obtain ⟨a, b⟩ := p
    simp only [Tab.insert]
    split
    · simp only [Tab.find]
    · split
      · subst_vars; simp only [Tab.find]; split <;> simp_all
      · simp only [Tab.find, ih]; split <;> split <;> simp_all

@[simp] theorem Tab.find_insert_self (t : Tab α) (k : Nat) (v : α) : Tab.find (Tab.insert t k v) k = some v := by
  simp [Tab.find_insert]

theorem Tab.find_insert_ne (t : Tab α) {k j : Nat} (v : α) (h : j ≠ k) :
    Tab.find (Tab.insert t k v) j = Tab.find t j := by simp [Tab.find_insert, h]

theorem Tab.get_insert (t : Tab α) (d : α) (k j : Nat) (v : α) :
    Tab.get (Tab.insert t k v) d j = if j = k then v else Tab.get t d j := by
  simp only [Tab.get, Tab.find_insert]; split <;> rfl

@[simp] theorem Tab.get_insert_self (t : Tab α) (d : α) (k : Nat) (v : α) : Tab.get (Tab.insert t k v) d k = v := by
  simp [Tab.get_insert]

theorem Tab.get_insert_ne (t : Tab α) (d : α) {k j : Nat} (v : α) (h : j ≠ k) :
    Tab.get (Tab.insert t k v) d j = Tab.get t d j := by simp [Tab.get_insert, h]

theorem Tab.find_erase (t : Tab α) (k j : Nat) :
    Tab.find (Tab.erase t k) j = if j = k then none else Tab.find t j := by
  induction t with
  | nil => simp [Tab.erase, Tab.find]
  | cons p t ih =>
    obtain ⟨a, b⟩ := p
    simp only [Tab.erase]
    split
    · subst_vars; rw [ih]; split <;> simp_all [Tab.find]
    · simp only [Tab.find, ih]; split <;> split <;> simp_all

@[simp] theorem Tab.find_erase_self (t : Tab α) (k : Nat) : Tab.find (Tab.erase t k) k = none := by simp [Tab.find_erase]

theorem Tab.find_erase_ne (t : Tab α) {k j : Nat} (h : j ≠ k) : Tab.find (Tab.erase t k) j = Tab.find t j := by
  simp [Tab.find_erase, h]

theorem Tab.find_modify (t : Tab α) (k j : Nat) (f : α → α) :
    Tab.find (Tab.modify t k f) j = if j = k then (Tab.find t k).map f else Tab.find t j := by
  unfold Tab.modify
  split
  · rename_i h
    split
    · subst_vars; simp [h]
    · rfl
  · rename_i h; simp [Tab.find_insert, h]

theorem Tab.find_modify_ne (t : Tab α) {k j : Nat} (f : α → α) (h : j ≠ k) :
    Tab.find (Tab.modify t k f) j = Tab.find t j := by simp [Tab.find_modify, h]

theorem Tab.head_insert (t : Tab α) (k : Nat) (v : α) :
    ∀ q ∈ (Tab.insert t k v).head?, q.1 = k ∨ q ∈ t.head? := by
  intro q hq
  cases t with
  | nil => simp [Tab.insert] at hq; simp [← hq]
  | cons p t =>
    obtain ⟨a, b⟩ := p
    simp only [Tab.insert] at hq
    split at hq
    · simp at hq; simp [← hq]
    · split at hq
      · simp at hq; simp [← hq]
      · exact .inr hq

section Memory

variable [DecidableEq α] {d : α}

theorem Tab.get_write_ne (t : Tab α) {k j : Nat} (v : α) (h : j ≠ k) :
    Tab.get (Tab.write t d k v) d j = Tab.get t d j := by
  unfold Tab.write
  split
  · simp [Tab.get, Tab.find_erase_ne t h]
  · exact Tab.get_insert_ne t d v h

/-- The first key of a table in canonical form lies below every other. -/
theorem Tab.wf_tail {p : Nat × α} {t : Tab α} (h : Tab.wf d (p :: t) = true) : Tab.wf d t = true := by
  cases t with
  | nil => rfl
  | cons q t => simp only [Tab.wf, Bool.and_eq_true] at h; exact h.2

theorem Tab.wf_head {p : Nat × α} {t : Tab α} (h : Tab.wf d (p :: t) = true) : p.2 ≠ d := by
  cases t with
  | nil => simpa [Tab.wf] using h
  | cons q t => simp only [Tab.wf, Bool.and_eq_true, decide_eq_true_eq] at h; exact h.1.1

theorem Tab.wf_cons {k : Nat} {v : α} {t : Tab α} :
    Tab.wf d ((k, v) :: t) = true ↔ v ≠ d ∧ (∀ q ∈ t.head?, k < q.1) ∧ Tab.wf d t = true := by
  cases t with
  | nil => simp [Tab.wf]
  | cons q t => simp [Tab.wf, and_assoc]

theorem Tab.wf_insert {t : Tab α} {k : Nat} {v : α} (hv : v ≠ d) (h : Tab.wf d t = true) :
    Tab.wf d (Tab.insert t k v) = true := by
  induction t with
  | nil => simp [Tab.insert, Tab.wf, hv]
  | cons p t ih =>
    obtain ⟨a, b⟩ := p
    have hc := Tab.wf_cons.mp h
    simp only [Tab.insert]
    split
    · exact Tab.wf_cons.mpr ⟨hv, by simpa, h⟩
    · split
      · subst_vars; exact Tab.wf_cons.mpr ⟨hv, hc.2.1, hc.2.2⟩
      · refine Tab.wf_cons.mpr ⟨hc.1, ?_, ih hc.2.2⟩
        intro q hq
        rcases Tab.head_insert t k v q hq with e | e
        · omega
        · exact hc.2.1 q e

/-- In canonical form every key lies above the first. -/
theorem Tab.find_below {t : Tab α} {k : Nat} (h : Tab.wf d t = true) (hk : ∀ q ∈ t.head?, k < q.1) : Tab.find t k = none := by
  induction t with
  | nil => rfl
  | cons p t ih =>
    obtain ⟨a, b⟩ := p
    have hc := Tab.wf_cons.mp h
    have ha : k < a := by simpa using hk
    simp only [Tab.find]
    rw [if_neg (by omega)]
    exact ih hc.2.2 (fun q hq => Nat.lt_trans ha (hc.2.1 q hq))

theorem Tab.head_erase {t : Tab α} {a k : Nat} (h : Tab.wf d t = true) (ha : ∀ q ∈ t.head?, a < q.1) :
    ∀ q ∈ (Tab.erase t k).head?, a < q.1 := by
  induction t with
  | nil => simp [Tab.erase]
  | cons p t ih =>
    obtain ⟨x, y⟩ := p
    have hc := Tab.wf_cons.mp h
    have hx : a < x := by simpa using ha
    simp only [Tab.erase]
    split
    · exact ih hc.2.2 (fun q hq => Nat.lt_trans hx (hc.2.1 q hq))
    · simpa using hx

theorem Tab.wf_erase {t : Tab α} {k : Nat} (h : Tab.wf d t = true) : Tab.wf d (Tab.erase t k) = true := by
  induction t with
  | nil => rfl
  | cons p t ih =>
    obtain ⟨a, b⟩ := p
    have hc := Tab.wf_cons.mp h
    simp only [Tab.erase]
    split
    · exact ih hc.2.2
    · exact Tab.wf_cons.mpr ⟨hc.1, Tab.head_erase hc.2.2 hc.2.1, ih hc.2.2⟩

/-- Writing a cell keeps the canonical form. -/
theorem Tab.wf_write {t : Tab α} {k : Nat} {v : α} (h : Tab.wf d t = true) : Tab.wf d (Tab.write t d k v) = true := by
  unfold Tab.write
  split
  · exact Tab.wf_erase h
  · exact Tab.wf_insert ‹_› h

/-- A cell of a memory reads what was written to it. -/
@[simp] theorem Tab.get_write_self (t : Tab α) (k : Nat) (v : α) : Tab.get (Tab.write t d k v) d k = v := by
  unfold Tab.write
  split
  · subst_vars; simp [Tab.get]
  · simp

/-- Reading a cell of a memory after a write. -/
theorem Tab.get_write (t : Tab α) (k j : Nat) (v : α) :
    Tab.get (Tab.write t d k v) d j = if j = k then v else Tab.get t d j := by
  split
  · subst_vars; exact Tab.get_write_self t _ v
  · exact Tab.get_write_ne t v ‹_›

end Memory

end Sys2Proof.Machine
end

