-- ==== Sys2Proof/Laws/State.lean ====
section
/-! SUPPORT. What each named update of the state leaves alone, field by field, and what the field it changes becomes: true by
definition, so that no proof need unfold an update. -/

namespace Sys2Proof.Machine

open Sys2Proof

/-! ### setCore -/

@[simp] theorem State.setCore_pending (s : State) (n : Nat) (c : CoreSt) : (s.setCore n c).pending = s.pending := rfl
@[simp] theorem State.setCore_clock (s : State) (n : Nat) (c : CoreSt) : (s.setCore n c).clock = s.clock := rfl
@[simp] theorem State.setCore_free (s : State) (n : Nat) (c : CoreSt) : (s.setCore n c).free = s.free := rfl
@[simp] theorem State.setCore_outs (s : State) (n : Nat) (c : CoreSt) : (s.setCore n c).outs = s.outs := rfl
@[simp] theorem State.setCore_pages (s : State) (n : Nat) (c : CoreSt) : (s.setCore n c).pages = s.pages := rfl
@[simp] theorem State.setCore_sels (s : State) (n : Nat) (c : CoreSt) : (s.setCore n c).sels = s.sels := rfl
@[simp] theorem State.setCore_parts (s : State) (n : Nat) (c : CoreSt) : (s.setCore n c).parts = s.parts := rfl
@[simp] theorem State.setCore_ctxs (s : State) (n : Nat) (c : CoreSt) : (s.setCore n c).ctxs = s.ctxs := rfl
@[simp] theorem State.setCore_images (s : State) (n : Nat) (c : CoreSt) : (s.setCore n c).images = s.images := rfl
@[simp] theorem State.setCore_streams (s : State) (n : Nat) (c : CoreSt) : (s.setCore n c).streams = s.streams := rfl
@[simp] theorem State.setCore_slotEpochs (s : State) (n : Nat) (c : CoreSt) : (s.setCore n c).slotEpochs = s.slotEpochs := rfl
@[simp] theorem State.setCore_qmg (s : State) (n : Nat) (c : CoreSt) : (s.setCore n c).qmg = s.qmg := rfl
@[simp] theorem State.setCore_ports (s : State) (n : Nat) (c : CoreSt) : (s.setCore n c).ports = s.ports := rfl
@[simp] theorem State.setCore_tal (s : State) (n : Nat) (c : CoreSt) : (s.setCore n c).tal = s.tal := rfl
@[simp] theorem State.setCore_ppe (s : State) (n : Nat) (c : CoreSt) : (s.setCore n c).ppe = s.ppe := rfl
@[simp] theorem State.setCore_slices (s : State) (n : Nat) (c : CoreSt) : (s.setCore n c).slices = s.slices := rfl
@[simp] theorem State.setCore_mesh (s : State) (n : Nat) (c : CoreSt) : (s.setCore n c).mesh = s.mesh := rfl
@[simp] theorem State.setCore_dmcs (s : State) (n : Nat) (c : CoreSt) : (s.setCore n c).dmcs = s.dmcs := rfl
@[simp] theorem State.setCore_dram (s : State) (n : Nat) (c : CoreSt) : (s.setCore n c).dram = s.dram := rfl
@[simp] theorem State.setCore_dramPoison (s : State) (n : Nat) (c : CoreSt) : (s.setCore n c).dramPoison = s.dramPoison := rfl
@[simp] theorem State.setCore_scrubHours (s : State) (n : Nat) (c : CoreSt) : (s.setCore n c).scrubHours = s.scrubHours := rfl
@[simp] theorem State.setCore_safe (s : State) (n : Nat) (c : CoreSt) : (s.setCore n c).safe = s.safe := rfl
@[simp] theorem State.setCore_pwr (s : State) (n : Nat) (c : CoreSt) : (s.setCore n c).pwr = s.pwr := rfl
@[simp] theorem State.setCore_ctl (s : State) (n : Nat) (c : CoreSt) : (s.setCore n c).ctl = s.ctl := rfl
@[simp] theorem State.setCore_dbg (s : State) (n : Nat) (c : CoreSt) : (s.setCore n c).dbg = s.dbg := rfl
@[simp] theorem State.setCore_nvm (s : State) (n : Nat) (c : CoreSt) : (s.setCore n c).nvm = s.nvm := rfl
@[simp] theorem State.setCore_boot (s : State) (n : Nat) (c : CoreSt) : (s.setCore n c).boot = s.boot := rfl
@[simp] theorem State.setCore_pce (s : State) (n : Nat) (c : CoreSt) : (s.setCore n c).pce = s.pce := rfl
@[simp] theorem State.setCore_tlks (s : State) (n : Nat) (c : CoreSt) : (s.setCore n c).tlks = s.tlks := rfl
@[simp] theorem State.setCore_mons (s : State) (n : Nat) (c : CoreSt) : (s.setCore n c).mons = s.mons := rfl

/-! ### modCore -/

@[simp] theorem State.modCore_pending (s : State) (n : Nat) (f : CoreSt → CoreSt) : (s.modCore n f).pending = s.pending := rfl
@[simp] theorem State.modCore_clock (s : State) (n : Nat) (f : CoreSt → CoreSt) : (s.modCore n f).clock = s.clock := rfl
@[simp] theorem State.modCore_free (s : State) (n : Nat) (f : CoreSt → CoreSt) : (s.modCore n f).free = s.free := rfl
@[simp] theorem State.modCore_outs (s : State) (n : Nat) (f : CoreSt → CoreSt) : (s.modCore n f).outs = s.outs := rfl
@[simp] theorem State.modCore_pages (s : State) (n : Nat) (f : CoreSt → CoreSt) : (s.modCore n f).pages = s.pages := rfl
@[simp] theorem State.modCore_sels (s : State) (n : Nat) (f : CoreSt → CoreSt) : (s.modCore n f).sels = s.sels := rfl
@[simp] theorem State.modCore_parts (s : State) (n : Nat) (f : CoreSt → CoreSt) : (s.modCore n f).parts = s.parts := rfl
@[simp] theorem State.modCore_ctxs (s : State) (n : Nat) (f : CoreSt → CoreSt) : (s.modCore n f).ctxs = s.ctxs := rfl
@[simp] theorem State.modCore_images (s : State) (n : Nat) (f : CoreSt → CoreSt) : (s.modCore n f).images = s.images := rfl
@[simp] theorem State.modCore_streams (s : State) (n : Nat) (f : CoreSt → CoreSt) : (s.modCore n f).streams = s.streams := rfl
@[simp] theorem State.modCore_slotEpochs (s : State) (n : Nat) (f : CoreSt → CoreSt) : (s.modCore n f).slotEpochs = s.slotEpochs := rfl
@[simp] theorem State.modCore_qmg (s : State) (n : Nat) (f : CoreSt → CoreSt) : (s.modCore n f).qmg = s.qmg := rfl
@[simp] theorem State.modCore_ports (s : State) (n : Nat) (f : CoreSt → CoreSt) : (s.modCore n f).ports = s.ports := rfl
@[simp] theorem State.modCore_tal (s : State) (n : Nat) (f : CoreSt → CoreSt) : (s.modCore n f).tal = s.tal := rfl
@[simp] theorem State.modCore_ppe (s : State) (n : Nat) (f : CoreSt → CoreSt) : (s.modCore n f).ppe = s.ppe := rfl
@[simp] theorem State.modCore_slices (s : State) (n : Nat) (f : CoreSt → CoreSt) : (s.modCore n f).slices = s.slices := rfl
@[simp] theorem State.modCore_mesh (s : State) (n : Nat) (f : CoreSt → CoreSt) : (s.modCore n f).mesh = s.mesh := rfl
@[simp] theorem State.modCore_dmcs (s : State) (n : Nat) (f : CoreSt → CoreSt) : (s.modCore n f).dmcs = s.dmcs := rfl
@[simp] theorem State.modCore_dram (s : State) (n : Nat) (f : CoreSt → CoreSt) : (s.modCore n f).dram = s.dram := rfl
@[simp] theorem State.modCore_dramPoison (s : State) (n : Nat) (f : CoreSt → CoreSt) : (s.modCore n f).dramPoison = s.dramPoison := rfl
@[simp] theorem State.modCore_scrubHours (s : State) (n : Nat) (f : CoreSt → CoreSt) : (s.modCore n f).scrubHours = s.scrubHours := rfl
@[simp] theorem State.modCore_safe (s : State) (n : Nat) (f : CoreSt → CoreSt) : (s.modCore n f).safe = s.safe := rfl
@[simp] theorem State.modCore_pwr (s : State) (n : Nat) (f : CoreSt → CoreSt) : (s.modCore n f).pwr = s.pwr := rfl
@[simp] theorem State.modCore_ctl (s : State) (n : Nat) (f : CoreSt → CoreSt) : (s.modCore n f).ctl = s.ctl := rfl
@[simp] theorem State.modCore_dbg (s : State) (n : Nat) (f : CoreSt → CoreSt) : (s.modCore n f).dbg = s.dbg := rfl
@[simp] theorem State.modCore_nvm (s : State) (n : Nat) (f : CoreSt → CoreSt) : (s.modCore n f).nvm = s.nvm := rfl
@[simp] theorem State.modCore_boot (s : State) (n : Nat) (f : CoreSt → CoreSt) : (s.modCore n f).boot = s.boot := rfl
@[simp] theorem State.modCore_pce (s : State) (n : Nat) (f : CoreSt → CoreSt) : (s.modCore n f).pce = s.pce := rfl
@[simp] theorem State.modCore_tlks (s : State) (n : Nat) (f : CoreSt → CoreSt) : (s.modCore n f).tlks = s.tlks := rfl
@[simp] theorem State.modCore_mons (s : State) (n : Nat) (f : CoreSt → CoreSt) : (s.modCore n f).mons = s.mons := rfl

/-! ### setCtx -/

@[simp] theorem State.setCtx_pending (s : State) (c : Nat) (x : Ctx) : (s.setCtx c x).pending = s.pending := rfl
@[simp] theorem State.setCtx_clock (s : State) (c : Nat) (x : Ctx) : (s.setCtx c x).clock = s.clock := rfl
@[simp] theorem State.setCtx_free (s : State) (c : Nat) (x : Ctx) : (s.setCtx c x).free = s.free := rfl
@[simp] theorem State.setCtx_outs (s : State) (c : Nat) (x : Ctx) : (s.setCtx c x).outs = s.outs := rfl
@[simp] theorem State.setCtx_pages (s : State) (c : Nat) (x : Ctx) : (s.setCtx c x).pages = s.pages := rfl
@[simp] theorem State.setCtx_sels (s : State) (c : Nat) (x : Ctx) : (s.setCtx c x).sels = s.sels := rfl
@[simp] theorem State.setCtx_cores (s : State) (c : Nat) (x : Ctx) : (s.setCtx c x).cores = s.cores := rfl
@[simp] theorem State.setCtx_parts (s : State) (c : Nat) (x : Ctx) : (s.setCtx c x).parts = s.parts := rfl
@[simp] theorem State.setCtx_images (s : State) (c : Nat) (x : Ctx) : (s.setCtx c x).images = s.images := rfl
@[simp] theorem State.setCtx_streams (s : State) (c : Nat) (x : Ctx) : (s.setCtx c x).streams = s.streams := rfl
@[simp] theorem State.setCtx_slotEpochs (s : State) (c : Nat) (x : Ctx) : (s.setCtx c x).slotEpochs = s.slotEpochs := rfl
@[simp] theorem State.setCtx_qmg (s : State) (c : Nat) (x : Ctx) : (s.setCtx c x).qmg = s.qmg := rfl
@[simp] theorem State.setCtx_ports (s : State) (c : Nat) (x : Ctx) : (s.setCtx c x).ports = s.ports := rfl
@[simp] theorem State.setCtx_tal (s : State) (c : Nat) (x : Ctx) : (s.setCtx c x).tal = s.tal := rfl
@[simp] theorem State.setCtx_ppe (s : State) (c : Nat) (x : Ctx) : (s.setCtx c x).ppe = s.ppe := rfl
@[simp] theorem State.setCtx_slices (s : State) (c : Nat) (x : Ctx) : (s.setCtx c x).slices = s.slices := rfl
@[simp] theorem State.setCtx_mesh (s : State) (c : Nat) (x : Ctx) : (s.setCtx c x).mesh = s.mesh := rfl
@[simp] theorem State.setCtx_dmcs (s : State) (c : Nat) (x : Ctx) : (s.setCtx c x).dmcs = s.dmcs := rfl
@[simp] theorem State.setCtx_dram (s : State) (c : Nat) (x : Ctx) : (s.setCtx c x).dram = s.dram := rfl
@[simp] theorem State.setCtx_dramPoison (s : State) (c : Nat) (x : Ctx) : (s.setCtx c x).dramPoison = s.dramPoison := rfl
@[simp] theorem State.setCtx_scrubHours (s : State) (c : Nat) (x : Ctx) : (s.setCtx c x).scrubHours = s.scrubHours := rfl
@[simp] theorem State.setCtx_safe (s : State) (c : Nat) (x : Ctx) : (s.setCtx c x).safe = s.safe := rfl
@[simp] theorem State.setCtx_pwr (s : State) (c : Nat) (x : Ctx) : (s.setCtx c x).pwr = s.pwr := rfl
@[simp] theorem State.setCtx_ctl (s : State) (c : Nat) (x : Ctx) : (s.setCtx c x).ctl = s.ctl := rfl
@[simp] theorem State.setCtx_dbg (s : State) (c : Nat) (x : Ctx) : (s.setCtx c x).dbg = s.dbg := rfl
@[simp] theorem State.setCtx_nvm (s : State) (c : Nat) (x : Ctx) : (s.setCtx c x).nvm = s.nvm := rfl
@[simp] theorem State.setCtx_boot (s : State) (c : Nat) (x : Ctx) : (s.setCtx c x).boot = s.boot := rfl
@[simp] theorem State.setCtx_pce (s : State) (c : Nat) (x : Ctx) : (s.setCtx c x).pce = s.pce := rfl
@[simp] theorem State.setCtx_tlks (s : State) (c : Nat) (x : Ctx) : (s.setCtx c x).tlks = s.tlks := rfl
@[simp] theorem State.setCtx_mons (s : State) (c : Nat) (x : Ctx) : (s.setCtx c x).mons = s.mons := rfl

/-! ### modCtx -/

@[simp] theorem State.modCtx_pending (s : State) (c : Nat) (f : Ctx → Ctx) : (s.modCtx c f).pending = s.pending := rfl
@[simp] theorem State.modCtx_clock (s : State) (c : Nat) (f : Ctx → Ctx) : (s.modCtx c f).clock = s.clock := rfl
@[simp] theorem State.modCtx_free (s : State) (c : Nat) (f : Ctx → Ctx) : (s.modCtx c f).free = s.free := rfl
@[simp] theorem State.modCtx_outs (s : State) (c : Nat) (f : Ctx → Ctx) : (s.modCtx c f).outs = s.outs := rfl
@[simp] theorem State.modCtx_pages (s : State) (c : Nat) (f : Ctx → Ctx) : (s.modCtx c f).pages = s.pages := rfl
@[simp] theorem State.modCtx_sels (s : State) (c : Nat) (f : Ctx → Ctx) : (s.modCtx c f).sels = s.sels := rfl
@[simp] theorem State.modCtx_cores (s : State) (c : Nat) (f : Ctx → Ctx) : (s.modCtx c f).cores = s.cores := rfl
@[simp] theorem State.modCtx_parts (s : State) (c : Nat) (f : Ctx → Ctx) : (s.modCtx c f).parts = s.parts := rfl
@[simp] theorem State.modCtx_images (s : State) (c : Nat) (f : Ctx → Ctx) : (s.modCtx c f).images = s.images := rfl
@[simp] theorem State.modCtx_streams (s : State) (c : Nat) (f : Ctx → Ctx) : (s.modCtx c f).streams = s.streams := rfl
@[simp] theorem State.modCtx_slotEpochs (s : State) (c : Nat) (f : Ctx → Ctx) : (s.modCtx c f).slotEpochs = s.slotEpochs := rfl
@[simp] theorem State.modCtx_qmg (s : State) (c : Nat) (f : Ctx → Ctx) : (s.modCtx c f).qmg = s.qmg := rfl
@[simp] theorem State.modCtx_ports (s : State) (c : Nat) (f : Ctx → Ctx) : (s.modCtx c f).ports = s.ports := rfl
@[simp] theorem State.modCtx_tal (s : State) (c : Nat) (f : Ctx → Ctx) : (s.modCtx c f).tal = s.tal := rfl
@[simp] theorem State.modCtx_ppe (s : State) (c : Nat) (f : Ctx → Ctx) : (s.modCtx c f).ppe = s.ppe := rfl
@[simp] theorem State.modCtx_slices (s : State) (c : Nat) (f : Ctx → Ctx) : (s.modCtx c f).slices = s.slices := rfl
@[simp] theorem State.modCtx_mesh (s : State) (c : Nat) (f : Ctx → Ctx) : (s.modCtx c f).mesh = s.mesh := rfl
@[simp] theorem State.modCtx_dmcs (s : State) (c : Nat) (f : Ctx → Ctx) : (s.modCtx c f).dmcs = s.dmcs := rfl
@[simp] theorem State.modCtx_dram (s : State) (c : Nat) (f : Ctx → Ctx) : (s.modCtx c f).dram = s.dram := rfl
@[simp] theorem State.modCtx_dramPoison (s : State) (c : Nat) (f : Ctx → Ctx) : (s.modCtx c f).dramPoison = s.dramPoison := rfl
@[simp] theorem State.modCtx_scrubHours (s : State) (c : Nat) (f : Ctx → Ctx) : (s.modCtx c f).scrubHours = s.scrubHours := rfl
@[simp] theorem State.modCtx_safe (s : State) (c : Nat) (f : Ctx → Ctx) : (s.modCtx c f).safe = s.safe := rfl
@[simp] theorem State.modCtx_pwr (s : State) (c : Nat) (f : Ctx → Ctx) : (s.modCtx c f).pwr = s.pwr := rfl
@[simp] theorem State.modCtx_ctl (s : State) (c : Nat) (f : Ctx → Ctx) : (s.modCtx c f).ctl = s.ctl := rfl
@[simp] theorem State.modCtx_dbg (s : State) (c : Nat) (f : Ctx → Ctx) : (s.modCtx c f).dbg = s.dbg := rfl
@[simp] theorem State.modCtx_nvm (s : State) (c : Nat) (f : Ctx → Ctx) : (s.modCtx c f).nvm = s.nvm := rfl
@[simp] theorem State.modCtx_boot (s : State) (c : Nat) (f : Ctx → Ctx) : (s.modCtx c f).boot = s.boot := rfl
@[simp] theorem State.modCtx_pce (s : State) (c : Nat) (f : Ctx → Ctx) : (s.modCtx c f).pce = s.pce := rfl
@[simp] theorem State.modCtx_tlks (s : State) (c : Nat) (f : Ctx → Ctx) : (s.modCtx c f).tlks = s.tlks := rfl
@[simp] theorem State.modCtx_mons (s : State) (c : Nat) (f : Ctx → Ctx) : (s.modCtx c f).mons = s.mons := rfl

/-! ### modPart -/

@[simp] theorem State.modPart_pending (s : State) (p : Nat) (f : Partition → Partition) : (s.modPart p f).pending = s.pending := rfl
@[simp] theorem State.modPart_clock (s : State) (p : Nat) (f : Partition → Partition) : (s.modPart p f).clock = s.clock := rfl
@[simp] theorem State.modPart_free (s : State) (p : Nat) (f : Partition → Partition) : (s.modPart p f).free = s.free := rfl
@[simp] theorem State.modPart_outs (s : State) (p : Nat) (f : Partition → Partition) : (s.modPart p f).outs = s.outs := rfl
@[simp] theorem State.modPart_pages (s : State) (p : Nat) (f : Partition → Partition) : (s.modPart p f).pages = s.pages := rfl
@[simp] theorem State.modPart_sels (s : State) (p : Nat) (f : Partition → Partition) : (s.modPart p f).sels = s.sels := rfl
@[simp] theorem State.modPart_cores (s : State) (p : Nat) (f : Partition → Partition) : (s.modPart p f).cores = s.cores := rfl
@[simp] theorem State.modPart_ctxs (s : State) (p : Nat) (f : Partition → Partition) : (s.modPart p f).ctxs = s.ctxs := rfl
@[simp] theorem State.modPart_images (s : State) (p : Nat) (f : Partition → Partition) : (s.modPart p f).images = s.images := rfl
@[simp] theorem State.modPart_streams (s : State) (p : Nat) (f : Partition → Partition) : (s.modPart p f).streams = s.streams := rfl
@[simp] theorem State.modPart_slotEpochs (s : State) (p : Nat) (f : Partition → Partition) : (s.modPart p f).slotEpochs = s.slotEpochs := rfl
@[simp] theorem State.modPart_qmg (s : State) (p : Nat) (f : Partition → Partition) : (s.modPart p f).qmg = s.qmg := rfl
@[simp] theorem State.modPart_ports (s : State) (p : Nat) (f : Partition → Partition) : (s.modPart p f).ports = s.ports := rfl
@[simp] theorem State.modPart_tal (s : State) (p : Nat) (f : Partition → Partition) : (s.modPart p f).tal = s.tal := rfl
@[simp] theorem State.modPart_ppe (s : State) (p : Nat) (f : Partition → Partition) : (s.modPart p f).ppe = s.ppe := rfl
@[simp] theorem State.modPart_slices (s : State) (p : Nat) (f : Partition → Partition) : (s.modPart p f).slices = s.slices := rfl
@[simp] theorem State.modPart_mesh (s : State) (p : Nat) (f : Partition → Partition) : (s.modPart p f).mesh = s.mesh := rfl
@[simp] theorem State.modPart_dmcs (s : State) (p : Nat) (f : Partition → Partition) : (s.modPart p f).dmcs = s.dmcs := rfl
@[simp] theorem State.modPart_dram (s : State) (p : Nat) (f : Partition → Partition) : (s.modPart p f).dram = s.dram := rfl
@[simp] theorem State.modPart_dramPoison (s : State) (p : Nat) (f : Partition → Partition) : (s.modPart p f).dramPoison = s.dramPoison := rfl
@[simp] theorem State.modPart_scrubHours (s : State) (p : Nat) (f : Partition → Partition) : (s.modPart p f).scrubHours = s.scrubHours := rfl
@[simp] theorem State.modPart_safe (s : State) (p : Nat) (f : Partition → Partition) : (s.modPart p f).safe = s.safe := rfl
@[simp] theorem State.modPart_pwr (s : State) (p : Nat) (f : Partition → Partition) : (s.modPart p f).pwr = s.pwr := rfl
@[simp] theorem State.modPart_ctl (s : State) (p : Nat) (f : Partition → Partition) : (s.modPart p f).ctl = s.ctl := rfl
@[simp] theorem State.modPart_dbg (s : State) (p : Nat) (f : Partition → Partition) : (s.modPart p f).dbg = s.dbg := rfl
@[simp] theorem State.modPart_nvm (s : State) (p : Nat) (f : Partition → Partition) : (s.modPart p f).nvm = s.nvm := rfl
@[simp] theorem State.modPart_boot (s : State) (p : Nat) (f : Partition → Partition) : (s.modPart p f).boot = s.boot := rfl
@[simp] theorem State.modPart_pce (s : State) (p : Nat) (f : Partition → Partition) : (s.modPart p f).pce = s.pce := rfl
@[simp] theorem State.modPart_tlks (s : State) (p : Nat) (f : Partition → Partition) : (s.modPart p f).tlks = s.tlks := rfl
@[simp] theorem State.modPart_mons (s : State) (p : Nat) (f : Partition → Partition) : (s.modPart p f).mons = s.mons := rfl

/-! ### setStream -/

@[simp] theorem State.setStream_pending (s : State) (i : Nat) (x : Stream) : (s.setStream i x).pending = s.pending := rfl
@[simp] theorem State.setStream_clock (s : State) (i : Nat) (x : Stream) : (s.setStream i x).clock = s.clock := rfl
@[simp] theorem State.setStream_free (s : State) (i : Nat) (x : Stream) : (s.setStream i x).free = s.free := rfl
@[simp] theorem State.setStream_outs (s : State) (i : Nat) (x : Stream) : (s.setStream i x).outs = s.outs := rfl
@[simp] theorem State.setStream_pages (s : State) (i : Nat) (x : Stream) : (s.setStream i x).pages = s.pages := rfl
@[simp] theorem State.setStream_sels (s : State) (i : Nat) (x : Stream) : (s.setStream i x).sels = s.sels := rfl
@[simp] theorem State.setStream_cores (s : State) (i : Nat) (x : Stream) : (s.setStream i x).cores = s.cores := rfl
@[simp] theorem State.setStream_parts (s : State) (i : Nat) (x : Stream) : (s.setStream i x).parts = s.parts := rfl
@[simp] theorem State.setStream_ctxs (s : State) (i : Nat) (x : Stream) : (s.setStream i x).ctxs = s.ctxs := rfl
@[simp] theorem State.setStream_images (s : State) (i : Nat) (x : Stream) : (s.setStream i x).images = s.images := rfl
@[simp] theorem State.setStream_slotEpochs (s : State) (i : Nat) (x : Stream) : (s.setStream i x).slotEpochs = s.slotEpochs := rfl
@[simp] theorem State.setStream_qmg (s : State) (i : Nat) (x : Stream) : (s.setStream i x).qmg = s.qmg := rfl
@[simp] theorem State.setStream_ports (s : State) (i : Nat) (x : Stream) : (s.setStream i x).ports = s.ports := rfl
@[simp] theorem State.setStream_tal (s : State) (i : Nat) (x : Stream) : (s.setStream i x).tal = s.tal := rfl
@[simp] theorem State.setStream_ppe (s : State) (i : Nat) (x : Stream) : (s.setStream i x).ppe = s.ppe := rfl
@[simp] theorem State.setStream_slices (s : State) (i : Nat) (x : Stream) : (s.setStream i x).slices = s.slices := rfl
@[simp] theorem State.setStream_mesh (s : State) (i : Nat) (x : Stream) : (s.setStream i x).mesh = s.mesh := rfl
@[simp] theorem State.setStream_dmcs (s : State) (i : Nat) (x : Stream) : (s.setStream i x).dmcs = s.dmcs := rfl
@[simp] theorem State.setStream_dram (s : State) (i : Nat) (x : Stream) : (s.setStream i x).dram = s.dram := rfl
@[simp] theorem State.setStream_dramPoison (s : State) (i : Nat) (x : Stream) : (s.setStream i x).dramPoison = s.dramPoison := rfl
@[simp] theorem State.setStream_scrubHours (s : State) (i : Nat) (x : Stream) : (s.setStream i x).scrubHours = s.scrubHours := rfl
@[simp] theorem State.setStream_safe (s : State) (i : Nat) (x : Stream) : (s.setStream i x).safe = s.safe := rfl
@[simp] theorem State.setStream_pwr (s : State) (i : Nat) (x : Stream) : (s.setStream i x).pwr = s.pwr := rfl
@[simp] theorem State.setStream_ctl (s : State) (i : Nat) (x : Stream) : (s.setStream i x).ctl = s.ctl := rfl
@[simp] theorem State.setStream_dbg (s : State) (i : Nat) (x : Stream) : (s.setStream i x).dbg = s.dbg := rfl
@[simp] theorem State.setStream_nvm (s : State) (i : Nat) (x : Stream) : (s.setStream i x).nvm = s.nvm := rfl
@[simp] theorem State.setStream_boot (s : State) (i : Nat) (x : Stream) : (s.setStream i x).boot = s.boot := rfl
@[simp] theorem State.setStream_pce (s : State) (i : Nat) (x : Stream) : (s.setStream i x).pce = s.pce := rfl
@[simp] theorem State.setStream_tlks (s : State) (i : Nat) (x : Stream) : (s.setStream i x).tlks = s.tlks := rfl
@[simp] theorem State.setStream_mons (s : State) (i : Nat) (x : Stream) : (s.setStream i x).mons = s.mons := rfl

/-! ### modStream -/

@[simp] theorem State.modStream_pending (s : State) (i : Nat) (f : Stream → Stream) : (s.modStream i f).pending = s.pending := rfl
@[simp] theorem State.modStream_clock (s : State) (i : Nat) (f : Stream → Stream) : (s.modStream i f).clock = s.clock := rfl
@[simp] theorem State.modStream_free (s : State) (i : Nat) (f : Stream → Stream) : (s.modStream i f).free = s.free := rfl
@[simp] theorem State.modStream_outs (s : State) (i : Nat) (f : Stream → Stream) : (s.modStream i f).outs = s.outs := rfl
@[simp] theorem State.modStream_pages (s : State) (i : Nat) (f : Stream → Stream) : (s.modStream i f).pages = s.pages := rfl
@[simp] theorem State.modStream_sels (s : State) (i : Nat) (f : Stream → Stream) : (s.modStream i f).sels = s.sels := rfl
@[simp] theorem State.modStream_cores (s : State) (i : Nat) (f : Stream → Stream) : (s.modStream i f).cores = s.cores := rfl
@[simp] theorem State.modStream_parts (s : State) (i : Nat) (f : Stream → Stream) : (s.modStream i f).parts = s.parts := rfl
@[simp] theorem State.modStream_ctxs (s : State) (i : Nat) (f : Stream → Stream) : (s.modStream i f).ctxs = s.ctxs := rfl
@[simp] theorem State.modStream_images (s : State) (i : Nat) (f : Stream → Stream) : (s.modStream i f).images = s.images := rfl
@[simp] theorem State.modStream_slotEpochs (s : State) (i : Nat) (f : Stream → Stream) : (s.modStream i f).slotEpochs = s.slotEpochs := rfl
@[simp] theorem State.modStream_qmg (s : State) (i : Nat) (f : Stream → Stream) : (s.modStream i f).qmg = s.qmg := rfl
@[simp] theorem State.modStream_ports (s : State) (i : Nat) (f : Stream → Stream) : (s.modStream i f).ports = s.ports := rfl
@[simp] theorem State.modStream_tal (s : State) (i : Nat) (f : Stream → Stream) : (s.modStream i f).tal = s.tal := rfl
@[simp] theorem State.modStream_ppe (s : State) (i : Nat) (f : Stream → Stream) : (s.modStream i f).ppe = s.ppe := rfl
@[simp] theorem State.modStream_slices (s : State) (i : Nat) (f : Stream → Stream) : (s.modStream i f).slices = s.slices := rfl
@[simp] theorem State.modStream_mesh (s : State) (i : Nat) (f : Stream → Stream) : (s.modStream i f).mesh = s.mesh := rfl
@[simp] theorem State.modStream_dmcs (s : State) (i : Nat) (f : Stream → Stream) : (s.modStream i f).dmcs = s.dmcs := rfl
@[simp] theorem State.modStream_dram (s : State) (i : Nat) (f : Stream → Stream) : (s.modStream i f).dram = s.dram := rfl
@[simp] theorem State.modStream_dramPoison (s : State) (i : Nat) (f : Stream → Stream) : (s.modStream i f).dramPoison = s.dramPoison := rfl
@[simp] theorem State.modStream_scrubHours (s : State) (i : Nat) (f : Stream → Stream) : (s.modStream i f).scrubHours = s.scrubHours := rfl
@[simp] theorem State.modStream_safe (s : State) (i : Nat) (f : Stream → Stream) : (s.modStream i f).safe = s.safe := rfl
@[simp] theorem State.modStream_pwr (s : State) (i : Nat) (f : Stream → Stream) : (s.modStream i f).pwr = s.pwr := rfl
@[simp] theorem State.modStream_ctl (s : State) (i : Nat) (f : Stream → Stream) : (s.modStream i f).ctl = s.ctl := rfl
@[simp] theorem State.modStream_dbg (s : State) (i : Nat) (f : Stream → Stream) : (s.modStream i f).dbg = s.dbg := rfl
@[simp] theorem State.modStream_nvm (s : State) (i : Nat) (f : Stream → Stream) : (s.modStream i f).nvm = s.nvm := rfl
@[simp] theorem State.modStream_boot (s : State) (i : Nat) (f : Stream → Stream) : (s.modStream i f).boot = s.boot := rfl
@[simp] theorem State.modStream_pce (s : State) (i : Nat) (f : Stream → Stream) : (s.modStream i f).pce = s.pce := rfl
@[simp] theorem State.modStream_tlks (s : State) (i : Nat) (f : Stream → Stream) : (s.modStream i f).tlks = s.tlks := rfl
@[simp] theorem State.modStream_mons (s : State) (i : Nat) (f : Stream → Stream) : (s.modStream i f).mons = s.mons := rfl

/-! ### modHdr -/

@[simp] theorem State.modHdr_pending (s : State) (b : Block) (f : Header → Header) : (s.modHdr b f).pending = s.pending := rfl
@[simp] theorem State.modHdr_clock (s : State) (b : Block) (f : Header → Header) : (s.modHdr b f).clock = s.clock := rfl
@[simp] theorem State.modHdr_free (s : State) (b : Block) (f : Header → Header) : (s.modHdr b f).free = s.free := rfl
@[simp] theorem State.modHdr_outs (s : State) (b : Block) (f : Header → Header) : (s.modHdr b f).outs = s.outs := rfl
@[simp] theorem State.modHdr_sels (s : State) (b : Block) (f : Header → Header) : (s.modHdr b f).sels = s.sels := rfl
@[simp] theorem State.modHdr_cores (s : State) (b : Block) (f : Header → Header) : (s.modHdr b f).cores = s.cores := rfl
@[simp] theorem State.modHdr_parts (s : State) (b : Block) (f : Header → Header) : (s.modHdr b f).parts = s.parts := rfl
@[simp] theorem State.modHdr_ctxs (s : State) (b : Block) (f : Header → Header) : (s.modHdr b f).ctxs = s.ctxs := rfl
@[simp] theorem State.modHdr_images (s : State) (b : Block) (f : Header → Header) : (s.modHdr b f).images = s.images := rfl
@[simp] theorem State.modHdr_streams (s : State) (b : Block) (f : Header → Header) : (s.modHdr b f).streams = s.streams := rfl
@[simp] theorem State.modHdr_slotEpochs (s : State) (b : Block) (f : Header → Header) : (s.modHdr b f).slotEpochs = s.slotEpochs := rfl
@[simp] theorem State.modHdr_qmg (s : State) (b : Block) (f : Header → Header) : (s.modHdr b f).qmg = s.qmg := rfl
@[simp] theorem State.modHdr_ports (s : State) (b : Block) (f : Header → Header) : (s.modHdr b f).ports = s.ports := rfl
@[simp] theorem State.modHdr_tal (s : State) (b : Block) (f : Header → Header) : (s.modHdr b f).tal = s.tal := rfl
@[simp] theorem State.modHdr_ppe (s : State) (b : Block) (f : Header → Header) : (s.modHdr b f).ppe = s.ppe := rfl
@[simp] theorem State.modHdr_slices (s : State) (b : Block) (f : Header → Header) : (s.modHdr b f).slices = s.slices := rfl
@[simp] theorem State.modHdr_mesh (s : State) (b : Block) (f : Header → Header) : (s.modHdr b f).mesh = s.mesh := rfl
@[simp] theorem State.modHdr_dmcs (s : State) (b : Block) (f : Header → Header) : (s.modHdr b f).dmcs = s.dmcs := rfl
@[simp] theorem State.modHdr_dram (s : State) (b : Block) (f : Header → Header) : (s.modHdr b f).dram = s.dram := rfl
@[simp] theorem State.modHdr_dramPoison (s : State) (b : Block) (f : Header → Header) : (s.modHdr b f).dramPoison = s.dramPoison := rfl
@[simp] theorem State.modHdr_scrubHours (s : State) (b : Block) (f : Header → Header) : (s.modHdr b f).scrubHours = s.scrubHours := rfl
@[simp] theorem State.modHdr_safe (s : State) (b : Block) (f : Header → Header) : (s.modHdr b f).safe = s.safe := rfl
@[simp] theorem State.modHdr_pwr (s : State) (b : Block) (f : Header → Header) : (s.modHdr b f).pwr = s.pwr := rfl
@[simp] theorem State.modHdr_ctl (s : State) (b : Block) (f : Header → Header) : (s.modHdr b f).ctl = s.ctl := rfl
@[simp] theorem State.modHdr_dbg (s : State) (b : Block) (f : Header → Header) : (s.modHdr b f).dbg = s.dbg := rfl
@[simp] theorem State.modHdr_nvm (s : State) (b : Block) (f : Header → Header) : (s.modHdr b f).nvm = s.nvm := rfl
@[simp] theorem State.modHdr_boot (s : State) (b : Block) (f : Header → Header) : (s.modHdr b f).boot = s.boot := rfl
@[simp] theorem State.modHdr_pce (s : State) (b : Block) (f : Header → Header) : (s.modHdr b f).pce = s.pce := rfl
@[simp] theorem State.modHdr_tlks (s : State) (b : Block) (f : Header → Header) : (s.modHdr b f).tlks = s.tlks := rfl
@[simp] theorem State.modHdr_mons (s : State) (b : Block) (f : Header → Header) : (s.modHdr b f).mons = s.mons := rfl

/-! ### modPort -/

@[simp] theorem State.modPort_pending (s : State) (p : Nat) (f : PortSt → PortSt) : (s.modPort p f).pending = s.pending := rfl
@[simp] theorem State.modPort_clock (s : State) (p : Nat) (f : PortSt → PortSt) : (s.modPort p f).clock = s.clock := rfl
@[simp] theorem State.modPort_free (s : State) (p : Nat) (f : PortSt → PortSt) : (s.modPort p f).free = s.free := rfl
@[simp] theorem State.modPort_outs (s : State) (p : Nat) (f : PortSt → PortSt) : (s.modPort p f).outs = s.outs := rfl
@[simp] theorem State.modPort_pages (s : State) (p : Nat) (f : PortSt → PortSt) : (s.modPort p f).pages = s.pages := rfl
@[simp] theorem State.modPort_sels (s : State) (p : Nat) (f : PortSt → PortSt) : (s.modPort p f).sels = s.sels := rfl
@[simp] theorem State.modPort_cores (s : State) (p : Nat) (f : PortSt → PortSt) : (s.modPort p f).cores = s.cores := rfl
@[simp] theorem State.modPort_parts (s : State) (p : Nat) (f : PortSt → PortSt) : (s.modPort p f).parts = s.parts := rfl
@[simp] theorem State.modPort_ctxs (s : State) (p : Nat) (f : PortSt → PortSt) : (s.modPort p f).ctxs = s.ctxs := rfl
@[simp] theorem State.modPort_images (s : State) (p : Nat) (f : PortSt → PortSt) : (s.modPort p f).images = s.images := rfl
@[simp] theorem State.modPort_streams (s : State) (p : Nat) (f : PortSt → PortSt) : (s.modPort p f).streams = s.streams := rfl
@[simp] theorem State.modPort_slotEpochs (s : State) (p : Nat) (f : PortSt → PortSt) : (s.modPort p f).slotEpochs = s.slotEpochs := rfl
@[simp] theorem State.modPort_qmg (s : State) (p : Nat) (f : PortSt → PortSt) : (s.modPort p f).qmg = s.qmg := rfl
@[simp] theorem State.modPort_tal (s : State) (p : Nat) (f : PortSt → PortSt) : (s.modPort p f).tal = s.tal := rfl
@[simp] theorem State.modPort_ppe (s : State) (p : Nat) (f : PortSt → PortSt) : (s.modPort p f).ppe = s.ppe := rfl
@[simp] theorem State.modPort_slices (s : State) (p : Nat) (f : PortSt → PortSt) : (s.modPort p f).slices = s.slices := rfl
@[simp] theorem State.modPort_mesh (s : State) (p : Nat) (f : PortSt → PortSt) : (s.modPort p f).mesh = s.mesh := rfl
@[simp] theorem State.modPort_dmcs (s : State) (p : Nat) (f : PortSt → PortSt) : (s.modPort p f).dmcs = s.dmcs := rfl
@[simp] theorem State.modPort_dram (s : State) (p : Nat) (f : PortSt → PortSt) : (s.modPort p f).dram = s.dram := rfl
@[simp] theorem State.modPort_dramPoison (s : State) (p : Nat) (f : PortSt → PortSt) : (s.modPort p f).dramPoison = s.dramPoison := rfl
@[simp] theorem State.modPort_scrubHours (s : State) (p : Nat) (f : PortSt → PortSt) : (s.modPort p f).scrubHours = s.scrubHours := rfl
@[simp] theorem State.modPort_safe (s : State) (p : Nat) (f : PortSt → PortSt) : (s.modPort p f).safe = s.safe := rfl
@[simp] theorem State.modPort_pwr (s : State) (p : Nat) (f : PortSt → PortSt) : (s.modPort p f).pwr = s.pwr := rfl
@[simp] theorem State.modPort_ctl (s : State) (p : Nat) (f : PortSt → PortSt) : (s.modPort p f).ctl = s.ctl := rfl
@[simp] theorem State.modPort_dbg (s : State) (p : Nat) (f : PortSt → PortSt) : (s.modPort p f).dbg = s.dbg := rfl
@[simp] theorem State.modPort_nvm (s : State) (p : Nat) (f : PortSt → PortSt) : (s.modPort p f).nvm = s.nvm := rfl
@[simp] theorem State.modPort_boot (s : State) (p : Nat) (f : PortSt → PortSt) : (s.modPort p f).boot = s.boot := rfl
@[simp] theorem State.modPort_pce (s : State) (p : Nat) (f : PortSt → PortSt) : (s.modPort p f).pce = s.pce := rfl
@[simp] theorem State.modPort_tlks (s : State) (p : Nat) (f : PortSt → PortSt) : (s.modPort p f).tlks = s.tlks := rfl
@[simp] theorem State.modPort_mons (s : State) (p : Nat) (f : PortSt → PortSt) : (s.modPort p f).mons = s.mons := rfl

/-! ### modSlice -/

@[simp] theorem State.modSlice_pending (s : State) (k : Nat) (f : Slice → Slice) : (s.modSlice k f).pending = s.pending := rfl
@[simp] theorem State.modSlice_clock (s : State) (k : Nat) (f : Slice → Slice) : (s.modSlice k f).clock = s.clock := rfl
@[simp] theorem State.modSlice_free (s : State) (k : Nat) (f : Slice → Slice) : (s.modSlice k f).free = s.free := rfl
@[simp] theorem State.modSlice_outs (s : State) (k : Nat) (f : Slice → Slice) : (s.modSlice k f).outs = s.outs := rfl
@[simp] theorem State.modSlice_pages (s : State) (k : Nat) (f : Slice → Slice) : (s.modSlice k f).pages = s.pages := rfl
@[simp] theorem State.modSlice_sels (s : State) (k : Nat) (f : Slice → Slice) : (s.modSlice k f).sels = s.sels := rfl
@[simp] theorem State.modSlice_cores (s : State) (k : Nat) (f : Slice → Slice) : (s.modSlice k f).cores = s.cores := rfl
@[simp] theorem State.modSlice_parts (s : State) (k : Nat) (f : Slice → Slice) : (s.modSlice k f).parts = s.parts := rfl
@[simp] theorem State.modSlice_ctxs (s : State) (k : Nat) (f : Slice → Slice) : (s.modSlice k f).ctxs = s.ctxs := rfl
@[simp] theorem State.modSlice_images (s : State) (k : Nat) (f : Slice → Slice) : (s.modSlice k f).images = s.images := rfl
@[simp] theorem State.modSlice_streams (s : State) (k : Nat) (f : Slice → Slice) : (s.modSlice k f).streams = s.streams := rfl
@[simp] theorem State.modSlice_slotEpochs (s : State) (k : Nat) (f : Slice → Slice) : (s.modSlice k f).slotEpochs = s.slotEpochs := rfl
@[simp] theorem State.modSlice_qmg (s : State) (k : Nat) (f : Slice → Slice) : (s.modSlice k f).qmg = s.qmg := rfl
@[simp] theorem State.modSlice_ports (s : State) (k : Nat) (f : Slice → Slice) : (s.modSlice k f).ports = s.ports := rfl
@[simp] theorem State.modSlice_tal (s : State) (k : Nat) (f : Slice → Slice) : (s.modSlice k f).tal = s.tal := rfl
@[simp] theorem State.modSlice_ppe (s : State) (k : Nat) (f : Slice → Slice) : (s.modSlice k f).ppe = s.ppe := rfl
@[simp] theorem State.modSlice_mesh (s : State) (k : Nat) (f : Slice → Slice) : (s.modSlice k f).mesh = s.mesh := rfl
@[simp] theorem State.modSlice_dmcs (s : State) (k : Nat) (f : Slice → Slice) : (s.modSlice k f).dmcs = s.dmcs := rfl
@[simp] theorem State.modSlice_dram (s : State) (k : Nat) (f : Slice → Slice) : (s.modSlice k f).dram = s.dram := rfl
@[simp] theorem State.modSlice_dramPoison (s : State) (k : Nat) (f : Slice → Slice) : (s.modSlice k f).dramPoison = s.dramPoison := rfl
@[simp] theorem State.modSlice_scrubHours (s : State) (k : Nat) (f : Slice → Slice) : (s.modSlice k f).scrubHours = s.scrubHours := rfl
@[simp] theorem State.modSlice_safe (s : State) (k : Nat) (f : Slice → Slice) : (s.modSlice k f).safe = s.safe := rfl
@[simp] theorem State.modSlice_pwr (s : State) (k : Nat) (f : Slice → Slice) : (s.modSlice k f).pwr = s.pwr := rfl
@[simp] theorem State.modSlice_ctl (s : State) (k : Nat) (f : Slice → Slice) : (s.modSlice k f).ctl = s.ctl := rfl
@[simp] theorem State.modSlice_dbg (s : State) (k : Nat) (f : Slice → Slice) : (s.modSlice k f).dbg = s.dbg := rfl
@[simp] theorem State.modSlice_nvm (s : State) (k : Nat) (f : Slice → Slice) : (s.modSlice k f).nvm = s.nvm := rfl
@[simp] theorem State.modSlice_boot (s : State) (k : Nat) (f : Slice → Slice) : (s.modSlice k f).boot = s.boot := rfl
@[simp] theorem State.modSlice_pce (s : State) (k : Nat) (f : Slice → Slice) : (s.modSlice k f).pce = s.pce := rfl
@[simp] theorem State.modSlice_tlks (s : State) (k : Nat) (f : Slice → Slice) : (s.modSlice k f).tlks = s.tlks := rfl
@[simp] theorem State.modSlice_mons (s : State) (k : Nat) (f : Slice → Slice) : (s.modSlice k f).mons = s.mons := rfl

/-! ### modDmc -/

@[simp] theorem State.modDmc_pending (s : State) (c : Nat) (f : Dmc → Dmc) : (s.modDmc c f).pending = s.pending := rfl
@[simp] theorem State.modDmc_clock (s : State) (c : Nat) (f : Dmc → Dmc) : (s.modDmc c f).clock = s.clock := rfl
@[simp] theorem State.modDmc_free (s : State) (c : Nat) (f : Dmc → Dmc) : (s.modDmc c f).free = s.free := rfl
@[simp] theorem State.modDmc_outs (s : State) (c : Nat) (f : Dmc → Dmc) : (s.modDmc c f).outs = s.outs := rfl
@[simp] theorem State.modDmc_pages (s : State) (c : Nat) (f : Dmc → Dmc) : (s.modDmc c f).pages = s.pages := rfl
@[simp] theorem State.modDmc_sels (s : State) (c : Nat) (f : Dmc → Dmc) : (s.modDmc c f).sels = s.sels := rfl
@[simp] theorem State.modDmc_cores (s : State) (c : Nat) (f : Dmc → Dmc) : (s.modDmc c f).cores = s.cores := rfl
@[simp] theorem State.modDmc_parts (s : State) (c : Nat) (f : Dmc → Dmc) : (s.modDmc c f).parts = s.parts := rfl
@[simp] theorem State.modDmc_ctxs (s : State) (c : Nat) (f : Dmc → Dmc) : (s.modDmc c f).ctxs = s.ctxs := rfl
@[simp] theorem State.modDmc_images (s : State) (c : Nat) (f : Dmc → Dmc) : (s.modDmc c f).images = s.images := rfl
@[simp] theorem State.modDmc_streams (s : State) (c : Nat) (f : Dmc → Dmc) : (s.modDmc c f).streams = s.streams := rfl
@[simp] theorem State.modDmc_slotEpochs (s : State) (c : Nat) (f : Dmc → Dmc) : (s.modDmc c f).slotEpochs = s.slotEpochs := rfl
@[simp] theorem State.modDmc_qmg (s : State) (c : Nat) (f : Dmc → Dmc) : (s.modDmc c f).qmg = s.qmg := rfl
@[simp] theorem State.modDmc_ports (s : State) (c : Nat) (f : Dmc → Dmc) : (s.modDmc c f).ports = s.ports := rfl
@[simp] theorem State.modDmc_tal (s : State) (c : Nat) (f : Dmc → Dmc) : (s.modDmc c f).tal = s.tal := rfl
@[simp] theorem State.modDmc_ppe (s : State) (c : Nat) (f : Dmc → Dmc) : (s.modDmc c f).ppe = s.ppe := rfl
@[simp] theorem State.modDmc_slices (s : State) (c : Nat) (f : Dmc → Dmc) : (s.modDmc c f).slices = s.slices := rfl
@[simp] theorem State.modDmc_mesh (s : State) (c : Nat) (f : Dmc → Dmc) : (s.modDmc c f).mesh = s.mesh := rfl
@[simp] theorem State.modDmc_dram (s : State) (c : Nat) (f : Dmc → Dmc) : (s.modDmc c f).dram = s.dram := rfl
@[simp] theorem State.modDmc_dramPoison (s : State) (c : Nat) (f : Dmc → Dmc) : (s.modDmc c f).dramPoison = s.dramPoison := rfl
@[simp] theorem State.modDmc_scrubHours (s : State) (c : Nat) (f : Dmc → Dmc) : (s.modDmc c f).scrubHours = s.scrubHours := rfl
@[simp] theorem State.modDmc_safe (s : State) (c : Nat) (f : Dmc → Dmc) : (s.modDmc c f).safe = s.safe := rfl
@[simp] theorem State.modDmc_pwr (s : State) (c : Nat) (f : Dmc → Dmc) : (s.modDmc c f).pwr = s.pwr := rfl
@[simp] theorem State.modDmc_ctl (s : State) (c : Nat) (f : Dmc → Dmc) : (s.modDmc c f).ctl = s.ctl := rfl
@[simp] theorem State.modDmc_dbg (s : State) (c : Nat) (f : Dmc → Dmc) : (s.modDmc c f).dbg = s.dbg := rfl
@[simp] theorem State.modDmc_nvm (s : State) (c : Nat) (f : Dmc → Dmc) : (s.modDmc c f).nvm = s.nvm := rfl
@[simp] theorem State.modDmc_boot (s : State) (c : Nat) (f : Dmc → Dmc) : (s.modDmc c f).boot = s.boot := rfl
@[simp] theorem State.modDmc_pce (s : State) (c : Nat) (f : Dmc → Dmc) : (s.modDmc c f).pce = s.pce := rfl
@[simp] theorem State.modDmc_tlks (s : State) (c : Nat) (f : Dmc → Dmc) : (s.modDmc c f).tlks = s.tlks := rfl
@[simp] theorem State.modDmc_mons (s : State) (c : Nat) (f : Dmc → Dmc) : (s.modDmc c f).mons = s.mons := rfl

/-! ### modQuad -/

@[simp] theorem State.modQuad_pending (s : State) (q : Nat) (f : Quad → Quad) : (s.modQuad q f).pending = s.pending := rfl
@[simp] theorem State.modQuad_clock (s : State) (q : Nat) (f : Quad → Quad) : (s.modQuad q f).clock = s.clock := rfl
@[simp] theorem State.modQuad_free (s : State) (q : Nat) (f : Quad → Quad) : (s.modQuad q f).free = s.free := rfl
@[simp] theorem State.modQuad_outs (s : State) (q : Nat) (f : Quad → Quad) : (s.modQuad q f).outs = s.outs := rfl
@[simp] theorem State.modQuad_pages (s : State) (q : Nat) (f : Quad → Quad) : (s.modQuad q f).pages = s.pages := rfl
@[simp] theorem State.modQuad_sels (s : State) (q : Nat) (f : Quad → Quad) : (s.modQuad q f).sels = s.sels := rfl
@[simp] theorem State.modQuad_cores (s : State) (q : Nat) (f : Quad → Quad) : (s.modQuad q f).cores = s.cores := rfl
@[simp] theorem State.modQuad_parts (s : State) (q : Nat) (f : Quad → Quad) : (s.modQuad q f).parts = s.parts := rfl
@[simp] theorem State.modQuad_ctxs (s : State) (q : Nat) (f : Quad → Quad) : (s.modQuad q f).ctxs = s.ctxs := rfl
@[simp] theorem State.modQuad_images (s : State) (q : Nat) (f : Quad → Quad) : (s.modQuad q f).images = s.images := rfl
@[simp] theorem State.modQuad_streams (s : State) (q : Nat) (f : Quad → Quad) : (s.modQuad q f).streams = s.streams := rfl
@[simp] theorem State.modQuad_slotEpochs (s : State) (q : Nat) (f : Quad → Quad) : (s.modQuad q f).slotEpochs = s.slotEpochs := rfl
@[simp] theorem State.modQuad_qmg (s : State) (q : Nat) (f : Quad → Quad) : (s.modQuad q f).qmg = s.qmg := rfl
@[simp] theorem State.modQuad_ports (s : State) (q : Nat) (f : Quad → Quad) : (s.modQuad q f).ports = s.ports := rfl
@[simp] theorem State.modQuad_tal (s : State) (q : Nat) (f : Quad → Quad) : (s.modQuad q f).tal = s.tal := rfl
@[simp] theorem State.modQuad_ppe (s : State) (q : Nat) (f : Quad → Quad) : (s.modQuad q f).ppe = s.ppe := rfl
@[simp] theorem State.modQuad_slices (s : State) (q : Nat) (f : Quad → Quad) : (s.modQuad q f).slices = s.slices := rfl
@[simp] theorem State.modQuad_mesh (s : State) (q : Nat) (f : Quad → Quad) : (s.modQuad q f).mesh = s.mesh := rfl
@[simp] theorem State.modQuad_dmcs (s : State) (q : Nat) (f : Quad → Quad) : (s.modQuad q f).dmcs = s.dmcs := rfl
@[simp] theorem State.modQuad_dram (s : State) (q : Nat) (f : Quad → Quad) : (s.modQuad q f).dram = s.dram := rfl
@[simp] theorem State.modQuad_dramPoison (s : State) (q : Nat) (f : Quad → Quad) : (s.modQuad q f).dramPoison = s.dramPoison := rfl
@[simp] theorem State.modQuad_scrubHours (s : State) (q : Nat) (f : Quad → Quad) : (s.modQuad q f).scrubHours = s.scrubHours := rfl
@[simp] theorem State.modQuad_safe (s : State) (q : Nat) (f : Quad → Quad) : (s.modQuad q f).safe = s.safe := rfl
@[simp] theorem State.modQuad_ctl (s : State) (q : Nat) (f : Quad → Quad) : (s.modQuad q f).ctl = s.ctl := rfl
@[simp] theorem State.modQuad_dbg (s : State) (q : Nat) (f : Quad → Quad) : (s.modQuad q f).dbg = s.dbg := rfl
@[simp] theorem State.modQuad_nvm (s : State) (q : Nat) (f : Quad → Quad) : (s.modQuad q f).nvm = s.nvm := rfl
@[simp] theorem State.modQuad_boot (s : State) (q : Nat) (f : Quad → Quad) : (s.modQuad q f).boot = s.boot := rfl
@[simp] theorem State.modQuad_pce (s : State) (q : Nat) (f : Quad → Quad) : (s.modQuad q f).pce = s.pce := rfl
@[simp] theorem State.modQuad_tlks (s : State) (q : Nat) (f : Quad → Quad) : (s.modQuad q f).tlks = s.tlks := rfl
@[simp] theorem State.modQuad_mons (s : State) (q : Nat) (f : Quad → Quad) : (s.modQuad q f).mons = s.mons := rfl

/-! ### modTlk -/

@[simp] theorem State.modTlk_pending (s : State) (t : Nat) (f : Tlk → Tlk) : (s.modTlk t f).pending = s.pending := rfl
@[simp] theorem State.modTlk_clock (s : State) (t : Nat) (f : Tlk → Tlk) : (s.modTlk t f).clock = s.clock := rfl
@[simp] theorem State.modTlk_free (s : State) (t : Nat) (f : Tlk → Tlk) : (s.modTlk t f).free = s.free := rfl
@[simp] theorem State.modTlk_outs (s : State) (t : Nat) (f : Tlk → Tlk) : (s.modTlk t f).outs = s.outs := rfl
@[simp] theorem State.modTlk_pages (s : State) (t : Nat) (f : Tlk → Tlk) : (s.modTlk t f).pages = s.pages := rfl
@[simp] theorem State.modTlk_sels (s : State) (t : Nat) (f : Tlk → Tlk) : (s.modTlk t f).sels = s.sels := rfl
@[simp] theorem State.modTlk_cores (s : State) (t : Nat) (f : Tlk → Tlk) : (s.modTlk t f).cores = s.cores := rfl
@[simp] theorem State.modTlk_parts (s : State) (t : Nat) (f : Tlk → Tlk) : (s.modTlk t f).parts = s.parts := rfl
@[simp] theorem State.modTlk_ctxs (s : State) (t : Nat) (f : Tlk → Tlk) : (s.modTlk t f).ctxs = s.ctxs := rfl
@[simp] theorem State.modTlk_images (s : State) (t : Nat) (f : Tlk → Tlk) : (s.modTlk t f).images = s.images := rfl
@[simp] theorem State.modTlk_streams (s : State) (t : Nat) (f : Tlk → Tlk) : (s.modTlk t f).streams = s.streams := rfl
@[simp] theorem State.modTlk_slotEpochs (s : State) (t : Nat) (f : Tlk → Tlk) : (s.modTlk t f).slotEpochs = s.slotEpochs := rfl
@[simp] theorem State.modTlk_qmg (s : State) (t : Nat) (f : Tlk → Tlk) : (s.modTlk t f).qmg = s.qmg := rfl
@[simp] theorem State.modTlk_ports (s : State) (t : Nat) (f : Tlk → Tlk) : (s.modTlk t f).ports = s.ports := rfl
@[simp] theorem State.modTlk_tal (s : State) (t : Nat) (f : Tlk → Tlk) : (s.modTlk t f).tal = s.tal := rfl
@[simp] theorem State.modTlk_ppe (s : State) (t : Nat) (f : Tlk → Tlk) : (s.modTlk t f).ppe = s.ppe := rfl
@[simp] theorem State.modTlk_slices (s : State) (t : Nat) (f : Tlk → Tlk) : (s.modTlk t f).slices = s.slices := rfl
@[simp] theorem State.modTlk_mesh (s : State) (t : Nat) (f : Tlk → Tlk) : (s.modTlk t f).mesh = s.mesh := rfl
@[simp] theorem State.modTlk_dmcs (s : State) (t : Nat) (f : Tlk → Tlk) : (s.modTlk t f).dmcs = s.dmcs := rfl
@[simp] theorem State.modTlk_dram (s : State) (t : Nat) (f : Tlk → Tlk) : (s.modTlk t f).dram = s.dram := rfl
@[simp] theorem State.modTlk_dramPoison (s : State) (t : Nat) (f : Tlk → Tlk) : (s.modTlk t f).dramPoison = s.dramPoison := rfl
@[simp] theorem State.modTlk_scrubHours (s : State) (t : Nat) (f : Tlk → Tlk) : (s.modTlk t f).scrubHours = s.scrubHours := rfl
@[simp] theorem State.modTlk_safe (s : State) (t : Nat) (f : Tlk → Tlk) : (s.modTlk t f).safe = s.safe := rfl
@[simp] theorem State.modTlk_pwr (s : State) (t : Nat) (f : Tlk → Tlk) : (s.modTlk t f).pwr = s.pwr := rfl
@[simp] theorem State.modTlk_ctl (s : State) (t : Nat) (f : Tlk → Tlk) : (s.modTlk t f).ctl = s.ctl := rfl
@[simp] theorem State.modTlk_dbg (s : State) (t : Nat) (f : Tlk → Tlk) : (s.modTlk t f).dbg = s.dbg := rfl
@[simp] theorem State.modTlk_nvm (s : State) (t : Nat) (f : Tlk → Tlk) : (s.modTlk t f).nvm = s.nvm := rfl
@[simp] theorem State.modTlk_boot (s : State) (t : Nat) (f : Tlk → Tlk) : (s.modTlk t f).boot = s.boot := rfl
@[simp] theorem State.modTlk_pce (s : State) (t : Nat) (f : Tlk → Tlk) : (s.modTlk t f).pce = s.pce := rfl
@[simp] theorem State.modTlk_mons (s : State) (t : Nat) (f : Tlk → Tlk) : (s.modTlk t f).mons = s.mons := rfl

/-! ### modMon -/

@[simp] theorem State.modMon_pending (s : State) (m : Nat) (f : Mon → Mon) : (s.modMon m f).pending = s.pending := rfl
@[simp] theorem State.modMon_clock (s : State) (m : Nat) (f : Mon → Mon) : (s.modMon m f).clock = s.clock := rfl
@[simp] theorem State.modMon_free (s : State) (m : Nat) (f : Mon → Mon) : (s.modMon m f).free = s.free := rfl
@[simp] theorem State.modMon_outs (s : State) (m : Nat) (f : Mon → Mon) : (s.modMon m f).outs = s.outs := rfl
@[simp] theorem State.modMon_pages (s : State) (m : Nat) (f : Mon → Mon) : (s.modMon m f).pages = s.pages := rfl
@[simp] theorem State.modMon_sels (s : State) (m : Nat) (f : Mon → Mon) : (s.modMon m f).sels = s.sels := rfl
@[simp] theorem State.modMon_cores (s : State) (m : Nat) (f : Mon → Mon) : (s.modMon m f).cores = s.cores := rfl
@[simp] theorem State.modMon_parts (s : State) (m : Nat) (f : Mon → Mon) : (s.modMon m f).parts = s.parts := rfl
@[simp] theorem State.modMon_ctxs (s : State) (m : Nat) (f : Mon → Mon) : (s.modMon m f).ctxs = s.ctxs := rfl
@[simp] theorem State.modMon_images (s : State) (m : Nat) (f : Mon → Mon) : (s.modMon m f).images = s.images := rfl
@[simp] theorem State.modMon_streams (s : State) (m : Nat) (f : Mon → Mon) : (s.modMon m f).streams = s.streams := rfl
@[simp] theorem State.modMon_slotEpochs (s : State) (m : Nat) (f : Mon → Mon) : (s.modMon m f).slotEpochs = s.slotEpochs := rfl
@[simp] theorem State.modMon_qmg (s : State) (m : Nat) (f : Mon → Mon) : (s.modMon m f).qmg = s.qmg := rfl
@[simp] theorem State.modMon_ports (s : State) (m : Nat) (f : Mon → Mon) : (s.modMon m f).ports = s.ports := rfl
@[simp] theorem State.modMon_tal (s : State) (m : Nat) (f : Mon → Mon) : (s.modMon m f).tal = s.tal := rfl
@[simp] theorem State.modMon_ppe (s : State) (m : Nat) (f : Mon → Mon) : (s.modMon m f).ppe = s.ppe := rfl
@[simp] theorem State.modMon_slices (s : State) (m : Nat) (f : Mon → Mon) : (s.modMon m f).slices = s.slices := rfl
@[simp] theorem State.modMon_mesh (s : State) (m : Nat) (f : Mon → Mon) : (s.modMon m f).mesh = s.mesh := rfl
@[simp] theorem State.modMon_dmcs (s : State) (m : Nat) (f : Mon → Mon) : (s.modMon m f).dmcs = s.dmcs := rfl
@[simp] theorem State.modMon_dram (s : State) (m : Nat) (f : Mon → Mon) : (s.modMon m f).dram = s.dram := rfl
@[simp] theorem State.modMon_dramPoison (s : State) (m : Nat) (f : Mon → Mon) : (s.modMon m f).dramPoison = s.dramPoison := rfl
@[simp] theorem State.modMon_scrubHours (s : State) (m : Nat) (f : Mon → Mon) : (s.modMon m f).scrubHours = s.scrubHours := rfl
@[simp] theorem State.modMon_safe (s : State) (m : Nat) (f : Mon → Mon) : (s.modMon m f).safe = s.safe := rfl
@[simp] theorem State.modMon_pwr (s : State) (m : Nat) (f : Mon → Mon) : (s.modMon m f).pwr = s.pwr := rfl
@[simp] theorem State.modMon_ctl (s : State) (m : Nat) (f : Mon → Mon) : (s.modMon m f).ctl = s.ctl := rfl
@[simp] theorem State.modMon_dbg (s : State) (m : Nat) (f : Mon → Mon) : (s.modMon m f).dbg = s.dbg := rfl
@[simp] theorem State.modMon_nvm (s : State) (m : Nat) (f : Mon → Mon) : (s.modMon m f).nvm = s.nvm := rfl
@[simp] theorem State.modMon_boot (s : State) (m : Nat) (f : Mon → Mon) : (s.modMon m f).boot = s.boot := rfl
@[simp] theorem State.modMon_pce (s : State) (m : Nat) (f : Mon → Mon) : (s.modMon m f).pce = s.pce := rfl
@[simp] theorem State.modMon_tlks (s : State) (m : Nat) (f : Mon → Mon) : (s.modMon m f).tlks = s.tlks := rfl

/-! ### modQmg -/

@[simp] theorem State.modQmg_pending (s : State) (f : Qmg → Qmg) : (s.modQmg f).pending = s.pending := rfl
@[simp] theorem State.modQmg_clock (s : State) (f : Qmg → Qmg) : (s.modQmg f).clock = s.clock := rfl
@[simp] theorem State.modQmg_free (s : State) (f : Qmg → Qmg) : (s.modQmg f).free = s.free := rfl
@[simp] theorem State.modQmg_outs (s : State) (f : Qmg → Qmg) : (s.modQmg f).outs = s.outs := rfl
@[simp] theorem State.modQmg_pages (s : State) (f : Qmg → Qmg) : (s.modQmg f).pages = s.pages := rfl
@[simp] theorem State.modQmg_sels (s : State) (f : Qmg → Qmg) : (s.modQmg f).sels = s.sels := rfl
@[simp] theorem State.modQmg_cores (s : State) (f : Qmg → Qmg) : (s.modQmg f).cores = s.cores := rfl
@[simp] theorem State.modQmg_parts (s : State) (f : Qmg → Qmg) : (s.modQmg f).parts = s.parts := rfl
@[simp] theorem State.modQmg_ctxs (s : State) (f : Qmg → Qmg) : (s.modQmg f).ctxs = s.ctxs := rfl
@[simp] theorem State.modQmg_images (s : State) (f : Qmg → Qmg) : (s.modQmg f).images = s.images := rfl
@[simp] theorem State.modQmg_streams (s : State) (f : Qmg → Qmg) : (s.modQmg f).streams = s.streams := rfl
@[simp] theorem State.modQmg_slotEpochs (s : State) (f : Qmg → Qmg) : (s.modQmg f).slotEpochs = s.slotEpochs := rfl
@[simp] theorem State.modQmg_ports (s : State) (f : Qmg → Qmg) : (s.modQmg f).ports = s.ports := rfl
@[simp] theorem State.modQmg_tal (s : State) (f : Qmg → Qmg) : (s.modQmg f).tal = s.tal := rfl
@[simp] theorem State.modQmg_ppe (s : State) (f : Qmg → Qmg) : (s.modQmg f).ppe = s.ppe := rfl
@[simp] theorem State.modQmg_slices (s : State) (f : Qmg → Qmg) : (s.modQmg f).slices = s.slices := rfl
@[simp] theorem State.modQmg_mesh (s : State) (f : Qmg → Qmg) : (s.modQmg f).mesh = s.mesh := rfl
@[simp] theorem State.modQmg_dmcs (s : State) (f : Qmg → Qmg) : (s.modQmg f).dmcs = s.dmcs := rfl
@[simp] theorem State.modQmg_dram (s : State) (f : Qmg → Qmg) : (s.modQmg f).dram = s.dram := rfl
@[simp] theorem State.modQmg_dramPoison (s : State) (f : Qmg → Qmg) : (s.modQmg f).dramPoison = s.dramPoison := rfl
@[simp] theorem State.modQmg_scrubHours (s : State) (f : Qmg → Qmg) : (s.modQmg f).scrubHours = s.scrubHours := rfl
@[simp] theorem State.modQmg_safe (s : State) (f : Qmg → Qmg) : (s.modQmg f).safe = s.safe := rfl
@[simp] theorem State.modQmg_pwr (s : State) (f : Qmg → Qmg) : (s.modQmg f).pwr = s.pwr := rfl
@[simp] theorem State.modQmg_ctl (s : State) (f : Qmg → Qmg) : (s.modQmg f).ctl = s.ctl := rfl
@[simp] theorem State.modQmg_dbg (s : State) (f : Qmg → Qmg) : (s.modQmg f).dbg = s.dbg := rfl
@[simp] theorem State.modQmg_nvm (s : State) (f : Qmg → Qmg) : (s.modQmg f).nvm = s.nvm := rfl
@[simp] theorem State.modQmg_boot (s : State) (f : Qmg → Qmg) : (s.modQmg f).boot = s.boot := rfl
@[simp] theorem State.modQmg_pce (s : State) (f : Qmg → Qmg) : (s.modQmg f).pce = s.pce := rfl
@[simp] theorem State.modQmg_tlks (s : State) (f : Qmg → Qmg) : (s.modQmg f).tlks = s.tlks := rfl
@[simp] theorem State.modQmg_mons (s : State) (f : Qmg → Qmg) : (s.modQmg f).mons = s.mons := rfl
@[simp] theorem State.modQmg_qmg (s : State) (f : Qmg → Qmg) : (s.modQmg f).qmg = f s.qmg := rfl

/-! ### setQueue -/

@[simp] theorem State.setQueue_pending (s : State) (q : Nat) (x : Queue) : (s.setQueue q x).pending = s.pending := rfl
@[simp] theorem State.setQueue_clock (s : State) (q : Nat) (x : Queue) : (s.setQueue q x).clock = s.clock := rfl
@[simp] theorem State.setQueue_free (s : State) (q : Nat) (x : Queue) : (s.setQueue q x).free = s.free := rfl
@[simp] theorem State.setQueue_outs (s : State) (q : Nat) (x : Queue) : (s.setQueue q x).outs = s.outs := rfl
@[simp] theorem State.setQueue_pages (s : State) (q : Nat) (x : Queue) : (s.setQueue q x).pages = s.pages := rfl
@[simp] theorem State.setQueue_sels (s : State) (q : Nat) (x : Queue) : (s.setQueue q x).sels = s.sels := rfl
@[simp] theorem State.setQueue_cores (s : State) (q : Nat) (x : Queue) : (s.setQueue q x).cores = s.cores := rfl
@[simp] theorem State.setQueue_parts (s : State) (q : Nat) (x : Queue) : (s.setQueue q x).parts = s.parts := rfl
@[simp] theorem State.setQueue_ctxs (s : State) (q : Nat) (x : Queue) : (s.setQueue q x).ctxs = s.ctxs := rfl
@[simp] theorem State.setQueue_images (s : State) (q : Nat) (x : Queue) : (s.setQueue q x).images = s.images := rfl
@[simp] theorem State.setQueue_streams (s : State) (q : Nat) (x : Queue) : (s.setQueue q x).streams = s.streams := rfl
@[simp] theorem State.setQueue_slotEpochs (s : State) (q : Nat) (x : Queue) : (s.setQueue q x).slotEpochs = s.slotEpochs := rfl
@[simp] theorem State.setQueue_ports (s : State) (q : Nat) (x : Queue) : (s.setQueue q x).ports = s.ports := rfl
@[simp] theorem State.setQueue_tal (s : State) (q : Nat) (x : Queue) : (s.setQueue q x).tal = s.tal := rfl
@[simp] theorem State.setQueue_ppe (s : State) (q : Nat) (x : Queue) : (s.setQueue q x).ppe = s.ppe := rfl
@[simp] theorem State.setQueue_slices (s : State) (q : Nat) (x : Queue) : (s.setQueue q x).slices = s.slices := rfl
@[simp] theorem State.setQueue_mesh (s : State) (q : Nat) (x : Queue) : (s.setQueue q x).mesh = s.mesh := rfl
@[simp] theorem State.setQueue_dmcs (s : State) (q : Nat) (x : Queue) : (s.setQueue q x).dmcs = s.dmcs := rfl
@[simp] theorem State.setQueue_dram (s : State) (q : Nat) (x : Queue) : (s.setQueue q x).dram = s.dram := rfl
@[simp] theorem State.setQueue_dramPoison (s : State) (q : Nat) (x : Queue) : (s.setQueue q x).dramPoison = s.dramPoison := rfl
@[simp] theorem State.setQueue_scrubHours (s : State) (q : Nat) (x : Queue) : (s.setQueue q x).scrubHours = s.scrubHours := rfl
@[simp] theorem State.setQueue_safe (s : State) (q : Nat) (x : Queue) : (s.setQueue q x).safe = s.safe := rfl
@[simp] theorem State.setQueue_pwr (s : State) (q : Nat) (x : Queue) : (s.setQueue q x).pwr = s.pwr := rfl
@[simp] theorem State.setQueue_ctl (s : State) (q : Nat) (x : Queue) : (s.setQueue q x).ctl = s.ctl := rfl
@[simp] theorem State.setQueue_dbg (s : State) (q : Nat) (x : Queue) : (s.setQueue q x).dbg = s.dbg := rfl
@[simp] theorem State.setQueue_nvm (s : State) (q : Nat) (x : Queue) : (s.setQueue q x).nvm = s.nvm := rfl
@[simp] theorem State.setQueue_boot (s : State) (q : Nat) (x : Queue) : (s.setQueue q x).boot = s.boot := rfl
@[simp] theorem State.setQueue_pce (s : State) (q : Nat) (x : Queue) : (s.setQueue q x).pce = s.pce := rfl
@[simp] theorem State.setQueue_tlks (s : State) (q : Nat) (x : Queue) : (s.setQueue q x).tlks = s.tlks := rfl
@[simp] theorem State.setQueue_mons (s : State) (q : Nat) (x : Queue) : (s.setQueue q x).mons = s.mons := rfl

/-! ### modQueue -/

@[simp] theorem State.modQueue_pending (s : State) (q : Nat) (f : Queue → Queue) : (s.modQueue q f).pending = s.pending := rfl
@[simp] theorem State.modQueue_clock (s : State) (q : Nat) (f : Queue → Queue) : (s.modQueue q f).clock = s.clock := rfl
@[simp] theorem State.modQueue_free (s : State) (q : Nat) (f : Queue → Queue) : (s.modQueue q f).free = s.free := rfl
@[simp] theorem State.modQueue_outs (s : State) (q : Nat) (f : Queue → Queue) : (s.modQueue q f).outs = s.outs := rfl
@[simp] theorem State.modQueue_pages (s : State) (q : Nat) (f : Queue → Queue) : (s.modQueue q f).pages = s.pages := rfl
@[simp] theorem State.modQueue_sels (s : State) (q : Nat) (f : Queue → Queue) : (s.modQueue q f).sels = s.sels := rfl
@[simp] theorem State.modQueue_cores (s : State) (q : Nat) (f : Queue → Queue) : (s.modQueue q f).cores = s.cores := rfl
@[simp] theorem State.modQueue_parts (s : State) (q : Nat) (f : Queue → Queue) : (s.modQueue q f).parts = s.parts := rfl
@[simp] theorem State.modQueue_ctxs (s : State) (q : Nat) (f : Queue → Queue) : (s.modQueue q f).ctxs = s.ctxs := rfl
@[simp] theorem State.modQueue_images (s : State) (q : Nat) (f : Queue → Queue) : (s.modQueue q f).images = s.images := rfl
@[simp] theorem State.modQueue_streams (s : State) (q : Nat) (f : Queue → Queue) : (s.modQueue q f).streams = s.streams := rfl
@[simp] theorem State.modQueue_slotEpochs (s : State) (q : Nat) (f : Queue → Queue) : (s.modQueue q f).slotEpochs = s.slotEpochs := rfl
@[simp] theorem State.modQueue_ports (s : State) (q : Nat) (f : Queue → Queue) : (s.modQueue q f).ports = s.ports := rfl
@[simp] theorem State.modQueue_tal (s : State) (q : Nat) (f : Queue → Queue) : (s.modQueue q f).tal = s.tal := rfl
@[simp] theorem State.modQueue_ppe (s : State) (q : Nat) (f : Queue → Queue) : (s.modQueue q f).ppe = s.ppe := rfl
@[simp] theorem State.modQueue_slices (s : State) (q : Nat) (f : Queue → Queue) : (s.modQueue q f).slices = s.slices := rfl
@[simp] theorem State.modQueue_mesh (s : State) (q : Nat) (f : Queue → Queue) : (s.modQueue q f).mesh = s.mesh := rfl
@[simp] theorem State.modQueue_dmcs (s : State) (q : Nat) (f : Queue → Queue) : (s.modQueue q f).dmcs = s.dmcs := rfl
@[simp] theorem State.modQueue_dram (s : State) (q : Nat) (f : Queue → Queue) : (s.modQueue q f).dram = s.dram := rfl
@[simp] theorem State.modQueue_dramPoison (s : State) (q : Nat) (f : Queue → Queue) : (s.modQueue q f).dramPoison = s.dramPoison := rfl
@[simp] theorem State.modQueue_scrubHours (s : State) (q : Nat) (f : Queue → Queue) : (s.modQueue q f).scrubHours = s.scrubHours := rfl
@[simp] theorem State.modQueue_safe (s : State) (q : Nat) (f : Queue → Queue) : (s.modQueue q f).safe = s.safe := rfl
@[simp] theorem State.modQueue_pwr (s : State) (q : Nat) (f : Queue → Queue) : (s.modQueue q f).pwr = s.pwr := rfl
@[simp] theorem State.modQueue_ctl (s : State) (q : Nat) (f : Queue → Queue) : (s.modQueue q f).ctl = s.ctl := rfl
@[simp] theorem State.modQueue_dbg (s : State) (q : Nat) (f : Queue → Queue) : (s.modQueue q f).dbg = s.dbg := rfl
@[simp] theorem State.modQueue_nvm (s : State) (q : Nat) (f : Queue → Queue) : (s.modQueue q f).nvm = s.nvm := rfl
@[simp] theorem State.modQueue_boot (s : State) (q : Nat) (f : Queue → Queue) : (s.modQueue q f).boot = s.boot := rfl
@[simp] theorem State.modQueue_pce (s : State) (q : Nat) (f : Queue → Queue) : (s.modQueue q f).pce = s.pce := rfl
@[simp] theorem State.modQueue_tlks (s : State) (q : Nat) (f : Queue → Queue) : (s.modQueue q f).tlks = s.tlks := rfl
@[simp] theorem State.modQueue_mons (s : State) (q : Nat) (f : Queue → Queue) : (s.modQueue q f).mons = s.mons := rfl

/-! ### modVote -/

@[simp] theorem State.modVote_pending (s : State) (v : Nat) (f : VoteUnit → VoteUnit) : (s.modVote v f).pending = s.pending := rfl
@[simp] theorem State.modVote_clock (s : State) (v : Nat) (f : VoteUnit → VoteUnit) : (s.modVote v f).clock = s.clock := rfl
@[simp] theorem State.modVote_free (s : State) (v : Nat) (f : VoteUnit → VoteUnit) : (s.modVote v f).free = s.free := rfl
@[simp] theorem State.modVote_outs (s : State) (v : Nat) (f : VoteUnit → VoteUnit) : (s.modVote v f).outs = s.outs := rfl
@[simp] theorem State.modVote_pages (s : State) (v : Nat) (f : VoteUnit → VoteUnit) : (s.modVote v f).pages = s.pages := rfl
@[simp] theorem State.modVote_sels (s : State) (v : Nat) (f : VoteUnit → VoteUnit) : (s.modVote v f).sels = s.sels := rfl
@[simp] theorem State.modVote_cores (s : State) (v : Nat) (f : VoteUnit → VoteUnit) : (s.modVote v f).cores = s.cores := rfl
@[simp] theorem State.modVote_parts (s : State) (v : Nat) (f : VoteUnit → VoteUnit) : (s.modVote v f).parts = s.parts := rfl
@[simp] theorem State.modVote_ctxs (s : State) (v : Nat) (f : VoteUnit → VoteUnit) : (s.modVote v f).ctxs = s.ctxs := rfl
@[simp] theorem State.modVote_images (s : State) (v : Nat) (f : VoteUnit → VoteUnit) : (s.modVote v f).images = s.images := rfl
@[simp] theorem State.modVote_streams (s : State) (v : Nat) (f : VoteUnit → VoteUnit) : (s.modVote v f).streams = s.streams := rfl
@[simp] theorem State.modVote_slotEpochs (s : State) (v : Nat) (f : VoteUnit → VoteUnit) : (s.modVote v f).slotEpochs = s.slotEpochs := rfl
@[simp] theorem State.modVote_ports (s : State) (v : Nat) (f : VoteUnit → VoteUnit) : (s.modVote v f).ports = s.ports := rfl
@[simp] theorem State.modVote_tal (s : State) (v : Nat) (f : VoteUnit → VoteUnit) : (s.modVote v f).tal = s.tal := rfl
@[simp] theorem State.modVote_ppe (s : State) (v : Nat) (f : VoteUnit → VoteUnit) : (s.modVote v f).ppe = s.ppe := rfl
@[simp] theorem State.modVote_slices (s : State) (v : Nat) (f : VoteUnit → VoteUnit) : (s.modVote v f).slices = s.slices := rfl
@[simp] theorem State.modVote_mesh (s : State) (v : Nat) (f : VoteUnit → VoteUnit) : (s.modVote v f).mesh = s.mesh := rfl
@[simp] theorem State.modVote_dmcs (s : State) (v : Nat) (f : VoteUnit → VoteUnit) : (s.modVote v f).dmcs = s.dmcs := rfl
@[simp] theorem State.modVote_dram (s : State) (v : Nat) (f : VoteUnit → VoteUnit) : (s.modVote v f).dram = s.dram := rfl
@[simp] theorem State.modVote_dramPoison (s : State) (v : Nat) (f : VoteUnit → VoteUnit) : (s.modVote v f).dramPoison = s.dramPoison := rfl
@[simp] theorem State.modVote_scrubHours (s : State) (v : Nat) (f : VoteUnit → VoteUnit) : (s.modVote v f).scrubHours = s.scrubHours := rfl
@[simp] theorem State.modVote_safe (s : State) (v : Nat) (f : VoteUnit → VoteUnit) : (s.modVote v f).safe = s.safe := rfl
@[simp] theorem State.modVote_pwr (s : State) (v : Nat) (f : VoteUnit → VoteUnit) : (s.modVote v f).pwr = s.pwr := rfl
@[simp] theorem State.modVote_ctl (s : State) (v : Nat) (f : VoteUnit → VoteUnit) : (s.modVote v f).ctl = s.ctl := rfl
@[simp] theorem State.modVote_dbg (s : State) (v : Nat) (f : VoteUnit → VoteUnit) : (s.modVote v f).dbg = s.dbg := rfl
@[simp] theorem State.modVote_nvm (s : State) (v : Nat) (f : VoteUnit → VoteUnit) : (s.modVote v f).nvm = s.nvm := rfl
@[simp] theorem State.modVote_boot (s : State) (v : Nat) (f : VoteUnit → VoteUnit) : (s.modVote v f).boot = s.boot := rfl
@[simp] theorem State.modVote_pce (s : State) (v : Nat) (f : VoteUnit → VoteUnit) : (s.modVote v f).pce = s.pce := rfl
@[simp] theorem State.modVote_tlks (s : State) (v : Nat) (f : VoteUnit → VoteUnit) : (s.modVote v f).tlks = s.tlks := rfl
@[simp] theorem State.modVote_mons (s : State) (v : Nat) (f : VoteUnit → VoteUnit) : (s.modVote v f).mons = s.mons := rfl

/-! ### modSafe -/

@[simp] theorem State.modSafe_pending (s : State) (f : Safe → Safe) : (s.modSafe f).pending = s.pending := rfl
@[simp] theorem State.modSafe_clock (s : State) (f : Safe → Safe) : (s.modSafe f).clock = s.clock := rfl
@[simp] theorem State.modSafe_free (s : State) (f : Safe → Safe) : (s.modSafe f).free = s.free := rfl
@[simp] theorem State.modSafe_outs (s : State) (f : Safe → Safe) : (s.modSafe f).outs = s.outs := rfl
@[simp] theorem State.modSafe_pages (s : State) (f : Safe → Safe) : (s.modSafe f).pages = s.pages := rfl
@[simp] theorem State.modSafe_sels (s : State) (f : Safe → Safe) : (s.modSafe f).sels = s.sels := rfl
@[simp] theorem State.modSafe_cores (s : State) (f : Safe → Safe) : (s.modSafe f).cores = s.cores := rfl
@[simp] theorem State.modSafe_parts (s : State) (f : Safe → Safe) : (s.modSafe f).parts = s.parts := rfl
@[simp] theorem State.modSafe_ctxs (s : State) (f : Safe → Safe) : (s.modSafe f).ctxs = s.ctxs := rfl
@[simp] theorem State.modSafe_images (s : State) (f : Safe → Safe) : (s.modSafe f).images = s.images := rfl
@[simp] theorem State.modSafe_streams (s : State) (f : Safe → Safe) : (s.modSafe f).streams = s.streams := rfl
@[simp] theorem State.modSafe_slotEpochs (s : State) (f : Safe → Safe) : (s.modSafe f).slotEpochs = s.slotEpochs := rfl
@[simp] theorem State.modSafe_qmg (s : State) (f : Safe → Safe) : (s.modSafe f).qmg = s.qmg := rfl
@[simp] theorem State.modSafe_ports (s : State) (f : Safe → Safe) : (s.modSafe f).ports = s.ports := rfl
@[simp] theorem State.modSafe_tal (s : State) (f : Safe → Safe) : (s.modSafe f).tal = s.tal := rfl
@[simp] theorem State.modSafe_ppe (s : State) (f : Safe → Safe) : (s.modSafe f).ppe = s.ppe := rfl
@[simp] theorem State.modSafe_slices (s : State) (f : Safe → Safe) : (s.modSafe f).slices = s.slices := rfl
@[simp] theorem State.modSafe_mesh (s : State) (f : Safe → Safe) : (s.modSafe f).mesh = s.mesh := rfl
@[simp] theorem State.modSafe_dmcs (s : State) (f : Safe → Safe) : (s.modSafe f).dmcs = s.dmcs := rfl
@[simp] theorem State.modSafe_dram (s : State) (f : Safe → Safe) : (s.modSafe f).dram = s.dram := rfl
@[simp] theorem State.modSafe_dramPoison (s : State) (f : Safe → Safe) : (s.modSafe f).dramPoison = s.dramPoison := rfl
@[simp] theorem State.modSafe_scrubHours (s : State) (f : Safe → Safe) : (s.modSafe f).scrubHours = s.scrubHours := rfl
@[simp] theorem State.modSafe_pwr (s : State) (f : Safe → Safe) : (s.modSafe f).pwr = s.pwr := rfl
@[simp] theorem State.modSafe_ctl (s : State) (f : Safe → Safe) : (s.modSafe f).ctl = s.ctl := rfl
@[simp] theorem State.modSafe_dbg (s : State) (f : Safe → Safe) : (s.modSafe f).dbg = s.dbg := rfl
@[simp] theorem State.modSafe_nvm (s : State) (f : Safe → Safe) : (s.modSafe f).nvm = s.nvm := rfl
@[simp] theorem State.modSafe_boot (s : State) (f : Safe → Safe) : (s.modSafe f).boot = s.boot := rfl
@[simp] theorem State.modSafe_pce (s : State) (f : Safe → Safe) : (s.modSafe f).pce = s.pce := rfl
@[simp] theorem State.modSafe_tlks (s : State) (f : Safe → Safe) : (s.modSafe f).tlks = s.tlks := rfl
@[simp] theorem State.modSafe_mons (s : State) (f : Safe → Safe) : (s.modSafe f).mons = s.mons := rfl
@[simp] theorem State.modSafe_safe (s : State) (f : Safe → Safe) : (s.modSafe f).safe = f s.safe := rfl

/-! ### modCtl -/

@[simp] theorem State.modCtl_pending (s : State) (f : Ctl → Ctl) : (s.modCtl f).pending = s.pending := rfl
@[simp] theorem State.modCtl_clock (s : State) (f : Ctl → Ctl) : (s.modCtl f).clock = s.clock := rfl
@[simp] theorem State.modCtl_free (s : State) (f : Ctl → Ctl) : (s.modCtl f).free = s.free := rfl
@[simp] theorem State.modCtl_outs (s : State) (f : Ctl → Ctl) : (s.modCtl f).outs = s.outs := rfl
@[simp] theorem State.modCtl_pages (s : State) (f : Ctl → Ctl) : (s.modCtl f).pages = s.pages := rfl
@[simp] theorem State.modCtl_sels (s : State) (f : Ctl → Ctl) : (s.modCtl f).sels = s.sels := rfl
@[simp] theorem State.modCtl_cores (s : State) (f : Ctl → Ctl) : (s.modCtl f).cores = s.cores := rfl
@[simp] theorem State.modCtl_parts (s : State) (f : Ctl → Ctl) : (s.modCtl f).parts = s.parts := rfl
@[simp] theorem State.modCtl_ctxs (s : State) (f : Ctl → Ctl) : (s.modCtl f).ctxs = s.ctxs := rfl
@[simp] theorem State.modCtl_images (s : State) (f : Ctl → Ctl) : (s.modCtl f).images = s.images := rfl
@[simp] theorem State.modCtl_streams (s : State) (f : Ctl → Ctl) : (s.modCtl f).streams = s.streams := rfl
@[simp] theorem State.modCtl_slotEpochs (s : State) (f : Ctl → Ctl) : (s.modCtl f).slotEpochs = s.slotEpochs := rfl
@[simp] theorem State.modCtl_qmg (s : State) (f : Ctl → Ctl) : (s.modCtl f).qmg = s.qmg := rfl
@[simp] theorem State.modCtl_ports (s : State) (f : Ctl → Ctl) : (s.modCtl f).ports = s.ports := rfl
@[simp] theorem State.modCtl_tal (s : State) (f : Ctl → Ctl) : (s.modCtl f).tal = s.tal := rfl
@[simp] theorem State.modCtl_ppe (s : State) (f : Ctl → Ctl) : (s.modCtl f).ppe = s.ppe := rfl
@[simp] theorem State.modCtl_slices (s : State) (f : Ctl → Ctl) : (s.modCtl f).slices = s.slices := rfl
@[simp] theorem State.modCtl_mesh (s : State) (f : Ctl → Ctl) : (s.modCtl f).mesh = s.mesh := rfl
@[simp] theorem State.modCtl_dmcs (s : State) (f : Ctl → Ctl) : (s.modCtl f).dmcs = s.dmcs := rfl
@[simp] theorem State.modCtl_dram (s : State) (f : Ctl → Ctl) : (s.modCtl f).dram = s.dram := rfl
@[simp] theorem State.modCtl_dramPoison (s : State) (f : Ctl → Ctl) : (s.modCtl f).dramPoison = s.dramPoison := rfl
@[simp] theorem State.modCtl_scrubHours (s : State) (f : Ctl → Ctl) : (s.modCtl f).scrubHours = s.scrubHours := rfl
@[simp] theorem State.modCtl_safe (s : State) (f : Ctl → Ctl) : (s.modCtl f).safe = s.safe := rfl
@[simp] theorem State.modCtl_pwr (s : State) (f : Ctl → Ctl) : (s.modCtl f).pwr = s.pwr := rfl
@[simp] theorem State.modCtl_dbg (s : State) (f : Ctl → Ctl) : (s.modCtl f).dbg = s.dbg := rfl
@[simp] theorem State.modCtl_nvm (s : State) (f : Ctl → Ctl) : (s.modCtl f).nvm = s.nvm := rfl
@[simp] theorem State.modCtl_boot (s : State) (f : Ctl → Ctl) : (s.modCtl f).boot = s.boot := rfl
@[simp] theorem State.modCtl_pce (s : State) (f : Ctl → Ctl) : (s.modCtl f).pce = s.pce := rfl
@[simp] theorem State.modCtl_tlks (s : State) (f : Ctl → Ctl) : (s.modCtl f).tlks = s.tlks := rfl
@[simp] theorem State.modCtl_mons (s : State) (f : Ctl → Ctl) : (s.modCtl f).mons = s.mons := rfl
@[simp] theorem State.modCtl_ctl (s : State) (f : Ctl → Ctl) : (s.modCtl f).ctl = f s.ctl := rfl

/-! ### modDbg -/

@[simp] theorem State.modDbg_pending (s : State) (f : Dbg → Dbg) : (s.modDbg f).pending = s.pending := rfl
@[simp] theorem State.modDbg_clock (s : State) (f : Dbg → Dbg) : (s.modDbg f).clock = s.clock := rfl
@[simp] theorem State.modDbg_free (s : State) (f : Dbg → Dbg) : (s.modDbg f).free = s.free := rfl
@[simp] theorem State.modDbg_outs (s : State) (f : Dbg → Dbg) : (s.modDbg f).outs = s.outs := rfl
@[simp] theorem State.modDbg_pages (s : State) (f : Dbg → Dbg) : (s.modDbg f).pages = s.pages := rfl
@[simp] theorem State.modDbg_sels (s : State) (f : Dbg → Dbg) : (s.modDbg f).sels = s.sels := rfl
@[simp] theorem State.modDbg_cores (s : State) (f : Dbg → Dbg) : (s.modDbg f).cores = s.cores := rfl
@[simp] theorem State.modDbg_parts (s : State) (f : Dbg → Dbg) : (s.modDbg f).parts = s.parts := rfl
@[simp] theorem State.modDbg_ctxs (s : State) (f : Dbg → Dbg) : (s.modDbg f).ctxs = s.ctxs := rfl
@[simp] theorem State.modDbg_images (s : State) (f : Dbg → Dbg) : (s.modDbg f).images = s.images := rfl
@[simp] theorem State.modDbg_streams (s : State) (f : Dbg → Dbg) : (s.modDbg f).streams = s.streams := rfl
@[simp] theorem State.modDbg_slotEpochs (s : State) (f : Dbg → Dbg) : (s.modDbg f).slotEpochs = s.slotEpochs := rfl
@[simp] theorem State.modDbg_qmg (s : State) (f : Dbg → Dbg) : (s.modDbg f).qmg = s.qmg := rfl
@[simp] theorem State.modDbg_ports (s : State) (f : Dbg → Dbg) : (s.modDbg f).ports = s.ports := rfl
@[simp] theorem State.modDbg_tal (s : State) (f : Dbg → Dbg) : (s.modDbg f).tal = s.tal := rfl
@[simp] theorem State.modDbg_ppe (s : State) (f : Dbg → Dbg) : (s.modDbg f).ppe = s.ppe := rfl
@[simp] theorem State.modDbg_slices (s : State) (f : Dbg → Dbg) : (s.modDbg f).slices = s.slices := rfl
@[simp] theorem State.modDbg_mesh (s : State) (f : Dbg → Dbg) : (s.modDbg f).mesh = s.mesh := rfl
@[simp] theorem State.modDbg_dmcs (s : State) (f : Dbg → Dbg) : (s.modDbg f).dmcs = s.dmcs := rfl
@[simp] theorem State.modDbg_dram (s : State) (f : Dbg → Dbg) : (s.modDbg f).dram = s.dram := rfl
@[simp] theorem State.modDbg_dramPoison (s : State) (f : Dbg → Dbg) : (s.modDbg f).dramPoison = s.dramPoison := rfl
@[simp] theorem State.modDbg_scrubHours (s : State) (f : Dbg → Dbg) : (s.modDbg f).scrubHours = s.scrubHours := rfl
@[simp] theorem State.modDbg_safe (s : State) (f : Dbg → Dbg) : (s.modDbg f).safe = s.safe := rfl
@[simp] theorem State.modDbg_pwr (s : State) (f : Dbg → Dbg) : (s.modDbg f).pwr = s.pwr := rfl
@[simp] theorem State.modDbg_ctl (s : State) (f : Dbg → Dbg) : (s.modDbg f).ctl = s.ctl := rfl
@[simp] theorem State.modDbg_nvm (s : State) (f : Dbg → Dbg) : (s.modDbg f).nvm = s.nvm := rfl
@[simp] theorem State.modDbg_boot (s : State) (f : Dbg → Dbg) : (s.modDbg f).boot = s.boot := rfl
@[simp] theorem State.modDbg_pce (s : State) (f : Dbg → Dbg) : (s.modDbg f).pce = s.pce := rfl
@[simp] theorem State.modDbg_tlks (s : State) (f : Dbg → Dbg) : (s.modDbg f).tlks = s.tlks := rfl
@[simp] theorem State.modDbg_mons (s : State) (f : Dbg → Dbg) : (s.modDbg f).mons = s.mons := rfl
@[simp] theorem State.modDbg_dbg (s : State) (f : Dbg → Dbg) : (s.modDbg f).dbg = f s.dbg := rfl

/-! ### modTal -/

@[simp] theorem State.modTal_pending (s : State) (f : Tal → Tal) : (s.modTal f).pending = s.pending := rfl
@[simp] theorem State.modTal_clock (s : State) (f : Tal → Tal) : (s.modTal f).clock = s.clock := rfl
@[simp] theorem State.modTal_free (s : State) (f : Tal → Tal) : (s.modTal f).free = s.free := rfl
@[simp] theorem State.modTal_outs (s : State) (f : Tal → Tal) : (s.modTal f).outs = s.outs := rfl
@[simp] theorem State.modTal_pages (s : State) (f : Tal → Tal) : (s.modTal f).pages = s.pages := rfl
@[simp] theorem State.modTal_sels (s : State) (f : Tal → Tal) : (s.modTal f).sels = s.sels := rfl
@[simp] theorem State.modTal_cores (s : State) (f : Tal → Tal) : (s.modTal f).cores = s.cores := rfl
@[simp] theorem State.modTal_parts (s : State) (f : Tal → Tal) : (s.modTal f).parts = s.parts := rfl
@[simp] theorem State.modTal_ctxs (s : State) (f : Tal → Tal) : (s.modTal f).ctxs = s.ctxs := rfl
@[simp] theorem State.modTal_images (s : State) (f : Tal → Tal) : (s.modTal f).images = s.images := rfl
@[simp] theorem State.modTal_streams (s : State) (f : Tal → Tal) : (s.modTal f).streams = s.streams := rfl
@[simp] theorem State.modTal_slotEpochs (s : State) (f : Tal → Tal) : (s.modTal f).slotEpochs = s.slotEpochs := rfl
@[simp] theorem State.modTal_qmg (s : State) (f : Tal → Tal) : (s.modTal f).qmg = s.qmg := rfl
@[simp] theorem State.modTal_ports (s : State) (f : Tal → Tal) : (s.modTal f).ports = s.ports := rfl
@[simp] theorem State.modTal_ppe (s : State) (f : Tal → Tal) : (s.modTal f).ppe = s.ppe := rfl
@[simp] theorem State.modTal_slices (s : State) (f : Tal → Tal) : (s.modTal f).slices = s.slices := rfl
@[simp] theorem State.modTal_mesh (s : State) (f : Tal → Tal) : (s.modTal f).mesh = s.mesh := rfl
@[simp] theorem State.modTal_dmcs (s : State) (f : Tal → Tal) : (s.modTal f).dmcs = s.dmcs := rfl
@[simp] theorem State.modTal_dram (s : State) (f : Tal → Tal) : (s.modTal f).dram = s.dram := rfl
@[simp] theorem State.modTal_dramPoison (s : State) (f : Tal → Tal) : (s.modTal f).dramPoison = s.dramPoison := rfl
@[simp] theorem State.modTal_scrubHours (s : State) (f : Tal → Tal) : (s.modTal f).scrubHours = s.scrubHours := rfl
@[simp] theorem State.modTal_safe (s : State) (f : Tal → Tal) : (s.modTal f).safe = s.safe := rfl
@[simp] theorem State.modTal_pwr (s : State) (f : Tal → Tal) : (s.modTal f).pwr = s.pwr := rfl
@[simp] theorem State.modTal_ctl (s : State) (f : Tal → Tal) : (s.modTal f).ctl = s.ctl := rfl
@[simp] theorem State.modTal_dbg (s : State) (f : Tal → Tal) : (s.modTal f).dbg = s.dbg := rfl
@[simp] theorem State.modTal_nvm (s : State) (f : Tal → Tal) : (s.modTal f).nvm = s.nvm := rfl
@[simp] theorem State.modTal_boot (s : State) (f : Tal → Tal) : (s.modTal f).boot = s.boot := rfl
@[simp] theorem State.modTal_pce (s : State) (f : Tal → Tal) : (s.modTal f).pce = s.pce := rfl
@[simp] theorem State.modTal_tlks (s : State) (f : Tal → Tal) : (s.modTal f).tlks = s.tlks := rfl
@[simp] theorem State.modTal_mons (s : State) (f : Tal → Tal) : (s.modTal f).mons = s.mons := rfl
@[simp] theorem State.modTal_tal (s : State) (f : Tal → Tal) : (s.modTal f).tal = f s.tal := rfl

/-! ### modPpe -/

@[simp] theorem State.modPpe_pending (s : State) (f : Ppe → Ppe) : (s.modPpe f).pending = s.pending := rfl
@[simp] theorem State.modPpe_clock (s : State) (f : Ppe → Ppe) : (s.modPpe f).clock = s.clock := rfl
@[simp] theorem State.modPpe_free (s : State) (f : Ppe → Ppe) : (s.modPpe f).free = s.free := rfl
@[simp] theorem State.modPpe_outs (s : State) (f : Ppe → Ppe) : (s.modPpe f).outs = s.outs := rfl
@[simp] theorem State.modPpe_pages (s : State) (f : Ppe → Ppe) : (s.modPpe f).pages = s.pages := rfl
@[simp] theorem State.modPpe_sels (s : State) (f : Ppe → Ppe) : (s.modPpe f).sels = s.sels := rfl
@[simp] theorem State.modPpe_cores (s : State) (f : Ppe → Ppe) : (s.modPpe f).cores = s.cores := rfl
@[simp] theorem State.modPpe_parts (s : State) (f : Ppe → Ppe) : (s.modPpe f).parts = s.parts := rfl
@[simp] theorem State.modPpe_ctxs (s : State) (f : Ppe → Ppe) : (s.modPpe f).ctxs = s.ctxs := rfl
@[simp] theorem State.modPpe_images (s : State) (f : Ppe → Ppe) : (s.modPpe f).images = s.images := rfl
@[simp] theorem State.modPpe_streams (s : State) (f : Ppe → Ppe) : (s.modPpe f).streams = s.streams := rfl
@[simp] theorem State.modPpe_slotEpochs (s : State) (f : Ppe → Ppe) : (s.modPpe f).slotEpochs = s.slotEpochs := rfl
@[simp] theorem State.modPpe_qmg (s : State) (f : Ppe → Ppe) : (s.modPpe f).qmg = s.qmg := rfl
@[simp] theorem State.modPpe_ports (s : State) (f : Ppe → Ppe) : (s.modPpe f).ports = s.ports := rfl
@[simp] theorem State.modPpe_tal (s : State) (f : Ppe → Ppe) : (s.modPpe f).tal = s.tal := rfl
@[simp] theorem State.modPpe_slices (s : State) (f : Ppe → Ppe) : (s.modPpe f).slices = s.slices := rfl
@[simp] theorem State.modPpe_mesh (s : State) (f : Ppe → Ppe) : (s.modPpe f).mesh = s.mesh := rfl
@[simp] theorem State.modPpe_dmcs (s : State) (f : Ppe → Ppe) : (s.modPpe f).dmcs = s.dmcs := rfl
@[simp] theorem State.modPpe_dram (s : State) (f : Ppe → Ppe) : (s.modPpe f).dram = s.dram := rfl
@[simp] theorem State.modPpe_dramPoison (s : State) (f : Ppe → Ppe) : (s.modPpe f).dramPoison = s.dramPoison := rfl
@[simp] theorem State.modPpe_scrubHours (s : State) (f : Ppe → Ppe) : (s.modPpe f).scrubHours = s.scrubHours := rfl
@[simp] theorem State.modPpe_safe (s : State) (f : Ppe → Ppe) : (s.modPpe f).safe = s.safe := rfl
@[simp] theorem State.modPpe_pwr (s : State) (f : Ppe → Ppe) : (s.modPpe f).pwr = s.pwr := rfl
@[simp] theorem State.modPpe_ctl (s : State) (f : Ppe → Ppe) : (s.modPpe f).ctl = s.ctl := rfl
@[simp] theorem State.modPpe_dbg (s : State) (f : Ppe → Ppe) : (s.modPpe f).dbg = s.dbg := rfl
@[simp] theorem State.modPpe_nvm (s : State) (f : Ppe → Ppe) : (s.modPpe f).nvm = s.nvm := rfl
@[simp] theorem State.modPpe_boot (s : State) (f : Ppe → Ppe) : (s.modPpe f).boot = s.boot := rfl
@[simp] theorem State.modPpe_pce (s : State) (f : Ppe → Ppe) : (s.modPpe f).pce = s.pce := rfl
@[simp] theorem State.modPpe_tlks (s : State) (f : Ppe → Ppe) : (s.modPpe f).tlks = s.tlks := rfl
@[simp] theorem State.modPpe_mons (s : State) (f : Ppe → Ppe) : (s.modPpe f).mons = s.mons := rfl
@[simp] theorem State.modPpe_ppe (s : State) (f : Ppe → Ppe) : (s.modPpe f).ppe = f s.ppe := rfl

/-! ### modPwr -/

@[simp] theorem State.modPwr_pending (s : State) (f : Pwr → Pwr) : (s.modPwr f).pending = s.pending := rfl
@[simp] theorem State.modPwr_clock (s : State) (f : Pwr → Pwr) : (s.modPwr f).clock = s.clock := rfl
@[simp] theorem State.modPwr_free (s : State) (f : Pwr → Pwr) : (s.modPwr f).free = s.free := rfl
@[simp] theorem State.modPwr_outs (s : State) (f : Pwr → Pwr) : (s.modPwr f).outs = s.outs := rfl
@[simp] theorem State.modPwr_pages (s : State) (f : Pwr → Pwr) : (s.modPwr f).pages = s.pages := rfl
@[simp] theorem State.modPwr_sels (s : State) (f : Pwr → Pwr) : (s.modPwr f).sels = s.sels := rfl
@[simp] theorem State.modPwr_cores (s : State) (f : Pwr → Pwr) : (s.modPwr f).cores = s.cores := rfl
@[simp] theorem State.modPwr_parts (s : State) (f : Pwr → Pwr) : (s.modPwr f).parts = s.parts := rfl
@[simp] theorem State.modPwr_ctxs (s : State) (f : Pwr → Pwr) : (s.modPwr f).ctxs = s.ctxs := rfl
@[simp] theorem State.modPwr_images (s : State) (f : Pwr → Pwr) : (s.modPwr f).images = s.images := rfl
@[simp] theorem State.modPwr_streams (s : State) (f : Pwr → Pwr) : (s.modPwr f).streams = s.streams := rfl
@[simp] theorem State.modPwr_slotEpochs (s : State) (f : Pwr → Pwr) : (s.modPwr f).slotEpochs = s.slotEpochs := rfl
@[simp] theorem State.modPwr_qmg (s : State) (f : Pwr → Pwr) : (s.modPwr f).qmg = s.qmg := rfl
@[simp] theorem State.modPwr_ports (s : State) (f : Pwr → Pwr) : (s.modPwr f).ports = s.ports := rfl
@[simp] theorem State.modPwr_tal (s : State) (f : Pwr → Pwr) : (s.modPwr f).tal = s.tal := rfl
@[simp] theorem State.modPwr_ppe (s : State) (f : Pwr → Pwr) : (s.modPwr f).ppe = s.ppe := rfl
@[simp] theorem State.modPwr_slices (s : State) (f : Pwr → Pwr) : (s.modPwr f).slices = s.slices := rfl
@[simp] theorem State.modPwr_mesh (s : State) (f : Pwr → Pwr) : (s.modPwr f).mesh = s.mesh := rfl
@[simp] theorem State.modPwr_dmcs (s : State) (f : Pwr → Pwr) : (s.modPwr f).dmcs = s.dmcs := rfl
@[simp] theorem State.modPwr_dram (s : State) (f : Pwr → Pwr) : (s.modPwr f).dram = s.dram := rfl
@[simp] theorem State.modPwr_dramPoison (s : State) (f : Pwr → Pwr) : (s.modPwr f).dramPoison = s.dramPoison := rfl
@[simp] theorem State.modPwr_scrubHours (s : State) (f : Pwr → Pwr) : (s.modPwr f).scrubHours = s.scrubHours := rfl
@[simp] theorem State.modPwr_safe (s : State) (f : Pwr → Pwr) : (s.modPwr f).safe = s.safe := rfl
@[simp] theorem State.modPwr_ctl (s : State) (f : Pwr → Pwr) : (s.modPwr f).ctl = s.ctl := rfl
@[simp] theorem State.modPwr_dbg (s : State) (f : Pwr → Pwr) : (s.modPwr f).dbg = s.dbg := rfl
@[simp] theorem State.modPwr_nvm (s : State) (f : Pwr → Pwr) : (s.modPwr f).nvm = s.nvm := rfl
@[simp] theorem State.modPwr_boot (s : State) (f : Pwr → Pwr) : (s.modPwr f).boot = s.boot := rfl
@[simp] theorem State.modPwr_pce (s : State) (f : Pwr → Pwr) : (s.modPwr f).pce = s.pce := rfl
@[simp] theorem State.modPwr_tlks (s : State) (f : Pwr → Pwr) : (s.modPwr f).tlks = s.tlks := rfl
@[simp] theorem State.modPwr_mons (s : State) (f : Pwr → Pwr) : (s.modPwr f).mons = s.mons := rfl
@[simp] theorem State.modPwr_pwr (s : State) (f : Pwr → Pwr) : (s.modPwr f).pwr = f s.pwr := rfl

/-! ### modBoot -/

@[simp] theorem State.modBoot_pending (s : State) (f : Boot → Boot) : (s.modBoot f).pending = s.pending := rfl
@[simp] theorem State.modBoot_clock (s : State) (f : Boot → Boot) : (s.modBoot f).clock = s.clock := rfl
@[simp] theorem State.modBoot_free (s : State) (f : Boot → Boot) : (s.modBoot f).free = s.free := rfl
@[simp] theorem State.modBoot_outs (s : State) (f : Boot → Boot) : (s.modBoot f).outs = s.outs := rfl
@[simp] theorem State.modBoot_pages (s : State) (f : Boot → Boot) : (s.modBoot f).pages = s.pages := rfl
@[simp] theorem State.modBoot_sels (s : State) (f : Boot → Boot) : (s.modBoot f).sels = s.sels := rfl
@[simp] theorem State.modBoot_cores (s : State) (f : Boot → Boot) : (s.modBoot f).cores = s.cores := rfl
@[simp] theorem State.modBoot_parts (s : State) (f : Boot → Boot) : (s.modBoot f).parts = s.parts := rfl
@[simp] theorem State.modBoot_ctxs (s : State) (f : Boot → Boot) : (s.modBoot f).ctxs = s.ctxs := rfl
@[simp] theorem State.modBoot_images (s : State) (f : Boot → Boot) : (s.modBoot f).images = s.images := rfl
@[simp] theorem State.modBoot_streams (s : State) (f : Boot → Boot) : (s.modBoot f).streams = s.streams := rfl
@[simp] theorem State.modBoot_slotEpochs (s : State) (f : Boot → Boot) : (s.modBoot f).slotEpochs = s.slotEpochs := rfl
@[simp] theorem State.modBoot_qmg (s : State) (f : Boot → Boot) : (s.modBoot f).qmg = s.qmg := rfl
@[simp] theorem State.modBoot_ports (s : State) (f : Boot → Boot) : (s.modBoot f).ports = s.ports := rfl
@[simp] theorem State.modBoot_tal (s : State) (f : Boot → Boot) : (s.modBoot f).tal = s.tal := rfl
@[simp] theorem State.modBoot_ppe (s : State) (f : Boot → Boot) : (s.modBoot f).ppe = s.ppe := rfl
@[simp] theorem State.modBoot_slices (s : State) (f : Boot → Boot) : (s.modBoot f).slices = s.slices := rfl
@[simp] theorem State.modBoot_mesh (s : State) (f : Boot → Boot) : (s.modBoot f).mesh = s.mesh := rfl
@[simp] theorem State.modBoot_dmcs (s : State) (f : Boot → Boot) : (s.modBoot f).dmcs = s.dmcs := rfl
@[simp] theorem State.modBoot_dram (s : State) (f : Boot → Boot) : (s.modBoot f).dram = s.dram := rfl
@[simp] theorem State.modBoot_dramPoison (s : State) (f : Boot → Boot) : (s.modBoot f).dramPoison = s.dramPoison := rfl
@[simp] theorem State.modBoot_scrubHours (s : State) (f : Boot → Boot) : (s.modBoot f).scrubHours = s.scrubHours := rfl
@[simp] theorem State.modBoot_safe (s : State) (f : Boot → Boot) : (s.modBoot f).safe = s.safe := rfl
@[simp] theorem State.modBoot_pwr (s : State) (f : Boot → Boot) : (s.modBoot f).pwr = s.pwr := rfl
@[simp] theorem State.modBoot_ctl (s : State) (f : Boot → Boot) : (s.modBoot f).ctl = s.ctl := rfl
@[simp] theorem State.modBoot_dbg (s : State) (f : Boot → Boot) : (s.modBoot f).dbg = s.dbg := rfl
@[simp] theorem State.modBoot_nvm (s : State) (f : Boot → Boot) : (s.modBoot f).nvm = s.nvm := rfl
@[simp] theorem State.modBoot_pce (s : State) (f : Boot → Boot) : (s.modBoot f).pce = s.pce := rfl
@[simp] theorem State.modBoot_tlks (s : State) (f : Boot → Boot) : (s.modBoot f).tlks = s.tlks := rfl
@[simp] theorem State.modBoot_mons (s : State) (f : Boot → Boot) : (s.modBoot f).mons = s.mons := rfl
@[simp] theorem State.modBoot_boot (s : State) (f : Boot → Boot) : (s.modBoot f).boot = f s.boot := rfl

/-! ### modMesh -/

@[simp] theorem State.modMesh_pending (s : State) (f : Mesh → Mesh) : (s.modMesh f).pending = s.pending := rfl
@[simp] theorem State.modMesh_clock (s : State) (f : Mesh → Mesh) : (s.modMesh f).clock = s.clock := rfl
@[simp] theorem State.modMesh_free (s : State) (f : Mesh → Mesh) : (s.modMesh f).free = s.free := rfl
@[simp] theorem State.modMesh_outs (s : State) (f : Mesh → Mesh) : (s.modMesh f).outs = s.outs := rfl
@[simp] theorem State.modMesh_pages (s : State) (f : Mesh → Mesh) : (s.modMesh f).pages = s.pages := rfl
@[simp] theorem State.modMesh_sels (s : State) (f : Mesh → Mesh) : (s.modMesh f).sels = s.sels := rfl
@[simp] theorem State.modMesh_cores (s : State) (f : Mesh → Mesh) : (s.modMesh f).cores = s.cores := rfl
@[simp] theorem State.modMesh_parts (s : State) (f : Mesh → Mesh) : (s.modMesh f).parts = s.parts := rfl
@[simp] theorem State.modMesh_ctxs (s : State) (f : Mesh → Mesh) : (s.modMesh f).ctxs = s.ctxs := rfl
@[simp] theorem State.modMesh_images (s : State) (f : Mesh → Mesh) : (s.modMesh f).images = s.images := rfl
@[simp] theorem State.modMesh_streams (s : State) (f : Mesh → Mesh) : (s.modMesh f).streams = s.streams := rfl
@[simp] theorem State.modMesh_slotEpochs (s : State) (f : Mesh → Mesh) : (s.modMesh f).slotEpochs = s.slotEpochs := rfl
@[simp] theorem State.modMesh_qmg (s : State) (f : Mesh → Mesh) : (s.modMesh f).qmg = s.qmg := rfl
@[simp] theorem State.modMesh_ports (s : State) (f : Mesh → Mesh) : (s.modMesh f).ports = s.ports := rfl
@[simp] theorem State.modMesh_tal (s : State) (f : Mesh → Mesh) : (s.modMesh f).tal = s.tal := rfl
@[simp] theorem State.modMesh_ppe (s : State) (f : Mesh → Mesh) : (s.modMesh f).ppe = s.ppe := rfl
@[simp] theorem State.modMesh_slices (s : State) (f : Mesh → Mesh) : (s.modMesh f).slices = s.slices := rfl
@[simp] theorem State.modMesh_dmcs (s : State) (f : Mesh → Mesh) : (s.modMesh f).dmcs = s.dmcs := rfl
@[simp] theorem State.modMesh_dram (s : State) (f : Mesh → Mesh) : (s.modMesh f).dram = s.dram := rfl
@[simp] theorem State.modMesh_dramPoison (s : State) (f : Mesh → Mesh) : (s.modMesh f).dramPoison = s.dramPoison := rfl
@[simp] theorem State.modMesh_scrubHours (s : State) (f : Mesh → Mesh) : (s.modMesh f).scrubHours = s.scrubHours := rfl
@[simp] theorem State.modMesh_safe (s : State) (f : Mesh → Mesh) : (s.modMesh f).safe = s.safe := rfl
@[simp] theorem State.modMesh_pwr (s : State) (f : Mesh → Mesh) : (s.modMesh f).pwr = s.pwr := rfl
@[simp] theorem State.modMesh_ctl (s : State) (f : Mesh → Mesh) : (s.modMesh f).ctl = s.ctl := rfl
@[simp] theorem State.modMesh_dbg (s : State) (f : Mesh → Mesh) : (s.modMesh f).dbg = s.dbg := rfl
@[simp] theorem State.modMesh_nvm (s : State) (f : Mesh → Mesh) : (s.modMesh f).nvm = s.nvm := rfl
@[simp] theorem State.modMesh_boot (s : State) (f : Mesh → Mesh) : (s.modMesh f).boot = s.boot := rfl
@[simp] theorem State.modMesh_pce (s : State) (f : Mesh → Mesh) : (s.modMesh f).pce = s.pce := rfl
@[simp] theorem State.modMesh_tlks (s : State) (f : Mesh → Mesh) : (s.modMesh f).tlks = s.tlks := rfl
@[simp] theorem State.modMesh_mons (s : State) (f : Mesh → Mesh) : (s.modMesh f).mons = s.mons := rfl
@[simp] theorem State.modMesh_mesh (s : State) (f : Mesh → Mesh) : (s.modMesh f).mesh = f s.mesh := rfl

/-! ### emit -/

@[simp] theorem State.emit_pending (s : State) (o : Out) : (s.emit o).pending = s.pending := rfl
@[simp] theorem State.emit_clock (s : State) (o : Out) : (s.emit o).clock = s.clock := rfl
@[simp] theorem State.emit_free (s : State) (o : Out) : (s.emit o).free = s.free := rfl
@[simp] theorem State.emit_pages (s : State) (o : Out) : (s.emit o).pages = s.pages := rfl
@[simp] theorem State.emit_sels (s : State) (o : Out) : (s.emit o).sels = s.sels := rfl
@[simp] theorem State.emit_cores (s : State) (o : Out) : (s.emit o).cores = s.cores := rfl
@[simp] theorem State.emit_parts (s : State) (o : Out) : (s.emit o).parts = s.parts := rfl
@[simp] theorem State.emit_ctxs (s : State) (o : Out) : (s.emit o).ctxs = s.ctxs := rfl
@[simp] theorem State.emit_images (s : State) (o : Out) : (s.emit o).images = s.images := rfl
@[simp] theorem State.emit_streams (s : State) (o : Out) : (s.emit o).streams = s.streams := rfl
@[simp] theorem State.emit_slotEpochs (s : State) (o : Out) : (s.emit o).slotEpochs = s.slotEpochs := rfl
@[simp] theorem State.emit_qmg (s : State) (o : Out) : (s.emit o).qmg = s.qmg := rfl
@[simp] theorem State.emit_ports (s : State) (o : Out) : (s.emit o).ports = s.ports := rfl
@[simp] theorem State.emit_tal (s : State) (o : Out) : (s.emit o).tal = s.tal := rfl
@[simp] theorem State.emit_ppe (s : State) (o : Out) : (s.emit o).ppe = s.ppe := rfl
@[simp] theorem State.emit_slices (s : State) (o : Out) : (s.emit o).slices = s.slices := rfl
@[simp] theorem State.emit_mesh (s : State) (o : Out) : (s.emit o).mesh = s.mesh := rfl
@[simp] theorem State.emit_dmcs (s : State) (o : Out) : (s.emit o).dmcs = s.dmcs := rfl
@[simp] theorem State.emit_dram (s : State) (o : Out) : (s.emit o).dram = s.dram := rfl
@[simp] theorem State.emit_dramPoison (s : State) (o : Out) : (s.emit o).dramPoison = s.dramPoison := rfl
@[simp] theorem State.emit_scrubHours (s : State) (o : Out) : (s.emit o).scrubHours = s.scrubHours := rfl
@[simp] theorem State.emit_safe (s : State) (o : Out) : (s.emit o).safe = s.safe := rfl
@[simp] theorem State.emit_pwr (s : State) (o : Out) : (s.emit o).pwr = s.pwr := rfl
@[simp] theorem State.emit_ctl (s : State) (o : Out) : (s.emit o).ctl = s.ctl := rfl
@[simp] theorem State.emit_dbg (s : State) (o : Out) : (s.emit o).dbg = s.dbg := rfl
@[simp] theorem State.emit_nvm (s : State) (o : Out) : (s.emit o).nvm = s.nvm := rfl
@[simp] theorem State.emit_boot (s : State) (o : Out) : (s.emit o).boot = s.boot := rfl
@[simp] theorem State.emit_pce (s : State) (o : Out) : (s.emit o).pce = s.pce := rfl
@[simp] theorem State.emit_tlks (s : State) (o : Out) : (s.emit o).tlks = s.tlks := rfl
@[simp] theorem State.emit_mons (s : State) (o : Out) : (s.emit o).mons = s.mons := rfl
@[simp] theorem State.emit_outs (s : State) (o : Out) : (s.emit o).outs = s.outs ++ [o] := rfl

/-! ### Reading a unit after an update -/

theorem State.core_modCore (s : State) (n k : Nat) (f : CoreSt → CoreSt) : (s.modCore n f).core k = if k = n then f (s.core n) else s.core k :=
  Tab.get_insert _ _ _ _ _
@[simp] theorem State.core_modCore_self (s : State) (n : Nat) (f : CoreSt → CoreSt) : (s.modCore n f).core n = f (s.core n) := Tab.get_insert_self _ _ _ _
theorem State.core_modCore_ne (s : State) {n k : Nat} (f : CoreSt → CoreSt) (h : k ≠ n) : (s.modCore n f).core k = s.core k :=
  Tab.get_insert_ne _ _ _ h

theorem State.ctx_modCtx (s : State) (n k : Nat) (f : Ctx → Ctx) : (s.modCtx n f).ctx k = if k = n then f (s.ctx n) else s.ctx k :=
  Tab.get_insert _ _ _ _ _
@[simp] theorem State.ctx_modCtx_self (s : State) (n : Nat) (f : Ctx → Ctx) : (s.modCtx n f).ctx n = f (s.ctx n) := Tab.get_insert_self _ _ _ _
theorem State.ctx_modCtx_ne (s : State) {n k : Nat} (f : Ctx → Ctx) (h : k ≠ n) : (s.modCtx n f).ctx k = s.ctx k :=
  Tab.get_insert_ne _ _ _ h

theorem State.port_modPort (s : State) (n k : Nat) (f : PortSt → PortSt) : (s.modPort n f).port k = if k = n then f (s.port n) else s.port k :=
  Tab.get_insert _ _ _ _ _
@[simp] theorem State.port_modPort_self (s : State) (n : Nat) (f : PortSt → PortSt) : (s.modPort n f).port n = f (s.port n) := Tab.get_insert_self _ _ _ _
theorem State.port_modPort_ne (s : State) {n k : Nat} (f : PortSt → PortSt) (h : k ≠ n) : (s.modPort n f).port k = s.port k :=
  Tab.get_insert_ne _ _ _ h

theorem State.slice_modSlice (s : State) (n k : Nat) (f : Slice → Slice) : (s.modSlice n f).slice k = if k = n then f (s.slice n) else s.slice k :=
  Tab.get_insert _ _ _ _ _
@[simp] theorem State.slice_modSlice_self (s : State) (n : Nat) (f : Slice → Slice) : (s.modSlice n f).slice n = f (s.slice n) := Tab.get_insert_self _ _ _ _
theorem State.slice_modSlice_ne (s : State) {n k : Nat} (f : Slice → Slice) (h : k ≠ n) : (s.modSlice n f).slice k = s.slice k :=
  Tab.get_insert_ne _ _ _ h

theorem State.dmc_modDmc (s : State) (n k : Nat) (f : Dmc → Dmc) : (s.modDmc n f).dmc k = if k = n then f (s.dmc n) else s.dmc k :=
  Tab.get_insert _ _ _ _ _
@[simp] theorem State.dmc_modDmc_self (s : State) (n : Nat) (f : Dmc → Dmc) : (s.modDmc n f).dmc n = f (s.dmc n) := Tab.get_insert_self _ _ _ _
theorem State.dmc_modDmc_ne (s : State) {n k : Nat} (f : Dmc → Dmc) (h : k ≠ n) : (s.modDmc n f).dmc k = s.dmc k :=
  Tab.get_insert_ne _ _ _ h

theorem State.tlk_modTlk (s : State) (n k : Nat) (f : Tlk → Tlk) : (s.modTlk n f).tlk k = if k = n then f (s.tlk n) else s.tlk k :=
  Tab.get_insert _ _ _ _ _
@[simp] theorem State.tlk_modTlk_self (s : State) (n : Nat) (f : Tlk → Tlk) : (s.modTlk n f).tlk n = f (s.tlk n) := Tab.get_insert_self _ _ _ _
theorem State.tlk_modTlk_ne (s : State) {n k : Nat} (f : Tlk → Tlk) (h : k ≠ n) : (s.modTlk n f).tlk k = s.tlk k :=
  Tab.get_insert_ne _ _ _ h

theorem State.mon_modMon (s : State) (n k : Nat) (f : Mon → Mon) : (s.modMon n f).mon k = if k = n then f (s.mon n) else s.mon k :=
  Tab.get_insert _ _ _ _ _
@[simp] theorem State.mon_modMon_self (s : State) (n : Nat) (f : Mon → Mon) : (s.modMon n f).mon n = f (s.mon n) := Tab.get_insert_self _ _ _ _
theorem State.mon_modMon_ne (s : State) {n k : Nat} (f : Mon → Mon) (h : k ≠ n) : (s.modMon n f).mon k = s.mon k :=
  Tab.get_insert_ne _ _ _ h

theorem State.queue_modQueue (s : State) (n k : Nat) (f : Queue → Queue) : (s.modQueue n f).queue k = if k = n then f (s.queue n) else s.queue k :=
  Tab.get_insert _ _ _ _ _
@[simp] theorem State.queue_modQueue_self (s : State) (n : Nat) (f : Queue → Queue) : (s.modQueue n f).queue n = f (s.queue n) := Tab.get_insert_self _ _ _ _
theorem State.queue_modQueue_ne (s : State) {n k : Nat} (f : Queue → Queue) (h : k ≠ n) : (s.modQueue n f).queue k = s.queue k :=
  Tab.get_insert_ne _ _ _ h

theorem State.vote_modVote (s : State) (n k : Nat) (f : VoteUnit → VoteUnit) : (s.modVote n f).vote k = if k = n then f (s.vote n) else s.vote k :=
  Tab.get_insert _ _ _ _ _
@[simp] theorem State.vote_modVote_self (s : State) (n : Nat) (f : VoteUnit → VoteUnit) : (s.modVote n f).vote n = f (s.vote n) := Tab.get_insert_self _ _ _ _
theorem State.vote_modVote_ne (s : State) {n k : Nat} (f : VoteUnit → VoteUnit) (h : k ≠ n) : (s.modVote n f).vote k = s.vote k :=
  Tab.get_insert_ne _ _ _ h

theorem State.quad_modQuad (s : State) (n k : Nat) (f : Quad → Quad) : (s.modQuad n f).quad k = if k = n then f (s.quad n) else s.quad k :=
  Tab.get_insert _ _ _ _ _
@[simp] theorem State.quad_modQuad_self (s : State) (n : Nat) (f : Quad → Quad) : (s.modQuad n f).quad n = f (s.quad n) := Tab.get_insert_self _ _ _ _
theorem State.quad_modQuad_ne (s : State) {n k : Nat} (f : Quad → Quad) (h : k ≠ n) : (s.modQuad n f).quad k = s.quad k :=
  Tab.get_insert_ne _ _ _ h

theorem State.stream?_modStream (s : State) (n k : Nat) (f : Stream → Stream) :
    (s.modStream n f).stream? k = if k = n then (s.stream? n).map f else s.stream? k := Tab.find_modify _ _ _ _
theorem State.stream?_modStream_ne (s : State) {n k : Nat} (f : Stream → Stream) (h : k ≠ n) :
    (s.modStream n f).stream? k = s.stream? k := Tab.find_modify_ne _ _ h
@[simp] theorem State.stream?_modStream_self (s : State) (n : Nat) (f : Stream → Stream) :
    (s.modStream n f).stream? n = (s.stream? n).map f := by simp [State.stream?_modStream]
@[simp] theorem State.hdr_modHdr_self (s : State) (b : Block) (f : Header → Header) : (s.modHdr b f).hdr b = f (s.hdr b) :=
  Tab.get_insert_self _ _ _ _
theorem State.hdr_modHdr_ne (s : State) {b c : Block} (f : Header → Header) (h : c.page ≠ b.page) :
    (s.modHdr b f).hdr c = s.hdr c := Tab.get_insert_ne _ _ _ h

/-! ### Reading a unit of another kind -/

@[simp] theorem State.setCtx_core (s : State) (c' : Nat) (x' : Ctx) (n : Nat) : (s.setCtx c' x').core n = s.core n := rfl
@[simp] theorem State.modCtx_core (s : State) (c' : Nat) (f' : Ctx → Ctx) (n : Nat) : (s.modCtx c' f').core n = s.core n := rfl
@[simp] theorem State.modPart_core (s : State) (p' : Nat) (f' : Partition → Partition) (n : Nat) : (s.modPart p' f').core n = s.core n := rfl
@[simp] theorem State.setStream_core (s : State) (i' : Nat) (x' : Stream) (n : Nat) : (s.setStream i' x').core n = s.core n := rfl
@[simp] theorem State.modStream_core (s : State) (i' : Nat) (f' : Stream → Stream) (n : Nat) : (s.modStream i' f').core n = s.core n := rfl
@[simp] theorem State.modHdr_core (s : State) (b' : Block) (f' : Header → Header) (n : Nat) : (s.modHdr b' f').core n = s.core n := rfl
@[simp] theorem State.modPort_core (s : State) (p' : Nat) (f' : PortSt → PortSt) (n : Nat) : (s.modPort p' f').core n = s.core n := rfl
@[simp] theorem State.modSlice_core (s : State) (k' : Nat) (f' : Slice → Slice) (n : Nat) : (s.modSlice k' f').core n = s.core n := rfl
@[simp] theorem State.modDmc_core (s : State) (c' : Nat) (f' : Dmc → Dmc) (n : Nat) : (s.modDmc c' f').core n = s.core n := rfl
@[simp] theorem State.modQuad_core (s : State) (q' : Nat) (f' : Quad → Quad) (n : Nat) : (s.modQuad q' f').core n = s.core n := rfl
@[simp] theorem State.modTlk_core (s : State) (t' : Nat) (f' : Tlk → Tlk) (n : Nat) : (s.modTlk t' f').core n = s.core n := rfl
@[simp] theorem State.modMon_core (s : State) (m' : Nat) (f' : Mon → Mon) (n : Nat) : (s.modMon m' f').core n = s.core n := rfl
@[simp] theorem State.modQmg_core (s : State) (f' : Qmg → Qmg) (n : Nat) : (s.modQmg f').core n = s.core n := rfl
@[simp] theorem State.setQueue_core (s : State) (q' : Nat) (x' : Queue) (n : Nat) : (s.setQueue q' x').core n = s.core n := rfl
@[simp] theorem State.modQueue_core (s : State) (q' : Nat) (f' : Queue → Queue) (n : Nat) : (s.modQueue q' f').core n = s.core n := rfl
@[simp] theorem State.modVote_core (s : State) (v' : Nat) (f' : VoteUnit → VoteUnit) (n : Nat) : (s.modVote v' f').core n = s.core n := rfl
@[simp] theorem State.modSafe_core (s : State) (f' : Safe → Safe) (n : Nat) : (s.modSafe f').core n = s.core n := rfl
@[simp] theorem State.modCtl_core (s : State) (f' : Ctl → Ctl) (n : Nat) : (s.modCtl f').core n = s.core n := rfl
@[simp] theorem State.modDbg_core (s : State) (f' : Dbg → Dbg) (n : Nat) : (s.modDbg f').core n = s.core n := rfl
@[simp] theorem State.modTal_core (s : State) (f' : Tal → Tal) (n : Nat) : (s.modTal f').core n = s.core n := rfl
@[simp] theorem State.modPpe_core (s : State) (f' : Ppe → Ppe) (n : Nat) : (s.modPpe f').core n = s.core n := rfl
@[simp] theorem State.modPwr_core (s : State) (f' : Pwr → Pwr) (n : Nat) : (s.modPwr f').core n = s.core n := rfl
@[simp] theorem State.modBoot_core (s : State) (f' : Boot → Boot) (n : Nat) : (s.modBoot f').core n = s.core n := rfl
@[simp] theorem State.modMesh_core (s : State) (f' : Mesh → Mesh) (n : Nat) : (s.modMesh f').core n = s.core n := rfl
@[simp] theorem State.emit_core (s : State) (o' : Out) (n : Nat) : (s.emit o').core n = s.core n := rfl

@[simp] theorem State.setCore_ctx (s : State) (n' : Nat) (c' : CoreSt) (n : Nat) : (s.setCore n' c').ctx n = s.ctx n := rfl
@[simp] theorem State.modCore_ctx (s : State) (n' : Nat) (f' : CoreSt → CoreSt) (n : Nat) : (s.modCore n' f').ctx n = s.ctx n := rfl
@[simp] theorem State.modPart_ctx (s : State) (p' : Nat) (f' : Partition → Partition) (n : Nat) : (s.modPart p' f').ctx n = s.ctx n := rfl
@[simp] theorem State.setStream_ctx (s : State) (i' : Nat) (x' : Stream) (n : Nat) : (s.setStream i' x').ctx n = s.ctx n := rfl
@[simp] theorem State.modStream_ctx (s : State) (i' : Nat) (f' : Stream → Stream) (n : Nat) : (s.modStream i' f').ctx n = s.ctx n := rfl
@[simp] theorem State.modHdr_ctx (s : State) (b' : Block) (f' : Header → Header) (n : Nat) : (s.modHdr b' f').ctx n = s.ctx n := rfl
@[simp] theorem State.modPort_ctx (s : State) (p' : Nat) (f' : PortSt → PortSt) (n : Nat) : (s.modPort p' f').ctx n = s.ctx n := rfl
@[simp] theorem State.modSlice_ctx (s : State) (k' : Nat) (f' : Slice → Slice) (n : Nat) : (s.modSlice k' f').ctx n = s.ctx n := rfl
@[simp] theorem State.modDmc_ctx (s : State) (c' : Nat) (f' : Dmc → Dmc) (n : Nat) : (s.modDmc c' f').ctx n = s.ctx n := rfl
@[simp] theorem State.modQuad_ctx (s : State) (q' : Nat) (f' : Quad → Quad) (n : Nat) : (s.modQuad q' f').ctx n = s.ctx n := rfl
@[simp] theorem State.modTlk_ctx (s : State) (t' : Nat) (f' : Tlk → Tlk) (n : Nat) : (s.modTlk t' f').ctx n = s.ctx n := rfl
@[simp] theorem State.modMon_ctx (s : State) (m' : Nat) (f' : Mon → Mon) (n : Nat) : (s.modMon m' f').ctx n = s.ctx n := rfl
@[simp] theorem State.modQmg_ctx (s : State) (f' : Qmg → Qmg) (n : Nat) : (s.modQmg f').ctx n = s.ctx n := rfl
@[simp] theorem State.setQueue_ctx (s : State) (q' : Nat) (x' : Queue) (n : Nat) : (s.setQueue q' x').ctx n = s.ctx n := rfl
@[simp] theorem State.modQueue_ctx (s : State) (q' : Nat) (f' : Queue → Queue) (n : Nat) : (s.modQueue q' f').ctx n = s.ctx n := rfl
@[simp] theorem State.modVote_ctx (s : State) (v' : Nat) (f' : VoteUnit → VoteUnit) (n : Nat) : (s.modVote v' f').ctx n = s.ctx n := rfl
@[simp] theorem State.modSafe_ctx (s : State) (f' : Safe → Safe) (n : Nat) : (s.modSafe f').ctx n = s.ctx n := rfl
@[simp] theorem State.modCtl_ctx (s : State) (f' : Ctl → Ctl) (n : Nat) : (s.modCtl f').ctx n = s.ctx n := rfl
@[simp] theorem State.modDbg_ctx (s : State) (f' : Dbg → Dbg) (n : Nat) : (s.modDbg f').ctx n = s.ctx n := rfl
@[simp] theorem State.modTal_ctx (s : State) (f' : Tal → Tal) (n : Nat) : (s.modTal f').ctx n = s.ctx n := rfl
@[simp] theorem State.modPpe_ctx (s : State) (f' : Ppe → Ppe) (n : Nat) : (s.modPpe f').ctx n = s.ctx n := rfl
@[simp] theorem State.modPwr_ctx (s : State) (f' : Pwr → Pwr) (n : Nat) : (s.modPwr f').ctx n = s.ctx n := rfl
@[simp] theorem State.modBoot_ctx (s : State) (f' : Boot → Boot) (n : Nat) : (s.modBoot f').ctx n = s.ctx n := rfl
@[simp] theorem State.modMesh_ctx (s : State) (f' : Mesh → Mesh) (n : Nat) : (s.modMesh f').ctx n = s.ctx n := rfl
@[simp] theorem State.emit_ctx (s : State) (o' : Out) (n : Nat) : (s.emit o').ctx n = s.ctx n := rfl

@[simp] theorem State.setCore_port (s : State) (n' : Nat) (c' : CoreSt) (n : Nat) : (s.setCore n' c').port n = s.port n := rfl
@[simp] theorem State.modCore_port (s : State) (n' : Nat) (f' : CoreSt → CoreSt) (n : Nat) : (s.modCore n' f').port n = s.port n := rfl
@[simp] theorem State.setCtx_port (s : State) (c' : Nat) (x' : Ctx) (n : Nat) : (s.setCtx c' x').port n = s.port n := rfl
@[simp] theorem State.modCtx_port (s : State) (c' : Nat) (f' : Ctx → Ctx) (n : Nat) : (s.modCtx c' f').port n = s.port n := rfl
@[simp] theorem State.modPart_port (s : State) (p' : Nat) (f' : Partition → Partition) (n : Nat) : (s.modPart p' f').port n = s.port n := rfl
@[simp] theorem State.setStream_port (s : State) (i' : Nat) (x' : Stream) (n : Nat) : (s.setStream i' x').port n = s.port n := rfl
@[simp] theorem State.modStream_port (s : State) (i' : Nat) (f' : Stream → Stream) (n : Nat) : (s.modStream i' f').port n = s.port n := rfl
@[simp] theorem State.modHdr_port (s : State) (b' : Block) (f' : Header → Header) (n : Nat) : (s.modHdr b' f').port n = s.port n := rfl
@[simp] theorem State.modSlice_port (s : State) (k' : Nat) (f' : Slice → Slice) (n : Nat) : (s.modSlice k' f').port n = s.port n := rfl
@[simp] theorem State.modDmc_port (s : State) (c' : Nat) (f' : Dmc → Dmc) (n : Nat) : (s.modDmc c' f').port n = s.port n := rfl
@[simp] theorem State.modQuad_port (s : State) (q' : Nat) (f' : Quad → Quad) (n : Nat) : (s.modQuad q' f').port n = s.port n := rfl
@[simp] theorem State.modTlk_port (s : State) (t' : Nat) (f' : Tlk → Tlk) (n : Nat) : (s.modTlk t' f').port n = s.port n := rfl
@[simp] theorem State.modMon_port (s : State) (m' : Nat) (f' : Mon → Mon) (n : Nat) : (s.modMon m' f').port n = s.port n := rfl
@[simp] theorem State.modQmg_port (s : State) (f' : Qmg → Qmg) (n : Nat) : (s.modQmg f').port n = s.port n := rfl
@[simp] theorem State.setQueue_port (s : State) (q' : Nat) (x' : Queue) (n : Nat) : (s.setQueue q' x').port n = s.port n := rfl
@[simp] theorem State.modQueue_port (s : State) (q' : Nat) (f' : Queue → Queue) (n : Nat) : (s.modQueue q' f').port n = s.port n := rfl
@[simp] theorem State.modVote_port (s : State) (v' : Nat) (f' : VoteUnit → VoteUnit) (n : Nat) : (s.modVote v' f').port n = s.port n := rfl
@[simp] theorem State.modSafe_port (s : State) (f' : Safe → Safe) (n : Nat) : (s.modSafe f').port n = s.port n := rfl
@[simp] theorem State.modCtl_port (s : State) (f' : Ctl → Ctl) (n : Nat) : (s.modCtl f').port n = s.port n := rfl
@[simp] theorem State.modDbg_port (s : State) (f' : Dbg → Dbg) (n : Nat) : (s.modDbg f').port n = s.port n := rfl
@[simp] theorem State.modTal_port (s : State) (f' : Tal → Tal) (n : Nat) : (s.modTal f').port n = s.port n := rfl
@[simp] theorem State.modPpe_port (s : State) (f' : Ppe → Ppe) (n : Nat) : (s.modPpe f').port n = s.port n := rfl
@[simp] theorem State.modPwr_port (s : State) (f' : Pwr → Pwr) (n : Nat) : (s.modPwr f').port n = s.port n := rfl
@[simp] theorem State.modBoot_port (s : State) (f' : Boot → Boot) (n : Nat) : (s.modBoot f').port n = s.port n := rfl
@[simp] theorem State.modMesh_port (s : State) (f' : Mesh → Mesh) (n : Nat) : (s.modMesh f').port n = s.port n := rfl
@[simp] theorem State.emit_port (s : State) (o' : Out) (n : Nat) : (s.emit o').port n = s.port n := rfl

@[simp] theorem State.setCore_slice (s : State) (n' : Nat) (c' : CoreSt) (n : Nat) : (s.setCore n' c').slice n = s.slice n := rfl
@[simp] theorem State.modCore_slice (s : State) (n' : Nat) (f' : CoreSt → CoreSt) (n : Nat) : (s.modCore n' f').slice n = s.slice n := rfl
@[simp] theorem State.setCtx_slice (s : State) (c' : Nat) (x' : Ctx) (n : Nat) : (s.setCtx c' x').slice n = s.slice n := rfl
@[simp] theorem State.modCtx_slice (s : State) (c' : Nat) (f' : Ctx → Ctx) (n : Nat) : (s.modCtx c' f').slice n = s.slice n := rfl
@[simp] theorem State.modPart_slice (s : State) (p' : Nat) (f' : Partition → Partition) (n : Nat) : (s.modPart p' f').slice n = s.slice n := rfl
@[simp] theorem State.setStream_slice (s : State) (i' : Nat) (x' : Stream) (n : Nat) : (s.setStream i' x').slice n = s.slice n := rfl
@[simp] theorem State.modStream_slice (s : State) (i' : Nat) (f' : Stream → Stream) (n : Nat) : (s.modStream i' f').slice n = s.slice n := rfl
@[simp] theorem State.modHdr_slice (s : State) (b' : Block) (f' : Header → Header) (n : Nat) : (s.modHdr b' f').slice n = s.slice n := rfl
@[simp] theorem State.modPort_slice (s : State) (p' : Nat) (f' : PortSt → PortSt) (n : Nat) : (s.modPort p' f').slice n = s.slice n := rfl
@[simp] theorem State.modDmc_slice (s : State) (c' : Nat) (f' : Dmc → Dmc) (n : Nat) : (s.modDmc c' f').slice n = s.slice n := rfl
@[simp] theorem State.modQuad_slice (s : State) (q' : Nat) (f' : Quad → Quad) (n : Nat) : (s.modQuad q' f').slice n = s.slice n := rfl
@[simp] theorem State.modTlk_slice (s : State) (t' : Nat) (f' : Tlk → Tlk) (n : Nat) : (s.modTlk t' f').slice n = s.slice n := rfl
@[simp] theorem State.modMon_slice (s : State) (m' : Nat) (f' : Mon → Mon) (n : Nat) : (s.modMon m' f').slice n = s.slice n := rfl
@[simp] theorem State.modQmg_slice (s : State) (f' : Qmg → Qmg) (n : Nat) : (s.modQmg f').slice n = s.slice n := rfl
@[simp] theorem State.setQueue_slice (s : State) (q' : Nat) (x' : Queue) (n : Nat) : (s.setQueue q' x').slice n = s.slice n := rfl
@[simp] theorem State.modQueue_slice (s : State) (q' : Nat) (f' : Queue → Queue) (n : Nat) : (s.modQueue q' f').slice n = s.slice n := rfl
@[simp] theorem State.modVote_slice (s : State) (v' : Nat) (f' : VoteUnit → VoteUnit) (n : Nat) : (s.modVote v' f').slice n = s.slice n := rfl
@[simp] theorem State.modSafe_slice (s : State) (f' : Safe → Safe) (n : Nat) : (s.modSafe f').slice n = s.slice n := rfl
@[simp] theorem State.modCtl_slice (s : State) (f' : Ctl → Ctl) (n : Nat) : (s.modCtl f').slice n = s.slice n := rfl
@[simp] theorem State.modDbg_slice (s : State) (f' : Dbg → Dbg) (n : Nat) : (s.modDbg f').slice n = s.slice n := rfl
@[simp] theorem State.modTal_slice (s : State) (f' : Tal → Tal) (n : Nat) : (s.modTal f').slice n = s.slice n := rfl
@[simp] theorem State.modPpe_slice (s : State) (f' : Ppe → Ppe) (n : Nat) : (s.modPpe f').slice n = s.slice n := rfl
@[simp] theorem State.modPwr_slice (s : State) (f' : Pwr → Pwr) (n : Nat) : (s.modPwr f').slice n = s.slice n := rfl
@[simp] theorem State.modBoot_slice (s : State) (f' : Boot → Boot) (n : Nat) : (s.modBoot f').slice n = s.slice n := rfl
@[simp] theorem State.modMesh_slice (s : State) (f' : Mesh → Mesh) (n : Nat) : (s.modMesh f').slice n = s.slice n := rfl
@[simp] theorem State.emit_slice (s : State) (o' : Out) (n : Nat) : (s.emit o').slice n = s.slice n := rfl

@[simp] theorem State.setCore_dmc (s : State) (n' : Nat) (c' : CoreSt) (n : Nat) : (s.setCore n' c').dmc n = s.dmc n := rfl
@[simp] theorem State.modCore_dmc (s : State) (n' : Nat) (f' : CoreSt → CoreSt) (n : Nat) : (s.modCore n' f').dmc n = s.dmc n := rfl
@[simp] theorem State.setCtx_dmc (s : State) (c' : Nat) (x' : Ctx) (n : Nat) : (s.setCtx c' x').dmc n = s.dmc n := rfl
@[simp] theorem State.modCtx_dmc (s : State) (c' : Nat) (f' : Ctx → Ctx) (n : Nat) : (s.modCtx c' f').dmc n = s.dmc n := rfl
@[simp] theorem State.modPart_dmc (s : State) (p' : Nat) (f' : Partition → Partition) (n : Nat) : (s.modPart p' f').dmc n = s.dmc n := rfl
@[simp] theorem State.setStream_dmc (s : State) (i' : Nat) (x' : Stream) (n : Nat) : (s.setStream i' x').dmc n = s.dmc n := rfl
@[simp] theorem State.modStream_dmc (s : State) (i' : Nat) (f' : Stream → Stream) (n : Nat) : (s.modStream i' f').dmc n = s.dmc n := rfl
@[simp] theorem State.modHdr_dmc (s : State) (b' : Block) (f' : Header → Header) (n : Nat) : (s.modHdr b' f').dmc n = s.dmc n := rfl
@[simp] theorem State.modPort_dmc (s : State) (p' : Nat) (f' : PortSt → PortSt) (n : Nat) : (s.modPort p' f').dmc n = s.dmc n := rfl
@[simp] theorem State.modSlice_dmc (s : State) (k' : Nat) (f' : Slice → Slice) (n : Nat) : (s.modSlice k' f').dmc n = s.dmc n := rfl
@[simp] theorem State.modQuad_dmc (s : State) (q' : Nat) (f' : Quad → Quad) (n : Nat) : (s.modQuad q' f').dmc n = s.dmc n := rfl
@[simp] theorem State.modTlk_dmc (s : State) (t' : Nat) (f' : Tlk → Tlk) (n : Nat) : (s.modTlk t' f').dmc n = s.dmc n := rfl
@[simp] theorem State.modMon_dmc (s : State) (m' : Nat) (f' : Mon → Mon) (n : Nat) : (s.modMon m' f').dmc n = s.dmc n := rfl
@[simp] theorem State.modQmg_dmc (s : State) (f' : Qmg → Qmg) (n : Nat) : (s.modQmg f').dmc n = s.dmc n := rfl
@[simp] theorem State.setQueue_dmc (s : State) (q' : Nat) (x' : Queue) (n : Nat) : (s.setQueue q' x').dmc n = s.dmc n := rfl
@[simp] theorem State.modQueue_dmc (s : State) (q' : Nat) (f' : Queue → Queue) (n : Nat) : (s.modQueue q' f').dmc n = s.dmc n := rfl
@[simp] theorem State.modVote_dmc (s : State) (v' : Nat) (f' : VoteUnit → VoteUnit) (n : Nat) : (s.modVote v' f').dmc n = s.dmc n := rfl
@[simp] theorem State.modSafe_dmc (s : State) (f' : Safe → Safe) (n : Nat) : (s.modSafe f').dmc n = s.dmc n := rfl
@[simp] theorem State.modCtl_dmc (s : State) (f' : Ctl → Ctl) (n : Nat) : (s.modCtl f').dmc n = s.dmc n := rfl
@[simp] theorem State.modDbg_dmc (s : State) (f' : Dbg → Dbg) (n : Nat) : (s.modDbg f').dmc n = s.dmc n := rfl
@[simp] theorem State.modTal_dmc (s : State) (f' : Tal → Tal) (n : Nat) : (s.modTal f').dmc n = s.dmc n := rfl
@[simp] theorem State.modPpe_dmc (s : State) (f' : Ppe → Ppe) (n : Nat) : (s.modPpe f').dmc n = s.dmc n := rfl
@[simp] theorem State.modPwr_dmc (s : State) (f' : Pwr → Pwr) (n : Nat) : (s.modPwr f').dmc n = s.dmc n := rfl
@[simp] theorem State.modBoot_dmc (s : State) (f' : Boot → Boot) (n : Nat) : (s.modBoot f').dmc n = s.dmc n := rfl
@[simp] theorem State.modMesh_dmc (s : State) (f' : Mesh → Mesh) (n : Nat) : (s.modMesh f').dmc n = s.dmc n := rfl
@[simp] theorem State.emit_dmc (s : State) (o' : Out) (n : Nat) : (s.emit o').dmc n = s.dmc n := rfl

@[simp] theorem State.setCore_tlk (s : State) (n' : Nat) (c' : CoreSt) (n : Nat) : (s.setCore n' c').tlk n = s.tlk n := rfl
@[simp] theorem State.modCore_tlk (s : State) (n' : Nat) (f' : CoreSt → CoreSt) (n : Nat) : (s.modCore n' f').tlk n = s.tlk n := rfl
@[simp] theorem State.setCtx_tlk (s : State) (c' : Nat) (x' : Ctx) (n : Nat) : (s.setCtx c' x').tlk n = s.tlk n := rfl
@[simp] theorem State.modCtx_tlk (s : State) (c' : Nat) (f' : Ctx → Ctx) (n : Nat) : (s.modCtx c' f').tlk n = s.tlk n := rfl
@[simp] theorem State.modPart_tlk (s : State) (p' : Nat) (f' : Partition → Partition) (n : Nat) : (s.modPart p' f').tlk n = s.tlk n := rfl
@[simp] theorem State.setStream_tlk (s : State) (i' : Nat) (x' : Stream) (n : Nat) : (s.setStream i' x').tlk n = s.tlk n := rfl
@[simp] theorem State.modStream_tlk (s : State) (i' : Nat) (f' : Stream → Stream) (n : Nat) : (s.modStream i' f').tlk n = s.tlk n := rfl
@[simp] theorem State.modHdr_tlk (s : State) (b' : Block) (f' : Header → Header) (n : Nat) : (s.modHdr b' f').tlk n = s.tlk n := rfl
@[simp] theorem State.modPort_tlk (s : State) (p' : Nat) (f' : PortSt → PortSt) (n : Nat) : (s.modPort p' f').tlk n = s.tlk n := rfl
@[simp] theorem State.modSlice_tlk (s : State) (k' : Nat) (f' : Slice → Slice) (n : Nat) : (s.modSlice k' f').tlk n = s.tlk n := rfl
@[simp] theorem State.modDmc_tlk (s : State) (c' : Nat) (f' : Dmc → Dmc) (n : Nat) : (s.modDmc c' f').tlk n = s.tlk n := rfl
@[simp] theorem State.modQuad_tlk (s : State) (q' : Nat) (f' : Quad → Quad) (n : Nat) : (s.modQuad q' f').tlk n = s.tlk n := rfl
@[simp] theorem State.modMon_tlk (s : State) (m' : Nat) (f' : Mon → Mon) (n : Nat) : (s.modMon m' f').tlk n = s.tlk n := rfl
@[simp] theorem State.modQmg_tlk (s : State) (f' : Qmg → Qmg) (n : Nat) : (s.modQmg f').tlk n = s.tlk n := rfl
@[simp] theorem State.setQueue_tlk (s : State) (q' : Nat) (x' : Queue) (n : Nat) : (s.setQueue q' x').tlk n = s.tlk n := rfl
@[simp] theorem State.modQueue_tlk (s : State) (q' : Nat) (f' : Queue → Queue) (n : Nat) : (s.modQueue q' f').tlk n = s.tlk n := rfl
@[simp] theorem State.modVote_tlk (s : State) (v' : Nat) (f' : VoteUnit → VoteUnit) (n : Nat) : (s.modVote v' f').tlk n = s.tlk n := rfl
@[simp] theorem State.modSafe_tlk (s : State) (f' : Safe → Safe) (n : Nat) : (s.modSafe f').tlk n = s.tlk n := rfl
@[simp] theorem State.modCtl_tlk (s : State) (f' : Ctl → Ctl) (n : Nat) : (s.modCtl f').tlk n = s.tlk n := rfl
@[simp] theorem State.modDbg_tlk (s : State) (f' : Dbg → Dbg) (n : Nat) : (s.modDbg f').tlk n = s.tlk n := rfl
@[simp] theorem State.modTal_tlk (s : State) (f' : Tal → Tal) (n : Nat) : (s.modTal f').tlk n = s.tlk n := rfl
@[simp] theorem State.modPpe_tlk (s : State) (f' : Ppe → Ppe) (n : Nat) : (s.modPpe f').tlk n = s.tlk n := rfl
@[simp] theorem State.modPwr_tlk (s : State) (f' : Pwr → Pwr) (n : Nat) : (s.modPwr f').tlk n = s.tlk n := rfl
@[simp] theorem State.modBoot_tlk (s : State) (f' : Boot → Boot) (n : Nat) : (s.modBoot f').tlk n = s.tlk n := rfl
@[simp] theorem State.modMesh_tlk (s : State) (f' : Mesh → Mesh) (n : Nat) : (s.modMesh f').tlk n = s.tlk n := rfl
@[simp] theorem State.emit_tlk (s : State) (o' : Out) (n : Nat) : (s.emit o').tlk n = s.tlk n := rfl

@[simp] theorem State.setCore_mon (s : State) (n' : Nat) (c' : CoreSt) (n : Nat) : (s.setCore n' c').mon n = s.mon n := rfl
@[simp] theorem State.modCore_mon (s : State) (n' : Nat) (f' : CoreSt → CoreSt) (n : Nat) : (s.modCore n' f').mon n = s.mon n := rfl
@[simp] theorem State.setCtx_mon (s : State) (c' : Nat) (x' : Ctx) (n : Nat) : (s.setCtx c' x').mon n = s.mon n := rfl
@[simp] theorem State.modCtx_mon (s : State) (c' : Nat) (f' : Ctx → Ctx) (n : Nat) : (s.modCtx c' f').mon n = s.mon n := rfl
@[simp] theorem State.modPart_mon (s : State) (p' : Nat) (f' : Partition → Partition) (n : Nat) : (s.modPart p' f').mon n = s.mon n := rfl
@[simp] theorem State.setStream_mon (s : State) (i' : Nat) (x' : Stream) (n : Nat) : (s.setStream i' x').mon n = s.mon n := rfl
@[simp] theorem State.modStream_mon (s : State) (i' : Nat) (f' : Stream → Stream) (n : Nat) : (s.modStream i' f').mon n = s.mon n := rfl
@[simp] theorem State.modHdr_mon (s : State) (b' : Block) (f' : Header → Header) (n : Nat) : (s.modHdr b' f').mon n = s.mon n := rfl
@[simp] theorem State.modPort_mon (s : State) (p' : Nat) (f' : PortSt → PortSt) (n : Nat) : (s.modPort p' f').mon n = s.mon n := rfl
@[simp] theorem State.modSlice_mon (s : State) (k' : Nat) (f' : Slice → Slice) (n : Nat) : (s.modSlice k' f').mon n = s.mon n := rfl
@[simp] theorem State.modDmc_mon (s : State) (c' : Nat) (f' : Dmc → Dmc) (n : Nat) : (s.modDmc c' f').mon n = s.mon n := rfl
@[simp] theorem State.modQuad_mon (s : State) (q' : Nat) (f' : Quad → Quad) (n : Nat) : (s.modQuad q' f').mon n = s.mon n := rfl
@[simp] theorem State.modTlk_mon (s : State) (t' : Nat) (f' : Tlk → Tlk) (n : Nat) : (s.modTlk t' f').mon n = s.mon n := rfl
@[simp] theorem State.modQmg_mon (s : State) (f' : Qmg → Qmg) (n : Nat) : (s.modQmg f').mon n = s.mon n := rfl
@[simp] theorem State.setQueue_mon (s : State) (q' : Nat) (x' : Queue) (n : Nat) : (s.setQueue q' x').mon n = s.mon n := rfl
@[simp] theorem State.modQueue_mon (s : State) (q' : Nat) (f' : Queue → Queue) (n : Nat) : (s.modQueue q' f').mon n = s.mon n := rfl
@[simp] theorem State.modVote_mon (s : State) (v' : Nat) (f' : VoteUnit → VoteUnit) (n : Nat) : (s.modVote v' f').mon n = s.mon n := rfl
@[simp] theorem State.modSafe_mon (s : State) (f' : Safe → Safe) (n : Nat) : (s.modSafe f').mon n = s.mon n := rfl
@[simp] theorem State.modCtl_mon (s : State) (f' : Ctl → Ctl) (n : Nat) : (s.modCtl f').mon n = s.mon n := rfl
@[simp] theorem State.modDbg_mon (s : State) (f' : Dbg → Dbg) (n : Nat) : (s.modDbg f').mon n = s.mon n := rfl
@[simp] theorem State.modTal_mon (s : State) (f' : Tal → Tal) (n : Nat) : (s.modTal f').mon n = s.mon n := rfl
@[simp] theorem State.modPpe_mon (s : State) (f' : Ppe → Ppe) (n : Nat) : (s.modPpe f').mon n = s.mon n := rfl
@[simp] theorem State.modPwr_mon (s : State) (f' : Pwr → Pwr) (n : Nat) : (s.modPwr f').mon n = s.mon n := rfl
@[simp] theorem State.modBoot_mon (s : State) (f' : Boot → Boot) (n : Nat) : (s.modBoot f').mon n = s.mon n := rfl
@[simp] theorem State.modMesh_mon (s : State) (f' : Mesh → Mesh) (n : Nat) : (s.modMesh f').mon n = s.mon n := rfl
@[simp] theorem State.emit_mon (s : State) (o' : Out) (n : Nat) : (s.emit o').mon n = s.mon n := rfl

@[simp] theorem State.setCore_queue (s : State) (n' : Nat) (c' : CoreSt) (n : Nat) : (s.setCore n' c').queue n = s.queue n := rfl
@[simp] theorem State.modCore_queue (s : State) (n' : Nat) (f' : CoreSt → CoreSt) (n : Nat) : (s.modCore n' f').queue n = s.queue n := rfl
@[simp] theorem State.setCtx_queue (s : State) (c' : Nat) (x' : Ctx) (n : Nat) : (s.setCtx c' x').queue n = s.queue n := rfl
@[simp] theorem State.modCtx_queue (s : State) (c' : Nat) (f' : Ctx → Ctx) (n : Nat) : (s.modCtx c' f').queue n = s.queue n := rfl
@[simp] theorem State.modPart_queue (s : State) (p' : Nat) (f' : Partition → Partition) (n : Nat) : (s.modPart p' f').queue n = s.queue n := rfl
@[simp] theorem State.setStream_queue (s : State) (i' : Nat) (x' : Stream) (n : Nat) : (s.setStream i' x').queue n = s.queue n := rfl
@[simp] theorem State.modStream_queue (s : State) (i' : Nat) (f' : Stream → Stream) (n : Nat) : (s.modStream i' f').queue n = s.queue n := rfl
@[simp] theorem State.modHdr_queue (s : State) (b' : Block) (f' : Header → Header) (n : Nat) : (s.modHdr b' f').queue n = s.queue n := rfl
@[simp] theorem State.modPort_queue (s : State) (p' : Nat) (f' : PortSt → PortSt) (n : Nat) : (s.modPort p' f').queue n = s.queue n := rfl
@[simp] theorem State.modSlice_queue (s : State) (k' : Nat) (f' : Slice → Slice) (n : Nat) : (s.modSlice k' f').queue n = s.queue n := rfl
@[simp] theorem State.modDmc_queue (s : State) (c' : Nat) (f' : Dmc → Dmc) (n : Nat) : (s.modDmc c' f').queue n = s.queue n := rfl
@[simp] theorem State.modQuad_queue (s : State) (q' : Nat) (f' : Quad → Quad) (n : Nat) : (s.modQuad q' f').queue n = s.queue n := rfl
@[simp] theorem State.modTlk_queue (s : State) (t' : Nat) (f' : Tlk → Tlk) (n : Nat) : (s.modTlk t' f').queue n = s.queue n := rfl
@[simp] theorem State.modMon_queue (s : State) (m' : Nat) (f' : Mon → Mon) (n : Nat) : (s.modMon m' f').queue n = s.queue n := rfl
@[simp] theorem State.modSafe_queue (s : State) (f' : Safe → Safe) (n : Nat) : (s.modSafe f').queue n = s.queue n := rfl
@[simp] theorem State.modCtl_queue (s : State) (f' : Ctl → Ctl) (n : Nat) : (s.modCtl f').queue n = s.queue n := rfl
@[simp] theorem State.modDbg_queue (s : State) (f' : Dbg → Dbg) (n : Nat) : (s.modDbg f').queue n = s.queue n := rfl
@[simp] theorem State.modTal_queue (s : State) (f' : Tal → Tal) (n : Nat) : (s.modTal f').queue n = s.queue n := rfl
@[simp] theorem State.modPpe_queue (s : State) (f' : Ppe → Ppe) (n : Nat) : (s.modPpe f').queue n = s.queue n := rfl
@[simp] theorem State.modPwr_queue (s : State) (f' : Pwr → Pwr) (n : Nat) : (s.modPwr f').queue n = s.queue n := rfl
@[simp] theorem State.modBoot_queue (s : State) (f' : Boot → Boot) (n : Nat) : (s.modBoot f').queue n = s.queue n := rfl
@[simp] theorem State.modMesh_queue (s : State) (f' : Mesh → Mesh) (n : Nat) : (s.modMesh f').queue n = s.queue n := rfl
@[simp] theorem State.emit_queue (s : State) (o' : Out) (n : Nat) : (s.emit o').queue n = s.queue n := rfl

@[simp] theorem State.setCore_vote (s : State) (n' : Nat) (c' : CoreSt) (n : Nat) : (s.setCore n' c').vote n = s.vote n := rfl
@[simp] theorem State.modCore_vote (s : State) (n' : Nat) (f' : CoreSt → CoreSt) (n : Nat) : (s.modCore n' f').vote n = s.vote n := rfl
@[simp] theorem State.setCtx_vote (s : State) (c' : Nat) (x' : Ctx) (n : Nat) : (s.setCtx c' x').vote n = s.vote n := rfl
@[simp] theorem State.modCtx_vote (s : State) (c' : Nat) (f' : Ctx → Ctx) (n : Nat) : (s.modCtx c' f').vote n = s.vote n := rfl
@[simp] theorem State.modPart_vote (s : State) (p' : Nat) (f' : Partition → Partition) (n : Nat) : (s.modPart p' f').vote n = s.vote n := rfl
@[simp] theorem State.setStream_vote (s : State) (i' : Nat) (x' : Stream) (n : Nat) : (s.setStream i' x').vote n = s.vote n := rfl
@[simp] theorem State.modStream_vote (s : State) (i' : Nat) (f' : Stream → Stream) (n : Nat) : (s.modStream i' f').vote n = s.vote n := rfl
@[simp] theorem State.modHdr_vote (s : State) (b' : Block) (f' : Header → Header) (n : Nat) : (s.modHdr b' f').vote n = s.vote n := rfl
@[simp] theorem State.modPort_vote (s : State) (p' : Nat) (f' : PortSt → PortSt) (n : Nat) : (s.modPort p' f').vote n = s.vote n := rfl
@[simp] theorem State.modSlice_vote (s : State) (k' : Nat) (f' : Slice → Slice) (n : Nat) : (s.modSlice k' f').vote n = s.vote n := rfl
@[simp] theorem State.modDmc_vote (s : State) (c' : Nat) (f' : Dmc → Dmc) (n : Nat) : (s.modDmc c' f').vote n = s.vote n := rfl
@[simp] theorem State.modQuad_vote (s : State) (q' : Nat) (f' : Quad → Quad) (n : Nat) : (s.modQuad q' f').vote n = s.vote n := rfl
@[simp] theorem State.modTlk_vote (s : State) (t' : Nat) (f' : Tlk → Tlk) (n : Nat) : (s.modTlk t' f').vote n = s.vote n := rfl
@[simp] theorem State.modMon_vote (s : State) (m' : Nat) (f' : Mon → Mon) (n : Nat) : (s.modMon m' f').vote n = s.vote n := rfl
@[simp] theorem State.modSafe_vote (s : State) (f' : Safe → Safe) (n : Nat) : (s.modSafe f').vote n = s.vote n := rfl
@[simp] theorem State.modCtl_vote (s : State) (f' : Ctl → Ctl) (n : Nat) : (s.modCtl f').vote n = s.vote n := rfl
@[simp] theorem State.modDbg_vote (s : State) (f' : Dbg → Dbg) (n : Nat) : (s.modDbg f').vote n = s.vote n := rfl
@[simp] theorem State.modTal_vote (s : State) (f' : Tal → Tal) (n : Nat) : (s.modTal f').vote n = s.vote n := rfl
@[simp] theorem State.modPpe_vote (s : State) (f' : Ppe → Ppe) (n : Nat) : (s.modPpe f').vote n = s.vote n := rfl
@[simp] theorem State.modPwr_vote (s : State) (f' : Pwr → Pwr) (n : Nat) : (s.modPwr f').vote n = s.vote n := rfl
@[simp] theorem State.modBoot_vote (s : State) (f' : Boot → Boot) (n : Nat) : (s.modBoot f').vote n = s.vote n := rfl
@[simp] theorem State.modMesh_vote (s : State) (f' : Mesh → Mesh) (n : Nat) : (s.modMesh f').vote n = s.vote n := rfl
@[simp] theorem State.emit_vote (s : State) (o' : Out) (n : Nat) : (s.emit o').vote n = s.vote n := rfl

@[simp] theorem State.setCore_quad (s : State) (n' : Nat) (c' : CoreSt) (n : Nat) : (s.setCore n' c').quad n = s.quad n := rfl
@[simp] theorem State.modCore_quad (s : State) (n' : Nat) (f' : CoreSt → CoreSt) (n : Nat) : (s.modCore n' f').quad n = s.quad n := rfl
@[simp] theorem State.setCtx_quad (s : State) (c' : Nat) (x' : Ctx) (n : Nat) : (s.setCtx c' x').quad n = s.quad n := rfl
@[simp] theorem State.modCtx_quad (s : State) (c' : Nat) (f' : Ctx → Ctx) (n : Nat) : (s.modCtx c' f').quad n = s.quad n := rfl
@[simp] theorem State.modPart_quad (s : State) (p' : Nat) (f' : Partition → Partition) (n : Nat) : (s.modPart p' f').quad n = s.quad n := rfl
@[simp] theorem State.setStream_quad (s : State) (i' : Nat) (x' : Stream) (n : Nat) : (s.setStream i' x').quad n = s.quad n := rfl
@[simp] theorem State.modStream_quad (s : State) (i' : Nat) (f' : Stream → Stream) (n : Nat) : (s.modStream i' f').quad n = s.quad n := rfl
@[simp] theorem State.modHdr_quad (s : State) (b' : Block) (f' : Header → Header) (n : Nat) : (s.modHdr b' f').quad n = s.quad n := rfl
@[simp] theorem State.modPort_quad (s : State) (p' : Nat) (f' : PortSt → PortSt) (n : Nat) : (s.modPort p' f').quad n = s.quad n := rfl
@[simp] theorem State.modSlice_quad (s : State) (k' : Nat) (f' : Slice → Slice) (n : Nat) : (s.modSlice k' f').quad n = s.quad n := rfl
@[simp] theorem State.modDmc_quad (s : State) (c' : Nat) (f' : Dmc → Dmc) (n : Nat) : (s.modDmc c' f').quad n = s.quad n := rfl
@[simp] theorem State.modTlk_quad (s : State) (t' : Nat) (f' : Tlk → Tlk) (n : Nat) : (s.modTlk t' f').quad n = s.quad n := rfl
@[simp] theorem State.modMon_quad (s : State) (m' : Nat) (f' : Mon → Mon) (n : Nat) : (s.modMon m' f').quad n = s.quad n := rfl
@[simp] theorem State.modQmg_quad (s : State) (f' : Qmg → Qmg) (n : Nat) : (s.modQmg f').quad n = s.quad n := rfl
@[simp] theorem State.setQueue_quad (s : State) (q' : Nat) (x' : Queue) (n : Nat) : (s.setQueue q' x').quad n = s.quad n := rfl
@[simp] theorem State.modQueue_quad (s : State) (q' : Nat) (f' : Queue → Queue) (n : Nat) : (s.modQueue q' f').quad n = s.quad n := rfl
@[simp] theorem State.modVote_quad (s : State) (v' : Nat) (f' : VoteUnit → VoteUnit) (n : Nat) : (s.modVote v' f').quad n = s.quad n := rfl
@[simp] theorem State.modSafe_quad (s : State) (f' : Safe → Safe) (n : Nat) : (s.modSafe f').quad n = s.quad n := rfl
@[simp] theorem State.modCtl_quad (s : State) (f' : Ctl → Ctl) (n : Nat) : (s.modCtl f').quad n = s.quad n := rfl
@[simp] theorem State.modDbg_quad (s : State) (f' : Dbg → Dbg) (n : Nat) : (s.modDbg f').quad n = s.quad n := rfl
@[simp] theorem State.modTal_quad (s : State) (f' : Tal → Tal) (n : Nat) : (s.modTal f').quad n = s.quad n := rfl
@[simp] theorem State.modPpe_quad (s : State) (f' : Ppe → Ppe) (n : Nat) : (s.modPpe f').quad n = s.quad n := rfl
@[simp] theorem State.modBoot_quad (s : State) (f' : Boot → Boot) (n : Nat) : (s.modBoot f').quad n = s.quad n := rfl
@[simp] theorem State.modMesh_quad (s : State) (f' : Mesh → Mesh) (n : Nat) : (s.modMesh f').quad n = s.quad n := rfl
@[simp] theorem State.emit_quad (s : State) (o' : Out) (n : Nat) : (s.emit o').quad n = s.quad n := rfl

@[simp] theorem State.setCore_stream? (s : State) (n' : Nat) (c' : CoreSt) (n : Nat) : (s.setCore n' c').stream? n = s.stream? n := rfl
@[simp] theorem State.modCore_stream? (s : State) (n' : Nat) (f' : CoreSt → CoreSt) (n : Nat) : (s.modCore n' f').stream? n = s.stream? n := rfl
@[simp] theorem State.setCtx_stream? (s : State) (c' : Nat) (x' : Ctx) (n : Nat) : (s.setCtx c' x').stream? n = s.stream? n := rfl
@[simp] theorem State.modCtx_stream? (s : State) (c' : Nat) (f' : Ctx → Ctx) (n : Nat) : (s.modCtx c' f').stream? n = s.stream? n := rfl
@[simp] theorem State.modPart_stream? (s : State) (p' : Nat) (f' : Partition → Partition) (n : Nat) : (s.modPart p' f').stream? n = s.stream? n := rfl
@[simp] theorem State.modHdr_stream? (s : State) (b' : Block) (f' : Header → Header) (n : Nat) : (s.modHdr b' f').stream? n = s.stream? n := rfl
@[simp] theorem State.modPort_stream? (s : State) (p' : Nat) (f' : PortSt → PortSt) (n : Nat) : (s.modPort p' f').stream? n = s.stream? n := rfl
@[simp] theorem State.modSlice_stream? (s : State) (k' : Nat) (f' : Slice → Slice) (n : Nat) : (s.modSlice k' f').stream? n = s.stream? n := rfl
@[simp] theorem State.modDmc_stream? (s : State) (c' : Nat) (f' : Dmc → Dmc) (n : Nat) : (s.modDmc c' f').stream? n = s.stream? n := rfl
@[simp] theorem State.modQuad_stream? (s : State) (q' : Nat) (f' : Quad → Quad) (n : Nat) : (s.modQuad q' f').stream? n = s.stream? n := rfl
@[simp] theorem State.modTlk_stream? (s : State) (t' : Nat) (f' : Tlk → Tlk) (n : Nat) : (s.modTlk t' f').stream? n = s.stream? n := rfl
@[simp] theorem State.modMon_stream? (s : State) (m' : Nat) (f' : Mon → Mon) (n : Nat) : (s.modMon m' f').stream? n = s.stream? n := rfl
@[simp] theorem State.modQmg_stream? (s : State) (f' : Qmg → Qmg) (n : Nat) : (s.modQmg f').stream? n = s.stream? n := rfl
@[simp] theorem State.setQueue_stream? (s : State) (q' : Nat) (x' : Queue) (n : Nat) : (s.setQueue q' x').stream? n = s.stream? n := rfl
@[simp] theorem State.modQueue_stream? (s : State) (q' : Nat) (f' : Queue → Queue) (n : Nat) : (s.modQueue q' f').stream? n = s.stream? n := rfl
@[simp] theorem State.modVote_stream? (s : State) (v' : Nat) (f' : VoteUnit → VoteUnit) (n : Nat) : (s.modVote v' f').stream? n = s.stream? n := rfl
@[simp] theorem State.modSafe_stream? (s : State) (f' : Safe → Safe) (n : Nat) : (s.modSafe f').stream? n = s.stream? n := rfl
@[simp] theorem State.modCtl_stream? (s : State) (f' : Ctl → Ctl) (n : Nat) : (s.modCtl f').stream? n = s.stream? n := rfl
@[simp] theorem State.modDbg_stream? (s : State) (f' : Dbg → Dbg) (n : Nat) : (s.modDbg f').stream? n = s.stream? n := rfl
@[simp] theorem State.modTal_stream? (s : State) (f' : Tal → Tal) (n : Nat) : (s.modTal f').stream? n = s.stream? n := rfl
@[simp] theorem State.modPpe_stream? (s : State) (f' : Ppe → Ppe) (n : Nat) : (s.modPpe f').stream? n = s.stream? n := rfl
@[simp] theorem State.modPwr_stream? (s : State) (f' : Pwr → Pwr) (n : Nat) : (s.modPwr f').stream? n = s.stream? n := rfl
@[simp] theorem State.modBoot_stream? (s : State) (f' : Boot → Boot) (n : Nat) : (s.modBoot f').stream? n = s.stream? n := rfl
@[simp] theorem State.modMesh_stream? (s : State) (f' : Mesh → Mesh) (n : Nat) : (s.modMesh f').stream? n = s.stream? n := rfl
@[simp] theorem State.emit_stream? (s : State) (o' : Out) (n : Nat) : (s.emit o').stream? n = s.stream? n := rfl

@[simp] theorem State.setCore_part? (s : State) (n' : Nat) (c' : CoreSt) (n : Nat) : (s.setCore n' c').part? n = s.part? n := rfl
@[simp] theorem State.modCore_part? (s : State) (n' : Nat) (f' : CoreSt → CoreSt) (n : Nat) : (s.modCore n' f').part? n = s.part? n := rfl
@[simp] theorem State.setCtx_part? (s : State) (c' : Nat) (x' : Ctx) (n : Nat) : (s.setCtx c' x').part? n = s.part? n := rfl
@[simp] theorem State.modCtx_part? (s : State) (c' : Nat) (f' : Ctx → Ctx) (n : Nat) : (s.modCtx c' f').part? n = s.part? n := rfl
@[simp] theorem State.setStream_part? (s : State) (i' : Nat) (x' : Stream) (n : Nat) : (s.setStream i' x').part? n = s.part? n := rfl
@[simp] theorem State.modStream_part? (s : State) (i' : Nat) (f' : Stream → Stream) (n : Nat) : (s.modStream i' f').part? n = s.part? n := rfl
@[simp] theorem State.modHdr_part? (s : State) (b' : Block) (f' : Header → Header) (n : Nat) : (s.modHdr b' f').part? n = s.part? n := rfl
@[simp] theorem State.modPort_part? (s : State) (p' : Nat) (f' : PortSt → PortSt) (n : Nat) : (s.modPort p' f').part? n = s.part? n := rfl
@[simp] theorem State.modSlice_part? (s : State) (k' : Nat) (f' : Slice → Slice) (n : Nat) : (s.modSlice k' f').part? n = s.part? n := rfl
@[simp] theorem State.modDmc_part? (s : State) (c' : Nat) (f' : Dmc → Dmc) (n : Nat) : (s.modDmc c' f').part? n = s.part? n := rfl
@[simp] theorem State.modQuad_part? (s : State) (q' : Nat) (f' : Quad → Quad) (n : Nat) : (s.modQuad q' f').part? n = s.part? n := rfl
@[simp] theorem State.modTlk_part? (s : State) (t' : Nat) (f' : Tlk → Tlk) (n : Nat) : (s.modTlk t' f').part? n = s.part? n := rfl
@[simp] theorem State.modMon_part? (s : State) (m' : Nat) (f' : Mon → Mon) (n : Nat) : (s.modMon m' f').part? n = s.part? n := rfl
@[simp] theorem State.modQmg_part? (s : State) (f' : Qmg → Qmg) (n : Nat) : (s.modQmg f').part? n = s.part? n := rfl
@[simp] theorem State.setQueue_part? (s : State) (q' : Nat) (x' : Queue) (n : Nat) : (s.setQueue q' x').part? n = s.part? n := rfl
@[simp] theorem State.modQueue_part? (s : State) (q' : Nat) (f' : Queue → Queue) (n : Nat) : (s.modQueue q' f').part? n = s.part? n := rfl
@[simp] theorem State.modVote_part? (s : State) (v' : Nat) (f' : VoteUnit → VoteUnit) (n : Nat) : (s.modVote v' f').part? n = s.part? n := rfl
@[simp] theorem State.modSafe_part? (s : State) (f' : Safe → Safe) (n : Nat) : (s.modSafe f').part? n = s.part? n := rfl
@[simp] theorem State.modCtl_part? (s : State) (f' : Ctl → Ctl) (n : Nat) : (s.modCtl f').part? n = s.part? n := rfl
@[simp] theorem State.modDbg_part? (s : State) (f' : Dbg → Dbg) (n : Nat) : (s.modDbg f').part? n = s.part? n := rfl
@[simp] theorem State.modTal_part? (s : State) (f' : Tal → Tal) (n : Nat) : (s.modTal f').part? n = s.part? n := rfl
@[simp] theorem State.modPpe_part? (s : State) (f' : Ppe → Ppe) (n : Nat) : (s.modPpe f').part? n = s.part? n := rfl
@[simp] theorem State.modPwr_part? (s : State) (f' : Pwr → Pwr) (n : Nat) : (s.modPwr f').part? n = s.part? n := rfl
@[simp] theorem State.modBoot_part? (s : State) (f' : Boot → Boot) (n : Nat) : (s.modBoot f').part? n = s.part? n := rfl
@[simp] theorem State.modMesh_part? (s : State) (f' : Mesh → Mesh) (n : Nat) : (s.modMesh f').part? n = s.part? n := rfl
@[simp] theorem State.emit_part? (s : State) (o' : Out) (n : Nat) : (s.emit o').part? n = s.part? n := rfl

@[simp] theorem State.setCore_hdr (s : State) (n' : Nat) (c' : CoreSt) (n : Block) : (s.setCore n' c').hdr n = s.hdr n := rfl
@[simp] theorem State.modCore_hdr (s : State) (n' : Nat) (f' : CoreSt → CoreSt) (n : Block) : (s.modCore n' f').hdr n = s.hdr n := rfl
@[simp] theorem State.setCtx_hdr (s : State) (c' : Nat) (x' : Ctx) (n : Block) : (s.setCtx c' x').hdr n = s.hdr n := rfl
@[simp] theorem State.modCtx_hdr (s : State) (c' : Nat) (f' : Ctx → Ctx) (n : Block) : (s.modCtx c' f').hdr n = s.hdr n := rfl
@[simp] theorem State.modPart_hdr (s : State) (p' : Nat) (f' : Partition → Partition) (n : Block) : (s.modPart p' f').hdr n = s.hdr n := rfl
@[simp] theorem State.setStream_hdr (s : State) (i' : Nat) (x' : Stream) (n : Block) : (s.setStream i' x').hdr n = s.hdr n := rfl
@[simp] theorem State.modStream_hdr (s : State) (i' : Nat) (f' : Stream → Stream) (n : Block) : (s.modStream i' f').hdr n = s.hdr n := rfl
@[simp] theorem State.modPort_hdr (s : State) (p' : Nat) (f' : PortSt → PortSt) (n : Block) : (s.modPort p' f').hdr n = s.hdr n := rfl
@[simp] theorem State.modSlice_hdr (s : State) (k' : Nat) (f' : Slice → Slice) (n : Block) : (s.modSlice k' f').hdr n = s.hdr n := rfl
@[simp] theorem State.modDmc_hdr (s : State) (c' : Nat) (f' : Dmc → Dmc) (n : Block) : (s.modDmc c' f').hdr n = s.hdr n := rfl
@[simp] theorem State.modQuad_hdr (s : State) (q' : Nat) (f' : Quad → Quad) (n : Block) : (s.modQuad q' f').hdr n = s.hdr n := rfl
@[simp] theorem State.modTlk_hdr (s : State) (t' : Nat) (f' : Tlk → Tlk) (n : Block) : (s.modTlk t' f').hdr n = s.hdr n := rfl
@[simp] theorem State.modMon_hdr (s : State) (m' : Nat) (f' : Mon → Mon) (n : Block) : (s.modMon m' f').hdr n = s.hdr n := rfl
@[simp] theorem State.modQmg_hdr (s : State) (f' : Qmg → Qmg) (n : Block) : (s.modQmg f').hdr n = s.hdr n := rfl
@[simp] theorem State.setQueue_hdr (s : State) (q' : Nat) (x' : Queue) (n : Block) : (s.setQueue q' x').hdr n = s.hdr n := rfl
@[simp] theorem State.modQueue_hdr (s : State) (q' : Nat) (f' : Queue → Queue) (n : Block) : (s.modQueue q' f').hdr n = s.hdr n := rfl
@[simp] theorem State.modVote_hdr (s : State) (v' : Nat) (f' : VoteUnit → VoteUnit) (n : Block) : (s.modVote v' f').hdr n = s.hdr n := rfl
@[simp] theorem State.modSafe_hdr (s : State) (f' : Safe → Safe) (n : Block) : (s.modSafe f').hdr n = s.hdr n := rfl
@[simp] theorem State.modCtl_hdr (s : State) (f' : Ctl → Ctl) (n : Block) : (s.modCtl f').hdr n = s.hdr n := rfl
@[simp] theorem State.modDbg_hdr (s : State) (f' : Dbg → Dbg) (n : Block) : (s.modDbg f').hdr n = s.hdr n := rfl
@[simp] theorem State.modTal_hdr (s : State) (f' : Tal → Tal) (n : Block) : (s.modTal f').hdr n = s.hdr n := rfl
@[simp] theorem State.modPpe_hdr (s : State) (f' : Ppe → Ppe) (n : Block) : (s.modPpe f').hdr n = s.hdr n := rfl
@[simp] theorem State.modPwr_hdr (s : State) (f' : Pwr → Pwr) (n : Block) : (s.modPwr f').hdr n = s.hdr n := rfl
@[simp] theorem State.modBoot_hdr (s : State) (f' : Boot → Boot) (n : Block) : (s.modBoot f').hdr n = s.hdr n := rfl
@[simp] theorem State.modMesh_hdr (s : State) (f' : Mesh → Mesh) (n : Block) : (s.modMesh f').hdr n = s.hdr n := rfl
@[simp] theorem State.emit_hdr (s : State) (o' : Out) (n : Block) : (s.emit o').hdr n = s.hdr n := rfl

end Sys2Proof.Machine
end

