-- ==== Sys2Proof/Laws/Ops.lean ====
section
/-! SUPPORT. What each shared operation may change: every field of the state that it leaves alone, in one lemma an
operation; and how the device's waiting commands settle when none waits. -/

namespace Sys2Proof.Machine

open Sys2Proof

@[simp] theorem sendMsix_frame (s : State) (fn v : Nat) :
    (sendMsix fn v s).pending = s.pending ∧ (sendMsix fn v s).clock = s.clock ∧ (sendMsix fn v s).free = s.free ∧
    (sendMsix fn v s).pages = s.pages ∧ (sendMsix fn v s).sels = s.sels ∧ (sendMsix fn v s).cores = s.cores ∧
    (sendMsix fn v s).parts = s.parts ∧ (sendMsix fn v s).ctxs = s.ctxs ∧ (sendMsix fn v s).images = s.images ∧
    (sendMsix fn v s).streams = s.streams ∧ (sendMsix fn v s).slotEpochs = s.slotEpochs ∧
    (sendMsix fn v s).qmg = s.qmg ∧ (sendMsix fn v s).ports = s.ports ∧ (sendMsix fn v s).tal = s.tal ∧
    (sendMsix fn v s).ppe = s.ppe ∧ (sendMsix fn v s).slices = s.slices ∧ (sendMsix fn v s).mesh = s.mesh ∧
    (sendMsix fn v s).dmcs = s.dmcs ∧ (sendMsix fn v s).dram = s.dram ∧ (sendMsix fn v s).dramPoison = s.dramPoison ∧
    (sendMsix fn v s).scrubHours = s.scrubHours ∧ (sendMsix fn v s).safe = s.safe ∧ (sendMsix fn v s).pwr = s.pwr ∧
    (sendMsix fn v s).ctl = s.ctl ∧ (sendMsix fn v s).dbg = s.dbg ∧ (sendMsix fn v s).nvm = s.nvm ∧
    (sendMsix fn v s).boot = s.boot ∧ (sendMsix fn v s).tlks = s.tlks ∧ (sendMsix fn v s).mons = s.mons :=
  by
  and_intros <;> (unfold sendMsix; (try dsimp only); (repeat' split) <;> simp)

@[simp] theorem raiseInt_frame (s : State) (b : Block) (x : BitVec 2) :
    (raiseInt b x s).pending = s.pending ∧ (raiseInt b x s).clock = s.clock ∧ (raiseInt b x s).free = s.free ∧
    (raiseInt b x s).sels = s.sels ∧ (raiseInt b x s).cores = s.cores ∧ (raiseInt b x s).parts = s.parts ∧
    (raiseInt b x s).ctxs = s.ctxs ∧ (raiseInt b x s).images = s.images ∧ (raiseInt b x s).streams = s.streams ∧
    (raiseInt b x s).slotEpochs = s.slotEpochs ∧ (raiseInt b x s).qmg = s.qmg ∧ (raiseInt b x s).ports = s.ports ∧
    (raiseInt b x s).tal = s.tal ∧ (raiseInt b x s).ppe = s.ppe ∧ (raiseInt b x s).slices = s.slices ∧
    (raiseInt b x s).mesh = s.mesh ∧ (raiseInt b x s).dmcs = s.dmcs ∧ (raiseInt b x s).dram = s.dram ∧
    (raiseInt b x s).dramPoison = s.dramPoison ∧ (raiseInt b x s).scrubHours = s.scrubHours ∧
    (raiseInt b x s).safe = s.safe ∧ (raiseInt b x s).pwr = s.pwr ∧ (raiseInt b x s).ctl = s.ctl ∧
    (raiseInt b x s).dbg = s.dbg ∧ (raiseInt b x s).nvm = s.nvm ∧ (raiseInt b x s).boot = s.boot ∧
    (raiseInt b x s).tlks = s.tlks ∧ (raiseInt b x s).mons = s.mons :=
  by
  and_intros <;> (unfold raiseInt; (try dsimp only); (repeat' split) <;> simp)

@[simp] theorem raiseAt_frame (s : State) (b : Block) (n a : Nat) (w : Option (Nat × Nat)) :
    (raiseAt b n a w s).pending = s.pending ∧ (raiseAt b n a w s).clock = s.clock ∧
    (raiseAt b n a w s).free = s.free ∧ (raiseAt b n a w s).sels = s.sels ∧ (raiseAt b n a w s).cores = s.cores ∧
    (raiseAt b n a w s).parts = s.parts ∧ (raiseAt b n a w s).ctxs = s.ctxs ∧ (raiseAt b n a w s).images = s.images ∧
    (raiseAt b n a w s).streams = s.streams ∧ (raiseAt b n a w s).slotEpochs = s.slotEpochs ∧
    (raiseAt b n a w s).qmg = s.qmg ∧ (raiseAt b n a w s).ports = s.ports ∧ (raiseAt b n a w s).tal = s.tal ∧
    (raiseAt b n a w s).ppe = s.ppe ∧ (raiseAt b n a w s).slices = s.slices ∧ (raiseAt b n a w s).mesh = s.mesh ∧
    (raiseAt b n a w s).dmcs = s.dmcs ∧ (raiseAt b n a w s).dram = s.dram ∧
    (raiseAt b n a w s).dramPoison = s.dramPoison ∧ (raiseAt b n a w s).scrubHours = s.scrubHours ∧
    (raiseAt b n a w s).safe = s.safe ∧ (raiseAt b n a w s).pwr = s.pwr ∧ (raiseAt b n a w s).ctl = s.ctl ∧
    (raiseAt b n a w s).dbg = s.dbg ∧ (raiseAt b n a w s).nvm = s.nvm ∧ (raiseAt b n a w s).boot = s.boot ∧
    (raiseAt b n a w s).tlks = s.tlks ∧ (raiseAt b n a w s).mons = s.mons :=
  by
  and_intros <;> (unfold raiseAt; (try dsimp only); (repeat' split) <;> simp)

@[simp] theorem raise_frame (s : State) (b : Block) (n : Nat) :
    (raise b n s).pending = s.pending ∧ (raise b n s).clock = s.clock ∧ (raise b n s).free = s.free ∧
    (raise b n s).sels = s.sels ∧ (raise b n s).cores = s.cores ∧ (raise b n s).parts = s.parts ∧
    (raise b n s).ctxs = s.ctxs ∧ (raise b n s).images = s.images ∧ (raise b n s).streams = s.streams ∧
    (raise b n s).slotEpochs = s.slotEpochs ∧ (raise b n s).qmg = s.qmg ∧ (raise b n s).ports = s.ports ∧
    (raise b n s).tal = s.tal ∧ (raise b n s).ppe = s.ppe ∧ (raise b n s).slices = s.slices ∧
    (raise b n s).mesh = s.mesh ∧ (raise b n s).dmcs = s.dmcs ∧ (raise b n s).dram = s.dram ∧
    (raise b n s).dramPoison = s.dramPoison ∧ (raise b n s).scrubHours = s.scrubHours ∧ (raise b n s).safe = s.safe ∧
    (raise b n s).pwr = s.pwr ∧ (raise b n s).ctl = s.ctl ∧ (raise b n s).dbg = s.dbg ∧ (raise b n s).nvm = s.nvm ∧
    (raise b n s).boot = s.boot ∧ (raise b n s).tlks = s.tlks ∧ (raise b n s).mons = s.mons :=
  by simp [raise]

@[simp] theorem takeInj_frame (s : State) (b : Block) (n : Nat) :
    ((takeInj b n s).2).pending = s.pending ∧ ((takeInj b n s).2).clock = s.clock ∧
    ((takeInj b n s).2).free = s.free ∧ ((takeInj b n s).2).outs = s.outs ∧ ((takeInj b n s).2).sels = s.sels ∧
    ((takeInj b n s).2).cores = s.cores ∧ ((takeInj b n s).2).parts = s.parts ∧ ((takeInj b n s).2).ctxs = s.ctxs ∧
    ((takeInj b n s).2).images = s.images ∧ ((takeInj b n s).2).streams = s.streams ∧
    ((takeInj b n s).2).slotEpochs = s.slotEpochs ∧ ((takeInj b n s).2).qmg = s.qmg ∧
    ((takeInj b n s).2).ports = s.ports ∧ ((takeInj b n s).2).tal = s.tal ∧ ((takeInj b n s).2).ppe = s.ppe ∧
    ((takeInj b n s).2).slices = s.slices ∧ ((takeInj b n s).2).mesh = s.mesh ∧ ((takeInj b n s).2).dmcs = s.dmcs ∧
    ((takeInj b n s).2).dram = s.dram ∧ ((takeInj b n s).2).dramPoison = s.dramPoison ∧
    ((takeInj b n s).2).scrubHours = s.scrubHours ∧ ((takeInj b n s).2).safe = s.safe ∧
    ((takeInj b n s).2).pwr = s.pwr ∧ ((takeInj b n s).2).ctl = s.ctl ∧ ((takeInj b n s).2).dbg = s.dbg ∧
    ((takeInj b n s).2).nvm = s.nvm ∧ ((takeInj b n s).2).boot = s.boot ∧ ((takeInj b n s).2).pce = s.pce ∧
    ((takeInj b n s).2).tlks = s.tlks ∧ ((takeInj b n s).2).mons = s.mons :=
  by
  and_intros <;> (unfold takeInj; (try dsimp only); (repeat' split) <;> simp)

@[simp] theorem receiveTlp_frame (s : State) :
    (receiveTlp s).pending = s.pending ∧ (receiveTlp s).clock = s.clock ∧ (receiveTlp s).free = s.free ∧
    (receiveTlp s).sels = s.sels ∧ (receiveTlp s).cores = s.cores ∧ (receiveTlp s).parts = s.parts ∧
    (receiveTlp s).ctxs = s.ctxs ∧ (receiveTlp s).images = s.images ∧ (receiveTlp s).streams = s.streams ∧
    (receiveTlp s).slotEpochs = s.slotEpochs ∧ (receiveTlp s).qmg = s.qmg ∧ (receiveTlp s).ports = s.ports ∧
    (receiveTlp s).tal = s.tal ∧ (receiveTlp s).ppe = s.ppe ∧ (receiveTlp s).slices = s.slices ∧
    (receiveTlp s).mesh = s.mesh ∧ (receiveTlp s).dmcs = s.dmcs ∧ (receiveTlp s).dram = s.dram ∧
    (receiveTlp s).dramPoison = s.dramPoison ∧ (receiveTlp s).scrubHours = s.scrubHours ∧
    (receiveTlp s).safe = s.safe ∧ (receiveTlp s).pwr = s.pwr ∧ (receiveTlp s).ctl = s.ctl ∧
    (receiveTlp s).dbg = s.dbg ∧ (receiveTlp s).nvm = s.nvm ∧ (receiveTlp s).boot = s.boot ∧
    (receiveTlp s).tlks = s.tlks ∧ (receiveTlp s).mons = s.mons :=
  by
  and_intros <;> (unfold receiveTlp; (try dsimp only); (repeat' split) <;> simp)

@[simp] theorem report_frame (s : State) (e : FaultEv) :
    (report e s).pending = s.pending ∧ (report e s).clock = s.clock ∧ (report e s).free = s.free ∧
    (report e s).outs = s.outs ∧ (report e s).pages = s.pages ∧ (report e s).sels = s.sels ∧
    (report e s).cores = s.cores ∧ (report e s).parts = s.parts ∧ (report e s).ctxs = s.ctxs ∧
    (report e s).images = s.images ∧ (report e s).streams = s.streams ∧ (report e s).slotEpochs = s.slotEpochs ∧
    (report e s).qmg = s.qmg ∧ (report e s).ports = s.ports ∧ (report e s).tal = s.tal ∧ (report e s).ppe = s.ppe ∧
    (report e s).slices = s.slices ∧ (report e s).mesh = s.mesh ∧ (report e s).dmcs = s.dmcs ∧
    (report e s).dram = s.dram ∧ (report e s).dramPoison = s.dramPoison ∧ (report e s).scrubHours = s.scrubHours ∧
    (report e s).pwr = s.pwr ∧ (report e s).ctl = s.ctl ∧ (report e s).dbg = s.dbg ∧ (report e s).nvm = s.nvm ∧
    (report e s).boot = s.boot ∧ (report e s).pce = s.pce ∧ (report e s).tlks = s.tlks ∧ (report e s).mons = s.mons :=
  by
  and_intros <;> simp [report, reportAt]

@[simp] theorem lockWrite_frame (s : State) (b : Block) :
    (lockWrite b s).pending = s.pending ∧ (lockWrite b s).clock = s.clock ∧ (lockWrite b s).free = s.free ∧
    (lockWrite b s).sels = s.sels ∧ (lockWrite b s).cores = s.cores ∧ (lockWrite b s).parts = s.parts ∧
    (lockWrite b s).ctxs = s.ctxs ∧ (lockWrite b s).images = s.images ∧ (lockWrite b s).streams = s.streams ∧
    (lockWrite b s).slotEpochs = s.slotEpochs ∧ (lockWrite b s).qmg = s.qmg ∧ (lockWrite b s).ports = s.ports ∧
    (lockWrite b s).tal = s.tal ∧ (lockWrite b s).ppe = s.ppe ∧ (lockWrite b s).slices = s.slices ∧
    (lockWrite b s).mesh = s.mesh ∧ (lockWrite b s).dmcs = s.dmcs ∧ (lockWrite b s).dram = s.dram ∧
    (lockWrite b s).dramPoison = s.dramPoison ∧ (lockWrite b s).scrubHours = s.scrubHours ∧
    (lockWrite b s).pwr = s.pwr ∧ (lockWrite b s).ctl = s.ctl ∧
    (lockWrite b s).dbg = s.dbg ∧ (lockWrite b s).nvm = s.nvm ∧ (lockWrite b s).boot = s.boot ∧
    (lockWrite b s).tlks = s.tlks ∧ (lockWrite b s).mons = s.mons :=
  by
  and_intros <;> (unfold lockWrite raiseTold; (try dsimp only); (repeat' split) <;> simp)

/-- A discarded write to a page other than a core's leaves SAFE as it was. -/
theorem lockWrite_safe {b : Block} (h : ∀ n, b ≠ .core n) (s : State) : (lockWrite b s).safe = s.safe := by
  unfold lockWrite raiseTold
  split
  · rfl
  · split
    · exact absurd rfl (h _)
    · simp

@[simp] theorem sendInval_frame (s : State) (i : Inval) :
    (sendInval i s).pending = s.pending ∧ (sendInval i s).clock = s.clock ∧ (sendInval i s).free = s.free ∧
    (sendInval i s).outs = s.outs ∧ (sendInval i s).pages = s.pages ∧ (sendInval i s).sels = s.sels ∧
    (sendInval i s).cores = s.cores ∧ (sendInval i s).parts = s.parts ∧ (sendInval i s).ctxs = s.ctxs ∧
    (sendInval i s).images = s.images ∧ (sendInval i s).streams = s.streams ∧
    (sendInval i s).slotEpochs = s.slotEpochs ∧ (sendInval i s).qmg = s.qmg ∧ (sendInval i s).ports = s.ports ∧
    (sendInval i s).tal = s.tal ∧ (sendInval i s).ppe = s.ppe ∧ (sendInval i s).slices = s.slices ∧
    (sendInval i s).mesh = s.mesh ∧ (sendInval i s).dmcs = s.dmcs ∧ (sendInval i s).dram = s.dram ∧
    (sendInval i s).dramPoison = s.dramPoison ∧ (sendInval i s).scrubHours = s.scrubHours ∧
    (sendInval i s).pwr = s.pwr ∧ (sendInval i s).ctl = s.ctl ∧ (sendInval i s).dbg = s.dbg ∧
    (sendInval i s).nvm = s.nvm ∧ (sendInval i s).boot = s.boot ∧ (sendInval i s).pce = s.pce ∧
    (sendInval i s).tlks = s.tlks ∧ (sendInval i s).mons = s.mons :=
  by
  and_intros <;> (unfold sendInval; (try dsimp only); (repeat' split) <;> simp)

@[simp] theorem drawWord_frame (s : State) :
    (s.drawWord.2).pending = s.pending ∧ (s.drawWord.2).clock = s.clock ∧ (s.drawWord.2).outs = s.outs ∧
    (s.drawWord.2).pages = s.pages ∧ (s.drawWord.2).sels = s.sels ∧ (s.drawWord.2).cores = s.cores ∧
    (s.drawWord.2).parts = s.parts ∧ (s.drawWord.2).ctxs = s.ctxs ∧ (s.drawWord.2).images = s.images ∧
    (s.drawWord.2).streams = s.streams ∧ (s.drawWord.2).slotEpochs = s.slotEpochs ∧ (s.drawWord.2).qmg = s.qmg ∧
    (s.drawWord.2).ports = s.ports ∧ (s.drawWord.2).tal = s.tal ∧ (s.drawWord.2).ppe = s.ppe ∧
    (s.drawWord.2).slices = s.slices ∧ (s.drawWord.2).mesh = s.mesh ∧ (s.drawWord.2).dmcs = s.dmcs ∧
    (s.drawWord.2).dram = s.dram ∧ (s.drawWord.2).dramPoison = s.dramPoison ∧
    (s.drawWord.2).scrubHours = s.scrubHours ∧ (s.drawWord.2).safe = s.safe ∧ (s.drawWord.2).pwr = s.pwr ∧
    (s.drawWord.2).ctl = s.ctl ∧ (s.drawWord.2).dbg = s.dbg ∧ (s.drawWord.2).nvm = s.nvm ∧
    (s.drawWord.2).boot = s.boot ∧ (s.drawWord.2).pce = s.pce ∧ (s.drawWord.2).tlks = s.tlks ∧
    (s.drawWord.2).mons = s.mons :=
  by simp [State.drawWord]

@[simp] theorem writeCompletion_frame (s : State) (c : Nat) (e : Completion) (q : Bool) :
    (writeCompletion c e q s).pending = s.pending ∧ (writeCompletion c e q s).clock = s.clock ∧
    (writeCompletion c e q s).free = s.free ∧ (writeCompletion c e q s).pages = s.pages ∧
    (writeCompletion c e q s).sels = s.sels ∧ (writeCompletion c e q s).cores = s.cores ∧
    (writeCompletion c e q s).parts = s.parts ∧ (writeCompletion c e q s).images = s.images ∧
    (writeCompletion c e q s).streams = s.streams ∧ (writeCompletion c e q s).slotEpochs = s.slotEpochs ∧
    (writeCompletion c e q s).qmg = s.qmg ∧ (writeCompletion c e q s).ports = s.ports ∧
    (writeCompletion c e q s).tal = s.tal ∧ (writeCompletion c e q s).ppe = s.ppe ∧
    (writeCompletion c e q s).slices = s.slices ∧ (writeCompletion c e q s).mesh = s.mesh ∧
    (writeCompletion c e q s).dmcs = s.dmcs ∧ (writeCompletion c e q s).dram = s.dram ∧
    (writeCompletion c e q s).dramPoison = s.dramPoison ∧ (writeCompletion c e q s).scrubHours = s.scrubHours ∧
    (writeCompletion c e q s).safe = s.safe ∧ (writeCompletion c e q s).pwr = s.pwr ∧
    (writeCompletion c e q s).ctl = s.ctl ∧ (writeCompletion c e q s).dbg = s.dbg ∧
    (writeCompletion c e q s).nvm = s.nvm ∧ (writeCompletion c e q s).boot = s.boot ∧
    (writeCompletion c e q s).tlks = s.tlks ∧ (writeCompletion c e q s).mons = s.mons :=
  by
  and_intros <;> (unfold writeCompletion; (try dsimp only); (repeat' split) <;> simp)

@[simp] theorem postCompletion_frame (s : State) (c : Nat) (e : Completion) (q : Bool) :
    (postCompletion c e q s).pending = s.pending ∧ (postCompletion c e q s).clock = s.clock ∧
    (postCompletion c e q s).free = s.free ∧ (postCompletion c e q s).pages = s.pages ∧
    (postCompletion c e q s).sels = s.sels ∧ (postCompletion c e q s).cores = s.cores ∧
    (postCompletion c e q s).parts = s.parts ∧ (postCompletion c e q s).images = s.images ∧
    (postCompletion c e q s).streams = s.streams ∧ (postCompletion c e q s).slotEpochs = s.slotEpochs ∧
    (postCompletion c e q s).qmg = s.qmg ∧ (postCompletion c e q s).ports = s.ports ∧
    (postCompletion c e q s).tal = s.tal ∧ (postCompletion c e q s).ppe = s.ppe ∧
    (postCompletion c e q s).slices = s.slices ∧ (postCompletion c e q s).mesh = s.mesh ∧
    (postCompletion c e q s).dmcs = s.dmcs ∧ (postCompletion c e q s).dram = s.dram ∧
    (postCompletion c e q s).dramPoison = s.dramPoison ∧ (postCompletion c e q s).scrubHours = s.scrubHours ∧
    (postCompletion c e q s).safe = s.safe ∧ (postCompletion c e q s).pwr = s.pwr ∧
    (postCompletion c e q s).ctl = s.ctl ∧ (postCompletion c e q s).dbg = s.dbg ∧
    (postCompletion c e q s).nvm = s.nvm ∧ (postCompletion c e q s).boot = s.boot ∧
    (postCompletion c e q s).tlks = s.tlks ∧ (postCompletion c e q s).mons = s.mons :=
  by
  and_intros <;> (unfold postCompletion; (try dsimp only); (repeat' split) <;> simp)

@[simp] theorem finish_frame (s : State) (cmd : Cmd) (op st e d : Nat) :
    (finish cmd op st e d s).pending = s.pending ∧ (finish cmd op st e d s).clock = s.clock ∧
    (finish cmd op st e d s).free = s.free ∧ (finish cmd op st e d s).sels = s.sels ∧
    (finish cmd op st e d s).cores = s.cores ∧ (finish cmd op st e d s).parts = s.parts ∧
    (finish cmd op st e d s).images = s.images ∧ (finish cmd op st e d s).streams = s.streams ∧
    (finish cmd op st e d s).slotEpochs = s.slotEpochs ∧ (finish cmd op st e d s).qmg = s.qmg ∧
    (finish cmd op st e d s).ports = s.ports ∧ (finish cmd op st e d s).tal = s.tal ∧
    (finish cmd op st e d s).ppe = s.ppe ∧ (finish cmd op st e d s).slices = s.slices ∧
    (finish cmd op st e d s).mesh = s.mesh ∧ (finish cmd op st e d s).dmcs = s.dmcs ∧
    (finish cmd op st e d s).dram = s.dram ∧ (finish cmd op st e d s).dramPoison = s.dramPoison ∧
    (finish cmd op st e d s).scrubHours = s.scrubHours ∧ (finish cmd op st e d s).safe = s.safe ∧
    (finish cmd op st e d s).pwr = s.pwr ∧ (finish cmd op st e d s).ctl = s.ctl ∧
    (finish cmd op st e d s).dbg = s.dbg ∧ (finish cmd op st e d s).nvm = s.nvm ∧
    (finish cmd op st e d s).boot = s.boot ∧ (finish cmd op st e d s).tlks = s.tlks ∧
    (finish cmd op st e d s).mons = s.mons :=
  by
  and_intros <;> (unfold finish; (try dsimp only); (repeat' split) <;> simp)

@[simp] theorem finishOpen_frame (s : State) (cmd : Cmd) (op st e : Nat) :
    (finishOpen cmd op st e s).pending = s.pending ∧ (finishOpen cmd op st e s).clock = s.clock ∧
    (finishOpen cmd op st e s).sels = s.sels ∧ (finishOpen cmd op st e s).cores = s.cores ∧
    (finishOpen cmd op st e s).parts = s.parts ∧ (finishOpen cmd op st e s).images = s.images ∧
    (finishOpen cmd op st e s).streams = s.streams ∧ (finishOpen cmd op st e s).slotEpochs = s.slotEpochs ∧
    (finishOpen cmd op st e s).qmg = s.qmg ∧ (finishOpen cmd op st e s).ports = s.ports ∧
    (finishOpen cmd op st e s).tal = s.tal ∧ (finishOpen cmd op st e s).ppe = s.ppe ∧
    (finishOpen cmd op st e s).slices = s.slices ∧ (finishOpen cmd op st e s).mesh = s.mesh ∧
    (finishOpen cmd op st e s).dmcs = s.dmcs ∧ (finishOpen cmd op st e s).dram = s.dram ∧
    (finishOpen cmd op st e s).dramPoison = s.dramPoison ∧ (finishOpen cmd op st e s).scrubHours = s.scrubHours ∧
    (finishOpen cmd op st e s).safe = s.safe ∧ (finishOpen cmd op st e s).pwr = s.pwr ∧
    (finishOpen cmd op st e s).ctl = s.ctl ∧ (finishOpen cmd op st e s).dbg = s.dbg ∧
    (finishOpen cmd op st e s).nvm = s.nvm ∧ (finishOpen cmd op st e s).boot = s.boot ∧
    (finishOpen cmd op st e s).tlks = s.tlks ∧ (finishOpen cmd op st e s).mons = s.mons :=
  by simp [finishOpen]

@[simp] theorem writeNotice_frame (s : State) (k w : Nat) (f : Option FaultRec) :
    (writeNotice k w f s).pending = s.pending ∧ (writeNotice k w f s).clock = s.clock ∧
    (writeNotice k w f s).free = s.free ∧ (writeNotice k w f s).sels = s.sels ∧
    (writeNotice k w f s).cores = s.cores ∧ (writeNotice k w f s).parts = s.parts ∧
    (writeNotice k w f s).ctxs = s.ctxs ∧ (writeNotice k w f s).images = s.images ∧
    (writeNotice k w f s).streams = s.streams ∧ (writeNotice k w f s).slotEpochs = s.slotEpochs ∧
    (writeNotice k w f s).qmg = s.qmg ∧ (writeNotice k w f s).ports = s.ports ∧ (writeNotice k w f s).tal = s.tal ∧
    (writeNotice k w f s).ppe = s.ppe ∧ (writeNotice k w f s).slices = s.slices ∧
    (writeNotice k w f s).mesh = s.mesh ∧ (writeNotice k w f s).dmcs = s.dmcs ∧ (writeNotice k w f s).dram = s.dram ∧
    (writeNotice k w f s).dramPoison = s.dramPoison ∧ (writeNotice k w f s).scrubHours = s.scrubHours ∧
    (writeNotice k w f s).safe = s.safe ∧ (writeNotice k w f s).pwr = s.pwr ∧ (writeNotice k w f s).ctl = s.ctl ∧
    (writeNotice k w f s).nvm = s.nvm ∧ (writeNotice k w f s).boot = s.boot ∧ (writeNotice k w f s).tlks = s.tlks ∧
    (writeNotice k w f s).mons = s.mons :=
  by
  and_intros <;> (unfold writeNotice; (try dsimp only); (repeat' split) <;> simp)

@[simp] theorem postNotice_frame (s : State) (k w : Nat) (f : Option FaultRec) :
    (postNotice k w f s).pending = s.pending ∧ (postNotice k w f s).clock = s.clock ∧
    (postNotice k w f s).free = s.free ∧ (postNotice k w f s).sels = s.sels ∧ (postNotice k w f s).cores = s.cores ∧
    (postNotice k w f s).parts = s.parts ∧ (postNotice k w f s).ctxs = s.ctxs ∧
    (postNotice k w f s).images = s.images ∧ (postNotice k w f s).streams = s.streams ∧
    (postNotice k w f s).slotEpochs = s.slotEpochs ∧ (postNotice k w f s).qmg = s.qmg ∧
    (postNotice k w f s).ports = s.ports ∧ (postNotice k w f s).tal = s.tal ∧ (postNotice k w f s).ppe = s.ppe ∧
    (postNotice k w f s).slices = s.slices ∧ (postNotice k w f s).mesh = s.mesh ∧
    (postNotice k w f s).dmcs = s.dmcs ∧ (postNotice k w f s).dram = s.dram ∧
    (postNotice k w f s).dramPoison = s.dramPoison ∧ (postNotice k w f s).scrubHours = s.scrubHours ∧
    (postNotice k w f s).safe = s.safe ∧ (postNotice k w f s).pwr = s.pwr ∧ (postNotice k w f s).ctl = s.ctl ∧
    (postNotice k w f s).nvm = s.nvm ∧ (postNotice k w f s).boot = s.boot ∧ (postNotice k w f s).tlks = s.tlks ∧
    (postNotice k w f s).mons = s.mons :=
  by
  and_intros <;> (unfold postNotice; (try dsimp only); (repeat' split) <;> simp)

@[simp] theorem beginSample_frame (s : State) (c : Nat) :
    (beginSample c s).pending = s.pending ∧ (beginSample c s).clock = s.clock ∧ (beginSample c s).free = s.free ∧
    (beginSample c s).outs = s.outs ∧ (beginSample c s).pages = s.pages ∧ (beginSample c s).sels = s.sels ∧
    (beginSample c s).cores = s.cores ∧ (beginSample c s).parts = s.parts ∧ (beginSample c s).ctxs = s.ctxs ∧
    (beginSample c s).images = s.images ∧ (beginSample c s).streams = s.streams ∧
    (beginSample c s).slotEpochs = s.slotEpochs ∧ (beginSample c s).ports = s.ports ∧ (beginSample c s).tal = s.tal ∧
    (beginSample c s).ppe = s.ppe ∧ (beginSample c s).slices = s.slices ∧ (beginSample c s).mesh = s.mesh ∧
    (beginSample c s).dmcs = s.dmcs ∧ (beginSample c s).dram = s.dram ∧ (beginSample c s).dramPoison = s.dramPoison ∧
    (beginSample c s).scrubHours = s.scrubHours ∧ (beginSample c s).safe = s.safe ∧ (beginSample c s).pwr = s.pwr ∧
    (beginSample c s).ctl = s.ctl ∧ (beginSample c s).nvm = s.nvm ∧ (beginSample c s).pce = s.pce ∧
    (beginSample c s).tlks = s.tlks ∧ (beginSample c s).mons = s.mons :=
  by
  and_intros <;> (unfold beginSample; (try dsimp only); (repeat' split) <;> simp)

@[simp] theorem enterSafe_frame (s : State) (c : Nat) :
    (enterSafe c s).pending = s.pending ∧ (enterSafe c s).clock = s.clock ∧ (enterSafe c s).free = s.free ∧
    (enterSafe c s).sels = s.sels ∧ (enterSafe c s).cores = s.cores ∧ (enterSafe c s).parts = s.parts ∧
    (enterSafe c s).ctxs = s.ctxs ∧ (enterSafe c s).images = s.images ∧ (enterSafe c s).streams = s.streams ∧
    (enterSafe c s).slotEpochs = s.slotEpochs ∧ (enterSafe c s).ports = s.ports ∧ (enterSafe c s).tal = s.tal ∧
    (enterSafe c s).ppe = s.ppe ∧ (enterSafe c s).slices = s.slices ∧ (enterSafe c s).mesh = s.mesh ∧
    (enterSafe c s).dmcs = s.dmcs ∧ (enterSafe c s).dram = s.dram ∧ (enterSafe c s).dramPoison = s.dramPoison ∧
    (enterSafe c s).scrubHours = s.scrubHours ∧ (enterSafe c s).pwr = s.pwr ∧ (enterSafe c s).ctl = s.ctl ∧
    (enterSafe c s).nvm = s.nvm ∧ (enterSafe c s).tlks = s.tlks ∧ (enterSafe c s).mons = s.mons :=
  by
  and_intros <;> (unfold enterSafe; (try dsimp only); (repeat' split) <;> simp)

@[simp] theorem fatalError_frame (s : State) (c : Nat) :
    (fatalError c s).pending = s.pending ∧ (fatalError c s).clock = s.clock ∧ (fatalError c s).free = s.free ∧
    (fatalError c s).sels = s.sels ∧ (fatalError c s).cores = s.cores ∧ (fatalError c s).parts = s.parts ∧
    (fatalError c s).ctxs = s.ctxs ∧ (fatalError c s).images = s.images ∧ (fatalError c s).streams = s.streams ∧
    (fatalError c s).slotEpochs = s.slotEpochs ∧ (fatalError c s).ports = s.ports ∧ (fatalError c s).tal = s.tal ∧
    (fatalError c s).ppe = s.ppe ∧ (fatalError c s).slices = s.slices ∧ (fatalError c s).mesh = s.mesh ∧
    (fatalError c s).dmcs = s.dmcs ∧ (fatalError c s).dram = s.dram ∧ (fatalError c s).dramPoison = s.dramPoison ∧
    (fatalError c s).scrubHours = s.scrubHours ∧ (fatalError c s).pwr = s.pwr ∧ (fatalError c s).ctl = s.ctl ∧
    (fatalError c s).nvm = s.nvm ∧ (fatalError c s).tlks = s.tlks ∧ (fatalError c s).mons = s.mons :=
  by
  and_intros <;> (unfold fatalError; (try dsimp only); (repeat' split) <;> simp)

@[simp] theorem nextOrder_frame (s : State) :
    (s.nextOrder.2).pending = s.pending ∧ (s.nextOrder.2).clock = s.clock ∧ (s.nextOrder.2).free = s.free ∧
    (s.nextOrder.2).outs = s.outs ∧ (s.nextOrder.2).pages = s.pages ∧ (s.nextOrder.2).sels = s.sels ∧
    (s.nextOrder.2).cores = s.cores ∧ (s.nextOrder.2).parts = s.parts ∧ (s.nextOrder.2).ctxs = s.ctxs ∧
    (s.nextOrder.2).images = s.images ∧ (s.nextOrder.2).streams = s.streams ∧
    (s.nextOrder.2).slotEpochs = s.slotEpochs ∧ (s.nextOrder.2).ports = s.ports ∧ (s.nextOrder.2).tal = s.tal ∧
    (s.nextOrder.2).ppe = s.ppe ∧ (s.nextOrder.2).slices = s.slices ∧ (s.nextOrder.2).mesh = s.mesh ∧
    (s.nextOrder.2).dmcs = s.dmcs ∧ (s.nextOrder.2).dram = s.dram ∧ (s.nextOrder.2).dramPoison = s.dramPoison ∧
    (s.nextOrder.2).scrubHours = s.scrubHours ∧ (s.nextOrder.2).safe = s.safe ∧ (s.nextOrder.2).pwr = s.pwr ∧
    (s.nextOrder.2).ctl = s.ctl ∧ (s.nextOrder.2).dbg = s.dbg ∧ (s.nextOrder.2).nvm = s.nvm ∧
    (s.nextOrder.2).boot = s.boot ∧ (s.nextOrder.2).pce = s.pce ∧ (s.nextOrder.2).tlks = s.tlks ∧
    (s.nextOrder.2).mons = s.mons :=
  by simp [State.nextOrder]

@[simp] theorem dropFetched_frame (s : State) (cmd : Cmd) (op : Nat) :
    (dropFetched cmd op s).pending = s.pending ∧ (dropFetched cmd op s).clock = s.clock ∧
    (dropFetched cmd op s).free = s.free ∧ (dropFetched cmd op s).outs = s.outs ∧
    (dropFetched cmd op s).pages = s.pages ∧ (dropFetched cmd op s).sels = s.sels ∧
    (dropFetched cmd op s).cores = s.cores ∧ (dropFetched cmd op s).parts = s.parts ∧
    (dropFetched cmd op s).images = s.images ∧ (dropFetched cmd op s).streams = s.streams ∧
    (dropFetched cmd op s).slotEpochs = s.slotEpochs ∧ (dropFetched cmd op s).qmg = s.qmg ∧
    (dropFetched cmd op s).ports = s.ports ∧ (dropFetched cmd op s).tal = s.tal ∧
    (dropFetched cmd op s).ppe = s.ppe ∧ (dropFetched cmd op s).slices = s.slices ∧
    (dropFetched cmd op s).mesh = s.mesh ∧ (dropFetched cmd op s).dmcs = s.dmcs ∧
    (dropFetched cmd op s).dram = s.dram ∧ (dropFetched cmd op s).dramPoison = s.dramPoison ∧
    (dropFetched cmd op s).scrubHours = s.scrubHours ∧ (dropFetched cmd op s).safe = s.safe ∧
    (dropFetched cmd op s).pwr = s.pwr ∧ (dropFetched cmd op s).ctl = s.ctl ∧ (dropFetched cmd op s).dbg = s.dbg ∧
    (dropFetched cmd op s).nvm = s.nvm ∧ (dropFetched cmd op s).boot = s.boot ∧ (dropFetched cmd op s).pce = s.pce ∧
    (dropFetched cmd op s).tlks = s.tlks ∧ (dropFetched cmd op s).mons = s.mons :=
  by
  and_intros <;> (unfold dropFetched; (try dsimp only); (repeat' split) <;> simp)

@[simp] theorem addRunning_frame (s : State) (cmd : Cmd) (op o e : Nat) :
    (addRunning cmd op o e s).pending = s.pending ∧ (addRunning cmd op o e s).clock = s.clock ∧
    (addRunning cmd op o e s).free = s.free ∧ (addRunning cmd op o e s).outs = s.outs ∧
    (addRunning cmd op o e s).pages = s.pages ∧ (addRunning cmd op o e s).sels = s.sels ∧
    (addRunning cmd op o e s).cores = s.cores ∧ (addRunning cmd op o e s).parts = s.parts ∧
    (addRunning cmd op o e s).images = s.images ∧ (addRunning cmd op o e s).streams = s.streams ∧
    (addRunning cmd op o e s).slotEpochs = s.slotEpochs ∧ (addRunning cmd op o e s).qmg = s.qmg ∧
    (addRunning cmd op o e s).ports = s.ports ∧ (addRunning cmd op o e s).tal = s.tal ∧
    (addRunning cmd op o e s).ppe = s.ppe ∧ (addRunning cmd op o e s).slices = s.slices ∧
    (addRunning cmd op o e s).mesh = s.mesh ∧ (addRunning cmd op o e s).dmcs = s.dmcs ∧
    (addRunning cmd op o e s).dram = s.dram ∧ (addRunning cmd op o e s).dramPoison = s.dramPoison ∧
    (addRunning cmd op o e s).scrubHours = s.scrubHours ∧ (addRunning cmd op o e s).safe = s.safe ∧
    (addRunning cmd op o e s).pwr = s.pwr ∧ (addRunning cmd op o e s).ctl = s.ctl ∧
    (addRunning cmd op o e s).dbg = s.dbg ∧ (addRunning cmd op o e s).nvm = s.nvm ∧
    (addRunning cmd op o e s).boot = s.boot ∧ (addRunning cmd op o e s).pce = s.pce ∧
    (addRunning cmd op o e s).tlks = s.tlks ∧ (addRunning cmd op o e s).mons = s.mons :=
  by
  and_intros <;> (unfold addRunning; (try dsimp only); (repeat' split) <;> simp)

@[simp] theorem dropRunning_frame (s : State) (c o : Nat) :
    (dropRunning c o s).pending = s.pending ∧ (dropRunning c o s).clock = s.clock ∧
    (dropRunning c o s).free = s.free ∧ (dropRunning c o s).outs = s.outs ∧ (dropRunning c o s).pages = s.pages ∧
    (dropRunning c o s).sels = s.sels ∧ (dropRunning c o s).cores = s.cores ∧ (dropRunning c o s).parts = s.parts ∧
    (dropRunning c o s).images = s.images ∧ (dropRunning c o s).streams = s.streams ∧
    (dropRunning c o s).slotEpochs = s.slotEpochs ∧ (dropRunning c o s).qmg = s.qmg ∧
    (dropRunning c o s).ports = s.ports ∧ (dropRunning c o s).tal = s.tal ∧ (dropRunning c o s).ppe = s.ppe ∧
    (dropRunning c o s).slices = s.slices ∧ (dropRunning c o s).mesh = s.mesh ∧ (dropRunning c o s).dmcs = s.dmcs ∧
    (dropRunning c o s).dram = s.dram ∧ (dropRunning c o s).dramPoison = s.dramPoison ∧
    (dropRunning c o s).scrubHours = s.scrubHours ∧ (dropRunning c o s).safe = s.safe ∧
    (dropRunning c o s).pwr = s.pwr ∧ (dropRunning c o s).ctl = s.ctl ∧ (dropRunning c o s).dbg = s.dbg ∧
    (dropRunning c o s).nvm = s.nvm ∧ (dropRunning c o s).boot = s.boot ∧ (dropRunning c o s).pce = s.pce ∧
    (dropRunning c o s).tlks = s.tlks ∧ (dropRunning c o s).mons = s.mons :=
  by
  and_intros <;> (unfold dropRunning; (try dsimp only); (repeat' split) <;> simp)

@[simp] theorem endRunning_frame (s : State) (c o st d : Nat) :
    (endRunning c o st d s).pending = s.pending ∧ (endRunning c o st d s).clock = s.clock ∧
    (endRunning c o st d s).free = s.free ∧ (endRunning c o st d s).sels = s.sels ∧
    (endRunning c o st d s).cores = s.cores ∧ (endRunning c o st d s).parts = s.parts ∧
    (endRunning c o st d s).images = s.images ∧ (endRunning c o st d s).streams = s.streams ∧
    (endRunning c o st d s).slotEpochs = s.slotEpochs ∧ (endRunning c o st d s).qmg = s.qmg ∧
    (endRunning c o st d s).ports = s.ports ∧ (endRunning c o st d s).tal = s.tal ∧
    (endRunning c o st d s).ppe = s.ppe ∧ (endRunning c o st d s).slices = s.slices ∧
    (endRunning c o st d s).mesh = s.mesh ∧ (endRunning c o st d s).dmcs = s.dmcs ∧
    (endRunning c o st d s).dram = s.dram ∧ (endRunning c o st d s).dramPoison = s.dramPoison ∧
    (endRunning c o st d s).scrubHours = s.scrubHours ∧ (endRunning c o st d s).safe = s.safe ∧
    (endRunning c o st d s).pwr = s.pwr ∧ (endRunning c o st d s).ctl = s.ctl ∧ (endRunning c o st d s).dbg = s.dbg ∧
    (endRunning c o st d s).nvm = s.nvm ∧ (endRunning c o st d s).boot = s.boot ∧
    (endRunning c o st d s).tlks = s.tlks ∧ (endRunning c o st d s).mons = s.mons :=
  by
  and_intros <;> (unfold endRunning; (try dsimp only); (repeat' split) <;> simp)

@[simp] theorem endOpen_frame (s : State) (c o st : Nat) :
    (endOpen c o st s).pending = s.pending ∧ (endOpen c o st s).clock = s.clock ∧ (endOpen c o st s).sels = s.sels ∧
    (endOpen c o st s).cores = s.cores ∧ (endOpen c o st s).parts = s.parts ∧ (endOpen c o st s).images = s.images ∧
    (endOpen c o st s).streams = s.streams ∧ (endOpen c o st s).slotEpochs = s.slotEpochs ∧
    (endOpen c o st s).qmg = s.qmg ∧ (endOpen c o st s).ports = s.ports ∧ (endOpen c o st s).tal = s.tal ∧
    (endOpen c o st s).ppe = s.ppe ∧ (endOpen c o st s).slices = s.slices ∧ (endOpen c o st s).mesh = s.mesh ∧
    (endOpen c o st s).dmcs = s.dmcs ∧ (endOpen c o st s).dram = s.dram ∧
    (endOpen c o st s).dramPoison = s.dramPoison ∧ (endOpen c o st s).scrubHours = s.scrubHours ∧
    (endOpen c o st s).safe = s.safe ∧ (endOpen c o st s).pwr = s.pwr ∧ (endOpen c o st s).ctl = s.ctl ∧
    (endOpen c o st s).dbg = s.dbg ∧ (endOpen c o st s).nvm = s.nvm ∧ (endOpen c o st s).boot = s.boot ∧
    (endOpen c o st s).tlks = s.tlks ∧ (endOpen c o st s).mons = s.mons :=
  by
  and_intros <;> (unfold endOpen; (try dsimp only); (repeat' split) <;> simp)

@[simp] theorem hold_frame (s : State) (w : HoldWhy) (cmd : Cmd) (op o : Nat) (i : Instr) :
    (hold w cmd op o i s).pending = s.pending ∧ (hold w cmd op o i s).clock = s.clock ∧
    (hold w cmd op o i s).free = s.free ∧ (hold w cmd op o i s).outs = s.outs ∧
    (hold w cmd op o i s).pages = s.pages ∧ (hold w cmd op o i s).sels = s.sels ∧
    (hold w cmd op o i s).cores = s.cores ∧ (hold w cmd op o i s).parts = s.parts ∧
    (hold w cmd op o i s).images = s.images ∧ (hold w cmd op o i s).streams = s.streams ∧
    (hold w cmd op o i s).slotEpochs = s.slotEpochs ∧ (hold w cmd op o i s).qmg = s.qmg ∧
    (hold w cmd op o i s).ports = s.ports ∧ (hold w cmd op o i s).tal = s.tal ∧ (hold w cmd op o i s).ppe = s.ppe ∧
    (hold w cmd op o i s).slices = s.slices ∧ (hold w cmd op o i s).mesh = s.mesh ∧
    (hold w cmd op o i s).dmcs = s.dmcs ∧ (hold w cmd op o i s).dram = s.dram ∧
    (hold w cmd op o i s).dramPoison = s.dramPoison ∧ (hold w cmd op o i s).scrubHours = s.scrubHours ∧
    (hold w cmd op o i s).safe = s.safe ∧ (hold w cmd op o i s).pwr = s.pwr ∧ (hold w cmd op o i s).dbg = s.dbg ∧
    (hold w cmd op o i s).nvm = s.nvm ∧ (hold w cmd op o i s).boot = s.boot ∧ (hold w cmd op o i s).pce = s.pce ∧
    (hold w cmd op o i s).tlks = s.tlks ∧ (hold w cmd op o i s).mons = s.mons :=
  by
  and_intros <;> (unfold hold; (try dsimp only); (repeat' split) <;> simp)

/-- With nothing waiting inside the device, settling changes nothing. -/
theorem settle_none {s : State} (h1 : s.ctl.waiting = []) (h2 : s.ctl.fences = []) : settle s = s := by
  simp [settle, h1, resumeHeld, settleFences, h2, forEach]

@[simp] theorem headBlocked_none {s : State} (h : s.ctl.waiting = []) (c : Nat) : s.headBlocked c = false := by
  simp [State.headBlocked, h]

/-- A command that the device takes at once runs with its start order. -/
theorem gate_takes {s : State} {cmd : Cmd} {op : Nat} (h : Takes s cmd op) (i : Instr) (run : Nat → State → State) :
    gate i cmd op run s = run (dropFetched cmd op s).nextOrder.1 (dropFetched cmd op s).nextOrder.2 := by
  obtain ⟨h1, h0, h2, -⟩ := h
  simp [gate, h1, h0, State.headBlocked, h2]

/-- `forEach` keeps what its operation keeps. -/
theorem forEach_keeps {α β : Type} (g : State → β) (xs : List α) (f : α → State → State)
    (h : ∀ x s, g (f x s) = g s) (s : State) : g (forEach xs f s) = g s := by
  induction xs generalizing s with
  | nil => rfl
  | cons x xs ih => simp only [forEach, List.foldl] at *; rw [ih, h]

/-- `forEach` keeps a property that its operation keeps. -/
theorem forEach_inv {α : Type} (P : State → Prop) (xs : List α) (f : α → State → State)
    (h : ∀ x s, P s → P (f x s)) (s : State) (hs : P s) : P (forEach xs f s) := by
  induction xs generalizing s with
  | nil => exact hs
  | cons x xs ih => exact ih _ (h x s hs)

end Sys2Proof.Machine
end

