-- ==== Sys2Proof/Laws/Posts.lean ====
section
/-! SUPPORT. What leaves the device stays sent; and what posting a completion does (R204). -/

namespace Sys2Proof.Machine

open Sys2Proof

/-! ### What has been sent stays sent -/

/-- What had been sent at `s` has been sent at `t`. -/
def Grows (s t : State) : Prop := ∃ new, t.outs = s.outs ++ new

theorem Grows.refl (s : State) : Grows s s := ⟨[], by simp⟩

theorem Grows.of_eq {s t : State} (h : t.outs = s.outs) : Grows s t := ⟨[], by simp [h]⟩

theorem Grows.trans {s t u : State} (h : Grows s t) (k : Grows t u) : Grows s u := by
  obtain ⟨a, ha⟩ := h
  obtain ⟨b, hb⟩ := k
  exact ⟨a ++ b, by simp [hb, ha]⟩

theorem Grows.emit (s : State) (o : Out) : Grows s (s.emit o) := ⟨[o], rfl⟩

theorem Sends.emit (s : State) (o : Out) : Sends s (s.emit o) o := ⟨[o], rfl, List.mem_singleton.mpr rfl⟩

theorem Sends.before {s t u : State} {o : Out} (h : Grows s t) (k : Sends t u o) : Sends s u o := by
  obtain ⟨a, ha⟩ := h
  obtain ⟨b, hb, hm⟩ := k
  exact ⟨a ++ b, by simp [hb, ha], by simp [hm]⟩

theorem Sends.after {s t u : State} {o : Out} (h : Sends s t o) (k : Grows t u) : Sends s u o := by
  obtain ⟨a, ha, hm⟩ := h
  obtain ⟨b, hb⟩ := k
  exact ⟨a ++ b, by simp [hb, ha], by simp [hm]⟩

theorem Posts.before {cmd : Cmd} {st : Nat} {s t u : State} (h : Grows s t) (k : Posts cmd st t u) : Posts cmd st s u := by
  obtain ⟨e, n, a, b, c⟩ := k
  exact ⟨e, n, a, b, Sends.before h c⟩

theorem Posts.after {cmd : Cmd} {st : Nat} {s t u : State} (h : Posts cmd st s t) (k : Grows t u) : Posts cmd st s u := by
  obtain ⟨e, n, a, b, c⟩ := h
  exact ⟨e, n, a, b, Sends.after c k⟩

theorem sendMsix_grows (fn v : Nat) (s : State) : Grows s (sendMsix fn v s) := by
  unfold sendMsix
  split
  · exact Grows.of_eq rfl
  · exact ⟨_, rfl⟩

theorem raiseInt_grows (b : Block) (x : BitVec 2) (s : State) : Grows s (raiseInt b x s) := by
  unfold raiseInt
  dsimp only
  split
  · exact (Grows.of_eq rfl).trans (sendMsix_grows _ _ _)
  · exact Grows.of_eq rfl

theorem raiseAt_grows (b : Block) (n a : Nat) (w : Option (Nat × Nat)) (s : State) : Grows s (raiseAt b n a w s) := by
  unfold raiseAt
  dsimp only
  split
  · exact (Grows.of_eq rfl).trans (raiseInt_grows _ _ _)
  · exact Grows.of_eq rfl

theorem raise_grows (b : Block) (n : Nat) (s : State) : Grows s (raise b n s) := raiseAt_grows _ _ _ _ _

/-! ### Completions -/

/-- Posting a completion touches three fields of its context's completion queue, and no other context. -/
theorem postCompletion_ctx (c : Nat) (e : Completion) (q : Bool) (s : State) :
    ∃ a b h, ∀ d, (postCompletion c e q s).ctx d =
      if d = c then { s.ctx c with cplTail := a, cplPushed := b, cplHeld := h } else s.ctx d := by
  have hs : ∀ (fn v : Nat) (u : State) (d : Nat), (sendMsix fn v u).ctx d = u.ctx d := by
    intro fn v u d; simp [State.ctx]
  unfold postCompletion
  dsimp only
  split
  · unfold writeCompletion
    dsimp only
    refine ⟨((s.ctx c).cplTail + 1) % 2 ^ 19, ((s.ctx c).cplPushed + 1) % 2 ^ 32, (s.ctx c).cplHeld, fun d => ?_⟩
    split
    · rw [hs, State.emit_ctx, State.ctx_modCtx]
    · rw [State.emit_ctx, State.ctx_modCtx]
  · exact ⟨(s.ctx c).cplTail, (s.ctx c).cplPushed, (s.ctx c).cplHeld ++ [(e, q)], fun d => State.ctx_modCtx _ _ _ _⟩

theorem finish_ctx (cmd : Cmd) (op st e d : Nat) (s : State) :
    ∃ a b h, ∀ k, (finish cmd op st e d s).ctx k =
      if k = cmd.ctx.val then { s.ctx cmd.ctx.val with cplTail := a, cplPushed := b, cplHeld := h } else s.ctx k := by
  unfold finish
  split
  · obtain ⟨a, b, h, hk⟩ := postCompletion_ctx cmd.ctx.val (entry cmd op st e d) cmd.irq (raise .ctl Bit.ctlRejected s)
    exact ⟨a, b, h, fun k => by rw [hk]; simp [State.ctx]⟩
  · exact postCompletion_ctx _ _ _ _

theorem finishOpen_ctx (cmd : Cmd) (op st e : Nat) (s : State) :
    ∃ a b h, ∀ k, (finishOpen cmd op st e s).ctx k =
      if k = cmd.ctx.val then { s.ctx cmd.ctx.val with cplTail := a, cplPushed := b, cplHeld := h } else s.ctx k :=
  finish_ctx cmd op st e s.drawWord.1.toNat s.drawWord.2

/-- Fields of a context that posting its completion leaves alone. -/
@[simp] theorem finish_ctx_fields (cmd : Cmd) (op st e d : Nat) (s : State) (k : Nat) :
    ((finish cmd op st e d s).ctx k).part = (s.ctx k).part ∧ ((finish cmd op st e d s).ctx k).fn = (s.ctx k).fn ∧
    ((finish cmd op st e d s).ctx k).vector = (s.ctx k).vector ∧ ((finish cmd op st e d s).ctx k).en = (s.ctx k).en ∧
    ((finish cmd op st e d s).ctx k).running = (s.ctx k).running ∧
    ((finish cmd op st e d s).ctx k).fetched = (s.ctx k).fetched ∧
    ((finish cmd op st e d s).ctx k).trace = (s.ctx k).trace ∧ ((finish cmd op st e d s).ctx k).ovf = (s.ctx k).ovf ∧
    ((finish cmd op st e d s).ctx k).jobsDone = (s.ctx k).jobsDone ∧
    ((finish cmd op st e d s).ctx k).budget = (s.ctx k).budget ∧
    ((finish cmd op st e d s).ctx k).budgetLeft = (s.ctx k).budgetLeft ∧
    ((finish cmd op st e d s).ctx k).phase = (s.ctx k).phase ∧ ((finish cmd op st e d s).ctx k).hint = (s.ctx k).hint ∧
    ((finish cmd op st e d s).ctx k).phaseUntil = (s.ctx k).phaseUntil ∧
    ((finish cmd op st e d s).ctx k).faults = (s.ctx k).faults := by
  obtain ⟨a, b, h, hk⟩ := finish_ctx cmd op st e d s
  by_cases hc : k = cmd.ctx.val
  · subst hc; simp [hk]
  · simp [hk, hc]

/-- The same when the DETAIL of the completion is open. -/
@[simp] theorem finishOpen_ctx_fields (cmd : Cmd) (op st e : Nat) (s : State) (k : Nat) :
    ((finishOpen cmd op st e s).ctx k).part = (s.ctx k).part ∧ ((finishOpen cmd op st e s).ctx k).fn = (s.ctx k).fn ∧
    ((finishOpen cmd op st e s).ctx k).vector = (s.ctx k).vector ∧ ((finishOpen cmd op st e s).ctx k).en = (s.ctx k).en ∧
    ((finishOpen cmd op st e s).ctx k).running = (s.ctx k).running ∧
    ((finishOpen cmd op st e s).ctx k).fetched = (s.ctx k).fetched ∧
    ((finishOpen cmd op st e s).ctx k).trace = (s.ctx k).trace ∧ ((finishOpen cmd op st e s).ctx k).ovf = (s.ctx k).ovf ∧
    ((finishOpen cmd op st e s).ctx k).jobsDone = (s.ctx k).jobsDone ∧
    ((finishOpen cmd op st e s).ctx k).budget = (s.ctx k).budget ∧
    ((finishOpen cmd op st e s).ctx k).budgetLeft = (s.ctx k).budgetLeft ∧
    ((finishOpen cmd op st e s).ctx k).phase = (s.ctx k).phase ∧ ((finishOpen cmd op st e s).ctx k).hint = (s.ctx k).hint ∧
    ((finishOpen cmd op st e s).ctx k).phaseUntil = (s.ctx k).phaseUntil ∧
    ((finishOpen cmd op st e s).ctx k).faults = (s.ctx k).faults :=
  finish_ctx_fields cmd op st e s.drawWord.1.toNat s.drawWord.2 k

theorem finish_otherContexts (cmd : Cmd) (op st e d : Nat) (s : State) : OtherContexts cmd.ctx.val s (finish cmd op st e d s) := by
  obtain ⟨a, b, h, hk⟩ := finish_ctx cmd op st e d s
  exact fun k hc => by simp [hk, hc]

theorem finishOpen_otherContexts (cmd : Cmd) (op st e : Nat) (s : State) :
    OtherContexts cmd.ctx.val s (finishOpen cmd op st e s) :=
  finish_otherContexts cmd op st e s.drawWord.1.toNat s.drawWord.2

/-- A completion that finds space is posted at once (R204). -/
theorem finish_posts {s : State} {cmd : Cmd} (h1 : (s.ctx cmd.ctx.val).cplHeld = [])
    (h2 : (s.ctx cmd.ctx.val).cplSpace = true) (op st e d : Nat) : Posts cmd st s (finish cmd op st e d s) := by
  have key : ∀ u : State, u.ctxs = s.ctxs → Grows s u →
      Posts cmd st s (postCompletion cmd.ctx.val (entry cmd op st e d) cmd.irq u) := by
    intro u hu hg
    have hc : u.ctx cmd.ctx.val = s.ctx cmd.ctx.val := by simp [State.ctx, hu]
    unfold postCompletion
    simp only [hc, h1, h2, List.isEmpty_nil, Bool.and_self, if_true]
    unfold writeCompletion
    dsimp only
    refine ⟨{ entry cmd op st e d with
      phase := ((s.ctx cmd.ctx.val).cplTail / 2 ^ ((s.ctx cmd.ctx.val).cplLog2 + 3)) % 2 == 0 }, (s.ctx cmd.ctx.val).cplSlot, rfl, rfl,
      Sends.before hg ?_⟩
    rw [hc]
    split
    · exact Sends.after ⟨_, rfl, List.mem_singleton.mpr rfl⟩ (sendMsix_grows _ _ _)
    · exact ⟨_, rfl, List.mem_singleton.mpr rfl⟩
  unfold finish
  split
  · exact key _ (by simp) (raise_grows _ _ _)
  · exact key _ rfl (Grows.refl _)

theorem finishOpen_posts {s : State} {cmd : Cmd} (h1 : (s.ctx cmd.ctx.val).cplHeld = [])
    (h2 : (s.ctx cmd.ctx.val).cplSpace = true) (op st e : Nat) : Posts cmd st s (finishOpen cmd op st e s) := by
  obtain ⟨c, n, a, b, d⟩ := finish_posts (s := s.drawWord.2) (cmd := cmd) h1 h2 op st e s.drawWord.1.toNat
  exact ⟨c, n, a, b, d⟩

end Sys2Proof.Machine
end

