-- ==== Sys2Proof/Laws/Completions.lean ====
section
/-! SUPPORT. Commands that are taken, run and complete: the state in which a taken command runs, what its completion
posts, and what entering the safe state leaves. -/

namespace Sys2Proof.Machine

open Sys2Proof

/-! ### Answers -/

theorem Answers.before {cmd : Cmd} {a b c : Nat} {s t u : State} (h : Grows s t) (k : Answers cmd a b c t u) :
    Answers cmd a b c s u := by
  obtain ⟨e, n, h1, h2, h3, h4, h5⟩ := k
  exact ⟨e, n, h1, h2, h3, h4, Sends.before h h5⟩

theorem Answers.after {cmd : Cmd} {a b c : Nat} {s t u : State} (h : Answers cmd a b c s t) (k : Grows t u) :
    Answers cmd a b c s u := by
  obtain ⟨e, n, h1, h2, h3, h4, h5⟩ := h
  exact ⟨e, n, h1, h2, h3, h4, Sends.after h5 k⟩

theorem Answers.posts {cmd : Cmd} {a b c : Nat} {s t : State} (h : Answers cmd a b c s t) : Posts cmd a s t := by
  obtain ⟨e, n, h1, h2, _, _, h5⟩ := h
  exact ⟨e, n, h1, h2, h5⟩

/-- A completion of context `c` finds space (R204). -/
def Room (s : State) (c : Nat) : Prop := (s.ctx c).cplHeld = [] ∧ (s.ctx c).cplSpace = true

theorem Room.of {s t : State} {c : Nat} (h : Room s c) (e : t.ctxs = s.ctxs) : Room t c := by
  unfold Room State.ctx at *; rw [e]; exact h

theorem CanEnd.of {s t : State} {c o : Nat} {r : Running} (h : CanEnd s c o r) (e : t.ctxs = s.ctxs) : CanEnd t c o r := by
  unfold CanEnd State.runningAt State.ctx at *; rw [e]; exact h

/-- A completion that finds space carries the TAG, the status, the epoch and DETAIL of its command. -/
theorem finish_answers {s : State} {cmd : Cmd} (h : Room s cmd.ctx.val) (op st e d : Nat) :
    Answers cmd st e d s (finish cmd op st e d s) := by
  have key : ∀ u : State, u.ctxs = s.ctxs → Grows s u →
      Answers cmd st e d s (postCompletion cmd.ctx.val (entry cmd op st e d) cmd.irq u) := by
    intro u hu hg
    have hc : u.ctx cmd.ctx.val = s.ctx cmd.ctx.val := by simp [State.ctx, hu]
    unfold postCompletion
    simp only [hc, h.1, h.2, List.isEmpty_nil, Bool.and_self, if_true]
    unfold writeCompletion
    dsimp only
    refine ⟨{ entry cmd op st e d with
      phase := ((s.ctx cmd.ctx.val).cplTail / 2 ^ ((s.ctx cmd.ctx.val).cplLog2 + 3)) % 2 == 0 },
      (s.ctx cmd.ctx.val).cplSlot, rfl, rfl, rfl, rfl, Sends.before hg ?_⟩
    rw [hc]
    split
    · exact Sends.after ⟨_, rfl, List.mem_singleton.mpr rfl⟩ (sendMsix_grows _ _ _)
    · exact ⟨_, rfl, List.mem_singleton.mpr rfl⟩
  unfold finish
  split
  · exact key _ (by simp) (raise_grows _ _ _)
  · exact key _ rfl (Grows.refl _)

theorem finish_grows (cmd : Cmd) (op st e d : Nat) (s : State) : Grows s (finish cmd op st e d s) := by
  have hp : ∀ c e q (x : State), Grows x (postCompletion c e q x) := by
    intro c e q x; unfold postCompletion; dsimp only; split
    · unfold writeCompletion; dsimp only; split
      · exact Grows.trans ⟨_, rfl⟩ (sendMsix_grows _ _ _)
      · exact ⟨_, rfl⟩
    · exact Grows.of_eq rfl
  unfold finish; split
  · exact (raise_grows _ _ _).trans (hp _ _ _ _)
  · exact hp _ _ _ _

/-- A completion that reports no rejection leaves every page alone. -/
theorem finish_pages (cmd : Cmd) (op st e d : Nat) (s : State) (h : rejects st = false) :
    (finish cmd op st e d s).pages = s.pages := by
  simp [finish, h]

theorem finishOpen_pages (cmd : Cmd) (op st e : Nat) (s : State) (h : rejects st = false) :
    (finishOpen cmd op st e s).pages = s.pages := by
  simp [finishOpen, finish, h]

/-! ### A command that is taken -/

/-- The state in which a command that is taken runs: it is read from its queue and has the next start order. -/
def begun (cmd : Cmd) (op : Nat) (s : State) : State := (dropFetched cmd op s).nextOrder.2

theorem gate_begun {s : State} {cmd : Cmd} {op : Nat} (h : Takes s cmd op) (i : Instr) (run : Nat → State → State) :
    gate i cmd op run s = run s.qmg.order (begun cmd op s) := gate_takes h i run

theorem begun_ctx (cmd : Cmd) (op : Nat) (s : State) (d : Nat) : (begun cmd op s).ctx d =
    if d = cmd.ctx.val then { s.ctx d with fetched := (s.ctx d).fetched.erase (cmd.tag, op) } else s.ctx d := by
  have : (begun cmd op s).ctx d = (dropFetched cmd op s).ctx d := rfl
  rw [this, dropFetched, State.ctx_modCtx]; split
  · subst_vars; rfl
  · rfl

/-- Of all but the contexts, only the start order counts on. -/
theorem begun_eq (cmd : Cmd) (op : Nat) (s : State) :
    begun cmd op s = { s with ctxs := (begun cmd op s).ctxs, qmg := { s.qmg with order := s.qmg.order + 1 } } := rfl

theorem begun_room {s : State} {cmd : Cmd} {op : Nat} (h : Takes s cmd op) : Room (begun cmd op s) cmd.ctx.val := by
  obtain ⟨_, _, _, _, h4, h5⟩ := h
  constructor
  · rw [begun_ctx, if_pos rfl]; exact h4
  · rw [begun_ctx, if_pos rfl]; exact h5

theorem begun_otherContexts (cmd : Cmd) (op : Nat) (s : State) : OtherContexts cmd.ctx.val s (begun cmd op s) :=
  fun d hd => by rw [begun_ctx]; simp [hd]

theorem OtherContexts.trans {c : Nat} {s t u : State} (h : OtherContexts c s t) (k : OtherContexts c t u) : OtherContexts c s u :=
  fun d hd => (k d hd).trans (h d hd)

theorem addRunning_runs (cmd : Cmd) (op o e : Nat) (s : State) : Runs cmd op (addRunning cmd op o e s) := by
  refine ⟨{ cmd := cmd, opcode := op, order := o, epoch := e }, ?_, rfl, rfl⟩
  unfold addRunning; rw [State.ctx_modCtx, if_pos rfl]; simp

/-- A running command that ends posts its completion under its own epoch. -/
theorem endRunning_answers {s : State} {c o : Nat} {r : Running} (h : CanEnd s c o r) (st d : Nat) :
    Answers r.cmd st r.epoch d s (endRunning c o st d s) := by
  obtain ⟨h1, h2, h3, h4⟩ := h
  unfold endRunning; rw [h1]
  have hR : Room (dropRunning c o s) r.cmd.ctx.val := by
    rw [h2]; unfold dropRunning
    constructor
    · rw [State.ctx_modCtx, if_pos rfl]; exact h3
    · rw [State.ctx_modCtx, if_pos rfl]; exact h4
  exact Answers.before (Grows.of_eq (by simp)) (finish_answers hR _ _ _ _)

theorem endOpen_posts {s : State} {c o : Nat} {r : Running} (h : CanEnd s c o r) (st : Nat) :
    Posts r.cmd st s (endOpen c o st s) := by
  obtain ⟨h1, h2, h3, h4⟩ := h
  unfold endOpen; rw [h1]
  have hR : Room (dropRunning c o s) r.cmd.ctx.val := by
    rw [h2]; unfold dropRunning
    constructor
    · rw [State.ctx_modCtx, if_pos rfl]; exact h3
    · rw [State.ctx_modCtx, if_pos rfl]; exact h4
  exact Posts.before (Grows.of_eq (by simp)) (finishOpen_posts hR.1 hR.2 _ _ _)

/-! ### The safe state -/

/-- The first cause of the safe state stands, and the three pins are low (R317). -/
theorem enterSafe_safe {s : State} (c : Nat) (h : s.safe.ssCause = 0) :
    (enterSafe c s).safe.ssCause = c ∧ (enterSafe c s).safe.okP = false ∧ (enterSafe c s).safe.okN = false ∧
      (enterSafe c s).safe.faultN = false := by
  unfold enterSafe
  rw [if_neg (by simp [State.inSafe, h])]
  dsimp only
  split <;> simp [report, reportAt]

/-- A fatal error enters the safe state (R389). -/
theorem fatalError_safe {s : State} (c : Nat) (h : s.safe.ssCause = 0) :
    (fatalError c s).safe.ssCause = SS.fatal ∧ PinsLow (fatalError c s) := by
  unfold fatalError
  have h' := enterSafe_safe
    (s := raise .dbg Bit.dbgFatal (s.modDbg (fun d => if d.fatal = 0 then { d with fatal := c } else d))) SS.fatal (by simpa)
  exact ⟨h'.1, fun _ => h'.2⟩

end Sys2Proof.Machine
end

