-- ==== Sys2Proof/Laws/Memory.lean ====
section
/-! SUPPORT. The two memories: a read after a write, and the canonical form, which every operation on DRAM and on a
scratchpad keeps. -/

namespace Sys2Proof.Machine

open Sys2Proof

/-! ### Canonical tables -/

/-- A table that keeps only some of its entries stays canonical. -/
theorem Tab.wf_filter {α : Type} [DecidableEq α] {d : α} {t : Tab α} (p : Nat × α → Bool) (h : Tab.wf d t = true) :
    Tab.wf d (t.filter p) = true := by
  induction t with
  | nil => rfl
  | cons q t ih =>
    have ht := ih (Tab.wf_tail h)
    have hd := Tab.wf_head h
    simp only [List.filter_cons]
    split
    · obtain ⟨k, v⟩ := q
      rw [Tab.wf_cons]
      refine ⟨hd, ?_, ht⟩
      have below : ∀ (t : Tab α) (k : Nat), Tab.wf d t = true → (∀ q ∈ t.head?, k < q.1) → ∀ q ∈ t, k < q.1 := by
        intro t
        induction t with
        | nil => intro _ _ _ q hq; cases hq
        | cons x t ih2 =>
          intro k hw hk q hq
          have hx := hk x rfl
          rcases List.mem_cons.mp hq with e | later
          · rw [e]; exact hx
          · obtain ⟨kx, vx⟩ := x
            exact Nat.lt_trans hx (ih2 kx (Tab.wf_tail hw) ((Tab.wf_cons.mp hw).2.1) q later)
      intro x hx
      exact below t k (Tab.wf_tail h) ((Tab.wf_cons.mp h).2.1) x (List.mem_filter.mp (List.mem_of_mem_head? hx)).1
    · exact ht

/-! ### DRAM -/

/-- A byte after a write of several: the byte written there, or the one before. -/
theorem get_writeDram (m : Tab Byte) (a : Nat) (bs : List Byte) (j : Nat) :
    Tab.get (writeDram m a bs) 0 j = if a ≤ j ∧ j < a + bs.length then bs[j - a]?.getD 0 else Tab.get m 0 j := by
  induction bs generalizing m a with
  | nil => simp only [writeDram, List.length_nil, Nat.add_zero]; rw [if_neg (by omega)]
  | cons b bs ih =>
    rw [writeDram, ih, Tab.get_write]
    by_cases hj : j = a
    · subst hj
      simp
    · by_cases h1 : a + 1 ≤ j ∧ j < a + 1 + bs.length
      · rw [if_pos h1, if_pos (by simp; omega)]
        have : j - a = (j - (a + 1)) + 1 := by omega
        rw [this]; simp
      · rw [if_neg h1, if_neg hj, if_neg (by simp; omega)]

theorem wf_writeDram {m : Tab Byte} (a : Nat) (bs : List Byte) (h : Tab.wf 0 m = true) : Tab.wf 0 (writeDram m a bs) = true := by
  induction bs generalizing m a with
  | nil => exact h
  | cons b bs ih => exact ih _ (Tab.wf_write h)

/-- A byte of DRAM after a store. -/
theorem dramByte_storeDram (s : State) (a : Nat) (bs : List Byte) (j : Nat) :
    (s.storeDram a bs).dramByte j = if a ≤ j ∧ j < a + bs.length then bs[j - a]?.getD 0 else s.dramByte j :=
  get_writeDram _ _ _ _

/-- What a store wrote, a read of the same place gives. -/
theorem readDram_storeDram (s : State) (a : Nat) (bs : List Byte) : (s.storeDram a bs).readDram a bs.length = bs := by
  unfold State.readDram
  apply List.ext_getElem
  · simp
  · intro i h1 h2
    simp only [List.getElem_map, List.getElem_range, dramByte_storeDram]
    rw [if_pos (by omega)]
    simp [h2]

/-- A store keeps both memories in canonical form. -/
theorem memoryWf_storeDram {s : State} (a : Nat) (bs : List Byte) (h : memoryWf s = true) : memoryWf (s.storeDram a bs) = true := by
  unfold memoryWf at *
  rw [Bool.and_eq_true] at *
  exact ⟨wf_writeDram a bs h.1, h.2⟩

/-! ### Scratchpads -/

/-- A word after a write. -/
theorem spWord_writeWord (c : CoreSt) (w j : Nat) (v : W32) :
    Tab.get (c.writeWord w v).sp 0 j = if j = w then v else Tab.get c.sp 0 j := Tab.get_write _ _ _ _

theorem wf_writeWord {c : CoreSt} (w : Nat) (v : W32) (h : Tab.wf 0 c.sp = true) : Tab.wf 0 (c.writeWord w v).sp = true :=
  Tab.wf_write h

theorem wf_poisonAt {c : CoreSt} (w : Nat) (h : Tab.wf 0 c.sp = true) : Tab.wf 0 (c.poisonAt w).sp = true := by
  show Tab.wf 0 (Tab.write c.sp 0 w poisonWord) = true
  exact Tab.wf_write h

theorem wf_clear {c : CoreSt} (h : Tab.wf 0 c.sp = true) : Tab.wf 0 c.clear.sp = true := Tab.wf_filter _ h

theorem wf_emptyRings {c : CoreSt} (h : Tab.wf 0 c.sp = true) : Tab.wf 0 c.emptyRings.sp = true := Tab.wf_filter _ h

theorem wf_putWord {c : CoreSt} (w : Nat) (v : W32) (p : Bool) (h : Tab.wf 0 c.sp = true) :
    Tab.wf 0 (c.putWord w v p).sp = true := by
  unfold CoreSt.putWord; split
  · exact wf_poisonAt w h
  · exact wf_writeWord w v h

/-- What a chain of writes keeps of each word, it keeps of all. -/
theorem wf_foldl {α : Type} {f : CoreSt → α → CoreSt} (hf : ∀ c a, Tab.wf 0 c.sp = true → Tab.wf 0 (f c a).sp = true) :
    ∀ (l : List α) (c : CoreSt), Tab.wf 0 c.sp = true → Tab.wf 0 (l.foldl f c).sp = true
  | [], _, h => h
  | a :: l, c, h => wf_foldl hf l (f c a) (hf c a h)

/-- Draining the write-port buffer keeps the scratchpad canonical. -/
theorem wf_drain {c : CoreSt} (h : Tab.wf 0 c.sp = true) : Tab.wf 0 c.drain.sp = true :=
  wf_foldl (f := fun c (e : Nat × W32 × Bool) => c.putWord e.1 e.2.1 e.2.2) (fun _ e h => wf_putWord e.1 e.2.1 e.2.2 h) c.wbuf c h

theorem wf_host {c : CoreSt} (slot part image stage : Nat) (d : StageDecl) (h : Tab.wf 0 c.sp = true) :
    Tab.wf 0 (c.host slot part image stage d).sp = true := by
  unfold CoreSt.host; dsimp only; split
  · exact h
  · exact wf_clear h

/-- Loading the resident region keeps the scratchpad canonical. -/
theorem wf_loadRegion {c : CoreSt} (r : Region) (h : Tab.wf 0 c.sp = true) : Tab.wf 0 (c.loadRegion r).sp = true :=
  wf_foldl (fun _ _ h => wf_writeWord _ _ h) _ c h

/-- The scratchpad of every core of a state in canonical form is in canonical form. -/
theorem wf_core {s : State} (n : Nat) (h : memoryWf s = true) : Tab.wf 0 (s.core n).sp = true := by
  unfold memoryWf at h
  rw [Bool.and_eq_true] at h
  have hall := List.all_eq_true.mp h.2
  unfold State.core Tab.get
  cases hf : Tab.find s.cores n with
  | none => rfl
  | some c =>
    have hm : ∀ t : Tab CoreSt, Tab.find t n = some c → (n, c) ∈ t := by
      intro t
      induction t with
      | nil => intro h; cases h
      | cons q t ih =>
        obtain ⟨k, v⟩ := q
        intro h
        simp only [Tab.find] at h
        split at h
        · rename_i hk
          cases h
          first | (subst hk; exact List.mem_cons_self) | (rw [← hk]; exact List.mem_cons_self)
        · exact List.mem_cons_of_mem _ (ih h)
    simpa using hall _ (hm _ hf)

/-- A change of one core keeps the canonical form where it keeps that of the core's scratchpad. -/
theorem memoryWf_modCore {s : State} {n : Nat} {f : CoreSt → CoreSt} (h : memoryWf s = true)
    (hf : Tab.wf 0 (f (s.core n)).sp = true) : memoryWf (s.modCore n f) = true := by
  have hins : ∀ (t : Tab CoreSt) (c : CoreSt), t.all (fun e => Tab.wf 0 e.2.sp) = true → Tab.wf 0 c.sp = true →
      (Tab.insert t n c).all (fun e => Tab.wf 0 e.2.sp) = true := by
    intro t c ht hc
    induction t with
    | nil => simp only [Tab.insert, List.all_cons, List.all_nil, Bool.and_true]; exact hc
    | cons q t ih =>
      obtain ⟨k, v⟩ := q
      simp only [List.all_cons, Bool.and_eq_true] at ht
      simp only [Tab.insert]
      split
      · simp only [List.all_cons, Bool.and_eq_true]; exact ⟨hc, ht.1, ht.2⟩
      · split
        · simp only [List.all_cons, Bool.and_eq_true]; exact ⟨hc, ht.2⟩
        · simp only [List.all_cons, Bool.and_eq_true]; exact ⟨ht.1, ih ht.2⟩
  unfold memoryWf at *
  rw [Bool.and_eq_true] at *
  exact ⟨h.1, hins _ _ h.2 hf⟩

end Sys2Proof.Machine
end

