-- ==== Sys2Proof/Tests/Slice0.lean ====
section
/-! SUPPORT. The model's own tests: an ill-formed command for each check of WellFormed, the manual's worked examples, one
step of selected commands, and a witness for every clause of the statements: a state and operands that meet its hypotheses. -/

namespace Sys2Proof.Tests

open Sys2Proof Sys2Proof.Machine Sys2Proof.Machine.Bits

/-! ### Small states -/

/-- A command of context 0. -/
def c0 : Cmd := { ctx := 0, tag := 7, irq := false }
/-- A device that is READY, with context 0 of the physical function enabled and bound to partition 0. -/
def rdy : State :=
  { State.reset with
    boot := { ready := true }, ctxs := [(0, { en := true })]
    parts := [(0, { coreQuota := 160, queueQuota := 64, poolQuota := 64 })] }
/-- A command of context 0 that runs under start order 4. -/
def run4 : Running := { cmd := c0, opcode := 1, order := 4, epoch := 9 }
/-- The same device with `run4` running. -/
def rdyRun : State := { rdy with ctxs := [(0, { en := true, running := [run4] })] }
/-- An image of one frame stage. -/
def img0 : Image := { part := 0, decl := { stages := [{ mode := .frame, units := [{ wcet := 10 }], tileTime := 10 }] }, wsums := [] }
/-- A stream of that image on core 5. -/
def st0 : Stream :=
  { ctx := 0, part := 0, cls := .none, image := 2, decl := { kind := 4 },
    place := { slots := [{ slot := 3, stage := 0, copy := 0, cores := [5] }] } }
/-- A device that has the image and, as stream 1, `st`. -/
def withStream (st : Stream) : State := { rdy with images := [(2, img0)], streams := [(1, st)] }
/-- A device once it has fetched a command of context 0 with this opcode (R203). -/
def got (op : Nat) (s : State) : State := s.modCtx 0 (fun c => { c with fetched := [(7, op)] })

/-! ### Witnesses -/

theorem witness_Machine : rdy.pending = [] ∧ PinsLow rdy ∧ memoryWf rdy = true ∧ -(2 ^ 32 : Int) ≤ rdy.tal.rate ∧
    rdy.tal.time * 2 ^ 32 + rdy.tal.frac + (4 * 2 ^ 32 + rdy.tal.rate).toNat < 2 ^ 96 ∧
    PinsLow { rdy with safe := { ssCause := 1, okP := false, okN := false, faultN := false } } ∧
    step rdy = .next (tick rdy) ∧ memoryWf { rdy with dram := [(3, 1), (7, 9)] } = true ∧ memoryWf { rdy with dram := [(3, 0)] } = false := by
  refine ⟨rfl, by unfold PinsLow; decide, by decide, by decide, by decide, by unfold PinsLow; decide, rfl, by decide, by decide⟩

theorem witness_AccountingAndBinding : Takes (got opService rdy) c0 opService ∧ (got opService rdy).isPF c0 = true ∧ ((got opService rdy).ctx 4095).en = false ∧
    (got opService rdy).hasEpoch 4095 = false ∧ ((got opService rdy).part? 0).any (·.functions.testBit 0) = true ∧ 1023 < vectorsOf 0 := by
  unfold Takes; decide

theorem witness_Partition : Takes (got opService rdy) c0 opService ∧ (got opService rdy).isPF c0 = true ∧ (got opService rdy).part? 15 = none ∧
    propsBad {} (got opService rdy) 15 { applyProps {} {} with periodAt := (got opService rdy).clock } = false ∧ ((got opService rdy).part? 0).isSome = true ∧
    (got opService rdy).partArmed 0 = false ∧ (got opService rdy).partUsed 0 = false ∧ propsBad { cls := some .triplex } (got opService rdy) 0 (applyProps { cls := some .triplex } {}) = false ∧
    ((got opService rdy).coresHeld 0).length ≤ 0 := by unfold Takes; decide

theorem witness_PartitionRemove : Takes { (got opService rdy) with parts := [(0, {}), (1, {})] } c0 opService ∧
    (({ (got opService rdy) with parts := [(0, {}), (1, {})] } : State).part? 1).isSome = true ∧
    ({ (got opService rdy) with parts := [(0, {}), (1, {})] } : State).partArmed 1 = false ∧
    ({ (got opService rdy) with parts := [(0, {}), (1, {})] } : State).partLive 1 = false := by unfold Takes; decide

/-- A settings record of type 0x0021, instance 3, generation 1, without a value. -/
def rec21 : List Byte :=
  let h := toBytes 2 0x21 ++ toBytes 2 3 ++ toBytes 4 0 ++ toBytes 4 1
  h ++ toBytes 4 (crc32c h).toNat

set_option maxRecDepth 20000 in
theorem witness_Setting : Takes { (got opService rdy) with tal := { src := 2 } } c0 opService ∧ (got opService rdy).isPF c0 = true ∧ (0 : Nat) / secNs ≤ 0 ∧
    18446744073 * secNs + 0 % secNs < 2 ^ 64 ∧ (got opService rdy).mesh.homes = [] ∧
    parseSetting rec21 = some (0x21, 3, 1, []) ∧ firmwareOwned 0x21 = false ∧ settingInRange 0x21 [] = true ∧
    (got opService (withStream { st0 with decl := { kind := 2 } })).stream? 1 = some { st0 with decl := { kind := 2 } } ∧
    (got opService (withStream { st0 with decl := { kind := 0 } })).stream? 1 = some { st0 with decl := { kind := 0 } } := by
  unfold Takes; decide

/-- An image file of one frame stage, in a format that the device accepts. -/
def file0 : ImageFile := { header := .version 3 0, crc := 5, decl := img0.decl }

theorem witness_Image : Takes (got opLoadImage rdy) c0 opLoadImage ∧ (got opLoadImage rdy).activating = false ∧ headerOk (got opLoadImage rdy).ctl file0.header = true ∧
    ((got opLoadImage rdy).hdr .ctl).inj &&& BitVec.ofNat 32 (2 ^ Bit.ctlRejected) = 0 ∧
    firstBroken (brokenRules (imageSlots ≤ (got opLoadImage rdy).images.length) ((got opLoadImage rdy).classOf ((got opLoadImage rdy).partOf 0)) file0) = none ∧
    firstBroken (brokenRules (imageSlots ≤ (got opLoadImage rdy).images.length) ((got opLoadImage rdy).classOf ((got opLoadImage rdy).partOf 0))
      { file0 with decl := { stages := [] } }) = some { stage := none, unit := none, reason := 1 } := by unfold Takes; decide

theorem witness_Unload : Takes { (got opService rdy) with images := [(2, img0)] } c0 opService ∧
    Tab.find ({ (got opService rdy) with images := [(2, img0)] } : State).images 2 = some img0 := by unfold Takes; decide

/-- A declaration block of a job stream whose records leave through the ring of the physical function. -/
def block0 : List Byte :=
  toBytes 4 1 ++ toBytes 4 4 ++ toBytes 8 0 ++ (toBytes 4 4 ++ toBytes 12 0)

/-- The ring descriptor of an ARM_STREAM. -/
def ring0 : List Byte := toBytes 4 3 ++ toBytes 4 64 ++ toBytes 56 0

/-- The declaration that `block0` gives. -/
def decl0 : StreamDecl := { kind := 4 }

set_option maxRecDepth 20000 in
theorem witness_Declare : Takes { (got opDeclareStream rdy) with images := [(2, img0)] } c0 opDeclareStream ∧
    ({ (got opDeclareStream rdy) with images := [(2, img0)] } : State).activating = false ∧
    parseBlock img0.decl block0 = some decl0 ∧ declOk (withDefaults decl0) img0.decl { (got opDeclareStream rdy) with images := [(2, img0)] } = true ∧
    declRejected (withDefaults decl0) (({ (got opDeclareStream rdy) with images := [(2, img0)] } : State).classOf 0) img0.decl = false ∧
    placeable 1 { st0 with decl := withDefaults decl0 } img0.decl { (got opDeclareStream rdy) with images := [(2, img0)] } = true ∧
    detectorFree (withDefaults decl0) { (got opDeclareStream rdy) with images := [(2, img0)] } = true := by unfold Takes; decide

set_option maxRecDepth 20000 in
theorem witness_Arm : Takes (got opArmStream (withStream st0)) c0 opArmStream ∧ (got opArmStream (withStream st0)).stream? 1 = some st0 ∧ (got opArmStream (withStream st0)).replacing 1 = false ∧
    Tab.find (got opArmStream (withStream st0)).images 2 = some img0 ∧ ringOf st0 img0.decl ring0 = some (3, 64) ∧
    (got opArmStream (withStream st0)).tooHot = false ∧ odometerFits st0.decl (got opArmStream (withStream st0)) = true ∧ safeCheck 1 st0 (got opArmStream (withStream st0)) = true ∧
    isSafety st0.cls = false ∧ (got opArmStream (withStream st0)).epochsFull = false := by unfold Takes; decide

/-- A line-scan stream of camera pair 0, armed or not. -/
def scan0 (armed : Bool) : Stream := { st0 with decl := { kind := 0, port := 12, lineBytes := 4, cpl := 2, filter := 10 }, armed := armed }
/-- A device whose stream 1 is line-scan and not armed, and whose stream 2 is line-scan and armed or not; the grid is `g`. -/
def scanning (other : Bool) (g : Option Int) : State :=
  let s := withStream (scan0 false)
  got opArmStream { s with streams := [(1, scan0 false), (2, scan0 other)], tal := { s.tal with grid := g, pos := 4, highWater := 9, odoCpl := 2 } }

set_option maxRecDepth 20000 in
theorem witness_ArmLineScan : Takes (scanning true (some 1)) c0 opArmStream ∧ (scanning true (some 1)).stream? 1 = some (scan0 false) ∧
    (scanning true (some 1)).lineStreams ≠ [] ∧ (scanning false none).lineStreams = [] ∧ (scanning true (some 1)).tal.grid = some 1 ∧
    odometerFits (scan0 false).decl (scanning true (some 1)) = true ∧ safeCheck 1 (scan0 false) (scanning true (some 1)) = true ∧
    ((scanning true (some 1)).qmg.epochs.map (·.1)).Pairwise (· < ·) ∧ (∀ k ∈ (scanning true (some 1)).qmg.epochs, k.1 < 65535) := by
  unfold Takes; decide

/-- The same stream armed. -/
def stArmed : Stream := { st0 with armed := true, epoch := 9 }
/-- The same stream while a REARM of start order 4 drains it. -/
def stRearm : Stream :=
  { stArmed with closed := true, rearm := some { order := 4, epoch := 8, firstSeq := none, rebase := [], ringLog2 := 3, ringSlot := 64 } }

theorem witness_Rearm : Takes (got opRearm (withStream stArmed)) c0 opRearm ∧ (got opRearm (withStream stArmed)).replacing 1 = false ∧
    rebaseList 1 (got opRearm (withStream stArmed)) [] = some [] ∧ (got opRearm (withStream stArmed)).epochsFull = false ∧
    NoneWaits { withStream stRearm with ctxs := rdyRun.ctxs } ∧ drained 1 stRearm { withStream stRearm with ctxs := rdyRun.ctxs } = true ∧
    CanEnd { withStream stRearm with ctxs := rdyRun.ctxs } 0 4 run4 := by unfold Takes NoneWaits CanEnd; decide

/-- A job of context 0 that is held on sample 3. -/
def job0 : Job :=
  { ctx := 0, epoch := 9, prio := 0, deadline := 0, path := 0, order := 4, adapt := false, roundSeed := 0, augSeed := 0,
    sample := 0, held := some 3, seq := 0, unitsLeft := 1 }

theorem witness_Dispatch : Takes (got opDispatch (withStream st0)) c0 opDispatch ∧ (got opDispatch (withStream st0)).stream? 1 = some st0 ∧ st0.decl.kind = 4 ∧
    admitted (got opDispatch (withStream st0)) 1 st0 7 0 = true ∧ (got opDispatch (withStream st0)).epochsFull = false ∧
    Takes (got opService (withStream { st0 with jobs := [job0] })) c0 opService ∧ (got opService (withStream { st0 with jobs := [job0] })).heldOf 0 = some (1, job0) := by
  unfold Takes; decide

/-- A device whose context 0 has a live epoch 9 that is not quiet, with `x` in the epoch's table entry. -/
def withEpoch (x : Epoch) : State :=
  { rdyRun with qmg := { epochs := [(9, x)] }, clock := 1000000, cores := [(5, { run := none })] }

theorem witness_Epochs : Takes (got opCancel (withEpoch { ctx := 0, stream := none })) c0 opCancel ∧
    Tab.find (got opCancel (withEpoch { ctx := 0, stream := none })).qmg.epochs 9 = some { ctx := 0, stream := none } ∧
    Takes (got opCancel (withEpoch { ctx := 1, stream := none })) c0 opCancel ∧
    NoneWaits (withEpoch { ctx := 0, stream := none, cancelled := true, cancels := [4] }) ∧
    quiet 9 (withEpoch { ctx := 0, stream := none, cancelled := true, cancels := [4] }) = true ∧
    CanEnd (withEpoch { ctx := 0, stream := none, cancelled := true, cancels := [4] }) 0 4 run4 ∧
    quiet 9 (withEpoch { ctx := 0, stream := none, cancelled := true, cancels := [4], outstanding := 1 }) = false ∧
    (withEpoch { ctx := 0, stream := none }).epochInUse 9 = false ∧ quiet 9 (withEpoch { ctx := 0, stream := none }) = true ∧
    (withEpoch { ctx := 0, stream := none }).completionHeld 9 = false := by
  unfold Takes NoneWaits CanEnd; decide

theorem witness_FenceAndHint : Takes (got opFence rdy) c0 opFence ∧ ((got opFence rdy).ctx 0).running = [] ∧
    Takes (got opHintPhase rdy) c0 opHintPhase ∧ (got opHintPhase rdy).hasWork 0 = false ∧
    Takes (got opHintPhase (withStream stArmed)) c0 opHintPhase ∧ (got opHintPhase (withStream stArmed)).hasWork 0 = true ∧
    Takes (got opFence (withEpoch { ctx := 0, stream := none, outstanding := 1 })) c0 opFence ∧
    quiet 9 (got opFence (withEpoch { ctx := 0, stream := none, outstanding := 1 })) = false ∧
    (({ rdy with ctxs := [(4095, { phaseUntil := some 0 })] } : State).ctx 4095).phaseUntil = some 0 := by unfold Takes; decide

theorem witness_Queries : Takes (got opQuery (withStream st0)) c0 opQuery ∧ Tab.find (got opQuery (withStream st0)).images 2 = some img0 ∧
    img0.part = (got opQuery (withStream st0)).partOf 0 ∧ (got opQuery (withStream st0)).stream? 1 = some st0 := by unfold Takes; decide

theorem witness_CoreTestAndBypass : Takes (got opService rdy) c0 opService ∧ (got opService rdy).isPF c0 = true ∧ ((got opService rdy).core 191).pool = .schedulable ∧
    ((got opService rdy).hdr (.core 191)).isolated = false ∧ (got opService rdy).ctl.tests = [] ∧ ((got opService rdy).slice 47).bypassed = false ∧ ((got opService rdy).slice 36).bypassed = false ∧
    sliceQuad 36 = sliceQuad 47 := by unfold Takes; decide

/-- A firmware image that the device accepts for each mode. -/
def fw0 : FwImage := ⟨5, 1, 0, true, true, 0x03010000, 3, true⟩
/-- A device in the middle of a firmware update. -/
def updating (st : UpdState) (mode : Nat) : State :=
  { rdyRun with
    ctl := { upd := some { ctx := 0, order := 4, mode := mode, img := fw0 } }
    dbg := { updState := st, liveCore := 7 }, clock := 500000000 }

theorem witness_FirmwareUpdate : Takes (got opService rdy) c0 opService ∧ (got opService rdy).ctl.upd = none ∧ updateReason 0 fw0 (got opService rdy) = 0 ∧ updateReason 1 fw0 (got opService rdy) = 0 ∧
    updateReason 2 fw0 (got opService rdy) = 0 ∧ NoneWaits (updating .writing 0) ∧ CanEnd (updating .writing 0) 0 4 run4 ∧
    (updating .writing 1).ctl.coreFrom 0 = some 0 ∧ (updating .activating 1).dbg.liveCore = 7 ∧
    (updating .activating 1).ctl.coreFrom 1 = some 1 ∧ (updating .activating 1).ctl.coreFrom 8 = none ∧
    (updating .activating 1).ctl.switchAt + 500000000 ≤ (updating .activating 1).clock := by unfold Takes NoneWaits CanEnd; decide

/-- A device whose page of block `b` has the header `h`. -/
def withPage (b : Block) (h : Header) : State := { rdy with pages := [(b.page, h)] }

theorem witness_Injections :
    (∀ b ∈ [Block.core 191, .shc 47, .dmc 11, .qmg, .ing 35, .tal, .ppe, .ctl, .pwr, .pce, .tlk 1],
      (withPage b { lockOpen := true }).answers b = true ∧ (withPage b { lockOpen := true }).lockOpen b = true) ∧
    injAllowed .pwr (withPage .pwr { lockOpen := true }) = true ∧
    injAllowed (.core 191) (withPage (.core 191) { lockOpen := true }) = false ∧
    injAllowed (.core 191) (withPage (.core 191) { lockOpen := true, inTest := true }) = true ∧
    bitField (rdy.core 191).injSel.toNat 8 6 ≤ 32 := by decide

theorem witness_PageHeaders : blockOfPage Block.qmg.page = some .qmg ∧ rdy.answers .qmg = true ∧
    (({ withPage .qmg { lockOpen := true } with clock := 1000000 } : State).hdr .qmg).lockAt + 1000000 ≤ 1000000 := by decide

theorem witness_Counters : rdy.answers (.core 191) = true ∧ rdy.answers (.ing 35) = true ∧ (1 : W32).getLsbD 0 = true ∧
    (withPage .pwr { lockOpen := true }).lockOpen .pwr = true ∧ rdy.lockOpen .pwr = false ∧
    (({ rdy with mons := [(63, { src := 1, en := true })] } : State).mon 63).en = true ∧
    monAvailable { src := 1, en := true } rdy = true := by decide

theorem witness_LatchingReads : rdy.selCtx 0 .ctl 0x120 = some 0 ∧ rdy.selCtx 16 .ctl 0x120 = none := by decide

/-- A well-formed descriptor of context 0 (R276). -/
def desc0 : List Byte :=
  let h := toBytes 2 10 ++ toBytes 2 0 ++ toBytes 4 7 ++ toBytes 52 0
  h ++ toBytes 4 (crc32c h).toNat

set_option maxRecDepth 40000 in
theorem witness_ContextQueues : rdy.answers .qmg = true ∧ (rdy.hdr .qmg).inj = 0 ∧ doorbellOk 0 0 1 rdy = true ∧
    newCommands 0 1 rdy = 1 ∧ descOk desc0 0 = true ∧ doorbellOk 16 0 1 rdy = false ∧ rdy.selCtx 0 .qmg 0x160 = some 0 := by decide

/-- A device whose safety island runs. -/
def safeRun : State :=
  { rdy with safe := { mode := .run, saferefOk := true, pair0Ok := true, pair1Ok := true, okP := true, faultN := true } }

theorem witness_Mailbox : safeRun.safeRuns = true ∧ safeRun.safe.mboxResult = .idle ∧ safeRun.safe.ssCause = 0 ∧
    safeRun.safetyArmed = false ∧
    ({ safeRun.safe with log := [⟨{ unit := 0, cause := 1 }, false, false⟩] } : Safe).log[(0 : Nat) % 1024]? =
      some ⟨{ unit := 0, cause := 1 }, false, false⟩ ∧
    ({ safeRun.safe with pinTest := some 0 } : Safe).pinTest = some 0 := by decide

/-- The same device with one event in SAFE's inbox. -/
def withEvent (e : FaultEv) : State := { safeRun with safe := { safeRun.safe with inbox := [e] } }

theorem witness_FaultReport : NoneWaits (withEvent { unit := 191, cause := 1, permanent := true }) ∧
    (withEvent { unit := 191, cause := 1, permanent := true }).safeRuns = true ∧
    isPermanent { unit := 191, cause := 1, permanent := true } (withEvent { unit := 191, cause := 1, permanent := true }) = true ∧
    (withEvent { unit := 0, cause := 1, phase := 1 }).safe.inbox = [{ unit := 0, cause := 1, phase := 1 }] ∧
    (withEvent { unit := 0, cause := 1, phase := 2 }).safe.inbox = [{ unit := 0, cause := 1, phase := 2 }] ∧
    isDangerous { unit := 0xC6, cause := Cause.powerLimit, cls := 2 }
      { safeRun with streams := [(1, { stArmed with cls := .simplex })] } = true := by unfold NoneWaits; decide

theorem witness_SafetyMonitors : NoneWaits safeRun ∧ 2 * 100 < 100 * (max 97 100 - min 97 100) ∧
    ¬ 2 * 100 < 100 * (max 98 100 - min 98 100) ∧ (safeRun.quad 3).isolated = false ∧ safeRun.safe.ssCause = 0 ∧
    safeRun.safe.mode = .run ∧ safeRun.safe.okP ≠ safeRun.safe.okN ∧ safeRun.safe.kicked0 = false ∧ 7 ∉ safeRun.ctl.down ∧
    Tab.get ({ safeRun with clock := 1000000 } : State).safe.kicks 0 7 + 1000000 ≤ 1000000 ∧
    ({ down := [0, 1, 2, 3, 4, 5] } : Ctl).down.length = 6 := by unfold NoneWaits; decide

theorem witness_EgressAndInvalidation : safeRun.safe.mode = .run ∧ safeRun.safeRuns = true ∧ safeRun.safe.linkUp = false ∧
    ({ safeRun with safe := { safeRun.safe with linkUp := true } } : State).safeRuns = true ∧ safeRun.safe.pinTest = none ∧
    safeRun.safe.dangerAt = none ∧ (withStream st0).stream? 1 = some st0 := by decide

theorem witness_SelfTest : (safeRun.core 191).seq = .idle ∧ (safeRun.core 191).run = none ∧ (safeRun.core 191).pool = .schedulable ∧
    (safeRun.hdr (.core 191)).isolated = false ∧ sliceFits 191 safeRun = true ∧
    NoneWaits { safeRun with cores := [(191, { seq := .test, slices := 15 })] } ∧
    (({ safeRun with cores := [(191, { seq := .test, slices := 15 })] } : State).core 191).slices = 15 ∧
    ({ withStream st0 with images := [(2, { img0 with decl := { stages := [{ mode := .strata }] } })] } : State).hostsStrata 5 = true ∧
    (safeRun.core 191).testedAt + 100 * secNs ≤ 100000000000 ∧ (safeRun.core 191).late = false := by unfold NoneWaits; decide

theorem witness_CoreSample : ({ csState := .writing } : Dbg).csState = .writing ∧ ({ csState := .kept } : Dbg).csState ≠ .writing ∧
    ({ csState := .copying } : Dbg).csState = .copying ∧ (1 : FnNum) ≠ 0 := by decide

/-- Two dies of 32 Gb on each of the twelve channels. -/
def dies0 : List ChannelDies := List.replicate 12 { density := 4, ranks := 2 }
/-- A device at a point of its boot. -/
def booting (st : BootState) : State := { State.reset with boot := { state := st } }

set_option maxRecDepth 40000 in
theorem witness_BootProceeds : (booting .powerOn).boot.state = .powerOn ∧ (booting .safeTest).allVrdy = false ∧
    (booting .image).nvm.slot false = some ⟨0, 0, 0, true, true, 0x03000000, 3, true⟩ ∧
    (booting .image).nvm.verifies ⟨0, 0, 0, true, true, 0x03000000, 3, true⟩ = true ∧
    ({ pending := some true } : Nvm).slotGood true = false ∧ ({ pending := some true } : Nvm).slotGood false = true ∧
    8 ≤ ((List.range 12).filter (fun c => (0xFF : BitVec 12).getLsbD c && ((booting .train).nvm.setting 0x0083 c).isNone &&
      diesAgree (booting .train).nvm (diesOf dies0 c))).length ∧
    160 ≤ (goodCores (booting .coreTest) (((List.finRange 192).take 32).map (·.val))).length ∧
    (booting .settings).boot.warm = 0 ∧ (booting .settings).boot.warmPending = false := by decide

set_option maxRecDepth 40000 in
theorem witness_BootStops : (booting .safeTest).boot.warmPending = false ∧
    ({ slotA := none } : Nvm).slotGood true = false ∧ ({ slotA := none } : Nvm).slotGood false = false ∧
    ((List.range 12).filter (fun c => (0x7F : BitVec 12).getLsbD c && ((booting .train).nvm.setting 0x0083 c).isNone &&
      diesAgree (booting .train).nvm (diesOf dies0 c))).length < 8 ∧
    (goodCores (booting .coreTest) (((List.finRange 192).take 33).map (·.val))).length < 160 ∧
    ((booting .safeTest).quad 3).vrdy = false ∧
    (booting .safeTest).boot.porstAt + 100000000 ≤ ({ booting .safeTest with clock := 100000000 } : State).clock ∧
    ({ stopCode := 2, loadStat := .loading } : Boot).loadStat = .loading ∧ State.reset.nvm.verifies fw0 = true ∧
    State.reset.nvm.verifies { fw0 with signatureOk := false } = false := by decide

/-- A device in the middle of a warm reset. -/
def warming (cut : Bool) : State := { rdy with boot := { state := .settings, booted := true, warm := 1, warmCut := cut }, clock := 1000000 }

theorem witness_WarmReset : ({ rdy with boot := { state := .stopped } } : State).boot.state = .stopped ∧
    (booting .train).boot.warm = 0 ∧ (booting .train).boot.state ≠ .ready ∧
    ({ autoRestart := true, fatalAt := 0 } : Boot).fatalAt + 100000000 ≤ 100000000 ∧ (warming false).boot.warm ≠ 0 ∧
    (warming false).boot.warmCut = false ∧ (warming false).nvm.slotGood false = true ∧
    (warming false).boot.warmAt + 1000000 ≤ (warming false).clock ∧
    ¬ ((warming false).safe.ssCause = SS.coolant ∧ (warming false).pwr.coolantOk = false) ∧ NoneWaits (warming true) ∧
    (warming true).boot.warmPending = false ∧ (warming false).boot.booted = true ∧
    ({ state := .stopped, stopCode := 2, warm := 1 } : Boot).booted = false ∧ State.allVrdy { rdy with
      pwr := { quads := [(0, { vrdy := true }), (1, { vrdy := true }), (2, { vrdy := true }), (3, { vrdy := true })] } } = true := by unfold NoneWaits; decide

/-- A device that is READY with quadrant 3 in the state `q`. -/
def withQuad (q : Quad) : State := { rdy with pwr := { quads := [(3, q)] }, clock := 10000000 }

theorem witness_PartialResets : NoneWaits (withQuad { isolated := true }) ∧ ((withQuad { isolated := true }).quad 3).isolated = true ∧
    (withQuad { isolated := true }).ctl.repl = none ∧
    ((withQuad { isolated := true }).quad 3).goodSince + 10000000 ≤ (withQuad { isolated := true }).clock ∧
    NoneWaits (withQuad { resetting := true }) ∧ ((withQuad { resetting := true }).quad 3).resetting = true ∧
    (withStream stArmed).stream? 1 = some stArmed ∧ Tab.find (withStream stArmed).ctxs 0 = some { en := true } := by
  unfold NoneWaits; decide

/-- A device with an armed stream `st` bound to port `p` under binding 0. -/
def onPort (p : Nat) (st : Stream) : State := { withStream { st with armed := true } with ports := [(p, { up := true, bind := [(0, 1)] })] }
/-- A stream of one camera kind. -/
def cam (kind : Nat) : Stream := { st0 with decl := { kind := kind, lineBytes := 4, lineTimeout := 1000, height := 3 } }
/-- An open frame with sequence number 0. -/
def frame0 : OpenFrame := { seq := 0 }
/-- The accepted item of that frame. -/
def item0 : Item := { seq := 0, stamp := 0 }

theorem witness_Csi : NoneWaits (onPort 0 (cam 1)) ∧ ((onPort 0 (cam 1)).hdr (.ing 0)).inj = 0 ∧
    boundStream 0 0 (onPort 0 (cam 1)) = some (1, { cam 1 with armed := true }) ∧ (onPort 0 (cam 1)).boot.ingressClosed = false ∧
    boundStream 0 0 (onPort 0 { cam 1 with frame := some frame0, items := [item0] }) =
      some (1, { cam 1 with armed := true, frame := some frame0, items := [item0] }) ∧
    supportedType 0x2A = true ∧ ({ cam 1 with items := [item0] } : Stream).item? 0 = some item0 ∧
    groupOf (onPort 0 (cam 1)) 1 = none ∧ ({ frame0 with discarded := true } : OpenFrame).discarded = true ∧ frame0.discarded = false ∧
    boundStream 0 3 (onPort 0 (cam 1)) = none := by unfold NoneWaits; decide

/-- A line that waits for its packets. -/
def line0 : PendLine := { seq := 0, trigAt := 0, begun := 1 }

theorem witness_CameraPair : NoneWaits (onPort 34 (cam 0)) ∧ ((onPort 34 (cam 0)).hdr (.ing (pairPort 11))).inj = 0 ∧
    boundStream (pairPort 11) 0 (onPort 34 { cam 0 with lines := [line0] }) = some (1, { cam 0 with armed := true, lines := [line0] }) ∧
    ({ cam 0 with lines := [line0] } : Stream).line? 0 = some line0 ∧ lineLate (cam 0) line0 1000 = false ∧
    lineLate (cam 0) line0 1001 = true ∧
    line0.begun = segmentCount (onPort 34 { cam 0 with lines := [line0] }) { cam 0 with armed := true, lines := [line0] } ∧
    0 < ((([] : List Byte).take 0 ++ [1]).take (cam 0).decl.lineBytes).length ∧
    ({ cam 0 with closed := true, rearm := some { order := 4, epoch := 8, firstSeq := none, rebase := [], ringLog2 := 3, ringSlot := 64 } } :
      Stream).rearm.any (fun r => r.boundary ≤ 0) = true ∧ ({ line0 with begun := 0 } : PendLine).begun = 0 ∧ 0 < 0 + [(1 : Byte)].length ∧
    0 < (cam 0).decl.lineBytes ∧ ({ trigger := some 7 } : CxpLine).trigger.bind (cam 0).line? = none ∧
    7 ∈ ({ cam 0 with cutLines := [7] } : Stream).cutLines ∧ 7 ∉ (cam 0).cutLines ∧
    boundStream (pairPort 11) 0 (onPort 34 (cam 2)) = some (1, { cam 2 with armed := true }) ∧
    boundStream (pairPort 11) 0 (onPort 34 { cam 2 with frame := some frame0 }) = some (1, { cam 2 with armed := true, frame := some frame0 }) ∧
    boundStream (pairPort 11) 0 rdy = none := by unfold NoneWaits; decide

/-- An empty datagram to a lidar stream. -/
def pkt0 : UdpPacket := { ok := true, srcIp := 0, dstPort := 0, payload := [] }
/-- A lidar stream whose packets are empty, so that each has index 0. -/
def lidar0 : Stream := { st0 with decl := { kind := 3, height := 2 } }

theorem witness_Lidar : NoneWaits (onPort 35 lidar0) ∧ accepted ((onPort 35 lidar0).port (lanePort 23)) pkt0 = true ∧
    accepted ((onPort 35 lidar0).port (lanePort 23)) { pkt0 with ok := false } = false ∧
    lidarStream (lanePort 23) pkt0 (onPort 35 lidar0) = some (1, { lidar0 with armed := true }) ∧
    lidarStream (lanePort 0) pkt0 (onPort 35 lidar0) = none ∧ pkt0.payload.length = lidar0.decl.lineBytes ∧
    ({ pkt0 with payload := [0] } : UdpPacket).payload.length ≠ lidar0.decl.lineBytes ∧
    (onPort 35 lidar0).boot.ingressClosed = false ∧ 1 < lidar0.decl.height ∧
    ({ frame0 with lines := [(0, [])] } : OpenFrame).lines.length + 1 ≤ lidar0.decl.height := by unfold NoneWaits; decide

theorem witness_LidarIndex : packetIndex 1 pkt0.payload < lidar0.decl.height ∧ frame0.lastIdx ≤ packetIndex 1 pkt0.payload ∧
    Tab.find frame0.lines (packetIndex 1 pkt0.payload) = none ∧ frame0.lines.length + 1 < lidar0.decl.height ∧
    (Tab.find ({ frame0 with lines := [(0, [])] } : OpenFrame).lines (packetIndex 1 pkt0.payload)).isSome = true := by
  simp [packetIndex, pkt0, lidar0, frame0, Tab.find]

/-- A message of a master on Ethernet lane 3. -/
def ptp0 (body : PtpBody) : PtpMsg := { lane := 3, domain := 0, master := { priority1 := 5 }, body := body }
/-- A device whose timebase follows PTP on lane 3. -/
def following (disc : Disc) (good : Nat) : State :=
  { rdy with
    tal := { src := 1, lane := 3, disc := disc, good := good, master := some { priority1 := 5 }, lastSync := some 0, syncRx := some 9,
             delayReq := some (0, 2000000000, 0) }
    clock := 10000000000, ports := [(lanePort 3, { type := 3 })] }

theorem witness_Timebase : (following .free 0).tal.src = 1 ∧ (ptp0 .announce).lane.val = (following .free 0).tal.lane ∧
    (following .free 0).ethernet (lanePort 3) = true ∧ rdy.ethernet (lanePort 3) = false ∧
    (ptp0 .announce).domain = (following .free 0).tal.domain ∧
    (∀ r ∈ (following .free 0).tal.master, betterMaster r (ptp0 .announce).master = false) ∧
    (∃ r ∈ (following .free 0).tal.master, betterMaster r { priority1 := 6 } = true) ∧
    (following .free 0).tal.syncRx = some 9 ∧ rdy.tal.syncRx = none ∧ rdy.tal.delayReq = none ∧
    (following .free 0).tal.delayReq = some (0, 2000000000, 0) ∧
    (-1000000000 : Int) = -(((2000000000 - 0 : Int) - (0 - 0)) / 2) ∧ (2 ^ 31 - 1 : Int) = -(((0 - 0 : Int) - (4294967294 - 0)) / 2) ∧
    (following .acquiring 7).anyArmed = false ∧ 7 ≤ (following .acquiring 7).tal.good ∧
    (following .acquiring 7).tal.time + (2 ^ 31 - 1 : Int).toNat < 2 ^ 64 ∧
    ({ src := 2, seconds := some 0, time := 1000000000 } : Tal).time ≤ (0 + 1) * 1000000000 ∧
    (0 + 1) * 1000000000 < ({ src := 2, seconds := some 0, time := 1000000000 } : Tal).time + 2 ^ 31 := by decide

theorem witness_Holdover : sourceMissing (following .locked 8) = true ∧ sourceMissing (following .free 0) = false ∧
    (following .holdover 0).tal.disc = .holdover ∧ (following .holdover 0).tal.holdAt + 10000000000 ≤ (following .holdover 0).clock := by
  decide

/-- A device with an armed line-scan stream whose grid begins at 0 with one line a count. -/
def onTrack (p : Int) (last : Option Nat) : State :=
  { withStream { cam 0 with armed := true } with
    tal := { odoEn := true, odoCpl := 1, grid := some 0, pos := p, highWater := p, lastTrig := last, odoMinPer := 1500, flagSpeed := true } }

theorem witness_Odometer : ((onTrack 0 none).hdr .tal).inj = 0 ∧ illegalStep false false true true = true ∧
    illegalStep false false true false = false ∧ (onTrack 0 none).tal.stepTo true false = 1 ∧
    (onTrack 0 none).tal.highWater < (1 : Int) ∧ ((1 : Int) - 0) % ((onTrack 0 none).tal.odoCpl : Int) = 0 ∧
    (onTrack 0 none).boot.ingressClosed = false ∧ (onTrack 0 none).tal.tooSoon = false ∧ (onTrack 0 (some 0)).tal.tooSoon = true ∧
    (onTrack 0 none).tal.stepTo false true = -1 ∧ (-1 : Int) ≤ (onTrack 0 none).tal.highWater ∧
    (onTrack (2 ^ 47 - 1) none).tal.stepTo true false = -2 ^ 47 := by decide

theorem witness_Overspeed : (∃ x ∈ (onTrack 0 (some 0)).tal.lastTrig, (onTrack 0 (some 0)).tal.time < x + (onTrack 0 (some 0)).tal.odoMinPer) ∧
    (∀ x ∈ (onTrack 0 none).tal.lastTrig, x + (onTrack 0 none).tal.odoMinPer ≤ (onTrack 0 none).tal.time) ∧
    (onTrack 0 none).tal.flagSpeed = true ∧ (onTrack 0 none).stream? 1 = some { cam 0 with armed := true } := by decide

theorem witness_Alignment : NoneWaits { rdy with tal := { groups := [(63, { w := 1, l := 10, sets := [⟨0, []⟩] })], time := 10 } } ∧
    (0 : Nat) + 10 ≤ 10 ∧ ¬ (10 : Nat) < 0 + 10 := by unfold NoneWaits; decide

/-- A vocabulary of one token. -/
def vocab0 : List (List Byte × Nat) := [([0x61], 1)]
/-- A device with a job stream whose image tokenises, and with an ingress pool of one free buffer. -/
def decoding : State :=
  { withStream { st0 with
      jobs := [{ job0 with held := none }]
      decl := { kind := 4, maxTokens := 1, maxWidth := 8, maxHeight := 8, depth := 8, comps := 1 }
      place := { st0.place with
        pools := [{ pool := 1, kind := 2, units := 2, count := 1, base := 0, metaBase := 0, consumers := 1, freeQueue := 7, ingress := true }]
        links := [{ link := 2, firstQueue := 8, firstPool := 1, perTarget := false, targets := 1, steer := .single }] } } with
    images := [(2, { img0 with decl := { img0.decl with vocab := some vocab0 } })]
    qmg := {
      pools := [(1, { kind := 2, part := 0, units := 2, count := 1, base := 0, metaBase := 0, consumers := 1, freeQueue := 7, windowCores := [], window0 := 0 })]
      links := [(2, { firstQueue := 8, firstPool := 1, perTarget := false, targets := 1, steer := .single })]
      queues := [(7, { type := .free, state := .armed, pool := 1, entries := [(0, [])] })] } }

/-- The allocation answered with a buffer. -/
def gotBuffer : AllocStep → Bool
  | .got _ _ => true
  | _ => false

theorem witness_Decoders : NoneWaits decoding ∧ (decoding.hdr .ppe).inj = 0 ∧ Tab.find decoding.ppe.decoders 3 = none ∧
    (decoding.stream? 1).bind Stream.feeding = some { job0 with held := none } ∧
    (∃ st ∈ decoding.stream? 1, ∃ j ∈ st.feeding, j.adapt = true → j.sample ≤ 0) ∧
    (decoding.stream? 1).map (fun st => headerReason decoding st { x := 8, y := 8, precision := 8, components := 1 }) = some 0 ∧
    (decoding.stream? 1).map (fun st => headerReason decoding st { x := 9, y := 8, precision := 8, components := 1 }) = some 1 ∧
    (decoding.stream? 1).bind (fun st => ingressLink decoding st 0) = Tab.find decoding.qmg.links 2 ∧
    gotBuffer (allocFrom .ppe (1, 8).1 0 decoding) = true ∧
    Tab.find ({ decoders := [(3, { stream := 1, sample := 0, handle := 0, queue := 8, len := 4 })] } : Ppe).decoders 3 = some { stream := 1, sample := 0, handle := 0, queue := 8, len := 4 } ∧
    (decoding.stream? 1).bind (vocabOf decoding) = some vocab0 ∧ (tokens vocab0 1 [0x61]).length = 1 ∧
    (tokens vocab0 2 [0x61, 0x61]).length = 2 := by unfold NoneWaits; decide

/-- A unit of stream 1 on item 0. -/
def unit0 : UnitInst :=
  { ctx := 0, part := 0, stream := 1, slot := 3, stage := 0, unit := 0, copy := 0, seq := 0, epoch := 9, wcet := 10 }
/-- A device with an armed job stream that has accepted item 0, and core 5 in the state `c`. -/
def withCore (c : CoreSt) : State :=
  { withStream { stArmed with items := [item0] } with cores := [(5, { c with slot := 3 })], clock := 1000000 }
/-- The same device with unit `u` on the core. -/
def running (u : UnitInst) : State := withCore { seq := .run, run := some u, workBase := 64, strands := 64, bundles := 1 }

theorem witness_Units : (withCore { ready := [unit0] }).mayStart 5 = true ∧
    firstUnit (((withCore { ready := [unit0] }).core 5).ready.filter (unitReady (withCore { ready := [unit0] }))) = some unit0 ∧
    startable (withCore { ready := [unit0] }) 5 unit0 = true ∧ batched (withCore { ready := [unit0] }) unit0 = none ∧
    (withCore { seq := .faulted }).mayStart 5 = false ∧ NoneWaits (running unit0) ∧ ((running unit0).core 5).run = some unit0 ∧
    (running unit0).waitOf 5 = none ∧ (running unit0).pwr.stopped = false ∧
    mustRerun (running { unit0 with owed := 1, deadline := 1000 }) { unit0 with owed := 1, deadline := 1000 } = true ∧
    ((running { unit0 with owed := 1 }).hdr (.core 5)).inj = 0 ∧ mustRerun (running unit0) unit0 = false ∧
    mayEnd (running unit0) 5 unit0 = true ∧ (running unit0).qmg.frozen = false ∧ nextUnit (running unit0) unit0 = none ∧
    (nextUnit { running unit0 with images := [(2, { img0 with decl := { stages := [{ mode := .frame, units := [{ wcet := 1 }, { wcet := 1 }] }] } })] } unit0).isSome = true := by
  unfold NoneWaits; decide

/-- The same core with a set of array 0 loaded in set A, and a transposed layer of `m` rows. -/
def transposing (m : Nat) : State :=
  { running unit0 with
    images := [(2, { img0 with decl := { stages := [{ mode := .frame, units := [{ wcet := 1 }], layers := [{ transposed := true, rowsM := m }] }] } })] }
/-- A row of the unit's kernel, from word 0 to entry 3. -/
def row0 : ArrayRow := { base := 0, row := 0, entry := 3 }
/-- The words that one load of core 5 reads, in set A from word `base`. -/
def loadReads (s : State) (base : Nat) : List (Nat × Nat) :=
  (formSet (s.core 5).drain (runDecl s 5) (runLayer s 5) 0 base 0 false false 3 0).2
/-- The geometry of the unit on core 5. -/
def form0 : RowForm := rowForm (running unit0) 5 unit0 { wcet := 10 }

theorem witness_Arrays : (running unit0).unitRuns 5 = true ∧ ((running unit0).hdr (.core 5)).inj = 0 ∧
    loadsThird ((running unit0).core 5).drain 0 0 false = false ∧
    (∀ r ∈ loadReads (running unit0) 0x7BF00, r.1 + r.2 ≤ 0x7C000) ∧ (∃ r ∈ loadReads (running unit0) 0x7BF01, 0x7C000 < r.1 + r.2) ∧
    ((rangeWords (loadReads (running unit0) 0x7BF00)).filter (fun w => (((running unit0).core 5).buffered w).isNone))[255]? = some 0x7BFFF ∧
    ((running unit0).core 5).drain.spPoison = [] ∧
    (∀ x, runLayer (transposing 31) 5 = some x → x.transposed = true → x.rowsM < 32) ∧
    (runLayer (transposing 32) 5).any (fun x => x.transposed && 32 ≤ x.rowsM) = true ∧
    (∀ r ∈ loadReads (transposing 31) 0, r.1 + r.2 ≤ 0x7C000) := by decide

theorem witness_ArrayRows : ((running unit0).core 5).run = some unit0 ∧ unitDeclOf (running unit0) unit0 = some { wcet := 10 } ∧
    (∀ g ∈ [0, 2], (rowTargets g 1).any (fun b => rowMalformed { ((running unit0).core 5).drain with gang := g } { wcet := 10 } form0 b
      (Tab.get ((running unit0).core 5).drain.fmt 0 b) { row0 with entry := 511 }) = false) ∧
    (rowTargets 0 1).any (fun b => rowMalformed ((running unit0).core 5).drain { wcet := 10 } form0 b
      (Tab.get ((running unit0).core 5).drain.fmt 0 b) { row0 with entry := 512 }) = true ∧
    (∀ o ∈ (formRow ((running unit0).core 5).drain form0 0 0 row0).operands, ∀ w, o.word? = some w → w < 0x7C000) ∧
    rowEntry { wcet := 10 } form0 0 row0 = none ∧ row0.upset = .clean ∧ row0.accOk = true ∧ ((running unit0).core 5).drain.gang = 0 ∧
    (withCore { seq := .run, run := some unit0, gang := 2 }).unitRuns 5 = true ∧
    mismatch 0 14 0x67 (disturb 0 (rowSums ((running unit0).core 5).drain { wcet := 10 } form0 0 row0) row0.fault) = false ∧
    mismatch 0 14 0x67 (disturb 0 (rowSums ((running unit0).core 5).drain { wcet := 10 } form0 0 row0) (some (32, 1))) = true ∧
    unit0.abft = false := by decide

theorem witness_IntegerChecksum : fmtFloat 10 = false ∧ fmtFloat 0 = false ∧
    (∀ r ∈ [(List.range 32).map (fun j => (j : Int))], r.length = 32) := by decide

theorem witness_Vector : (running unit0).unitRuns 5 = true ∧ pickBundle 127 [0] = some 0 ∧ pickBundle 127 [] = none ∧
    vecMalformed (vecUnit (running unit0) 5) (.fadd 0 1 2) = false ∧ readsStrand (.fadd 0 1 2) = true ∧
    vecMalformed (vecUnit (running unit0) 5) (.store 0 64) = false ∧ (vecUnit (running unit0) 5).held = false ∧
    ((running unit0).core 5).workBase ≤ 64 ∧
    ((withCore { seq := .run, run := some unit0, workBase := 64, workEnd := 65 }).core 5).unitMayWrite 64 = true ∧
    readsStrand (.accRead 0 3 511) = false ∧ readsAcc (.accRead 0 3 511) = some 3 ∧
    vecMalformed (vecUnit (running unit0) 5) (.accRead 0 3 511) = false ∧
    vecMalformed (vecUnit (running unit0) 5) .illegal = true ∧
    ((running unit0).hdr (.core 5)).inj = 0 ∧ rdy.unitRuns 5 = false := by decide

theorem witness_Supervision : unit0.overrun = false ∧ ((running unit0).core 5).run = some unit0 ∧
    unit0.startAt + unit0.wcet < (running unit0).clock ∧ (running unit0).clock ≤ ({ unit0 with startAt := 999990 } : UnitInst).startAt + 10 ∧
    NoneWaits (running unit0) ∧ isHung (running unit0) 5 unit0 = true ∧
    ({ running unit0 with qmg := { waiters := [⟨5, .window 255 1⟩] } } : State).waitOf 5 = some (.window 255 1) ∧
    ((running unit0).core 5).window 255 = {} ∧ NoneWaits (withCore { seq := .faulted, ready := [{ unit0 with record := true }] }) ∧
    ((withCore { seq := .faulted, ready := [{ unit0 with record := true }] }).core 5).seq = .faulted := by unfold NoneWaits; decide

/-- Window 7 of core 5, open for partition 0 with generation 1 and a target of 4 beats. -/
def win : Window := { base := 0, len := 64, state := .opened, gen := 1, target := 4, epoch := 9 }
/-- A device with that window. -/
def withWindow : State := withCore { windows := [(7, win)] }

theorem witness_PlaneServes (d : Nat) : (planeNow withWindow d false).isSome = true := by
  have h : ∀ p, withWindow.plane p = .up := fun _ => rfl
  simp [planeNow, planeOf, hashedPlane, h]
  exact Nat.mod_lt _ (by decide)

theorem witness_WriteGoes : writeGoes withWindow .firmware 5 7 0 false 1 0 = true ∧ writeGoes withWindow .ingress 5 7 0 false 1 0 = true := by
  have h : meshHolds withWindow 5 0 0 = false := by
    have := witness_PlaneServes (5 * 2 ^ 19 + 0)
    simpa [meshHolds, show isSafety (withWindow.classOf 0) = false from rfl] using this
  simp only [writeGoes, h]; decide

theorem witness_RemoteWrites : itemOfWindow withWindow 5 7 = none ∧ sentWords .firmware 5 7 [3] false withWindow = [3] ∧
    (sentWords .firmware 5 7 [0] true withWindow).length = 2 ∧ withWindow.unreachable 5 = false ∧ NoneWaits withWindow ∧
    refusedAt withWindow ((withWindow.core 5).window 7) 1 (writerPart withWindow .firmware ((withWindow.core 5).window 7)) 0 1 = none ∧
    refusedAt withWindow ((withWindow.core 5).window 7) 1 (writerPart withWindow .ingress ((withWindow.core 5).window 7)) 0 1 = none ∧
    (refusedAt withWindow ((withWindow.core 5).window 7) 2 (writerPart withWindow .firmware ((withWindow.core 5).window 7)) 0 1).isSome = true ∧
    ({ withWindow with pages := [(Block.page (.core 5), { isolated := true })] } : State).unreachable 5 = true ∧
    writeGoes { withWindow with mesh := { planes := (List.range 8).map (fun p => (p, .out)) } } .firmware 5 7 0 false 1 0 = false ∧
    ({ wbuf := (List.range 64).map (fun k => (8 * k, 0, false)) } : CoreSt).bufferRoom 512 1 = false := by
  unfold NoneWaits; decide

/-- The handle of the one buffer of pool 1, of generation 1 and check tag 0. -/
def h0 : W64 := ({ kind := 2, pool := 1, index := 0, gen := 1, flag := false, corrected := false, last := false, tag := 0 } : Handle).toWord
/-- That pool, whose free queue is 7. -/
def pool0 : PoolSt :=
  { kind := 2, part := 0, units := 2, count := 1, base := 0, metaBase := 0, consumers := 2, freeQueue := 7, windowCores := [], window0 := 0 }
/-- The pool, with its buffer `b`, free entries `free`, and data queue 8 to core 5, with entries `data`, in the state `s`. -/
def withPool (free data : List (W64 × List Nat)) (b : Buffer) (s : State) : State :=
  { s with
    qmg := {
      pools := [(1, pool0)], buffers := [(bufKey 1 0, b)], fanouts := [(4, [5])], waiters := s.qmg.waiters
      queues := [(7, { type := .free, state := .armed, pool := 1, entries := free }),
        (8, { type := .data, state := .armed, fanout := 4, entries := data })] } }
/-- A device whose core 5 waits on `w`. -/
def waiting (w : WaitOn) : State := { withCore {} with qmg := { waiters := [⟨5, w⟩] } }

/-- A core with a piece of one word 0 at word 8, whose status word is `w`, and which is checked by `c`. -/
def withPiece (c w : W32) : State := { withCore { sp := [(9, c), (10, w)], run := some unit0, seq := .run } with qmg := {} }

/-- A transfer of core 5 for queue 8, which the read of `h` makes. -/
def xfer0 (h : Option W64) : Xfer := { core := 5, queue := 8, epoch := 9, handle := h }
/-- A device on which it is outstanding. -/
def fetching (h : Option W64) (b : Buffer) : State :=
  let s := withPool [] [] b (withCore { seq := .run, run := some unit0, workEnd := 64 })
  { s with qmg := { s.qmg with transfers := [xfer0 h] } }

theorem witness_Transfers : NoneWaits (fetching (some h0) {}) ∧ (rdy.qmg.transfers = []) ∧
    ((fetching none {}).qmg.transfers.find? (fun x => x.core == 5 && x.queue == 8 && x.handle.isNone)).or
      ((fetching none {}).qmg.transfers.find? (fun x => x.core == 5 && x.queue == 8)) = some (xfer0 none) ∧
    (fetching none {}).qmg.fetches = [] ∧
    ({ fetching (some h0) {} with
       qmg := { (fetching (some h0) {}).qmg with epochs := [(9, { ctx := 0, stream := none, cancelled := true })] } } : State).epochCancelled
      (readEpoch (fetching (some h0) {}) 5 8 h0) = true ∧
    (fetching (some h0) {}).epochCancelled (readEpoch (fetching (some h0) {}) 5 8 h0) = false ∧
    (fetching (some h0) {}).unreachable 5 = false ∧
    ({ fetching (some h0) {} with pages := [(Block.page (.core 5), { isolated := true })] } : State).unreachable 5 = true ∧
    ((fetching (some h0) {}).core 5).bufferRoom 63 1 = true ∧ ((fetching (some h0) {}).core 5).inWorking 63 1 = true ∧
    ((fetching (some h0) {}).core 5).inWorking 64 1 = false ∧
    (ofHandle h0).gen = ((fetching (some h0) { gen := 1 }).buffer (ofHandle h0).pool (ofHandle h0).index).gen ∧
    dataBad (ofHandle h0) { checked := true } (((fetching (some h0) {}).core 5).got h0) (bytesOf []) = false ∧
    (ofHandle h0).gen ≠ ((fetching (some h0) { gen := 2 }).buffer (ofHandle h0).pool (ofHandle h0).index).gen ∧
    ((fetching (some h0) { gen := 2 }).core 5).run = some unit0 ∧
    (∀ v ∈ ((fetching (some h0) { gen := 2 }).core 5).ready, h0 ∉ v.inputs) := by
  unfold NoneWaits; decide

/-- A handle of generation 1 of a Strata slot of pool 2, and a device whose core 5 has the window of that slot, of generation 2. -/
def hs : W64 := ({ kind := 1, pool := 2, index := 0, gen := 1, flag := false, corrected := false, last := false, tag := 0 } : Handle).toWord
/-- A device on which a unit of core 5 reads that slot. -/
def reslotted : State :=
  { withCore { seq := .run, run := some { unit0 with inputs := [hs] }, windows := [(3, { base := 8, len := 3, state := .opened, gen := 2 })] } with
    qmg := { pools := [(2, { pool0 with kind := 1, windowCores := [5], window0 := 3 })] } }

theorem witness_Pieces : trailerCause 0xFFFF0000 = some none ∧ trailerCause 0xFE890176 = some (some 0x76) ∧ trailerCause 0 = none ∧
    stalePiece reslotted 5 8 = true ∧ stalePiece (withPiece 0 0) 5 8 = false ∧ (0x7C000 - 3 : Nat) + 1 + 2 ≤ 0x7C000 ∧
    NoneWaits (withPiece 0 0) ∧ ((withPiece 0 0).hdr (.core 5)).inj = 0 ∧ ((withPiece 0 0).core 5).drain.spPoison = [] ∧
    Tab.get ((withPiece 0x48674BC7 0xFFFF0000).core 5).drain.sp 0 (8 + 1) =
      crc32c (bytesOf ((List.range 1).map (fun k => Tab.get ((withPiece 0x48674BC7 0xFFFF0000).core 5).drain.sp 0 (8 + k)))) ∧
    Tab.get ((withPiece 0 0).core 5).drain.sp 0 (8 + 1) ≠
      crc32c (bytesOf ((List.range 1).map (fun k => Tab.get ((withPiece 0 0).core 5).drain.sp 0 (8 + k)))) := by
  unfold NoneWaits; decide +kernel

theorem witness_Allocate : NoneWaits (withPool [(h0, [])] [] {} rdy) ∧ agentWaits (withPool [(h0, [])] [] {} rdy) (.core 5) = false ∧
    (withPool [(h0, [])] [] {} rdy).pool? 1 = some pool0 ∧ QueueServes (withPool [(h0, [])] [] {} rdy) .ingress 7 ∧
    ((withPool [(h0, [])] [] {} rdy).queue 7).entries = [(h0, [])] ∧ ((withPool [] [] {} rdy).queue 7).entries = [] ∧
    QueueServes (withPool [] [] {} rdy) (.core 5) 7 ∧ pool0.kind ≠ 1 ∧
    (({ firstQueue := 8, firstPool := 1, perTarget := false, targets := 1, steer := .single } : Link).ends 3).1 = 1 ∧
    ([((4 : Nat), (2 : Nat), h0)].find? (fun r => r.1 == 4 && r.2.1 == 2)) = some (4, 2, h0) := by
  unfold NoneWaits QueueServes; decide

theorem witness_Return : handleGood (withPool [] [] { returns := 2 } rdy) h0 = true ∧
    (withPool [] [] { returns := 2 } rdy).pool? (ofHandle h0).pool = some pool0 ∧
    queueStands (withPool [] [] { returns := 2 } rdy) ((withPool [] [] { returns := 2 } rdy).queue pool0.freeQueue)
      (agentPart (withPool [] [] { returns := 2 } rdy) (.core 5) pool0.part) = .accept ∧
    queueStands rdy { state := .held } 0 = .wait ∧ ((withPool [] [] { returns := 2 } rdy).hdr .qmg).inj = 0 ∧
    agentWaits (withPool [] [] { returns := 2 } rdy) (.core 5) = false ∧
    handleCurrent (withPool [] [] { returns := 2 } rdy) h0 = true ∧
    (∀ k ∈ [0, 1, 2], ((withPool [] [] { returns := k } rdy).buffer (ofHandle h0).pool (ofHandle h0).index).returns = k) ∧
    rdy.safe.ssCause = 0 ∧ rdy.waitOf 5 = none ∧ runAheadFull rdy 5 = false := by decide

theorem witness_Push : NoneWaits (withPool [] [] {} rdy) ∧ agentWaits (withPool [] [] {} rdy) .firmware = false ∧
    ((withPool [] [] {} rdy).queue 8).full = false ∧ handleGood (withPool [] [] {} rdy) h0 = true ∧
    handleCurrent (withPool [] [] {} rdy) h0 = true ∧ checkedPush (withPool [] [] { checked := true } rdy) .firmware h0 = true ∧ foreignPool (withPool [] [] {} rdy) .firmware h0 = false ∧
    QueueServes (withPool [] [] {} rdy) .firmware 8 ∧
    ((withPool [] [] {} (running unit0)).core 5).run = some unit0 ∧ mayPush (withPool [] [] {} (running unit0)) 5 8 unit0 h0 = true ∧
    handleGood (checkHeld (.core 5) h0 (stampOutput unit0 h0 (withPool [] [] { checked := true } (running unit0))))
      (outHandle (checkHeld (.core 5) h0 (stampOutput unit0 h0 (withPool [] [] { checked := true } (running unit0)))) unit0 h0) = true ∧
    handleCurrent (checkHeld (.core 5) h0 (stampOutput unit0 h0 (withPool [] [] { checked := true } (running unit0))))
      (outHandle (checkHeld (.core 5) h0 (stampOutput unit0 h0 (withPool [] [] { checked := true } (running unit0)))) unit0 h0) = true ∧
    QueueServes (withPool [] [] {} (running unit0)) (.core 5) 8 := by unfold NoneWaits QueueServes; decide

theorem witness_Pop : (withPool [] [(h0, [5])] {} rdy).waitOf 5 = none ∧ runAheadFull (withPool [] [(h0, [5])] {} rdy) 5 = false ∧
    QueueServes (withPool [] [(h0, [5])] {} rdy) (.core 5) 8 ∧
    takeEntry 5 ((withPool [] [(h0, [5])] {} rdy).queue 8).entries = some (h0, []) ∧
    takeEntry 5 ((withPool [] [] {} rdy).queue 8).entries = none := by unfold QueueServes; decide

theorem witness_WaitEnd : NoneWaits (waiting (.pop 8)) ∧ (waiting (.window 3 1)).waitOf 5 = some (.window 3 1) ∧
    (withPool [] [(h0, [5])] {} (waiting (.pop 8))).waitOf 5 = some (.pop 8) ∧
    QueueServes (withPool [] [(h0, [5])] {} (waiting (.pop 8))) (.core 5) 8 ∧
    (withPool [] [] {} (waiting (.push 8 h0))).waitOf 5 = some (.push 8 h0) ∧
    handleCurrent (withPool [] [] {} (waiting (.push 8 h0))) h0 = true ∧
    ((withPool [] [] {} (waiting (.push 8 h0))).queue 8).full = false ∧
    (withPool [(h0, [])] [] {} (waiting (.alloc (.pool 1)))).waitOf 5 = some (.alloc (.pool 1)) ∧
    QueueServes (withPool [(h0, [])] [] {} (waiting (.alloc (.pool 1)))) (.core 5) 7 ∧
    (∀ x ∈ (withPool [(h0, [])] [] {} (waiting (.alloc (.pool 1)))).qmg.waiters, x.core = 5 → x.on = .alloc (.pool 1)) := by
  unfold NoneWaits QueueServes; decide

theorem witness_ReturnResumes : (withPool [] [] { returns := 1 } (waiting (.ret h0))).waitOf 5 = some (.ret h0) ∧
    ((withPool [] [] { returns := 1 } (waiting (.ret h0))).pool? (ofHandle h0).pool) = some pool0 ∧
    queueStands (withPool [] [] { returns := 1 } (waiting (.ret h0))) ((withPool [] [] { returns := 1 } (waiting (.ret h0))).queue 7)
      (agentPart (withPool [] [] { returns := 1 } (waiting (.ret h0))) (.core 5) pool0.part) = .accept ∧
    handleGood (withPool [] [] { returns := 1 } (waiting (.ret h0))) h0 = true ∧
    handleCurrent (withPool [] [] { returns := 1 } (waiting (.ret h0))) h0 = true ∧
    foreignPool (withPool [] [] {} (waiting (.push 8 h0))) (.core 5) h0 = false := by decide

/-- A device with data queue 8 in the state `q`, and context 0 in the state `c`. -/
def recovering (q : QState) (c : Ctx) : State := { rdy with ctxs := [(0, c)], qmg := { queues := [(8, { state := q })] } }
/-- A stage whose one layer waits 100 ns for a block. -/
def batchImg : Image :=
  { img0 with decl := { stages := [{ mode := .frame, units := [{ wcet := 10 }], layers := [{ batchWait := some 100 }] }] } }

theorem witness_Recovery : NoneWaits (recovering .faulted {}) ∧ ((recovering .faulted {}).queue 8).state = .faulted ∧
    ((recovering .armed {}).queue 8).state ≠ .faulted ∧ ((recovering .armed { cmdFault := true }).ctx (queueCtx 0x3F000)).cmdFault = true ∧
    ((recovering .armed {}).ctx (queueCtx 0x3E000)).cplFault = false ∧
    isOrphan (withPool [] [] { returns := 1 } rdy) 1 0 = true ∧ isOrphan (withPool [] [(h0, [5])] { returns := 1 } rdy) 1 0 = false := by
  unfold NoneWaits; decide

theorem witness_Batch : ((withCore { ready := [unit0] }).cores.filter (fun c => c.2.slot == 3)).map (·.1) = [5] ∧
    (withCore { ready := [unit0] }).mayStart 5 = true ∧
    firstUnit (((withCore { ready := [unit0] }).core 5).ready.filter (startable
      { withCore { ready := [unit0] } with images := [(2, batchImg)] } 5)) = some unit0 ∧
    (stageDeclOf { withCore { ready := [unit0] } with images := [(2, batchImg)] } unit0).bind (fun d =>
      (batchWaitOf d 0).map (fun w => (w, d.mode == .frame,
        batchDue (withCore { ready := [unit0] }) d w (columnsOf d 0) (batchOf (withCore { ready := [unit0] }) 5 unit0)))) = some (100, true, true) := by decide

theorem witness_Budget : (rdy.part? 0).isSome = true ∧
    (∀ x ∈ rdy.part? 0, rdy.clock < x.periodAt + x.period ∧ x.periodAt + x.period ≤ ({ rdy with clock := 1000000000 } : State).clock) := by decide

/-- An unflagged signature of copy `k`, whose output is the byte `b`. -/
def sigOf (k : Nat) (b : Byte) : Sig := { copy := k, sig := crc64 [b], cause := 0, corrected := false, payload := [b] }
/-- A TRIPLEX stream with item 0, whose record is voted on by unit 2. -/
def tri : Stream :=
  { stArmed with cls := .triplex, items := [{ item0 with checked := true }], place := { stArmed.place with votes := [2] } }
/-- A device with that stream, and vote unit 2 with the entries `es`; the timebase is at 5. -/
def voting (es : List VoteSeq) : State :=
  { withStream tri with qmg := { votes := [(2, { stream := some 1, held := es })] }, tal := { time := 5 } }

theorem witness_Votes : NoneWaits (voting []) ∧ ((voting []).vote 2).stream = some 1 ∧ (voting []).stream? 1 = some tri ∧
    sigUnwanted 2 tri (sigOf 0 1) 4 (voting []) = true ∧
    sigUnwanted 2 tri (sigOf 0 1) 0 (voting [{ seq := 0 }]) = false ∧ ((voting [{ seq := 0 }]).vote 2).entry? 0 = some { seq := 0 } ∧
    firstPair ([sigFlag tri 0 (sigOf 0 1)].filter (fun x => !tri.suspended.contains x.copy)) = none ∧
    allIn tri { seq := 0, sigs := [sigFlag tri 0 (sigOf 0 1)] } = false ∧
    sigUnwanted 2 tri (sigOf 1 1) 0 (voting [{ seq := 0, sigs := [sigOf 0 1] }]) = false ∧
    firstPair (([sigOf 0 1] ++ [sigFlag tri 0 (sigOf 1 1)]).filter (fun x => !tri.suspended.contains x.copy)) =
      some (sigOf 0 1, sigOf 1 1) ∧
    ((voting []).vote 2).record = true ∧ tri.item? 0 = some { item0 with checked := true } ∧
    sigUnwanted 2 tri (sigOf 2 3) 0 (voting [{ seq := 0, sigs := [sigOf 0 1, sigOf 1 1], decided := true, agreed := some (crc64 [1]) }]) = false ∧
    (∀ k < 3, computedOutput 2 k 0 [1] (voting []) = none) ∧
    computedOutput 2 0 0 [] { voting [] with
      qmg := { (voting []).qmg with shown := [{ stream := 1, copy := 0, seq := 0, payload := [1] }] } } = some ([1], []) ∧
    sigOf 0 1 = { copy := 0, sig := crc64 [1] ^^^ 0, cause := (firstFlag []).getD 0,
                  corrected := ([] : List Nat).any (fun f => flagState f == .corrected), payload := [1] } ∧
    sigFlag tri 0 (sigOf 2 3) = sigOf 2 3 ∧ votesNot (sigOf 2 3).cause = false ∧ crc64 [3] ≠ crc64 [1] := by unfold NoneWaits; decide

theorem witness_VoteTest : ({} : VoteUnit).failed = false ∧ ({} : VoteUnit).votedAt.any (fun x => rdy.clock ≤ x + 100) = false ∧
    ({ votedAt := some 0 } : VoteUnit).votedAt.any (fun x => rdy.clock ≤ x + 100) = true := by decide

/-- A record of item 0 that is ready to leave. -/
def rec0 : Rec := { stream := 1, state := .valid, cause := 0, placeEpoch := 0, seq := 0, stamp := 0, payload := [] }

theorem witness_Egress : ((withStream st0).stream? 1).bind Stream.nextOut = none ∧
    ({ stArmed with formed := [rec0] } : Stream).nextOut = some rec0 ∧ decl0.egress = 0 ∧ ({ decl0 with egress := 1 } : StreamDecl).egress ≠ 0 ∧
    ({ rdy with pce := { up := true } } : State).pce.up = true ∧ ({ rdy with pce := { up := false } } : State).pce.up = false := by decide

/-- A SIMPLEX stream with item 0. -/
def simp0 : Stream := { tri with cls := .simplex }

theorem witness_StageDeadline :
    rdy.streamIds (fun st => isSafety st.cls && st.place.slots.any (fun p => p.slot.val == 3)) = [] ∧
    (withStream simp0).streamIds (fun st => isSafety st.cls && st.place.slots.any (fun p => p.slot.val == 3)) = [1] ∧
    simp0.place.slots.find? (fun p => p.slot.val == 3) = some { slot := 3, stage := 0, copy := 0, cores := [5] } ∧
    (withStream simp0).stageOf simp0 0 = some { mode := .frame, units := [{ wcet := 10 }], tileTime := 10 } ∧
    simp0.item? 0 = some { item0 with checked := true } ∧ ({ item0 with checked := true } : Item).pushed.contains 3 = false ∧
    stageDeadlineOf simp0 { mode := .frame, units := [{ wcet := 10 }], tileTime := 10 } 0 0 < (voting []).tal.time ∧
    (withStream simp0).tal.time ≤ stageDeadlineOf simp0 { mode := .frame, units := [{ wcet := 10 }], tileTime := 10 } 0 0 ∧
    nextVotePoint (voting [{ seq := 0 }]) tri 0 = some 2 ∧ allIn tri { seq := 0, missed := [0] } = false := by decide

theorem witness_StageDeadline_waits (n : Nat) :
    ((voting [{ seq := 0 }]).core n).seq ≠ .wait ∧ (voting [{ seq := 0 }]).waitOf n = none := by
  have h : ((voting [{ seq := 0 }]).core n) = {} := rfl
  exact ⟨by rw [h]; decide, rfl⟩

/-- A device whose stream 1 on core 5 has a pending re-placement of slot 3, with core 6 spare; `r` is the running one. -/
def moving (st : Stream) (r : Option Repl) (j : JState) : State :=
  { withStream st with
    cores := [(5, { slot := 3 }), (6, { pool := .spare })], ctl := { repl := r, jState := j, jSlot := 3, pendRepl := [3] }
    pwr := { quads := [(0, { pstep := 6 })] } }
/-- The re-placement of slot 3 from core 5 to core 6. -/
def repl0 : Repl := { slot := 3, moves := [(3, [6])], old := [5], new := [6] }

theorem witness_ReplacementStart : (moving stArmed none .idle).ctl.pendRepl.contains 3 = true ∧ (moving stArmed none .idle).ctl.repl = none ∧
    (moving stArmed none .idle).activating = false ∧
    ((moving stArmed none .idle).streamIds (fun st => st.place.slots.any (fun p => p.slot.val == 3))).head? = some 1 ∧
    stArmed.place.slots.find? (fun p => p.slot.val == 3) = some { slot := 3, stage := 0, copy := 0, cores := [5] } ∧
    movesOf stArmed { slot := 3, stage := 0, copy := 0, cores := [5] } [6] = some [(3, [6])] ∧
    movesOk 1 stArmed [(3, [6])] (moving stArmed none .idle) = true ∧
    stArmed.cls = .none ∧ simp0.cls ≠ .none ∧ ({ moving simp0 none .idle with ctl := {} } : State).ctl.pendRepl.contains 3 = false ∧
    movesOf stArmed { slot := 3, stage := 0, copy := 0, cores := [5] } [7] = some [(3, [7])] ∧
    movesOk 1 stArmed [(3, [5])] (moving stArmed none .idle) = false := by decide

theorem witness_Commit : NoneWaits (moving stArmed (some repl0) .prepare) ∧ (moving stArmed (some repl0) .prepare).replStream = some 1 ∧
    (moving stArmed (some repl0) .prepare).stream? 1 = some stArmed ∧
    boundaryOk stArmed repl0 0 (moving stArmed (some repl0) .prepare) = true ∧
    boundaryOk stArmed repl0 0 { moving stArmed (some repl0) .prepare with cores := [(5, { ready := [unit0] })] } = false ∧
    safeCheck 1 (stArmed.moved repl0.moves) (moving stArmed (some repl0) .prepare) = true ∧
    safeCheck 1 (simp0.moved repl0.moves) (moving simp0 (some repl0) .prepare) = false ∧
    safeCheck 1 (simp0.moved repl0.moves) { moving simp0 (some repl0) .prepare with safe := { classes := [(0, .simplex)] } } = true ∧
    (moving simp0 (some repl0) .prepare).bedrockReady (simp0.moved repl0.moves) = true ∧
    (withStream simp0).bedrockReady (simp0.moved repl0.moves) = false := by unfold NoneWaits; decide

theorem witness_CommitHomes : streamHomes (stArmed.moved repl0.moves) (moving stArmed (some repl0) .prepare) =
    streamHomes stArmed (moving stArmed (some repl0) .prepare) := by decide

theorem witness_ReplacementDone : NoneWaits (moving stArmed (some repl0) .committed) ∧
    repl0.old.all (fun n => oldDone repl0 n (moving stArmed (some repl0) .committed)) = true ∧
    repl0.old.all (fun n => oldDone repl0 n { moving stArmed (some repl0) .committed with cores := [(5, { ready := [unit0] })] }) = false := by
  unfold NoneWaits; decide

theorem witness_Scratchpad : (rdy.hdr (.core 5)).inj = 0 ∧ (rdy.core 5).run.isSome = false ∧
    ({ wbuf := [(64, 8, true), (64, 9, false)] } : CoreSt).buffered 64 = some (9, false) ∧
    ({ wbuf := [(64, 9, true)] } : CoreSt).buffered 64 = some (9, true) ∧ ({} : CoreSt).buffered 64 = none ∧ 64 ∉ ({} : CoreSt).spPoison ∧
    64 ∈ ({ spPoison := [64] } : CoreSt).spPoison ∧ ((running unit0).core 5).run ≠ none ∧ (running unit0).pwr.stopped = false ∧
    ((running unit0).core 5).unitMayWrite 64 = true ∧ ((running unit0).core 5).unitMayWrite 63 = false ∧
    ((running unit0).core 5).unitMayWrite 0x7BFFF = true ∧ ((running unit0).core 5).unitMayWrite 0x7C000 = false := by decide

theorem witness_RowRepair : ({ seq := .run } : CoreSt).seq ∉ [Seq.test, .idle, .faulted] ∧ ({} : CoreSt).seq ∈ [Seq.test, .idle, .faulted] ∧
    rowNeedsRepair {} 0 0 = false ∧ rowNeedsRepair { corrWords := [(0, 2)] } 0 0 = true ∧
    rowNeedsRepair { corrWords := [(0, 1), (64, 1)] } 0 0 = true ∧ Tab.get ({} : CoreSt).spareRows 0 0 < 8 ∧
    8 ≤ Tab.get ({ spareRows := [(0, 8)] } : CoreSt).spareRows 0 0 ∧ (∀ w ∈ rowWords 0 0, w ∉ ({} : CoreSt).badWords) := by decide

/-- A device with channel 0 active, and home slice 0 with the lines `ls`. -/
def withMem (ls : Tab CacheLine) : State := { rdy with dmcs := [(0, { mode := .active })], slices := [(0, { lines := ls })] }
/-- DRAM line 0 in the cache. -/
def cached0 : CacheLine := { line := 0, dirty := false, data := List.replicate 64 1 }
/-- The same device with a home-map entry that keeps no line of the first 64 KiB. -/
def withNoAllocate : State :=
  { withMem [] with mesh := { homes := [(0, { mode := .noAllocate, target := 0, length := 1, base := 0 })] } }

theorem witness_Memory : (withMem []).pwr.retention = false ∧ 0 < (withMem []).dramSize ∧ ((withMem []).hdr .pce).inj = 0 ∧
    ((withMem []).hdr (.shc ((withMem []).home 0).1)).inj = 0 ∧ ((withMem []).hdr (.shc ((withMem []).home 0).1)).isolated = false ∧
    (({ withMem [] with pages := [(Block.page (.shc 0), { isolated := true })] } : State).hdr (.shc 0)).isolated = true ∧ ((withMem []).hdr (.dmc ((withMem []).chanOf 0))).inj = 0 ∧
    ((withMem []).slice ((withMem []).home 0).1).wayOf 0 = none ∧ (withNoAllocate.home 0).2 = false ∧
    (withNoAllocate.slice (withNoAllocate.home 0).1).wayOf 0 = none ∧ ((withMem []).home 0).2 = true ∧
    (((withMem []).part? 0).map (·.wayMask)).getD 0 % 65536 = 0 ∧
    ((({ withMem [] with parts := [(0, { wayMask := 3 })] } : State).part? 0).map (·.wayMask)).getD 0 % 65536 ≠ 0 ∧ 0 / 64 ∉ (withMem []).dramPoison ∧
    (List.replicate 64 (0 : Byte)).length = 64 ∧ (withMem []).dramSize < 2 ^ 38 ∧
    ({ withMem [] with pwr := { retention := true } } : State).pwr.retention = true ∧
    ({ withMem [] with dramPoison := [0] } : State).dramPoison = [0] ∧
    rowKey (withMem []) 0 ∉ ((withMem []).dmc ((withMem []).chanOf 0)).corrRows ∧
    rowKey (withMem []) 0 ∈ ({ corrRows := [rowKey (withMem []) 0] } : Dmc).corrRows := by decide

theorem witness_Hit :
    ((withMem [(Machine.setOf 0 * 16, cached0)]).slice ((withMem []).home 0).1).wayOf 0 = some 0 ∧
    Tab.find ((withMem [(Machine.setOf 0 * 16, cached0)]).slice ((withMem []).home 0).1).lines (Machine.setOf 0 * 16 + 0) = some cached0 := by
  have h : (withMem [(Machine.setOf 0 * 16, cached0)]).slice ((withMem []).home 0).1 = { lines := [(Machine.setOf 0 * 16, cached0)] } := by rfl
  have r : List.range 16 = [0, 1, 2, 3, 4, 5, 6, 7, 8, 9, 10, 11, 12, 13, 14, 15] := by decide
  rw [h]
  simp [Slice.wayOf, Tab.find, r, cached0]

theorem witness_DirtyCopy :
    ((withMem [(Machine.setOf 0 * 16, { cached0 with dirty := true })]).slice ((withMem []).home 0).1).wayOf 0 = some 0 ∧
    ({ cached0 with dirty := true } : CacheLine).data.length = 64 := by
  have h : (withMem [(Machine.setOf 0 * 16, { cached0 with dirty := true })]).slice ((withMem []).home 0).1 =
      { lines := [(Machine.setOf 0 * 16, { cached0 with dirty := true })] } := by rfl
  have r : List.range 16 = [0, 1, 2, 3, 4, 5, 6, 7, 8, 9, 10, 11, 12, 13, 14, 15] := by decide
  rw [h]
  simp [Slice.wayOf, Tab.find, r, cached0]

theorem witness_DramGoes : dramHeld (withMem []) 0 = false ∧
    dramHeld { withMem [] with mesh := { planes := (List.range 8).map (fun p => (p, .out)) } } 0 = true := by
  have h : ∀ p, (withMem []).plane p = .up := fun _ => rfl
  refine ⟨?_, by decide⟩
  simp [dramHeld, planeNow, planeOf, hashedPlane, h]
  exact Nat.mod_lt _ (by decide)

theorem witness_Mesh : rdy.plane 3 = .up ∧ Tab.get rdy.mesh.spares 0 (laneKey 3 7) < 4 ∧
    4 ≤ Tab.get ({ spares := [(laneKey 3 7, 4)] } : Mesh).spares 0 (laneKey 3 7) ∧
    ({ rdy with mesh := { planes := [(3, .steering)] } } : State).plane 3 = .steering ∧
    ({ rdy with mesh := { planes := [(3, .draining)] } } : State).plane 3 = .draining ∧
    ({ rdy with mesh := { planes := [(1, .out), (2, .draining)] } } : State).planesOut = 2 ∧ rdy.planesOut < 2 ∧
    rdy.lanesSpent 3 = false ∧ ({ rdy with mesh := { spares := [(laneKey 3 7, 4)] } } : State).lanesSpent 3 = true ∧
    rdy.safe.ssCause = 0 ∧ (rdy.part? 0).isSome = true := by decide

/-- A Ternlink port that is up and opens bytes 0 to 4095 of DRAM to partition 0. -/
def port0 : Tlk := { up := true, version := 3, lanes := 8, apertures := [(1, (0, 0, 4095))] }

theorem witness_Ternlink : commonVersion 4 9 = none ∧ commonVersion 1 2 = some 2 ∧ commonVersion 2 3 = some 3 ∧
    (rdy.tlk 0).up = false ∧ ({ rdy with tlks := [(0, port0)] } : State).tlk 0 = port0 ∧ 5 % 2 ^ 24 ≠ port0.peerFw ∧
    port0.steering = false ∧ ({ port0 with steering := true } : Tlk).steering = true ∧ (rdy.hdr (.tlk 0)).inj = 0 ∧
    apertureOk port0 1 0 4032 64 = true ∧ apertureOk port0 1 0 4033 64 = false ∧ apertureOk port0 1 2 0 64 = false ∧
    port0.failed = [] ∧ ({ port0 with failed := [3] } : Tlk).failed.length = 1 ∧
    2 ≤ ({ port0 with failed := [3, 8] } : Tlk).failed.length := by decide

/-- A device at 1 ms with quadrant 3 in the state `q`. -/
def powered (q : Quad) : State := { rdy with pwr := { quads := [(3, q)] }, clock := 1000000 }
/-- An upward change to step 7 that was ordered at `at`. -/
def upTo (since : Nat) : StepChange := { target := 7, up := true, since := since }

theorem witness_Steps : NoneWaits (powered {}) ∧ ((powered {}).quad 3).change = none ∧ (powered {}).freeQuads ≠ [] ∧
    ((powered { bedrock := true }).quad 3).bedrock = true ∧
    ((powered { change := some (upTo 0), target := 7, vrdy := true }).quad 3).change = some (upTo 0) ∧
    ((powered { change := some (upTo 0), target := 7, vrdy := true }).quad 3).vrdy = true ∧ (upTo 0).noAck = false ∧
    ((powered { change := some (upTo 0), target := 7, vrdy := true }).quad 3).target = (upTo 0).target ∧
    ((powered { change := some (upTo 0), target := 4 }).quad 3).target ≠ (upTo 0).target ∧
    ({ upTo 0 with up := false } : StepChange).up = false ∧ ({ upTo 0 with noAck := true } : StepChange).noAck = true ∧
    (powered {}).clock < (upTo 900000).since + 200000 ∧ (upTo 800000).since + 200000 ≤ (powered {}).clock ∧
    ({ hint := some 2 } : Ctx).hint = some 2 := by unfold NoneWaits; decide

theorem witness_Sensors : (rdy.hdr .pwr).inj = 0 ∧ rdy.gradeBound < 921 ∧ 920 ≤ rdy.gradeBound ∧
    rdy.pwr.overGrade = false ∧ ({ coolSince := some 0 } : Pwr).coolSince.any (fun x => x + 10000000 ≤ 10000000) = true ∧
    ({ coolSince := some 1 } : Pwr).coolSince.any (fun x => x + 10000000 ≤ 10000000) = false ∧
    ({ overGrade := true } : Pwr).overGrade = true := by decide

theorem witness_SensorsGood : sensorBad 0 (-401) rdy = true ∧ sensorBad 0 (-400) rdy = false ∧ sensorBad 0 1200 rdy = false ∧
    sensorBad 0 1201 rdy = true ∧ sensorBad 0 841 rdy = false := by
  simp [sensorBad, rdy, State.reset]

theorem witness_PowerStops : rdy.safe.ssCause = 0 ∧ { rdy.safe with ssCause := 1 }.ssCause ≠ 0 ∧ rdy.pwr.limitActive = false ∧
    ({ limitActive := true } : Pwr).limitActive = true ∧ rdy.pwr.stopped = false ∧
    ({ stopped := true } : Pwr).stopped = true ∧ ({ stopped := true } : Pwr).retention = false ∧
    ({ stopped := true, retention := true } : Pwr).retention = true ∧ NoneWaits (powered {}) ∧ (powered {}).boot.ready = true ∧
    ((powered { change := some (upTo 0) }).quad 3).change.isSome = true ∧ ((powered {}).quad 3).change = none ∧
    ((powered {}).quad 3).isolated = false ∧ (powered {}).streamsInQuad 3 = [] ∧
    (withStream stArmed).stream? 1 = some stArmed := by unfold NoneWaits; decide

/-! ### The manual's worked examples -/

/-- The nine ASCII bytes "123456789". -/
def digits : List Byte := [0x31, 0x32, 0x33, 0x34, 0x35, 0x36, 0x37, 0x38, 0x39]

/-- R229: the check value over the nine digits. -/
theorem test_crc32c : crc32c digits = 0xE3069283 := by decide +kernel

/-- R305: the signature over the nine digits. -/
theorem test_crc64 : crc64 digits = 0x6C40DF5F0B497347 := by decide +kernel

/-- The generator's output with every counter and key word 0 (sensor ingress, "Counter-based generators"). -/
theorem test_generator : gen 0 0 0 0 0 = 0x6627E8D5 := by decide +kernel

/-- The vocabulary of the maintenance query. -/
def queryVocab : List (List Byte × Nat) :=
  (List.range 256).map (fun n => ([BitVec.ofNat 8 n], n)) ++
  [([0x77, 0x6F, 0x72], 256), ([0x77, 0x6F, 0x72, 0x6E], 257), ([0x20, 0x64, 0x72, 0x6F, 0x70], 258),
    ([0x20, 0x64, 0x72, 0x6F, 0x70, 0x70, 0x65, 0x72], 259), ([0x20, 0x6B, 0x6D], 260), ([0x20, 0x31], 261),
    ([0x31, 0x33], 262), ([0x31, 0x33, 0x32], 263)]

set_option maxRecDepth 40000 in
/-- The maintenance query "worn dropper, km 132" (R244). -/
theorem test_tokens : tokens queryVocab 20
    [0x77, 0x6F, 0x72, 0x6E, 0x20, 0x64, 0x72, 0x6F, 0x70, 0x70, 0x65, 0x72, 0x2C, 0x20, 0x6B, 0x6D, 0x20, 0x31, 0x33, 0x32] =
      [257, 259, 44, 260, 261, 51, 50] := by decide

/-- The worked example of R157: device address 0x100_1234_5600 with 12 channels. -/
theorem test_dram_line : dramLoc 12 0x12345600 = { channel := 6, sub := 0, page := 3314, line := 0, bank := 13, row := 207 } := by decide

/-- The worked example of R119: 350 in the accumulator of a UINT8 row, INT8 output 9. -/
theorem test_requant : Fp.requant 350 { za := 128, wsum := 2, sa := 0x3D800000, sw := 0x3C000000, bias := 0x3E800000, loC := 0xFF800000, hiC := 0x7F800000, r := 0x42000000, out := .int8 } = 9 := by decide

/-- The worked example of R114: the scale of a row of four values, and the four INT8 codes. -/
theorem test_row_scale :
    (Fp.rowScale .int8 [0x3E978000, 0xBFC00000, 0x40400000, 0x3F000000]).s = 0x3CC18306 ∧
    [0x3E978000, 0xBFC00000, 0x40400000, 0x3F000000].map (fun y =>
      Fp.convert32 (Fp.mul32 y (Fp.rowScale .int8 [0x3E978000, 0xBFC00000, 0x40400000, 0x3F000000]).r) .int8 0) =
        [13, Fp.intCode 8 (-64), 127, 21] := by decide

/-- The worked INT16 products of R50: 1,000 × −300 in its four passes. -/
theorem test_int16_passes :
    columnSum 9 ([0x03E8].map (actOperand 9 0)) [[weightOperand 9 false false 0xFED4]] 0 = -6 ∧
    columnSum 9 ([0x03E8].map (actOperand 9 1)) [[weightOperand 9 false false 0xFED4]] 0 = -464 ∧
    columnSum 9 ([0x03E8].map (actOperand 9 2)) [[weightOperand 9 true false 0xFED4]] 0 = 636 ∧
    columnSum 9 ([0x03E8].map (actOperand 9 3)) [[weightOperand 9 true false 0xFED4]] 0 = 49184 := by decide

/-- The worked complex products of R50: (3 + 4i)(2 − 5i) in its three passes. -/
theorem test_complex_passes :
    columnSum 10 ([0x0403].map (actOperand 10 0)) [[weightOperand 10 false false 0xFB02]] 0 = 14 ∧
    columnSum 10 ([0x0403].map (actOperand 10 1)) [[weightOperand 10 true false 0xFB02]] 0 = -21 ∧
    columnSum 10 ([0x0403].map (actOperand 10 2)) [[weightOperand 10 false true 0xFB02]] 0 = -12 := by decide

/-- The worked BF16 product of R50: 1.5 × 1.4140625 in its two passes, 33,792 and 960 in units of 2^−14. -/
theorem test_bf16_passes :
    columnSum 8 ([0x3FC0].map (actOperand 8 0)) [[weightOperand 8 false false 0x3FB5]] 0 = 0x40040000 ∧
    columnSum 8 ([0x3FC0].map (actOperand 8 1)) [[weightOperand 8 true false 0x3FB5]] 0 = 0x3D700000 := by decide

/-- R11: quadrant, row, column and mesh stop of the last core, and the stop of the first. -/
theorem test_floorplan : coreQuad 191 = 3 ∧ coreRow 191 = 5 ∧ coreCol 191 = 7 ∧ coreStop 0 = 0 ∧ coreStop 191 = 15 + 16 * 11 := by decide

/-- The five-pixel line of R76's worked example. -/
def tapLine : RowForm :=
  { layer := { kw := 3, pw := 1, cin := 1 }, flat := false, strata := false, fmt := 0, width := 5, height := 1, left := 0, top := 0,
    cols := 5, chans := 1, ring := 0, ringLine := 0, lines := 0 }

/-- The worked example of R76: the rows S_0, S_1 and S_2 of a three-tap line, with padding at both ends. -/
theorem test_three_taps :
    (List.range 5).map (fun x => (List.range 3).map (fun tap =>
      actOperand 0 0 ((((tapLine.operands 0 0 x 0 tap 0).map (Operand.read 8 0 [(0, 0x0003FF02), (1, 1)]))[0]?).getD 9))) =
        [[0, 2, -1], [2, -1, 3], [-1, 3, 0], [3, 0, 1], [0, 1, 0]] := by decide

/-! ### WellFormed: each check refuses a term that breaks it -/

/-- A firmware image that breaks no rule. -/
def fwGood : FwImage :=
  { crc := 0, svn := 63, keyIndex := 3, keyDigestOk := true, signatureOk := true, release := 0, fmtMajor := 3, sameSafe := true }
/-- `n` bytes of 0. -/
def zeros (n : Nat) : List Byte := List.replicate n 0

/-- Commands at the ends of their ranges are well formed. -/
theorem test_wf_admits :
    [Instr.loadImage c0 64 0 file0, .armStream c0 65535 (some (2 ^ 64 - 1)) true (zeros 64), .rearm c0 0 none [zeros 24] (zeros 64),
      .fence c0 65535, .epochQuiet 65534, .settingsWrite c0 (zeros 16), .sliceBypass c0 0 [1], .fwUpdateStage c0 (2 ^ 26) 0 fwGood,
      .qmgDoorbell 0 0 1 [zeros 64], .lockTimeout 8191, .registerWrite 0 0x1FFFFFFC 0, .pcieLinkUp 5 16 512,
      .csi2LongPacket 0 0 .clean 63 true [], .weightSetLoad 0 0 false { base := 524287 },
      .remoteWrite .firmware 0 0 1 15 ⟨[0], [0], false⟩, .remoteWrite .firmware 0 0 1 14 ⟨[0, 0], [], true⟩, .bootTrainDone ⟨0xFFF, dies0⟩,
      .dmcAccess 0 (.writePart 63 [0]) .clean 0 0, .ternlinkTraining 0 2 3 7 0].all Instr.wf = true := by decide

/-- Each check on a command of a context refuses a term. -/
theorem test_wf_refuses_service :
    [Instr.loadImage c0 63 0 file0, .loadImage c0 (2 ^ 30 + 1) 0 file0, .declareStream c0 65536 0 (zeros 16) 0 none,
      .declareStream c0 0 65536 (zeros 16) 0 none, .declareStream c0 0 0 (zeros 24) 0 none, .declareStream c0 0 0 [] 0 none,
      .armStream c0 65536 none true (zeros 64), .armStream c0 0 (some (2 ^ 64)) true (zeros 64), .armStream c0 0 none true (zeros 63),
      .rearm c0 65536 none [] (zeros 64), .rearm c0 0 (some (2 ^ 64)) [] (zeros 64), .rearm c0 0 none [zeros 23] (zeros 64),
      .rearm c0 0 none [] (zeros 65), .rearmDrained 65536, .dispatch c0 65536 0 false 0 0 0 0 0 0, .fence c0 65536,
      .hintPhase c0 0 (2 ^ 32), .cancel c0 65536, .epochQuiet 65535, .cancelTimeout 65535, .epochNumberFreed 65535].all
        (fun i => !i.wf) = true := by decide

/-- Each check on a query, a partition, an image or a register refuses a term. -/
theorem test_wf_refuses_registers :
    [Instr.queryPlacement c0 (2 ^ 32), .queryImageSummary c0 65536 0, .queryImageSummary c0 0 (2 ^ 32), .queryStreamState c0 65536 0,
      .queryStreamState c0 0 (2 ^ 32), .queryAccounting c0 (2 ^ 32), .queryFaultRecords c0 (2 ^ 32), .querySpares c0 (2 ^ 32),
      .partitionCreate c0 1 { wayMask := some 65536 }, .partitionChange c0 1 { functions := some (2 ^ 17) },
      .contextBind c0 0 0 0 65536, .unload c0 65536, .sliceBypass c0 0 [], .settingsWrite c0 (zeros 15), .settingsWrite c0 (zeros 24),
      .cameraRegRead c0 65536 0 0, .cameraRegWrite c0 65536 0 0, .timeSeconds c0 (2 ^ 48), .fwUpdateStage c0 (2 ^ 26 + 1) 0 fwGood,
      .fwUpdateNextReset c0 64 0 { fwGood with svn := 64 }, .fwUpdateLive c0 64 0 { fwGood with keyIndex := 4 },
      .bootLoadDone { fwGood with svn := 64 }, .qmgDoorbell 0 0 1 [zeros 63], .lockKeyWrite 0 8192 0, .lockTimeout 8192,
      .errStatClear 0 8192 0, .registerWrite 0 0x20000000 0, .registerWrite 0 2 0].all (fun i => !i.wf) = true := by decide

/-- Each check on a link, a sensor, a core, a queue or a memory refuses a term. -/
theorem test_wf_refuses_events :
    [Instr.hostDramAccess (2 ^ 38) .read .clean .clean .clean, .hostDramAccess 32 .read .clean .clean .clean, .pcieLinkUp 0 1 128,
      .pcieLinkUp 6 1 128, .pcieLinkUp 1 3 128, .pcieLinkUp 1 1 64, .csi2LongPacket 0 0 .clean 64 true [],
      .csi2FrameEnd 0 0 .clean [zeros 31], .lidarPacket 0 { ok := true, srcIp := 2 ^ 32, dstPort := 0, payload := [] },
      .lidarPacket 0 { ok := true, srcIp := 0, dstPort := 65536, payload := [] },
      .jlsDecode 0 0 (2 ^ 32) { x := 1, y := 1, precision := 8, components := 1 }, .tokenise 0 (2 ^ 32) [],
      .unitStart 0 [zeros 33], .weightSetLoad 0 0 false { base := 524288 },
      .arrayRowVerdict 0 0 { base := 524288, row := 0, entry := 0 }, .arrayRowVerdict 0 0 { base := 0, row := 0, entry := 512 },
      .arrayRowVerdict 0 0 { base := 0, row := 0, entry := 0, fault := some (33, 1) }, .bootTrainDone ⟨0, []⟩,
      .bootTrainDone ⟨0, (List.replicate 12 { density := 0, ranks := 1 })⟩, .bootTrainDone ⟨0, (List.replicate 12 { density := 5, ranks := 1 })⟩,
      .bootTrainDone ⟨0, (List.replicate 12 { density := 4, ranks := 0 })⟩, .bootTrainDone ⟨0, (List.replicate 12 { density := 4, ranks := 3 })⟩,
      .vectorIssue 0 [] .illegal { parityOk := true }, .scratchpadAccess 0 (.read 524288) .clean, .scratchpadAccess 0 (.unitWrite 524288 0) .clean,
      .scratchpadAccess 0 (.fwWrite 524288 0) .clean, .transferComplete 0 0 (.read 0 0 (List.replicate 65 0) []),
      .remoteWrite .firmware 0 0 1 524288 ⟨[0], [], false⟩, .remoteWrite .firmware 0 0 1 0 ⟨[], [], false⟩,
      .remoteWrite .firmware 0 0 1 15 ⟨[0, 0], [], false⟩, .remoteWrite .firmware 0 0 1 0 ⟨[0], [1], false⟩,
      .remoteWrite .firmware 0 0 1 0 ⟨[0], [], true⟩, .remoteWrite .firmware 0 0 1 7 ⟨[0, 0], [], true⟩, .orphanReconcile 4096, .recordEgress 65536, .replacementStart 0 [],
      .replacementStart 0 (List.replicate 65 0), .scratchpadScrub 0 524288 .clean,
      .shcAccess 0 0 (2 ^ 38) .read .clean .clean none .clean, .shcAccess 0 0 32 .read .clean .clean none .clean,
      .shcAccess 0 0 0 (.writeLine []) .clean .clean none .clean, .dmcAccess (2 ^ 38) .read .clean 0 0, .dmcAccess 1 .read .clean 0 0,
      .dmcAccess 0 (.writePart 63 [0, 0]) .clean 0 0, .dmcAccess 0 (.writePart 0 []) .clean 0 0, .patrolScrub (2 ^ 38) .clean false,
      .patrolScrub 1 .clean false, .ternlinkTraining 0 3 2 0 0, .ternlinkTraining 0 2 256 0 0, .ternlinkTraining 0 2 3 8 0,
      .ternlinkTraining 0 2 3 0 (2 ^ 24), .ternlinkFlit 0 true 0 0 (2 ^ 38) [], .ternlinkFlit 0 true 0 0 0 (zeros 257),
      .ternlinkFwMessage 0 (2 ^ 24)].all (fun i => !i.wf) = true := by decide +kernel

/-- The upper bounds on the length of a block, a settings record and an input. -/
theorem test_wf_refuses_long : [Instr.declareStream c0 0 0 (zeros 4112) 0 none, .settingsWrite c0 (zeros 4112), .tokenise 0 0 (zeros 4097)].all
    (fun i => !i.wf) = true := by decide +kernel

/-- No row of the table gives bits, so no word spells a command (log entry 2). -/
theorem test_no_words : decodeTableWord 32 0 = none ∧ rdy.withFetchWord 32 0 = rdy := by decide

/-! ### One step of selected commands -/

/-- The state that a step answers. -/
def after (o : Host.Outcome State Fault Refusal) : Option State :=
  match o with
  | .next t => some t
  | _ => none

/-- A step takes the front command and leaves the rest of the queue. -/
theorem test_step_takes_front : (after (step { rdy with pending := [.coolant, .pwrLimit] })).map (fun t => (t.pending, t.pwr.coolantOk)) =
    some ([.pwrLimit], false) := by decide

/-- An empty queue advances the timebase by 4 ns. -/
theorem test_idle_step : (after (step rdy)).map (fun t => (t.clock, t.tal.time)) = some (4, 4) := by decide

/-- R134, R135: a full beat that reaches the target of a window closes it, and the generation before is refused. -/
theorem test_window : beatCount 0 8 = 1 ∧ (({ win with target := 1 } : Window).count (beatCount 0 8) false).state = .closed ∧
    (({ win with target := 1 } : Window).count (beatCount 0 8) false).arrived = 1 ∧ writeRefused win 1 0 0 1 = none ∧
    (writeRefused win 2 0 0 1).isSome = true := by decide

end Sys2Proof.Tests
end

/-! What the host writes to the common header of a register page (R432 to R435): which operation each write comes to,
and that it changes page headers, what is sent and MSI-X pending bits alone. -/

namespace Sys2Proof.Machine

open Sys2Proof

/-! ### What an error flag and its interrupt may change (R435) -/

theorem PageFrame.refl (s : State) : PageFrame s s := rfl

theorem PageFrame.trans {s t u : State} (h : PageFrame s t) (k : PageFrame t u) : PageFrame s u := by
  unfold PageFrame at *
  rw [k, h]

theorem modHdr_pageFrame (b : Block) (f : Header → Header) (s : State) : PageFrame s (s.modHdr b f) := rfl

theorem sendMsix_pageFrame (fn vec : Nat) (s : State) : PageFrame s (sendMsix fn vec s) := by
  unfold sendMsix
  split
  · rfl
  · rfl

theorem raiseInt_pageFrame (b : Block) (bits : BitVec 2) (s : State) : PageFrame s (raiseInt b bits s) := by
  unfold raiseInt
  dsimp only
  split
  · exact (modHdr_pageFrame b _ s).trans (sendMsix_pageFrame 0 _ _)
  · exact modHdr_pageFrame b _ s

theorem raiseAt_pageFrame (b : Block) (bit addr : Nat) (who : Option (Nat × Nat)) (s : State) :
    PageFrame s (raiseAt b bit addr who s) := by
  unfold raiseAt
  dsimp only
  split
  · exact (modHdr_pageFrame b _ s).trans (raiseInt_pageFrame b 1 _)
  · exact modHdr_pageFrame b _ s

theorem raise_pageFrame (b : Block) (bit : Nat) (s : State) : PageFrame s (raise b bit s) :=
  raiseAt_pageFrame b bit 0 none s

theorem takeInj_pageFrame (b : Block) (bit : Nat) (s : State) : PageFrame s (takeInj b bit s).2 := by
  unfold takeInj
  dsimp only
  split
  · rfl
  · rfl

theorem receiveTlp_pageFrame (s : State) : PageFrame s (receiveTlp s) := by
  have hinj := takeInj_pageFrame .pce Bit.pceCorr s
  unfold receiveTlp
  dsimp only
  split
  · exact hinj.trans (raise_pageFrame .pce Bit.pceCorr _)
  · exact hinj

/-- A report to SAFE after a change within the page frame adds a change of SAFE alone. -/
theorem PageFrame.report {s t : State} (h : PageFrame s t) (e : FaultEv) :
    PageFrame { s with safe := (Machine.report e t).safe } (Machine.report e t) := by
  unfold PageFrame at *
  rw [h]
  rfl

/-- A discarded write stays within the page frame, but that SAFE may hear of it (R9, R75). -/
theorem lockWrite_pageFrame (b : Block) (s : State) : PageFrame { s with safe := (lockWrite b s).safe } (lockWrite b s) := by
  unfold lockWrite raiseTold
  split
  · exact PageFrame.refl s
  · split
    · exact (raise_pageFrame _ _ s).report _
    · simpa using raise_pageFrame _ _ s

/-! ### Where a host write lands (R9, R414, R431) -/

/-- No page of a block lies as high as the queue descriptor window (R205, R431). -/
theorem blockOfPage_lt {page : Nat} {b : Block} (h : blockOfPage page = some b) : page < 0x1C0 := by
  by_contra hle
  have hnone : blockOfPage page = none := by
    unfold blockOfPage
    repeat rw [if_neg (by omega)]
  rw [hnone] at h
  cases h

/-- A write at an offset of a block's page, after the arrival of its packet, is a write to that block. -/
theorem hostWrite_page {page : Nat} {b : Block} (h : blockOfPage page = some b) (fn : Nat) {off : Nat} (hoff : off < 65536)
    (value : W32) (s : State) : hostWrite fn (page * 65536 + off) value s = writeReg fn b off value (receiveTlp s) := by
  have hlt := blockOfPage_lt h
  have hwin : inWindow (page * 65536 + off) = false := by
    unfold inWindow
    rw [Bool.and_eq_false_iff]
    left
    rw [decide_eq_false_iff_not]
    omega
  have hdiv : (page * 65536 + off) / 65536 = page := by omega
  have hmod : (page * 65536 + off) % 65536 = off := by omega
  unfold hostWrite
  simp [hwin, hdiv, hmod, h]

/-- The arrival of a packet does not change which pages answer. -/
@[simp] theorem receiveTlp_answers (s : State) (b : Block) : (receiveTlp s).answers b = s.answers b := by
  cases b <;> simp [State.answers, State.core]

/-- No virtual function writes a header register of a page: the write is recorded in LOCK_WRITE (R9, R414). -/
theorem writeVirtual_header {fn off : Nat} (hoff : off < 0x100) (b : Block) (value : W32) (s : State) :
    writeVirtual fn b off value s = lockWrite b s := by
  unfold writeVirtual
  cases b
  case ctl => exact if_neg (by omega)
  case safe => exact if_neg (by omega)
  case qmg => exact (if_neg (by omega)).trans ((if_neg (by omega)).trans (if_neg (by omega)))
  all_goals rfl

section HeaderWrite

variable {page : Nat} {b : Block} {off : Nat} {a : Access} {s : State}

/-- A write to a header register that is mapped and not read-only, of a page that answers. -/
theorem hostWrite_header (hb : blockOfPage page = some b) (ha : s.answers b = true) (hoff : off < 0x100)
    (hacc : headerAccess off = some a) (hro : a ≠ .ro) (fn : Nat) (value : W32) :
    hostWrite fn (page * 65536 + off) value s =
      if fn ≠ 0 then lockWrite b (receiveTlp s) else writeHeader b off value (receiveTlp s) := by
  have hreg : regAccess b off = some a := (if_pos hoff).trans hacc
  rw [hostWrite_page hb fn (by omega)]
  unfold writeReg
  rw [receiveTlp_answers, ha, hreg, writeVirtual_header hoff, if_pos hoff]
  cases a
  case ro => exact absurd rfl hro
  all_goals rfl

/-- The physical function's write of LOCK (R434). -/
theorem exec_lockKeyWrite_physical (hb : blockOfPage page = some b) (ha : s.answers b = true) (value : W32) :
    exec (.lockKeyWrite 0 page value) s = .next (writeLock b value (receiveTlp s)) :=
  congrArg Host.Outcome.next (hostWrite_header hb ha (a := .rw) (by decide) rfl (by decide) 0 value)

/-- The physical function's write of ERR_STAT (R435). -/
theorem exec_errStatClear_physical (hb : blockOfPage page = some b) (ha : s.answers b = true) (value : W32) :
    exec (.errStatClear 0 page value) s = .next (clearErr b value (receiveTlp s)) :=
  congrArg Host.Outcome.next (hostWrite_header hb ha (a := .w1c) (by decide) rfl (by decide) 0 value)

/-- The physical function's write of ERR_EN (R432). -/
theorem exec_errEnWrite_physical (hb : blockOfPage page = some b) (ha : s.answers b = true) (value : W32) :
    exec (.registerWrite 0 (page * 65536 + 0x18) value) s =
      .next ((receiveTlp s).modHdr b (fun h => { h with errEn := value &&& b.errMask })) :=
  congrArg Host.Outcome.next (hostWrite_header hb ha (a := .rw) (by decide) rfl (by decide) 0 value)

/-- The physical function's write of INT_EN (R432). -/
theorem exec_intEnWrite_physical (hb : blockOfPage page = some b) (ha : s.answers b = true) (value : W32) :
    exec (.registerWrite 0 (page * 65536 + 0x34) value) s =
      .next ((receiveTlp s).modHdr b (fun h => { h with intEn := value.setWidth 2 &&& b.intMask })) :=
  congrArg Host.Outcome.next (hostWrite_header hb ha (a := .rw) (by decide) rfl (by decide) 0 value)

/-- A virtual function's write of LOCK or of ERR_STAT is recorded in LOCK_WRITE and has no other effect (R414). -/
theorem exec_headerWrite_virtual (hb : blockOfPage page = some b) (ha : s.answers b = true) (value : W32) {fn : FnNum}
    (hfn : fn ≠ 0) : ∀ i ∈ [Instr.lockKeyWrite fn page value, .errStatClear fn page value],
      exec i s = .next (lockWrite b (receiveTlp s)) := by
  have hval : fn.val ≠ 0 := fun h => hfn (Fin.ext h)
  simp only [List.forall_mem_cons, List.not_mem_nil, false_implies, implies_true, and_true]
  constructor
  · exact congrArg Host.Outcome.next
      ((hostWrite_header hb ha (a := .rw) (by decide) rfl (by decide) fn.val value).trans (if_pos hval))
  · exact congrArg Host.Outcome.next
      ((hostWrite_header hb ha (a := .w1c) (by decide) rfl (by decide) fn.val value).trans (if_pos hval))

end HeaderWrite

/-! ### What such a write changes -/

/-- A change of one header, after the arrival of the packet that asks for it, stays within the page frame and leaves
the header of every other page as the arrival left it. -/
theorem receiveTlp_modHdr_frame (b : Block) (f : Header → Header) (s : State) :
    PageFrame s ((receiveTlp s).modHdr b f) ∧
      ∀ e : Block, e.page ≠ b.page → ((receiveTlp s).modHdr b f).hdr e = (receiveTlp s).hdr e :=
  ⟨(receiveTlp_pageFrame s).trans (modHdr_pageFrame b f _), fun _ he => State.hdr_modHdr_ne _ f he⟩

/-- The write that LOCK_WRITE records leaves all but pages, what is sent, MSI-X pending bits and SAFE's inbox as it was. -/
theorem lockWrite_receiveTlp_pageFrame (b : Block) (s : State) :
    PageFrame { s with safe := (lockWrite b (receiveTlp s)).safe } (lockWrite b (receiveTlp s)) := by
  have harrive := receiveTlp_pageFrame s
  have hrecord := lockWrite_pageFrame b (receiveTlp s)
  unfold PageFrame at *
  rw [hrecord, harrive]

/-- 1 ms after the page was opened or last kept open it closes (R434). -/
theorem closeLock_expired {b : Block} {s : State} (hopen : (s.hdr b).lockOpen = true)
    (hdue : (s.hdr b).lockAt + lockNs ≤ s.clock) :
    closeLock b s = s.modHdr b (fun h => { h with lockOpen := false }) :=
  if_pos (by simp [hopen, hdue])

theorem exec_lockTimeout {page : Nat} {b : Block} (hb : blockOfPage page = some b) (s : State) :
    exec (.lockTimeout page) s = .next (closeLock b s) := by
  show execLockTimeout page s = _
  unfold execLockTimeout
  rw [hb]

/-- Settles O22: each write of the physical function is one change of the page's header after the arrival of its packet,
each of a virtual function is a discarded write, and the timeout is one change of the header. -/
theorem pageHeaderWritesComplete : Obligations.PageHeaderWritesComplete := by
  unfold Obligations.PageHeaderWritesComplete
  intro s page b v hb ha
  refine ⟨?lock, ?errStat, ?errEn, ?intEn, ?virtual, ?timeout⟩
  case lock =>
    refine ⟨_, exec_lockKeyWrite_physical hb ha v, ?_⟩
    unfold writeLock
    exact ⟨by simp, by simp, by simp, receiveTlp_modHdr_frame b _ s⟩
  case errStat =>
    exact ⟨_, exec_errStatClear_physical hb ha v, State.hdr_modHdr_self _ b _, receiveTlp_modHdr_frame b _ s⟩
  case errEn =>
    exact ⟨_, exec_errEnWrite_physical hb ha v, State.hdr_modHdr_self _ b _, receiveTlp_modHdr_frame b _ s⟩
  case intEn =>
    exact ⟨_, exec_intEnWrite_physical hb ha v, State.hdr_modHdr_self _ b _, receiveTlp_modHdr_frame b _ s⟩
  case virtual =>
    intro fn hfn i hi
    have hsafe : (∀ n, b ≠ .core n) → (lockWrite b (receiveTlp s)).safe = s.safe := fun hcore => by
      simp [lockWrite_safe hcore]
    exact ⟨_, exec_headerWrite_virtual hb ha v hfn i hi, rfl, lockWrite_receiveTlp_pageFrame b s, hsafe⟩
  case timeout =>
    intro hopen hdue
    refine ⟨_, (exec_lockTimeout hb s).trans (congrArg _ (closeLock_expired hopen hdue)), ?_⟩
    exact ⟨State.hdr_modHdr_self _ b _, modHdr_pageFrame b _ s, fun _ he => State.hdr_modHdr_ne _ _ he⟩

end Sys2Proof.Machine

/-! How the timebase follows its source (R219 to R221): what an offset makes of the discipline, whom the device takes for its
master, and what each message of the master does. -/

namespace Sys2Proof.Machine

open Sys2Proof

/-! ### What an offset makes of the discipline (R221) -/

@[simp] theorem Tal.afterOffset_time (t : Tal) (o : Int) : (t.afterOffset o).time = t.time := rfl
@[simp] theorem Tal.afterOffset_rate (t : Tal) (o : Int) : (t.afterOffset o).rate = t.rate := rfl
@[simp] theorem Tal.afterOffset_master (t : Tal) (o : Int) : (t.afterOffset o).master = t.master := rfl
@[simp] theorem Tal.afterOffset_delayReq (t : Tal) (o : Int) : (t.afterOffset o).delayReq = t.delayReq := rfl
@[simp] theorem Tal.afterOffset_seconds (t : Tal) (o : Int) : (t.afterOffset o).seconds = t.seconds := rfl
@[simp] theorem Tal.afterOffset_lastSync (t : Tal) (o : Int) : (t.afterOffset o).lastSync = t.lastSync := rfl

/-- An offset that TAL_OFFSET can hold is shown as it is (R254). -/
theorem Tal.afterOffset_offset (t : Tal) {o : Int} (hlow : -2 ^ 31 ≤ o) (hhigh : o < 2 ^ 31) : (t.afterOffset o).offset = o := by
  show max (-(2 ^ 31)) (min (2 ^ 31 - 1) o) = o
  omega

/-- An offset beyond 100 ns ends the row of good ones and locks nothing. -/
theorem Tal.afterOffset_far (t : Tal) {o : Int} (hfar : o.natAbs > 100) :
    (t.afterOffset o).good = 0 ∧
      (t.afterOffset o).disc = if t.disc = .free ∨ t.disc = .holdover then .acquiring else t.disc := by
  have hnot : ¬ o.natAbs ≤ 100 := by omega
  simp [Tal.afterOffset, hnot]

/-- The eighth offset in a row within 100 ns locks the timebase. -/
theorem Tal.afterOffset_eighth (t : Tal) {o : Int} (hnear : o.natAbs ≤ 100) (hdisc : t.disc = .acquiring ∨ t.disc = .locked)
    (hseven : 7 ≤ t.good) : (t.afterOffset o).disc = .locked := by
  have hrow : 8 ≤ t.good + 1 := by omega
  rcases hdisc with hdisc | hdisc <;> simp [Tal.afterOffset, hnear, hdisc, hrow]

/-! ### The correction that an offset calls for (R219, R221) -/

/-- No warning, and a forward step where one may be taken. -/
theorem measured_of_step {o : Int} {s : State} (hbehind : -(secNs : Int) ≤ o)
    (hstep : maySteps (s.tal.afterOffset o) o s.anyArmed = true) :
    measured o s = s.modTal (fun t => { t.afterOffset o with time := t.time + o.toNat }) := by
  unfold measured
  rw [if_neg (by omega)]
  exact if_pos hstep

/-- No warning, and a change of rate where no step may be taken. -/
theorem measured_of_slew {o : Int} {s : State} (hbehind : -(secNs : Int) ≤ o)
    (hslew : maySteps (s.tal.afterOffset o) o s.anyArmed = false) :
    measured o s = slew (s.modTal (fun t => t.afterOffset o)) := by
  unfold measured
  rw [if_neg (by omega)]
  exact if_neg (by simp [State.anyArmed] at hslew ⊢; exact hslew)

/-- The correction leaves all but the timebase and the counter of free values alone; of the timebase it changes the time or
the rate. -/
theorem measured_frame {o : Int} {s : State} (hbehind : -(secNs : Int) ≤ o) :
    measured o s = { s with tal := (measured o s).tal, free := (measured o s).free } ∧
      ∃ time rate, (measured o s).tal = { s.tal.afterOffset o with time := time, rate := rate } := by
  cases hstep : maySteps (s.tal.afterOffset o) o s.anyArmed with
  | true => rw [measured_of_step hbehind hstep]; exact ⟨rfl, _, _, rfl⟩
  | false => rw [measured_of_slew hbehind hstep]; exact ⟨rfl, _, _, rfl⟩

/-- A change of rate stays within 200 ppm (R219). -/
theorem slew_rate (s : State) : -3435973 ≤ (slew s).tal.rate ∧ (slew s).tal.rate ≤ 3435973 := by
  have hlt : Config.freeNat s.free % (2 * rateLimit + 1) < 2 * rateLimit + 1 := Nat.mod_lt _ (by decide)
  have hlim : rateLimit = 3435973 := rfl
  have hrate : (slew s).tal.rate = ((Config.freeNat s.free % (2 * rateLimit + 1) : Nat) : Int) - rateLimit := rfl
  omega

theorem maySteps_iff (t : Tal) (o : Int) (armed : Bool) :
    maySteps t o armed = true ↔ t.disc = .acquiring ∧ 0 < o ∧ armed = false ∧ t.time + o.toNat < 2 ^ 64 := by
  simp [maySteps, and_assoc]

section Measured

variable {o : Int} {s : State} (hbehind : -(secNs : Int) ≤ o)
include hbehind

theorem measured_disc : (measured o s).tal.disc = (s.tal.afterOffset o).disc := by
  obtain ⟨time, rate, htal⟩ := (measured_frame (s := s) hbehind).2
  rw [htal]

/-- An ACQUIRING timebase behind its source steps forward while no stream is armed and 64 bits hold the time. -/
theorem measured_steps (hdisc : (measured o s).tal.disc = .acquiring) (hpos : 0 < o) (harmed : s.anyArmed = false)
    (hfit : s.tal.time + o.toNat < 2 ^ 64) :
    (measured o s).tal.time = s.tal.time + o.toNat ∧ (measured o s).tal.rate = s.tal.rate := by
  rw [measured_disc hbehind] at hdisc
  have hstep := (maySteps_iff (s.tal.afterOffset o) o s.anyArmed).mpr ⟨hdisc, hpos, harmed, hfit⟩
  rw [measured_of_step hbehind hstep]
  exact ⟨rfl, rfl⟩

/-- Any other timebase changes its rate and does not step. -/
theorem measured_slews (hnot : (measured o s).tal.disc ≠ .acquiring ∨ o ≤ 0 ∨ s.anyArmed = true ∨ 2 ^ 64 ≤ s.tal.time + o.toNat) :
    (measured o s).tal.time = s.tal.time ∧ -3435973 ≤ (measured o s).tal.rate ∧ (measured o s).tal.rate ≤ 3435973 := by
  rw [measured_disc hbehind] at hnot
  have hslew : maySteps (s.tal.afterOffset o) o s.anyArmed = false := by
    rw [Bool.eq_false_iff]
    intro hstep
    obtain ⟨hdisc, hpos, harmed, hfit⟩ := (maySteps_iff _ _ _).mp hstep
    rcases hnot with h | h | h | h
    · exact h hdisc
    · omega
    · rw [h] at harmed; cases harmed
    · exact absurd hfit (Nat.not_lt.mpr h)
  rw [measured_of_slew hbehind hslew]
  exact ⟨rfl, slew_rate _⟩

end Measured

/-! ### Whom the device takes for its master (R220) -/

/-- The timebase once `c` is the master: another one than before starts the exchange anew. -/
def Tal.under (t : Tal) (c : PtpClock) : Tal :=
  if t.master = some c then t else { t with master := some c, syncRx := none, delayReq := none }

@[simp] theorem Tal.under_time (t : Tal) (c : PtpClock) : (t.under c).time = t.time := by unfold Tal.under; split <;> rfl
@[simp] theorem Tal.under_rate (t : Tal) (c : PtpClock) : (t.under c).rate = t.rate := by unfold Tal.under; split <;> rfl
@[simp] theorem Tal.under_disc (t : Tal) (c : PtpClock) : (t.under c).disc = t.disc := by unfold Tal.under; split <;> rfl
@[simp] theorem Tal.under_good (t : Tal) (c : PtpClock) : (t.under c).good = t.good := by unfold Tal.under; split <;> rfl

@[simp] theorem Tal.under_master (t : Tal) (c : PtpClock) : (t.under c).master = some c := by
  unfold Tal.under
  split
  · assumption
  · rfl

/-- A message of a worse master is not taken. -/
theorem ptpTaken_worse {m : PtpMsg} {s : State} {r : PtpClock} (hmaster : s.tal.master = some r)
    (hworse : betterMaster r m.master = true) : ptpTaken m s = s := by
  unfold ptpTaken
  rw [hmaster]
  exact if_pos hworse

/-- A message of no worse master is taken, and its sender is the master. -/
theorem ptpTaken_notWorse {m : PtpMsg} {s : State} (hworse : ∀ r, s.tal.master = some r → betterMaster r m.master = false) :
    ptpTaken m s = fromMaster m (s.modTal (fun t => t.under m.master)) := by
  unfold ptpTaken
  cases hmaster : s.tal.master with
  | none => simp [State.modTal, Tal.under, hmaster]
  | some r =>
    simp only [hworse r hmaster, Bool.false_eq_true, if_false]
    by_cases hsame : r = m.master
    · rw [if_pos hsame]
      simp [State.modTal, Tal.under, hmaster, hsame]
    · rw [if_neg hsame]
      simp [State.modTal, Tal.under, hmaster, hsame]

/-- The lane and the discipline under which a PTP message counts (R17, R216, R220). -/
def Heard (m : PtpMsg) (s : State) : Prop :=
  s.tal.src = 1 ∧ m.lane.val = s.tal.lane ∧ s.ethernet (lanePort m.lane.val) = true

theorem ptpMessage_unheard {m : PtpMsg} {s : State}
    (h : s.tal.src ≠ 1 ∨ m.lane.val ≠ s.tal.lane ∨ s.ethernet (lanePort m.lane.val) = false) :
    ptpMessage m s = dropPacket (lanePort m.lane.val) s := if_pos h

theorem ptpMessage_heard {m : PtpMsg} {s : State} (h : Heard m s) :
    ptpMessage m s =
      if m.domain = s.tal.domain then ptpTaken m (countPacket (lanePort m.lane.val) s)
      else countPacket (lanePort m.lane.val) s := by
  obtain ⟨hsrc, hlane, heth⟩ := h
  exact if_neg (by simp [hsrc, ← hlane, heth])

/-- A message of a worse master or of another domain is only counted. -/
theorem ptpMessage_ignored {m : PtpMsg} {s : State} (h : Heard m s)
    (hno : m.domain ≠ s.tal.domain ∨ ∃ r, s.tal.master = some r ∧ betterMaster r m.master = true) :
    ptpMessage m s = countPacket (lanePort m.lane.val) s := by
  rw [ptpMessage_heard h]
  rcases hno with hdomain | ⟨r, hmaster, hworse⟩
  · exact if_neg hdomain
  · rw [ptpTaken_worse (s := countPacket (lanePort m.lane.val) s) hmaster hworse]
    split <;> rfl

/-- The state in which a message that counts is read: it is counted, and its sender is the master. -/
def heardFrom (m : PtpMsg) (s : State) : State :=
  (countPacket (lanePort m.lane.val) s).modTal (fun t => t.under m.master)

theorem ptpMessage_taken {m : PtpMsg} {s : State} (h : Heard m s) (hdomain : m.domain = s.tal.domain)
    (hworse : ∀ r, s.tal.master = some r → betterMaster r m.master = false) :
    ptpMessage m s = fromMaster m (heardFrom m s) := by
  rw [ptpMessage_heard h, if_pos hdomain]
  exact ptpTaken_notWorse hworse

/-! ### What a message of the master does (R220, R221) -/

/-- An Announce, a Follow_Up without its Sync and a Delay_Resp without its request do nothing. -/
theorem fromMaster_idle {m : PtpMsg} {s : State}
    (h : m.body = .announce ∨ (∃ t1, m.body = .followUp t1 ∧ s.tal.syncRx = none) ∨
      (∃ t4, m.body = .delayResp t4 ∧ s.tal.delayReq = none)) : fromMaster m s = s := by
  unfold fromMaster
  rcases h with h | ⟨t1, h, hnone⟩ | ⟨t4, h, hnone⟩
  · simp only [h]
  · simp only [h, hnone]
  · simp only [h, hnone]

/-- A Sync restarts the holdover limit; one of a two-step master waits for its Follow_Up. -/
theorem fromMaster_sync {m : PtpMsg} (s : State) (h : m.body = .sync none) :
    fromMaster m s =
      s.modTal (fun t => { t with lastSync := some s.clock, syncInt := m.interval, syncRx := some s.tal.time }) := by
  unfold fromMaster
  simp only [h]
  rfl

/-- A Sync with its origin is answered by a delay request. -/
theorem fromMaster_syncOrigin {m : PtpMsg} (s : State) {t1 : Nat} (h : m.body = .sync (some t1)) :
    fromMaster m s =
      askDelay m t1 s.tal.time (s.modTal (fun t => { t with lastSync := some s.clock, syncInt := m.interval })) := by
  unfold fromMaster
  simp only [h]

/-- So is the Follow_Up that brings it. -/
theorem fromMaster_followUp {m : PtpMsg} {s : State} {t1 t2 : Nat} (h : m.body = .followUp t1) (hrx : s.tal.syncRx = some t2) :
    fromMaster m s = askDelay m t1 t2 s := by
  unfold fromMaster
  simp only [h, hrx]

/-- A Delay_Resp to the request gives the offset. -/
theorem fromMaster_delayResp {m : PtpMsg} {s : State} {t1 t2 t3 t4 : Nat} (h : m.body = .delayResp t4)
    (hreq : s.tal.delayReq = some (t1, t2, t3)) :
    fromMaster m s = measured (ptpOffset t1 t2 t3 t4) (s.modTal (fun t => { t with delayReq := none })) := by
  unfold fromMaster
  simp only [h, hreq]

/-! ### Dropped messages and PPS edges -/

theorem dropPacket_frame (p : Nat) (s : State) :
    (dropPacket p s).port p = { s.port p with pktDrop := sat32 ((s.port p).pktDrop + 1) } ∧
      PageFrame { s with ports := (dropPacket p s).ports } (dropPacket p s) := by
  have hports : (dropPacket p s).ports = (s.modPort p (fun x => { x with pktDrop := sat32 (x.pktDrop + 1) })).ports := by
    unfold dropPacket
    simp
  constructor
  · unfold State.port at *
    rw [hports]
    exact State.port_modPort_self s p _
  · rw [hports]
    exact raise_pageFrame _ _ _

/-- An edge under PPS discipline, with the second that software set: the offset to the next one. -/
theorem ppsEdge_counted {s : State} {n : Nat} (hsrc : s.tal.src = 2) (hsec : s.tal.seconds = some n) :
    ppsEdge s = measured (((n + 1) * 1000000000 : Nat) - (s.tal.time : Int))
      (s.modTal (fun t => { t with seconds := some (n + 1), lastSync := some s.clock })) := by
  unfold ppsEdge edgeSecond
  simp only [hsrc, hsec, secNs, ne_eq, not_true_eq_false, if_false]
  simp [State.modTal, hsec]

/-- What a Delay_Resp to the request of the exchange does: the offset is shown, moves the state on and corrects the time. -/
theorem measured_delayResp {s : State} {o : Int} (hlow : -1000000000 ≤ o) (hhigh : o < 2 ^ 31) :
    (measured o s).tal.master = s.tal.master ∧ (measured o s).tal.offset = o ∧ (measured o s).tal.delayReq = s.tal.delayReq ∧
      (o.natAbs > 100 → (measured o s).tal.good = 0 ∧
        (measured o s).tal.disc = if s.tal.disc = .free ∨ s.tal.disc = .holdover then .acquiring else s.tal.disc) ∧
      (o.natAbs ≤ 100 → (s.tal.disc = .acquiring ∨ s.tal.disc = .locked) → 7 ≤ s.tal.good → (measured o s).tal.disc = .locked) := by
  obtain ⟨time, rate, htal⟩ := (measured_frame (s := s) (o := o) (by unfold secNs; omega)).2
  rw [htal]
  exact ⟨rfl, s.tal.afterOffset_offset (by omega) hhigh, rfl, s.tal.afterOffset_far, s.tal.afterOffset_eighth⟩

/-- The state in which a Delay_Resp to the request of the exchange is worked out. -/
def answered (m : PtpMsg) (s : State) : State := (heardFrom m s).modTal (fun t => { t with delayReq := none })

/-- What the offset of a Delay_Resp does to the timebase of its hearer. -/
theorem answered_offset (m : PtpMsg) (s : State) {o : Int} (hlow : -1000000000 ≤ o) (hhigh : o < 2 ^ 31) :
    let t := measured o (answered m s)
    t.tal.master = some m.master ∧ t.tal.offset = o ∧ t.tal.delayReq = none ∧
      (o.natAbs > 100 → t.tal.good = 0 ∧
        t.tal.disc = (if s.tal.disc = .free ∨ s.tal.disc = .holdover then .acquiring else s.tal.disc)) ∧
      (o.natAbs ≤ 100 → (s.tal.disc = .acquiring ∨ s.tal.disc = .locked) → 7 ≤ s.tal.good → t.tal.disc = .locked) ∧
      (t.tal.disc = .acquiring → 0 < o → s.anyArmed = false → s.tal.time + o.toNat < 2 ^ 64 →
        t.tal.time = s.tal.time + o.toNat ∧ t.tal.rate = s.tal.rate) ∧
      ((t.tal.disc ≠ .acquiring ∨ o ≤ 0 ∨ s.anyArmed = true ∨ 2 ^ 64 ≤ s.tal.time + o.toNat) →
        t.tal.time = s.tal.time ∧ -3435973 ≤ t.tal.rate ∧ t.tal.rate ≤ 3435973) ∧
      t = { s with ports := t.ports, tal := t.tal, free := t.free } := by
  intro t
  have hbehind : -(secNs : Int) ≤ o := by unfold secNs; omega
  have htime : (answered m s).tal.time = s.tal.time := Tal.under_time _ _
  have hrate : (answered m s).tal.rate = s.tal.rate := Tal.under_rate _ _
  have hdisc : (answered m s).tal.disc = s.tal.disc := Tal.under_disc _ _
  have hgood : (answered m s).tal.good = s.tal.good := Tal.under_good _ _
  obtain ⟨hmaster, hshown, hdelay, hfar, heighth⟩ := measured_delayResp (s := answered m s) hlow hhigh
  have hsteps := measured_steps (s := answered m s) hbehind
  have hslews := measured_slews (s := answered m s) hbehind
  rw [hdisc] at hfar
  rw [hdisc, hgood] at heighth
  rw [htime, hrate] at hsteps
  rw [htime] at hslews
  refine ⟨hmaster.trans (Tal.under_master _ _), hshown, hdelay, hfar, heighth, hsteps, hslews, ?_⟩
  have hframe := (measured_frame (s := answered m s) hbehind).1
  have hports : t.ports = (answered m s).ports := (congrArg State.ports hframe :)
  rw [hports]
  exact hframe

/-- What the offset of a PPS edge does. -/
theorem edge_offset (s : State) {n : Nat} (hge : s.tal.time ≤ (n + 1) * 1000000000)
    (hlt : (n + 1) * 1000000000 < s.tal.time + 2 ^ 31) :
    let t := measured (((n + 1) * 1000000000 : Nat) - (s.tal.time : Int))
      (s.modTal (fun t => { t with seconds := some (n + 1), lastSync := some s.clock }))
    t.tal.seconds = some (n + 1) ∧ t.tal.lastSync = some s.clock ∧
      t.tal.offset = ((n + 1) * 1000000000 : Nat) - (s.tal.time : Int) ∧
      (s.anyArmed = true → t.tal.time = s.tal.time) ∧
      (t.tal.disc = .acquiring → s.anyArmed = false → s.tal.time < (n + 1) * 1000000000 → (n + 1) * 1000000000 < 2 ^ 64 →
        t.tal.time = (n + 1) * 1000000000) ∧
      t = { s with tal := t.tal, free := t.free } := by
  generalize hedge : (n + 1) * 1000000000 = e at hge hlt ⊢
  intro t
  have hbehind : -(secNs : Int) ≤ (e : Int) - s.tal.time := by unfold secNs; omega
  let u := s.modTal (fun t => { t with seconds := some (n + 1), lastSync := some s.clock })
  obtain ⟨hframe, time, rate, htal⟩ := measured_frame (s := u) hbehind
  have hsteps := measured_steps (s := u) hbehind
  have hslews := measured_slews (s := u) hbehind
  refine ⟨congrArg Tal.seconds htal, congrArg Tal.lastSync htal, ?_, fun harmed => ?_,
    fun hdisc harmed hlow hfit => ?_, hframe⟩
  · exact (congrArg Tal.offset htal).trans (u.tal.afterOffset_offset (by omega) (by omega))
  · exact (hslews (.inr (.inr (.inl harmed)))).1
  · have hsum : s.tal.time + ((e : Int) - s.tal.time).toNat = e := by omega
    exact (hsteps hdisc (by omega) harmed (hsum.trans_lt hfit)).1.trans hsum

theorem completes_ptpMessage {m : PtpMsg} {s t : State} {P : State → Prop} (h : ptpMessage m s = t) (hP : P t) :
    Completes (.ptpMessage m) s P := ⟨t, congrArg Host.Outcome.next h, hP⟩

theorem completes_ppsEdge {s t : State} {P : State → Prop} (h : ppsEdge s = t) (hP : P t) : Completes .ppsEdge s P :=
  ⟨t, congrArg Host.Outcome.next h, hP⟩

/-- Settles O39: each message is the taking of its sender, then what that message does; each offset one correction. -/
theorem timebaseFollowsItsSource : Obligations.TimebaseFollowsItsSource := by
  unfold Obligations.TimebaseFollowsItsSource
  refine ⟨fun s m => ⟨fun hsrc hlane heth => ?_, fun h => ?_⟩, fun s => ⟨fun hsrc => ?_, fun n hsrc hsec hge hlt => ?_⟩⟩
  · have hheard : Heard m s := ⟨hsrc, hlane, heth⟩
    refine ⟨fun hno => completes_ptpMessage (ptpMessage_ignored hheard hno) ⟨State.port_modPort_self s _ _, rfl⟩,
      fun tal hdomain hworse htal => ?_⟩
    have htaken := ptpMessage_taken hheard hdomain hworse
    have hunder : (heardFrom m s).tal = tal := htal.symm
    have htime : tal.time = s.tal.time := hunder ▸ Tal.under_time _ _
    refine ⟨fun hbody => ?_, fun hbody => ?_, fun t1 hbody => ?_, fun t1 t2 hbody hrx => ?_,
      fun t1 t2 t3 t4 o hbody hreq ho hlow hhigh => ?_⟩
    · rw [← hunder] at hbody ⊢
      exact completes_ptpMessage (htaken.trans (fromMaster_idle hbody)) ⟨rfl, rfl⟩
    · refine completes_ptpMessage (htaken.trans (fromMaster_sync _ hbody)) ⟨?_, rfl⟩
      simp only [State.modTal, hunder, htime]
      rfl
    · refine completes_ptpMessage (htaken.trans (fromMaster_syncOrigin _ hbody)) ⟨?_, rfl⟩
      simp only [askDelay, State.modTal, State.emit, hunder, htime]
      rfl
    · rw [← hunder] at hrx
      refine completes_ptpMessage (htaken.trans (fromMaster_followUp hbody hrx)) ⟨?_, rfl⟩
      simp only [askDelay, State.modTal, State.emit, hunder, htime]
    · rw [← hunder] at hreq
      have hdone := htaken.trans (fromMaster_delayResp hbody hreq)
      rw [show ptpOffset t1 t2 t3 t4 = o from ho.symm] at hdone
      exact completes_ptpMessage hdone (answered_offset m s hlow hhigh)
  · exact completes_ptpMessage (ptpMessage_unheard h) (dropPacket_frame _ _)
  · exact completes_ppsEdge (if_pos hsrc) rfl
  · exact completes_ppsEdge (ppsEdge_counted hsrc hsec) (edge_offset _ hge hlt)

end Sys2Proof.Machine

/-! What a detection leaves in the header of a page (R432, R435): its bit of ERR_STAT, and nothing that isolates, arms or enables. -/

namespace Sys2Proof.Machine

open Sys2Proof

theorem State.hdr_modHdr (s : State) (b c : Block) (f : Header → Header) :
    (s.modHdr b f).hdr c = if c.page = b.page then f (s.hdr b) else s.hdr c := Tab.get_insert _ _ _ _ _

/-- Units that answer from the same pages have the same headers. -/
theorem hdr_of_pages {s t : State} (h : t.pages = s.pages) (b : Block) : t.hdr b = s.hdr b := by
  unfold State.hdr
  rw [h]

/-- An interrupt sets bits of INT_STAT of its page, and touches no other header. -/
theorem raiseInt_hdr (b : Block) (bits : BitVec 2) (s : State) (c : Block) :
    (raiseInt b bits s).hdr c = if c.page = b.page then { s.hdr b with intStat := (s.hdr b).intStat ||| bits } else s.hdr c := by
  rw [← State.hdr_modHdr s b c (fun h => { h with intStat := h.intStat ||| bits })]
  unfold raiseInt
  dsimp only
  split
  · exact hdr_of_pages (by simp) c
  · rfl

/-- A detection sets its bit of ERR_STAT, with the capture of the first one, and touches no other header. -/
theorem raiseAt_hdr (b : Block) (bit addr : Nat) (who : Option (Nat × Nat)) (s : State) :
    ∃ a w i, ∀ c : Block, (raiseAt b bit addr who s).hdr c =
      if c.page = b.page then
        { s.hdr b with errStat := (s.hdr b).errStat ||| BitVec.ofNat 32 (2 ^ bit), errAddr := a, errCtx := w, intStat := i }
      else s.hdr c := by
  have hcapture : ∀ h : Header, ∃ a w,
      (if h.errStat = 0 then { h with errStat := BitVec.ofNat 32 (2 ^ bit), errAddr := BitVec.ofNat 64 addr, errCtx := errCtxWord who }
        else { h with errStat := h.errStat ||| BitVec.ofNat 32 (2 ^ bit) }) =
      { h with errStat := h.errStat ||| BitVec.ofNat 32 (2 ^ bit), errAddr := a, errCtx := w } := by
    intro h
    split
    · rename_i hzero
      have hor : h.errStat ||| BitVec.ofNat 32 (2 ^ bit) = BitVec.ofNat 32 (2 ^ bit) := by rw [hzero]; exact BitVec.zero_or
      exact ⟨_, _, by rw [hor]⟩
    · exact ⟨_, _, rfl⟩
  obtain ⟨a, w, haw⟩ := hcapture (s.hdr b)
  unfold raiseAt
  dsimp only
  split
  · refine ⟨a, w, (s.hdr b).intStat ||| 1, fun c => ?_⟩
    rw [raiseInt_hdr, State.hdr_modHdr_self, State.hdr_modHdr, haw]
    split <;> rfl
  · refine ⟨a, w, (s.hdr b).intStat, fun c => ?_⟩
    rw [State.hdr_modHdr, haw]

section Detection

variable (b : Block) (bit addr : Nat) (who : Option (Nat × Nat)) (s : State)

/-- The bit of a detection shows in ERR_STAT of its page (R435). -/
theorem raiseAt_sets (h : bit < 32) : ((raiseAt b bit addr who s).hdr b).errStat.getLsbD bit = true := by
  obtain ⟨a, w, i, hhdr⟩ := raiseAt_hdr b bit addr who s
  rw [hhdr, if_pos rfl, BitVec.getLsbD_or, BitVec.getLsbD_ofNat]
  simp [h]

theorem raise_sets (h : bit < 32) : ((raise b bit s).hdr b).errStat.getLsbD bit = true := raiseAt_sets b bit 0 none s h

/-- A bit of ERR_STAT that stands stays. -/
theorem raise_keeps_errStat {c : Block} {n : Nat} (h : (s.hdr c).errStat.getLsbD n = true) :
    ((raise b bit s).hdr c).errStat.getLsbD n = true := by
  obtain ⟨a, w, i, hhdr⟩ := raiseAt_hdr b bit 0 none s
  unfold raise
  rw [hhdr]
  split
  · rename_i hpage
    have hsame : s.hdr b = s.hdr c := by unfold State.hdr; rw [hpage]
    rw [BitVec.getLsbD_or, hsame, h, Bool.true_or]
  · exact h

/-- Isolation and the armed injections stay. -/
@[simp] theorem raiseAt_isolated (c : Block) : ((raiseAt b bit addr who s).hdr c).isolated = (s.hdr c).isolated := by
  obtain ⟨a, w, i, hhdr⟩ := raiseAt_hdr b bit addr who s
  rw [hhdr]
  split
  · rename_i hpage
    unfold State.hdr
    rw [hpage]
  · rfl

@[simp] theorem raise_isolated (c : Block) : ((raise b bit s).hdr c).isolated = (s.hdr c).isolated := raiseAt_isolated b bit 0 none s c

end Detection

end Sys2Proof.Machine

/-! Lines in the shared cache and in DRAM (R149 to R161): what each access does to a line at its home slice and at its
channel, where no injection is armed, and what it leaves alone. -/

namespace Sys2Proof.Machine

open Sys2Proof

/-! ### Checks that meet no injection -/

/-- With no injection armed in a page none is consumed. -/
theorem takeInj_unarmed {b : Block} {s : State} (h : (s.hdr b).inj = 0) (bit : Nat) : takeInj b bit s = (false, s) := by
  simp [takeInj, h]

theorem receiveTlp_unarmed {s : State} (h : (s.hdr .pce).inj = 0) : receiveTlp s = s := by
  simp [receiveTlp, takeInj_unarmed h]

theorem tagCheck_clean {k : Nat} {s : State} (h : (s.hdr (.shc k)).inj = 0) (l : Nat) (oneCopy : Bool) (copy : Nat) :
    tagCheck k l .clean oneCopy copy s = s := by
  simp [tagCheck, takeInj_unarmed h]

theorem dataCheck_clean {k : Nat} {s : State} (h : (s.hdr (.shc k)).inj = 0) (l w ctx part : Nat) (dram : DramUpset) :
    dataCheck k l w ctx part .clean dram s = s := by
  simp [dataCheck, takeInj_unarmed h]

/-! ### What a read meets at its channel (R158) -/

section DmcRead

variable {off : Nat} {s : State} (hinj : (s.hdr (.dmc (s.chanOf off))).inj = 0)
include hinj

/-- A line that is not stored poisoned returns as it is, and nothing changes. -/
theorem dmcRead_fresh (h : off / 64 ∉ s.dramPoison) (ctx part : Nat) : dmcRead off .clean ctx part s = (false, s) := by
  simp [dmcRead, takeInj_unarmed hinj, h]

/-- A line that is stored poisoned returns so and raises POISON. -/
theorem dmcRead_poisoned (h : off / 64 ∈ s.dramPoison) (ctx part : Nat) :
    dmcRead off .clean ctx part s = (true, raise (.dmc (s.chanOf off)) Bit.dmcPoison s) := by
  simp [dmcRead, takeInj_unarmed hinj, h]

/-- Either way the read changes no more than the page of its channel. -/
theorem dmcRead_clean_pageFrame (ctx part : Nat) : PageFrame s (dmcRead off .clean ctx part s).2 := by
  by_cases h : off / 64 ∈ s.dramPoison
  · rw [dmcRead_poisoned hinj h]
    exact raise_pageFrame _ _ s
  · rw [dmcRead_fresh hinj h]
    exact PageFrame.refl s

/-- A line whose codes fail returns poisoned, as an uncorrectable error of its channel. -/
theorem dmcRead_fails {u : DramUpset} (hu : u = .eccUncorr ∨ u = .linkTwice) (ctx part : Nat) :
    ∃ s1, PageFrame s s1 ∧ Grows s s1 ∧ dmcRead off u ctx part s = (true, dmcUncorr (s.chanOf off) off ctx part s1) := by
  have hstored : ∀ s1 : State, PageFrame s s1 → Grows s s1 → ∀ b : Bool,
      PageFrame s (if b then raise (.dmc (s.chanOf off)) Bit.dmcPoison s1 else s1) ∧
      Grows s (if b then raise (.dmc (s.chanOf off)) Bit.dmcPoison s1 else s1) := by
    intro s1 hframe hgrows b
    cases b with
    | true => exact ⟨hframe.trans (raise_pageFrame _ _ _), hgrows.trans (raise_grows _ _ _)⟩
    | false => exact ⟨hframe, hgrows⟩
  rcases hu with rfl | rfl
  · obtain ⟨hframe, hgrows⟩ := hstored s (PageFrame.refl s) (Grows.of_eq rfl) (s.dramPoison.contains (off / 64))
    exact ⟨_, hframe, hgrows, by simp [dmcRead, takeInj_unarmed hinj]⟩
  · obtain ⟨hframe, hgrows⟩ := hstored (raise (.dmc (s.chanOf off)) Bit.dmcLinkUncorr s) (raise_pageFrame _ _ s) (raise_grows _ _ s)
      (s.dramPoison.contains (off / 64))
    exact ⟨_, hframe, hgrows, by simp [dmcRead, takeInj_unarmed hinj]⟩

/-- A corrected error is counted. -/
theorem dmcRead_eccCorr (ctx part : Nat) :
    ∃ s1, PageFrame (s.modDmc (s.chanOf off) (fun d => { d with eccCorr := sat32 (d.eccCorr + 1) })) s1 ∧
      dmcRead off .eccCorr ctx part s = (s.dramPoison.contains (off / 64), s1) := by
  have hcount := raise_pageFrame (.dmc (s.chanOf off)) Bit.dmcEccCorr
    (s.modDmc (s.chanOf off) (fun d => { d with eccCorr := sat32 (d.eccCorr + 1) }))
  cases hp : s.dramPoison.contains (off / 64) with
  | true => exact ⟨_, hcount.trans (raise_pageFrame (.dmc (s.chanOf off)) Bit.dmcPoison _),
      by simp_all [dmcRead, takeInj_unarmed hinj]⟩
  | false => exact ⟨_, hcount, by simp_all [dmcRead, takeInj_unarmed hinj]⟩

end DmcRead

/-! ### Home slices and lines -/

/-- The key of way `w` of the set of a line. -/
def lineKey (off w : Nat) : Nat := setOf (off / 64) * 16 + w

/-- The line of `off` is served at its home slice: the slice and the mesh answer, the line is addressable and no injection is armed there. -/
def Served (s : State) (off : Nat) : Prop :=
  (s.hdr (.shc (s.home off).1)).isolated = false ∧ s.pwr.retention = false ∧ off < s.dramSize ∧
    (s.hdr (.shc (s.home off).1)).inj = 0

/-- The state after a hit: the line with the operation carried out, the hit counted, and the way touched. -/
def hitState (k off w : Nat) (y : CacheLine) (s : State) : State :=
  touchWay k (off / 64) w (s.modSlice k (fun z => { z with hits := sat32 (z.hits + 1), lines := Tab.insert z.lines (lineKey off w) y }))

theorem lineAccess_stopped {s : State} {off : Nat}
    (h : (s.hdr (.shc (s.home off).1)).isolated = true ∨ s.pwr.retention = true) (ctx part : Nat) (op : LineOp)
    (tag data : Upset) (oneCopy : Bool) (copy : Nat) (dram : DramUpset) :
    lineAccess off ctx part op tag data oneCopy copy dram s = (([], false), s.emit (.nack 0xC2)) := by
  have hstop : ((s.hdr (.shc (s.home off).1)).isolated || s.pwr.retention) = true := by simpa using h
  unfold lineAccess
  exact if_pos hstop

theorem lineAccess_beyond {s : State} {off : Nat} (hiso : (s.hdr (.shc (s.home off).1)).isolated = false)
    (hret : s.pwr.retention = false) (hsize : s.dramSize ≤ off) (ctx part : Nat) (op : LineOp)
    (tag data : Upset) (oneCopy : Bool) (copy : Nat) (dram : DramUpset) :
    lineAccess off ctx part op tag data oneCopy copy dram s =
      ((poisonLine, true), rangeRefusal (s.home off).1 off ctx part s) := by
  have hgo : ¬ ((s.hdr (.shc (s.home off).1)).isolated || s.pwr.retention) = true := by simp [hiso, hret]
  unfold lineAccess
  exact (if_neg hgo).trans (if_pos hsize)

theorem lineAccess_hit {s : State} {off w : Nat} {x : CacheLine} (hs : Served s off)
    (hway : (s.slice (s.home off).1).wayOf (off / 64) = some w)
    (hx : Tab.find (s.slice (s.home off).1).lines (lineKey off w) = some x) (ctx part : Nat) (op : LineOp)
    (oneCopy : Bool) (copy : Nat) (dram : DramUpset) :
    lineAccess off ctx part op .clean .clean oneCopy copy dram s =
      ((if (applyOp x op).poison then poisonLine else s.lineView off op (applyOp x op).data, (applyOp x op).poison),
        hitState (s.home off).1 off w (applyOp x op) s) := by
  obtain ⟨hiso, hret, hsize, hinj⟩ := hs
  have hget : Tab.get (s.slice (s.home off).1).lines { line := off / 64, dirty := false, data := [] }
      (setOf (off / 64) * 16 + w) = x := by
    unfold Tab.get; rw [show Tab.find _ (setOf (off / 64) * 16 + w) = some x from hx]; rfl
  unfold lineAccess
  simp only [hiso, hret, Bool.or_self, Bool.false_eq_true, if_false, Nat.not_le.mpr hsize, tagCheck_clean hinj,
    hway, dataCheck_clean hinj, ite_self, hget]
  rfl


/-- The state once a miss is counted. -/
def missState (k : Nat) (s : State) : State := s.modSlice k (fun z => { z with misses := sat32 (z.misses + 1) })

/-- A line as it is read from DRAM, poisoned or not. -/
def fetchedLine (off : Nat) (poisoned : Bool) (s : State) : CacheLine :=
  { line := off / 64, dirty := false, poison := poisoned, data := s.readDram (lineBase off) 64 }

/-- The ways that the lines of a partition may take. -/
def wayMaskOf (part : Nat) (s : State) : Nat := ((s.part? part).map (·.wayMask)).getD 0

/-- Where a line that missed goes: into a way of its slice when it is kept, else to DRAM when it was written. -/
def placeLine (off part : Nat) (keep : Bool) (k : Nat) (y : CacheLine) (u : DramUpset) (s : State) : State :=
  if keep && wayMaskOf part s % 65536 != 0 then allocLine k (wayMaskOf part s) y u s
  else if y.dirty then dmcWriteLink off u (dramLine off y.data y.poison s)
  else s

/-- What a channel answers to a miss: nothing is read for a full line. -/
def missRead (off : Nat) (op : LineOp) (dram : DramUpset) (ctx part : Nat) (s : State) : Bool × State :=
  match op with
  | .writeLine _ => (false, s)
  | _ => dmcRead off dram ctx part s

/-- What the write of a line that missed meets. -/
def missWrite (op : LineOp) (dram : DramUpset) : DramUpset :=
  match op with
  | .writeLine _ => dram
  | _ => writeHalf dram

/-- What an access that missed answers, from what its channel has read. -/
def missAnswer (off part : Nat) (op : LineOp) (dram : DramUpset) (home : Nat × Bool) (read : Bool × State) :
    (List Byte × Bool) × State :=
  let y := applyOp (fetchedLine off read.1 read.2) op
  let t := placeLine off part home.2 home.1 y (missWrite op dram) read.2
  ((if y.poison then poisonLine else t.lineView off op y.data, y.poison), t)

theorem lineAccess_miss {s : State} {off : Nat} (hs : Served s off)
    (hway : (s.slice (s.home off).1).wayOf (off / 64) = none) (ctx part : Nat) (op : LineOp) (oneCopy : Bool) (copy : Nat)
    (dram : DramUpset) :
    lineAccess off ctx part op .clean .clean oneCopy copy dram s =
      missAnswer off part op dram (s.home off) (missRead off op dram ctx part (missState (s.home off).1 s)) := by
  obtain ⟨hiso, hret, hsize, hinj⟩ := hs
  unfold lineAccess
  simp only [hiso, hret, Bool.or_self, Bool.false_eq_true, if_false, Nat.not_le.mpr hsize, tagCheck_clean hinj, hway]
  cases op <;> rfl

/-- A line that its home does not keep goes to DRAM when it was written. -/
theorem placeLine_passed {off part : Nat} {keep : Bool} {s : State} (h : keep = false ∨ wayMaskOf part s % 65536 = 0)
    (k : Nat) (y : CacheLine) (u : DramUpset) :
    placeLine off part keep k y u s = if y.dirty then dmcWriteLink off u (dramLine off y.data y.poison s) else s := by
  unfold placeLine
  rcases h with h | h <;> simp [h]

section Miss

variable {s : State} {off : Nat} (hs : Served s off) (hway : (s.slice (s.home off).1).wayOf (off / 64) = none)
include hs hway

/-- A read that misses and keeps nothing gives the line as DRAM holds it. -/
theorem lineAccess_missRead (hdmc : (s.hdr (.dmc (s.chanOf off))).inj = 0) (hclean : off / 64 ∉ s.dramPoison)
    {part : Nat} (hpass : (s.home off).2 = false ∨ wayMaskOf part s % 65536 = 0) (ctx : Nat) (oneCopy : Bool) (copy : Nat) :
    lineAccess off ctx part .read .clean .clean oneCopy copy .clean s =
      ((s.tablesOver (lineBase off) (s.readDram (lineBase off) 64), false), missState (s.home off).1 s) := by
  have hread : missRead off .read .clean ctx part (missState (s.home off).1 s) = (false, missState (s.home off).1 s) :=
    dmcRead_fresh (s := missState (s.home off).1 s) hdmc hclean ctx part
  rw [lineAccess_miss hs hway, hread]
  dsimp only [missAnswer]
  rw [placeLine_passed (s := missState (s.home off).1 s) hpass]
  rfl

/-- A full line that misses and is not kept goes to DRAM. -/
theorem lineAccess_missWrite {part : Nat} (hpass : (s.home off).2 = false ∨ wayMaskOf part s % 65536 = 0) (ctx : Nat)
    (d : List Byte) (oneCopy : Bool) (copy : Nat) :
    (lineAccess off ctx part (.writeLine d) .clean .clean oneCopy copy .clean s).2 =
      dramLine off (d.take 64) false (missState (s.home off).1 s) := by
  rw [lineAccess_miss hs hway]
  exact placeLine_passed (s := missState (s.home off).1 s) hpass _ _ _

end Miss

/-! ### The way of a line that is kept (R151) -/

/-- The walk down the tree ends at one of 16 ways. -/
theorem plruWalk_lt (t mask : Nat) : ∀ levels node : Nat, (node + 1) * 2 ^ levels ≤ 32 → plruWalk t mask levels node < 16
  | 0, node, h => by
    show node - 16 < 16
    omega
  | k + 1, node, h => by
    have hchild : ∀ child, child ≤ 2 * node + 1 → (child + 1) * 2 ^ k ≤ 32 := fun child hc =>
      calc (child + 1) * 2 ^ k ≤ (2 * (node + 1)) * 2 ^ k := Nat.mul_le_mul_right _ (by omega)
        _ = (node + 1) * 2 ^ (k + 1) := by ring
        _ ≤ 32 := h
    refine plruWalk_lt t mask k _ (hchild _ ?_)
    split <;> split <;> omega

/-- A mask of some way has a victim. -/
theorem victim_some {t mask : Nat} (h : mask % 65536 ≠ 0) : ∃ w < 16, victim t mask = some w :=
  ⟨_, plruWalk_lt t mask 4 1 (by decide), if_neg h⟩

/-- A line that lies in some way of its set is found there. -/
theorem wayOf_isSome {x : Slice} {l w : Nat} {y : CacheLine} (hw : w < 16) (hfind : Tab.find x.lines (setOf l * 16 + w) = some y)
    (hline : y.line = l) : (x.wayOf l).isSome = true := by
  unfold Slice.wayOf
  rw [List.find?_isSome]
  exact ⟨w, List.mem_range.mpr hw, by simp [hfind, hline]⟩

/-- A line that is kept lies in a way of its slice. -/
theorem allocLine_holds {mask : Nat} (h : mask % 65536 ≠ 0) (k : Nat) (x : CacheLine) (u : DramUpset) (s : State) :
    (((allocLine k mask x u s).slice k).wayOf x.line).isSome = true := by
  obtain ⟨w, hw, hvictim⟩ := victim_some (t := Tab.get (s.slice k).plru 0 (setOf x.line)) h
  unfold allocLine
  rw [hvictim]
  refine wayOf_isSome hw (y := x) ?_ rfl
  simp [touchWay]

@[simp] theorem applyOp_line (x : CacheLine) (op : LineOp) : (applyOp x op).line = x.line := by cases op <;> rfl

/-- What a channel reads for a miss leaves the partitions alone. -/
theorem missRead_parts {s : State} {off : Nat} (hdmc : (s.hdr (.dmc (s.chanOf off))).inj = 0) (op : LineOp) (ctx part : Nat) :
    (missRead off op .clean ctx part s).2.parts = s.parts := by
  have hread : (dmcRead off .clean ctx part s).2.parts = s.parts := by
    rw [dmcRead_clean_pageFrame hdmc ctx part]
  cases op with
  | read => exact hread
  | writeLine d => rfl
  | writePart k d => exact hread

/-- An access whose line is kept leaves it in a way of its home slice. -/
theorem lineAccess_kept {s : State} {off : Nat} (hs : Served s off) (hdmc : (s.hdr (.dmc (s.chanOf off))).inj = 0)
    (hway : (s.slice (s.home off).1).wayOf (off / 64) = none) {part : Nat} (hkeep : (s.home off).2 = true)
    (hmask : wayMaskOf part s % 65536 ≠ 0) (ctx : Nat) (op : LineOp) (oneCopy : Bool) (copy : Nat) :
    (((lineAccess off ctx part op .clean .clean oneCopy copy .clean s).2.slice (s.home off).1).wayOf (off / 64)).isSome = true := by
  rw [lineAccess_miss hs hway]
  generalize hread : missRead off op .clean ctx part (missState (s.home off).1 s) = read
  have hmask' : wayMaskOf part read.2 % 65536 ≠ 0 := by
    have hparts : read.2.parts = s.parts :=
      hread ▸ missRead_parts (s := missState (s.home off).1 s) hdmc op ctx part
    unfold wayMaskOf State.part? at hmask ⊢
    rwa [hparts]
  have hplace : (missAnswer off part op .clean (s.home off) read).2 =
      allocLine (s.home off).1 (wayMaskOf part read.2) (applyOp (fetchedLine off read.1 read.2) op) (missWrite op .clean) read.2 :=
    if_pos (by simp [hkeep, hmask'])
  rw [hplace]
  have hline : (applyOp (fetchedLine off read.1 read.2) op).line = off / 64 := applyOp_line _ op
  rw [← hline]
  exact allocLine_holds hmask' _ _ _ _

/-! ### A line of DRAM after a write (R156, R158) -/

theorem dramLine_readDram (off : Nat) {d : List Byte} (h : d.length = 64) (poison : Bool) (s : State) :
    (dramLine off d poison s).readDram (lineBase off) 64 = d := by
  have hread := readDram_storeDram s (lineBase off) d
  rw [h] at hread
  unfold dramLine
  rw [List.take_of_length_le (by omega)]
  exact hread

theorem dramLine_dramByte (off : Nat) (d : List Byte) (poison : Bool) (s : State) {a : Nat}
    (h : a < lineBase off ∨ lineBase off + 64 ≤ a) : (dramLine off d poison s).dramByte a = s.dramByte a := by
  have hlen : (d.take 64).length ≤ 64 := by simp
  refine (dramByte_storeDram s (lineBase off) (d.take 64) a).trans (if_neg ?_)
  omega

theorem mem_dramPoison_dramLine (off : Nat) (d : List Byte) (poison : Bool) (s : State) :
    off / 64 ∈ (dramLine off d poison s).dramPoison ↔ poison = true := by
  unfold dramLine State.storeDram
  cases poison
  · simp [dropAll]
  · by_cases h : off / 64 ∈ s.dramPoison <;> simp [addOnce, h]

/-! ### Answers, and the map-out requests that follow them (R161) -/

theorem recordMapOuts_eq (s : State) : recordMapOuts s = { s with nvm := (recordMapOuts s).nvm } := by
  refine forEach_inv (fun t => t = { s with nvm := t.nvm }) _ _ (fun c t ht => ?_) s rfl
  rw [ht]
  rfl

/-- The state once an access has answered, if it does, and firmware has recorded the map-out requests. -/
def replied (o : Option Out) (s : State) : State := recordMapOuts (o.elim s s.emit)

@[simp] theorem replied_frame (o : Option Out) (s : State) :
    (replied o s).pages = s.pages ∧ (replied o s).cores = s.cores ∧ (replied o s).slices = s.slices ∧
      (replied o s).dmcs = s.dmcs ∧ (replied o s).dram = s.dram ∧ (replied o s).dramPoison = s.dramPoison ∧
      (replied o s).safe = s.safe := by
  unfold replied
  rw [recordMapOuts_eq]
  cases o <;> exact ⟨rfl, rfl, rfl, rfl, rfl, rfl, rfl⟩

theorem replied_sends {s t : State} (h : Grows s t) (o : Out) : Sends s (replied (some o) t) o := by
  unfold replied
  rw [recordMapOuts_eq]
  exact Sends.before h (Sends.emit t o)

theorem sameMemory_of_eq {s t : State} (hdram : t.dram = s.dram) (hcores : t.cores = s.cores) : SameMemory s t := by
  constructor
  · intro a
    unfold State.dramByte
    rw [hdram]
  · intro n w
    unfold State.spWord State.core
    rw [hcores]

/-- A reply leaves both memories as they were. -/
theorem replied_sameMemory {s t : State} (h : SameMemory s t) (o : Option Out) : SameMemory s (replied o t) := by
  have hr : SameMemory t (replied o t) := sameMemory_of_eq (by simp) (by simp)
  exact ⟨fun a => (hr.1 a).trans (h.1 a), fun n w => (hr.2 n w).trans (h.2 n w)⟩

/-! ### Requests at a home slice (R151), and the host's (R413) -/

/-- What a read returns to the requester. -/
def readerOut (op : LineOp) (r : List Byte × Bool) : Option Out :=
  if op = .read && !r.1.isEmpty then some (.data 0xC2 (wordsOf r.1) r.2) else none

/-- What a read returns to the host. -/
def hostOut (op : LineOp) (r : List Byte × Bool) : Option Out :=
  if op = .read then some (.hostData (if r.1.isEmpty then List.replicate 64 0 else r.1)) else none

theorem readerOut_read {r : List Byte × Bool} (h : r.1 ≠ []) : readerOut .read r = some (.data 0xC2 (wordsOf r.1) r.2) := by
  simp [readerOut, h]

section Requests

variable {s : State} {off : Nat} {op : LineOp} {tag data : Upset} {dram : DramUpset} {P : State → Prop}

theorem completes_shcAccess {ctx : CtxNum} {part : PartNum} {copy : Option (Fin 2)} {r : (List Byte × Bool) × State}
    (hheld : dramHeld s off = false)
    (h : lineAccess off ctx.val part.val op tag data copy.isSome (copy.elim 0 (·.val)) dram s = r)
    (hP : P (replied (readerOut op r.1) r.2)) : Completes (.shcAccess ctx part off op tag data copy dram) s P := by
  refine ⟨_, ?_, hP⟩
  show Host.Outcome.next (sliceAccess ctx.val part.val off op tag data copy.isSome (copy.elim 0 (·.val)) dram s) = _
  obtain ⟨⟨bytes, poisoned⟩, t⟩ := r
  unfold sliceAccess readerOut replied
  rw [if_neg (by simp [hheld]), h]
  dsimp only
  split <;> rfl

theorem completes_shcAccess_held {ctx : CtxNum} {part : PartNum} {copy : Option (Fin 2)} (hheld : dramHeld s off = true) (hP : P s) :
    Completes (.shcAccess ctx part off op tag data copy dram) s P :=
  ⟨s, congrArg Host.Outcome.next (if_pos hheld), hP⟩

theorem completes_hostDramAccess {r : (List Byte × Bool) × State} (hinj : (s.hdr .pce).inj = 0) (hret : s.pwr.retention = false)
    (hoff : off < 2 ^ 38) (hheld : dramHeld s off = false) (h : lineAccess off 0xFFFF 0xFF op tag data false 0 dram s = r)
    (hP : P (replied (hostOut op r.1) r.2)) : Completes (.hostDramAccess off op tag data dram) s P := by
  refine ⟨_, ?_, hP⟩
  show Host.Outcome.next (hostDram off op tag data dram s) = _
  obtain ⟨⟨bytes, poisoned⟩, t⟩ := r
  unfold hostDram hostOut replied
  rw [receiveTlp_unarmed hinj]
  dsimp only
  rw [if_neg (by simp [hret]; omega), if_neg (by simp [hheld]), h]
  dsimp only
  split <;> rfl

theorem completes_hostDramAccess_held (hinj : (s.hdr .pce).inj = 0) (hret : s.pwr.retention = false)
    (hoff : off < 2 ^ 38) (hheld : dramHeld s off = true) (hP : P s) : Completes (.hostDramAccess off op tag data dram) s P := by
  refine ⟨s, ?_, hP⟩
  show Host.Outcome.next (hostDram off op tag data dram s) = _
  unfold hostDram
  rw [receiveTlp_unarmed hinj]
  dsimp only
  rw [if_neg (by simp [hret]; omega), if_pos hheld]

theorem completes_hostDramAccess_outside (hinj : (s.hdr .pce).inj = 0) (hout : s.pwr.retention = true ∨ 2 ^ 38 ≤ off)
    (hP : P (if op = .read then s.emit (.hostData (List.replicate 64 0)) else s)) :
    Completes (.hostDramAccess off op tag data dram) s P := by
  refine ⟨_, ?_, hP⟩
  show Host.Outcome.next (hostDram off op tag data dram s) = _
  unfold hostDram
  rw [receiveTlp_unarmed hinj]
  dsimp only
  rw [if_pos hout]

end Requests

/-! ### What a hit changes -/

@[simp] theorem hitState_frame (k off w : Nat) (y : CacheLine) (s : State) :
    (hitState k off w y s).outs = s.outs ∧ (hitState k off w y s).cores = s.cores ∧ (hitState k off w y s).dram = s.dram :=
  ⟨rfl, rfl, rfl⟩

theorem hitState_slice (k off w : Nat) (y : CacheLine) (s : State) :
    Tab.find ((hitState k off w y s).slice k).lines (lineKey off w) = some y ∧
      ((hitState k off w y s).slice k).hits = sat32 ((s.slice k).hits + 1) := by
  simp [hitState, touchWay]

theorem replied_slice (o : Option Out) (s : State) (k : Nat) : (replied o s).slice k = s.slice k := by
  unfold State.slice
  simp

theorem readDram_of_dram {s t : State} (h : t.dram = s.dram) (a n : Nat) : t.readDram a n = s.readDram a n := by
  unfold State.readDram State.dramByte
  rw [h]

theorem dramByte_of_dram {s t : State} (h : t.dram = s.dram) (a : Nat) : t.dramByte a = s.dramByte a := by
  unfold State.dramByte
  rw [h]

theorem tablesOver_ne_nil {s : State} {a : Nat} {d : List Byte} (h : d ≠ []) : s.tablesOver a d ≠ [] := by
  simpa [State.tablesOver] using h

theorem poisonLine_ne_nil : poisonLine ≠ [] := by decide

theorem rangeRefusal_grows (k off ctx part : Nat) (s : State) : Grows s (rangeRefusal k off ctx part s) := by
  have hraise := raiseAt_grows (.shc k) Bit.shcRange (deviceAddr off) (some (ctx, part)) s
  exact hraise.trans (Grows.of_eq (by simp [rangeRefusal]))

/-! ### The clauses -/

section Clauses

variable {s : State} {off : Nat}

/-- An isolated slice and a stopped mesh answer a NACK. -/
theorem shcAccess_stopped (hheld : dramHeld s off = false)
    (hstop : (s.hdr (.shc (s.home off).1)).isolated = true ∨ s.pwr.retention = true) (ctx : CtxNum) (part : PartNum) (op : LineOp)
    (tag data : Upset) (copy : Option (Fin 2)) (dram : DramUpset) :
    Completes (.shcAccess ctx part off op tag data copy dram) s (fun t =>
      Sends s t (.nack 0xC2) ∧ SameMemory s t ∧ t.slices = s.slices) := by
  refine completes_shcAccess hheld (lineAccess_stopped hstop _ _ _ _ _ _ _ _) ?_
  have hnone : readerOut op ([], false) = none := by simp [readerOut]
  rw [hnone]
  refine ⟨?_, replied_sameMemory (sameMemory_of_eq rfl rfl) none, by simp⟩
  unfold replied
  rw [recordMapOuts_eq]
  exact Sends.emit s _

section Hit

variable {w : Nat} {x : CacheLine} (hs : Served s off) (hheld : dramHeld s off = false)
  (hway : (s.slice (s.home off).1).wayOf (off / 64) = some w)
  (hx : Tab.find (s.slice (s.home off).1).lines (lineKey off w) = some x)
include hs hheld hway hx

/-- A read that hits gives the line's data. -/
theorem shcAccess_hitRead (hdata : x.poison = true ∨ x.data ≠ []) (ctx : CtxNum) (part : PartNum) (copy : Option (Fin 2)) :
    Completes (.shcAccess ctx part off .read .clean .clean copy .clean) s (fun t =>
      Sends s t (.data 0xC2 (wordsOf (if x.poison then poisonLine else s.tablesOver (lineBase off) x.data)) x.poison) ∧
      SameMemory s t) := by
  refine completes_shcAccess hheld (lineAccess_hit hs hway hx _ _ _ _ _ _) ?_
  have hne : (if x.poison then poisonLine else s.tablesOver (lineBase off) x.data) ≠ [] := by
    split
    · exact poisonLine_ne_nil
    · rename_i hclean
      exact tablesOver_ne_nil (hdata.resolve_left hclean)
  have hout : readerOut .read (if x.poison then poisonLine else s.tablesOver (lineBase off) x.data, x.poison) = _ :=
    readerOut_read hne
  show Sends s (replied (readerOut .read (if x.poison then poisonLine else s.tablesOver (lineBase off) x.data, x.poison)) _) _ ∧ _
  rw [hout]
  exact ⟨replied_sends (Grows.of_eq (by simp)) _, replied_sameMemory (sameMemory_of_eq (by simp) (by simp)) _⟩

/-- The same for the host, which is given zeros for a line that holds no data. -/
theorem hostDramAccess_hitRead (hinj : (s.hdr .pce).inj = 0) (hret : s.pwr.retention = false) (hoff : off < 2 ^ 38) :
    Completes (.hostDramAccess off .read .clean .clean .clean) s (fun t =>
      Sends s t (.hostData (if x.poison then poisonLine else if x.data = [] then List.replicate 64 0
        else s.tablesOver (lineBase off) x.data)) ∧ SameMemory s t) := by
  refine completes_hostDramAccess hinj hret hoff hheld (lineAccess_hit hs hway hx _ _ _ _ _ _) ?_
  have hout : hostOut .read (if x.poison then poisonLine else s.tablesOver (lineBase off) x.data, x.poison) =
      some (.hostData (if x.poison then poisonLine else if x.data = [] then List.replicate 64 0
        else s.tablesOver (lineBase off) x.data)) := by
    unfold hostOut
    by_cases hp : x.poison = true
    · simp [hp, poisonLine_ne_nil]
    · by_cases hd : x.data = []
      · simp [hp, hd, State.tablesOver]
      · simp [hp, hd, tablesOver_ne_nil hd]
  show Sends s (replied (hostOut .read (if x.poison then poisonLine else s.tablesOver (lineBase off) x.data, x.poison)) _) _ ∧ _
  rw [hout]
  exact ⟨replied_sends (Grows.of_eq (by simp)) _, replied_sameMemory (sameMemory_of_eq (by simp) (by simp)) _⟩

/-- Whoever asks, the operation is carried out on the line of the slice, and DRAM is left alone. -/
theorem access_hit (hinj : (s.hdr .pce).inj = 0) (hret : s.pwr.retention = false) (hoff : off < 2 ^ 38) (ctx : CtxNum)
    (part : PartNum) (copy : Option (Fin 2)) (op : LineOp) :
    ∀ i ∈ [Instr.shcAccess ctx part off op .clean .clean copy .clean, .hostDramAccess off op .clean .clean .clean],
      Completes i s (fun t =>
        Tab.find (t.slice (s.home off).1).lines (setOf (off / 64) * 16 + w) = some (applyOp x op) ∧
        (t.slice (s.home off).1).hits = sat32 ((s.slice (s.home off).1).hits + 1) ∧ SameMemory s t) := by
  have hafter : ∀ o : Option Out,
      let t := replied o (hitState (s.home off).1 off w (applyOp x op) s)
      Tab.find (t.slice (s.home off).1).lines (setOf (off / 64) * 16 + w) = some (applyOp x op) ∧
        (t.slice (s.home off).1).hits = sat32 ((s.slice (s.home off).1).hits + 1) ∧ SameMemory s t := by
    intro o t
    rw [show t.slice _ = _ from replied_slice _ _ _]
    obtain ⟨hline, hhits⟩ := hitState_slice (s.home off).1 off w (applyOp x op) s
    exact ⟨hline, hhits, replied_sameMemory (sameMemory_of_eq (by simp) (by simp)) o⟩
  simp only [List.forall_mem_cons, List.not_mem_nil, false_implies, implies_true, and_true]
  exact ⟨completes_shcAccess hheld (lineAccess_hit hs hway hx _ _ _ _ _ _) (hafter _),
    completes_hostDramAccess hinj hret hoff hheld (lineAccess_hit hs hway hx _ _ _ _ _ _) (hafter _)⟩

end Hit

section Miss

variable (hs : Served s off) (hheld : dramHeld s off = false)
  (hway : (s.slice (s.home off).1).wayOf (off / 64) = none) (ctx : CtxNum) {part : PartNum} (copy : Option (Fin 2))
include hs hheld hway

theorem shcAccess_missRead (hdmc : (s.hdr (.dmc (s.chanOf off))).inj = 0)
    (hpass : (s.home off).2 = false ∨ wayMaskOf part.val s % 65536 = 0) (hclean : off / 64 ∉ s.dramPoison) :
    Completes (.shcAccess ctx part off .read .clean .clean copy .clean) s (fun t =>
      Sends s t (.data 0xC2 (wordsOf (s.tablesOver (lineBase off) (s.readDram (lineBase off) 64))) false) ∧ SameMemory s t ∧
      (t.slice (s.home off).1).misses = sat32 ((s.slice (s.home off).1).misses + 1)) := by
  refine completes_shcAccess hheld (lineAccess_missRead hs hway hdmc hclean hpass _ _ _) ?_
  have hne : s.tablesOver (lineBase off) (s.readDram (lineBase off) 64) ≠ [] :=
    tablesOver_ne_nil (by simp [State.readDram])
  have hout : readerOut .read (s.tablesOver (lineBase off) (s.readDram (lineBase off) 64), false) = _ := readerOut_read hne
  rw [hout]
  refine ⟨replied_sends (Grows.of_eq rfl) _, replied_sameMemory (sameMemory_of_eq rfl rfl) _, ?_⟩
  rw [replied_slice]
  exact congrArg Slice.misses (State.slice_modSlice_self s _ _)

theorem shcAccess_missWrite (hpass : (s.home off).2 = false ∨ wayMaskOf part.val s % 65536 = 0) {d : List Byte}
    (hd : d.length = 64) :
    Completes (.shcAccess ctx part off (.writeLine d) .clean .clean copy .clean) s (fun t =>
      t.readDram (lineBase off) 64 = d ∧ off / 64 ∉ t.dramPoison ∧
      (∀ a, (a < lineBase off ∨ lineBase off + 64 ≤ a) → t.dramByte a = s.dramByte a)) := by
  refine completes_shcAccess hheld rfl ?_
  rw [lineAccess_missWrite hs hway hpass, List.take_of_length_le (by omega : d.length ≤ 64)]
  generalize readerOut _ _ = o
  refine ⟨?_, ?_, fun a ha => ?_⟩
  · rw [readDram_of_dram (s := dramLine off d false (missState (s.home off).1 s)) (by simp)]
    exact dramLine_readDram off hd false _
  · simp [mem_dramPoison_dramLine]
  · rw [dramByte_of_dram (s := dramLine off d false (missState (s.home off).1 s)) (by simp)]
    exact dramLine_dramByte off d false _ ha

theorem shcAccess_kept (hdmc : (s.hdr (.dmc (s.chanOf off))).inj = 0) (hkeep : (s.home off).2 = true)
    (hmask : wayMaskOf part.val s % 65536 ≠ 0) (op : LineOp) :
    Completes (.shcAccess ctx part off op .clean .clean copy .clean) s (fun t =>
      ((t.slice (s.home off).1).wayOf (off / 64)).isSome = true) := by
  refine completes_shcAccess hheld rfl ?_
  rw [replied_slice]
  exact lineAccess_kept hs hdmc hway hkeep hmask _ _ _ _

end Miss

/-- The host's access outside its window, or with the clocks stopped, reads zeros and writes nothing (R371, R413). -/
theorem hostDramAccess_outside (hinj : (s.hdr .pce).inj = 0) (hout : s.pwr.retention = true ∨ 2 ^ 38 ≤ off) (op : LineOp)
    (tag data : Upset) (dram : DramUpset) :
    Completes (.hostDramAccess off op tag data dram) s (fun t =>
      (op = .read → Sends s t (.hostData (List.replicate 64 0))) ∧ t = { s with outs := t.outs }) := by
  refine completes_hostDramAccess_outside hinj hout ⟨fun hop => ?_, ?_⟩
  · rw [if_pos hop]
    exact Sends.emit s _
  · split <;> rfl

/-- Beyond the addressable range the host reads the poison pattern and writes nothing (R159). -/
theorem hostDramAccess_beyond (hinj : (s.hdr .pce).inj = 0) (hret : s.pwr.retention = false) (hoff : off < 2 ^ 38)
    (hheld : dramHeld s off = false) (hsize : s.dramSize ≤ off) (hiso : (s.hdr (.shc (s.home off).1)).isolated = false)
    (op : LineOp) (tag data : Upset) (dram : DramUpset) :
    Completes (.hostDramAccess off op tag data dram) s (fun t =>
      (op = .read → Sends s t (.hostData poisonLine)) ∧
      (t.hdr (.shc (s.home off).1)).errStat.getLsbD Bit.shcRange = true ∧ SameMemory s t ∧ t.slices = s.slices) := by
  refine completes_hostDramAccess hinj hret hoff hheld (lineAccess_beyond hiso hret hsize _ _ _ _ _ _ _ _) ⟨fun hop => ?_, ?_, ?_, ?_⟩
  · have hout : hostOut op (poisonLine, true) = some (.hostData poisonLine) := by simp [hostOut, hop, poisonLine_ne_nil]
    rw [hout]
    exact replied_sends (rangeRefusal_grows _ _ _ _ s) _
  · rw [hdr_of_pages (s := raiseAt (.shc (s.home off).1) Bit.shcRange (deviceAddr off) (some (0xFFFF, 0xFF)) s)
      (by simp [rangeRefusal])]
    exact raiseAt_sets _ _ _ _ _ (by decide)
  · exact replied_sameMemory (sameMemory_of_eq (by simp [rangeRefusal]) (by simp [rangeRefusal])) _
  · simp [rangeRefusal]

end Clauses

/-! ### A dirty copy at the home slice is written back first (R149) -/

/-- Way `w` of the home slice holds `x` for the line of `off`. -/
def HomeHolds (s : State) (off w : Nat) (x : CacheLine) : Prop :=
  (s.slice (s.home off).1).wayOf (off / 64) = some w ∧ Tab.find (s.slice (s.home off).1).lines (lineKey off w) = some x

/-- The home slice once its dirty copy is written back. -/
def cleaned (off w : Nat) (x : CacheLine) (s : State) : State :=
  s.modSlice (s.home off).1 (fun y =>
    { y with writebacks := sat32 (y.writebacks + 1), lines := Tab.insert y.lines (lineKey off w) { x with dirty := false } })

theorem writeBack_dirty {s : State} {off w : Nat} {x : CacheLine} (h : HomeHolds s off w x) (hdirty : x.dirty = true) :
    writeBack off s = dramLine off x.data x.poison (cleaned off w x s) := by
  obtain ⟨hway, hx⟩ := h
  unfold writeBack
  unfold lineKey at hx
  simp only [hway, hx, hdirty, if_true]
  rfl

theorem writeBack_clean {s : State} {off : Nat} (h : ∀ w x, HomeHolds s off w x → x.dirty = false) : writeBack off s = s := by
  unfold writeBack
  dsimp only
  split
  · rfl
  · rename_i w hway
    split
    · rfl
    · rename_i x hx
      rw [h w x ⟨hway, hx⟩]
      rfl

/-- Writing back changes slices and the line of DRAM alone. -/
theorem writeBack_eq (off : Nat) (s : State) :
    writeBack off s = { s with slices := (writeBack off s).slices, dram := (writeBack off s).dram, dramPoison := (writeBack off s).dramPoison } ∧
      ∀ a, (a < lineBase off ∨ lineBase off + 64 ≤ a) → (writeBack off s).dramByte a = s.dramByte a := by
  by_cases h : ∃ w x, HomeHolds s off w x ∧ x.dirty = true
  · obtain ⟨w, x, hx, hdirty⟩ := h
    rw [writeBack_dirty hx hdirty]
    exact ⟨rfl, fun a ha => dramLine_dramByte off _ _ _ ha⟩
  · rw [writeBack_clean fun w x hx => by simpa using fun hd => h ⟨w, x, hx, hd⟩]
    exact ⟨rfl, fun a _ => rfl⟩

/-! ### Requests at a channel (R149, R158) -/

/-- The state in which a channel serves a request: the request is counted, and a dirty copy in the home slice is written back. -/
def requested (off part : Nat) (s : State) : State := writeBack off (countShare part (s.chanOf off) s)

section Requested

variable (off part : Nat) (s : State)

@[simp] theorem requested_frame :
    (requested off part s).outs = s.outs ∧ (requested off part s).pages = s.pages ∧ (requested off part s).cores = s.cores ∧
      (requested off part s).dmcs = s.dmcs ∧ (requested off part s).qmg = s.qmg ∧ (requested off part s).safe = s.safe ∧
      (requested off part s).tal = s.tal := by
  unfold requested
  rw [(writeBack_eq off _).1]
  exact ⟨rfl, rfl, rfl, rfl, rfl, rfl, rfl⟩

theorem requested_dramByte {a : Nat} (h : a < lineBase off ∨ lineBase off + 64 ≤ a) :
    (requested off part s).dramByte a = s.dramByte a := (writeBack_eq off _).2 a h

/-- The channel of a line, and the headers, stay as they were. -/
theorem requested_chanOf : (requested off part s).chanOf off = s.chanOf off := by
  simp [State.chanOf, State.activeChans, State.dmc]

variable {off part s}

theorem requested_unarmed (h : (s.hdr (.dmc (s.chanOf off))).inj = 0) :
    ((requested off part s).hdr (.dmc ((requested off part s).chanOf off))).inj = 0 := by
  rw [requested_chanOf, hdr_of_pages (s := s) (by simp)]
  exact h

/-- Without a dirty copy DRAM is as it was. -/
theorem requested_clean (h : ∀ w x, HomeHolds s off w x → x.dirty = false) :
    requested off part s = countShare part (s.chanOf off) s :=
  writeBack_clean (s := countShare part (s.chanOf off) s) h

theorem requested_dirty {w : Nat} {x : CacheLine} (h : HomeHolds s off w x) (hdirty : x.dirty = true) :
    requested off part s = dramLine off x.data x.poison (cleaned off w x (countShare part (s.chanOf off) s)) :=
  writeBack_dirty (s := countShare part (s.chanOf off) s) h hdirty

end Requested

/-- What a reader is given depends on the QMG's tables and on the bytes alone. -/
theorem tablesOver_of_qmg {s t : State} (h : t.qmg = s.qmg) (a : Nat) (d : List Byte) : t.tablesOver a d = s.tablesOver a d := by
  unfold State.tablesOver State.metaByte State.ringByte State.buffer
  rw [h]

/-- The data of a channel's answer to a read. -/
def channelOut (off : Nat) (read : Bool × State) : Out :=
  .data 0xC3 (wordsOf (if read.1 then poisonLine
    else read.2.tablesOver (lineBase off) (read.2.readDram (lineBase off) 64))) read.1

/-- The state once part of a line is written over what was read. -/
def patched (off k : Nat) (d : List Byte) (u : DramUpset) (read : Bool × State) : State :=
  syncHome off (dmcWriteLink off (writeHalf u)
    (dramLine off (writtenLine (read.2.readDram (lineBase off) 64) (.writePart k d)) read.1 read.2))

section Serve

variable {s : State} {off : Nat} {ctx : CtxNum} {part : PartNum} {u : DramUpset} {P : State → Prop}
  (hret : s.pwr.retention = false) (hsize : off < s.dramSize)
include hret hsize

theorem completes_dmcAccess_read {read : Bool × State} (h : dmcRead off u ctx.val part.val (requested off part.val s) = read)
    (hP : P (replied (some (channelOut off read)) read.2)) : Completes (.dmcAccess off .read u ctx part) s P := by
  refine ⟨_, ?_, hP⟩
  show Host.Outcome.next (dmcServe off .read u ctx.val part.val s) = _
  unfold dmcServe
  rw [if_neg (by simp [hret]), if_neg (by omega)]
  obtain ⟨poisoned, t⟩ := read
  unfold requested at h
  dsimp only
  rw [h]
  rfl

theorem completes_dmcAccess_writePart {read : Bool × State} {k : Nat} {d : List Byte}
    (h : dmcRead off u ctx.val part.val (requested off part.val s) = read)
    (hP : P (replied none (patched off k d u read))) : Completes (.dmcAccess off (.writePart k d) u ctx part) s P := by
  refine ⟨_, ?_, hP⟩
  show Host.Outcome.next (dmcServe off (.writePart k d) u ctx.val part.val s) = _
  unfold dmcServe
  rw [if_neg (by simp [hret]), if_neg (by omega)]
  obtain ⟨poisoned, t⟩ := read
  unfold requested at h
  dsimp only
  rw [h]
  rfl

theorem completes_dmcAccess_writeLine {d : List Byte}
    (hP : P (syncHome off (dmcWriteLink off u (dramLine off d false (requested off part.val s))))) :
    Completes (.dmcAccess off (.writeLine d) u ctx part) s P := by
  refine ⟨_, ?_, hP⟩
  show Host.Outcome.next (dmcServe off (.writeLine d) u ctx.val part.val s) = _
  unfold dmcServe
  rw [if_neg (by simp [hret]), if_neg (by omega)]
  rfl

end Serve

end Sys2Proof.Machine

/-! The channels of DRAM (R156 to R161): what a request at a channel does to its line, and the patrol scrubber. -/

namespace Sys2Proof.Machine

open Sys2Proof

/-! ### What the parts of a channel's service change -/

theorem syncHome_eq (off : Nat) (s : State) : syncHome off s = { s with slices := (syncHome off s).slices } := by
  unfold syncHome
  dsimp only
  split <;> rfl

@[simp] theorem syncHome_frame (off : Nat) (s : State) :
    (syncHome off s).pages = s.pages ∧ (syncHome off s).cores = s.cores ∧ (syncHome off s).dmcs = s.dmcs ∧
      (syncHome off s).dram = s.dram ∧ (syncHome off s).dramPoison = s.dramPoison := by
  rw [syncHome_eq]
  exact ⟨rfl, rfl, rfl, rfl, rfl⟩

/-- A line error of the written data is corrected and counted. -/
theorem dmcWriteLink_linkErr {u : DramUpset} (h : u = .linkCorr ∨ u = .linkCorrWrite) (off : Nat) (s : State) :
    dmcWriteLink off u s =
      raise (.dmc (s.chanOf off)) Bit.dmcLinkCorr (s.modDmc (s.chanOf off) (fun d => { d with linkCorr := sat32 (d.linkCorr + 1) })) :=
  if_pos h

theorem dmcWriteLink_clean (off : Nat) (s : State) : dmcWriteLink off .clean s = s := by simp [dmcWriteLink]

/-- An uncorrectable error poisons its line, counts, and goes to SAFE under the context of the access (R158). -/
theorem dmcUncorr_effect (c off ctx part : Nat) (s : State) :
    off / 64 ∈ (dmcUncorr c off ctx part s).dramPoison ∧
      ((dmcUncorr c off ctx part s).dmc c).eccUncorr = sat32 ((s.dmc c).eccUncorr + 1) ∧
      ((dmcUncorr c off ctx part s).hdr (.dmc c)).errStat.getLsbD Bit.dmcEccUncorr = true ∧
      (∃ ev ∈ (dmcUncorr c off ctx part s).safe.inbox, ev.unit = 0xC3 ∧ ev.ctx = ctx) ∧
      (dmcUncorr c off ctx part s).dram = s.dram ∧ (dmcUncorr c off ctx part s).cores = s.cores ∧
      Grows s (dmcUncorr c off ctx part s) := by
  unfold dmcUncorr
  dsimp only
  generalize hu : ({ s.modDmc c _ with dramPoison := _ } : State) = u
  have hpoison : off / 64 ∈ u.dramPoison := by
    subst hu
    by_cases h : off / 64 ∈ s.dramPoison <;> simp [addOnce, h]
  have hcount : (u.dmc c).eccUncorr = sat32 ((s.dmc c).eccUncorr + 1) := by
    subst hu
    simp [State.dmc, State.modDmc]
  have hdram : u.dram = s.dram := by subst hu; rfl
  have hcores : u.cores = s.cores := by subst hu; rfl
  have houts : u.outs = s.outs := by subst hu; rfl
  refine ⟨by simpa using hpoison, ?_, ?_, ?_, by simpa using hdram, by simpa using hcores, ?_⟩
  · rw [← hcount]
    simp [State.dmc]
  · rw [hdr_of_pages (s := raiseAt (.dmc c) Bit.dmcEccUncorr (deviceAddr (lineBase off)) none u) (by simp)]
    exact raiseAt_sets _ _ _ _ _ (by decide)
  · exact ⟨_, List.mem_append_right _ (List.mem_singleton.mpr rfl), rfl, rfl⟩
  · have hraise := raiseAt_grows (.dmc c) Bit.dmcEccUncorr (deviceAddr (lineBase off)) none u
    exact (Grows.of_eq houts).trans (hraise.trans (Grows.of_eq (by simp)))

/-! ### The clauses of a channel -/

theorem dmc_of_dmcs {s t : State} (h : t.dmcs = s.dmcs) (c : Nat) : t.dmc c = s.dmc c := by
  unfold State.dmc
  rw [h]

theorem sameScratchpads_of_cores {s t : State} (h : t.cores = s.cores) : SameScratchpads s t := by
  intro n w
  unfold State.spWord State.core
  rw [h]

/-- A read answers as the line is stored, and changes no more than the page of its channel. -/
theorem dmcRead_clean {s : State} {off : Nat} (hinj : (s.hdr (.dmc (s.chanOf off))).inj = 0) (ctx part : Nat) :
    ∃ s1, PageFrame s s1 ∧ Grows s s1 ∧ dmcRead off .clean ctx part s = (decide (off / 64 ∈ s.dramPoison), s1) := by
  by_cases h : off / 64 ∈ s.dramPoison
  · exact ⟨_, raise_pageFrame _ _ s, raise_grows _ _ s, by rw [dmcRead_poisoned hinj h, decide_eq_true h]⟩
  · exact ⟨_, PageFrame.refl s, Grows.of_eq rfl, by rw [dmcRead_fresh hinj h, decide_eq_false h]⟩

/-- Part of a line laid over it is a line. -/
theorem patch_length {old d : List Byte} {k : Nat} (hold : old.length = 64) (h : d.length + k ≤ 64) : (patch old k d).length = 64 := by
  simp only [patch, List.length_append, List.length_take, List.length_drop, hold]
  omega

section Channel

variable {s : State} {off : Nat} {ctx : CtxNum} {part : PartNum} (hinj : (s.hdr (.dmc (s.chanOf off))).inj = 0)
  (hret : s.pwr.retention = false) (hsize : off < s.dramSize)
include hinj hret hsize

section NoDirtyCopy

variable (hnone : ∀ w x, HomeHolds s off w x → x.dirty = false)
include hnone

theorem dmcAccess_readFresh (hclean : off / 64 ∉ s.dramPoison) :
    Completes (.dmcAccess off .read .clean ctx part) s (fun t =>
      Sends s t (.data 0xC3 (wordsOf (s.tablesOver (lineBase off) (s.readDram (lineBase off) 64))) false) ∧ SameMemory s t) := by
  refine completes_dmcAccess_read hret hsize ((congrArg (dmcRead off .clean ctx.val part.val) (requested_clean hnone)).trans
    (dmcRead_fresh (s := countShare part.val (s.chanOf off) s) hinj hclean _ _)) ?_
  exact ⟨replied_sends (Grows.of_eq rfl) _, replied_sameMemory (sameMemory_of_eq rfl rfl) _⟩

theorem dmcAccess_readPoisoned (hpoison : off / 64 ∈ s.dramPoison) :
    Completes (.dmcAccess off .read .clean ctx part) s (fun t =>
      Sends s t (.data 0xC3 (wordsOf poisonLine) true) ∧
      (t.hdr (.dmc (s.chanOf off))).errStat.getLsbD Bit.dmcPoison = true ∧ SameMemory s t) := by
  refine completes_dmcAccess_read hret hsize ((congrArg (dmcRead off .clean ctx.val part.val) (requested_clean hnone)).trans
    (dmcRead_poisoned (s := countShare part.val (s.chanOf off) s) hinj hpoison _ _)) ?_
  refine ⟨replied_sends (raise_grows _ _ (countShare part.val (s.chanOf off) s)) _, ?_,
    replied_sameMemory (sameMemory_of_eq (by simp [countShare]) (by simp [countShare])) _⟩
  rw [hdr_of_pages (replied_frame _ _).1]
  exact raise_sets _ _ (countShare part.val (s.chanOf off) s) (by decide)

theorem dmcAccess_readFails {u : DramUpset} (hu : u = .eccUncorr ∨ u = .linkTwice) :
    Completes (.dmcAccess off .read u ctx part) s (fun t =>
      Sends s t (.data 0xC3 (wordsOf poisonLine) true) ∧ off / 64 ∈ t.dramPoison ∧
      (t.dmc (s.chanOf off)).eccUncorr = sat32 ((s.dmc (s.chanOf off)).eccUncorr + 1) ∧
      (t.hdr (.dmc (s.chanOf off))).errStat.getLsbD Bit.dmcEccUncorr = true ∧
      (∃ ev ∈ t.safe.inbox, ev.unit = 0xC3 ∧ ev.ctx = ctx.val) ∧ SameMemory s t) := by
  obtain ⟨s1, hframe, hgrows, hread⟩ := dmcRead_fails (s := countShare part.val (s.chanOf off) s) hinj hu ctx.val part.val
  refine completes_dmcAccess_read hret hsize ((congrArg (dmcRead off u ctx.val part.val) (requested_clean hnone)).trans hread) ?_
  obtain ⟨hpoison, hcount, hbit, hevent, hdram, hcores, hsent⟩ := dmcUncorr_effect (s.chanOf off) off ctx.val part.val s1
  have hdmcs : s1.dmcs = s.dmcs := by rw [hframe]; rfl
  have hdram1 : s1.dram = s.dram := by rw [hframe]; rfl
  have hcores1 : s1.cores = s.cores := by rw [hframe]; rfl
  obtain ⟨rpages, -, -, rdmcs, -, rpoison, rsafe⟩ := replied_frame (some (channelOut off (true, dmcUncorr (s.chanOf off) off ctx.val part.val s1)))
    (dmcUncorr (s.chanOf off) off ctx.val part.val s1)
  refine ⟨replied_sends ((Grows.of_eq rfl).trans (hgrows.trans hsent)) _, ?_, ?_, ?_, ?_,
    replied_sameMemory (sameMemory_of_eq (hdram.trans hdram1) (hcores.trans hcores1)) _⟩
  · exact rpoison.symm ▸ hpoison
  · exact (congrArg Dmc.eccUncorr (dmc_of_dmcs rdmcs _)).trans (hcount.trans (by rw [dmc_of_dmcs hdmcs]))
  · exact (congrArg (fun h : Header => h.errStat.getLsbD Bit.dmcEccUncorr) (hdr_of_pages rpages _)).trans hbit
  · exact rsafe.symm ▸ hevent

theorem dmcAccess_writePart (hclean : off / 64 ∉ s.dramPoison) {k : Nat} {d : List Byte} (hlen : d.length + k ≤ 64) :
    Completes (.dmcAccess off (.writePart k d) .clean ctx part) s (fun t =>
      t.readDram (lineBase off) 64 = patch (s.readDram (lineBase off) 64) k d ∧
      (∀ a, (a < lineBase off ∨ lineBase off + 64 ≤ a) → t.dramByte a = s.dramByte a)) := by
  refine completes_dmcAccess_writePart hret hsize ((congrArg (dmcRead off .clean ctx.val part.val) (requested_clean hnone)).trans
    (dmcRead_fresh (s := countShare part.val (s.chanOf off) s) hinj hclean _ _)) ?_
  have hpatch : (patch (s.readDram (lineBase off) 64) k d).length = 64 := patch_length (by simp [State.readDram]) hlen
  have hline : (replied none (patched off k d .clean (false, countShare part.val (s.chanOf off) s))).dram =
      (dramLine off (patch (s.readDram (lineBase off) 64) k d) false (countShare part.val (s.chanOf off) s)).dram := by
    have hwritten : writtenLine (s.readDram (lineBase off) 64) (.writePart k d) = patch (s.readDram (lineBase off) 64) k d :=
      List.take_of_length_le (by omega)
    rw [← hwritten]
    exact ((replied_frame _ _).2.2.2.2.1).trans (syncHome_frame off _).2.2.2.1
  refine ⟨?_, fun a ha => ?_⟩
  · rw [readDram_of_dram hline]
    exact dramLine_readDram off hpatch _ _
  · rw [dramByte_of_dram hline]
    exact dramLine_dramByte off _ _ _ ha

end NoDirtyCopy

/-- A dirty copy in the home slice is written back first, and that is what the read answers. -/
theorem dmcAccess_readDirty {w : Nat} {x : CacheLine} (hx : HomeHolds s off w x) (hdirty : x.dirty = true) (hdata : x.data.length = 64) :
    Completes (.dmcAccess off .read .clean ctx part) s (fun t =>
      Sends s t (.data 0xC3 (wordsOf (if x.poison then poisonLine else s.tablesOver (lineBase off) x.data)) x.poison) ∧
      t.readDram (lineBase off) 64 = x.data ∧
      (∀ a, (a < lineBase off ∨ lineBase off + 64 ≤ a) → t.dramByte a = s.dramByte a) ∧
      Tab.find (t.slice (s.home off).1).lines (lineKey off w) = some { x with dirty := false }) := by
  obtain ⟨s1, hframe, hgrows, hread⟩ := dmcRead_clean (requested_unarmed (part := part.val) hinj) ctx.val part.val
  have hpoison : decide (off / 64 ∈ (requested off part.val s).dramPoison) = x.poison := by
    rw [requested_dirty hx hdirty]
    simp [mem_dramPoison_dramLine]
  refine completes_dmcAccess_read hret hsize hread ?_
  rw [hpoison]
  have hdram : s1.dram = (requested off part.val s).dram := by rw [hframe]
  have hline : s1.readDram (lineBase off) 64 = x.data := by
    rw [readDram_of_dram hdram, requested_dirty hx hdirty]
    exact dramLine_readDram off hdata _ _
  have hqmg : s1.qmg = s.qmg := by
    rw [hframe]
    simp
  have hout : channelOut off (x.poison, s1) =
      .data 0xC3 (wordsOf (if x.poison then poisonLine else s.tablesOver (lineBase off) x.data)) x.poison := by
    unfold channelOut
    dsimp only
    rw [hline, tablesOver_of_qmg hqmg]
  have hrdram : (replied (some (channelOut off (x.poison, s1))) s1).dram = s1.dram := (replied_frame _ _).2.2.2.2.1
  refine ⟨?_, ?_, fun a ha => ?_, ?_⟩
  · rw [← hout]
    exact replied_sends ((Grows.of_eq (by simp)).trans hgrows) _
  · rw [readDram_of_dram hrdram]
    exact hline
  · rw [dramByte_of_dram (hrdram.trans hdram)]
    exact requested_dramByte off part.val s ha
  · rw [replied_slice, show s1.slice _ = (requested off part.val s).slice _ by rw [hframe]; rfl, requested_dirty hx hdirty]
    show Tab.find ((cleaned off w x (countShare part.val (s.chanOf off) s)).slice _).lines _ = _
    unfold cleaned
    exact (congrArg (fun y : Slice => Tab.find y.lines (lineKey off w)) (State.slice_modSlice_self _ _ _)).trans (Tab.find_insert_self _ _ _)

omit hinj in
/-- A full-line write replaces the line, ends its poisoning, and changes no other byte. -/
theorem dmcAccess_writeLine {d : List Byte} (hd : d.length = 64) :
    Completes (.dmcAccess off (.writeLine d) .clean ctx part) s (fun t =>
      t.readDram (lineBase off) 64 = d ∧ off / 64 ∉ t.dramPoison ∧
      (∀ a, (a < lineBase off ∨ lineBase off + 64 ≤ a) → t.dramByte a = s.dramByte a) ∧ SameScratchpads s t) := by
  refine completes_dmcAccess_writeLine hret hsize ?_
  rw [dmcWriteLink_clean]
  obtain ⟨-, hcores, -, hdram, hpoison⟩ := syncHome_frame off (dramLine off d false (requested off part.val s))
  refine ⟨?_, ?_, fun a ha => ?_, sameScratchpads_of_cores (hcores.trans (requested_frame off part.val s).2.2.1)⟩
  · rw [readDram_of_dram hdram]
    exact dramLine_readDram off hd _ _
  · rw [hpoison]
    simp [mem_dramPoison_dramLine]
  · rw [dramByte_of_dram hdram, dramLine_dramByte off _ _ _ ha]
    exact requested_dramByte off part.val s ha

omit hinj in
/-- A link error of the written data is corrected and counted. -/
theorem dmcAccess_writeLinkErr {u : DramUpset} (hu : u = .linkCorr ∨ u = .linkCorrWrite) (d : List Byte) :
    Completes (.dmcAccess off (.writeLine d) u ctx part) s (fun t =>
      (t.dmc (s.chanOf off)).linkCorr = sat32 ((s.dmc (s.chanOf off)).linkCorr + 1) ∧
      (t.hdr (.dmc (s.chanOf off))).errStat.getLsbD Bit.dmcLinkCorr = true) := by
  refine completes_dmcAccess_writeLine hret hsize ?_
  have hchan : (dramLine off d false (requested off part.val s)).chanOf off = s.chanOf off := requested_chanOf off part.val s
  have hdmc : (dramLine off d false (requested off part.val s)).dmc (s.chanOf off) = s.dmc (s.chanOf off) := by
    show (requested off part.val s).dmc _ = _
    unfold State.dmc
    rw [(requested_frame off part.val s).2.2.2.1]
  rw [dmcWriteLink_linkErr hu, hchan]
  generalize hm : State.modDmc (dramLine off d false (requested off part.val s)) (s.chanOf off) _ = m
  have hcount : (m.dmc (s.chanOf off)).linkCorr = sat32 ((s.dmc (s.chanOf off)).linkCorr + 1) := by
    rw [← hm, State.dmc_modDmc_self, hdmc]
  obtain ⟨hpages, -, hdmcs, -, -⟩ := syncHome_frame off (raise (.dmc (s.chanOf off)) Bit.dmcLinkCorr m)
  constructor
  · rw [← hcount]
    unfold State.dmc
    rw [hdmcs, raise_pageFrame]
  · rw [hdr_of_pages hpages]
    exact raise_sets _ _ _ (by decide)

end Channel

/-! ### The patrol scrubber (R160, R161) -/

/-- A row in which the scrubber corrected an error: it is kept in mind, and on the second pass queued for repair. -/
def noteRow (key : Nat) (second : Bool) (d : Dmc) : Dmc :=
  if d.corrRows.contains key then
    if second then { d with corrRows := dropAll d.corrRows key, ppr := min 255 (d.ppr + 1) } else d
  else { d with corrRows := d.corrRows ++ [key] }

theorem noteRow_eccCorr (key : Nat) (second : Bool) (d : Dmc) : (noteRow key second d).eccCorr = d.eccCorr := by
  unfold noteRow
  split
  · split <;> rfl
  · rfl

theorem noteRow_first {key : Nat} {d : Dmc} (h : key ∉ d.corrRows) (second : Bool) :
    key ∈ (noteRow key second d).corrRows ∧ (noteRow key second d).ppr = d.ppr := by
  simp [noteRow, h]

theorem noteRow_second {key : Nat} {d : Dmc} (h : key ∈ d.corrRows) :
    (noteRow key true d).ppr = min 255 (d.ppr + 1) ∧ key ∉ (noteRow key true d).corrRows := by
  simp [noteRow, h, dropAll]

theorem patrolScrub_idle {s : State} {off : Nat} (h : s.pwr.retention = true ∨ s.dramSize ≤ off) (u : DramUpset) (second : Bool) :
    Completes (.patrolScrub off u second) s (fun t => t = s) :=
  ⟨s, congrArg Host.Outcome.next (if_pos (by simpa using h)), rfl⟩

section Patrol

variable {s : State} {off : Nat} (hinj : (s.hdr (.dmc (s.chanOf off))).inj = 0) (hret : s.pwr.retention = false)
  (hsize : off < s.dramSize)
include hinj hret hsize

theorem patrolScrub_clean (second : Bool) :
    Completes (.patrolScrub off .clean second) s (fun t => SameMemory s t ∧ t.dramPoison = s.dramPoison) := by
  have hstep : patrol off .clean second s = replied none (dmcRead off .clean 0xFFFF 0xFF s).2 := by
    unfold patrol
    simp only [hret, Bool.false_or, decide_eq_true_eq, Nat.not_le.mpr hsize, if_false, takeInj_unarmed hinj]
    rfl
  refine ⟨_, congrArg Host.Outcome.next hstep, ?_⟩
  have hframe : PageFrame s (dmcRead off .clean 0xFFFF 0xFF s).2 := dmcRead_clean_pageFrame hinj _ _
  refine ⟨replied_sameMemory (sameMemory_of_eq (by rw [hframe]) (by rw [hframe])) _, ?_⟩
  rw [(replied_frame _ _).2.2.2.2.2.1, hframe]

/-- A corrected error is counted and its row noted; the memories stay. -/
theorem patrolScrub_eccCorr_effect (second : Bool) :
    Completes (.patrolScrub off .eccCorr second) s (fun t => SameMemory s t ∧
      t.dmc (s.chanOf off) = noteRow (rowKey s off) second
        { s.dmc (s.chanOf off) with eccCorr := sat32 ((s.dmc (s.chanOf off)).eccCorr + 1) }) := by
  obtain ⟨s1, hframe, hread⟩ := dmcRead_eccCorr hinj 0xFFFF 0xFF
  have hstep : patrol off .eccCorr second s = replied none (s1.modDmc (s.chanOf off) (noteRow (rowKey s off) second)) := by
    unfold patrol
    simp only [hret, Bool.false_or, decide_eq_true_eq, Nat.not_le.mpr hsize, if_false, takeInj_unarmed hinj, hread]
    rfl
  refine ⟨_, congrArg Host.Outcome.next hstep, ?_⟩
  refine ⟨replied_sameMemory (sameMemory_of_eq ?_ ?_) _, ?_⟩
  · show s1.dram = s.dram
    rw [hframe]
    rfl
  · show s1.cores = s.cores
    rw [hframe]
    rfl
  · have hdmc : s1.dmc (s.chanOf off) = { s.dmc (s.chanOf off) with eccCorr := sat32 ((s.dmc (s.chanOf off)).eccCorr + 1) } := by
      rw [← State.dmc_modDmc_self s (s.chanOf off) (fun d => { d with eccCorr := sat32 (d.eccCorr + 1) })]
      unfold State.dmc
      rw [hframe]
    rw [← hdmc, ← State.dmc_modDmc_self s1 (s.chanOf off) (noteRow (rowKey s off) second)]
    exact dmc_of_dmcs (replied_frame _ _).2.2.2.1 _

theorem patrolScrub_eccCorr (second : Bool) :
    Completes (.patrolScrub off .eccCorr second) s (fun t =>
      (t.dmc (s.chanOf off)).eccCorr = sat32 ((s.dmc (s.chanOf off)).eccCorr + 1) ∧ SameMemory s t ∧
      (rowKey s off ∉ (s.dmc (s.chanOf off)).corrRows → rowKey s off ∈ (t.dmc (s.chanOf off)).corrRows ∧
        (t.dmc (s.chanOf off)).ppr = (s.dmc (s.chanOf off)).ppr) ∧
      (rowKey s off ∈ (s.dmc (s.chanOf off)).corrRows → second = true →
        (t.dmc (s.chanOf off)).ppr = min 255 ((s.dmc (s.chanOf off)).ppr + 1) ∧
        rowKey s off ∉ (t.dmc (s.chanOf off)).corrRows)) := by
  obtain ⟨t, hnext, hmem, hdmc⟩ := patrolScrub_eccCorr_effect hinj hret hsize second
  refine ⟨t, hnext, ?_, hmem, fun hrow => ?_, fun hrow hsecond => ?_⟩
  · rw [hdmc, noteRow_eccCorr]
  · rw [hdmc]
    exact noteRow_first (d := { s.dmc (s.chanOf off) with eccCorr := sat32 ((s.dmc (s.chanOf off)).eccCorr + 1) }) hrow second
  · rw [hdmc, hsecond]
    exact noteRow_second (d := { s.dmc (s.chanOf off) with eccCorr := sat32 ((s.dmc (s.chanOf off)).eccCorr + 1) }) hrow

end Patrol

theorem dmcAccess_stopped {s : State} (hret : s.pwr.retention = true) (off : Nat) (op : LineOp) (u : DramUpset) (ctx : CtxNum) (part : PartNum) :
    Completes (.dmcAccess off op u ctx part) s (fun t => Sends s t (.nack 0xC3) ∧ t = { s with outs := t.outs }) :=
  ⟨s.emit (.nack 0xC3), congrArg Host.Outcome.next (if_pos hret), Sends.emit s _, rfl⟩

theorem dmcAccess_beyond {s : State} {off : Nat} (hret : s.pwr.retention = false) (hsize : s.dramSize ≤ off) (op : LineOp)
    (u : DramUpset) (ctx : CtxNum) (part : PartNum) : Completes (.dmcAccess off op u ctx part) s (fun t => t = s) :=
  ⟨s, congrArg Host.Outcome.next ((if_neg (by simp [hret])).trans (if_pos hsize)), rfl⟩

/-! ### The obligation -/

/-- Settles O57: each access, as its line is held at its home, is carried out there or at the channel of the line. -/
theorem cacheAndDramAccessesComplete : Obligations.CacheAndDramAccessesComplete := by
  unfold Obligations.CacheAndDramAccessesComplete
  refine ⟨fun s ctx part off op tag data copy dram => ⟨fun hheld => ⟨completes_shcAccess_held hheld rfl, fun hret hoff hinj =>
      completes_hostDramAccess_held hinj hret hoff hheld rfl⟩, fun hheld hstop => shcAccess_stopped hheld hstop ctx part op tag data copy dram⟩,
    ?_, fun s off tag data dram hinj => ⟨fun hout op => hostDramAccess_outside hinj hout op tag data dram,
      fun hret hoff hheld hsize hiso op => hostDramAccess_beyond hinj hret hoff hheld hsize hiso op tag data dram⟩, ?_⟩
  · intro s ctx part off copy hret hoff hheld hsize hiso hinj hshc hdmc
    have hs : Served s off := ⟨hiso, hret, hsize, hshc⟩
    refine ⟨fun w hway x hx => ?_, fun hway => ?_⟩
    · exact ⟨fun hdata => shcAccess_hitRead hs hheld hway hx hdata ctx part copy,
        hostDramAccess_hitRead hs hheld hway hx hinj hret hoff,
        fun op => access_hit hs hheld hway hx hinj hret hoff ctx part copy op⟩
    · exact ⟨fun hpass => ⟨fun hclean => shcAccess_missRead hs hheld hway ctx copy hdmc hpass hclean,
          fun d hd => shcAccess_missWrite hs hheld hway ctx copy hpass hd⟩,
        fun hkeep hmask op => shcAccess_kept hs hheld hway ctx copy hdmc hkeep hmask op⟩
  · intro s off ctx part hinj
    refine ⟨fun hidle u second => patrolScrub_idle hidle u second, fun hret op u => dmcAccess_stopped hret off op u ctx part,
      fun hret hsize op u => dmcAccess_beyond hret hsize op u ctx part, fun hret hsize => ⟨fun hnone => ?_, ?_, ?_, ?_, ?_⟩⟩
    · have hnone' : ∀ w x, HomeHolds s off w x → x.dirty = false := fun w x hx => hnone w x hx.1 hx.2
      exact ⟨fun hclean => dmcAccess_readFresh hinj hret hsize hnone' hclean,
        fun hpoison => dmcAccess_readPoisoned hinj hret hsize hnone' hpoison,
        fun u hu => dmcAccess_readFails hinj hret hsize hnone' (by simpa using hu),
        fun k d hlen hclean => dmcAccess_writePart hinj hret hsize hnone' hclean hlen⟩
    · exact fun w x hway hx hdirty hdata => dmcAccess_readDirty hinj hret hsize ⟨hway, hx⟩ hdirty hdata
    · exact fun d hd => dmcAccess_writeLine hret hsize hd
    · exact fun u hu d => dmcAccess_writeLinkErr hret hsize (by simpa using hu) d
    · exact fun second => ⟨patrolScrub_clean hinj hret hsize second, patrolScrub_eccCorr hinj hret hsize second⟩

end Sys2Proof.Machine

/-! The power limit, THERMTRIP, the loss of coolant, and the stop of the clocks that follows (R357, R367, R370, R371). -/

namespace Sys2Proof.Machine

open Sys2Proof

/-! ### PWR_LIMIT_N (R367) -/

/-- Every quadrant's divider of the power limit set or released. -/
def limited (on : Bool) (s : State) : State := forEach [0, 1, 2, 3] (fun q s => s.modQuad q (fun x => { x with divLimit := on })) s

theorem limited_quad {q : Nat} (hq : q < 4) (on : Bool) (s : State) : (limited on s).quad q = { s.quad q with divLimit := on } := by
  have hcases : q = 0 ∨ q = 1 ∨ q = 2 ∨ q = 3 := by omega
  rcases hcases with rfl | rfl | rfl | rfl <;> simp [limited, forEach, State.quad_modQuad]

/-- Nothing but the quadrants changes. -/
theorem limited_eq (on : Bool) (s : State) : limited on s = { s with pwr := { s.pwr with quads := (limited on s).pwr.quads } } := by
  refine forEach_inv (fun t => t = { s with pwr := { s.pwr with quads := t.pwr.quads } }) _ _ (fun q t ht => ?_) s rfl
  rw [ht]
  rfl

theorem quad_of_quads {s t : State} (h : t.pwr.quads = s.pwr.quads) (q : Nat) : t.quad q = s.quad q := by
  unfold State.quad
  rw [h]

/-- What follows a detection without touching the pages leaves its bit. -/
theorem raised_sets {b : Block} {bit : Nat} {t u : State} (h : t.pages = (raise b bit u).pages) (hbit : bit < 32) :
    (t.hdr b).errStat.getLsbD bit = true := by
  rw [hdr_of_pages h]
  exact raise_sets b bit u hbit

theorem pwrLimit_completes (s : State) :
    Completes .pwrLimit s (fun t => (∀ q < 4, (t.quad q).div = true ∧ t.quad q = { s.quad q with divLimit := true }) ∧
      t.pwr.limitActive = true ∧ t.pwr.limitEvents = sat32 (s.pwr.limitEvents + 1) ∧
      (∃ ev, t.safe.inbox = s.safe.inbox ++ [ev] ∧ ev.cause = Cause.powerLimit ∧ ev.cls = 2) ∧
      t.safe.invOut = s.safe.invOut ++ [powerInval false] ∧ (t.hdr .pwr).errStat.getLsbD Bit.pwrLimit = true ∧
      t.streams = s.streams ∧ t.cores = s.cores ∧ SameMemory s t) := by
  obtain ⟨quads, hquads⟩ : ∃ quads, limited true s = { s with pwr := { s.pwr with quads := quads } } := ⟨_, limited_eq true s⟩
  have hstep : powerLimit s = sendInval (powerInval false)
      (report { unit := 0xC6, cause := Cause.powerLimit, cls := 2, bit := Bit.pwrLimit } (raise .pwr Bit.pwrLimit
        { s with pwr := { s.pwr with quads := quads, limitActive := true, limitEvents := sat32 (s.pwr.limitEvents + 1) } })) := by
    unfold powerLimit
    rw [show forEach [0, 1, 2, 3] _ s = _ from hquads]
    rfl
  refine ⟨powerLimit s, rfl, fun q hq => ?_, ?_⟩
  · have hquad : (powerLimit s).quad q = { s.quad q with divLimit := true } := by
      rw [← limited_quad hq, hquads, hstep]
      exact quad_of_quads (by simp) q
    exact ⟨by simp [hquad, Quad.div], hquad⟩
  rw [hstep]
  refine ⟨by simp, by simp, ?_, ?_, ?_, by simp, by simp, sameMemory_of_eq (by simp) (by simp)⟩
  · exact ⟨{ unit := 0xC6, cause := Cause.powerLimit, cls := 2, bit := Bit.pwrLimit, time := s.tal.time },
      by simp [sendInval, report, reportAt], rfl, rfl⟩
  · simp [sendInval, report, reportAt]
  · exact raised_sets (u := { s with pwr := { s.pwr with quads := quads, limitActive := true, limitEvents := sat32 (s.pwr.limitEvents + 1) } })
      (by simp) (by decide)

theorem pwrLimitRelease_completes {s : State} (h : s.pwr.limitActive = true) :
    Completes .pwrLimitRelease s (fun t =>
      (∀ q < 4, t.quad q = { s.quad q with divLimit := false }) ∧ t.pwr.limitActive = false ∧
      t.safe.invOut = (if s.pwr.overGrade then s.safe.invOut else s.safe.invOut ++ [powerInval true]) ∧
      t = { s with pwr := t.pwr, safe := t.safe }) := by
  obtain ⟨quads, hquads⟩ : ∃ quads, limited false s = { s with pwr := { s.pwr with quads := quads } } := ⟨_, limited_eq false s⟩
  have hstep : powerRelease s = if s.pwr.overGrade then { s with pwr := { s.pwr with quads := quads, limitActive := false } }
      else sendInval (powerInval true) { s with pwr := { s.pwr with quads := quads, limitActive := false } } := by
    unfold powerRelease
    rw [if_pos h, show forEach [0, 1, 2, 3] _ s = _ from hquads]
    rfl
  refine ⟨powerRelease s, rfl, ?_⟩
  have hquad : ∀ q < 4, State.quad { s with pwr := { s.pwr with quads := quads } } q = { s.quad q with divLimit := false } :=
    fun q hq => hquads ▸ limited_quad hq false s
  rw [hstep]
  by_cases hgrade : s.pwr.overGrade = true
  · rw [if_pos hgrade, if_pos hgrade]
    exact ⟨hquad, rfl, rfl, rfl⟩
  · rw [if_neg hgrade, if_neg hgrade]
    exact ⟨hquad, rfl, rfl, rfl⟩

/-! ### The stop of the device (R370, R371) -/

theorem enterSafe_ingressClosed {s : State} (h : s.boot.ingressClosed = true) (c : Nat) :
    (enterSafe c s).boot.ingressClosed = true := by
  unfold enterSafe beginSample
  dsimp only
  repeat' split
  all_goals simp [h]

/-- The safe state that stands keeps its cause. -/
theorem enterSafe_stands {s : State} (h : s.safe.ssCause ≠ 0) (c : Nat) : enterSafe c s = s :=
  if_pos (by simpa [State.inSafe] using h)

/-- The array and vector clocks stop and ingress closes; no core, no stream and no memory changes. -/
theorem stopDevice_frame (c : Nat) (s : State) :
    (stopDevice c s).pwr = { s.pwr with stopped := true } ∧ (stopDevice c s).boot.ingressClosed = true ∧
      (stopDevice c s).cores = s.cores ∧ (stopDevice c s).streams = s.streams ∧ (stopDevice c s).dram = s.dram := by
  refine ⟨?_, enterSafe_ingressClosed rfl c, ?_, ?_, ?_⟩ <;> simp [stopDevice]

theorem stopDevice_safe {s : State} (h : s.safe.ssCause = 0) (c : Nat) :
    (stopDevice c s).safe.ssCause = c ∧ PinsLow (stopDevice c s) := by
  obtain ⟨hcause, hpins⟩ :=
    enterSafe_safe (s := { s with pwr := { s.pwr with stopped := true }, boot := { s.boot with ingressClosed := true } }) c h
  exact ⟨hcause, fun _ => hpins⟩

theorem stopDevice_stands {s : State} (h : s.safe.ssCause ≠ 0) (c : Nat) : (stopDevice c s).safe = s.safe := by
  unfold stopDevice
  rw [enterSafe_stands (s := { s with pwr := { s.pwr with stopped := true }, boot := { s.boot with ingressClosed := true } }) h]

section Stop

variable {s u : State} (hcores : u.cores = s.cores) (hstreams : u.streams = s.streams) (hdram : u.dram = s.dram)
include hcores hstreams hdram

/-- A device that stops after what changes no core, no stream and no memory. -/
theorem stopDevice_after (c : Nat) :
    (stopDevice c u).pwr.stopped = true ∧ (stopDevice c u).boot.ingressClosed = true ∧
      (stopDevice c u).cores = s.cores ∧ (stopDevice c u).streams = s.streams ∧ SameMemory s (stopDevice c u) := by
  obtain ⟨tpwr, tboot, tcores, tstreams, tdram⟩ := stopDevice_frame c u
  exact ⟨by rw [tpwr], tboot, tcores.trans hcores, tstreams.trans hstreams,
    sameMemory_of_eq (tdram.trans hdram) (tcores.trans hcores)⟩

end Stop

/-- The state in which THERMTRIP stops the device. -/
def tripped (s : State) : State := raise .pwr Bit.pwrThermtrip (s.modPwr (fun p => { p with thermtrip := true }))

/-- The state in which the loss of coolant stops the device. -/
def uncooled (s : State) : State :=
  raise .pwr Bit.pwrCoolant { s with pwr := { s.pwr with coolantOk := false }, boot := { s.boot with coolantLowAt := s.clock } }

theorem tripped_frame (s : State) : (tripped s).safe = s.safe ∧ (tripped s).pwr.thermtrip = true ∧ (tripped s).cores = s.cores ∧
    (tripped s).streams = s.streams ∧ (tripped s).dram = s.dram := by
  simp [tripped]

theorem uncooled_frame (s : State) : (uncooled s).safe = s.safe ∧ (uncooled s).pwr.coolantOk = false ∧ (uncooled s).cores = s.cores ∧
    (uncooled s).streams = s.streams ∧ (uncooled s).dram = s.dram := by
  simp [uncooled]

theorem thermtrip_completes {s : State} (h : s.safe.ssCause = 0) (n : Fin 64) :
    Completes (.thermtrip n) s (fun t => t.safe.ssCause = SS.thermtrip ∧ PinsLow t ∧ t.pwr.thermtrip = true ∧
      t.pwr.stopped = true ∧ t.boot.ingressClosed = true ∧ t.cores = s.cores ∧ t.streams = s.streams ∧ SameMemory s t) := by
  obtain ⟨hsafe, hpwr, hcores, hstreams, hdram⟩ := tripped_frame s
  obtain ⟨tcause, tpins⟩ := stopDevice_safe (hsafe ▸ h) SS.thermtrip
  refine ⟨stopDevice SS.thermtrip (tripped s), rfl, tcause, tpins, ?_, stopDevice_after hcores hstreams hdram SS.thermtrip⟩
  rw [(stopDevice_frame _ _).1]
  exact hpwr

theorem coolant_completes {s : State} (h : s.safe.ssCause = 0) :
    Completes .coolant s (fun t => t.safe.ssCause = SS.coolant ∧ PinsLow t ∧ t.pwr.coolantOk = false ∧
      t.pwr.stopped = true ∧ t.boot.ingressClosed = true ∧ t.cores = s.cores ∧ t.streams = s.streams ∧ SameMemory s t) := by
  obtain ⟨hsafe, hpwr, hcores, hstreams, hdram⟩ := uncooled_frame s
  obtain ⟨tcause, tpins⟩ := stopDevice_safe (hsafe ▸ h) SS.coolant
  refine ⟨stopDevice SS.coolant (uncooled s), rfl, tcause, tpins, ?_, stopDevice_after hcores hstreams hdram SS.coolant⟩
  rw [(stopDevice_frame _ _).1]
  exact hpwr

/-- In the safe state either of them stops the device and leaves SAFE alone. -/
theorem stop_completes_inSafe {s : State} (h : s.safe.ssCause ≠ 0) (n : Fin 64) :
    ∀ i ∈ [Instr.thermtrip n, .coolant], Completes i s (fun t =>
      t.safe = s.safe ∧ t.pwr.stopped = true ∧ t.boot.ingressClosed = true ∧ t.cores = s.cores ∧ t.streams = s.streams ∧
      SameMemory s t) := by
  obtain ⟨asafe, -, acores, astreams, adram⟩ := tripped_frame s
  obtain ⟨bsafe, -, bcores, bstreams, bdram⟩ := uncooled_frame s
  simp only [List.forall_mem_cons, List.not_mem_nil, false_implies, implies_true, and_true]
  exact ⟨⟨stopDevice SS.thermtrip (tripped s), rfl, (stopDevice_stands (asafe ▸ h) _).trans asafe,
      stopDevice_after acores astreams adram SS.thermtrip⟩,
    ⟨stopDevice SS.coolant (uncooled s), rfl, (stopDevice_stands (bsafe ▸ h) _).trans bsafe,
      stopDevice_after bcores bstreams bdram SS.coolant⟩⟩

end Sys2Proof.Machine

/-! The stop of the clocks after THERMTRIP or coolant loss (R371): every accepted item gets its record, the active channels go into
self-refresh, and the stopped pages answer nothing. -/

namespace Sys2Proof.Machine

open Sys2Proof

/-! ### Forming the records of accepted items (R20) -/

theorem mem_insertRec {r x : Rec} : ∀ {l : List Rec}, r ∈ insertRec x l ↔ r = x ∨ r ∈ l
  | [] => by simp [insertRec]
  | y :: l => by
    unfold insertRec
    split
    · simp
    · simp only [List.mem_cons, mem_insertRec (l := l)]
      tauto

/-- Between `s` and `t` records were formed: an item that is gone has its record, and every record that was formed stays. -/
structure Recorded (s t : State) : Prop where
  frame : t = { s with streams := t.streams, free := t.free }
  streams : ∀ id st, s.stream? id = some st → ∃ u, t.stream? id = some u ∧ (∀ it ∈ u.items, it ∈ st.items) ∧
    (∀ it ∈ st.items, it ∈ u.items ∨ ∃ r ∈ u.formed, r.seq = it.seq) ∧ (∀ r ∈ st.formed, r ∈ u.formed)
  undeclared : ∀ id, s.stream? id = none → t.stream? id = none

theorem Recorded.refl (s : State) : Recorded s s :=
  ⟨rfl, fun _ st h => ⟨st, h, fun _ hit => hit, fun _ hit => .inl hit, fun _ hr => hr⟩, fun _ h => h⟩

theorem Recorded.trans {s t v : State} (h : Recorded s t) (k : Recorded t v) : Recorded s v := by
  refine ⟨?_, fun id st hst => ?_, fun id hnone => k.undeclared id (h.undeclared id hnone)⟩
  · have hk := k.frame
    rw [h.frame] at hk
    exact hk
  · obtain ⟨u, hu, hitems, hkept, hformed⟩ := h.streams id st hst
    obtain ⟨x, hx, kitems, kkept, kformed⟩ := k.streams id u hu
    refine ⟨x, hx, fun it hit => hitems it (kitems it hit), fun it hit => ?_, fun r hr => kformed r (hformed r hr)⟩
    rcases hkept it hit with hin | ⟨r, hr, hseq⟩
    · exact kkept it hin
    · exact .inr ⟨r, kformed r hr, hseq⟩

theorem Recorded.of_free {s t : State} (n : Nat) (h : Recorded { s with free := n } t) : Recorded s t :=
  ⟨h.frame, h.streams, h.undeclared⟩

theorem Recorded.forEach {α : Type} (xs : List α) {f : α → State → State} (h : ∀ x s, Recorded s (f x s)) (s : State) :
    Recorded s (forEach xs f s) :=
  forEach_inv (Recorded s) xs f (fun x _ ht => ht.trans (h x _)) s (Recorded.refl s)

/-- What each round of a loop brings about, and no later round undoes, holds at its end. -/
theorem forEach_reaches {α : Type} (R : State → State → Prop) (P : α → State → Prop) {f : α → State → State}
    (hstep : ∀ x s, R s (f x s)) (hreach : ∀ x s, P x (f x s)) (hkeep : ∀ x s t, P x s → R s t → P x t) (xs : List α) (s : State) :
    ∀ x ∈ xs, P x (forEach xs f s) := by
  induction xs generalizing s with
  | nil => simp
  | cons y ys ih =>
    intro x hx
    rcases List.mem_cons.mp hx with rfl | hin
    · exact forEach_inv (P x) ys f (fun z t ht => hkeep x t _ ht (hstep z t)) (f x s) (hreach x s)
    · exact ih (f y s) x hin

/-- No item `seq` of stream `id` waits for its record. -/
def NoItem (id seq : Nat) (s : State) : Prop := ∀ u, s.stream? id = some u → ∀ it ∈ u.items, it.seq ≠ seq

theorem item?_none {st : Stream} {seq : Nat} (h : st.item? seq = none) : ∀ it ∈ st.items, it.seq ≠ seq := by
  simpa [Stream.item?] using h

section FormRecord

variable (id seq : Nat) (own calls : List Nat) (payload : List Byte) (s : State)

theorem formRecord_recorded : Recorded s (formRecord id seq own calls payload s) := by
  unfold formRecord
  split
  · exact Recorded.refl s
  · rename_i st hst
    split
    · exact Recorded.refl s
    · rename_i it hit
      refine ⟨rfl, fun k u hu => ?_, fun k hnone => by rw [State.stream?_modStream]; split <;> simp_all⟩
      dsimp only
      rw [State.stream?_modStream]
      by_cases hk : k = id
      · subst hk
        rw [if_pos rfl, hu]
        refine ⟨_, rfl, fun x hx => (List.mem_filter.mp hx).1, fun x hx => ?_, fun r hr => mem_insertRec.mpr (.inr hr)⟩
        by_cases hseq : x.seq = seq
        · exact .inr ⟨_, mem_insertRec.mpr (.inl rfl), hseq.symm⟩
        · exact .inl (List.mem_filter.mpr ⟨hx, by simpa using hseq⟩)
      · rw [if_neg hk]
        exact ⟨u, hu, fun _ h => h, fun _ h => .inl h, fun _ h => h⟩

theorem formRecord_noItem : NoItem id seq (formRecord id seq own calls payload s) := by
  intro u hu
  unfold formRecord at hu
  split at hu
  · rename_i hnone
    exact absurd (hnone.symm.trans hu) (by simp)
  · rename_i st hst
    split at hu
    · rename_i hnone
      obtain rfl : st = u := Option.some.inj (hst.symm.trans hu)
      exact item?_none hnone
    · rw [State.stream?_modStream_self, hst] at hu
      obtain rfl := Option.some.inj hu
      intro x hx
      simpa using (List.mem_filter.mp hx).2

end FormRecord

theorem qmgRecord_recorded (id seq cause : Nat) (s : State) : Recorded s (qmgRecord id seq cause s) := by
  unfold qmgRecord
  split
  · exact Recorded.refl s
  · exact Recorded.of_free _ (formRecord_recorded _ _ _ _ _ _)

theorem qmgRecord_noItem (id seq cause : Nat) (s : State) : NoItem id seq (qmgRecord id seq cause s) := by
  unfold qmgRecord
  split
  · rename_i hnone
    intro u hu
    rw [hu] at hnone
    exact item?_none (by simpa using hnone)
  · exact formRecord_noItem _ _ _ _ _ _

theorem NoItem.of_recorded {id seq : Nat} {s t : State} (h : NoItem id seq s) (k : Recorded s t) : NoItem id seq t := by
  intro u hu it hit
  cases hst : s.stream? id with
  | none => exact absurd ((k.undeclared id hst).symm.trans hu) (by simp)
  | some st =>
    obtain ⟨x, hx, hitems, -⟩ := k.streams id st hst
    obtain rfl : x = u := Option.some.inj (hx.symm.trans hu)
    exact h st hst it (hitems it hit)

theorem recordAll_recorded (cause id : Nat) (s : State) : Recorded s (recordAll cause id s) := by
  unfold recordAll
  split
  · exact Recorded.refl s
  · exact Recorded.forEach _ (fun q t => qmgRecord_recorded id q cause t) s

theorem recordAll_noItem (cause id : Nat) (s : State) : ∀ seq, NoItem id seq (recordAll cause id s) := by
  intro seq u hu it hit hseq
  have hrecorded := recordAll_recorded cause id s
  cases hst : s.stream? id with
  | none => exact absurd ((hrecorded.undeclared id hst).symm.trans hu) (by simp)
  | some st =>
    obtain ⟨x, hx, hitems, -⟩ := hrecorded.streams id st hst
    obtain rfl : x = u := Option.some.inj (hx.symm.trans hu)
    have hdone : ∀ q ∈ st.items.map (·.seq), NoItem id q (recordAll cause id s) := by
      unfold recordAll
      rw [hst]
      exact forEach_reaches Recorded (NoItem id) (fun q t => qmgRecord_recorded id q cause t)
        (fun q t => qmgRecord_noItem id q cause t) (fun q a b h k => h.of_recorded k) _ s
    exact hdone it.seq (List.mem_map_of_mem (hitems it hit)) x hu it hit rfl

theorem recordEverything_recorded (cause : Nat) (s : State) : Recorded s (recordEverything cause s) :=
  Recorded.forEach _ (fun id t => recordAll_recorded cause id t) s

theorem Tab.mem_keys_of_find {α : Type} {k : Nat} {v : α} : ∀ {t : Tab α}, Tab.find t k = some v → k ∈ t.map (·.1)
  | [], h => by simp [Tab.find] at h
  | (a, b) :: t, h => by
    unfold Tab.find at h
    split at h
    · rename_i hk
      simp_all
    · exact List.mem_cons_of_mem _ (Tab.mem_keys_of_find h)

/-- Afterwards no accepted item of any stream waits for its record. -/
theorem recordEverything_items (cause : Nat) (s : State) {id : Nat} {u : Stream} (h : (recordEverything cause s).stream? id = some u) :
    u.items = [] := by
  have hrecorded := recordEverything_recorded cause s
  have hdecl : id ∈ s.streams.map (·.1) := by
    cases hst : s.stream? id with
    | none => exact absurd ((hrecorded.undeclared id hst).symm.trans h) (by simp)
    | some st => exact Tab.mem_keys_of_find hst
  have hdone : ∀ k ∈ s.streams.map (·.1), ∀ seq, NoItem k seq (recordEverything cause s) :=
    forEach_reaches Recorded (fun k t => ∀ seq, NoItem k seq t) (fun k t => recordAll_recorded cause k t)
      (fun k t => recordAll_noItem cause k t) (fun k a b hno hr seq => (hno seq).of_recorded hr) _ s
  exact List.eq_nil_iff_forall_not_mem.mpr fun it hit => hdone id hdecl it.seq u h it hit rfl

/-! ### The clocks stop -/

theorem Tab.find_map {α β : Type} (f : α → β) (k : Nat) : ∀ t : Tab α, Tab.find (t.map (fun e => (e.1, f e.2))) k = (Tab.find t k).map f
  | [] => rfl
  | (a, b) :: t => by
    simp only [List.map_cons, Tab.find]
    split
    · rfl
    · exact Tab.find_map f k t

/-- A channel that is active goes into self-refresh. -/
theorem selfRefresh_mode {s : State} {c : Nat} (h : (s.dmc c).mode = .active) : ((selfRefresh s).dmc c).mode = .selfRefresh := by
  unfold State.dmc Tab.get at h
  have hfind := Tab.find_map (fun d : Dmc => if d.mode = .active then { d with mode := .selfRefresh } else d) c s.dmcs
  unfold State.dmc Tab.get
  refine (congrArg (fun o : Option Dmc => (o.getD {}).mode) hfind).trans ?_
  cases hd : Tab.find s.dmcs c with
  | none => simp [hd] at h
  | some d =>
    rw [hd] at h
    simp [show d.mode = .active from h]

/-- The page of a stopped domain reads 0 and discards writes (R371). -/
theorem readReg_stopped {s : State} {b : Block} (hret : s.pwr.retention = true) (hstops : b.stops = true) (fn off : Nat) :
    readReg s fn b off = 0 := by
  unfold readReg
  simp [hret, hstops]

theorem writeReg_stopped {s : State} {b : Block} (hret : s.pwr.retention = true) (hstops : b.stops = true) (fn off : Nat) (v : W32) :
    writeReg fn b off v s = s := by
  unfold writeReg State.answers
  simp [hret, hstops]

theorem coolantClockStop_idle {s : State} (h : s.pwr.stopped = false ∨ s.pwr.retention = true) :
    Completes .coolantClockStop s (fun t => t = s) :=
  ⟨clocksStop s, rfl, if_neg (by rcases h with h | h <;> simp [h])⟩

theorem coolantClockStop_completes {s : State} (hstop : s.pwr.stopped = true) (hret : s.pwr.retention = false) :
    Completes .coolantClockStop s (fun t =>
      t.pwr = { s.pwr with retention := true } ∧ t.qmg = { s.qmg with frozen := true } ∧
      (∀ c, (s.dmc c).mode = .active → (t.dmc c).mode = .selfRefresh) ∧
      (∀ id st, s.stream? id = some st → ∃ u, t.stream? id = some u ∧ u.items = [] ∧
        (∀ it ∈ st.items, ∃ r ∈ u.formed, r.seq = it.seq) ∧ (∀ r ∈ st.formed, r ∈ u.formed)) ∧
      (∀ fn b off, b.stops = true → readReg t fn b off = 0) ∧ (∀ fn b off, b.stops = true → ∀ v, writeReg fn b off v t = t) ∧
      t = { s with pwr := t.pwr, qmg := t.qmg, dmcs := t.dmcs, streams := t.streams, free := t.free } ∧
      t.cores = s.cores ∧ SameMemory s t) := by
  have hrecorded := recordEverything_recorded Cause.safeState s
  have hitems : ∀ {id u}, (recordEverything Cause.safeState s).stream? id = some u → u.items = [] :=
    fun h => recordEverything_items Cause.safeState s h
  have hstep : clocksStop s =
      { selfRefresh (recordEverything Cause.safeState s) with
        pwr := { (recordEverything Cause.safeState s).pwr with retention := true },
        qmg := { (recordEverything Cause.safeState s).qmg with frozen := true } } := if_pos (by simp [hstop, hret])
  refine ⟨clocksStop s, rfl, ?_⟩
  rw [hstep]
  generalize recordEverything Cause.safeState s = r at hrecorded hitems
  obtain ⟨hframe, hstreams, -⟩ := hrecorded
  have hpwr : r.pwr = s.pwr := by rw [hframe]
  have hqmg : r.qmg = s.qmg := by rw [hframe]
  have hcores : r.cores = s.cores := by rw [hframe]
  refine ⟨by rw [hpwr], by rw [hqmg], fun c hc => ?_, fun id st hst => ?_, fun fn b off hb => readReg_stopped rfl hb fn off,
    fun fn b off hb v => writeReg_stopped rfl hb fn off v, ?_, hcores, sameMemory_of_eq ?_ hcores⟩
  · exact selfRefresh_mode (s := r) (by rw [hframe]; exact hc)
  · obtain ⟨u, hu, -, hkept, hformed⟩ := hstreams id st hst
    have hnil := hitems hu
    exact ⟨u, hu, hnil, fun it hit => (hkept it hit).resolve_left (by simp [hnil]), hformed⟩
  · rw [hframe]
    rfl
  · show r.dram = s.dram
    rw [hframe]

end Sys2Proof.Machine

/-! What the device's own reactions never do: put a command into a queue of waiting ones, load an image, create a partition, write DRAM,
enable a context, arm a stream, accept an item, take back a formed record or a report, end an isolation.  `Steady` holds between
two states when this is so, and each operation that reactions are made of has its one lemma. -/

namespace Sys2Proof.Machine

open Sys2Proof

/-! ### The relation -/

/-- What a reaction keeps of a stream: its context; it is not armed, accepts nothing and loses no formed record. -/
structure Stream.Kept (a b : Stream) : Prop where
  ctx : b.ctx = a.ctx
  armed : a.armed = false → b.armed = false
  formed : ∀ r ∈ a.formed, r ∈ b.formed
  items : ∀ it ∈ b.items, ∃ i ∈ a.items, i.seq = it.seq

theorem Stream.Kept.refl (a : Stream) : a.Kept a := ⟨rfl, id, fun _ h => h, fun it h => ⟨it, h, rfl⟩⟩

theorem Stream.Kept.trans {a b c : Stream} (h : a.Kept b) (k : b.Kept c) : a.Kept c := by
  refine ⟨k.ctx.trans h.ctx, fun ha => k.armed (h.armed ha), fun r hr => k.formed r (h.formed r hr), fun it hit => ?_⟩
  obtain ⟨i, hi, hseq⟩ := k.items it hit
  obtain ⟨j, hj, hjseq⟩ := h.items i hi
  exact ⟨j, hj, hjseq.trans hseq⟩

/-- A change that touches neither context, arming, items nor formed records. -/
theorem Stream.Kept.of_eq {a b : Stream} (hctx : b.ctx = a.ctx) (harmed : b.armed = a.armed) (hformed : b.formed = a.formed)
    (hitems : b.items = a.items) : a.Kept b :=
  ⟨hctx, fun h => harmed.trans h, fun _ h => hformed ▸ h, fun it h => ⟨it, hitems ▸ h, rfl⟩⟩

/-- An item that has no entry in the list of accepted ones gets none. -/
theorem Stream.Kept.item?_none {a b : Stream} (h : a.Kept b) {seq : Nat} (hnone : a.item? seq = none) : b.item? seq = none := by
  refine List.find?_eq_none.mpr fun it hit hseq => ?_
  obtain ⟨i, hi, hiseq⟩ := h.items it hit
  exact List.find?_eq_none.mp hnone i hi (by rw [hiseq]; exact hseq)

/-- A reaction of the device leads from `s` to `t`. -/
structure Steady (s t : State) : Prop where
  waiting : s.ctl.waiting = [] → t.ctl.waiting = []
  fences : s.ctl.fences = [] → t.ctl.fences = []
  images : t.images = s.images
  parts : t.parts = s.parts
  dram : t.dram = s.dram
  en : ∀ c, (s.ctx c).en = false → (t.ctx c).en = false
  undeclared : ∀ id, s.stream? id = none → t.stream? id = none
  streams : ∀ id a, s.stream? id = some a → ∃ b, t.stream? id = some b ∧ a.Kept b
  inbox : ∀ ev ∈ s.safe.inbox, ev ∈ t.safe.inbox
  invOut : ∀ i ∈ s.safe.invOut, i ∈ t.safe.invOut
  quads : ∀ q, (t.quad q).vrdy = (s.quad q).vrdy ∧ (t.quad q).isolated = (s.quad q).isolated
  up : t.pce.up = s.pce.up
  failed : ∀ v, (s.vote v).failed = true → (t.vote v).failed = true

theorem Steady.refl (s : State) : Steady s s :=
  ⟨id, id, rfl, rfl, rfl, fun _ => id, fun _ => id, fun _ a h => ⟨a, h, .refl a⟩, fun _ h => h, fun _ h => h, fun _ => ⟨rfl, rfl⟩, rfl,
    fun _ => id⟩

theorem Steady.trans {s t u : State} (h : Steady s t) (k : Steady t u) : Steady s u where
  waiting hs := k.waiting (h.waiting hs)
  fences hs := k.fences (h.fences hs)
  images := k.images.trans h.images
  parts := k.parts.trans h.parts
  dram := k.dram.trans h.dram
  en c hs := k.en c (h.en c hs)
  undeclared id hs := k.undeclared id (h.undeclared id hs)
  streams id a ha := by
    obtain ⟨b, hb, hab⟩ := h.streams id a ha
    obtain ⟨c, hc, hbc⟩ := k.streams id b hb
    exact ⟨c, hc, hab.trans hbc⟩
  inbox ev hev := k.inbox ev (h.inbox ev hev)
  invOut i hi := k.invOut i (h.invOut i hi)
  quads q := ⟨(k.quads q).1.trans (h.quads q).1, (k.quads q).2.trans (h.quads q).2⟩
  up := k.up.trans h.up
  failed v hv := k.failed v (h.failed v hv)

theorem Steady.forEach {α : Type} (xs : List α) {f : α → State → State} (h : ∀ x s, Steady s (f x s)) (s : State) :
    Steady s (forEach xs f s) :=
  forEach_inv (Steady s) xs f (fun x _ ht => ht.trans (h x _)) s (Steady.refl s)

/-- The parts of the state of which `Steady` speaks. -/
def State.watched (s : State) :=
  (s.ctl.waiting, s.ctl.fences, s.images, s.parts, s.dram, s.ctxs, s.streams, s.safe.inbox, s.safe.invOut, s.pwr.quads, s.pce.up,
    s.qmg.votes)

/-- An operation that leaves these alone. -/
theorem Steady.of_watched {s t : State} (h : t.watched = s.watched) : Steady s t := by
  simp only [State.watched, Prod.mk.injEq] at h
  obtain ⟨hwaiting, hfences, himages, hparts, hdram, hctxs, hstreams, hinbox, hinvOut, hquads, hup, hvotes⟩ := h
  refine ⟨fun h => hwaiting.trans h, fun h => hfences.trans h, himages, hparts, hdram, fun c => ?_, fun id => ?_, fun id a ha => ?_,
    fun _ h => hinbox ▸ h, fun _ h => hinvOut ▸ h, fun q => ?_, hup, fun v => ?_⟩
  · unfold State.ctx; rw [hctxs]; exact id
  · unfold State.stream?; rw [hstreams]; exact fun h => h
  · exact ⟨a, by unfold State.stream? at ha ⊢; rw [hstreams]; exact ha, .refl a⟩
  · unfold State.quad; rw [hquads]; exact ⟨rfl, rfl⟩
  · unfold State.vote; rw [hvotes]; exact fun h => h

/-! ### Changes of one part -/

theorem modCore_steady (n : Nat) (f : CoreSt → CoreSt) (s : State) : Steady s (s.modCore n f) := .of_watched rfl

theorem modQueue_steady (n : Nat) (f : Queue → Queue) (s : State) : Steady s (s.modQueue n f) := .of_watched rfl

theorem modBuffer_steady (p i : Nat) (f : Buffer → Buffer) (s : State) : Steady s (s.modBuffer p i f) := .of_watched rfl

/-- A change of the QMG that leaves the vote units alone. -/
theorem modQmg_steady {f : Qmg → Qmg} {s : State} (h : (f s.qmg).votes = s.qmg.votes) : Steady s (s.modQmg f) :=
  .of_watched (by simp [State.watched, State.modQmg, h])

theorem modCtl_steady {f : Ctl → Ctl} {s : State} (hwaiting : (f s.ctl).waiting = s.ctl.waiting) (hfences : (f s.ctl).fences = s.ctl.fences) :
    Steady s (s.modCtl f) :=
  .of_watched (by simp [State.watched, State.modCtl, hwaiting, hfences])

theorem modTal_steady (f : Tal → Tal) (s : State) : Steady s (s.modTal f) := .of_watched rfl

theorem modPpe_steady (f : Ppe → Ppe) (s : State) : Steady s (s.modPpe f) := .of_watched rfl

theorem modHdr_steady (b : Block) (f : Header → Header) (s : State) : Steady s (s.modHdr b f) := .of_watched rfl

theorem draw_steady (n : Nat) (s : State) : Steady s { s with free := n } := .of_watched rfl

theorem modStream_steady {id : Nat} {f : Stream → Stream} (s : State) (h : ∀ st : Stream, s.stream? id = some st → st.Kept (f st)) :
    Steady s (s.modStream id f) := by
  refine { Steady.refl s with undeclared := fun k hk => ?_, streams := fun k a ha => ?_ }
  · rw [State.stream?_modStream]
    split
    · rename_i heq
      rw [← heq, hk]
      rfl
    · exact hk
  · rw [State.stream?_modStream]
    split
    · rename_i heq
      rw [← heq, ha]
      exact ⟨f a, rfl, h a (heq ▸ ha)⟩
    · exact ⟨a, ha, .refl a⟩

theorem mapStreams_steady (s : State) {f : Stream → Stream} (h : ∀ st : Stream, st.Kept (f st)) :
    Steady s { s with streams := s.streams.map (fun e => (e.1, f e.2)) } := by
  have hfind : ∀ k, State.stream? { s with streams := s.streams.map (fun e => (e.1, f e.2)) } k = (s.stream? k).map f :=
    fun k => Tab.find_map f k s.streams
  refine { Steady.refl s with undeclared := fun k hk => ?_, streams := fun k a ha => ?_ }
  · rw [hfind, hk]
    rfl
  · rw [hfind, ha]
    exact ⟨f a, rfl, h a⟩

theorem modCtx_steady (c : Nat) {f : Ctx → Ctx} (h : ∀ x, x.en = false → (f x).en = false) (s : State) : Steady s (s.modCtx c f) := by
  refine { Steady.refl s with en := fun d hd => ?_ }
  rw [State.ctx_modCtx]
  split
  · rename_i heq
    exact h _ (heq ▸ hd)
  · exact hd

theorem modQuad_steady (q : Nat) {f : Quad → Quad} (h : ∀ x, (f x).vrdy = x.vrdy ∧ (f x).isolated = x.isolated) (s : State) :
    Steady s (s.modQuad q f) := by
  refine { Steady.refl s with quads := fun k => ?_ }
  rw [State.quad_modQuad]
  split
  · rename_i heq
    rw [heq]
    exact h _
  · exact ⟨rfl, rfl⟩

theorem modVote_steady (v : Nat) {f : VoteUnit → VoteUnit} (h : ∀ u, u.failed = true → (f u).failed = true) (s : State) :
    Steady s (s.modVote v f) := by
  refine { Steady.refl s with failed := fun k hk => ?_ }
  rw [State.vote_modVote]
  split
  · rename_i heq
    exact h _ (heq ▸ hk)
  · exact hk

/-! ### Detections, reports and invalidations -/

theorem reportAt_steady (t : Nat) (e : FaultEv) (s : State) : Steady s (reportAt t e s) :=
  { Steady.refl s with inbox := fun _ h => List.mem_append_left _ h }

theorem report_steady (e : FaultEv) (s : State) : Steady s (report e s) := reportAt_steady _ e s

theorem report_inbox (e : FaultEv) (s : State) : { e with time := s.tal.time } ∈ (report e s).safe.inbox :=
  List.mem_append_right _ (List.mem_singleton.mpr rfl)

theorem sendInval_steady (i : Inval) (s : State) : Steady s (sendInval i s) :=
  { Steady.refl s with invOut := fun _ h => List.mem_append_left _ h }

theorem sendInval_invOut (i : Inval) (s : State) : i ∈ (sendInval i s).safe.invOut :=
  List.mem_append_right _ (List.mem_singleton.mpr rfl)

theorem sendMsix_up (fn vec : Nat) (s : State) : (sendMsix fn vec s).pce.up = s.pce.up := by
  unfold sendMsix
  split <;> rfl

theorem raiseAt_up (b : Block) (bit addr : Nat) (who : Option (Nat × Nat)) (s : State) : (raiseAt b bit addr who s).pce.up = s.pce.up := by
  unfold raiseAt raiseInt
  dsimp only
  split
  · split
    · exact sendMsix_up _ _ _
    · rfl
  · rfl

theorem raiseAt_steady (b : Block) (bit addr : Nat) (who : Option (Nat × Nat)) (s : State) : Steady s (raiseAt b bit addr who s) :=
  .of_watched (by simp [State.watched, raiseAt_up])

theorem raise_steady (b : Block) (bit : Nat) (s : State) : Steady s (raise b bit s) := raiseAt_steady _ _ _ _ _

theorem takeInj_steady (b : Block) (bit : Nat) (s : State) : Steady s (takeInj b bit s).2 := by
  unfold takeInj
  dsimp only
  split
  · exact .of_watched rfl
  · exact .refl s

/-! ### Waits and units -/

theorem flagUnit_steady (n cause : Nat) (s : State) : Steady s (flagUnit n cause s) := modCore_steady n _ s

theorem refuseOp_steady (a : Agent) (bit : Option Nat) (s : State) : Steady s (refuseOp a bit s) := by
  have hraise : Steady s (match bit with | none => s | some b => raise .qmg b s) := by
    cases bit with
    | none => exact .refl s
    | some b => exact raise_steady _ _ s
  unfold refuseOp
  dsimp only
  split
  · exact hraise.trans ((report_steady _ _).trans (flagUnit_steady _ _ _))
  · exact hraise

theorem beginWait_steady (c : Nat) (on : WaitOn) (s : State) : Steady s (beginWait c on s) := .of_watched rfl

theorem endWait_steady (c : Nat) (on : WaitOn) (s : State) : Steady s (endWait c on s) := .of_watched rfl

theorem dropWaits_steady (c : Nat) (s : State) : Steady s (dropWaits c s) := .of_watched rfl

theorem agentWait_steady (a : Agent) (on : WaitOn) (s : State) : Steady s (agentWait a on s) := by
  unfold agentWait
  split
  · exact beginWait_steady _ _ s
  · exact .refl s

end Sys2Proof.Machine

/-! Handles, queues and units under a reaction of the device: every operation is `Steady`. -/

namespace Sys2Proof.Machine

open Sys2Proof

/-! ### Buffers that go back (R135, R179) -/

theorem closeWindows_steady (pl : PoolSt) (i : Nat) (s : State) : Steady s (closeWindows pl i s) := by
  unfold closeWindows
  split
  · exact .forEach _ (fun c t => modCore_steady c _ t) s
  · exact .refl s

theorem giveFree_steady (p : Nat) (pl : PoolSt) (i tag : Nat) (s : State) : Steady s (giveFree p pl i tag s) := by
  unfold giveFree
  dsimp only
  exact (modBuffer_steady p i _ s).trans ((closeWindows_steady pl i _).trans (modQueue_steady _ _ _))

theorem forceFree_steady (h : W64) (s : State) : Steady s (forceFree h s) := by
  unfold forceFree
  dsimp only
  split
  · exact .refl s
  · split
    · exact giveFree_steady _ _ _ _ s
    · exact .refl s

theorem forceFrees_steady (hs : List W64) (s : State) : Steady s (forEach hs forceFree s) := .forEach hs forceFree_steady s

/-! ### Units that stop (R43, R64) -/

theorem reportOwed_steady (c : Nat) (u : UnitInst) (corrected : Bool) (s : State) : Steady s (reportOwed c u corrected s) := by
  have hone : ∀ (cause : Nat) (ev : FaultEv) (t : State), Steady t (if cause = 0 then t else reportAt u.owedAt ev t) := by
    intro cause ev t
    split
    · exact .refl t
    · exact reportAt_steady _ ev t
  exact (hone u.retry _ s).trans (hone u.owed _ _)

theorem stopUnit_steady (c : Nat) (s : State) : Steady s (stopUnit c s) := by
  unfold stopUnit
  split
  · exact .refl s
  · exact (modCore_steady c _ s).trans ((dropWaits_steady c _).trans ((forceFrees_steady _ _).trans (reportOwed_steady _ _ _ _)))

/-! ### Handles that are delivered and pushed (R184, R187, R190) -/

theorem issueTransfer_steady (c n : Nat) (h : Option W64) (s : State) : Steady s (issueTransfer c n h s) := .of_watched rfl

theorem issueFetch_steady (f : Fetch) (s : State) : Steady s (issueFetch f s) := by
  unfold issueFetch
  dsimp only
  exact (Steady.forEach _ (fun _ t => issueTransfer_steady _ _ _ t) s).trans (modQmg_steady rfl)

theorem issueFetches_steady (n : Nat) (s : State) : Steady s (issueFetches n s) := by
  unfold issueFetches
  exact (modQmg_steady rfl).trans (.forEach _ issueFetch_steady _)

theorem deliver_steady (c n : Nat) (q : Queue) (h : W64) (s : State) : Steady s (deliver c n q h s) := by
  unfold deliver State.nextOrder
  dsimp only
  split
  · exact (modQmg_steady rfl).trans ((modCore_steady c _ _).trans ((modQmg_steady rfl).trans (issueFetches_steady n _)))
  · exact (modQmg_steady rfl).trans (modCore_steady c _ _)

theorem pushEntry_steady (n : Nat) (h : W64) (s : State) : Steady s (pushEntry n h s) := by
  have hdirect : ∀ (cs : List Nat) (q : Queue) (t : State),
      Steady t (forEach cs (fun c s => deliver c n q h (endWait c (.pop n) s)) t) :=
    fun cs q t => .forEach cs (fun c u => (endWait_steady c _ u).trans (deliver_steady c n q h _)) t
  unfold pushEntry
  dsimp only
  split
  · exact (modQueue_steady n _ s).trans (hdirect _ _ _)
  · exact (modQueue_steady n _ s).trans (hdirect _ _ _)

theorem faultQueue_steady (n : Nat) (s : State) : Steady s (faultQueue n s) := by
  unfold faultQueue
  split
  · exact modQueue_steady n _ s
  · refine modCtx_steady _ (fun x hx => ?_) s
    split <;> exact hx

theorem readDescriptor_steady (n : Nat) (u : Upset) (s : State) : Steady s (readDescriptor n u s).2 := by
  have hcorr : ∀ (b : Bool) (t : State),
      Steady t (if b then raise .qmg Bit.qmgDescCorr (t.modQmg (fun m => { m with descCorr := sat32 (m.descCorr + 1) })) else t) := by
    intro b t
    cases b with
    | true => exact (modQmg_steady rfl).trans (raise_steady _ _ _)
    | false => exact .refl t
  have hcorrected := takeInj_steady .qmg Bit.qmgDescCorr s
  unfold readDescriptor
  generalize takeInj .qmg Bit.qmgDescCorr s = taken at hcorrected ⊢
  obtain ⟨corr, s1⟩ := taken
  dsimp only at hcorrected ⊢
  have hread := hcorrected.trans (hcorr (corr || u == .corrected) s1)
  generalize (if (corr || u == .corrected) = true then _ else s1) = s2 at hread ⊢
  have htaken := hread.trans (takeInj_steady .qmg Bit.qmgDescUncorr s2)
  generalize takeInj .qmg Bit.qmgDescUncorr s2 = taken at htaken ⊢
  obtain ⟨unc, s3⟩ := taken
  dsimp only at htaken ⊢
  generalize queueOwner n s3 = owner
  obtain ⟨ctx, part, id⟩ := owner
  split
  · dsimp only
    exact htaken.trans ((faultQueue_steady n _).trans ((raiseAt_steady _ _ _ _ _).trans (report_steady _ _)))
  · exact htaken

theorem pushTurn_steady (u : Upset) (a : Agent) (n : Nat) (h : W64) (s : State) : Steady s (pushTurn u a n h s).2 := by
  have hread := readDescriptor_steady n u s
  unfold pushTurn
  generalize readDescriptor n u s = read at hread ⊢
  obtain ⟨ok, t⟩ := read
  refine hread.trans ?_
  dsimp only
  repeat' split
  all_goals dsimp only
  · exact refuseOp_steady _ _ t
  · exact refuseOp_steady _ _ t
  · exact .refl t
  · exact refuseOp_steady _ _ t
  · exact agentWait_steady _ _ t
  · exact refuseOp_steady _ _ t
  · exact refuseOp_steady _ _ t
  · exact (modQmg_steady rfl).trans (beginWait_steady _ _ _)
  · exact .refl t
  · exact pushEntry_steady n h t

theorem push_steady (a : Agent) (n : Nat) (h : W64) (s : State) : Steady s (push a n h s) := pushTurn_steady _ a n h s

/-! ### Returns (R178, R179) -/

theorem countReturn_steady (a : Agent) (h : W64) (pl : PoolSt) (s : State) : Steady s (countReturn a h pl s).2 := by
  unfold countReturn
  dsimp only
  repeat' split
  all_goals dsimp only
  · exact refuseOp_steady _ _ s
  · exact refuseOp_steady _ _ s
  · exact giveFree_steady _ _ _ _ s
  · exact modBuffer_steady _ _ _ s

theorem returnHere_steady (a : Agent) (h : W64) (pl : PoolSt) (s : State) : Steady s (returnHere a h pl s).2 := by
  unfold returnHere
  split
  · exact agentWait_steady _ _ s
  · exact refuseOp_steady _ _ s
  · exact countReturn_steady a h pl s

theorem returnTurn_steady (a : Agent) (h : W64) (s : State) : Steady s (returnTurn a h s).2 := by
  unfold returnTurn
  split
  · dsimp only
    exact refuseOp_steady _ _ s
  · rename_i pl _
    have hread := readDescriptor_steady pl.freeQueue .clean s
    generalize readDescriptor pl.freeQueue .clean s = read at hread ⊢
    obtain ⟨ok, t⟩ := read
    refine hread.trans ?_
    dsimp only
    repeat' split
    · dsimp only
      exact refuseOp_steady _ _ t
    · dsimp only
      exact refuseOp_steady _ _ t
    · exact returnHere_steady a h pl t

theorem giveBack_steady (a : Agent) (h : W64) (s : State) : Steady s (giveBack a h s) := returnTurn_steady a h s

/-! ### Outputs of a unit (R92, R174) -/

theorem checkOutput_steady (payload : Option (List Byte)) (h : W64) (s : State) : Steady s (checkOutput payload h s) := by
  unfold checkOutput
  dsimp only
  split
  · exact modBuffer_steady _ _ _ s
  · exact .of_watched rfl

theorem stampOutput_steady (u : UnitInst) (h : W64) (s : State) : Steady s (stampOutput u h s) := by
  unfold stampOutput
  dsimp only
  exact modBuffer_steady _ _ _ s

/-- A change of the items that keeps their numbers. -/
theorem Stream.Kept.mapItems {f : Item → Item} (h : ∀ it, (f it).seq = it.seq) (st : Stream) : st.Kept { st with items := st.items.map f } := by
  refine ⟨rfl, id, fun _ hr => hr, fun it hit => ?_⟩
  obtain ⟨i, hi, rfl⟩ := List.mem_map.mp hit
  exact ⟨i, hi, (h i).symm⟩

theorem notePushed_steady (u : UnitInst) (s : State) : Steady s (notePushed u s) := by
  refine modStream_steady s (fun st _ => Stream.Kept.mapItems (fun it => ?_) st)
  split <;> rfl

theorem pushOutputs_steady (c : CoreNum) (u : UnitInst) (s : State) : Steady s (pushOutputs c u s) := by
  unfold pushOutputs
  refine (Steady.forEach u.outputs (fun o t => ?_) s).trans (notePushed_steady u _)
  exact (stampOutput_steady u o.2 t).trans ((checkOutput_steady _ _ _).trans (push_steady _ _ _ _))

/-! ### Records (R20, R299) -/

theorem modItem_steady (id seq : Nat) {f : Item → Item} (h : ∀ it, (f it).seq = it.seq) (s : State) : Steady s (s.modItem id seq f) := by
  refine modStream_steady s (fun st _ => Stream.Kept.mapItems (fun it => ?_) st)
  split
  · exact h it
  · rfl

theorem formRecord_steady (id seq : Nat) (own calls : List Nat) (payload : List Byte) (s : State) :
    Steady s (formRecord id seq own calls payload s) := by
  unfold formRecord
  split
  · exact .refl s
  · split
    · exact .refl s
    · refine modStream_steady s (fun st _ => ⟨rfl, fun h => h, fun r hr => mem_insertRec.mpr (.inr hr), fun it hit => ?_⟩)
      exact ⟨it, (List.mem_filter.mp hit).1, rfl⟩

theorem qmgRecordOf_steady (id seq : Nat) (own : List Nat) (cause : Nat) (s : State) : Steady s (qmgRecordOf id seq own cause s) :=
  (draw_steady _ s).trans (formRecord_steady _ _ _ _ _ _)

theorem qmgRecord_steady (id seq cause : Nat) (s : State) : Steady s (qmgRecord id seq cause s) := by
  unfold qmgRecord
  split
  · exact .refl s
  · exact qmgRecordOf_steady _ _ _ _ s

theorem recordAll_steady (cause id : Nat) (s : State) : Steady s (recordAll cause id s) := by
  unfold recordAll
  split
  · exact .refl s
  · exact .forEach _ (fun q t => qmgRecord_steady id q cause t) s

/-! ### Fault stops (R65) -/

theorem stopRecord_steady (u : UnitInst) (cause : Nat) (s : State) : Steady s (stopRecord u cause s) := by
  unfold stopRecord
  split
  · exact qmgRecord_steady _ _ _ s
  · exact .refl s

theorem stallStop_steady (c cause bit reason : Nat) (counted : Bool) (s : State) : Steady s (stallStop c cause bit reason counted s) := by
  unfold stallStop
  split
  · exact .refl s
  · exact (dropWaits_steady c s).trans ((modCore_steady c _ _).trans (report_steady _ _))

theorem faultStop_steady (c : CoreNum) (cause bit reason : Nat) (counted : Bool) (s : State) :
    Steady s (faultStop c cause bit reason counted s) := by
  unfold faultStop
  split
  · exact stallStop_steady _ _ _ _ _ s
  · dsimp only
    refine (modCore_steady c.val _ s).trans ((dropWaits_steady c.val _).trans ((pushOutputs_steady c _ _).trans
      ((modCore_steady c.val _ _).trans ((Steady.forEach _ (fun h t => giveBack_steady .firmware h t) _).trans
        ((stopRecord_steady _ _ _).trans ((reportOwed_steady _ _ _ _).trans (report_steady _ _)))))))

theorem stopWaiting_steady (slot id seq : Nat) (s : State) : Steady s (stopWaiting slot id seq s) := by
  refine Steady.forEach _ (fun c t => ?_) s
  dsimp only
  split
  · exact (draw_steady _ t).trans (faultStop_steady _ _ _ _ _ _)
  · exact .refl t

end Sys2Proof.Machine

/-! Votes, faults of streams, isolation, cancelled epochs and disabled contexts: every operation is `Steady`. -/

namespace Sys2Proof.Machine

open Sys2Proof

/-! ### Votes (R305, R306) -/

theorem markOutvoted_steady (id copy seq cause : Nat) (s : State) : Steady s (markOutvoted id copy seq cause s) := by
  unfold markOutvoted
  exact (modItem_steady id seq (by exact fun _ => rfl) s).trans (.forEach _ (fun n t => flagUnit_steady n cause t) _)

theorem logOutvoted_steady (id : Nat) (st : Stream) (seq copy cause : Nat) (s : State) : Steady s (logOutvoted id st seq copy cause s) :=
  report_steady _ s

theorem modEntry_steady (v seq : Nat) (f : VoteSeq → VoteSeq) (s : State) : Steady s (s.modVote v (fun u => u.modEntry seq f)) :=
  modVote_steady v (by exact fun _ h => h) s

theorem outvoteOthers_steady (v id : Nat) (st : Stream) (seq : Nat) (s : State) : Steady s (outvoteOthers v id st seq s) := by
  refine Steady.forEach _ (fun k t => ?_) s
  repeat' split
  · exact .refl t
  · exact .refl t
  · exact .refl t
  · exact .refl t
  · exact (modEntry_steady v seq _ t).trans ((logOutvoted_steady _ _ _ _ _ _).trans (markOutvoted_steady _ _ _ _ _))

theorem forwardVote_steady (v id seq : Nat) (x y : Sig) (s : State) : Steady s (forwardVote v id seq x y s) := by
  unfold forwardVote
  dsimp only
  split
  · exact (modVote_steady v (by exact fun _ h => h) s).trans (formRecord_steady _ _ _ _ _ _)
  · exact modVote_steady v (by exact fun _ h => h) s

theorem noMajority_steady (v id : Nat) (st : Stream) (e : VoteSeq) (s : State) : Steady s (noMajority v id st e s) := by
  unfold noMajority
  dsimp only
  split
  · exact (modVote_steady v (by exact fun _ h => h) s).trans ((report_steady _ _).trans (qmgRecord_steady _ _ _ _))
  · exact (modVote_steady v (by exact fun _ h => h) s).trans ((report_steady _ _).trans
      (.forEach _ (fun k t => markOutvoted_steady _ _ _ _ t) _))

theorem decideVote_steady (v id seq : Nat) (last : Bool) (s : State) : Steady s (decideVote v id seq last s) := by
  unfold decideVote
  split
  · refine Steady.trans ?_ (outvoteOthers_steady _ _ _ _ _)
    repeat' split
    · exact .refl s
    · exact forwardVote_steady _ _ _ _ _ s
    · exact noMajority_steady _ _ _ _ s
    · exact .refl s
  · exact .refl s

theorem dropVote_steady (v id seq : Nat) (force : Bool) (s : State) : Steady s (dropVote v id seq force s) := by
  unfold dropVote
  split
  · split
    · exact modVote_steady v (by exact fun _ h => h) s
    · exact .refl s
  · exact .refl s

theorem resettleVotes_steady (id : Nat) (s : State) : Steady s (resettleVotes id s) := by
  refine Steady.forEach _ (fun v t => ?_) s
  exact .forEach _ (fun seq u => (decideVote_steady v.1 id seq false u).trans (dropVote_steady v.1 id seq false _)) t

/-! ### Faults that take stages out (R29, R313, R386) -/

theorem streamFault_steady (id : Nat) (s : State) : Steady s (streamFault id s) := by
  unfold streamFault
  split
  · exact .refl s
  · rename_i st _
    have hmark : Steady s (s.modStream id (fun st => { st with faulted := true })) :=
      modStream_steady s (fun a _ => .of_eq rfl rfl rfl rfl)
    have htold : ∀ t : State, Steady t (if isSafety st.cls then
        report { unit := 0xC7, cause := Cause.streamFault, ctx := st.ctx, part := st.part, stream := some id,
                 cls := 1, bit := Bit.safeStreamFault }
          (sendInval { target := .stream id, scope := .fromNext, cause := Cause.streamFault } (raise .safe Bit.safeStreamFault t))
        else t) := by
      intro t
      split
      · exact (raise_steady _ _ t).trans ((sendInval_steady _ _).trans (report_steady _ _))
      · exact .refl t
    split
    · exact .refl s
    · dsimp only
      split
      · exact hmark.trans (htold _)
      · exact hmark.trans ((htold _).trans (recordAll_steady _ _ _))

theorem loseStages_steady (id : Nat) (copies : List Nat) (cause : Nat) (s : State) : Steady s (loseStages id copies cause s) := by
  unfold loseStages
  split
  · exact .refl s
  · split
    · exact .forEach _ (fun k t => sendInval_steady _ t) s
    · exact streamFault_steady id s

theorem loseHandles_steady (n : Nat) (s : State) : Steady s (loseHandles n s) := by
  have howed : Steady s (match (s.core n).run with | none => s | some u => reportOwed n u false s) := by
    split
    · exact .refl s
    · exact reportOwed_steady _ _ _ s
  unfold loseHandles
  dsimp only
  have hstopped := howed.trans ((modCore_steady n (fun c => { c.dropAcc.closeAll with
    run := none, ready := [], seq := .idle, drainReq := false, wbuf := [], bundles := 0, strands := 0 }) _).trans (dropWaits_steady n _))
  split
  · exact hstopped
  · exact hstopped.trans ((modQmg_steady rfl).trans ((raise_steady _ _ _).trans (.forEach _ (fun x t => report_steady _ t) _)))

theorem isolateCore_steady (n : Nat) (s : State) : Steady s (isolateCore n s) :=
  (modHdr_steady _ _ s).trans (loseHandles_steady n _)

theorem wantReplacement_steady (slots : List Nat) (s : State) : Steady s (wantReplacement slots s) := modCtl_steady rfl rfl

/-! ### Bedrock mode and re-placements that end (R289, R356, R365) -/

theorem startStep_steady (q p : Nat) (s : State) : Steady s (startStep q p s) := by
  unfold startStep
  dsimp only
  repeat' split
  · exact modQuad_steady q (by exact fun _ => ⟨rfl, rfl⟩) s
  · exact modQuad_steady q (by exact fun _ => ⟨rfl, rfl⟩) s
  · exact (takeInj_steady _ _ s).trans (modQuad_steady q (by exact fun _ => ⟨rfl, rfl⟩) _)
  · exact modQuad_steady q (by exact fun _ => ⟨rfl, rfl⟩) s

theorem refreshBedrock_steady (s : State) : Steady s (refreshBedrock s) := by
  refine Steady.forEach _ (fun q t => ?_) s
  dsimp only
  split
  · exact (modQuad_steady q (by exact fun _ => ⟨rfl, rfl⟩) t).trans ((modQuad_steady q (by exact fun _ => ⟨rfl, rfl⟩) _).trans (startStep_steady _ _ _))
  · exact modQuad_steady q (by exact fun _ => ⟨rfl, rfl⟩) t

theorem discardNew_steady (s : State) : Steady s (discardNew s) := by
  unfold discardNew
  split
  · exact .refl s
  · exact (Steady.forEach _ (fun n t => modCore_steady n _ t) s).trans ((modCtl_steady rfl rfl).trans (refreshBedrock_steady _))

theorem abandon_steady (s : State) : Steady s (abandon s) := by
  unfold abandon
  split
  · exact .refl s
  · split
    · exact (discardNew_steady s).trans ((modCtl_steady rfl rfl).trans (raise_steady _ _ _))
    · exact .refl s

/-! ### Disarming (R197, R199) -/

theorem disarm_steady (id : Nat) (s : State) : Steady s (disarm id s) := by
  unfold disarm refreshOdometer leaveSets
  dsimp only
  refine (forceFrees_steady _ s).trans ((modTal_steady _ _).trans (Steady.trans (modStream_steady _ fun st _ => ?_) (modTal_steady _ _)))
  exact ⟨rfl, fun _ => rfl, fun _ h => h, fun it h => ⟨it, h, rfl⟩⟩

/-! ### Cancelled epochs (R197) -/

theorem modEpoch_steady (e : Nat) (f : Epoch → Epoch) (s : State) : Steady s (modEpoch e f s) := modQmg_steady rfl

theorem twins_steady (e f : Nat) (s : State) : Steady s (twins e f s) := by
  unfold twins
  split
  · exact .refl s
  · exact (modEpoch_steady _ _ s).trans (modEpoch_steady _ _ _)

theorem dropReady_steady (e n : Nat) (s : State) : Steady s (dropReady e n s) :=
  (modCore_steady n _ s).trans (forceFrees_steady _ _)

theorem emptyQueue_steady (n : Nat) (s : State) : Steady s (emptyQueue n s) :=
  (modQueue_steady n _ s).trans (forceFrees_steady _ _)

/-- What the vote units hold of a cancelled epoch goes; a failed unit stays failed. -/
theorem dropSignatures_steady (e : Nat) (s : State) : Steady s (dropSignatures e s) := by
  refine { Steady.refl s with failed := fun v hv => ?_ }
  have hfind := Tab.find_map (fun u : VoteUnit => match u.stream.bind s.stream? with
    | none => u
    | some st => { u with held := u.held.filter (fun x => st.epochOf x.seq != e) }) v s.qmg.votes
  unfold State.vote Tab.get at hv ⊢
  refine (congrArg (fun o : Option VoteUnit => (o.getD {}).failed) hfind).trans ?_
  cases hu : Tab.find s.qmg.votes v with
  | none => rw [hu] at hv; exact hv
  | some u =>
    rw [hu] at hv
    dsimp only [Option.map_some, Option.getD_some] at hv ⊢
    split <;> exact hv

theorem stopEpoch_steady (e : Nat) (s : State) : Steady s (stopEpoch e s) := by
  unfold stopEpoch
  dsimp only
  exact (modEpoch_steady _ _ s).trans ((Steady.forEach _ stopUnit_steady _).trans ((Steady.forEach _ (dropReady_steady e) _).trans
    ((Steady.forEach _ (fun w t => endWait_steady _ _ t) _).trans ((Steady.forEach _ emptyQueue_steady _).trans
      (dropSignatures_steady e _)))))

/-- A stream without the jobs and items of an epoch. -/
def Stream.withoutEpoch (e : Nat) (st : Stream) : Stream :=
  { st with jobs := st.jobs.filter (fun j => j.epoch != e), items := st.items.filter (fun it => it.epoch != e) }

theorem Stream.Kept.withoutEpoch (e : Nat) (st : Stream) : st.Kept (st.withoutEpoch e) :=
  ⟨rfl, fun h => h, fun _ h => h, fun it h => ⟨it, (List.mem_filter.mp h).1, rfl⟩⟩

theorem disarmAll_steady (ids : List Nat) (s : State) :
    Steady s (forEach ids (fun id s => disarm id (recordAll Cause.cancelled id s)) s) :=
  .forEach _ (fun _ t => (recordAll_steady _ _ t).trans (disarm_steady _ _)) s

theorem cancelEpoch_steady (e : Nat) (s : State) : Steady s (cancelEpoch e s) := by
  unfold cancelEpoch
  extract_lets ids s1 other s2 s3 s4
  have h1 : Steady s s1 := by
    refine Steady.forEach _ (fun id t => ?_) s
    repeat' split
    · exact .refl t
    · exact .refl t
    · exact twins_steady _ _ t
  have h2 : Steady s1 s2 := .forEach _ stopEpoch_steady s1
  have h4 : Steady s3 s4 := mapStreams_steady s3 (Stream.Kept.withoutEpoch e)
  exact h1.trans (h2.trans ((disarmAll_steady ids s2).trans (h4.trans (refreshBedrock_steady s4))))

theorem refreshHeld_steady (s : State) : Steady s (refreshHeld s) := by
  unfold refreshHeld
  split
  · exact modPpe_steady _ s
  · exact modPpe_steady _ s

theorem abortHeld_steady (id : Nat) (j : Job) (s : State) : Steady s (abortHeld id j s) := by
  refine Steady.trans (modStream_steady s fun st _ => ?_) (refreshHeld_steady _)
  exact ⟨rfl, fun h => h, fun _ h => h, fun it h => ⟨it, (List.mem_filter.mp h).1, rfl⟩⟩

theorem abortHeldOf_steady (e : Nat) (s : State) : Steady s (abortHeldOf e s) := by
  unfold abortHeldOf
  exact .forEach _ (fun (p : Nat × Job) t => abortHeld_steady p.1 p.2 t) s

/-- The epochs of a context that end with it (R392). -/
theorem cancelEpochs_steady (live : List Nat) (s : State) : Steady s (forEach live (fun e s => cancelEpoch e (abortHeldOf e s)) s) :=
  .forEach _ (fun e t => (abortHeldOf_steady e t).trans (cancelEpoch_steady e _)) s

end Sys2Proof.Machine

/-! A fall of VRDY isolates its quadrant (R29, R314). -/

namespace Sys2Proof.Machine

open Sys2Proof Sys2Proof.Machine.Bits

theorem Tab.find_isSome_of_mem {α : Type} {e : Nat × α} : ∀ {t : Tab α}, e ∈ t → (Tab.find t e.1).isSome = true
  | (a, b) :: t, h => by
    unfold Tab.find
    split
    · rfl
    · rename_i hne
      rcases List.mem_cons.mp h with rfl | hin
      · exact absurd rfl hne
      · exact Tab.find_isSome_of_mem hin

/-- A stream of a predicate is declared. -/
theorem streamIds_declared {s : State} {p : Stream → Bool} {id : Nat} (h : id ∈ s.streamIds p) : (s.stream? id).isSome = true := by
  obtain ⟨e, he, rfl⟩ := List.mem_map.mp h
  exact Tab.find_isSome_of_mem (List.mem_filter.mp he).1

theorem forEach_cons {α : Type} (x : α) (xs : List α) (f : α → State → State) (s : State) :
    forEach (x :: xs) f s = forEach xs f (f x s) := rfl

/-- What the isolation of quadrant `q` means for a stream with stages there. -/
def loseQuadStages (q cause id : Nat) (s : State) : State :=
  match s.stream? id with
  | none => s
  | some st =>
    let copies := ((st.place.slots.filter (fun p => p.cores.any (fun c => coreQuad c.val == q))).map (·.copy)).eraseDups
    loseStages id copies cause
      (report { unit := 0xC7, cause := cause, ctx := st.ctx, part := st.part, stream := some id, cls := 1 } s)

theorem loseQuadStages_steady (q cause id : Nat) (s : State) : Steady s (loseQuadStages q cause id s) := by
  unfold loseQuadStages
  split
  · exact .refl s
  · exact (report_steady _ s).trans (loseStages_steady _ _ _ _)

theorem loseQuadStages_inbox (q cause : Nat) {id : Nat} {s : State} (h : (s.stream? id).isSome = true) :
    ∃ ev ∈ (loseQuadStages q cause id s).safe.inbox, ev.cause = cause := by
  obtain ⟨st, hst⟩ := Option.isSome_iff_exists.mp h
  unfold loseQuadStages
  rw [hst]
  exact ⟨_, (loseStages_steady _ _ _ _).inbox _ (report_inbox _ s), rfl⟩

/-- A quadrant that is isolated is a fault that SAFE is told: with each stream that has stages there, or by itself. -/
theorem isolateQuad_effect {q : Nat} {s : State} (h : (s.quad q).isolated = false) (cause : Nat) :
    Steady (s.modQuad q (fun x => { x with isolated := true, goodSince := s.clock })) (isolateQuad q cause s) ∧
      ∃ ev ∈ (isolateQuad q cause s).safe.inbox, ev.cause = cause := by
  have hopen : ¬ (s.quad q).isolated = true := by simp [h]
  unfold isolateQuad
  rw [if_neg hopen]
  extract_lets ids s1 s2 s3 s4
  have h1 : Steady (s.modQuad q (fun x => { x with isolated := true, goodSince := s.clock })) s1 := .forEach _ isolateCore_steady _
  have h2 : Steady s1 s2 := .forEach ids (loseQuadStages_steady q cause) s1
  have h3 : Steady s2 s3 := by
    show Steady s2 (if ids.isEmpty then _ else _)
    split
    · exact report_steady _ s2
    · exact .refl s2
  have h4 : Steady s3 s4 := wantReplacement_steady _ s3
  have h5 : Steady s4 (match s4.ctl.repl with
      | some r => if r.new.any (fun n => coreQuad n == q) then abandon s4 else s4
      | none => s4) := by
    repeat' split
    · exact abandon_steady s4
    · exact .refl s4
    · exact .refl s4
  have hevent : ∃ ev ∈ s3.safe.inbox, ev.cause = cause := by
    cases hids : ids with
    | nil =>
      have hs3 : s3 = report { unit := 0xC7, cause := cause } s2 := if_pos (by rw [hids]; rfl)
      exact ⟨_, hs3 ▸ report_inbox _ s2, rfl⟩
    | cons id rest =>
      have hdecl : (s.stream? id).isSome = true := streamIds_declared (hids ▸ List.mem_cons_self : id ∈ ids)
      obtain ⟨st, hst⟩ := Option.isSome_iff_exists.mp hdecl
      obtain ⟨b, hb, -⟩ := h1.streams id st hst
      obtain ⟨ev, hev, hcause⟩ := loseQuadStages_inbox q cause (s := s1) (Option.isSome_iff_exists.mpr ⟨b, hb⟩)
      have hrest : Steady (loseQuadStages q cause id s1) s2 := by
        show Steady _ (forEach ids (loseQuadStages q cause) s1)
        rw [hids, forEach_cons]
        exact .forEach rest (loseQuadStages_steady q cause) _
      exact ⟨ev, h3.inbox ev (hrest.inbox ev hev), hcause⟩
  obtain ⟨ev, hev, hcause⟩ := hevent
  exact ⟨h1.trans (h2.trans (h3.trans (h4.trans h5))), ev, h5.inbox ev (h4.inbox ev hev), hcause⟩

/-! ### A fall of VRDY (R314, R454) -/

section Vrdy

variable {s : State} {q : QuadNum} (hwait : NoneWaits s)
include hwait

theorem vrdyFall_level (h : (s.quad q.val).change.isSome = true ∨ s.boot.ready = false) : Completes (.vrdyFall q) s (fun t =>
    t.quad q.val = { s.quad q.val with vrdy := false } ∧ (∀ k, k ≠ q.val → t.quad k = s.quad k) ∧ t = { s with pwr := t.pwr }) := by
  have hstep : vrdyLow q.val s = s.modQuad q.val (fun x => { x with vrdy := false }) :=
    if_pos (by rcases h with h | h <;> simp [h])
  refine ⟨s.modQuad q.val (fun x => { x with vrdy := false }), ?_, by simp, fun k hk => State.quad_modQuad_ne _ _ hk, rfl⟩
  show Host.Outcome.next (settle (vrdyLow q.val s)) = _
  rw [hstep, settle_none (s := s.modQuad q.val _) hwait.1 hwait.2]

theorem vrdyFall_isolates (hchange : (s.quad q.val).change = none) (hready : s.boot.ready = true) : Completes (.vrdyFall q) s (fun t =>
    (t.quad q.val).isolated = true ∧ (t.quad q.val).vrdy = false ∧
    ((s.quad q.val).isolated = false → ∃ ev ∈ t.safe.inbox, ev.cause = Cause.supplyFault)) := by
  have hstep : vrdyLow q.val s = isolateQuad q.val Cause.supplyFault (s.modQuad q.val (fun x => { x with vrdy := false })) :=
    if_neg (by simp [hchange, hready])
  cases hiso : (s.quad q.val).isolated with
  | true =>
    have hkept : isolateQuad q.val Cause.supplyFault (s.modQuad q.val (fun x => { x with vrdy := false })) =
        (s.modQuad q.val (fun x => { x with vrdy := false })).modQuad q.val (fun x => { x with goodSince := s.clock }) :=
      if_pos (by simp [hiso])
    refine ⟨_, congrArg Host.Outcome.next ((congrArg settle (hstep.trans hkept)).trans (settle_none hwait.1 hwait.2)), ?_, ?_, by simp⟩
    · simp [hiso]
    · simp
  | false =>
    obtain ⟨hsteady, hevent⟩ := isolateQuad_effect (q := q.val) (s := s.modQuad q.val (fun x => { x with vrdy := false })) (by simp [hiso]) Cause.supplyFault
    obtain ⟨hvrdy, hisolated⟩ := hsteady.quads q.val
    refine ⟨_, congrArg Host.Outcome.next ((congrArg settle hstep).trans (settle_none (hsteady.waiting hwait.1) (hsteady.fences hwait.2))),
      ?_, ?_, fun _ => hevent⟩
    · rw [hisolated]
      simp
    · rw [hvrdy]
      simp

end Vrdy

/-! ### The obligation -/

/-- Settles O60: the limit acts on the dividers, a stop on the clocks, ingress and SAFE, and the clocks stop once every item has its record. -/
theorem powerLimitsAndStopsComplete : Obligations.PowerLimitsAndStopsComplete := by
  unfold Obligations.PowerLimitsAndStopsComplete
  exact ⟨fun s => ⟨pwrLimit_completes s, fun h => ⟨s, congrArg Host.Outcome.next (if_neg (by simp [h])), rfl⟩, pwrLimitRelease_completes⟩,
    fun s n h => ⟨thermtrip_completes h n, coolant_completes h⟩, fun s n h => stop_completes_inSafe h n,
    fun s => ⟨coolantClockStop_idle, coolantClockStop_completes⟩,
    fun s q hwait => ⟨vrdyFall_level hwait, vrdyFall_isolates hwait⟩⟩

end Sys2Proof.Machine

/-! Resets of a quadrant, a port and a function, PERST, and the PCIe link (R390, R392, R393, R412, R417, R436, R451). -/

namespace Sys2Proof.Machine

open Sys2Proof Sys2Proof.Machine.Bits

/-! ### Loops over cores -/

theorem forEach_inv_mem {α : Type} (P : State → Prop) {f : α → State → State} : ∀ (xs : List α),
    (∀ x ∈ xs, ∀ s, P s → P (f x s)) → ∀ s, P s → P (forEach xs f s)
  | [], _, _, hs => hs
  | x :: xs, h, s, hs =>
    forEach_inv_mem P xs (fun y hy => h y (List.mem_cons_of_mem _ hy)) (f x s) (h x List.mem_cons_self s hs)

/-- A loop that changes each of its cores once. -/
theorem core_forEach_modCore (f : CoreSt → CoreSt) (n : Nat) : ∀ (xs : List Nat), xs.Nodup → ∀ s : State,
    (forEach xs (fun m t => t.modCore m f) s).core n = if n ∈ xs then f (s.core n) else s.core n
  | [], _, s => by simp [forEach]
  | x :: xs, h, s => by
    obtain ⟨hx, hxs⟩ := List.nodup_cons.mp h
    rw [forEach_cons, core_forEach_modCore f n xs hxs, State.core_modCore]
    by_cases hn : n = x
    · subst hn
      simp [hx]
    · simp [hn]

theorem forEach_modCore_eq (f : CoreSt → CoreSt) (xs : List Nat) (s : State) :
    forEach xs (fun m t => t.modCore m f) s = { s with cores := (forEach xs (fun m t => t.modCore m f) s).cores } := by
  refine forEach_inv (fun t => t = { s with cores := t.cores }) xs _ (fun m t ht => ?_) s rfl
  rw [ht]
  rfl

theorem quadCores_nodup (q : Nat) : (quadCores q).Nodup :=
  List.Nodup.map (fun a b h => by simpa using h) List.nodup_range

/-! ### A quadrant reset (R393) -/

/-- Units, windows and scratchpad of a core are gone after a quadrant reset; its pool stays. -/
theorem CoreSt.quadReset_clears (c : CoreSt) :
    c.quadReset.run = none ∧ c.quadReset.sp = [] ∧ c.quadReset.windows = [] ∧ c.quadReset.pool = c.pool := ⟨rfl, rfl, rfl, rfl⟩

theorem quadrantReset_completes {s : State} {q : QuadNum} (hwait : NoneWaits s) (hready : s.boot.ready = true)
    (hiso : (s.quad q.val).isolated = true) (hidle : (s.quad q.val).resetting = false) (hrepl : s.ctl.repl = none)
    (hgood : (s.quad q.val).goodSince + 10000000 ≤ s.clock) : Completes (.quadrantReset q) s (fun t =>
      (t.quad q.val).resetting = true ∧ (∀ n ∈ quadCores q.val, (t.core n).run = none ∧ (∀ w, t.spWord n w = 0) ∧
        (t.core n).pool = (s.core n).pool ∧ (t.core n).windows = []) ∧
      (∀ n, n ∉ quadCores q.val → t.core n = s.core n) ∧ t = { s with cores := t.cores, pwr := t.pwr }) := by
  have hstep : quadReset q.val s =
      forEach (quadCores q.val) (fun n s => s.modCore n CoreSt.quadReset) (s.modQuad q.val (fun x => { x with resetting := true })) := by
    unfold quadReset
    rw [if_pos (by simp [hready, hiso, hidle, hgood]), hrepl]
  have hcore := fun n => core_forEach_modCore CoreSt.quadReset n (quadCores q.val) (quadCores_nodup q.val)
    (s.modQuad q.val (fun x => { x with resetting := true }))
  have hframe := forEach_modCore_eq CoreSt.quadReset (quadCores q.val) (s.modQuad q.val (fun x => { x with resetting := true }))
  generalize forEach (quadCores q.val) (fun n s => s.modCore n CoreSt.quadReset) _ = t at hstep hcore hframe
  have hctl : t.ctl = s.ctl := by rw [hframe]; rfl
  refine ⟨t, congrArg Host.Outcome.next ((congrArg settle hstep).trans (settle_none (hctl ▸ hwait.1) (hctl ▸ hwait.2))), ?_, ?_, ?_, ?_⟩
  · rw [show t.quad q.val = (s.modQuad q.val (fun x => { x with resetting := true })).quad q.val by rw [hframe]; rfl]
    simp
  · intro n hn
    obtain ⟨hrun, hsp, hwindows, hpool⟩ := CoreSt.quadReset_clears (s.core n)
    have hn' : t.core n = (s.core n).quadReset := (hcore n).trans (if_pos hn)
    refine ⟨hn' ▸ hrun, fun w => ?_, hn' ▸ hpool, hn' ▸ hwindows⟩
    unfold State.spWord
    rw [hn', hsp]
    rfl
  · exact fun n hn => (hcore n).trans (if_neg hn)
  · rw [hframe]
    rfl

/-! ### The end of a quadrant reset (R13, R269, R393) -/

/-- Where the test after a reset of its quadrant leaves a core. -/
def PoolAfterTest (failed : Prop) (before after : PoolMember) : Prop :=
  before ≠ .fused → before ≠ .retired → (failed → after = .retired) ∧ (¬ failed → after = .spare)

theorem recordRetirement_core (n m : Nat) (s : State) : (recordRetirement n s).core m = s.core m := rfl

section Tested

variable (failed : List Nat) (n : Nat) (s : State)

theorem quadCoreTested_pwr : (quadCoreTested failed n s).pwr = s.pwr := by
  unfold quadCoreTested
  dsimp only
  split
  · rfl
  · split <;> rfl

theorem quadCoreTested_otherCores : OtherCores n s (quadCoreTested failed n s) := by
  intro m hm
  unfold quadCoreTested
  dsimp only
  split
  · rfl
  · split
    · exact (recordRetirement_core n m _).trans (State.core_modCore_ne _ _ hm)
    · exact State.core_modCore_ne _ _ hm

theorem quadCoreTested_pool : PoolAfterTest (n ∈ failed) (s.core n).pool ((quadCoreTested failed n s).core n).pool := by
  intro hfused hretired
  unfold quadCoreTested
  dsimp only
  rw [if_neg (by simp [hfused, hretired])]
  by_cases hfail : n ∈ failed
  · rw [if_pos (by simpa using hfail)]
    refine ⟨fun _ => ?_, fun h => absurd hfail h⟩
    exact congrArg CoreSt.pool ((recordRetirement_core n n _).trans (State.core_modCore_self _ n _))
  · rw [if_neg (by simpa using hfail)]
    refine ⟨fun h => absurd h hfail, fun _ => ?_⟩
    exact congrArg CoreSt.pool (State.core_modCore_self _ n _)

/-- The isolation of the core ends, and no other begins. -/
theorem quadCoreTested_isolated (b : Block) : (quadCoreTested failed n s).hdr b =
    if b.page = (Block.core n).page then { s.hdr (.core n) with isolate := false, isolated := false } else s.hdr b := by
  rw [← State.hdr_modHdr s (.core n) b (fun h => { h with isolate := false, isolated := false })]
  unfold quadCoreTested
  dsimp only
  split
  · rfl
  · split <;> rfl

end Tested

theorem quadCoresTested_pwr (failed xs : List Nat) (s : State) : (forEach xs (quadCoreTested failed) s).pwr = s.pwr :=
  forEach_keeps (·.pwr) xs _ (fun n t => quadCoreTested_pwr failed n t) s

theorem quadCoresTested (failed : List Nat) {n : Nat} : ∀ (xs : List Nat), xs.Nodup → n ∈ xs → ∀ s : State,
    PoolAfterTest (n ∈ failed) (s.core n).pool ((forEach xs (quadCoreTested failed) s).core n).pool ∧
      ((forEach xs (quadCoreTested failed) s).hdr (.core n)).isolated = false
  | x :: xs, hnodup, hn, s => by
    obtain ⟨hx, hxs⟩ := List.nodup_cons.mp hnodup
    rw [forEach_cons]
    rcases List.mem_cons.mp hn with rfl | hin
    · have hcore : (forEach xs (quadCoreTested failed) (quadCoreTested failed n s)).core n = (quadCoreTested failed n s).core n :=
        forEach_inv_mem (fun t => t.core n = (quadCoreTested failed n s).core n) xs
          (fun m hm t ht => (quadCoreTested_otherCores failed m t n (fun h => hx (h ▸ hm))).trans ht) _ rfl
      rw [hcore]
      refine ⟨quadCoreTested_pool failed n s, forEach_inv (fun t => (t.hdr (.core n)).isolated = false) xs _ (fun m t ht => ?_) _ ?_⟩
      · rw [quadCoreTested_isolated]
        split
        · rfl
        · exact ht
      · rw [quadCoreTested_isolated, if_pos rfl]
    · have hne : n ≠ x := fun h => hx (h ▸ hin)
      have hrest := quadCoresTested failed xs hxs hin (quadCoreTested failed x s)
      rwa [quadCoreTested_otherCores failed x s n hne] at hrest

/-- A spare may be brought among the schedulable cores (R13); no other core changes its pool, and no page changes. -/
theorem rebalance_effect (s : State) : (rebalance s).pwr = s.pwr ∧ (rebalance s).pages = s.pages ∧
    ∀ n, ((rebalance s).core n).pool = (s.core n).pool ∨ ((s.core n).pool = .spare ∧ ((rebalance s).core n).pool = .schedulable) := by
  have hspare : ∀ n ∈ s.promotable, (s.core n).pool = .spare := by
    intro n hn
    have hin : n ∈ s.spares := by
      simp only [State.promotable, List.mem_append] at hn
      rcases hn with ((hn | hn) | hn) | hn
      · exact (List.mem_filter.mp (List.mem_filter.mp (List.mem_filter.mp (List.mem_of_mem_drop hn)).1).1).1
      · exact (List.mem_filter.mp (List.mem_filter.mp (List.mem_filter.mp (List.mem_of_mem_take hn)).1).1).1
      · exact (List.mem_filter.mp (List.mem_filter.mp (List.mem_filter.mp hn).1).1).1
      · exact (List.mem_filter.mp (List.mem_filter.mp hn).1).1
    simpa using (List.mem_filter.mp hin).2
  unfold rebalance
  dsimp only
  split
  · exact ⟨rfl, rfl, fun n => .inl rfl⟩
  · have hkeeps : ∀ xs : List Nat, (forEach xs (fun n t => t.modCore n (fun c => { c with pool := .schedulable })) s).pwr = s.pwr ∧
        (forEach xs (fun n t => t.modCore n (fun c => { c with pool := .schedulable })) s).pages = s.pages :=
      fun xs => ⟨forEach_keeps (·.pwr) xs _ (by exact fun _ _ => rfl) s, forEach_keeps (·.pages) xs _ (by exact fun _ _ => rfl) s⟩
    refine ⟨(hkeeps _).1, (hkeeps _).2, ?_⟩
    refine forEach_inv_mem (fun t => ∀ n, (t.core n).pool = (s.core n).pool ∨ ((s.core n).pool = .spare ∧ (t.core n).pool = .schedulable))
      _ (fun x hx t ht n => ?_) s (fun n => .inl rfl)
    rw [State.core_modCore]
    split
    · rename_i heq
      exact .inr ⟨heq ▸ hspare x (List.mem_of_mem_take hx), rfl⟩
    · exact ht n

theorem postNotice_isolated (kind word : Nat) (fault : Option FaultRec) (s : State) (c : Block) :
    ((postNotice kind word fault s).hdr c).isolated = (s.hdr c).isolated := by
  unfold postNotice
  split
  · rfl
  · split
    · unfold writeNotice
      dsimp only
      rw [raiseInt_hdr]
      split
      · rename_i hpage
        show (s.hdr .dbg).isolated = _
        unfold State.hdr
        rw [hpage]
      · rfl
    · exact raise_isolated _ _ _ c

theorem checkSpares_effect (before : Nat) (s : State) : (checkSpares before s).pwr = s.pwr ∧ (checkSpares before s).cores = s.cores ∧
    ∀ c, ((checkSpares before s).hdr c).isolated = (s.hdr c).isolated := by
  unfold checkSpares
  split
  · refine ⟨by simp, by simp, fun c => ?_⟩
    rw [postNotice_isolated, hdr_of_pages (s := raise .ctl Bit.ctlSparesLow s) (by simp)]
    exact raise_isolated _ _ s c
  · exact ⟨rfl, rfl, fun _ => rfl⟩

theorem quadrantResetDone_completes {s : State} {q : QuadNum} (h : (s.quad q.val).resetting = true) (failed : List CoreNum) :
    Completes (.quadrantResetDone q failed) s (fun t =>
      (t.quad q.val).resetting = false ∧ (t.quad q.val).isolated = false ∧
      ∀ n : CoreNum, n.val ∈ quadCores q.val → (t.hdr (.core n)).isolated = false ∧
        ((s.core n.val).pool ≠ .fused → (s.core n.val).pool ≠ .retired →
          (n ∈ failed → (t.core n.val).pool = .retired) ∧
          (n ∉ failed → (t.core n.val).pool = .spare ∨ (t.core n.val).pool = .schedulable))) := by
  refine ⟨_, congrArg Host.Outcome.next (if_pos h), ?_⟩
  have hpwr := quadCoresTested_pwr (failed.map (·.val)) (quadCores q.val) (s.modQuad q.val (fun x => { x with resetting := false, isolated := false }))
  have htested := fun n (hn : n ∈ quadCores q.val) => quadCoresTested (failed.map (·.val)) (quadCores q.val) (quadCores_nodup q.val) hn
    (s.modQuad q.val (fun x => { x with resetting := false, isolated := false }))
  dsimp only
  generalize forEach (quadCores q.val) (quadCoreTested (failed.map (·.val))) _ = u at hpwr htested
  generalize (quadCores q.val).flatMap (fun n => u.slotsOn n) = slots
  obtain ⟨bpwr, bpages, bpool⟩ := rebalance_effect (wantReplacement slots u)
  obtain ⟨cpwr, ccores, cisolated⟩ := checkSpares_effect s.spares.length (rebalance (wantReplacement slots u))
  generalize checkSpares s.spares.length (rebalance (wantReplacement slots u)) = t at cpwr ccores cisolated
  have hquad : t.quad q.val = { s.quad q.val with resetting := false, isolated := false } := by
    rw [← State.quad_modQuad_self s q.val (fun x => { x with resetting := false, isolated := false })]
    unfold State.quad
    rw [cpwr, bpwr]
    exact congrArg (fun p : Pwr => Tab.get p.quads {} q.val) hpwr
  refine ⟨by rw [hquad], by rw [hquad], fun n hn => ?_⟩
  obtain ⟨hpool, hisolated⟩ := htested n.val hn
  refine ⟨?_, fun hfused hretired => ?_⟩
  · rw [cisolated, hdr_of_pages bpages]
    exact hisolated
  · have hcore : t.core n.val = (rebalance (wantReplacement slots u)).core n.val := by
      unfold State.core
      rw [ccores]
    obtain ⟨hfails, hpasses⟩ := hpool hfused hretired
    have hmem : n.val ∈ failed.map (·.val) ↔ n ∈ failed := List.mem_map_of_injective Fin.val_injective
    rw [hcore]
    rcases bpool n.val with hsame | ⟨hwas, hnow⟩
    · exact ⟨fun hin => hsame.trans (hfails (hmem.mpr hin)), fun hout => .inl (hsame.trans (hpasses (fun hin => hout (hmem.mp hin))))⟩
    · exact ⟨fun hin => absurd (hwas.symm.trans (hfails (hmem.mpr hin))) (by decide), fun _ => .inr hnow⟩

end Sys2Proof.Machine

/-! A port reset, a function-level reset, PERST and the PCIe link (R390, R392, R412, R417, R436, R451). -/

namespace Sys2Proof.Machine

open Sys2Proof

/-! ### A port reset (R390) -/

theorem portReset_completes (s : State) (p : PortNum) : Completes (.portReset p) s (fun t => (t.port p.val).up = false ∧
    (t.port p.val).trained = false ∧ (t.port p.val).bind = (s.port p.val).bind ∧ (∀ r, r ≠ p.val → t.port r = s.port r) ∧
    (∀ id, (t.stream? id).map (·.armed) = (s.stream? id).map (·.armed)) ∧
    t = { s with ports := t.ports, streams := t.streams }) := by
  refine ⟨resetPort p.val s, rfl, ?_⟩
  have hports : (resetPort p.val s).ports = (s.modPort p.val (fun x => { x with up := false, trained := false })).ports :=
    forEach_keeps (·.ports) _ _ (by exact fun _ _ => rfl) _
  have hport : ∀ r, (resetPort p.val s).port r = (s.modPort p.val (fun x => { x with up := false, trained := false })).port r := by
    intro r
    unfold State.port
    rw [hports]
  refine ⟨by simp [hport], by simp [hport], by simp [hport], fun r hr => (hport r).trans (State.port_modPort_ne _ _ hr), fun id => ?_, ?_⟩
  · refine forEach_keeps (fun t : State => (t.stream? id).map (·.armed)) _ _ (fun k t => ?_) _
    rw [State.stream?_modStream]
    split
    · rename_i heq
      rw [heq, Option.map_map]
      rfl
    · rfl
  · refine forEach_inv (fun t => t = { s with ports := t.ports, streams := t.streams }) _ _ (fun k t ht => ?_) _ rfl
    rw [ht]
    rfl

/-! ### A context that is disabled (R392) -/

/-- Context `c` is disabled and no stream of it is armed. -/
def Disabled (c : Nat) (s : State) : Prop := (s.ctx c).en = false ∧ ∀ id st, s.stream? id = some st → st.ctx = c → st.armed = false

theorem Tab.mem_of_find {α : Type} {k : Nat} {v : α} : ∀ {t : Tab α}, Tab.find t k = some v → (k, v) ∈ t
  | [], h => by simp [Tab.find] at h
  | (a, b) :: t, h => by
    unfold Tab.find at h
    split at h
    · rename_i hk
      simp_all
    · exact List.mem_cons_of_mem _ (Tab.mem_of_find h)

theorem mem_streamIds {s : State} {id : Nat} {a : Stream} (h : s.stream? id = some a) {p : Stream → Bool} (hp : p a = true) :
    id ∈ s.streamIds p :=
  List.mem_map.mpr ⟨(id, a), List.mem_filter.mpr ⟨Tab.mem_of_find h, hp⟩, rfl⟩

theorem Steady.stream_of {s t : State} (h : Steady s t) {id : Nat} {b : Stream} (hb : t.stream? id = some b) :
    ∃ a, s.stream? id = some a ∧ a.Kept b := by
  cases ha : s.stream? id with
  | none => exact absurd ((h.undeclared id ha).symm.trans hb) (by simp)
  | some a =>
    obtain ⟨x, hx, hkept⟩ := h.streams id a ha
    obtain rfl : x = b := Option.some.inj (hx.symm.trans hb)
    exact ⟨a, rfl, hkept⟩

/-- A reaction of the device enables nothing. -/
theorem Disabled.of_steady {c : Nat} {s t : State} (h : Disabled c s) (k : Steady s t) : Disabled c t := by
  refine ⟨k.en c h.1, fun id b hb hctx => ?_⟩
  obtain ⟨a, ha, hkept⟩ := k.stream_of hb
  exact hkept.armed (h.2 id a ha (hkept.ctx.symm.trans hctx))

/-- Stream `id` is not armed. -/
def Unarmed (id : Nat) (s : State) : Prop := ∀ st, s.stream? id = some st → st.armed = false

theorem Unarmed.of_steady {id : Nat} {s t : State} (h : Unarmed id s) (k : Steady s t) : Unarmed id t := by
  intro b hb
  obtain ⟨a, ha, hkept⟩ := k.stream_of hb
  exact hkept.armed (h a ha)

theorem disarm_unarmed (id : Nat) (s : State) : Unarmed id (disarm id s) := by
  intro st hst
  unfold disarm refreshOdometer at hst
  rw [State.modTal_stream?, State.stream?_modStream_self] at hst
  obtain ⟨a, -, rfl⟩ := Option.map_eq_some_iff.mp hst
  rfl

/-- Every stream of the list is disarmed. -/
theorem disarmAll_unarmed (ids : List Nat) (s : State) :
    ∀ id ∈ ids, Unarmed id (forEach ids (fun id s => disarm id (recordAll Cause.cancelled id s)) s) :=
  forEach_reaches Steady Unarmed (fun _ t => (recordAll_steady _ _ t).trans (disarm_steady _ _)) (fun id _ => disarm_unarmed id _)
    (fun _ _ _ h k => h.of_steady k) ids s

/-- The state in which the epochs of a context that is disabled are cancelled. -/
def closing (c : Nat) (s : State) : State :=
  (s.modCtl (fun x => { x with waiting := x.waiting.filter (fun h => h.ctx != c) })).modCtx c (fun x => { x with en := false, fetched := [] })

theorem closing_steady (c : Nat) (s : State) : Steady s (closing c s) := by
  have hctl : Steady s (s.modCtl (fun x => { x with waiting := x.waiting.filter (fun h => h.ctx != c) })) :=
    { Steady.refl s with waiting := fun h => by rw [State.modCtl_ctl, h]; rfl }
  exact hctl.trans (modCtx_steady c (by exact fun _ _ => rfl) _)

theorem disableContext_effect (c : Nat) (s : State) : Steady s (disableContext c s) ∧ Disabled c (disableContext c s) := by
  unfold disableContext
  extract_lets s1 live s2
  have h1 : Steady s s1 := closing_steady c s
  have h2 : Steady s1 s2 := cancelEpochs_steady live s1
  have hen : (s1.ctx c).en = false := congrArg Ctx.en (State.ctx_modCtx_self _ c _)
  have h3 := disarmAll_steady (s2.streamIds (fun st => st.ctx == c && st.armed)) s2
  refine ⟨h1.trans (h2.trans h3), h3.en c (h2.en c hen), fun id b hb hctx => ?_⟩
  obtain ⟨a, ha, hkept⟩ := h3.stream_of hb
  cases harmed : a.armed with
  | false => exact hkept.armed harmed
  | true =>
    exact disarmAll_unarmed _ s2 id (mem_streamIds ha (by simp [harmed, hkept.ctx.symm.trans hctx])) b hb

/-! ### A reset of a function, and PERST (R392, R417, R451) -/

/-- With the physical function's reset the notices and the interrupts of every page end as well. -/
def silenced (s : State) : State :=
  { s with dbg := { s.dbg with noticeEn := false }, pages := s.pages.map (fun e => (e.1, { e.2 with intEn := 0 })) }

theorem silenced_intEn (s : State) (b : Block) : ((silenced s).hdr b).intEn = 0 := by
  have hfind := Tab.find_map (fun h : Header => { h with intEn := 0 }) b.page s.pages
  unfold State.hdr Tab.get
  refine (congrArg (fun o : Option Header => (o.getD {}).intEn) hfind).trans ?_
  cases Tab.find s.pages b.page with
  | none => rfl
  | some h => rfl

theorem functionReset_eq (fn : Nat) (s : State) : functionReset fn s =
    if fn = 0 then silenced (forEach (resetContexts fn s) disableContext s) else forEach (resetContexts fn s) disableContext s := rfl

theorem functionReset_steady (fn : Nat) (s : State) : Steady s (functionReset fn s) := by
  have hloop : Steady s (forEach (resetContexts fn s) disableContext s) := .forEach _ (fun c t => (disableContext_effect c t).1) s
  rw [functionReset_eq]
  split
  · exact hloop.trans (.of_watched rfl)
  · exact hloop

/-- Every context of the function is disabled. -/
theorem functionReset_disabled (fn : Nat) (s : State) : ∀ c ∈ resetContexts fn s, Disabled c (functionReset fn s) := by
  intro c hc
  have hloop : Disabled c (forEach (resetContexts fn s) disableContext s) :=
    forEach_reaches Steady Disabled (fun k t => (disableContext_effect k t).1) (fun k t => (disableContext_effect k t).2)
      (fun _ _ _ h k => h.of_steady k) _ s c hc
  rw [functionReset_eq]
  split
  · exact hloop.of_steady (.of_watched rfl)
  · exact hloop

theorem mem_resetContexts {fn c : Nat} {s : State} {x : Ctx} (h : Tab.find s.ctxs c = some x) (hfn : fn = 0 ∨ x.fn = fn) :
    c ∈ resetContexts fn s :=
  List.mem_map.mpr ⟨(c, x), List.mem_filter.mpr ⟨Tab.mem_of_find h, by simpa using hfn⟩, rfl⟩

section FunctionReset

variable (s : State) (fn : Nat)

theorem functionReset_en {c : Nat} (hfn : fn = 0 ∨ (s.ctx c).fn = fn) : ((functionReset fn s).ctx c).en = false := by
  cases hx : Tab.find s.ctxs c with
  | none =>
    have hdefault : s.ctx c = {} := by simp [State.ctx, Tab.get, hx]
    exact (functionReset_steady fn s).en c (by rw [hdefault])
  | some x =>
    have hctx : s.ctx c = x := by simp [State.ctx, Tab.get, hx]
    exact (functionReset_disabled fn s c (mem_resetContexts hx (hctx ▸ hfn))).1

theorem functionReset_unarmed {id : Nat} {st : Stream} {x : Ctx} (hst : (functionReset fn s).stream? id = some st)
    (hx : Tab.find s.ctxs st.ctx = some x) (hfn : fn = 0 ∨ x.fn = fn) : st.armed = false :=
  (functionReset_disabled fn s st.ctx (mem_resetContexts hx hfn)).2 id st hst rfl

/-- Nothing waits afterwards either. -/
theorem functionReset_settled (hwait : NoneWaits s) : settle (functionReset fn s) = functionReset fn s :=
  settle_none ((functionReset_steady fn s).waiting hwait.1) ((functionReset_steady fn s).fences hwait.2)

end FunctionReset

theorem sameDram_of_eq {s t : State} (h : t.dram = s.dram) : SameDram s t := fun a => dramByte_of_dram h a

theorem functionLevelReset_completes {s : State} {fn : FnNum} (hwait : NoneWaits s) : Completes (.functionLevelReset fn) s (fun t =>
    (∀ c, (fn = 0 ∨ (s.ctx c).fn = fn.val) → (t.ctx c).en = false) ∧
    (∀ id st x, t.stream? id = some st → Tab.find s.ctxs st.ctx = some x → (fn = 0 ∨ x.fn = fn.val) → st.armed = false) ∧
    (fn = 0 → t.dbg.noticeEn = false ∧ ∀ b, (t.hdr b).intEn = 0) ∧
    t.images = s.images ∧ t.parts = s.parts ∧ SameDram s t) := by
  have hzero : ∀ {p : Prop}, fn = 0 ∨ p → fn.val = 0 ∨ p := fun h => h.imp (fun h => congrArg Fin.val h) fun h => h
  have hsteady := functionReset_steady fn.val s
  refine ⟨functionReset fn.val s, congrArg Host.Outcome.next (functionReset_settled s fn.val hwait), fun c h => functionReset_en s _ (hzero h),
    fun id st x hst hx h => functionReset_unarmed s _ hst hx (hzero h), fun h => ?_, hsteady.images, hsteady.parts, sameDram_of_eq hsteady.dram⟩
  rw [functionReset_eq, if_pos (show fn.val = 0 from congrArg Fin.val h)]
  exact ⟨rfl, silenced_intEn _⟩

theorem pciePerst_completes {s : State} (hwait : NoneWaits s) : Completes .pciePerst s (fun t => t.pce.up = false ∧
    (∀ c, (t.ctx c).en = false) ∧ (∀ id st, t.stream? id = some st → (Tab.find s.ctxs st.ctx).isSome = true → st.armed = false) ∧
    t.dbg.noticeEn = false ∧ t.images = s.images ∧ t.parts = s.parts ∧ SameDram s t) := by
  obtain ⟨u, hu⟩ : ∃ u, u = { s with pce := {}, pages := Tab.erase s.pages Block.pce.page } := ⟨_, rfl⟩
  have hsteady := functionReset_steady 0 u
  have hwaitu : NoneWaits u := by rw [hu]; exact hwait
  refine ⟨functionReset 0 u, ?_, ?_, fun c => functionReset_en u 0 (.inl rfl), fun id st hst hx => ?_, rfl, ?_, ?_, ?_⟩
  · rw [← functionReset_settled u 0 hwaitu, hu]
    rfl
  · rw [hsteady.up, hu]
  · obtain ⟨x, hx⟩ := Option.isSome_iff_exists.mp hx
    exact functionReset_unarmed u 0 hst (by rw [hu]; exact hx) (.inl rfl)
  · rw [hsteady.images, hu]
  · rw [hsteady.parts, hu]
  · exact sameDram_of_eq (hsteady.dram.trans (by rw [hu]))

/-! ### The PCIe link (R412, R436) -/

theorem raise_pce (b : Block) (bit : Nat) (s : State) :
    (raise b bit s).pce = { s.pce with pendingVecs := (raise b bit s).pce.pendingVecs } := by
  unfold raise raiseAt raiseInt sendMsix
  dsimp only
  repeat' split
  all_goals rfl

theorem linkUp_completes (s : State) (speed width mps : Nat) : Completes (.pcieLinkUp speed width mps) s (fun t =>
    (5 ≤ speed → 16 ≤ width → t = { s with pce := { s.pce with up := true, speed := speed, width := width, mps := mps } }) ∧
    (speed < 5 ∨ width < 16 → (t.hdr .pce).errStat.getLsbD 0 = true ∧ t.pce.up = true ∧ t.pce.speed = speed ∧
      t.pce.width = width ∧ t.pce.mps = mps ∧ PageFrame s t)) := by
  refine ⟨linkUp speed width mps s, rfl, fun hspeed hwidth => if_neg (by omega), fun hlow => ?_⟩
  have hstep : linkUp speed width mps s =
      raise .pce Bit.pceDegraded { s with pce := { s.pce with up := true, speed := speed, width := width, mps := mps } } := if_pos hlow
  have hframe := raise_pageFrame .pce Bit.pceDegraded { s with pce := { s.pce with up := true, speed := speed, width := width, mps := mps } }
  rw [hstep]
  refine ⟨raise_sets _ _ _ (by decide), ?_, ?_, ?_, ?_, ?_⟩
  · rw [raise_pce]
  · rw [raise_pce]
  · rw [raise_pce]
  · rw [raise_pce]
  · exact hframe

/-- What AER reports with the link's leaving L0. -/
def aerReported (aer : Upset) (s : State) : State :=
  match aer with
  | .clean => s
  | .corrected => raise .pce Bit.pceCorr s
  | .uncorrectable => raise .pce Bit.pceUncorr s

theorem aerReported_pageFrame (aer : Upset) (s : State) : PageFrame s (aerReported aer s) := by
  cases aer with
  | clean => exact PageFrame.refl s
  | corrected => exact raise_pageFrame _ _ s
  | uncorrectable => exact raise_pageFrame _ _ s

/-- The link is down unless power management took it out of L0. -/
def linkLeft (pm : Bool) (s : State) : State :=
  if pm then s else raise .pce Bit.pceLinkDown { s with pce := { s.pce with up := false } }

theorem linkLeft_pageFrame (pm : Bool) (s : State) : PageFrame s (linkLeft pm s) := by
  unfold linkLeft
  split
  · exact PageFrame.refl s
  · exact (show PageFrame s { s with pce := { s.pce with up := false } } from rfl).trans (raise_pageFrame _ _ _)

theorem linkLeft_keeps {pm : Bool} {s : State} {bit : Nat} (h : (s.hdr .pce).errStat.getLsbD bit = true) :
    ((linkLeft pm s).hdr .pce).errStat.getLsbD bit = true := by
  unfold linkLeft
  split
  · exact h
  · exact raise_keeps_errStat _ _ { s with pce := { s.pce with up := false } } h

theorem linkDown_eq (pm : Bool) (aer : Upset) (s : State) : linkDown pm aer s = linkLeft pm (aerReported aer s) := by
  cases aer <;> rfl

theorem linkDown_completes (s : State) : Completes (.pcieLinkDown ⟨true, .clean⟩) s (fun t => t = s) ∧
    (∀ aer, Completes (.pcieLinkDown ⟨false, aer⟩) s (fun t =>
      t.pce.up = false ∧ (t.hdr .pce).errStat.getLsbD 1 = true ∧ PageFrame s t)) ∧
    (∀ pm, Completes (.pcieLinkDown ⟨pm, .corrected⟩) s (fun t => (t.hdr .pce).errStat.getLsbD 2 = true ∧ PageFrame s t) ∧
      Completes (.pcieLinkDown ⟨pm, .uncorrectable⟩) s (fun t => (t.hdr .pce).errStat.getLsbD 3 = true ∧ PageFrame s t)) := by
  have hframe : ∀ pm aer, PageFrame s (linkLeft pm (aerReported aer s)) :=
    fun pm aer => (aerReported_pageFrame aer s).trans (linkLeft_pageFrame pm _)
  refine ⟨⟨s, rfl, rfl⟩, fun aer => ⟨linkLeft false (aerReported aer s), congrArg Host.Outcome.next (linkDown_eq false aer s), ?_, ?_, hframe _ _⟩,
    fun pm => ⟨⟨linkLeft pm (aerReported .corrected s), rfl, linkLeft_keeps (raise_sets _ _ s (by decide)), hframe _ _⟩,
      ⟨linkLeft pm (aerReported .uncorrectable s), rfl, linkLeft_keeps (raise_sets _ _ s (by decide)), hframe _ _⟩⟩⟩
  · exact congrArg Pce.up (raise_pce _ _ _)
  · exact raise_sets _ _ _ (by decide)

/-! ### The obligation -/

/-- Settles O35: each reset acts on its cores, port or contexts alone, and the link shows what it trained to. -/
theorem partialResetsComplete : Obligations.PartialResetsComplete := by
  unfold Obligations.PartialResetsComplete
  exact ⟨fun s q hwait => ⟨quadrantReset_completes hwait, fun h failed => quadrantResetDone_completes h failed⟩, portReset_completes,
    fun s fn hwait => functionLevelReset_completes hwait, fun s hwait => pciePerst_completes hwait, linkUp_completes, linkDown_completes⟩

end Sys2Proof.Machine

/-! Signatures at a vote unit, and the test of one (R87, R305, R306, R322). -/

namespace Sys2Proof.Machine

open Sys2Proof

/-! ### Entries of a vote unit, items of a stream -/

/-- Finding the element of a number after a change that keeps the numbers. -/
theorem find?_map_key {α : Type} (key : α → Nat) (k : Nat) {f : α → α} (hf : ∀ a, key (f a) = key a) : ∀ xs : List α,
    (xs.map (fun a => if key a = k then f a else a)).find? (fun a => key a == k) = (xs.find? (fun a => key a == k)).map f
  | [] => rfl
  | x :: xs => by
    by_cases hx : key x = k
    · simp [hx, hf]
    · simp [hx, find?_map_key key k hf xs]

theorem entry?_modEntry (u : VoteUnit) (seq : Nat) {f : VoteSeq → VoteSeq} (hf : ∀ e, (f e).seq = e.seq) :
    (u.modEntry seq f).entry? seq = (u.entry? seq).map f :=
  find?_map_key VoteSeq.seq seq hf u.held

theorem item?_modItem (s : State) (id seq : Nat) {f : Item → Item} (hf : ∀ it, (f it).seq = it.seq) {st : Stream} {it : Item}
    (hst : s.stream? id = some st) (hit : st.item? seq = some it) :
    ∃ u, (s.modItem id seq f).stream? id = some u ∧ u.item? seq = some (f it) ∧ u.suspended = st.suspended := by
  refine ⟨{ st with items := st.items.map (fun it => if it.seq = seq then f it else it) }, ?_, ?_, rfl⟩
  · rw [State.modItem, State.stream?_modStream_self, hst]
    rfl
  · exact (find?_map_key Item.seq seq hf st.items).trans (congrArg (Option.map f) hit)

/-- The entry of a number after its change. -/
theorem vote_modEntry {s : State} {v seq : Nat} {e : VoteSeq} (he : (s.vote v).entry? seq = some e) {f : VoteSeq → VoteSeq}
    (hf : ∀ e, (f e).seq = e.seq) : ((s.modVote v (fun u => u.modEntry seq f)).vote v).entry? seq = some (f e) := by
  rw [State.vote_modVote_self, entry?_modEntry _ _ hf, he]
  rfl

/-! ### What a header carries (R299) -/

/-- The record of an accepted item. -/
def headerOf (id seq : Nat) (it : Item) (own calls : List Nat) (st : Stream) (payload : List Byte) (s : State) : Rec :=
  let v := recordVerdict own (calls ++ s.invCauses id st.cls seq)
  { stream := id, state := v.1, cause := v.2, placeEpoch := s.ctl.placeEpoch, seq := seq, stamp := it.stamp, payload := payload }

/-- The record of an accepted item is formed, with its stamp and what its flags and the invalidations make of it. -/
theorem formRecord_effect {s : State} {id seq : Nat} {st : Stream} {it : Item} (hst : s.stream? id = some st)
    (hit : st.item? seq = some it) (own calls : List Nat) (payload : List Byte) :
    ∃ u r, (formRecord id seq own calls payload s).stream? id = some u ∧ r ∈ u.formed ∧ u.item? seq = none ∧ r.seq = seq ∧
      r.stamp = it.stamp ∧ r.placeEpoch = s.ctl.placeEpoch ∧ r.payload = payload ∧
      (r.state, r.cause) = recordVerdict own (calls ++ s.invCauses id st.cls seq) := by
  obtain ⟨r, hr⟩ : ∃ r, r = headerOf id seq it own calls st payload s := ⟨_, rfl⟩
  refine ⟨{ st with items := st.items.filter (fun it => it.seq != seq), formed := insertRec r st.formed }, r, ?_,
    mem_insertRec.mpr (.inl rfl), List.find?_eq_none.mpr fun x hx => ?_, ?_⟩
  · unfold formRecord
    simp only [hst, hit]
    rw [State.stream?_modStream_self, hst, hr]
    rfl
  · simpa using (List.mem_filter.mp hx).2
  · rw [hr]
    exact ⟨rfl, rfl, rfl, rfl, rfl⟩

/-- A formed record stays through what follows. -/
theorem Steady.formed {s t : State} (h : Steady s t) {id seq : Nat} {P : Rec → Prop}
    (hs : ∃ u r, s.stream? id = some u ∧ r ∈ u.formed ∧ u.item? seq = none ∧ P r) :
    ∃ u r, t.stream? id = some u ∧ r ∈ u.formed ∧ u.item? seq = none ∧ P r := by
  obtain ⟨u, r, hu, hr, hnone, hP⟩ := hs
  obtain ⟨b, hb, hkept⟩ := h.streams id u hu
  exact ⟨b, r, hb, hkept.formed r hr, hkept.item?_none hnone, hP⟩

/-! ### Decisions (R305, R306) -/

/-- Without an agreed signature nobody is outvoted. -/
theorem outvoteOthers_undecided {s : State} {v seq : Nat} {e : VoteSeq} (he : (s.vote v).entry? seq = some e) (hagreed : e.agreed = none)
    (id : Nat) (st : Stream) : outvoteOthers v id st seq s = s := by
  refine forEach_inv (fun t => t = s) _ _ (fun k t ht => ?_) s rfl
  rw [ht]
  simp only [he, hagreed]

section Decide

variable {s : State} {v id seq : Nat} {e : VoteSeq} {st : Stream} (he : (s.vote v).entry? seq = some e) (hst : s.stream? id = some st)
include he hst

/-- Without a pair, and with a copy still to come, nothing is decided and the entry stays. -/
theorem decideVote_waits (hdecided : e.decided = false) (hagreed : e.agreed = none)
    (hpair : firstPair (e.sigs.filter (fun g => !st.suspended.contains g.copy)) = none) (hall : allIn st e = false) :
    dropVote v id seq false (decideVote v id seq false s) = s := by
  have hsame : decideVote v id seq false s = s := by
    unfold decideVote
    simp only [he, hst, hdecided, hpair, hall, Bool.or_self, Bool.false_eq_true, if_false]
    exact outvoteOthers_undecided he hagreed id st
  rw [hsame]
  unfold dropVote
  simp only [he, hst, hdecided, Bool.false_and, Bool.or_self, Bool.false_eq_true, if_false]

theorem decideVote_pair (hdecided : e.decided = false) {x y : Sig}
    (hpair : firstPair (e.sigs.filter (fun g => !st.suspended.contains g.copy)) = some (x, y)) :
    decideVote v id seq false s = outvoteOthers v id st seq (forwardVote v id seq x y s) := by
  unfold decideVote
  simp only [he, hst, hdecided, hpair, Bool.false_eq_true, if_false]

theorem decideVote_decided (hdecided : e.decided = true) : decideVote v id seq false s = outvoteOthers v id st seq s := by
  unfold decideVote
  simp only [he, hst, hdecided, if_true]

end Decide

/-- At the record unit the forwarded copy's flags and payload go into the record. -/
theorem forwardVote_record {s : State} {v id seq : Nat} {st : Stream} {it : Item} (hrecord : (s.vote v).record = true)
    (hst : s.stream? id = some st) (hit : st.item? seq = some it) (x y : Sig) :
    ∃ u r, (forwardVote v id seq x y s).stream? id = some u ∧ r ∈ u.formed ∧ u.item? seq = none ∧ r.seq = seq ∧ r.stamp = it.stamp ∧
      r.placeEpoch = s.ctl.placeEpoch ∧ r.payload = (forwardOf x y).payload ∧
      (r.state, r.cause) = recordVerdict ((forwardOf x y).own ++ it.causes) (s.invCauses id st.cls seq) := by
  have hflags : itemFlags id seq s = it.causes := by simp [itemFlags, hst, hit]
  unfold forwardVote
  dsimp only
  rw [if_pos hrecord, ← hflags]
  exact formRecord_effect (s := s.modVote v (fun u => { u.modEntry seq (fun e =>
    { e with agreed := some (forwardOf x y).sig, decided := true }) with votedAt := some s.clock })) hst hit _ _ _

end Sys2Proof.Machine

/-! The commands of the vote units: a signature that a copy presents, and the test of a unit (R87, R305, R322). -/

namespace Sys2Proof.Machine

open Sys2Proof Sys2Proof.Machine.Bits

/-! ### What a copy presents (R87) -/

/-- `g` is what copy `copy` presents for item `seq`, by its unit or by the command's operands. -/
def Presents (v copy seq : Nat) (flips : W64) (cause : Nat) (corr : Bool) (payload bytes : List Byte) (g : Sig) (s : State) : Prop :=
  (computedOutput v copy seq payload s = none ∧ bytes = payload ∧
      g = { copy := copy, sig := crc64 bytes ^^^ flips, cause := cause, corrected := corr, payload := bytes }) ∨
    (∃ causes, computedOutput v copy seq payload s = some (bytes, causes) ∧
      g = { copy := copy, sig := crc64 bytes ^^^ flips, cause := (firstFlag causes).getD 0,
            corrected := causes.any (fun f => flagState f == .corrected), payload := bytes })

theorem presented_eq {v copy seq : Nat} {flips : W64} {cause : Nat} {corr : Bool} {payload bytes : List Byte} {g : Sig} {s : State}
    (h : Presents v copy seq flips cause corr payload bytes g s) : presented v copy seq flips cause corr payload s = g ∧ g.copy = copy := by
  rcases h with ⟨hnone, rfl, rfl⟩ | ⟨causes, hsome, rfl⟩
  · exact ⟨by simp only [presented, hnone], rfl⟩
  · exact ⟨by simp only [presented, hsome], rfl⟩

/-! ### A signature at its unit (R305) -/

/-- The entry once a signature has joined it. -/
def VoteSeq.join (e : VoteSeq) (g : Sig) : VoteSeq := { e with sigs := e.sigs ++ [g] }

section Signature

variable {s : State} {v id seq : Nat} {g : Sig} {st : Stream} (hv : (s.vote v).stream = some id) (hst : s.stream? id = some st)
include hv hst

theorem presentSig_unwanted (h : sigUnwanted v st g seq s = true) : presentSig v seq g s = discardSig v s := by
  simp only [presentSig, hv, hst, h, if_true]

/-- A signature that is wanted joins its entry, and what can be decided is. -/
theorem presentSig_wanted (h : sigUnwanted v st g seq s = false) {e : VoteSeq} (he : (s.vote v).entry? seq = some e) :
    presentSig v seq g s = dropVote v id seq false (decideVote v id seq false
      (s.modVote v (fun u => u.modEntry seq (·.join (sigFlag st seq g))))) := by
  have hroom : roomFor v id seq s = s := if_pos (by rw [he]; rfl)
  simp only [presentSig, hv, hst, h, Bool.false_eq_true, if_false, hroom]
  rfl

end Signature

/-- A signature that is wanted is of a copy in service that has presented none for the item. -/
theorem sigUnwanted_false {s : State} {v seq : Nat} {g : Sig} {st : Stream} {e : VoteSeq} (h : sigUnwanted v st g seq s = false)
    (he : (s.vote v).entry? seq = some e) : st.suspended.contains g.copy = false ∧ ∀ x ∈ e.sigs, x.copy ≠ g.copy := by
  simp only [sigUnwanted, he, Bool.or_eq_false_iff, List.any_eq_false] at h
  obtain ⟨⟨-, hsuspended⟩, hfirst, -⟩ := h
  exact ⟨hsuspended, fun x hx heq => hfirst x hx (by simpa using heq)⟩

section Latched

variable {s : State} {v id seq : Nat} {g : Sig} {st : Stream} {e : VoteSeq} (hwait : NoneWaits s) (hv : (s.vote v).stream = some id)
  (hst : s.stream? id = some st) (hwanted : sigUnwanted v st g seq s = false) (he : (s.vote v).entry? seq = some e)
include hwait hv hst hwanted he

/-- Whatever it decides, the device settles at once. -/
theorem presentSig_steady : Steady (s.modVote v (fun u => u.modEntry seq (·.join (sigFlag st seq g)))) (presentSig v seq g s) ∧
    settle (presentSig v seq g s) = presentSig v seq g s := by
  have hsteady : Steady (s.modVote v (fun u => u.modEntry seq (·.join (sigFlag st seq g)))) (presentSig v seq g s) := by
    rw [presentSig_wanted hv hst hwanted he]
    exact (decideVote_steady _ _ _ _ _).trans (dropVote_steady _ _ _ _ _)
  exact ⟨hsteady, settle_none (hsteady.waiting hwait.1) (hsteady.fences hwait.2)⟩

omit hwait in
/-- One that makes no pair is latched. -/
theorem presentSig_latched (hdecided : e.decided = false) (hagreed : e.agreed = none)
    (hpair : firstPair ((e.sigs ++ [sigFlag st seq g]).filter (fun x => !st.suspended.contains x.copy)) = none)
    (hall : allIn st (e.join (sigFlag st seq g)) = false) :
    presentSig v seq g s = s.modVote v (fun u => u.modEntry seq (·.join (sigFlag st seq g))) := by
  rw [presentSig_wanted hv hst hwanted he]
  exact decideVote_waits (s := s.modVote v (fun u => u.modEntry seq (·.join (sigFlag st seq g))))
    (vote_modEntry he (fun _ => rfl)) hst hdecided hagreed hpair hall

omit hwait in
/-- One that makes a pair at the record unit forms the record. -/
theorem presentSig_record {x y : Sig} {it : Item} (hdecided : e.decided = false)
    (hpair : firstPair ((e.sigs ++ [sigFlag st seq g]).filter (fun x => !st.suspended.contains x.copy)) = some (x, y))
    (hrecord : (s.vote v).record = true) (hit : st.item? seq = some it) :
    ∃ u r, (presentSig v seq g s).stream? id = some u ∧ r ∈ u.formed ∧ u.item? seq = none ∧ r.seq = seq ∧ r.stamp = it.stamp ∧
      r.placeEpoch = s.ctl.placeEpoch ∧ r.payload = (forwardOf x y).payload ∧
      (r.state, r.cause) = recordVerdict ((forwardOf x y).own ++ it.causes) (s.invCauses id st.cls seq) := by
  have hdecide := decideVote_pair (s := s.modVote v (fun u => u.modEntry seq (·.join (sigFlag st seq g))))
    (vote_modEntry he (fun _ => rfl)) hst hdecided hpair
  have hrecord' : ((s.modVote v (fun u => u.modEntry seq (·.join (sigFlag st seq g)))).vote v).record = true := by
    rw [State.vote_modVote_self]
    exact hrecord
  have hformed := forwardVote_record (s := s.modVote v (fun u => u.modEntry seq (·.join (sigFlag st seq g)))) hrecord' hst hit x y
  rw [presentSig_wanted hv hst hwanted he, hdecide]
  exact ((outvoteOthers_steady _ _ _ _ _).trans (dropVote_steady _ _ _ _ _)).formed hformed

end Latched

/-! ### A copy that is outvoted (R305) -/

/-- One round of a loop brings about what the rounds before it prepare and those after it keep. -/
theorem forEach_reaches_of {α : Type} (P Q : State → Prop) {f : α → State → State} {x : α} (hkeep : ∀ y s, P s → P (f y s) ∨ Q (f y s))
    (hdo : ∀ s, P s → Q (f x s)) (hstay : ∀ y s, Q s → Q (f y s)) : ∀ xs : List α, x ∈ xs → ∀ s, P s → Q (forEach xs f s)
  | y :: ys, hx, s, hs => by
    rw [forEach_cons]
    rcases List.mem_cons.mp hx with rfl | hin
    · exact forEach_inv Q ys f hstay _ (hdo s hs)
    · rcases hkeep y s hs with hP | hQ
      · exact forEach_reaches_of P Q hkeep hdo hstay ys hin _ hP
      · exact forEach_inv Q ys f hstay _ hQ

theorem flagUnit_qmg (n cause : Nat) (s : State) : (flagUnit n cause s).qmg = s.qmg := rfl

theorem markOutvoted_qmg (id copy seq cause : Nat) (s : State) : (markOutvoted id copy seq cause s).qmg = s.qmg :=
  forEach_keeps (·.qmg) _ _ (fun n t => flagUnit_qmg n cause t) _

theorem vote_of_qmg {s t : State} (h : t.qmg = s.qmg) (v : Nat) : t.vote v = s.vote v := by
  unfold State.vote
  rw [h]

/-- SAFE has been told that copy `copy` of stream `id` is outvoted. -/
def OutvotedTold (id copy : Nat) (s : State) : Prop :=
  ∃ ev ∈ s.safe.inbox, ev.cause = Cause.outvoted ∧ ev.masked = true ∧ ev.copy = some copy ∧ ev.stream = some id

/-- The entry shows that copy `copy` is outvoted, which has not been logged. -/
def OutvoteDue (v seq copy : Nat) (a : W64) (s : State) : Prop :=
  ∃ e, (s.vote v).entry? seq = some e ∧ e.agreed = some a ∧ outvoteCause a e copy = some Cause.outvoted ∧ e.logged.contains copy = false

/-- The loop of `outvoteOthers` for one copy. -/
def outvoteOne (v id : Nat) (st : Stream) (seq k : Nat) (s : State) : State :=
  match (s.vote v).entry? seq with
  | none => s
  | some e =>
    match e.agreed with
    | none => s
    | some a =>
      match outvoteCause a e k with
      | none => s
      | some cause =>
        if e.logged.contains k then s
        else
          markOutvoted id k seq cause (logOutvoted id st seq k cause
            (s.modVote v (fun u => u.modEntry seq (fun e => { e with logged := e.logged ++ [k] }))))

theorem outvoteOthers_eq (v id : Nat) (st : Stream) (seq : Nat) (s : State) :
    outvoteOthers v id st seq s = forEach ([0, 1, 2].filter (fun k => !st.suspended.contains k)) (outvoteOne v id st seq) s := rfl

section Outvote

variable {v id seq copy : Nat} {st : Stream} {a : W64}

theorem outvoteOne_steady (v id : Nat) (st : Stream) (seq k : Nat) (s : State) : Steady s (outvoteOne v id st seq k s) := by
  unfold outvoteOne
  repeat' split
  · exact .refl s
  · exact .refl s
  · exact .refl s
  · exact .refl s
  · exact (modEntry_steady v seq _ s).trans ((logOutvoted_steady _ _ _ _ _ _).trans (markOutvoted_steady _ _ _ _ _))

theorem OutvotedTold.of_steady {s t : State} (h : OutvotedTold id copy s) (k : Steady s t) : OutvotedTold id copy t := by
  obtain ⟨ev, hev, hrest⟩ := h
  exact ⟨ev, k.inbox ev hev, hrest⟩

theorem outvoteOne_tells {s : State} (h : OutvoteDue v seq copy a s) : OutvotedTold id copy (outvoteOne v id st seq copy s) := by
  obtain ⟨e, he, hagreed, hcause, hlogged⟩ := h
  unfold outvoteOne
  simp only [he, hagreed, hcause, hlogged, Bool.false_eq_true, if_false]
  exact ⟨_, (markOutvoted_steady _ _ _ _ _).inbox _ (report_inbox _ _), rfl, rfl, rfl, rfl⟩

/-- The log of another copy leaves it due. -/
theorem outvoteOne_keeps {k : Nat} (hk : k ≠ copy) {s : State} (h : OutvoteDue v seq copy a s) :
    OutvoteDue v seq copy a (outvoteOne v id st seq k s) := by
  obtain ⟨e, he, hagreed, hcause, hlogged⟩ := h
  unfold outvoteOne
  simp only [he, hagreed]
  split
  · exact ⟨e, he, hagreed, hcause, hlogged⟩
  · split
    · exact ⟨e, he, hagreed, hcause, hlogged⟩
    · refine ⟨{ e with logged := e.logged ++ [k] }, ?_, hagreed, hcause, ?_⟩
      · rw [vote_of_qmg (markOutvoted_qmg _ _ _ _ _)]
        exact vote_modEntry he (fun _ => rfl)
      · simpa [Ne.symm hk] using hlogged

theorem outvoteOthers_tells {s : State} (hservice : st.suspended.contains copy = false) (hcopy : copy < 3)
    (h : OutvoteDue v seq copy a s) : OutvotedTold id copy (outvoteOthers v id st seq s) := by
  rw [outvoteOthers_eq]
  refine forEach_reaches_of (OutvoteDue v seq copy a) (OutvotedTold id copy) (fun k t ht => ?_) (fun t ht => outvoteOne_tells ht)
    (fun k t ht => ht.of_steady (outvoteOne_steady _ _ _ _ _ _)) _ ?_ s h
  · rcases eq_or_ne k copy with rfl | hk
    · exact .inr (outvoteOne_tells ht)
    · exact .inl (outvoteOne_keeps hk ht)
  · refine List.mem_filter.mpr ⟨?_, by simpa using hservice⟩
    simp only [List.mem_cons, List.not_mem_nil, or_false]
    omega

end Outvote

/-- An unflagged signature that disagrees with the agreed one is logged as OUTVOTED. -/
theorem presentSig_outvoted {s : State} {v id seq : Nat} {g : Sig} {st : Stream} {e : VoteSeq} {a : W64}
    (hv : (s.vote v).stream = some id) (hst : s.stream? id = some st) (hwanted : sigUnwanted v st g seq s = false)
    (he : (s.vote v).entry? seq = some e) (hdecided : e.decided = true) (hagreed : e.agreed = some a) (hflag : sigFlag st seq g = g)
    (hvotes : votesNot g.cause = false) (hsig : g.sig ≠ a) (hlogged : e.logged.contains g.copy = false) (hcopy : g.copy < 3) :
    OutvotedTold id g.copy (presentSig v seq g s) := by
  obtain ⟨hservice, hfirst⟩ := sigUnwanted_false hwanted he
  have hcause : outvoteCause a (e.join g) g.copy = some Cause.outvoted := by
    have hfind : (e.sigs ++ [g]).find? (fun x => x.copy == g.copy) = some g := by
      rw [List.find?_append, List.find?_eq_none.mpr (by simpa using hfirst)]
      simp
    simp only [outvoteCause, VoteSeq.join, hfind, hvotes, hsig, Bool.false_eq_true, if_false]
  have hdue : OutvoteDue v seq g.copy a (s.modVote v (fun u => u.modEntry seq (·.join g))) :=
    ⟨e.join g, vote_modEntry he (fun _ => rfl), hagreed, hcause, hlogged⟩
  have hdecide := decideVote_decided (s := s.modVote v (fun u => u.modEntry seq (·.join g))) (vote_modEntry he (fun _ => rfl)) hst hdecided
  rw [presentSig_wanted hv hst hwanted he, hflag, hdecide]
  exact (outvoteOthers_tells hservice hcopy hdue).of_steady (dropVote_steady _ _ _ _ _)

end Sys2Proof.Machine

/-! The vote units' commands, record egress and the deadline monitors (R20, R218, R305, R309, R310, R322, R419). -/

namespace Sys2Proof.Machine

open Sys2Proof Sys2Proof.Machine.Bits

/-! ### A signature (R305) -/

section VoteSignature

variable {s : State} {v : VoteNum} {copy : Fin 3} {seq : Nat} {flips : W64} {cause : Nat} {corr : Bool} {payload bytes : List Byte}
  {id : Nat} {st : Stream} {g : Sig} (hwait : NoneWaits s) (hg : Presents v.val copy.val seq flips cause corr payload bytes g s)
  (hv : (s.vote v.val).stream = some id) (hst : s.stream? id = some st)
include hg

/-- The command answers what the unit makes of the presented signature. -/
theorem completes_voteSignature {t : State} {P : State → Prop} (h : settle (presentSig v.val seq g s) = t) (hP : P t) :
    Completes (.voteSignature v copy seq flips cause corr payload) s P := by
  refine ⟨t, ?_, hP⟩
  show Host.Outcome.next (settle (presentSig v.val seq (presented v.val copy.val seq flips cause corr payload s) s)) = _
  rw [(presented_eq hg).1, h]

include hwait hv hst

theorem voteSignature_unwanted (h : sigUnwanted v.val st g seq s = true) :
    Completes (.voteSignature v copy seq flips cause corr payload) s (fun t =>
      t.vote v.val = { s.vote v.val with discarded := (s.vote v.val).discarded + 1 } ∧ t = { s with qmg := t.qmg }) := by
  refine completes_voteSignature hg ((congrArg settle (presentSig_unwanted hv hst h)).trans (settle_none hwait.1 hwait.2)) ⟨?_, rfl⟩
  exact State.vote_modVote_self _ _ _

variable (hwanted : sigUnwanted v.val st g seq s = false) {e : VoteSeq} (he : (s.vote v.val).entry? seq = some e)
include hwanted he

theorem voteSignature_latched (hdecided : e.decided = false) (hagreed : e.agreed = none)
    (hpair : firstPair ((e.sigs ++ [sigFlag st seq g]).filter (fun x => !st.suspended.contains x.copy)) = none)
    (hall : allIn st { e with sigs := e.sigs ++ [sigFlag st seq g] } = false) :
    Completes (.voteSignature v copy seq flips cause corr payload) s (fun t =>
      (t.vote v.val).entry? seq = some { e with sigs := e.sigs ++ [sigFlag st seq g] } ∧ t = { s with qmg := t.qmg }) := by
  refine completes_voteSignature hg ((congrArg settle (presentSig_latched hv hst hwanted he hdecided hagreed hpair hall)).trans
    (settle_none hwait.1 hwait.2)) ⟨?_, rfl⟩
  exact vote_modEntry he (fun _ => rfl)

theorem voteSignature_record {x y : Sig} {it : Item} (hdecided : e.decided = false)
    (hpair : firstPair ((e.sigs ++ [sigFlag st seq g]).filter (fun x => !st.suspended.contains x.copy)) = some (x, y))
    (hrecord : (s.vote v.val).record = true) (hit : st.item? seq = some it) :
    Completes (.voteSignature v copy seq flips cause corr payload) s (fun t =>
      ∃ u r, t.stream? id = some u ∧ r ∈ u.formed ∧ u.item? seq = none ∧ r.seq = seq ∧ r.stamp = it.stamp ∧
        r.placeEpoch = s.ctl.placeEpoch ∧ r.payload = (forwardOf x y).payload ∧
        (r.state, r.cause) = recordVerdict ((forwardOf x y).own ++ it.causes) (s.invCauses id st.cls seq)) :=
  completes_voteSignature hg (presentSig_steady hwait hv hst hwanted he).2
    (presentSig_record hv hst hwanted he hdecided hpair hrecord hit)

theorem voteSignature_outvoted {a : W64} (hdecided : e.decided = true) (hagreed : e.agreed = some a) (hflag : sigFlag st seq g = g)
    (hvotes : votesNot g.cause = false) (hsig : g.sig ≠ a) (hlogged : e.logged.contains copy.val = false) :
    Completes (.voteSignature v copy seq flips cause corr payload) s (fun t =>
      ∃ ev ∈ t.safe.inbox, ev.cause = Cause.outvoted ∧ ev.masked = true ∧ ev.copy = some copy.val ∧ ev.stream = some id) := by
  have hcopy : g.copy = copy.val := (presented_eq hg).2
  refine completes_voteSignature hg (presentSig_steady hwait hv hst hwanted he).2 ?_
  rw [← hcopy] at hlogged ⊢
  exact presentSig_outvoted hv hst hwanted he hdecided hagreed hflag hvotes hsig hlogged (by omega)

end VoteSignature

/-! ### The test of a vote unit (R322) -/

theorem voteUnitTest_idle {s : State} {v : VoteNum}
    (h : (s.vote v.val).failed = true ∨ (s.vote v.val).votedAt.any (fun x => s.clock ≤ x + 100) = false) (pass : Bool) :
    Completes (.voteUnitTest v pass) s (fun t => t = s) :=
  ⟨s, congrArg Host.Outcome.next (if_pos (by rcases h with h | h <;> simp [h])), rfl⟩

section VoteTest

variable {s : State} {v : VoteNum} (hgood : (s.vote v.val).failed = false)
  (hvoted : (s.vote v.val).votedAt.any (fun x => s.clock ≤ x + 100) = true)
include hgood hvoted

theorem testVote_due (pass : Bool) :
    testVote v.val pass s = if pass then s.modVote v.val (fun u => { u with testedAt := s.clock }) else voteUnitFails v.val s :=
  if_neg (by simp [hgood, hvoted])

theorem voteUnitTest_passes : Completes (.voteUnitTest v true) s (fun t =>
    t.vote v.val = { s.vote v.val with testedAt := s.clock } ∧ t = { s with qmg := t.qmg }) :=
  ⟨s.modVote v.val (fun u => { u with testedAt := s.clock }), congrArg Host.Outcome.next (testVote_due hgood hvoted true),
    State.vote_modVote_self _ _ _, rfl⟩

end VoteTest

theorem mem_freeVotes {s : State} {w : Nat} (h : w ∈ freeVotes s) : (s.vote w).failed = false := by
  have hfree := (List.mem_filter.mp h).2
  simp only [Bool.and_eq_true, Bool.not_eq_true'] at hfree
  exact hfree.2

theorem getD_mem {α : Type} (x : α) (xs : List α) (i : Nat) : (x :: xs).getD i x ∈ x :: xs := by
  rw [List.getD_eq_getElem?_getD]
  cases h : (x :: xs)[i]? with
  | none => exact List.mem_cons_self
  | some y => exact List.mem_of_getElem? h

/-- A unit that fails is marked so, and SAFE is told with its stream. -/
theorem voteUnitFails_effect (v : Nat) (s : State) : ((voteUnitFails v s).vote v).failed = true ∧
    ∀ id, (s.vote v).stream = some id → ∃ ev ∈ (voteUnitFails v s).safe.inbox, ev.unit = 0xC1 ∧ ev.permanent = true ∧ ev.stream = some id := by
  unfold voteUnitFails
  extract_lets u f
  cases hu : u.stream with
  | none => exact ⟨congrArg VoteUnit.failed (State.vote_modVote_self s v _), fun id hid => absurd (hid : none = some id) (by simp)⟩
  | some id =>
    dsimp -zeta only
    extract_lets s1 s2
    have hfailed : (s2.vote v).failed = true := congrArg VoteUnit.failed (State.vote_modVote_self s1 v _)
    have htold : ∀ k, some id = some k → ∃ ev ∈ s2.safe.inbox, ev.unit = 0xC1 ∧ ev.permanent = true ∧ ev.stream = some k := by
      intro k hk
      obtain rfl : id = k := Option.some.inj hk
      exact ⟨_, report_inbox _ _, rfl, rfl, rfl⟩
    have hsuspend : ∀ k, Steady s2 (s2.modStream id (fun st => { st with suspended := addOnce st.suspended k })) :=
      fun k => modStream_steady s2 (fun _ _ => .of_eq rfl rfl rfl rfl)
    cases hfree : freeVotes s2 with
    | nil =>
      have hsteady := (hsuspend (Config.freeNat (f + 1) % 3)).trans (resettleVotes_steady id _)
      refine ⟨hsteady.failed v hfailed, fun k hk => ?_⟩
      obtain ⟨ev, hev, hrest⟩ := htold k hk
      exact ⟨ev, hsteady.inbox ev hev, hrest⟩
    | cons w ws =>
      refine ⟨?_, htold⟩
      have hb : (w :: ws).getD (Config.freeNat (f + 1) % (ws.length + 1)) w ∈ freeVotes s2 := hfree ▸ getD_mem _ _ _
      have hne : v ≠ (w :: ws).getD (Config.freeNat (f + 1) % (ws.length + 1)) w := by
        intro heq
        rw [← heq] at hb
        exact absurd (hfailed.symm.trans (mem_freeVotes hb)) (by simp)
      exact (congrArg VoteUnit.failed (State.vote_modVote_ne s2 (fun _ => u) hne)).trans hfailed

theorem voteUnitTest_fails {s : State} {v : VoteNum} (hgood : (s.vote v.val).failed = false)
    (hvoted : (s.vote v.val).votedAt.any (fun x => s.clock ≤ x + 100) = true) :
    Completes (.voteUnitTest v false) s (fun t => (t.vote v.val).failed = true ∧
      (∀ id, (s.vote v.val).stream = some id → ∃ ev ∈ t.safe.inbox, ev.unit = 0xC1 ∧ ev.permanent = true ∧ ev.stream = some id)) :=
  ⟨voteUnitFails v.val s, congrArg Host.Outcome.next (testVote_due hgood hvoted false), voteUnitFails_effect v.val s⟩

end Sys2Proof.Machine

/-! Record egress and the deadline monitors (R20, R218, R309, R310, R419). -/

namespace Sys2Proof.Machine

open Sys2Proof

/-! ### Egress (R20, R218, R419) -/

/-- The end of a command leaves what was sent. -/
theorem endRunning_grows (c o st d : Nat) (s : State) : Grows s (endRunning c o st d s) := by
  unfold endRunning
  split
  · exact .refl s
  · exact Grows.trans (.of_eq rfl) (finish_grows _ _ _ _ _ _)

/-- Between `s` and `t` jobs and commands end: what was sent stays, and so do the memories, what waits in the device, and the formed
records of every stream. -/
structure JobsEnd (s t : State) : Prop where
  outs : Grows s t
  ctl : t.ctl = s.ctl
  dram : t.dram = s.dram
  cores : t.cores = s.cores
  formed : ∀ id, (t.stream? id).map (·.formed) = (s.stream? id).map (·.formed)

theorem JobsEnd.refl (s : State) : JobsEnd s s := ⟨.refl s, rfl, rfl, rfl, fun _ => rfl⟩

theorem JobsEnd.trans {s t u : State} (h : JobsEnd s t) (k : JobsEnd t u) : JobsEnd s u :=
  ⟨h.outs.trans k.outs, k.ctl.trans h.ctl, k.dram.trans h.dram, k.cores.trans h.cores, fun id => (k.formed id).trans (h.formed id)⟩

/-- An operation that leaves all of these alone. -/
theorem JobsEnd.of_eq {s t : State} (houts : t.outs = s.outs) (hctl : t.ctl = s.ctl) (hdram : t.dram = s.dram) (hcores : t.cores = s.cores)
    (hstreams : t.streams = s.streams) : JobsEnd s t :=
  ⟨.of_eq houts, hctl, hdram, hcores, fun id => by unfold State.stream?; rw [hstreams]⟩

theorem modStream_jobsEnd (s : State) (id : Nat) (f : Stream → Stream) (hf : ∀ st, (f st).formed = st.formed) :
    JobsEnd s (s.modStream id f) := by
  refine { JobsEnd.refl s with formed := fun k => ?_ }
  rw [State.stream?_modStream]
  split
  · next h => cases hst : s.stream? id <;> simp [h, hst, hf]
  · rfl

theorem endRunning_jobsEnd (c o st d : Nat) (s : State) : JobsEnd s (endRunning c o st d s) where
  outs := endRunning_grows c o st d s
  ctl := by simp
  dram := by simp
  cores := by simp
  formed id := by
    have hstreams : (endRunning c o st d s).streams = s.streams := by simp
    unfold State.stream?
    rw [hstreams]

theorem endJob_jobsEnd (id seq : Nat) (s : State) : JobsEnd s (endJob id seq s) := by
  unfold endJob
  split
  · exact .refl s
  · split
    · exact .refl s
    · extract_lets rest s1 s2
      have hjobs : JobsEnd s s1 := modStream_jobsEnd s id _ (by exact fun _ => rfl)
      have hqueues : JobsEnd s1 s2 := by
        clear_value rest
        cases rest with
        | nil => exact .refl s1
        | cons k _ => exact .of_eq rfl rfl rfl rfl rfl
      refine hjobs.trans (hqueues.trans (.trans ?_ (endRunning_jobsEnd _ _ _ _ _)))
      exact .of_eq rfl rfl rfl rfl rfl

section Egress

variable {s : State} {id : Nat} {st : Stream} {r : Rec} (hst : s.stream? id = some st) (hout : st.nextOut = some r)

theorem egress_none (h : (s.stream? id).bind Stream.nextOut = none) : egress id s = s := by
  unfold egress
  split
  · rfl
  · next st hst =>
    have hnone : st.nextOut = none := (congrArg (Option.bind · Stream.nextOut) hst).symm.trans h
    rw [hnone]

include hst hout

theorem egress_linkDown (h0 : st.decl.egress = 0) (hdown : s.pce.up = false) : egress id s = s := by
  simp [egress, hst, hout, h0, hdown]

/-- A record that may leave does, and it is no longer among the formed ones. -/
theorem egress_sends (hlink : st.decl.egress = 0 → s.pce.up = true) {o : Out} (ho : ∀ t : State, sendRecord st r t = t.emit o)
    (hwait : NoneWaits s) : settle (egress id s) = egress id s ∧ Sends s (egress id s) o ∧
      ((egress id s).stream? id).map (·.formed) = some (st.formed.drop 1) ∧ SameMemory s (egress id s) := by
  have hleaves : egress id s = endJob id r.seq ((s.modStream id (fun st => { st with formed := st.formed.drop 1 })).emit o) := by
    have hgoes : ¬ (st.decl.egress = 0 ∧ s.pce.up = false) := fun ⟨h0, hdown⟩ => by simp [hlink h0] at hdown
    simp only [egress, hst, hout, ← ho]
    exact if_neg (by simpa using hgoes)
  have hend := endJob_jobsEnd id r.seq ((s.modStream id (fun st => { st with formed := st.formed.drop 1 })).emit o)
  rw [← hleaves] at hend
  refine ⟨settle_none (by rw [hend.ctl]; exact hwait.1) (by rw [hend.ctl]; exact hwait.2), ?_, ?_, sameMemory_of_eq hend.dram hend.cores⟩
  · exact .after (.emit _ o) hend.outs
  · refine (hend.formed id).trans ?_
    show Option.map _ ((s.modStream id _).stream? id) = _
    rw [State.stream?_modStream_self, hst]
    rfl

end Egress

section RecordEgress

variable {s : State} {id : StreamId} (hwait : NoneWaits s)
include hwait

theorem completes_recordEgress_stays (h : egress id s = s) : Completes (.recordEgress id) s (fun t => t = s) :=
  ⟨s, congrArg Host.Outcome.next ((congrArg settle h).trans (settle_none hwait.1 hwait.2)), rfl⟩

theorem completes_recordEgress {st : Stream} {r : Rec} (hst : s.stream? id = some st) (hout : st.nextOut = some r)
    (hlink : st.decl.egress = 0 → s.pce.up = true) {o : Out} (ho : ∀ t : State, sendRecord st r t = t.emit o) :
    Completes (.recordEgress id) s (fun t => Sends s t o ∧ (t.stream? id).map (·.formed) = some (st.formed.drop 1) ∧ SameMemory s t) := by
  obtain ⟨hsettle, heffect⟩ := egress_sends hst hout hlink ho hwait
  exact ⟨egress id s, congrArg Host.Outcome.next hsettle, heffect⟩

end RecordEgress

end Sys2Proof.Machine

/-! The deadline monitors (R309, R310). -/

namespace Sys2Proof.Machine

open Sys2Proof

section Monitor

variable {s : State} {slot seq id : Nat} {st : Stream} {p : SlotPlan} {d : StageDecl}

theorem monitorFires_none (h : s.streamIds (fun st => isSafety st.cls && st.place.slots.any (fun p => p.slot.val == slot)) = []) :
    monitorFires slot seq s = s := by
  unfold monitorFires
  rw [h]
  rfl

/-- The monitor of the one stream that has the slot. -/
theorem monitorFires_eq (hids : s.streamIds (fun st => isSafety st.cls && st.place.slots.any (fun p => p.slot.val == slot)) = [id])
    (hst : s.stream? id = some st) (hp : st.place.slots.find? (fun p => p.slot.val == slot) = some p) (hd : s.stageOf st p.stage = some d) :
    monitorFires slot seq s = fireMonitor id st p d seq s := by
  unfold monitorFires
  rw [hids, forEach_cons]
  simp only [hst, hp, hd]
  rfl

variable {it : Item} (hit : st.item? seq = some it) (hchecked : it.checked = true)
include hit hchecked

theorem stampOf_accepted (v : Option Nat) : stampOf s st v seq = some it.stamp := by
  simp only [stampOf, hit, hchecked, if_true]

theorem fireMonitor_inTime (h : it.pushed.contains p.slot.val = true ∨ s.tal.time ≤ stageDeadlineOf st d seq it.stamp) :
    fireMonitor id st p d seq s = s := by
  unfold fireMonitor
  simp only [stampOf_accepted hit hchecked, hit, Option.any_some]
  exact if_pos (by simpa using h)

variable (hpushed : it.pushed.contains p.slot.val = false) (hlate : stageDeadlineOf st d seq it.stamp < s.tal.time)
include hpushed hlate

theorem fireMonitor_simplex (hcls : st.cls = .simplex) :
    fireMonitor id st p d seq s = stopWaiting p.slot.val id seq (substitute id p.slot.val st seq s) := by
  unfold fireMonitor
  simp only [stampOf_accepted hit hchecked, hit, Option.any_some, hcls, reduceCtorEq, if_false]
  exact if_neg (by simp only [hpushed, Bool.false_or, decide_eq_true_eq]; omega)

theorem fireMonitor_triplex (hcls : st.cls = .triplex) {v : Nat} (hv : nextVotePoint s st p.stage = some v) :
    fireMonitor id st p d seq s = stopWaiting p.slot.val id seq (missDeadline v id p.copy seq s) := by
  unfold fireMonitor
  simp only [stampOf_accepted hit hchecked, hit, Option.any_some, hcls, if_true, hv]
  exact if_neg (by simp only [hpushed, Bool.false_or, decide_eq_true_eq]; omega)

end Monitor

/-! ### A stage without copies (R310) -/

/-- The substitute record carries the flag of the ingress buffer and STAGE_DEADLINE. -/
theorem qmgRecord_effect {s : State} {id seq : Nat} {st : Stream} {it : Item} (hst : s.stream? id = some st)
    (hit : st.item? seq = some it) (cause : Nat) :
    ∃ u r, (qmgRecord id seq cause s).stream? id = some u ∧ r ∈ u.formed ∧ u.item? seq = none ∧ r.seq = seq ∧ r.stamp = it.stamp ∧
      (r.state, r.cause) = recordVerdict (ingressData st it s) (cause :: s.invCauses id st.cls seq) := by
  obtain ⟨u, r, hu, hr, hnone, hseq, hstamp, -, -, hverdict⟩ :=
    formRecord_effect (s := { s with free := s.free + 1 }) hst hit (ingressData st it s) [cause] (Config.freePayload s.free)
  refine ⟨u, r, ?_, hr, hnone, hseq, hstamp, hverdict⟩
  unfold qmgRecord
  simp only [hst, Option.bind_some, hit, Option.map_some]
  exact hu

section Substitute

variable {s : State} {id slot seq : Nat} {st : Stream} {it : Item}

theorem substitute_steady : Steady s (substitute id slot st seq s) :=
  (sendInval_steady _ s).trans ((qmgRecord_steady _ _ _ _).trans (report_steady _ _))

theorem substitute_record (hst : s.stream? id = some st) (hit : st.item? seq = some it) :
    ∃ u r, (substitute id slot st seq s).stream? id = some u ∧ r ∈ u.formed ∧ u.item? seq = none ∧ r.seq = seq ∧ r.stamp = it.stamp ∧
      (r.state, r.cause) = recordVerdict (ingressData st it s) (Cause.stageDeadline :: s.invCauses id st.cls seq) :=
  (report_steady _ _).formed (qmgRecord_effect (s := sendInval _ s) hst hit Cause.stageDeadline)

theorem substitute_told : (∃ ev ∈ (substitute id slot st seq s).safe.inbox, ev.cause = Cause.stageDeadline ∧ ev.stream = some id ∧ ev.seq = seq) ∧
    ({ target := .stream id, scope := .item seq, cause := Cause.stageDeadline } : Inval) ∈ (substitute id slot st seq s).safe.invOut :=
  ⟨⟨_, report_inbox _ _, rfl, rfl, rfl⟩, ((qmgRecord_steady _ _ _ _).trans (report_steady _ _)).invOut _ (sendInval_invOut _ s)⟩

end Substitute

/-! ### A copy of a stage (R305, R310) -/

/-- Between `s` and `t` units are flagged: no sequencer, no scratchpad and nothing in DRAM changes. -/
structure OnlyFlags (s t : State) : Prop where
  seq : ∀ n, (t.core n).seq = (s.core n).seq
  mem : SameMemory s t

theorem flagUnit_onlyFlags (n cause : Nat) (s : State) : OnlyFlags s (flagUnit n cause s) := by
  have hkeep : ∀ m, ((flagUnit n cause s).core m).seq = (s.core m).seq ∧ ((flagUnit n cause s).core m).sp = (s.core m).sp := by
    intro m
    unfold flagUnit
    rw [State.core_modCore]
    split
    · next h => subst h; exact ⟨rfl, rfl⟩
    · exact ⟨rfl, rfl⟩
  exact ⟨fun m => (hkeep m).1, fun _ => rfl, fun m w => congrArg (Tab.get · 0 w) (hkeep m).2⟩

theorem OnlyFlags.trans {s t u : State} (h : OnlyFlags s t) (k : OnlyFlags t u) : OnlyFlags s u :=
  ⟨fun n => (k.seq n).trans (h.seq n), fun a => (k.mem.1 a).trans (h.mem.1 a), fun n w => (k.mem.2 n w).trans (h.mem.2 n w)⟩

theorem markOutvoted_onlyFlags (id copy seq cause : Nat) (s : State) : OnlyFlags s (markOutvoted id copy seq cause s) :=
  forEach_inv (OnlyFlags s) _ _ (fun n _ ht => ht.trans (flagUnit_onlyFlags n cause _)) _ ⟨fun _ => rfl, sameMemory_of_eq rfl rfl⟩

/-- The copy is noted with the item. -/
theorem markOutvoted_item {s : State} {id copy seq cause : Nat} {st : Stream} {it : Item} (hst : s.stream? id = some st)
    (hit : st.item? seq = some it) : ∃ u k, (markOutvoted id copy seq cause s).stream? id = some u ∧ u.item? seq = some k ∧
      k.outvoted.any (fun o => o.1 == copy) = true ∧ u.suspended = st.suspended := by
  obtain ⟨u, hu, hk, hsuspended⟩ := item?_modItem s id seq (f := fun it =>
    { it with outvoted := if it.outvoted.any (fun p => p.1 == copy) then it.outvoted else it.outvoted ++ [(copy, cause)] })
    (fun _ => rfl) hst hit
  have hstreams : (markOutvoted id copy seq cause s).streams = (s.modItem id seq _).streams :=
    forEach_keeps (·.streams) _ _ (fun n t => by exact rfl) _
  refine ⟨u, _, ?_, hk, ?_, hsuspended⟩
  · rw [← hu]
    exact congrArg (Tab.find · id) hstreams
  · dsimp only
    split
    · assumption
    · simp

/-- Without a core that waits the monitor stops none. -/
theorem stopWaiting_none {s : State} (h : ∀ n, (s.core n).seq ≠ .wait ∧ s.waitOf n = none) (slot id seq : Nat) :
    stopWaiting slot id seq s = s := by
  refine forEach_inv (fun t => t = s) _ _ (fun c t ht => ?_) s rfl
  subst ht
  exact if_neg (by simp [h c.val])

/-- The entry once a copy has missed its stage deadline, unless it has presented its signature. -/
def VoteSeq.miss (copy : Nat) (e : VoteSeq) : VoteSeq :=
  { e with missed := if e.sigs.any (fun g => g.copy == copy) then e.missed else addOnce e.missed copy }

theorem VoteSeq.miss_eq {e : VoteSeq} {copy : Nat} (hnone : ∀ x ∈ e.sigs, x.copy ≠ copy) :
    e.miss copy = { e with missed := addOnce e.missed copy } := by
  have hno : e.sigs.any (fun g => g.copy == copy) = false := List.any_eq_false.mpr fun x hx => by simpa using hnone x hx
  simp only [VoteSeq.miss, hno, Bool.false_eq_true, if_false]

/-- The state in which a copy has missed its stage deadline, before what can be decided is. -/
def missed (v id copy seq : Nat) (s : State) : State :=
  markOutvoted id copy seq Cause.stageDeadline (s.modVote v (fun u => u.modEntry seq (·.miss copy)))

theorem missed_steady (v id copy seq : Nat) (s : State) : Steady s (missed v id copy seq s) :=
  (modEntry_steady v seq _ s).trans (markOutvoted_steady _ _ _ _ _)

theorem missed_onlyFlags (v id copy seq : Nat) (s : State) : OnlyFlags s (missed v id copy seq s) :=
  OnlyFlags.trans (t := s.modVote v (fun u => u.modEntry seq (·.miss copy))) ⟨fun _ => rfl, sameMemory_of_eq rfl rfl⟩
    (markOutvoted_onlyFlags id copy seq _ _)

theorem missed_waitOf (v id copy seq n : Nat) (s : State) : (missed v id copy seq s).waitOf n = s.waitOf n := by
  unfold State.waitOf missed
  rw [markOutvoted_qmg]
  rfl

theorem missed_item {s : State} {id seq : Nat} {st : Stream} {it : Item} (hst : s.stream? id = some st) (hit : st.item? seq = some it)
    (v copy : Nat) : ∃ u k, (missed v id copy seq s).stream? id = some u ∧ u.item? seq = some k ∧
      k.outvoted.any (fun o => o.1 == copy) = true ∧ u.suspended = st.suspended :=
  markOutvoted_item (s := s.modVote v (fun u => u.modEntry seq (·.miss copy))) hst hit

section Miss

variable {s : State} {v id copy seq : Nat} {e : VoteSeq} (he : (s.vote v).entry? seq = some e)
include he

theorem missDeadline_eq : missDeadline v id copy seq s = dropVote v id seq false (decideVote v id seq false (missed v id copy seq s)) := by
  unfold missDeadline
  simp only [he, Option.isSome_some, Bool.true_or, if_true]
  rfl

theorem missed_entry (hnone : ∀ x ∈ e.sigs, x.copy ≠ copy) :
    ((missed v id copy seq s).vote v).entry? seq = some { e with missed := addOnce e.missed copy } := by
  unfold missed
  rw [vote_of_qmg (markOutvoted_qmg _ _ _ _ _), vote_modEntry he (f := (·.miss copy)) (fun _ => rfl), VoteSeq.miss_eq hnone]

/-- Where the others make no pair and one of them is still to come, the copy is marked and nothing is decided. -/
theorem missDeadline_waits {st : Stream} {it : Item} (hst : s.stream? id = some st) (hit : st.item? seq = some it)
    (hdecided : e.decided = false) (hagreed : e.agreed = none) (hnone : ∀ x ∈ e.sigs, x.copy ≠ copy)
    (hpair : firstPair (e.sigs.filter (fun x => !st.suspended.contains x.copy)) = none)
    (hall : allIn st { e with missed := addOnce e.missed copy } = false) : missDeadline v id copy seq s = missed v id copy seq s := by
  obtain ⟨u, -, hu, -, -, hsuspended⟩ := missed_item hst hit v copy
  rw [missDeadline_eq he]
  refine decideVote_waits (missed_entry he hnone) hu hdecided hagreed (by rw [hsuspended]; exact hpair) ?_
  unfold allIn at hall ⊢
  rw [hsuspended]
  exact hall

end Miss

/-! ### The command (R309) -/

theorem slot_of_found {ps : List SlotPlan} {p : SlotPlan} {slot : Nat} (h : ps.find? (fun p => p.slot.val == slot) = some p) :
    p.slot.val = slot := by
  simpa using List.find?_some h

section StageDeadline

variable {s : State} {slot : SlotNum} {seq : Nat} (hwait : NoneWaits s)
include hwait

theorem completes_stageDeadline {t : State} (ht : Steady s t) (h : monitorFires slot.val seq s = t) {P : State → Prop} (hP : P t) :
    Completes (.stageDeadline slot seq) s P :=
  ⟨t, congrArg Host.Outcome.next ((congrArg settle h).trans (settle_none (ht.waiting hwait.1) (ht.fences hwait.2))), hP⟩

variable {id : Nat} {st : Stream} {p : SlotPlan} {d : StageDecl} {it : Item}
  (hids : s.streamIds (fun st => isSafety st.cls && st.place.slots.any (fun p => p.slot.val == slot.val)) = [id])
  (hst : s.stream? id = some st) (hp : st.place.slots.find? (fun p => p.slot.val == slot.val) = some p)
  (hd : s.stageOf st p.stage = some d) (hit : st.item? seq = some it) (hchecked : it.checked = true)
include hids hst hp hd hit hchecked

theorem stageDeadline_inTime (h : it.pushed.contains slot.val = true ∨ s.tal.time ≤ stageDeadlineOf st d seq it.stamp) :
    Completes (.stageDeadline slot seq) s (fun t => t = s) :=
  completes_stageDeadline hwait (.refl s) ((monitorFires_eq hids hst hp hd).trans
    (fireMonitor_inTime hit hchecked (by rwa [slot_of_found hp]))) rfl

variable (hpushed : it.pushed.contains slot.val = false) (hlate : stageDeadlineOf st d seq it.stamp < s.tal.time)
include hpushed hlate

theorem stageDeadline_simplex (hcls : st.cls = .simplex) : Completes (.stageDeadline slot seq) s (fun t =>
    (∃ u r, t.stream? id = some u ∧ r ∈ u.formed ∧ u.item? seq = none ∧ r.seq = seq ∧ r.stamp = it.stamp ∧
      (r.state, r.cause) = recordVerdict (ingressData st it s) (Cause.stageDeadline :: s.invCauses id st.cls seq)) ∧
    (∃ ev ∈ t.safe.inbox, ev.cause = Cause.stageDeadline ∧ ev.stream = some id ∧ ev.seq = seq) ∧
    ({ target := .stream id, scope := .item seq, cause := Cause.stageDeadline } : Inval) ∈ t.safe.invOut) := by
  have hfires := (monitorFires_eq hids hst hp hd).trans
    (fireMonitor_simplex hit hchecked (by rwa [slot_of_found hp]) hlate hcls)
  have hstop := stopWaiting_steady p.slot.val id seq (substitute id p.slot.val st seq s)
  obtain ⟨⟨ev, hev, htold⟩, hinval⟩ := substitute_told (s := s) (id := id) (slot := p.slot.val) (seq := seq) (st := st)
  exact completes_stageDeadline hwait (substitute_steady.trans hstop) hfires
    ⟨hstop.formed (substitute_record hst hit), ⟨ev, hstop.inbox ev hev, htold⟩, hstop.invOut _ hinval⟩

theorem stageDeadline_triplex {v : Nat} {e : VoteSeq} (hcls : st.cls = .triplex) (hv : nextVotePoint s st p.stage = some v)
    (he : (s.vote v).entry? seq = some e) (hdecided : e.decided = false) (hagreed : e.agreed = none)
    (hnone : ∀ x ∈ e.sigs, x.copy ≠ p.copy) (hpair : firstPair (e.sigs.filter (fun x => !st.suspended.contains x.copy)) = none)
    (hall : allIn st { e with missed := addOnce e.missed p.copy } = false) (hwaits : ∀ n, (s.core n).seq ≠ .wait ∧ s.waitOf n = none) :
    Completes (.stageDeadline slot seq) s (fun t => (t.vote v).entry? seq = some { e with missed := addOnce e.missed p.copy } ∧
      ∃ u k, t.stream? id = some u ∧ u.item? seq = some k ∧ k.outvoted.any (fun o => o.1 == p.copy) = true ∧ SameMemory s t) := by
  have hmissed := missed_onlyFlags v id p.copy seq s
  have hfires : monitorFires slot.val seq s = missed v id p.copy seq s := by
    rw [monitorFires_eq hids hst hp hd, fireMonitor_triplex hit hchecked (by rwa [slot_of_found hp]) hlate hcls hv,
      missDeadline_waits he hst hit hdecided hagreed hnone hpair hall]
    refine stopWaiting_none (fun n => ?_) _ _ _
    rw [hmissed.seq, missed_waitOf]
    exact hwaits n
  obtain ⟨u, k, hu, hk, hout, -⟩ := missed_item hst hit v p.copy
  exact completes_stageDeadline hwait (missed_steady _ _ _ _ _) hfires ⟨missed_entry he hnone, u, k, hu, hk, hout, hmissed.mem⟩

end StageDeadline

/-- Settles O54: a signature joins its entry and what can be decided is; what fires, leaves or fails is `Steady`, so the device
settles at once. -/
theorem votesEgressAndDeadlinesComplete : Obligations.VotesEgressAndDeadlinesComplete := by
  unfold Obligations.VotesEgressAndDeadlinesComplete
  refine ⟨fun s v copy seq flips cause corr payload id st g bytes hwait hg hv hst => ⟨?_, ?_, ?_⟩, fun s v => ⟨?_, ?_⟩,
    fun s id hwait => ⟨?_, ?_⟩, fun s slot seq hwait => ⟨?_, ?_⟩⟩
  · exact voteSignature_unwanted hwait hg hv hst
  · intro e hwanted he hdecided hagreed
    exact ⟨voteSignature_latched hwait hg hv hst hwanted he hdecided hagreed,
      fun x y it hpair hrecord hit => voteSignature_record hwait hg hv hst hwanted he hdecided hpair hrecord hit⟩
  · intro e a hwanted he hdecided hagreed hflag hvotes hsig hlogged
    exact voteSignature_outvoted hwait hg hv hst hwanted he hdecided hagreed hflag hvotes hsig hlogged
  · exact voteUnitTest_idle
  · exact fun hgood hvoted => ⟨voteUnitTest_passes hgood hvoted, voteUnitTest_fails hgood hvoted⟩
  · exact fun h => completes_recordEgress_stays hwait (egress_none h)
  · intro st r hst hout
    refine ⟨fun h0 hdown => completes_recordEgress_stays hwait (egress_linkDown hst hout h0 hdown), fun h0 hup => ?_, fun h0 => ?_⟩
    · exact completes_recordEgress hwait hst hout (fun _ => hup) (fun t => if_pos h0)
    · exact completes_recordEgress hwait hst hout (fun h => absurd h h0) (fun t => if_neg h0)
  · exact fun hids => completes_stageDeadline hwait (.refl s) (monitorFires_none hids) rfl
  · intro id st p d it hids hst hp hd hit hchecked
    refine ⟨stageDeadline_inTime hwait hids hst hp hd hit hchecked, fun hpushed hlate => ⟨?_, ?_⟩⟩
    · exact stageDeadline_simplex hwait hids hst hp hd hit hchecked hpushed hlate
    · intro v e hcls hv he hdecided hagreed hnone hpair hall hwaits
      exact stageDeadline_triplex hwait hids hst hp hd hit hchecked hpushed hlate hcls hv he hdecided hagreed hnone hpair hall hwaits

end Sys2Proof.Machine

/-! What the device's own reactions leave of a core (R65, R75): every word of its scratchpad, and the bits of ERR_STAT that stand.
`KeepsWords` holds between two states when this is so, and each operation that pushes, returns and stops are made of has its lemma. -/

namespace Sys2Proof.Machine

open Sys2Proof

/-! ### The relation -/

/-- Between `s` and `t` no word of a scratchpad changes, and no bit of an ERR_STAT register falls. -/
structure KeepsWords (s t : State) : Prop where
  sp : ∀ n, (t.core n).sp = (s.core n).sp
  errStat : ∀ b bit, (s.hdr b).errStat.getLsbD bit = true → (t.hdr b).errStat.getLsbD bit = true

theorem core_of_cores {s t : State} (h : t.cores = s.cores) (n : Nat) : t.core n = s.core n := by
  unfold State.core
  rw [h]

@[simp] theorem core_raiseAt (b : Block) (bit addr : Nat) (who : Option (Nat × Nat)) (s : State) (n : Nat) :
    (raiseAt b bit addr who s).core n = s.core n := core_of_cores (by simp) n

@[simp] theorem core_raise (b : Block) (bit : Nat) (s : State) (n : Nat) : (raise b bit s).core n = s.core n :=
  core_raiseAt b bit 0 none s n

@[simp] theorem core_report (e : FaultEv) (s : State) (n : Nat) : (report e s).core n = s.core n := rfl

theorem KeepsWords.refl (s : State) : KeepsWords s s := ⟨fun _ => rfl, fun _ _ h => h⟩

theorem KeepsWords.trans {s t u : State} (h : KeepsWords s t) (k : KeepsWords t u) : KeepsWords s u :=
  ⟨fun n => (k.sp n).trans (h.sp n), fun b bit hb => k.errStat b bit (h.errStat b bit hb)⟩

theorem KeepsWords.of_eq {s t : State} (hcores : t.cores = s.cores) (hpages : t.pages = s.pages) : KeepsWords s t :=
  ⟨fun n => congrArg CoreSt.sp (core_of_cores hcores n), fun b _ h => by rw [hdr_of_pages hpages]; exact h⟩

theorem KeepsWords.forEach {α : Type} (xs : List α) {f : α → State → State} (h : ∀ x s, KeepsWords s (f x s)) (s : State) :
    KeepsWords s (forEach xs f s) :=
  forEach_inv (KeepsWords s) xs f (fun x _ ht => ht.trans (h x _)) s (.refl s)

theorem KeepsWords.scratchpads {s t : State} (h : KeepsWords s t) : SameScratchpads s t :=
  fun n w => congrArg (Tab.get · 0 w) (h.sp n)

/-- What a reaction keeps of both memories. -/
theorem KeepsWords.sameMemory {s t : State} (h : KeepsWords s t) (hdram : t.dram = s.dram) : SameMemory s t :=
  ⟨sameDram_of_eq hdram, h.scratchpads⟩

/-! ### Changes of one part -/

theorem modCore_keepsWords (n : Nat) {f : CoreSt → CoreSt} (s : State) (h : ∀ c, (f c).sp = c.sp := by intro; rfl) :
    KeepsWords s (s.modCore n f) := by
  refine ⟨fun m => ?_, fun b _ hb => hb⟩
  rw [State.core_modCore]
  split
  · next hm => rw [h, hm]
  · rfl

theorem modHdr_keepsWords (b : Block) {f : Header → Header} (s : State) (h : ∀ x, (f x).errStat = x.errStat := by intro; rfl) :
    KeepsWords s (s.modHdr b f) := by
  refine ⟨fun _ => rfl, fun c bit hc => ?_⟩
  rw [State.hdr_modHdr]
  split
  · next hpage =>
    have hsame : s.hdr b = s.hdr c := by unfold State.hdr; rw [hpage]
    rw [h, hsame]
    exact hc
  · exact hc

theorem modQmg_keepsWords (f : Qmg → Qmg) (s : State) : KeepsWords s (s.modQmg f) := .of_eq rfl rfl

theorem modQueue_keepsWords (n : Nat) (f : Queue → Queue) (s : State) : KeepsWords s (s.modQueue n f) := .of_eq rfl rfl

theorem modBuffer_keepsWords (p i : Nat) (f : Buffer → Buffer) (s : State) : KeepsWords s (s.modBuffer p i f) := .of_eq rfl rfl

theorem modStream_keepsWords (id : Nat) (f : Stream → Stream) (s : State) : KeepsWords s (s.modStream id f) := .of_eq rfl rfl

/-! ### Detections and reports -/

theorem reportAt_keepsWords (t : Nat) (e : FaultEv) (s : State) : KeepsWords s (reportAt t e s) := .of_eq rfl rfl

theorem report_keepsWords (e : FaultEv) (s : State) : KeepsWords s (report e s) := reportAt_keepsWords s.tal.time e s

theorem raiseAt_keepsWords (b : Block) (bit addr : Nat) (who : Option (Nat × Nat)) (s : State) :
    KeepsWords s (raiseAt b bit addr who s) := by
  refine ⟨fun n => congrArg CoreSt.sp (core_of_cores (by simp) n), fun c k hk => ?_⟩
  obtain ⟨a, w, i, hhdr⟩ := raiseAt_hdr b bit addr who s
  rw [hhdr]
  split
  · next hpage =>
    have hsame : s.hdr b = s.hdr c := by unfold State.hdr; rw [hpage]
    rw [BitVec.getLsbD_or, hsame, hk, Bool.true_or]
  · exact hk

theorem raise_keepsWords (b : Block) (bit : Nat) (s : State) : KeepsWords s (raise b bit s) := raiseAt_keepsWords b bit 0 none s

theorem takeInj_keepsWords (b : Block) (bit : Nat) (s : State) : KeepsWords s (takeInj b bit s).2 := by
  unfold takeInj
  dsimp only
  split
  · dsimp only
    exact modHdr_keepsWords b s
  · exact .refl s

/-! ### Waits and units -/

theorem flagUnit_keepsWords (n cause : Nat) (s : State) : KeepsWords s (flagUnit n cause s) := modCore_keepsWords n s

theorem refuseOp_keepsWords (a : Agent) (bit : Option Nat) (s : State) : KeepsWords s (refuseOp a bit s) := by
  have hraise : KeepsWords s (match bit with | none => s | some b => raise .qmg b s) := by
    cases bit with
    | none => exact .refl s
    | some b => exact raise_keepsWords _ _ s
  unfold refuseOp
  dsimp only
  split
  · exact hraise.trans ((report_keepsWords _ _).trans (flagUnit_keepsWords _ _ _))
  · exact hraise

theorem beginWait_keepsWords (c : Nat) (on : WaitOn) (s : State) : KeepsWords s (beginWait c on s) :=
  (modQmg_keepsWords _ s).trans (modCore_keepsWords c _)

theorem endWait_keepsWords (c : Nat) (on : WaitOn) (s : State) : KeepsWords s (endWait c on s) :=
  (modQmg_keepsWords _ s).trans (modCore_keepsWords c _ (fun k => by split <;> rfl))

theorem dropWaits_keepsWords (c : Nat) (s : State) : KeepsWords s (dropWaits c s) := .of_eq rfl rfl

theorem agentWait_keepsWords (a : Agent) (on : WaitOn) (s : State) : KeepsWords s (agentWait a on s) := by
  unfold agentWait
  split
  · exact beginWait_keepsWords _ _ s
  · exact .refl s

/-! ### Handles that are delivered and pushed (R184, R187, R190) -/

theorem issueTransfer_keepsWords (c n : Nat) (h : W64) (s : State) : KeepsWords s (issueTransfer c n h s) := .of_eq rfl rfl

theorem issueFetches_keepsWords (n : Nat) (s : State) : KeepsWords s (issueFetches n s) := by
  unfold issueFetches
  refine (modQmg_keepsWords _ s).trans (.forEach _ (fun f t => ?_) _)
  unfold issueFetch
  dsimp only
  exact (KeepsWords.forEach _ (fun _ u => issueTransfer_keepsWords _ _ _ u) t).trans (modQmg_keepsWords _ _)

theorem deliver_keepsWords (c n : Nat) (q : Queue) (h : W64) (s : State) : KeepsWords s (deliver c n q h s) := by
  have hready : ∀ (o : Nat) (u : UnitInst) (t : State),
      KeepsWords t (t.modCore c (fun k => { k with ready := k.ready ++ [u], releasedAt := some o })) :=
    fun o u t => modCore_keepsWords c t
  unfold deliver State.nextOrder
  dsimp only
  split
  · exact (modQmg_keepsWords _ s).trans ((hready _ _ _).trans ((modQmg_keepsWords _ _).trans (issueFetches_keepsWords n _)))
  · exact (modQmg_keepsWords _ s).trans (hready _ _ _)

theorem pushEntry_keepsWords (n : Nat) (h : W64) (s : State) : KeepsWords s (pushEntry n h s) := by
  have hdirect : ∀ (cs : List Nat) (q : Queue) (t : State),
      KeepsWords t (forEach cs (fun c s => deliver c n q h (endWait c (.pop n) s)) t) :=
    fun cs q t => .forEach cs (fun c u => (endWait_keepsWords c _ u).trans (deliver_keepsWords c n q h _)) t
  unfold pushEntry
  dsimp only
  split
  · exact (modQueue_keepsWords n _ s).trans (hdirect _ _ _)
  · exact (modQueue_keepsWords n _ s).trans (hdirect _ _ _)

end Sys2Proof.Machine

/-! What a return of a handle may change when it does not wait (R178, R179, R182, R185): the buffer and the queue that it goes back to,
windows, and flags of the units that it is refused. -/

namespace Sys2Proof.Machine

open Sys2Proof

/-! ### The relation -/

/-- A core with other windows, and other flags of its running unit. -/
def CoreSt.reflag (c : CoreSt) (ws : Tab Window) (cs : List Nat) : CoreSt :=
  { c with windows := ws, run := c.run.map (fun u => { u with causes := cs }) }

theorem CoreSt.reflag_windows (c : CoreSt) (ws : Tab Window) : ∃ cs, { c with windows := ws } = c.reflag ws cs := by
  refine ⟨(c.run.map (·.causes)).getD [], ?_⟩
  have hrun : c.run.map (fun u => { u with causes := (c.run.map (·.causes)).getD [] }) = c.run := by
    cases c.run <;> rfl
  unfold CoreSt.reflag
  rw [hrun]

theorem CoreSt.reflag_self (c : CoreSt) : ∃ ws cs, c = c.reflag ws cs :=
  ⟨c.windows, c.reflag_windows c.windows⟩

theorem CoreSt.reflag_reflag (c : CoreSt) (ws ws' : Tab Window) (cs cs' : List Nat) :
    (c.reflag ws cs).reflag ws' cs' = c.reflag ws' cs' := by
  simp [CoreSt.reflag, Function.comp_def]

/-- Between `s` and `t` no wait has begun or ended, no queue has become HELD, and streams, images, commands, pools, the clock and
DRAM stand as they did. -/
structure Undisturbed (s t : State) : Prop where
  keeps : KeepsWords s t
  streams : t.streams = s.streams
  images : t.images = s.images
  ctl : t.ctl = s.ctl
  clock : t.clock = s.clock
  dram : t.dram = s.dram
  waiters : t.qmg.waiters = s.qmg.waiters
  frozen : t.qmg.frozen = s.qmg.frozen
  pools : t.qmg.pools = s.qmg.pools
  held : ∀ q, (t.queue q).state = .held → (s.queue q).state = .held

theorem Undisturbed.refl (s : State) : Undisturbed s s := ⟨.refl s, rfl, rfl, rfl, rfl, rfl, rfl, rfl, rfl, fun _ h => h⟩

theorem Undisturbed.trans {s t u : State} (h : Undisturbed s t) (k : Undisturbed t u) : Undisturbed s u where
  keeps := h.keeps.trans k.keeps
  streams := k.streams.trans h.streams
  images := k.images.trans h.images
  ctl := k.ctl.trans h.ctl
  clock := k.clock.trans h.clock
  dram := k.dram.trans h.dram
  waiters := k.waiters.trans h.waiters
  frozen := k.frozen.trans h.frozen
  pools := k.pools.trans h.pools
  held q hq := h.held q (k.held q hq)

/-- A change of one core that leaves its scratchpad disturbs nothing. -/
theorem modCore_undisturbed (n : Nat) {f : CoreSt → CoreSt} (s : State) (h : ∀ c, (f c).sp = c.sp := by intro; rfl) :
    Undisturbed s (s.modCore n f) := ⟨modCore_keepsWords n s h, rfl, rfl, rfl, rfl, rfl, rfl, rfl, rfl, fun _ h => h⟩

/-- Between `s` and `t` handles have gone back, or have been refused: of a core only windows and flags change. -/
structure Returned (s t : State) : Prop extends Undisturbed s t where
  core : ∀ n, ∃ ws cs, t.core n = (s.core n).reflag ws cs

theorem Returned.refl (s : State) : Returned s s := ⟨.refl s, fun n => (s.core n).reflag_self⟩

theorem Returned.trans {s t u : State} (h : Returned s t) (k : Returned t u) : Returned s u where
  toUndisturbed := h.toUndisturbed.trans k.toUndisturbed
  core n := by
    obtain ⟨ws, cs, hcore⟩ := h.core n
    obtain ⟨ws', cs', kcore⟩ := k.core n
    exact ⟨ws', cs', by rw [kcore, hcore, CoreSt.reflag_reflag]⟩

theorem Returned.forEach {α : Type} (xs : List α) {f : α → State → State} (h : ∀ x s, Returned s (f x s)) (s : State) :
    Returned s (forEach xs f s) :=
  forEach_inv (Returned s) xs f (fun x _ ht => ht.trans (h x _)) s (.refl s)

/-- An operation that touches no core, and none of the parts of which `Returned` speaks. -/
theorem Returned.of_eq {s t : State} (hcores : t.cores = s.cores) (hkeeps : KeepsWords s t) (hstreams : t.streams = s.streams)
    (himages : t.images = s.images) (hctl : t.ctl = s.ctl) (hclock : t.clock = s.clock) (hdram : t.dram = s.dram)
    (hqmg : t.qmg = s.qmg) : Returned s t :=
  ⟨⟨hkeeps, hstreams, himages, hctl, hclock, hdram, by rw [hqmg], by rw [hqmg], by rw [hqmg],
    fun q h => by unfold State.queue at h ⊢; rwa [← hqmg]⟩, fun n => by rw [core_of_cores hcores n]; exact (s.core n).reflag_self⟩

/-! ### Its parts -/

theorem raiseAt_returned (b : Block) (bit addr : Nat) (who : Option (Nat × Nat)) (s : State) : Returned s (raiseAt b bit addr who s) :=
  .of_eq (by simp) (raiseAt_keepsWords b bit addr who s) (by simp) (by simp) (by simp) (by simp) (by simp) (by simp)

theorem raise_returned (b : Block) (bit : Nat) (s : State) : Returned s (raise b bit s) := raiseAt_returned b bit 0 none s

theorem report_returned (e : FaultEv) (s : State) : Returned s (report e s) :=
  .of_eq rfl (report_keepsWords e s) rfl rfl rfl rfl rfl rfl

theorem takeInj_returned (b : Block) (bit : Nat) (s : State) : Returned s (takeInj b bit s).2 :=
  .of_eq (by simp) (takeInj_keepsWords b bit s) (by simp) (by simp) (by simp) (by simp) (by simp) (by simp)

theorem modBuffer_returned (p i : Nat) (f : Buffer → Buffer) (s : State) : Returned s (s.modBuffer p i f) :=
  ⟨⟨modBuffer_keepsWords p i f s, rfl, rfl, rfl, rfl, rfl, rfl, rfl, rfl, fun _ h => h⟩, fun n => (s.core n).reflag_self⟩

/-- A change of a queue that does not make it HELD. -/
theorem modQueue_returned (n : Nat) {f : Queue → Queue} (s : State) (h : ∀ q, (f q).state = .held → q.state = .held) :
    Returned s (s.modQueue n f) := by
  refine ⟨⟨modQueue_keepsWords n f s, rfl, rfl, rfl, rfl, rfl, rfl, rfl, rfl, fun q hq => ?_⟩, fun m => (s.core m).reflag_self⟩
  rw [State.queue_modQueue] at hq
  split at hq
  · next heq => rw [heq]; exact h _ hq
  · exact hq

theorem modCtx_returned (c : Nat) (f : Ctx → Ctx) (s : State) : Returned s (s.modCtx c f) :=
  .of_eq rfl (.of_eq rfl rfl) rfl rfl rfl rfl rfl rfl

/-- A change of the windows of a core. -/
theorem modWindow_returned (n w : Nat) (f : Window → Window) (s : State) : Returned s (s.modCore n (fun k => k.modWindow w f)) := by
  refine ⟨modCore_undisturbed n s, fun m => ?_⟩
  rw [State.core_modCore]
  split
  · next hm =>
    subst hm
    exact ⟨_, (s.core m).reflag_windows _⟩
  · exact (s.core m).reflag_self

theorem flagUnit_returned (n cause : Nat) (s : State) : Returned s (flagUnit n cause s) := by
  refine ⟨modCore_undisturbed n s, fun m => ?_⟩
  unfold flagUnit
  rw [State.core_modCore]
  split
  · next hm =>
    subst hm
    refine ⟨(s.core m).windows, ((s.core m).run.map (fun u => addOnce u.causes cause)).getD [], ?_⟩
    unfold CoreSt.reflag
    cases (s.core m).run <;> rfl
  · exact (s.core m).reflag_self

theorem refuseOp_returned (a : Agent) (bit : Option Nat) (s : State) : Returned s (refuseOp a bit s) := by
  have hraise : Returned s (match bit with | none => s | some b => raise .qmg b s) := by
    cases bit with
    | none => exact .refl s
    | some b => exact raise_returned _ _ s
  unfold refuseOp
  dsimp only
  split
  · exact hraise.trans ((report_returned _ _).trans (flagUnit_returned _ _ _))
  · exact hraise

theorem faultQueue_returned (n : Nat) (s : State) : Returned s (faultQueue n s) := by
  unfold faultQueue
  split
  · exact modQueue_returned n s (fun q h => by cases h)
  · exact modCtx_returned _ _ s

theorem closeWindows_returned (pl : PoolSt) (i : Nat) (s : State) : Returned s (closeWindows pl i s) := by
  unfold closeWindows
  split
  · exact .forEach _ (fun c t => modWindow_returned c _ _ t) s
  · exact .refl s

/-! ### Returns (R178, R179) -/

theorem giveFree_returned (p : Nat) (pl : PoolSt) (i tag : Nat) (s : State) : Returned s (giveFree p pl i tag s) := by
  unfold giveFree
  dsimp only
  exact (modBuffer_returned p i _ s).trans ((closeWindows_returned pl i _).trans (modQueue_returned _ _ (fun q h => h)))

theorem forceFree_returned (h : W64) (s : State) : Returned s (forceFree h s) := by
  unfold forceFree
  dsimp only
  split
  · exact .refl s
  · split
    · exact giveFree_returned _ _ _ _ s
    · exact .refl s

theorem readDescriptor_returned (n : Nat) (u : Upset) (s : State) : Returned s (readDescriptor n u s).2 := by
  have hcorr : ∀ (b : Bool) (t : State),
      Returned t (if b then raise .qmg Bit.qmgDescCorr (t.modQmg (fun m => { m with descCorr := sat32 (m.descCorr + 1) })) else t) := by
    intro b t
    cases b with
    | true =>
      refine Returned.trans ?_ (raise_returned _ _ _)
      exact ⟨⟨modQmg_keepsWords _ t, rfl, rfl, rfl, rfl, rfl, rfl, rfl, rfl, fun _ h => h⟩, fun n => (t.core n).reflag_self⟩
    | false => exact .refl t
  have hfirst := takeInj_returned .qmg Bit.qmgDescCorr s
  unfold readDescriptor
  generalize takeInj .qmg Bit.qmgDescCorr s = taken at hfirst ⊢
  obtain ⟨corr, s1⟩ := taken
  dsimp only at hfirst ⊢
  have hread := hfirst.trans (hcorr (corr || u == .corrected) s1)
  generalize (if (corr || u == .corrected) = true then _ else s1) = s2 at hread ⊢
  have hsecond := hread.trans (takeInj_returned .qmg Bit.qmgDescUncorr s2)
  generalize takeInj .qmg Bit.qmgDescUncorr s2 = taken at hsecond ⊢
  obtain ⟨unc, s3⟩ := taken
  dsimp only at hsecond ⊢
  generalize queueOwner n s3 = owner
  obtain ⟨ctx, part, id⟩ := owner
  dsimp only
  split
  · exact hsecond.trans ((faultQueue_returned n _).trans ((raiseAt_returned _ _ _ _ _).trans (report_returned _ _)))
  · exact hsecond

theorem countReturn_returned (a : Agent) (h : W64) (pl : PoolSt) (s : State) : Returned s (countReturn a h pl s).2 := by
  unfold countReturn
  dsimp only
  repeat' split
  all_goals dsimp only
  · exact refuseOp_returned _ _ s
  · exact refuseOp_returned _ _ s
  · exact giveFree_returned _ _ _ _ s
  · exact modBuffer_returned _ _ _ s

/-- The free queue of a handle takes returns: the QMG is not frozen, and the queue is not HELD (R182, R184). -/
def TakesReturn (s : State) (h : W64) : Prop :=
  s.qmg.frozen = false ∧ ∀ pl, s.pool? (Bits.ofHandle h).pool = some pl → (s.queue pl.freeQueue).state ≠ .held

theorem Undisturbed.pool? {s t : State} (h : Undisturbed s t) (p : Nat) : t.pool? p = s.pool? p := by
  unfold State.pool?
  rw [h.pools]

theorem Undisturbed.takesReturn {s t : State} (h : Undisturbed s t) {x : W64} (k : TakesReturn s x) : TakesReturn t x :=
  ⟨h.frozen.trans k.1, fun pl hpl hheld => k.2 pl ((h.pool? _).symm.trans hpl) (h.held _ hheld)⟩

theorem queueStands_ne_wait {s : State} {q : Queue} {part : Nat} (hfrozen : s.qmg.frozen = false) (hheld : q.state ≠ .held) :
    queueStands s q part ≠ .wait := by
  unfold queueStands
  rw [if_neg (by simp [hfrozen, hheld])]
  repeat' split
  all_goals simp

/-- A return that its free queue takes does not wait. -/
theorem returnHere_returned {a : Agent} {h : W64} {pl : PoolSt} {s : State} (hfrozen : s.qmg.frozen = false)
    (hheld : (s.queue pl.freeQueue).state ≠ .held) : (returnHere a h pl s).1 ≠ .waits ∧ Returned s (returnHere a h pl s).2 := by
  have hstands := queueStands_ne_wait (part := agentPart s a pl.part) hfrozen hheld
  unfold returnHere
  split
  · next heq => exact absurd heq hstands
  · exact ⟨by simp, refuseOp_returned _ _ s⟩
  · refine ⟨?_, countReturn_returned a h pl s⟩
    unfold countReturn
    dsimp only
    repeat' split
    all_goals simp

theorem returnTurn_returned {a : Agent} {h : W64} {s : State} (k : TakesReturn s h) :
    (returnTurn a h s).1 ≠ .waits ∧ Returned s (returnTurn a h s).2 := by
  unfold returnTurn
  split
  · dsimp only
    exact ⟨by simp, refuseOp_returned _ _ s⟩
  · next pl hpl =>
    have hread := readDescriptor_returned pl.freeQueue .clean s
    generalize readDescriptor pl.freeQueue .clean s = read at hread ⊢
    obtain ⟨ok, t⟩ := read
    have ht := hread.takesReturn k
    dsimp only at hread ht ⊢
    repeat' split
    · dsimp only
      exact ⟨by simp, hread.trans (refuseOp_returned _ _ t)⟩
    · dsimp only
      exact ⟨by simp, hread.trans (refuseOp_returned _ _ t)⟩
    · obtain ⟨hwaits, hturn⟩ := returnHere_returned (a := a) (h := h) ht.1 (ht.2 pl ((hread.pool? _).trans hpl))
      exact ⟨hwaits, hread.trans hturn⟩

/-- A return by a requester that is no core begins no wait. -/
theorem giveBack_firmware_returned (h : W64) (s : State) : Returned s (giveBack .firmware h s) := by
  unfold giveBack returnTurn
  split
  · dsimp only
    exact refuseOp_returned _ _ s
  · next pl _ =>
    have hread := readDescriptor_returned pl.freeQueue .clean s
    generalize readDescriptor pl.freeQueue .clean s = read at hread ⊢
    obtain ⟨ok, t⟩ := read
    dsimp only at hread ⊢
    repeat' split
    all_goals refine hread.trans ?_
    · dsimp only
      exact refuseOp_returned _ _ t
    · dsimp only
      exact refuseOp_returned _ _ t
    · unfold returnHere
      split
      · exact .refl t
      · dsimp only
        exact refuseOp_returned _ _ t
      · exact countReturn_returned _ _ _ t

theorem giveBacks_firmware_returned (hs : List W64) (s : State) : Returned s (forEach hs (fun h s => giveBack .firmware h s) s) :=
  .forEach hs (fun h t => giveBack_firmware_returned h t) s

end Sys2Proof.Machine

/-! Pushes, records and fault stops (R65, R174, R183): what they leave of the scratchpads and of ERR_STAT, and the core that stops. -/

namespace Sys2Proof.Machine

open Sys2Proof

/-! ### Pushes (R174, R183) -/

theorem pushTurn_keepsWords (u : Upset) (a : Agent) (n : Nat) (h : W64) (s : State) : KeepsWords s (pushTurn u a n h s).2 := by
  have hread := (readDescriptor_returned n u s).keeps
  unfold pushTurn
  generalize readDescriptor n u s = read at hread ⊢
  obtain ⟨ok, t⟩ := read
  refine hread.trans ?_
  dsimp only
  repeat' split
  all_goals dsimp only
  · exact refuseOp_keepsWords _ _ t
  · exact refuseOp_keepsWords _ _ t
  · exact .refl t
  · exact refuseOp_keepsWords _ _ t
  · exact agentWait_keepsWords _ _ t
  · exact refuseOp_keepsWords _ _ t
  · exact refuseOp_keepsWords _ _ t
  · exact (modQmg_keepsWords _ t).trans (beginWait_keepsWords _ _ _)
  · exact .refl t
  · exact pushEntry_keepsWords n h t

theorem checkOutput_keepsWords (payload : Option (List Byte)) (h : W64) (s : State) : KeepsWords s (checkOutput payload h s) := by
  unfold checkOutput
  dsimp only
  split <;> exact .of_eq rfl rfl

theorem stampOutput_keepsWords (u : UnitInst) (h : W64) (s : State) : KeepsWords s (stampOutput u h s) := .of_eq rfl rfl

theorem pushOutputs_keepsWords (c : CoreNum) (u : UnitInst) (s : State) : KeepsWords s (pushOutputs c u s) := by
  unfold pushOutputs
  refine (KeepsWords.forEach u.outputs (fun o t => ?_) s).trans (modStream_keepsWords _ _ _)
  exact (stampOutput_keepsWords u o.2 t).trans ((checkOutput_keepsWords _ _ _).trans (pushTurn_keepsWords _ _ _ _ _))

/-! ### Fault stops (R65) -/

/-- A record that is formed, and what a unit owes, touch no core and no page. -/
theorem formRecord_coresPages (id seq : Nat) (own calls : List Nat) (payload : List Byte) (s : State) :
    (formRecord id seq own calls payload s).cores = s.cores ∧ (formRecord id seq own calls payload s).pages = s.pages := by
  unfold formRecord
  repeat' split
  all_goals exact ⟨rfl, rfl⟩

theorem stopRecord_coresPages (u : UnitInst) (cause : Nat) (s : State) :
    (stopRecord u cause s).cores = s.cores ∧ (stopRecord u cause s).pages = s.pages := by
  unfold stopRecord qmgRecord
  repeat' split
  · exact ⟨rfl, rfl⟩
  · exact formRecord_coresPages _ _ _ _ _ _
  · exact ⟨rfl, rfl⟩

/-- What a unit owes is told to SAFE, and nothing else changes. -/
theorem reportOwed_eq (c : Nat) (u : UnitInst) (corrected : Bool) (s : State) : ∃ f, reportOwed c u corrected s = { s with safe := f } := by
  have hone : ∀ (cause : Nat) (ev : FaultEv) (t : State),
      ∃ f, (if cause = 0 then t else reportAt u.owedAt ev t) = { t with safe := f } := by
    intro cause ev t
    split
    · exact ⟨t.safe, rfl⟩
    · exact ⟨_, rfl⟩
  obtain ⟨f, hretry⟩ := hone u.retry _ s
  obtain ⟨g, howed⟩ := hone u.owed _ _
  exact ⟨g, howed.trans (congrArg (fun t : State => { t with safe := g }) hretry)⟩

theorem reportOwed_coresPages (c : Nat) (u : UnitInst) (corrected : Bool) (s : State) :
    (reportOwed c u corrected s).cores = s.cores ∧ (reportOwed c u corrected s).pages = s.pages := by
  obtain ⟨f, h⟩ := reportOwed_eq c u corrected s
  rw [h]
  exact ⟨rfl, rfl⟩

/-- A fault stop of a core that runs a unit leaves it FAULTED with its cause and without the unit; every word of every scratchpad and
every bit of ERR_STAT stays (R65). -/
theorem faultStop_effect {c : CoreNum} {s : State} {u : UnitInst} (hrun : (s.core c.val).run = some u) (cause bit reason : Nat)
    (counted : Bool) : ((faultStop c cause bit reason counted s).core c.val).run = none ∧
      ((faultStop c cause bit reason counted s).core c.val).seq = .faulted ∧
      ((faultStop c cause bit reason counted s).core c.val).faultCause = cause ∧
      KeepsWords s (faultStop c cause bit reason counted s) := by
  unfold faultStop
  rw [hrun]
  dsimp only
  generalize hs2 : pushOutputs c (u.flag cause) _ = s2
  have hpushed : KeepsWords s s2 := by
    rw [← hs2]
    exact (modCore_keepsWords c.val s).trans ((dropWaits_keepsWords c.val _).trans (pushOutputs_keepsWords c _ _))
  generalize hs3 : s2.modCore c.val _ = s3
  have hstopped : (s3.core c.val).run = none ∧ (s3.core c.val).seq = .faulted ∧ (s3.core c.val).faultCause = cause := by
    rw [← hs3, State.core_modCore_self]
    exact ⟨rfl, rfl, rfl⟩
  have hleft : KeepsWords s2 s3 := by
    rw [← hs3]
    exact modCore_keepsWords c.val s2
  have hback := giveBacks_firmware_returned u.inputs s3
  have hinputs : (u.flag cause).inputs = u.inputs := rfl
  rw [hinputs]
  generalize forEach u.inputs _ s3 = s4 at hback
  obtain ⟨hcores5, hpages5⟩ := stopRecord_coresPages (u.flag cause) cause s4
  obtain ⟨hcores6, hpages6⟩ := reportOwed_coresPages c.val (u.flag cause) false (stopRecord (u.flag cause) cause s4)
  have hcores := hcores6.trans hcores5
  have hpages := hpages6.trans hpages5
  generalize reportOwed c.val (u.flag cause) false _ = s6 at hcores hpages
  have hcore : ∀ e, (report e s6).core c.val = s4.core c.val := fun e => core_of_cores ((report_frame s6 e).2.2.2.2.2.2.1.trans hcores) _
  obtain ⟨ws, cs, h4⟩ := hback.core c.val
  obtain ⟨hnone, hfaulted, hcause⟩ := hstopped
  rw [hcore, h4]
  refine ⟨?_, hfaulted, hcause, hpushed.trans (hleft.trans (hback.keeps.trans
    ((KeepsWords.of_eq hcores hpages).trans (report_keepsWords _ _))))⟩
  unfold CoreSt.reflag
  rw [hnone]
  rfl

theorem seqIllegal_effect {c : CoreNum} {s : State} {u : UnitInst} (hrun : (s.core c.val).run = some u) :
    ((seqIllegal c s).core c.val).run = none ∧ ((seqIllegal c s).core c.val).seq = .faulted ∧
      ((seqIllegal c s).hdr (.core c)).errStat.getLsbD Bit.coreIllegal = true ∧ SameMemory s (seqIllegal c s) := by
  have hraised : ((raise (.core c.val) Bit.coreIllegal s).core c.val).run = some u := by
    rw [core_of_cores (s := s) (by simp)]
    exact hrun
  obtain ⟨hnone, hfaulted, -, hkeeps⟩ := faultStop_effect hraised Cause.faultStop Bit.coreIllegal 0 false
  have hdram : (seqIllegal c s).dram = s.dram := (faultStop_steady c _ _ _ _ _).dram.trans (by simp)
  exact ⟨hnone, hfaulted, hkeeps.errStat _ _ (raise_sets _ _ s (by decide)),
    ((raise_keepsWords _ _ s).trans hkeeps).sameMemory hdram⟩

end Sys2Proof.Machine

/-! The check column of an integer format (R36, R40, R41): the 33 sums of a row agree, and a change of one of them shows. -/

namespace Sys2Proof.Machine

open Sys2Proof

/-- The elements of a row of 32 operands, read by column, sum to the row's sum. -/
theorem sum_columns_row {r : List Int} (h : r.length = 32) : ((List.range 32).map (fun j => (r[j]?).getD 0)).sum = r.sum := by
  have hr : (List.range 32).map (fun j => (r[j]?).getD 0) = r := by
    apply List.ext_getElem (by simp [h])
    intro j _ hj
    simp [hj]
  rw [hr]

/-- Summed over the 32 columns, the products of a row with the weight rows are its products with their sums. -/
theorem sum_columns_zip : ∀ (xs : List Int) (rows : List (List Int)), (∀ r ∈ rows, r.length = 32) →
    ((List.range 32).map (fun j => ((xs.zip rows).map (fun p => p.1 * (p.2[j]?).getD 0)).sum)).sum =
      ((xs.zip (rows.map List.sum)).map (fun p => p.1 * p.2)).sum
  | [], _, _ => by simp
  | _ :: _, [], _ => by simp
  | x :: xs, r :: rows, h => by
    obtain ⟨hr, hrows⟩ := List.forall_mem_cons.mp h
    simp only [List.map_cons, List.zip_cons_cons, List.sum_cons, List.sum_map_add, List.sum_map_mul_left, sum_columns_row hr,
      sum_columns_zip xs rows hrows]

/-- In an integer format the check column of an undisturbed row is the sum of its 32 columns (R40). -/
theorem checksumColumn_eq_sum {f : Nat} (hf : fmtFloat f = false) {rows : List (List Int)} (h : ∀ r ∈ rows, r.length = 32)
    (xs : List Int) : checksumColumn f xs (weightSet f rows).sums = ((List.range 32).map (columnSum f xs rows)).sum := by
  have hsum : checkSum f = List.sum := by funext r; simp [checkSum, hf]
  have hcol : columnSum f xs rows = fun j => ((xs.zip rows).map (fun p => p.1 * (p.2[j]?).getD 0)).sum := by
    funext j; simp [columnSum, hf]
  rw [hcol, sum_columns_zip xs rows h]
  simp [checksumColumn, weightSet, hf, hsum]

/-- In an integer format the comparator compares the check column with the sum of the 32 columns (R41). -/
theorem mismatch_append {f relShift absExp : Nat} (hf : fmtFloat f = false) {ys : List Int} (h : ys.length = 32) (c : Int) :
    mismatch f relShift absExp (ys ++ [c]) = (c != ys.sum) := by
  simp [mismatch, hf, h]

theorem sum_modify_add (d : Int) : ∀ {ys : List Int} {j : Nat}, j < ys.length → (ys.modify j (· + d)).sum = ys.sum + d
  | y :: ys, 0, _ => by simp; ring
  | y :: ys, j + 1, h => by
    simp only [List.modify_succ_cons, List.sum_cons, sum_modify_add d (Nat.lt_of_succ_lt_succ h)]
    ring

theorem modify_append_left (f : Int → Int) : ∀ {ys : List Int} {j : Nat} (zs : List Int), j < ys.length →
    (ys ++ zs).modify j f = ys.modify j f ++ zs
  | _ :: _, 0, _, _ => rfl
  | y :: ys, j + 1, zs, h => by
    simpa using modify_append_left f zs (Nat.lt_of_succ_lt_succ h)

theorem modify_append_last (f : Int → Int) (c : Int) : ∀ ys : List Int, (ys ++ [c]).modify ys.length f = ys ++ [f c]
  | [] => rfl
  | y :: ys => by simpa using modify_append_last f c ys

/-- Settles O47: the check column is the sum of the 32 columns, so that a change of one side alone shows. -/
theorem integerChecksumCatchesEveryFault : Obligations.IntegerChecksumCatchesEveryFault := by
  unfold Obligations.IntegerChecksumCatchesEveryFault
  intro f rows xs relShift absExp hf hrows
  have hlen : ((List.range 32).map (columnSum f xs rows)).length = 32 := by simp
  have hcheck := checksumColumn_eq_sum hf hrows xs
  have hrow : outputRow f (weightSet f rows) xs = (List.range 32).map (columnSum f xs rows) ++
    [((List.range 32).map (columnSum f xs rows)).sum] := by rw [← hcheck]; rfl
  rw [hrow]
  generalize (List.range 32).map (columnSum f xs rows) = ys at hlen
  refine ⟨by simp [mismatch_append hf hlen], fun j d hj hd => ?_⟩
  simp only [disturb, hf, Bool.false_eq_true, if_false]
  rcases Nat.lt_or_eq_of_le hj with hcol | hlast
  · rw [modify_append_left _ _ (by omega), mismatch_append hf (by simpa using hlen), sum_modify_add d (by omega)]
    simpa using hd
  · rw [hlast, ← hlen, modify_append_last, mismatch_append hf hlen]
    simpa using hd

end Sys2Proof.Machine

/-! Counter clears, monitors, PWR_CAP and DBG_NOTICE_HEAD (R67, R251, R377, R406, R439 to R441): what a write of the physical
function comes to at each register, and what a sample does to its monitor. -/

namespace Sys2Proof.Machine

open Sys2Proof

/-! ### Where the write lands (R9, R414) -/

/-- A write of the physical function to a register after the header that is mapped and not read-only, of a page that answers. -/
theorem hostWrite_body {b : Block} {off : Nat} {a : Access} {s : State} (hb : blockOfPage b.page = some b)
    (ha : s.answers b = true) (hlow : 0x100 ≤ off) (hoff : off < 65536) (hacc : bodyAccess b off = some a) (hro : a ≠ .ro)
    (value : W32) : hostWrite 0 (regAddr b off) value s = writeBody b off value (receiveTlp s) := by
  have hreg : regAccess b off = some a := (if_neg (by omega)).trans hacc
  have hland : hostWrite 0 (regAddr b off) value s = writeReg 0 b off value (receiveTlp s) := hostWrite_page hb 0 hoff value s
  rw [hland]
  unfold writeReg
  rw [receiveTlp_answers, ha, hreg, if_neg (show ¬ off < 0x100 by omega)]
  cases a
  case ro => exact absurd rfl hro
  all_goals rfl

theorem blockOfPage_core (n : CoreNum) : blockOfPage (Block.core n.val).page = some (.core n.val) := by
  have hn := n.isLt
  unfold blockOfPage Block.page
  repeat rw [if_neg (by dsimp only; omega)]
  rw [if_pos (by dsimp only; omega), Nat.add_sub_cancel_left]

theorem blockOfPage_ing (p : PortNum) : blockOfPage (Block.ing p.val).page = some (.ing p.val) := by
  have hp := p.isLt
  unfold blockOfPage Block.page
  repeat rw [if_neg (by dsimp only; omega)]
  rw [if_pos (by dsimp only; omega), Nat.add_sub_cancel_left]

/-- CORE_CNT_CLR. -/
theorem hostWrite_coreCntClr {s : State} {n : CoreNum} (ha : s.answers (.core n.val) = true) (value : W32) :
    hostWrite 0 (regAddr (.core n.val) 0x148) value s = clearCore n.val value (receiveTlp s) := by
  rw [hostWrite_body (blockOfPage_core n) ha (a := .w1s) (by decide) (by decide) rfl (by decide)]
  rfl

/-- ING_CNT_CLR. -/
theorem hostWrite_ingCntClr {s : State} {p : PortNum} (ha : s.answers (.ing p.val) = true) (value : W32) :
    hostWrite 0 (regAddr (.ing p.val) 0x13C) value s = clearPort p.val value (receiveTlp s) := by
  rw [hostWrite_body (blockOfPage_ing p) ha (a := .w1s) (by decide) (by decide) rfl (by decide)]
  rfl

/-- The page of MON always answers. -/
theorem answers_mon (s : State) : s.answers .mon = true := by simp [State.answers, Block.stops]

/-- A register of a monitor, at offset `r` of its block of 0x100 bytes. -/
theorem hostWrite_mon (s : State) (m : MonNum) {r : Nat} {a : Access} (hr : r < 0x100) (hacc : monAccess r = some a)
    (hro : a = .rw ∨ a = .w1s) (value : W32) :
    hostWrite 0 (regAddr .mon (0x1000 + r + 0x100 * m.val)) value s = writeMon m.val r value (receiveTlp s) := by
  have hm := m.isLt
  have hblock : (0x1000 + r + 0x100 * m.val - 0x1000) / 0x100 = m.val := by omega
  have hreg : (0x1000 + r + 0x100 * m.val) % 0x100 = r := by omega
  have hbody : bodyAccess .mon (0x1000 + r + 0x100 * m.val) = some a := by
    unfold bodyAccess
    dsimp only
    rw [if_pos (by omega), hreg, hacc]
  rw [hostWrite_body rfl (answers_mon s) (by omega) (by omega) hbody (by rcases hro with rfl | rfl <;> decide)]
  unfold writeBody
  rw [hbody]
  dsimp only
  rw [hblock, hreg]
  rcases hro with rfl | rfl <;> rfl

/-- PWR_CAP, which LOCK protects (R375). -/
theorem hostWrite_pwrCap (s : State) (value : W32) :
    hostWrite 0 (regAddr .pwr 0x100) value s = underLock .pwr (writePwr 0x100 value) (receiveTlp s) := by
  rw [hostWrite_body rfl (by simp [State.answers, Block.stops]) (a := .rw) (by decide) (by decide) rfl (by decide)]
  rfl

/-- DBG_NOTICE_HEAD. -/
theorem hostWrite_noticeHead (s : State) (value : W32) :
    hostWrite 0 (regAddr .dbg 0x14C) value s = writeNoticeHead value (receiveTlp s) := by
  rw [hostWrite_body rfl (by simp [State.answers, Block.stops]) (a := .wo) (by decide) (by decide) rfl (by decide)]
  rfl

/-! ### A change of one unit after the arrival of the packet -/

theorem PageFrame.modCore {s t : State} (h : PageFrame s t) (n : Nat) (f : CoreSt → CoreSt) :
    PageFrame { s with cores := (t.modCore n f).cores } (t.modCore n f) := by
  unfold PageFrame at *
  rw [h]
  rfl

theorem PageFrame.modPort {s t : State} (h : PageFrame s t) (p : Nat) (f : PortSt → PortSt) :
    PageFrame { s with ports := (t.modPort p f).ports } (t.modPort p f) := by
  unfold PageFrame at *
  rw [h]
  rfl

theorem PageFrame.modMon {s t : State} (h : PageFrame s t) (k : Nat) (f : Mon → Mon) :
    PageFrame { s with mons := (t.modMon k f).mons } (t.modMon k f) := by
  unfold PageFrame at *
  rw [h]
  rfl

theorem PageFrame.modPwr {s t : State} (h : PageFrame s t) (f : Pwr → Pwr) :
    PageFrame { s with pwr := (t.modPwr f).pwr } (t.modPwr f) := by
  unfold PageFrame at *
  rw [h]
  rfl

theorem PageFrame.modDbg {s t : State} (h : PageFrame s t) (f : Dbg → Dbg) :
    PageFrame { s with dbg := (t.modDbg f).dbg } (t.modDbg f) := by
  unfold PageFrame at *
  rw [h]
  rfl

@[simp] theorem receiveTlp_core (s : State) (n : Nat) : (receiveTlp s).core n = s.core n := by simp [State.core]

@[simp] theorem receiveTlp_port (s : State) (p : Nat) : (receiveTlp s).port p = s.port p := by simp [State.port]

@[simp] theorem receiveTlp_mon (s : State) (k : Nat) : (receiveTlp s).mon k = s.mon k := by simp [State.mon]

/-! ### Counters (R67, R251) -/

theorem coreCntClr_completes {s : State} {v : W32} {n : CoreNum} (hset : v.getLsbD 0 = true) (ha : s.answers (.core n.val) = true) :
    Completes (.coreCntClr 0 n v) s (fun t =>
      t.core n.val = { s.core n.val with arrayBusy := [], vecBusy := 0, unitMax := 0 } ∧ OtherCores n.val s t ∧
      PageFrame { s with cores := t.cores } t) := by
  refine ⟨_, congrArg Host.Outcome.next ((hostWrite_coreCntClr ha v).trans (if_pos hset)), by simp, fun k hk => ?_,
    (receiveTlp_pageFrame s).modCore _ _⟩
  rw [State.core_modCore_ne _ _ hk, receiveTlp_core]

theorem ingCntClr_completes {s : State} {v : W32} {p : PortNum} (hset : v.getLsbD 0 = true) (ha : s.answers (.ing p.val) = true) :
    Completes (.ingCntClr 0 p v) s (fun t =>
      t.port p.val = { s.port p.val with pkts := 0, hdrCorr := 0, pktDrop := 0, crcErr := 0, overrun := 0, stray := 0 } ∧
      (∀ k, k ≠ p.val → t.port k = s.port k) ∧ PageFrame { s with ports := t.ports } t) := by
  refine ⟨_, congrArg Host.Outcome.next ((hostWrite_ingCntClr ha v).trans (if_pos hset)), by simp, fun k hk => ?_,
    (receiveTlp_pageFrame s).modPort _ _⟩
  rw [State.port_modPort_ne _ _ hk, receiveTlp_port]

/-! ### Monitors (R439 to R441) -/

/-- A change of one monitor after the arrival of the packet. -/
theorem receiveTlp_modMon (s : State) (k : Nat) (f : Mon → Mon) :
    ((receiveTlp s).modMon k f).mon k = f (s.mon k) ∧
      (∀ j, j ≠ k → ((receiveTlp s).modMon k f).mon j = s.mon j) ∧
      PageFrame { s with mons := ((receiveTlp s).modMon k f).mons } ((receiveTlp s).modMon k f) := by
  refine ⟨by simp, fun j hj => ?_, (receiveTlp_pageFrame s).modMon _ _⟩
  rw [State.mon_modMon_ne _ _ hj, receiveTlp_mon]

theorem monClear_completes {s : State} {v : W32} {m : MonNum} (hset : v.getLsbD 0 = true) :
    Completes (.monClear 0 m v) s (fun t => (t.mon m.val).min = none ∧ (t.mon m.val).max = none ∧
      (t.mon m.val).count = 0 ∧ (t.mon m.val).bins = [] ∧ (∀ k, k ≠ m.val → t.mon k = s.mon k) ∧
      PageFrame { s with mons := t.mons } t) := by
  have hwrite := hostWrite_mon s m (r := 0x20) (by decide) rfl (.inr rfl) v
  obtain ⟨hself, hothers, hframe⟩ := receiveTlp_modMon s m.val Mon.clear
  refine ⟨_, congrArg Host.Outcome.next (hwrite.trans (if_pos hset)), ?_⟩
  dsimp only
  rw [hself]
  exact ⟨rfl, rfl, rfl, rfl, hothers, hframe⟩

theorem monCfgWrite_completes (s : State) (v : W32) (m : MonNum) : Completes (.monCfgWrite 0 m v) s (fun t =>
    (t.mon m.val).en = v.getLsbD 31 ∧
    ((s.mon m.val).en = true → t.mon m.val = { s.mon m.val with en := v.getLsbD 31 }) ∧
    ((s.mon m.val).en = false → (t.mon m.val).log = v.getLsbD 30 ∧ (t.mon m.val).period = v.toNat % 65536 ∧
      (v.getLsbD 31 = true → (t.mon m.val).count = 0 ∧ (t.mon m.val).min = none ∧ (t.mon m.val).bins = [])) ∧
    (∀ k, k ≠ m.val → t.mon k = s.mon k) ∧ PageFrame { s with mons := t.mons } t) := by
  have hwrite := hostWrite_mon s m (r := 0x08) (by decide) rfl (.inl rfl) v
  refine ⟨_, congrArg Host.Outcome.next (hwrite.trans (show _ = writeMonCfg m.val v (receiveTlp s) from rfl)), ?_⟩
  unfold writeMonCfg
  obtain ⟨hself, hothers, hframe⟩ := receiveTlp_modMon s m.val (fun m =>
    let en := v.getLsbD 31
    if m.en then { m with en := en }
    else
      let m1 := { m with en := en, log := v.getLsbD 30, period := v.toNat % 65536 }
      if en then m1.clear else m1)
  refine ⟨?_, ?_, ?_, hothers, hframe⟩
  all_goals rw [hself]; dsimp only
  · cases (s.mon m.val).en <;> cases v.getLsbD 31 <;> rfl
  · intro hen
    rw [if_pos hen]
  · intro hen
    simp only [hen, Bool.false_eq_true, if_false]
    cases v.getLsbD 31
    · exact ⟨rfl, rfl, fun h => absurd h (by decide)⟩
    · exact ⟨rfl, rfl, fun _ => ⟨rfl, rfl, rfl⟩⟩

/-- A sample lies between the minimum and the maximum that it leaves. -/
theorem Mon.take_bounds (m : Mon) (v : Int) : ∃ lo hi, (m.take v).min = some lo ∧ (m.take v).max = some hi ∧
    lo ≤ monValue (monSigned m.src) v ∧ monValue (monSigned m.src) v ≤ hi := by
  refine ⟨_, _, rfl, rfl, ?_, ?_⟩
  · cases m.min with
    | none => exact le_refl _
    | some x => simp only [Option.elim_some]; split <;> omega
  · cases m.max with
    | none => exact le_refl _
    | some x => simp only [Option.elim_some]; split <;> omega

theorem monSample_completes {s : State} {m : MonNum} {v : Int} (hen : (s.mon m.val).en = true)
    (havail : monAvailable (s.mon m.val) s = true) : Completes (.monSample m v) s (fun t =>
      let x := monValue (monSigned (s.mon m.val).src) v
      (t.mon m.val).count = min (2 ^ 32 - 1) ((s.mon m.val).count + 1) ∧
      (∃ lo hi, (t.mon m.val).min = some lo ∧ (t.mon m.val).max = some hi ∧ lo ≤ x ∧ x ≤ hi) ∧
      (∀ k, k ≠ m.val → t.mon k = s.mon k) ∧ t = { s with mons := t.mons }) := by
  have hrun : monSample m.val v s = s.modMon m.val (fun m => m.take v) := by simp [monSample, hen, havail]
  refine ⟨_, congrArg Host.Outcome.next hrun, ?_⟩
  simp only [State.mon_modMon_self]
  exact ⟨Nat.min_comm _ _, Mon.take_bounds _ v, fun k hk => State.mon_modMon_ne _ _ hk, rfl⟩

/-! ### PWR_CAP (R377, R434) -/

/-- The arrival of a packet touches the header of PCE alone. -/
theorem receiveTlp_hdr {b : Block} (hb : b.page ≠ Block.pce.page) (s : State) : (receiveTlp s).hdr b = s.hdr b := by
  have htake : (takeInj .pce Bit.pceCorr s).2.hdr b = s.hdr b := by
    unfold takeInj
    dsimp only
    split
    · exact State.hdr_modHdr_ne _ _ hb
    · rfl
  unfold receiveTlp
  dsimp only
  split
  · obtain ⟨a, w, i, hraise⟩ := raiseAt_hdr .pce Bit.pceCorr 0 none (takeInj .pce Bit.pceCorr s).2
    exact (hraise b).trans ((if_neg hb).trans htake)
  · exact htake

theorem receiveTlp_lockOpen_pwr (s : State) : (receiveTlp s).lockOpen .pwr = s.lockOpen .pwr := by
  simp [State.lockOpen, receiveTlp_hdr (b := .pwr) (by decide)]

theorem pwrCapWrite_open {s : State} {v : W32} (h : s.lockOpen .pwr = true) : Completes (.pwrCapWrite 0 v) s (fun t =>
    t.pwr = { s.pwr with cap := max 150 (min 450 (v.toNat % 512)) } ∧ (t.hdr .pwr).lockOpen = false ∧
    PageFrame { s with pwr := t.pwr } t) := by
  have hopen : (receiveTlp s).lockOpen .pwr = true := (receiveTlp_lockOpen_pwr s).trans h
  have hclose := (receiveTlp_pageFrame s).trans (modHdr_pageFrame .pwr (fun h => { h with lockOpen := false }) _)
  refine ⟨_, congrArg Host.Outcome.next ((hostWrite_pwrCap s v).trans (if_pos hopen)), ?_, ?_, hclose.modPwr _⟩
  · simp [writePwr, clampCap]
  · simp [writePwr]

theorem pwrCapWrite_closed {s : State} {v : W32} (h : s.lockOpen .pwr = false) :
    Completes (.pwrCapWrite 0 v) s (fun t => PageFrame s t) := by
  have hshut : ¬ (receiveTlp s).lockOpen .pwr = true := by simp [receiveTlp_lockOpen_pwr, h]
  have hsafe : (lockWrite .pwr (receiveTlp s)).safe = s.safe := by simp [lockWrite_safe]
  have hframe := lockWrite_receiveTlp_pageFrame .pwr s
  rw [hsafe] at hframe
  exact ⟨_, congrArg Host.Outcome.next ((hostWrite_pwrCap s v).trans (if_neg hshut)), hframe⟩

/-! ### DBG_NOTICE_HEAD (R406) -/

/-- A notice moves the tail of the ring, and raises the interrupt of DBG. -/
theorem writeNotice_ring (kind word : Nat) (fault : Option FaultRec) (s : State) :
    (writeNotice kind word fault s).dbg.noticeHead = s.dbg.noticeHead ∧
      PageFrame { s with dbg := (writeNotice kind word fault s).dbg } (writeNotice kind word fault s) := by
  have hint := fun u : State => raiseInt_pageFrame .dbg 2 u
  unfold writeNotice
  dsimp only
  refine ⟨by simp, ?_⟩
  unfold PageFrame at *
  rw [hint]
  rfl

theorem announceLost_frame (s : State) : (announceLost s).dbg.noticeHead = s.dbg.noticeHead ∧
    PageFrame { s with dbg := (announceLost s).dbg } (announceLost s) := by
  unfold announceLost
  split
  · exact writeNotice_ring _ _ _ _
  · exact ⟨rfl, rfl⟩

theorem dbgNoticeHeadWrite_completes (s : State) (v : W32) : Completes (.dbgNoticeHeadWrite 0 v) s (fun t =>
    t.dbg.noticeHead = v.toNat % 2 ^ 19 ∧ PageFrame { s with dbg := t.dbg } t) := by
  refine ⟨_, congrArg Host.Outcome.next (hostWrite_noticeHead s v), ?_⟩
  unfold writeNoticeHead
  obtain ⟨hhead, hring⟩ := announceLost_frame ((receiveTlp s).modDbg (fun d => { d with noticeHead := v.toNat % 2 ^ 19 }))
  have harrive := (receiveTlp_pageFrame s).modDbg (fun d => { d with noticeHead := v.toNat % 2 ^ 19 })
  refine ⟨hhead, ?_⟩
  unfold PageFrame at *
  rw [hring, harrive]

/-- Settles O23: each write is one change of its unit after the arrival of the packet. -/
theorem counterAndMonitorWritesComplete : Obligations.CounterAndMonitorWritesComplete := by
  unfold Obligations.CounterAndMonitorWritesComplete
  refine ⟨fun s v => ⟨fun n => coreCntClr_completes, fun p => ingCntClr_completes,
    fun m => ⟨monClear_completes, monCfgWrite_completes s v m⟩, pwrCapWrite_open, pwrCapWrite_closed,
    dbgNoticeHeadWrite_completes s v⟩, fun s m v => monSample_completes⟩

end Sys2Proof.Machine

/-! Self-test slices, the deferral limit and latent cores (R60, R312, R322, R323). -/

namespace Sys2Proof.Machine

open Sys2Proof

/-- A change of one core leaves the scratchpads alone where it leaves that core's words alone. -/
theorem modCore_sameScratchpads {s : State} {n : Nat} {f : CoreSt → CoreSt} (h : (f (s.core n)).sp = (s.core n).sp) :
    SameScratchpads s (s.modCore n f) := by
  intro k w
  unfold State.spWord
  rw [State.core_modCore]
  split
  · next hk => rw [h, hk]
  · rfl

/-- The completion of a CORE_TEST touches no core, no page, neither SAFE nor a queue of waiting commands. -/
theorem endCoreTest_effect (n : Nat) (s : State) : (endCoreTest n s).cores = s.cores ∧ (endCoreTest n s).pages = s.pages ∧
    (endCoreTest n s).safe = s.safe ∧ (endCoreTest n s).ctl.waiting = s.ctl.waiting ∧ (endCoreTest n s).ctl.fences = s.ctl.fences := by
  unfold endCoreTest
  split
  · exact ⟨rfl, rfl, rfl, rfl, rfl⟩
  · refine ⟨by simp, ?_, by simp, by simp, by simp⟩
    unfold endOpen
    split
    · rfl
    · rw [finishOpen_pages _ _ _ _ _ (by decide)]
      simp

/-- Every member of either list is in the union that adds each once. -/
theorem mem_foldl_addOnce {k : Nat} : ∀ {xs ys : List Nat}, k ∈ ys ∨ k ∈ xs → k ∈ xs.foldl addOnce ys
  | [], _, h => by simpa using h
  | x :: xs, ys, h => by
    refine mem_foldl_addOnce (xs := xs) ?_
    unfold addOnce
    split
    · next hx =>
      rcases h with h | h
      · exact .inl h
      · rcases List.mem_cons.mp h with rfl | h
        · exact .inl (by simpa using hx)
        · exact .inr h
    · rcases h with h | h
      · exact .inl (by simp [h])
      · rcases List.mem_cons.mp h with rfl | h
        · exact .inl (by simp)
        · exact .inr h

section Slice

variable {s : State} {n : CoreNum}

/-- A slice may start on an idle core in service whose work leaves it room (R60, R323). -/
theorem selfTestSliceStart_completes (hidle : (s.core n.val).seq = .idle) (hrun : (s.core n.val).run = none)
    (hpool : (s.core n.val).pool = .schedulable ∨ (s.core n.val).pool = .spare)
    (hiso : (s.hdr (.core n.val)).isolated = false) (hfits : sliceFits n.val s = true) :
    Completes (.selfTestSliceStart n) s (fun t =>
      t.core n.val = { s.core n.val with seq := .test, drainReq := false } ∧ (t.hdr (.core n.val)).inTest = true ∧
      OtherCores n.val s t ∧ t = { s with cores := t.cores, pages := t.pages }) := by
  have hstart : sliceStart n.val s =
      (s.modCore n.val (fun c => { c with seq := .test, drainReq := false })).modHdr (.core n.val)
        (fun h => { h with inTest := true }) := by
    refine if_pos ?_
    rcases hpool with hpool | hpool <;> simp [hidle, hrun, hpool, hiso, hfits]
  exact ⟨_, congrArg Host.Outcome.next hstart, by simp, by simp, fun m hm => by simp [State.core_modCore_ne _ _ hm], rfl⟩

/-- What the end of a slice comes to, with nothing waiting inside the device. -/
theorem completes_selfTestSliceDone {pass comparator : Bool} {t : State} {P : State → Prop} (hwait : NoneWaits s)
    (h : sliceDone n.val pass comparator s = t) (hwaiting : t.ctl.waiting = s.ctl.waiting) (hfences : t.ctl.fences = s.ctl.fences)
    (hP : P t) : Completes (.selfTestSliceDone n pass comparator) s P := by
  refine ⟨_, congrArg Host.Outcome.next (congrArg settle h), ?_⟩
  rw [settle_none (hwaiting.trans hwait.1) (hfences.trans hwait.2)]
  exact hP

/-- The core after a slice: IDLE, with IN_TEST down. -/
def tested (n : Nat) (s : State) : State :=
  (s.modCore n (fun c => { c with seq := .idle })).modHdr (.core n) (fun h => { h with inTest := false })

/-- A slice that passes counts, and the sixteenth ends the full test (R322). -/
theorem sliceDone_passes (htest : (s.core n.val).seq = .test) : sliceDone n.val true true s =
    if 16 ≤ (s.core n.val).slices + 1 then
      endCoreTest n.val ((tested n.val s).modCore n.val (fun c => { c with slices := 0, testedAt := s.clock, late := false }))
    else (tested n.val s).modCore n.val (fun c => { c with slices := c.slices + 1 }) := by
  have hslices : ((tested n.val s).core n.val).slices = (s.core n.val).slices := by simp [tested]
  rw [← hslices]
  exact if_neg (not_not_intro htest)

/-- A slice that fails, or whose comparator does, is reported as a permanent fault (R312, R322). -/
theorem sliceDone_fails (htest : (s.core n.val).seq = .test) {pass comparator : Bool} (hfail : (pass && comparator) = false) :
    ∃ (e : FaultEv) (f : Nat), e.unit = n.val ∧ e.permanent = true ∧
      sliceDone n.val pass comparator s = endCoreTest n.val (report e { tested n.val s with free := f }) := by
  refine ⟨{ unit := n.val, cause := Config.freeNat (tested n.val s).free % 256, permanent := true }, (tested n.val s).free + 1,
    rfl, rfl, ?_⟩
  exact (if_neg (not_not_intro htest)).trans (if_neg (by simp [hfail]))

theorem tested_otherCores (n : Nat) (s : State) (f : CoreSt → CoreSt) : OtherCores n s ((tested n s).modCore n f) := by
  intro m hm
  simp [tested, State.core_modCore_ne _ _ hm]

theorem selfTestSliceDone_passes (hwait : NoneWaits s) (htest : (s.core n.val).seq = .test) :
    Completes (.selfTestSliceDone n true true) s (fun t =>
      (t.core n.val).seq = .idle ∧ (t.hdr (.core n.val)).inTest = false ∧ OtherCores n.val s t ∧ t.safe = s.safe ∧
      ((s.core n.val).slices < 15 → (t.core n.val).slices = (s.core n.val).slices + 1) ∧
      (15 ≤ (s.core n.val).slices → (t.core n.val).slices = 0 ∧ (t.core n.val).testedAt = s.clock ∧
        (t.core n.val).late = false)) := by
  have hrun := sliceDone_passes htest
  split at hrun
  · next hlast =>
    obtain ⟨hcores, hpages, hsafe, hwaiting, hfences⟩ := endCoreTest_effect n.val
      ((tested n.val s).modCore n.val (fun c => { c with slices := 0, testedAt := s.clock, late := false }))
    have hcore := core_of_cores hcores
    refine completes_selfTestSliceDone hwait hrun hwaiting hfences ⟨?_, ?_, ?_, hsafe, fun h => absurd h (by omega), fun _ => ?_⟩
    · rw [hcore]; simp [tested]
    · rw [hdr_of_pages hpages]; simp [tested]
    · intro m hm
      rw [hcore]
      exact tested_otherCores _ _ _ m hm
    · rw [hcore]; simp
  · next hmore =>
    refine completes_selfTestSliceDone hwait hrun rfl rfl ⟨by simp [tested], by simp [tested], tested_otherCores _ _ _, rfl,
      fun _ => by simp [tested], fun h => absurd h (by omega)⟩

theorem selfTestSliceDone_fails (hwait : NoneWaits s) (htest : (s.core n.val).seq = .test) {pass comparator : Bool}
    (hfail : (pass && comparator) = false) :
    Completes (.selfTestSliceDone n pass comparator) s (fun t => (t.core n.val).seq = .idle ∧
      (∃ e, t.safe.inbox = s.safe.inbox ++ [e] ∧ e.unit = n.val ∧ e.permanent = true) ∧ OtherCores n.val s t) := by
  obtain ⟨e, f, hunit, hperm, hrun⟩ := sliceDone_fails htest hfail
  obtain ⟨hcores, -, hsafe, hwaiting, hfences⟩ := endCoreTest_effect n.val (report e { tested n.val s with free := f })
  have hcore : ∀ m, (sliceDone n.val pass comparator s).core m = (tested n.val s).core m := fun m => by
    rw [hrun]; exact core_of_cores (by rw [hcores]; simp) m
  refine completes_selfTestSliceDone hwait rfl (by rw [hrun, hwaiting]; rfl) (by rw [hrun, hfences]; rfl)
    ⟨by rw [hcore]; simp [tested], ⟨{ e with time := s.tal.time }, ?_, hunit, hperm⟩, fun m hm => ?_⟩
  · rw [hrun, hsafe]
    simp [report, reportAt, tested]
  · rw [hcore]
    simp [tested, State.core_modCore_ne _ _ hm]

/-- 80 s after its last full test a core with a Strata stage has its slots pending re-placement (R323). -/
theorem testDeferralLimit_completes (hdue : (s.core n.val).testedAt + 80 * secNs ≤ s.clock) (hstrata : s.hostsStrata n.val = true) :
    Completes (.testDeferralLimit n) s (fun t => (∀ k ∈ s.slotsOn n.val, k ∈ t.ctl.pendRepl) ∧
      t = { s with ctl := { s.ctl with pendRepl := t.ctl.pendRepl } }) := by
  have hrun : deferralLimit n.val s = wantReplacement (s.slotsOn n.val) s := if_pos (by simp [hdue, hstrata])
  exact ⟨_, congrArg Host.Outcome.next hrun, fun k hk => mem_foldl_addOnce (.inr hk), rfl⟩

/-- 100 s after it the core is late: it shows, and SAFE hears of it (R323). -/
theorem latent_completes (hdue : (s.core n.val).testedAt + 100 * secNs ≤ s.clock) (hlate : (s.core n.val).late = false)
    (hfused : (s.core n.val).pool ≠ .fused) (hretired : (s.core n.val).pool ≠ .retired) :
    Completes (.latent n) s (fun t => t.core n.val = { s.core n.val with late := true } ∧ t.safe.lateCore = n.val ∧
      (t.hdr .safe).errStat.getLsbD 4 = true ∧ (∃ e, t.safe.inbox = s.safe.inbox ++ [e] ∧ e.unit = n.val ∧
        e.cause = Cause.latent) ∧ OtherCores n.val s t ∧ SameMemory s t) := by
  let s1 := (s.modCore n.val (fun c => { c with late := true })).modSafe (fun f => { f with lateCore := n.val })
  let e : FaultEv := { unit := n.val, cause := Cause.latent, cls := 2, bit := Bit.safeLatent }
  have hrun : latentCore n.val s = wantReplacement (s1.slotsOn n.val) (report e (raise .safe Bit.safeLatent s1)) :=
    if_pos (by simp [hdue, hlate, hfused, hretired])
  have hcores : (latentCore n.val s).cores = (s.modCore n.val (fun c => { c with late := true })).cores := by
    rw [hrun]; simp [wantReplacement, s1]
  have hcore := core_of_cores hcores
  refine ⟨_, congrArg Host.Outcome.next rfl, ?_, ?_, ?_, ⟨{ e with time := s.tal.time }, ?_, rfl, rfl⟩, ?_, ?_, ?_⟩
  · rw [hcore]; simp
  · rw [hrun]; simp [wantReplacement, report, reportAt, s1]
  · rw [hrun]; exact raise_sets .safe Bit.safeLatent s1 (by decide)
  · rw [hrun]; simp [wantReplacement, report, reportAt, s1]
  · intro m hm
    rw [hcore, State.core_modCore_ne _ _ hm]
  · refine sameDram_of_eq ?_
    rw [hrun]; simp [wantReplacement, s1]
  · intro m w
    unfold State.spWord
    rw [hcore]
    exact modCore_sameScratchpads rfl m w

end Slice

/-- Settles O30: each command is one change of its core, with the end of its test and the report to SAFE. -/
theorem selfTestCommandsComplete : Obligations.SelfTestCommandsComplete := by
  unfold Obligations.SelfTestCommandsComplete
  exact fun s n => ⟨selfTestSliceStart_completes,
    fun hwait htest => ⟨selfTestSliceDone_passes hwait htest, fun _ _ => selfTestSliceDone_fails hwait htest⟩,
    testDeferralLimit_completes, latent_completes⟩

end Sys2Proof.Machine

/-! VECTOR_ISSUE (R53, R58): what a read of the scratchpad meets when nothing is armed, what a bundle writes, and the outcomes of an
instruction. -/

namespace Sys2Proof.Machine

open Sys2Proof

/-! ### Reads that meet nothing (R75, R140) -/

section Reads

variable {s : State}

theorem bankRead_clean {n : Nat} (h : (s.hdr (.core n)).inj = 0) (w : Nat) (pass : Bool) :
    bankRead n w .clean pass s = (false, s) := by
  unfold bankRead
  simp [takeInj_unarmed h]

/-- With no injection armed a clean read stops nothing; a poisoned word among those that it reads flags the unit (R140). -/
theorem readRanges_clean {n : CoreNum} (h : (s.hdr (.core n.val)).inj = 0) (rs : List (Nat × Nat)) (k : Nat) :
    readRanges n rs .clean k s = if (s.core n.val).drain.spPoison.any ((rangeWords rs).contains ·) then
      (false, flagUnit n.val Cause.memPoison s) else (false, s) := by
  unfold readRanges
  dsimp only
  generalize (rangeWords rs).filter _ = bank
  cases bank with
  | nil => rfl
  | cons w ws => simp [bankRead_clean h]

/-- A clean read with no poisoned word meets nothing. -/
theorem readRanges_sound {n : CoreNum} (h : (s.hdr (.core n.val)).inj = 0) (hpoison : (s.core n.val).drain.spPoison = [])
    (rs : List (Nat × Nat)) (k : Nat) : readRanges n rs .clean k s = (false, s) := by
  rw [readRanges_clean h, hpoison]
  exact if_neg (by simp)

/-- A read of no word meets nothing. -/
theorem readRanges_nil (n : CoreNum) (u : Upset) (k : Nat) : readRanges n [] u k s = (false, s) := by
  unfold readRanges
  simp [rangeWords]

end Reads

/-- A unit that runs is there, and the clocks are not stopped. -/
theorem run_of_unitRuns {s : State} {n : Nat} (h : s.unitRuns n = true) : (∃ u, (s.core n).run = some u) ∧ s.pwr.stopped = false := by
  unfold State.unitRuns at h
  simp only [Bool.and_eq_true, Bool.not_eq_true', Option.isSome_iff_exists] at h
  exact h.1

/-! ### The lanes of a bundle (R53) -/

/-- What one lane of the issuing bundle writes. -/
def putLane (v : VecUnit) (o : VecOp) (b : Nat) (view t : CoreSt) (lane : Nat) : CoreSt :=
  if b * 64 + lane < view.strands then
    match laneResult v view (b * 64 + lane) lane o with
    | some (d, x) => t.setReg (b * 64 + lane) d x
    | none => t
  else t

section Lanes

variable (v : VecUnit) (o : VecOp) (b : Nat) (view : CoreSt)

theorem writeLanes_eq_foldl (c : CoreSt) : writeLanes v o b view c = (List.range 64).foldl (putLane v o b view) c := rfl

theorem reg_setReg (c : CoreSt) (k j : Nat) (r d : Fin 8) (x : W32) :
    (c.setReg k d x).reg j r = if j = k ∧ r = d then x else c.reg j r := by
  have hkey : (j * 8 + r.val = k * 8 + d.val) ↔ (j = k ∧ r = d) := by
    constructor
    · intro h
      exact ⟨by omega, Fin.ext (by omega)⟩
    · rintro ⟨rfl, rfl⟩
      rfl
  unfold CoreSt.reg CoreSt.setReg
  simp only [Tab.get_insert, hkey]

variable {v o b view}

/-- A register that the lane does not write. -/
theorem putLane_reg_keeps {k lane : Nat} {r : Fin 8} (h : k = b * 64 + lane → k < view.strands → ∀ d x,
    laneResult v view k lane o = some (d, x) → r ≠ d) (t : CoreSt) : (putLane v o b view t lane).reg k r = t.reg k r := by
  unfold putLane
  split
  · next hstrand =>
    split
    · next d x hres =>
      rw [reg_setReg]
      refine if_neg ?_
      rintro ⟨rfl, hrd⟩
      exact h rfl hstrand d x hres hrd
    · rfl
  · rfl

theorem putLane_reg_writes {lane : Nat} {d : Fin 8} {x : W32} (hstrand : b * 64 + lane < view.strands)
    (hres : laneResult v view (b * 64 + lane) lane o = some (d, x)) (t : CoreSt) :
    (putLane v o b view t lane).reg (b * 64 + lane) d = x := by
  unfold putLane
  rw [if_pos hstrand, hres]
  dsimp only
  rw [reg_setReg, if_pos ⟨rfl, rfl⟩]

theorem foldl_putLane_keeps {k : Nat} {r : Fin 8} : ∀ (lanes : List Nat) (t : CoreSt), (∀ lane ∈ lanes, k = b * 64 + lane →
    k < view.strands → ∀ d x, laneResult v view k lane o = some (d, x) → r ≠ d) →
    (lanes.foldl (putLane v o b view) t).reg k r = t.reg k r
  | [], _, _ => rfl
  | lane :: lanes, t, h => by
    rw [List.foldl_cons, foldl_putLane_keeps lanes _ (fun l hl => h l (List.mem_cons_of_mem _ hl)),
      putLane_reg_keeps (h lane List.mem_cons_self)]

/-- The value of a lane stands once its lane is written: no other lane writes its strand. -/
theorem foldl_putLane_writes {lane : Nat} {d : Fin 8} {x : W32} (hstrand : b * 64 + lane < view.strands)
    (hres : laneResult v view (b * 64 + lane) lane o = some (d, x)) : ∀ (lanes : List Nat) (t : CoreSt),
    (lane ∈ lanes ∨ t.reg (b * 64 + lane) d = x) → (lanes.foldl (putLane v o b view) t).reg (b * 64 + lane) d = x
  | [], _, h => h.resolve_left List.not_mem_nil
  | l :: lanes, t, h => by
    rw [List.foldl_cons]
    refine foldl_putLane_writes hstrand hres lanes _ ?_
    by_cases hl : l = lane
    · subst hl
      exact .inr (putLane_reg_writes hstrand hres t)
    · refine h.imp (fun hmem => (List.mem_cons.mp hmem).resolve_left (Ne.symm hl)) (fun hreg => ?_)
      rw [putLane_reg_keeps (fun hk => absurd (by omega) hl)]
      exact hreg

theorem writeLanes_reg_writes {lane : Nat} {d : Fin 8} {x : W32} (hlane : lane < 64) (hstrand : b * 64 + lane < view.strands)
    (hres : laneResult v view (b * 64 + lane) lane o = some (d, x)) (c : CoreSt) :
    (writeLanes v o b view c).reg (b * 64 + lane) d = x :=
  foldl_putLane_writes hstrand hres _ c (.inl (List.mem_range.mpr hlane))

theorem writeLanes_reg_keeps {k : Nat} {r : Fin 8} (h : ∀ lane < 64, k = b * 64 + lane → k < view.strands → ∀ d x,
    laneResult v view k lane o = some (d, x) → r ≠ d) (c : CoreSt) : (writeLanes v o b view c).reg k r = c.reg k r :=
  foldl_putLane_keeps _ c (fun lane hlane => h lane (List.mem_range.mp hlane))

theorem putLane_strand (t : CoreSt) (lane : Nat) : ∃ st, putLane v o b view t lane = { t with strand := st } := by
  unfold putLane
  split
  · split
    · exact ⟨_, rfl⟩
    · exact ⟨_, rfl⟩
  · exact ⟨_, rfl⟩

/-- Lanes write strand registers only. -/
theorem writeLanes_strand (c : CoreSt) : ∃ st, writeLanes v o b view c = { c with strand := st } := by
  rw [writeLanes_eq_foldl]
  generalize List.range 64 = lanes
  induction lanes generalizing c with
  | nil => exact ⟨_, rfl⟩
  | cons lane lanes ih =>
    obtain ⟨st, hput⟩ := putLane_strand (v := v) (o := o) (b := b) (view := view) c lane
    obtain ⟨st', hrest⟩ := ih (putLane v o b view c lane)
    exact ⟨st', by rw [List.foldl_cons, hrest, hput]⟩

end Lanes

/-! ### ABFT and accumulator events (R46, R72) -/

section Events

variable {s : State} {n : Nat} {u : UnitInst}

/-- The core after an event: its unit is flagged, and the first event of a unit counts (R72). -/
theorem abftEvent_core (hrun : (s.core n).run = some u) (cause bit : Nat) : ∃ v, v.abft = true ∧ cause ∈ v.causes ∧
    (abftEvent n cause bit s).core n = { s.core n with
      run := some v, abftEvents := if u.abft = true then (s.core n).abftEvents else sat32 ((s.core n).abftEvents + 1) } := by
  have hcause : cause ∈ (u.flag cause).causes := mem_foldl_addOnce (xs := [cause]) (.inr List.mem_cons_self)
  unfold abftEvent
  rw [hrun]
  dsimp only
  split
  · next habft =>
    refine ⟨u.flag cause, habft, hcause, ?_⟩
    simp [flagUnit, hrun]
  · split
    · refine ⟨_, ?_, ?_, by simp [flagUnit, hrun]; rfl⟩
      · rfl
      · exact hcause
    · refine ⟨{ u.flag cause with abft := true }, rfl, hcause, ?_⟩
      simp [flagUnit, hrun]

/-- An event touches no other core, and no memory; its bit stands. -/
theorem abftEvent_frame (hrun : (s.core n).run = some u) (cause bit : Nat) (hbit : bit < 32) :
    ((abftEvent n cause bit s).hdr (.core n)).errStat.getLsbD bit = true ∧ OtherCores n s (abftEvent n cause bit s) ∧
      SameMemory s (abftEvent n cause bit s) := by
  have hparts : (abftEvent n cause bit s).pages = (raiseAt (.core n) bit 0 (some (u.ctx, u.part)) s).pages ∧
      OtherCores n s (abftEvent n cause bit s) ∧ (abftEvent n cause bit s).dram = s.dram := by
    unfold abftEvent
    rw [hrun]
    dsimp only
    repeat' split
    all_goals exact ⟨rfl, fun m hm => by simp [flagUnit, State.core_modCore_ne _ _ hm], by simp [flagUnit]⟩
  obtain ⟨hpages, hothers, hdram⟩ := hparts
  refine ⟨?_, hothers, sameDram_of_eq hdram, fun m w => ?_⟩
  · rw [hdr_of_pages hpages]
    exact raiseAt_sets _ _ _ _ _ hbit
  · unfold State.spWord
    by_cases hm : m = n
    · obtain ⟨v, -, -, hcore⟩ := abftEvent_core hrun cause bit
      rw [hm, hcore]
    · rw [hothers m hm]

/-- With no injection armed the accumulator check answers to its parity alone (R46). -/
theorem accCheck_unarmed (h : (s.hdr (.core n)).inj = 0) (a : Nat) (ok : Bool) :
    accCheck n a ok s = if ok = true then s else abftEvent n Cause.accCheck Bit.coreAcc s := by
  unfold accCheck
  rw [takeInj_unarmed h]
  cases ok <;> simp

end Events

/-! ### An instruction that issues (R53, R58) -/

/-- Bundle `b` has issued on core `n`. -/
def issued (n b : Nat) (s : State) : State :=
  s.modCore n (fun c => { c with lastBundle := b, vecBusy := sat32 (c.vecBusy + 1) })

section Issue

variable {s : State} {n : CoreNum} {ready : List Nat} {o : VecOp} {b : Nat}

theorem issue_idle
    (h : s.unitRuns n.val = false ∨ pickBundle (s.core n.val).lastBundle (ready.filter (· < (s.core n.val).bundles)) = none)
    (ok : Bool) (u : Upset) (k : Nat) : issue n ready o ok u k s = s := by
  unfold issue
  rcases h with hidle | hnone
  · exact if_pos (by simp [hidle])
  · dsimp only
    rw [hnone]
    exact ite_self s

variable (hruns : s.unitRuns n.val = true)
  (hpick : pickBundle (s.core n.val).lastBundle (ready.filter (· < (s.core n.val).bundles)) = some b)
include hruns hpick

theorem issue_malformed (hmal : vecMalformed (vecUnit s n.val) o = true) (ok : Bool) (u : Upset) (k : Nat) :
    issue n ready o ok u k s = seqIllegal n (issued n.val b s) := by
  unfold issue
  simp only [hruns, hpick, hmal, Bool.not_true, Bool.false_eq_true, if_false, if_true]
  rfl

theorem issue_parityError (hmal : vecMalformed (vecUnit s n.val) o = false) (hstrand : readsStrand o = true) (u : Upset) (k : Nat) :
    issue n ready o false u k s = faultStop n Cause.strandFault Bit.coreStrand 0 true
      (raiseAt (.core n.val) Bit.coreStrand 0 (((s.core n.val).run).map (fun u => (u.ctx, u.part)))
        (takeInj (.core n.val) Bit.coreStrand (issued n.val b s)).2) := by
  unfold issue
  simp only [hruns, hpick, hmal, hstrand, Bool.not_true, Bool.not_false, Bool.false_eq_true, Bool.or_true, Bool.and_true, if_false,
    if_true]
  rfl

/-- Without an error its lanes are written, and then its effects follow; a poisoned word that it read flags the unit first. -/
theorem issue_runs (hmal : vecMalformed (vecUnit s n.val) o = false) (hinj : (s.hdr (.core n.val)).inj = 0) {ok : Bool}
    (hok : ok = true ∨ readsStrand o = false) : ∃ s3, (s3 = issued n.val b s ∨
      vecRanges (vecUnit s n.val) o ≠ [] ∧ s3 = flagUnit n.val Cause.memPoison (issued n.val b s)) ∧
      issue n ready o ok .clean 0 s = vecEffects n (vecUnit s n.val) o b ok (s.core n.val).drain
        (s3.modCore n.val (writeLanes (vecUnit s n.val) o b (s.core n.val).drain)) := by
  have hinj1 : ((issued n.val b s).hdr (.core n.val)).inj = 0 := hinj
  have hsound : (readsStrand o && !ok) = false := by
    rcases hok with rfl | hstrand
    · simp
    · simp [hstrand]
  have hissue : issue n ready o ok .clean 0 s =
      (if (readRanges n (vecRanges (vecUnit s n.val) o) .clean 0 (issued n.val b s)).1 = true then
        (readRanges n (vecRanges (vecUnit s n.val) o) .clean 0 (issued n.val b s)).2
      else vecEffects n (vecUnit s n.val) o b ok (s.core n.val).drain
        ((readRanges n (vecRanges (vecUnit s n.val) o) .clean 0 (issued n.val b s)).2.modCore n.val
          (writeLanes (vecUnit s n.val) o b (s.core n.val).drain))) := by
    have htake : takeInj (.core n.val) Bit.coreStrand (issued n.val b s) = (false, issued n.val b s) := takeInj_unarmed hinj1 _
    unfold issued at htake ⊢
    unfold issue
    simp only [hruns, hpick, hmal, htake, ite_self, hsound, Bool.not_true, Bool.false_or, Bool.false_eq_true, if_false]
  rw [hissue]
  by_cases hnil : vecRanges (vecUnit s n.val) o = []
  · refine ⟨_, .inl rfl, ?_⟩
    rw [hnil, readRanges_nil]
    exact if_neg (by simp)
  · rw [readRanges_clean hinj1]
    split
    · exact ⟨_, .inr ⟨hnil, rfl⟩, if_neg (by simp)⟩
    · exact ⟨_, .inl rfl, if_neg (by simp)⟩

end Issue

/-! ### The effects beside the lanes -/

section Effects

variable {s : State} {n : CoreNum} {v : VecUnit} {o : VecOp} {b : Nat} {view : CoreSt}

/-- An instruction that stores nothing has no effect beside its lanes. -/
theorem vecEffects_none (hinj : (s.hdr (.core n.val)).inj = 0) (hstore : ∀ a w, o ≠ .store a w)
    (hlanes : ∀ a f w, o ≠ .storeLanes a f w) (hupdate : ∀ a f w g, o ≠ .storeUpdate a f w g)
    (hcrop : ∀ a f x base words off, o ≠ .storeCrop a f x base words off) (hscale : ∀ d base len dst, o ≠ .rowScale d base len dst)
    (hscaleUpdate : ∀ d base len dst g, o ≠ .rowScaleUpdate d base len dst g) : vecEffects n v o b true view s = s := by
  unfold vecEffects
  dsimp only
  split
  · exact absurd rfl (hstore _ _)
  · exact absurd rfl (hlanes _ _ _)
  · exact absurd rfl (hupdate _ _ _ _)
  · exact absurd rfl (hcrop _ _ _ _ _ _)
  · exact absurd rfl (hscale _ _ _ _)
  · exact absurd rfl (hscaleUpdate _ _ _ _ _)
  · split
    · rfl
    · rw [accCheck_unarmed hinj, if_pos rfl]

/-- A store of lane 0 to a word that the unit may write. -/
theorem vecEffects_store {a : Fin 8} {w : Nat} {u : UnitInst} (hheld : v.held = false) (hrun : (s.core n.val).run = some u)
    (hclocks : s.pwr.stopped = false) (hmay : (s.core n.val).unitMayWrite w = true) (ok : Bool) :
    vecEffects n v (.store a w) b ok view s = s.modCore n.val (fun c => c.writeWord w (view.reg (b * 64) a)) := by
  have hwrite : unitWrite n w (view.reg (b * 64) a) s = s.modCore n.val (fun c => c.writeWord w (view.reg (b * 64) a)) := by
    unfold unitWrite
    rw [if_neg (by simp [hclocks, hrun]), if_pos hmay]
  rw [← hwrite]
  exact if_neg (by simp [hheld])

/-- A read of the accumulator reads no word of the scratchpad, and its check is its one effect (R46). -/
theorem vecEffects_readsAcc {a : Nat} (h : readsAcc o = some a) (ok : Bool) :
    vecRanges v o = [] ∧ vecEffects n v o b ok view s = accCheck n.val a ok s := by
  unfold readsAcc at h
  split at h
  · obtain rfl := Option.some.inj h
    exact ⟨rfl, rfl⟩
  · obtain rfl := Option.some.inj h
    exact ⟨rfl, rfl⟩
  · obtain rfl := Option.some.inj h
    exact ⟨rfl, rfl⟩
  · cases h

end Effects

/-! ### The outcomes of VECTOR_ISSUE -/

/-- Between `s` and `t` bundle `b` has issued on core `n`: its lanes are written, and at most the unit is flagged. -/
structure LanesWritten (v : VecUnit) (o : VecOp) (b : Nat) (view : CoreSt) (n : Nat) (s t : State) : Prop where
  writes : ∀ lane < 64, ∀ d x, b * 64 + lane < view.strands → laneResult v view (b * 64 + lane) lane o = some (d, x) →
    (t.core n).reg (b * 64 + lane) d = x
  keeps : ∀ (k : Nat) (r : Fin 8), (∀ lane < 64, k = b * 64 + lane → k < view.strands →
    ∀ d x, laneResult v view k lane o = some (d, x) → r ≠ d) → (t.core n).reg k r = (s.core n).reg k r
  lastBundle : (t.core n).lastBundle = b
  vecBusy : (t.core n).vecBusy = sat32 ((s.core n).vecBusy + 1)
  runs : ∀ u, (s.core n).run = some u → ∃ u', (t.core n).run = some u'
  sp : (t.core n).sp = (s.core n).sp
  mayWrite : ∀ w, (t.core n).unitMayWrite w = (s.core n).unitMayWrite w
  others : OtherCores n s t
  frame : t = { s with cores := t.cores }

section Outcomes

variable {s t : State} {n : CoreNum} {ready : List (Fin 128)} {o : VecOp} {b : Nat} {v : VecUnit} {c : CoreSt}

theorem LanesWritten.hdr (h : LanesWritten v o b c n.val s t) (x : Block) : t.hdr x = s.hdr x := by
  rw [h.frame]
  rfl

theorem LanesWritten.sameMemory (h : LanesWritten v o b c n.val s t) : SameMemory s t := by
  refine ⟨sameDram_of_eq ?_, fun m w => ?_⟩
  · rw [h.frame]
  · unfold State.spWord
    by_cases hm : m = n.val
    · rw [hm, h.sp]
    · rw [h.others m hm]

/-- Writing the lanes of a bundle that has issued, whether a poisoned word has flagged the unit or not. -/
theorem lanesWritten {s3 : State} (hs3 : s3 = issued n.val b s ∨ s3 = flagUnit n.val Cause.memPoison (issued n.val b s)) :
    LanesWritten v o b c n.val s (s3.modCore n.val (writeLanes v o b c)) := by
  have hcore : ∃ run, s3.core n.val = { s.core n.val with
      lastBundle := b, vecBusy := sat32 ((s.core n.val).vecBusy + 1), run := run } ∧
      ∀ u, (s.core n.val).run = some u → ∃ u', run = some u' := by
    rcases hs3 with rfl | rfl
    · exact ⟨(s.core n.val).run, by simp [issued], fun u hu => ⟨u, hu⟩⟩
    · exact ⟨(s.core n.val).run.map (·.flag Cause.memPoison), by simp [issued, flagUnit], fun u hu => ⟨_, by rw [hu]; rfl⟩⟩
  have hothers : OtherCores n.val s s3 := by
    intro m hm
    rcases hs3 with rfl | rfl <;> simp [issued, flagUnit, State.core_modCore_ne _ _ hm]
  have hframe : s3.modCore n.val (writeLanes v o b c) = { s with cores := (s3.modCore n.val (writeLanes v o b c)).cores } := by
    rcases hs3 with rfl | rfl <;> rfl
  obtain ⟨run, hissued, hruns⟩ := hcore
  obtain ⟨st, hstrand⟩ := writeLanes_strand (v := v) (o := o) (b := b) (view := c) (s3.core n.val)
  have hwritten : (s3.modCore n.val (writeLanes v o b c)).core n.val = { s3.core n.val with strand := st } := by
    rw [State.core_modCore_self, hstrand]
  have hregs : ∀ k r, ((s3.modCore n.val (writeLanes v o b c)).core n.val).reg k r =
      (writeLanes v o b c (s3.core n.val)).reg k r := fun k r => by rw [State.core_modCore_self]
  refine ⟨fun lane hlane d x hstrands hres => ?_, fun k r hk => ?_, ?_, ?_, fun u hu => ?_, ?_, fun w => ?_, fun m hm => ?_, hframe⟩
  · rw [hregs, writeLanes_reg_writes hlane hstrands hres]
  · rw [hregs, writeLanes_reg_keeps hk, hissued]
    rfl
  · rw [hwritten, hissued]
  · rw [hwritten, hissued]
  · rw [hwritten, hissued]
    exact hruns u hu
  · rw [hwritten, hissued]
  · rw [hwritten, hissued]
    rfl
  · rw [State.core_modCore_ne _ _ hm, hothers m hm]

variable (hv : vecUnit s n.val = v) (hc : (s.core n.val).drain = c) (hruns : s.unitRuns n.val = true)
  (hpick : pickBundle (s.core n.val).lastBundle ((ready.map (·.val)).filter (· < (s.core n.val).bundles)) = some b)
include hv hc hruns hpick

/-- An instruction without an error comes to its effects on a state in which its lanes are written. -/
theorem issue_lanesWritten (hmal : vecMalformed v o = false) (hinj : (s.hdr (.core n)).inj = 0) {ok : Bool}
    (hok : ok = true ∨ readsStrand o = false) : ∃ t, LanesWritten v o b c n.val s t ∧
      exec (.vectorIssue n ready o { parityOk := ok }) s = .next (vecEffects n v o b ok c t) := by
  obtain ⟨s3, hs3, hrun⟩ := issue_runs hruns hpick (hv ▸ hmal) hinj hok
  rw [hv, hc] at hrun
  exact ⟨_, lanesWritten (hs3.imp_right (·.2)), congrArg Host.Outcome.next hrun⟩

theorem vectorIssue_lanes (hmal : vecMalformed v o = false) (hinj : (s.hdr (.core n)).inj = 0) (hstore : ∀ a w, o ≠ .store a w)
    (hlanes : ∀ a f w, o ≠ .storeLanes a f w) (hupdate : ∀ a f w g, o ≠ .storeUpdate a f w g)
    (hcrop : ∀ a f x base words off, o ≠ .storeCrop a f x base words off) (hscale : ∀ d base len dst, o ≠ .rowScale d base len dst)
    (hscaleUpdate : ∀ d base len dst g, o ≠ .rowScaleUpdate d base len dst g) :
    Completes (.vectorIssue n ready o { parityOk := true }) s (fun t =>
      (∀ lane < 64, ∀ d x, b * 64 + lane < c.strands → laneResult v c (b * 64 + lane) lane o = some (d, x) →
        (t.core n.val).reg (b * 64 + lane) d = x) ∧
      (∀ (k : Nat) (r : Fin 8), (∀ lane < 64, k = b * 64 + lane → k < c.strands →
          ∀ d x, laneResult v c k lane o = some (d, x) → r ≠ d) →
        (t.core n.val).reg k r = (s.core n.val).reg k r) ∧
      (t.core n.val).lastBundle = b ∧ (t.core n.val).vecBusy = sat32 ((s.core n.val).vecBusy + 1) ∧
      OtherCores n.val s t ∧ SameScratchpads s t ∧ t = { s with cores := t.cores }) := by
  obtain ⟨t, ht, hrun⟩ := issue_lanesWritten hv hc hruns hpick hmal hinj (.inl rfl)
  rw [vecEffects_none (by rw [ht.hdr]; exact hinj) hstore hlanes hupdate hcrop hscale hscaleUpdate] at hrun
  exact ⟨t, hrun, ht.writes, ht.keeps, ht.lastBundle, ht.vecBusy, ht.others, ht.sameMemory.2, ht.frame⟩

theorem vectorIssue_store {a : Fin 8} {w : Nat} (ho : o = .store a w) (hmal : vecMalformed v o = false)
    (hinj : (s.hdr (.core n)).inj = 0) (hheld : v.held = false) (hmay : (s.core n.val).unitMayWrite w = true) :
    Completes (.vectorIssue n ready o { parityOk := true }) s (fun t => t.spWord n.val w = c.reg (b * 64) a ∧
      (∀ k, k ≠ w → t.spWord n.val k = s.spWord n.val k) ∧ OtherCores n.val s t ∧ t = { s with cores := t.cores }) := by
  subst ho
  obtain ⟨⟨u, hrunning⟩, hclocks⟩ := run_of_unitRuns hruns
  obtain ⟨t, ht, hrun⟩ := issue_lanesWritten hv hc hruns hpick hmal hinj (.inl rfl)
  obtain ⟨u', hrunning'⟩ := ht.runs u hrunning
  have hclocks' : t.pwr.stopped = false := by
    rw [ht.frame]
    exact hclocks
  rw [vecEffects_store hheld hrunning' hclocks' ((ht.mayWrite w).trans hmay)] at hrun
  have hword : ∀ k, (t.modCore n.val (fun x => x.writeWord w (c.reg (b * 64) a))).spWord n.val k =
      if k = w then c.reg (b * 64) a else s.spWord n.val k := by
    intro k
    unfold State.spWord
    rw [State.core_modCore_self, spWord_writeWord, ht.sp]
  refine ⟨_, hrun, ?_, fun k hk => ?_, fun m hm => ?_, ?_⟩
  · rw [hword, if_pos rfl]
  · rw [hword, if_neg hk]
  · rw [State.core_modCore_ne _ _ hm, ht.others m hm]
  · rw [ht.frame]
    rfl

theorem vectorIssue_accEvent {a : Nat} (hmal : vecMalformed v o = false) (hinj : (s.hdr (.core n)).inj = 0)
    (hstrand : readsStrand o = false) (hacc : readsAcc o = some a) :
    Completes (.vectorIssue n ready o { parityOk := false }) s (fun t =>
      (∃ u, (t.core n.val).run = some u ∧ Cause.accCheck ∈ u.causes) ∧
      (t.hdr (.core n)).errStat.getLsbD Bit.coreAcc = true ∧ OtherCores n.val s t ∧ SameMemory s t) := by
  obtain ⟨⟨u, hrunning⟩, -⟩ := run_of_unitRuns hruns
  obtain ⟨t, ht, hrun⟩ := issue_lanesWritten hv hc hruns hpick hmal hinj (.inr hstrand)
  obtain ⟨u', hrunning'⟩ := ht.runs u hrunning
  rw [(vecEffects_readsAcc hacc false).2, accCheck_unarmed (by rw [ht.hdr]; exact hinj), if_neg (by simp)] at hrun
  obtain ⟨w, -, hcause, hevent⟩ := abftEvent_core hrunning' Cause.accCheck Bit.coreAcc
  obtain ⟨hbit, hothers, hdram, hwords⟩ := abftEvent_frame hrunning' Cause.accCheck Bit.coreAcc (by decide)
  exact ⟨_, hrun, ⟨w, congrArg CoreSt.run hevent, hcause⟩, hbit, fun m hm => (hothers m hm).trans (ht.others m hm),
    fun x => (hdram x).trans (ht.sameMemory.1 x), fun m x => (hwords m x).trans (ht.sameMemory.2 m x)⟩

omit hc

theorem vectorIssue_strandFault (hmal : vecMalformed v o = false) (hstrand : readsStrand o = true) (up : Upset) (k : Nat) :
    Completes (.vectorIssue n ready o ⟨false, up, k⟩) s (fun t =>
      (t.core n.val).run = none ∧ (t.core n.val).seq = .faulted ∧ (t.core n.val).faultCause = Cause.strandFault ∧
      (t.hdr (.core n)).errStat.getLsbD Bit.coreStrand = true ∧ SameMemory s t) := by
  obtain ⟨⟨u, hrunning⟩, -⟩ := run_of_unitRuns hruns
  have hrun := issue_parityError hruns hpick (hv ▸ hmal) hstrand up k
  have hkept := (modCore_keepsWords n.val s).trans (takeInj_keepsWords (.core n.val) Bit.coreStrand (issued n.val b s))
  have hcore : ((takeInj (.core n.val) Bit.coreStrand (issued n.val b s)).2.core n.val).run = some u := by
    rw [core_of_cores (s := issued n.val b s) (by simp)]
    simpa [issued] using hrunning
  have hdram : (takeInj (.core n.val) Bit.coreStrand (issued n.val b s)).2.dram = s.dram := by simp [issued]
  generalize (takeInj (.core n.val) Bit.coreStrand (issued n.val b s)).2 = s2 at hrun hkept hcore hdram
  generalize ((s.core n.val).run).map (fun u => (u.ctx, u.part)) = who at hrun
  have hraised : ((raiseAt (.core n.val) Bit.coreStrand 0 who s2).core n.val).run = some u := by
    rw [core_raiseAt]
    exact hcore
  obtain ⟨hnone, hfaulted, hcause, hstop⟩ := faultStop_effect hraised Cause.strandFault Bit.coreStrand 0 true
  refine ⟨_, congrArg Host.Outcome.next hrun, hnone, hfaulted, hcause, hstop.errStat _ _ (raiseAt_sets _ _ _ _ _ (by decide)), ?_⟩
  refine (hkept.trans ((raiseAt_keepsWords _ _ _ _ _).trans hstop)).sameMemory ?_
  exact (faultStop_steady _ _ _ _ _ _).dram.trans (by simp [hdram])

theorem vectorIssue_malformed (hmal : vecMalformed v o = true) (checks : ReadChecks) :
    Completes (.vectorIssue n ready o checks) s (fun t => (t.core n.val).run = none ∧ (t.core n.val).seq = .faulted ∧
      (t.hdr (.core n)).errStat.getLsbD Bit.coreIllegal = true ∧ SameMemory s t) := by
  obtain ⟨⟨u, hrunning⟩, -⟩ := run_of_unitRuns hruns
  have hrunning' : ((issued n.val b s).core n.val).run = some u := by simpa [issued] using hrunning
  have hissued : SameScratchpads s (issued n.val b s) := (modCore_keepsWords n.val s).scratchpads
  obtain ⟨hnone, hfaulted, hbit, hdram, hwords⟩ := seqIllegal_effect hrunning'
  exact ⟨_, congrArg Host.Outcome.next (issue_malformed hruns hpick (hv ▸ hmal) _ _ _), hnone, hfaulted, hbit, hdram,
    fun m w => (hwords m w).trans (hissued m w)⟩

end Outcomes

/-- Settles O48: an instruction that issues writes its lanes, and then has the effects of its kind; an error stops or flags the
unit. -/
theorem vectorIssueWritesItsBundle : Obligations.VectorIssueWritesItsBundle := by
  unfold Obligations.VectorIssueWritesItsBundle
  intro s n ready o v c hv hc
  refine ⟨fun b hruns hpick => ⟨fun hmal hinj => ⟨?_, ?_, ?_⟩, ?_, ?_⟩, fun hidle checks => ?_⟩
  · exact vectorIssue_lanes hv hc hruns hpick hmal hinj
  · exact fun a w ho => vectorIssue_store hv hc hruns hpick ho hmal hinj
  · exact fun a => vectorIssue_accEvent hv hc hruns hpick hmal hinj
  · exact vectorIssue_strandFault hv hruns hpick
  · exact vectorIssue_malformed hv hruns hpick
  · exact ⟨s, congrArg Host.Outcome.next (issue_idle hidle _ _ _), rfl⟩

end Sys2Proof.Machine

/-! The supervision of a core (R62, R63, R137, R381, R382): overruns, hangs, drains, waits on a window, and a FAULTED core. -/

namespace Sys2Proof.Machine

open Sys2Proof

/-! ### Overruns (R62, R311) -/

section Overrun

variable {s : State} {n : CoreNum} {u : UnitInst}

/-- The overrun is marked, raised and reported. -/
def overran (n : Nat) (u : UnitInst) (s : State) : State :=
  report (unitEv n u Cause.unitOverrun Bit.coreOverrun) (raiseAt (.core n) Bit.coreOverrun 0 (some (u.ctx, u.part))
    (s.modCore n (fun c => { c with run := c.run.map (fun u => { u with overrun := true }) })))

theorem overrunUnit_late (hrun : (s.core n.val).run = some u) (hover : u.overrun = false) (hlate : u.startAt + u.wcet < s.clock) :
    overrunUnit n.val s = match s.stream? u.stream with
      | none => overran n.val u s
      | some st =>
        if !isSafety st.cls then overran n.val u s
        else
          let s3 := sendInval { target := .stream u.stream, scope := .item u.seq, cause := Cause.unitOverrun } (overran n.val u s)
          if st.cls = .triplex then markOutvoted u.stream u.seq u.copy Cause.unitOverrun s3 else s3 := by
  unfold overrunUnit
  rw [hrun]
  exact if_neg (by simp [hover, hlate])

theorem overrunUnit_inTime (h : ∀ u, (s.core n.val).run = some u → u.overrun = true ∨ s.clock ≤ u.startAt + u.wcet) :
    overrunUnit n.val s = s := by
  unfold overrunUnit
  split
  · rfl
  · next u hrun => exact if_pos (by simpa using h u hrun)

/-- A copy that is outvoted has its units flagged: beside that no core changes, no register page and nothing that goes to SAFE. -/
theorem markOutvoted_effect (id copy seq cause : Nat) (t : State) :
    (∀ m, ∃ ws cs, (markOutvoted id copy seq cause t).core m = (t.core m).reflag ws cs) ∧
      (markOutvoted id copy seq cause t).pages = t.pages ∧ (markOutvoted id copy seq cause t).safe = t.safe ∧
      SameMemory t (markOutvoted id copy seq cause t) := by
  refine ⟨?_, forEach_keeps (·.pages) _ _ (fun _ _ => by exact rfl) _, forEach_keeps (·.safe) _ _ (fun _ _ => by exact rfl) _,
    (markOutvoted_onlyFlags id copy seq cause t).mem⟩
  unfold markOutvoted
  exact (Returned.forEach _ (fun k x => flagUnit_returned k cause x) _).core

/-- What an overrun leaves, whatever its stream. -/
structure Overrun (n : CoreNum) (u : UnitInst) (s t : State) : Prop where
  marked : ∃ v, (t.core n.val).run = some v ∧ v.overrun = true ∧ v.order = u.order
  raised : (t.hdr (.core n.val)).errStat.getLsbD Bit.coreOverrun = true
  told : ∃ e, t.safe.inbox = s.safe.inbox ++ [e] ∧ e.unit = n.val ∧ e.cause = Cause.unitOverrun ∧ e.seq = u.seq
  mem : SameMemory s t

theorem core_overran (hrun : (s.core n.val).run = some u) :
    (overran n.val u s).core n.val = { s.core n.val with run := some { u with overrun := true } } ∧
      OtherCores n.val s (overran n.val u s) := by
  constructor
  · simp [overran, hrun]
  · intro m hm
    simp [overran, State.core_modCore_ne _ _ hm]

theorem overran_overrun (hrun : (s.core n.val).run = some u) : Overrun n u s (overran n.val u s) where
  marked := ⟨_, congrArg CoreSt.run (core_overran hrun).1, rfl, rfl⟩
  raised := raiseAt_sets _ _ _ _ _ (by decide)
  told := ⟨{ unitEv n.val u Cause.unitOverrun Bit.coreOverrun with time := s.tal.time },
    by simp [overran, report, reportAt], rfl, rfl, rfl⟩
  mem := ((modCore_keepsWords n.val s).trans ((raiseAt_keepsWords _ _ _ _ _).trans (report_keepsWords _ _))).sameMemory
    (by simp)

theorem Overrun.sendInval {t : State} (h : Overrun n u s t) (i : Inval) : Overrun n u s (sendInval i t) where
  marked := h.marked
  raised := h.raised
  told := h.told
  mem := h.mem

theorem Overrun.markOutvoted {t : State} (h : Overrun n u s t) (id copy seq cause : Nat) :
    Overrun n u s (markOutvoted id copy seq cause t) := by
  obtain ⟨hcore, hpages, hsafe, hdram, hwords⟩ := markOutvoted_effect id copy seq cause t
  obtain ⟨v, hv, hover, horder⟩ := h.marked
  obtain ⟨ws, cs, hflagged⟩ := hcore n.val
  refine ⟨⟨{ v with causes := cs }, ?_, hover, horder⟩, ?_, ?_, fun a => (hdram a).trans (h.mem.1 a),
    fun m w => (hwords m w).trans (h.mem.2 m w)⟩
  · rw [hflagged]
    unfold CoreSt.reflag
    rw [hv]
    rfl
  · rw [hdr_of_pages hpages]
    exact h.raised
  · rw [hsafe]
    exact h.told

theorem unitOverrun_completes (hrun : (s.core n.val).run = some u) (hover : u.overrun = false)
    (hlate : u.startAt + u.wcet < s.clock) : Completes (.unitOverrun n) s (fun t =>
      (∃ v, (t.core n.val).run = some v ∧ v.overrun = true ∧ v.order = u.order) ∧
      ((∀ st, s.stream? u.stream = some st → st.cls ≠ .triplex) →
        t.core n.val = { s.core n.val with run := some { u with overrun := true } } ∧ OtherCores n.val s t) ∧
      (t.hdr (.core n.val)).errStat.getLsbD Bit.coreOverrun = true ∧
      (∃ e, t.safe.inbox = s.safe.inbox ++ [e] ∧ e.unit = n.val ∧ e.cause = Cause.unitOverrun ∧ e.seq = u.seq) ∧
      (∀ st, s.stream? u.stream = some st → isSafety st.cls = true → t.safe.invOut = s.safe.invOut ++
        [{ target := .stream u.stream, scope := .item u.seq, cause := Cause.unitOverrun }]) ∧
      SameMemory s t) := by
  have hover := overran_overrun hrun
  have hcore := core_overran hrun
  have hinvOut : (overran n.val u s).safe.invOut = s.safe.invOut := by simp [overran, report, reportAt]
  refine ⟨_, congrArg Host.Outcome.next (overrunUnit_late hrun ‹_› hlate), ?_⟩
  cases hst : s.stream? u.stream with
  | none => exact ⟨hover.marked, fun _ => hcore, hover.raised, hover.told, fun st h => (by cases h), hover.mem⟩
  | some st =>
    dsimp only
    split
    · next hclass =>
      refine ⟨hover.marked, fun _ => hcore, hover.raised, hover.told, fun st' h hsafe => ?_, hover.mem⟩
      obtain rfl := Option.some.inj h
      simp [hsafe] at hclass
    · have hsent := hover.sendInval { target := .stream u.stream, scope := .item u.seq, cause := Cause.unitOverrun }
      split
      · next htriplex =>
        have hvoted := hsent.markOutvoted u.stream u.seq u.copy Cause.unitOverrun
        obtain ⟨-, -, hsafe, -⟩ := markOutvoted_effect u.stream u.seq u.copy Cause.unitOverrun
          (sendInval { target := .stream u.stream, scope := .item u.seq, cause := Cause.unitOverrun } (overran n.val u s))
        refine ⟨hvoted.marked, fun h => absurd htriplex (h st rfl), hvoted.raised, hvoted.told, fun _ _ _ => ?_, hvoted.mem⟩
        rw [hsafe, ← hinvOut]
        rfl
      · refine ⟨hsent.marked, fun _ => hcore, hsent.raised, hsent.told, fun _ _ _ => ?_, hsent.mem⟩
        rw [← hinvOut]
        rfl

end Overrun

/-! ### Hangs, drains and waits (R63, R137, R381) -/

section Waits

variable {s : State} {n : CoreNum}

theorem hangStop_completes {u : UnitInst} (hwait : NoneWaits s) (hrun : (s.core n.val).run = some u) (hhung : isHung s n.val u = true) :
    Completes (.hangStop n) s (fun t => (t.core n.val).run = none ∧ (t.core n.val).seq = .faulted ∧
      (t.core n.val).faultCause = Cause.faultStop ∧ (t.hdr .dbg).errStat.getLsbD Bit.dbgHang = true ∧ SameMemory s t) := by
  have hstop : ∃ reason, hangStop n s = raise .dbg Bit.dbgHang (faultStop n Cause.faultStop 0xFF reason false s) := by
    unfold hangStop
    rw [hrun]
    exact ⟨_, if_pos hhung⟩
  obtain ⟨reason, hhang⟩ := hstop
  have hsteady := faultStop_steady n Cause.faultStop 0xFF reason false s
  obtain ⟨hnone, hfaulted, hcause, hkeeps⟩ := faultStop_effect hrun Cause.faultStop 0xFF reason false
  have hsettle : settle (hangStop n s) = hangStop n s := by
    rw [hhang]
    exact settle_none (by simpa using hsteady.waiting hwait.1) (by simpa using hsteady.fences hwait.2)
  refine ⟨_, congrArg Host.Outcome.next (hsettle.trans hhang), ?_, ?_, ?_, raise_sets _ _ _ (by decide),
    (hkeeps.trans (raise_keepsWords _ _ _)).sameMemory (by simp [hsteady.dram])⟩
  · rw [core_raise, hnone]
  · rw [core_raise, hfaulted]
  · rw [core_raise, hcause]

theorem drainRequest_completes : Completes (.drainRequest n) s (fun t =>
    t.core n.val = { s.core n.val with
      drainReq := true, seq := if (s.core n.val).seq = .run then .drain else (s.core n.val).seq } ∧
    OtherCores n.val s t ∧ t = { s with cores := t.cores }) :=
  ⟨drain n.val s, rfl, State.core_modCore_self _ _ _, fun _ hm => State.core_modCore_ne _ _ hm, rfl⟩

theorem windowWaitEnd_reached {w c : Nat} (hwait : s.waitOf n.val = some (.window w c)) (h : c ≤ ((s.core n.val).window w).arrived) :
    Completes (.windowWaitEnd n) s (fun t => (∀ x ∈ t.qmg.waiters, ¬ (x.core = n.val ∧ x.on = .window w c)) ∧
      t.core n.val = (if (s.core n.val).seq = .wait then { s.core n.val with seq := (s.core n.val).afterWait } else s.core n.val) ∧
      OtherCores n.val s t ∧ t = { s with cores := t.cores, qmg := t.qmg }) := by
  have hrun : windowReached n.val s = endWait n.val (.window w c) s := by
    unfold windowReached
    rw [hwait]
    exact if_pos h
  refine ⟨_, congrArg Host.Outcome.next hrun, fun x hx => ?_, State.core_modCore_self _ _ _, fun m hm => State.core_modCore_ne _ _ hm,
    rfl⟩
  simpa [imp_iff_not_or] using (List.mem_filter.mp hx).2

theorem windowWaitEnd_short {w c : Nat} (hwait : s.waitOf n.val = some (.window w c)) (h : ((s.core n.val).window w).arrived < c) :
    Completes (.windowWaitEnd n) s (fun t => t = s) := by
  have hrun : windowReached n.val s = s := by
    unfold windowReached
    rw [hwait]
    exact if_neg (by omega)
  exact ⟨s, congrArg Host.Outcome.next hrun, rfl⟩

end Waits

/-! ### A FAULTED core (R382) -/

section Faulted

variable {s : State} {n : CoreNum}

/-- The oldest delivered item leaves its core, and its inputs go back. -/
def itemDone (n : Nat) (u : UnitInst) (rest : List UnitInst) (s : State) : State :=
  forEach u.inputs (fun h s => giveBack .firmware h s) (s.modCore n (fun c => { c with ready := rest }))

theorem itemDone_effect (u : UnitInst) (rest : List UnitInst) (hfaulted : (s.core n.val).seq = .faulted) :
    ((itemDone n.val u rest s).core n.val).ready = rest ∧ ((itemDone n.val u rest s).core n.val).seq = .faulted ∧
      SameMemory s (itemDone n.val u rest s) ∧ (itemDone n.val u rest s).streams = s.streams ∧
      (itemDone n.val u rest s).ctl = s.ctl := by
  have hback := giveBacks_firmware_returned u.inputs (s.modCore n.val (fun c => { c with ready := rest }))
  obtain ⟨ws, cs, hcore⟩ := hback.core n.val
  rw [State.core_modCore_self] at hcore
  unfold itemDone
  refine ⟨?_, ?_, ((modCore_keepsWords n.val s).trans hback.keeps).sameMemory hback.dram, hback.streams, hback.ctl⟩
  · rw [hcore]
    rfl
  · rw [hcore]
    exact hfaulted

theorem faultedItem_eq {u : UnitInst} {rest : List UnitInst} (hfaulted : (s.core n.val).seq = .faulted)
    (hready : (s.core n.val).ready = u :: rest) (h : u.record = true ∨ s.stream? u.stream = none) : faultedItem n s =
      if (s.stream? u.stream).isNone then itemDone n.val u rest s
      else stopRecord (u.flag Cause.faultStop) Cause.faultStop (itemDone n.val u rest s) := by
  unfold faultedItem
  rw [hready]
  dsimp only
  rw [if_neg (by simp [hfaulted])]
  cases hst : s.stream? u.stream with
  | none => rfl
  | some st =>
    have hrecord : u.record = true := h.resolve_right (by simp [hst])
    dsimp only
    rw [if_pos hrecord]
    rfl

theorem faultedItem_completes {u : UnitInst} {rest : List UnitInst} (hwait : NoneWaits s) (hfaulted : (s.core n.val).seq = .faulted)
    (hready : (s.core n.val).ready = u :: rest) (h : u.record = true ∨ s.stream? u.stream = none) :
    Completes (.faultedItem n) s (fun t => (t.core n.val).ready = rest ∧ (t.core n.val).seq = .faulted ∧ SameMemory s t ∧
      (∀ st it, s.stream? u.stream = some st → u.last = true → st.cls ≠ .triplex → st.item? u.seq = some it →
        ∃ st' r, t.stream? u.stream = some st' ∧ st'.item? u.seq = none ∧ r ∈ st'.formed ∧ r.seq = u.seq)) := by
  have hrun := faultedItem_eq hfaulted hready h
  obtain ⟨hrest, hseq, hmem, hstreams, hctl⟩ := itemDone_effect u rest hfaulted
  generalize itemDone n.val u rest s = s1 at hrun hrest hseq hmem hstreams hctl
  have hsteady := stopRecord_steady (u.flag Cause.faultStop) Cause.faultStop s1
  have hwait1 : NoneWaits s1 := by
    unfold NoneWaits
    rw [hctl]
    exact hwait
  cases hst : s.stream? u.stream with
  | none =>
    rw [hst] at hrun
    refine ⟨s1, ?_, hrest, hseq, hmem, fun st it hsome => by cases hsome⟩
    rw [← settle_none hwait1.1 hwait1.2]
    exact congrArg (fun t => Host.Outcome.next (settle t)) hrun
  | some st =>
    rw [hst] at hrun
    obtain ⟨hcores, hpages⟩ := stopRecord_coresPages (u.flag Cause.faultStop) Cause.faultStop s1
    refine ⟨stopRecord (u.flag Cause.faultStop) Cause.faultStop s1, ?_, ?_, ?_, ?_, fun st' it hst' hlast hcls hit => ?_⟩
    · rw [← settle_none (hsteady.waiting hwait1.1) (hsteady.fences hwait1.2)]
      exact congrArg (fun t => Host.Outcome.next (settle t)) hrun
    · rw [core_of_cores hcores, hrest]
    · rw [core_of_cores hcores, hseq]
    · have hkept := (KeepsWords.of_eq hcores hpages).sameMemory hsteady.dram
      exact ⟨fun a => (hkept.1 a).trans (hmem.1 a), fun m w => (hkept.2 m w).trans (hmem.2 m w)⟩
    · obtain rfl := Option.some.inj hst'
      have hst1 : s1.stream? u.stream = some st := by
        unfold State.stream?
        rw [hstreams]
        exact hst
      have hrecord : u.record = true := h.resolve_right (by simp [hst])
      have hformed : stopRecord (u.flag Cause.faultStop) Cause.faultStop s1 = qmgRecord u.stream u.seq Cause.faultStop s1 :=
        if_pos (by simp [UnitInst.flag, hrecord, hlast, hst1, hcls])
      rw [hformed]
      obtain ⟨x, r, hx, hr, hnone, hseq', -⟩ := qmgRecord_effect hst1 hit Cause.faultStop
      exact ⟨x, r, hx, hnone, hr, hseq'⟩

theorem seq_loadRegion (c : CoreSt) (r : Region) : (c.loadRegion r).seq = c.seq :=
  List.foldlRecOn (motive := fun k : CoreSt => k.seq = c.seq) _ _ rfl (fun _ hk _ _ => hk)

theorem seq_reloadResident (c : CoreSt) : c.reloadResident.seq = c.seq :=
  List.foldlRecOn (motive := fun k : CoreSt => k.seq = c.seq) _ _ rfl (fun k hk r _ => (seq_loadRegion k r).trans hk)

/-- The memory of a core that is recovered: the working region is discarded, the resident one read anew where that is due. -/
def CoreSt.restored (c : CoreSt) : CoreSt := if c.wantsReload then c.dropWorking.reloadResident else c.dropWorking

theorem seq_restored (c : CoreSt) : c.restored.seq = c.seq := by
  unfold CoreSt.restored
  split
  · exact seq_reloadResident _
  · rfl

theorem recoverCore_passes (hfaulted : (s.core n.val).seq = .faulted) : recoverCore n.val true s =
    (s.modCore n.val CoreSt.restored).modCore n.val (fun c =>
      { c.emptyRings with seq := .idle, faultCause := 0, ringFlag := deepestRing s n.val, ringUntil := 0 }) :=
  if_neg (not_not_intro hfaulted)

theorem recoverCore_fails (hfaulted : (s.core n.val).seq = .faulted) : recoverCore n.val false s =
    report { unit := n.val, cause := Config.freeNat s.free % 256, permanent := true }
      { s.modCore n.val CoreSt.restored with free := s.free + 1 } :=
  if_neg (not_not_intro hfaulted)

theorem coreRecovery_passes (hfaulted : (s.core n.val).seq = .faulted) : Completes (.coreRecovery n true) s (fun t =>
    (t.core n.val).seq = .idle ∧ (t.core n.val).faultCause = 0 ∧ OtherCores n.val s t ∧ SameDram s t) := by
  refine ⟨_, congrArg Host.Outcome.next (recoverCore_passes hfaulted), ?_, ?_, fun m hm => ?_, sameDram_of_eq rfl⟩
  · rw [State.core_modCore_self]
  · rw [State.core_modCore_self]
  · rw [State.core_modCore_ne _ _ hm, State.core_modCore_ne _ _ hm]

theorem coreRecovery_fails (hfaulted : (s.core n.val).seq = .faulted) : Completes (.coreRecovery n false) s (fun t =>
    (t.core n.val).seq = .faulted ∧ OtherCores n.val s t ∧ SameDram s t ∧
      ∃ e, t.safe.inbox = s.safe.inbox ++ [e] ∧ e.unit = n.val ∧ e.permanent = true) := by
  have hcore : ∀ m, (recoverCore n.val false s).core m = (s.modCore n.val CoreSt.restored).core m := fun m => by
    rw [recoverCore_fails hfaulted]
    rfl
  refine ⟨_, rfl, ?_, fun m hm => ?_, ?_, ?_⟩
  · rw [hcore, State.core_modCore_self, seq_restored, hfaulted]
  · rw [hcore, State.core_modCore_ne _ _ hm]
  · rw [recoverCore_fails hfaulted]
    exact sameDram_of_eq rfl
  · rw [recoverCore_fails hfaulted]
    exact ⟨_, rfl, rfl, rfl⟩

end Faulted

/-- Settles O49: an overrun or a hang raises its bit and leaves memory alone, a wait ends with its count, and a FAULTED core gives up
its items and returns with a slice that passes. -/
theorem coreSupervisionComplete : Obligations.CoreSupervisionComplete := by
  unfold Obligations.CoreSupervisionComplete
  intro s n
  exact ⟨fun u => unitOverrun_completes, fun h => ⟨s, congrArg Host.Outcome.next (overrunUnit_inTime h), rfl⟩,
    fun u => hangStop_completes, drainRequest_completes,
    fun w c hwait => ⟨windowWaitEnd_reached hwait, windowWaitEnd_short hwait⟩, fun u rest => faultedItem_completes,
    fun hfaulted => ⟨coreRecovery_passes hfaulted, coreRecovery_fails hfaulted⟩⟩

end Sys2Proof.Machine

/-! WEIGHT_SET_LOAD and ARRAY_ROW_VERDICT (R35, R36, R43, R50, R95, R130, R140): what a load puts into the sets, what its reads meet, and
what a row leaves at the foot of its array. -/

namespace Sys2Proof.Machine

open Sys2Proof

theorem putWord_eq (c : CoreSt) (w : Nat) (v : W32) (poisoned : Bool) :
    ∃ sp poison, c.putWord w v poisoned = { c with sp := sp, spPoison := poison } := by
  cases poisoned
  · exact ⟨_, _, rfl⟩
  · exact ⟨_, _, rfl⟩

/-- The write buffer drains into the scratchpad: nothing else of a core changes. -/
theorem drain_eq (c : CoreSt) : ∃ sp poison, c.drain = { c with sp := sp, spPoison := poison, wbuf := [] } := by
  obtain ⟨sp, poison, hfold⟩ : ∃ sp poison,
      c.wbuf.foldl (fun c e => c.putWord e.1 e.2.1 e.2.2) c = { c with sp := sp, spPoison := poison } := by
    refine List.foldlRecOn (motive := fun k : CoreSt => ∃ sp poison, k = { c with sp := sp, spPoison := poison }) _ _
      ⟨c.sp, c.spPoison, rfl⟩ (fun k hk e _ => ?_)
    obtain ⟨sp, poison, rfl⟩ := hk
    obtain ⟨sp', poison', hput⟩ := putWord_eq { c with sp := sp, spPoison := poison } e.1 e.2.1 e.2.2
    exact ⟨sp', poison', hput⟩
  exact ⟨sp, poison, by unfold CoreSt.drain; rw [hfold]⟩

/-- A clean read, with no injection armed, changes no more than the flags of the unit, and those only where a word is poisoned. -/
theorem readRanges_clean_effect {s : State} {n : CoreNum} (h : (s.hdr (.core n.val)).inj = 0) (rs : List (Nat × Nat)) (k : Nat) :
    (readRanges n rs .clean k s).1 = false ∧ (∃ run, (readRanges n rs .clean k s).2.core n.val = { s.core n.val with run := run } ∧
      ((s.core n.val).drain.spPoison = [] → run = (s.core n.val).run)) ∧ OtherCores n.val s (readRanges n rs .clean k s).2 ∧
    (readRanges n rs .clean k s).2 = { s with cores := (readRanges n rs .clean k s).2.cores } := by
  rw [readRanges_clean h]
  split
  · next hpoison =>
    exact ⟨rfl, ⟨_, State.core_modCore_self _ _ _, fun hnone => by simp [hnone] at hpoison⟩, fun _ hm => State.core_modCore_ne _ _ hm, rfl⟩
  · exact ⟨rfl, ⟨_, rfl, fun _ => rfl⟩, fun _ _ => rfl, rfl⟩

/-! ### Loads (R35, R40) -/

/-- The sets after a load: the chosen set of each array that it fills. -/
theorem find_loaded {α : Type} (w : α) (g : Nat → Nat) (k : Nat) : ∀ (bs : List Nat) (t : Tab α),
    Tab.find (bs.foldl (fun t b => Tab.insert t (g b) w) t) k = if k ∈ bs.map g then some w else Tab.find t k
  | [], _ => rfl
  | b :: bs, t => by
    rw [List.foldl_cons, find_loaded w g k bs, Tab.find_insert, List.map_cons]
    by_cases hrest : k ∈ bs.map g
    · rw [if_pos hrest, if_pos (List.mem_cons_of_mem _ hrest)]
    · rw [if_neg hrest]
      by_cases hk : k = g b
      · rw [if_pos hk, if_pos (List.mem_cons.mpr (.inl hk))]
      · rw [if_neg hk, if_neg (by simp [hk, hrest])]

section Load

variable {s : State} {n : CoreNum} {a : Fin 4} {setB : Bool} {src : WeightRead} {c : CoreSt} {l : Option LayerDecl}
  {p : WeightSet × List (Nat × Nat)}

/-- A load that is no well-formed program's: it reads the reserved region, or is of a transposed product of 32 rows or more. -/
def loadMalformed (l : Option LayerDecl) (reads : List (Nat × Nat)) : Bool :=
  reads.any (fun r => 0x7C000 < r.1 + r.2) || l.any (fun x => x.transposed && 32 ≤ x.rowsM)

theorem loadMalformed_false {reads : List (Nat × Nat)} (hreads : ∀ r ∈ reads, r.1 + r.2 ≤ 0x7C000)
    (hrows : ∀ x, l = some x → x.transposed = true → x.rowsM < 32) : loadMalformed l reads = false := by
  unfold loadMalformed
  rw [Bool.or_eq_false_iff]
  constructor
  · simpa [List.any_eq_false] using fun x y hr => hreads (x, y) hr
  · cases l with
    | none => rfl
    | some x => simpa using hrows x rfl

theorem loadMalformed_true {reads : List (Nat × Nat)}
    (h : (∃ r ∈ reads, 0x7C000 < r.1 + r.2) ∨ ∃ x, l = some x ∧ x.transposed = true ∧ 32 ≤ x.rowsM) :
    loadMalformed l reads = true := by
  unfold loadMalformed
  rw [Bool.or_eq_true]
  rcases h with ⟨r, hr, hbeyond⟩ | ⟨x, rfl, htransposed, hrows⟩
  · exact .inl (List.any_eq_true.mpr ⟨r, hr, by simpa using hbeyond⟩)
  · exact .inr (by simp [htransposed, hrows])

/-- A load reaches the set that it forms into each array that it fills. -/
def loaded (n : CoreNum) (a : Nat) (setB : Bool) (w : WeightSet) (s : State) : State :=
  s.modCore n.val (fun c =>
    { c with wsets := (loadTargets c a).foldl (fun t b => Tab.insert t (2 * b + (if setB then 1 else 0)) w) c.wsets })

/-- What the load leaves in a core of which the read has changed no more than the unit's flags. -/
theorem core_loaded {a : Nat} {w : WeightSet} {s1 : State} {run : Option UnitInst} (hc : (s.core n.val).drain = c)
    (hcore : s1.core n.val = { s.core n.val with run := run }) : (loaded n a setB w s1).core n.val = { s.core n.val with
      run := run
      wsets := (loadTargets c a).foldl (fun t b => Tab.insert t (2 * b + (if setB then 1 else 0)) w) (s.core n.val).wsets } := by
  obtain ⟨sp, poison, hdrain⟩ := drain_eq (s.core n.val)
  have htargets : loadTargets (s1.core n.val) a = loadTargets c a := by
    unfold loadTargets
    rw [hcore, ← hc, hdrain]
  unfold loaded
  rw [State.core_modCore_self, htargets, hcore]

variable (hruns : s.unitRuns n.val = true) (hc : (s.core n.val).drain = c) (hl : runLayer s n.val = l)
  (hp : formSet c (runDecl s n.val) l (Tab.get c.fmt 0 a.val) src.base src.block setB (loadsThird c a.val (Tab.get c.fmt 0 a.val) setB)
    ((c.run.map (·.slot)).getD 0xFFFF) ((c.run.map (·.unit)).getD 0) = p)
include hruns hc hl hp

theorem loadWeights_eq : loadWeights n a.val setB src s =
    if loadMalformed l p.2 then seqIllegal n s
    else if (readRanges n p.2 src.upset src.upsetAt s).1 then (readRanges n p.2 src.upset src.upsetAt s).2
    else loaded n a.val setB p.1 (readRanges n p.2 src.upset src.upsetAt s).2 := by
  subst hc hl hp
  unfold loadWeights
  rw [if_neg (by simp [hruns])]
  rfl

theorem weightSetLoad_loads (hmal : loadMalformed l p.2 = false) (hinj : (s.hdr (.core n)).inj = 0) (hclean : src.upset = .clean) :
    Completes (.weightSetLoad n a setB src) s (fun t =>
      (∀ b ∈ loadTargets c a.val, Tab.find (t.core n.val).wsets (2 * b + (if setB then 1 else 0)) = some p.1) ∧
      (∀ k, (∀ b ∈ loadTargets c a.val, k ≠ 2 * b + (if setB then 1 else 0)) →
        Tab.find (t.core n.val).wsets k = Tab.find (s.core n.val).wsets k) ∧
      (c.spPoison = [] → t.core n.val = { s.core n.val with wsets := (t.core n.val).wsets }) ∧
      OtherCores n.val s t ∧ SameScratchpads s t ∧ t = { s with cores := t.cores }) := by
  have heq := loadWeights_eq hruns hc hl hp
  obtain ⟨hgoes, ⟨run, hcore1, hsame⟩, hothers1, hframe1⟩ := readRanges_clean_effect hinj p.2 src.upsetAt
  rw [hmal, hclean, if_neg (by simp), hgoes, if_neg (by simp)] at heq
  generalize (readRanges n p.2 .clean src.upsetAt s).2 = s1 at heq hcore1 hothers1 hframe1
  have hcore := core_loaded (a := a.val) (setB := setB) (w := p.1) hc hcore1
  have hothers : OtherCores n.val s (loaded n a.val setB p.1 s1) := fun m hm =>
    (State.core_modCore_ne _ _ hm).trans (hothers1 m hm)
  refine ⟨_, congrArg Host.Outcome.next heq, fun b hb => ?_, fun k hk => ?_, fun hpoison => ?_, hothers, fun m w => ?_, ?_⟩
  · rw [hcore]
    exact (find_loaded _ _ _ _ _).trans (if_pos (List.mem_map.mpr ⟨b, hb, rfl⟩))
  · rw [hcore]
    refine (find_loaded _ _ _ _ _).trans (if_neg fun hmem => ?_)
    obtain ⟨b, hb, hkb⟩ := List.mem_map.mp hmem
    exact hk b hb hkb.symm
  · rw [hcore, hsame (by rw [hc]; exact hpoison)]
  · unfold State.spWord
    by_cases hm : m = n.val
    · rw [hm, hcore]
    · rw [hothers m hm]
  · rw [hframe1]
    rfl

theorem weightSetLoad_malformed (hmal : loadMalformed l p.2 = true) : Completes (.weightSetLoad n a setB src) s (fun t =>
    (t.core n.val).run = none ∧ (t.core n.val).seq = .faulted ∧
    (t.hdr (.core n)).errStat.getLsbD Bit.coreIllegal = true ∧ SameMemory s t) := by
  obtain ⟨⟨u, hrunning⟩, -⟩ := run_of_unitRuns hruns
  have hrun := loadWeights_eq hruns hc hl hp
  rw [hmal, if_pos rfl] at hrun
  exact ⟨_, congrArg Host.Outcome.next hrun, seqIllegal_effect hrunning⟩

end Load

/-! ### An uncorrectable error of a read (R139, R140) -/

section Uncorrectable

variable {s : State}

@[simp] theorem core_takeInj (b : Block) (bit : Nat) (m : Nat) : (takeInj b bit s).2.core m = s.core m :=
  core_of_cores (by simp) m

/-- A read of a bank corrects or poisons words, and leaves the unit in place. -/
theorem bankRead_run (n w : Nat) (u : Upset) (pass : Bool) : ((bankRead n w u pass s).2.core n).run = (s.core n).run ∧
    (bankRead n w u pass s).2.dram = s.dram := by
  unfold bankRead
  dsimp only
  split
  · simp [CoreSt.poisonAt]
  · split
    · simp [CoreSt.noteCorr]
    · simp

/-- An uncorrectable word is poisoned in place, and the bit is raised (R140). -/
theorem bankRead_uncorrectable (n w : Nat) (pass : Bool) : (bankRead n w .uncorrectable pass s).1 = true ∧
    (bankRead n w .uncorrectable pass s).2.spWord n w = poisonWord ∧
    ((bankRead n w .uncorrectable pass s).2.hdr (.core n)).errStat.getLsbD Bit.coreEccUncorr = true := by
  unfold bankRead
  dsimp only
  rw [if_pos (by simp)]
  refine ⟨rfl, ?_, raiseAt_sets _ _ _ _ _ (by decide)⟩
  unfold State.spWord
  simp [CoreSt.poisonAt]

/-- A read whose word at the place of the upset is uncorrectable stops the unit; the word is poisoned (R139, R140). -/
theorem readRanges_uncorrectable {n : CoreNum} {unit : UnitInst} (hrun : (s.core n.val).run = some unit) {rs : List (Nat × Nat)}
    {k w : Nat} (hw : ((rangeWords rs).filter (fun w => ((s.core n.val).buffered w).isNone))[k]? = some w) :
    ∃ s1, readRanges n rs .uncorrectable k s = (true, readFault n s1) ∧ (s1.core n.val).run = some unit ∧
      s1.spWord n.val w = poisonWord ∧ (s1.hdr (.core n.val)).errStat.getLsbD Bit.coreEccUncorr = true ∧ s1.dram = s.dram := by
  unfold readRanges
  dsimp only
  generalize (rangeWords rs).filter _ = bank at hw
  cases bank with
  | nil => simp at hw
  | cons w0 ws =>
    have hget : (w0 :: ws).getD k w0 = w := by rw [List.getD_eq_getElem?_getD, hw]; rfl
    obtain ⟨hrun1, hdram1⟩ := bankRead_run (s := s) n.val w0 .clean false
    obtain ⟨hrun2, hdram2⟩ := bankRead_run (s := (bankRead n.val w0 .clean false s).2) n.val w .uncorrectable false
    obtain ⟨hbad, hword, hbit⟩ := bankRead_uncorrectable (s := (bankRead n.val w0 .clean false s).2) n.val w false
    refine ⟨_, ?_, (hrun2.trans hrun1).trans hrun, hword, hbit, hdram2.trans hdram1⟩
    dsimp only
    simp only [reduceCtorEq, if_false, hget, hbad, Bool.or_true, if_true]

/-- A load that reads an uncorrectable word stops its unit (R140). -/
theorem weightSetLoad_uncorrectable {n : CoreNum} {a : Fin 4} {setB : Bool} {src : WeightRead} {c : CoreSt} {l : Option LayerDecl}
    {p : WeightSet × List (Nat × Nat)} (hruns : s.unitRuns n.val = true) (hc : (s.core n.val).drain = c)
    (hl : runLayer s n.val = l)
    (hp : formSet c (runDecl s n.val) l (Tab.get c.fmt 0 a.val) src.base src.block setB
      (loadsThird c a.val (Tab.get c.fmt 0 a.val) setB) ((c.run.map (·.slot)).getD 0xFFFF) ((c.run.map (·.unit)).getD 0) = p)
    (hmal : loadMalformed l p.2 = false) (hupset : src.upset = .uncorrectable) {w : Nat}
    (hw : ((rangeWords p.2).filter (fun w => ((s.core n.val).buffered w).isNone))[src.upsetAt]? = some w) :
    Completes (.weightSetLoad n a setB src) s (fun t =>
      (t.core n.val).run = none ∧ (t.core n.val).seq = .faulted ∧ t.spWord n.val w = poisonWord ∧
      (t.hdr (.core n)).errStat.getLsbD Bit.coreEccUncorr = true ∧ SameDram s t) := by
  obtain ⟨⟨u, hrunning⟩, -⟩ := run_of_unitRuns hruns
  obtain ⟨s1, hread, hrunning1, hword, hbit, hdram⟩ := readRanges_uncorrectable hrunning hw
  have hrun := loadWeights_eq hruns hc hl hp
  rw [hmal, if_neg (by simp), hupset, hread, if_pos rfl] at hrun
  have hfault : readFault n s1 = faultStop n Cause.memPoison Bit.coreEccUncorr 0 true s1 := by
    unfold readFault
    rw [hrunning1]
  obtain ⟨hnone, hfaulted, -, hkeeps⟩ := faultStop_effect hrunning1 Cause.memPoison Bit.coreEccUncorr 0 true
  refine ⟨_, congrArg Host.Outcome.next (hrun.trans hfault), hnone, hfaulted, (hkeeps.scratchpads _ _).trans hword,
    hkeeps.errStat _ _ hbit, sameDram_of_eq ((faultStop_steady _ _ _ _ _ _).dram.trans hdram)⟩

end Uncorrectable

/-! ### The foot of an array (R46, R50) -/

section Foot

variable {s : State} {n : Nat} {u : UnitInst}

theorem footAction_eq (f a : Nat) (row : FootRow) (y : List Int) (c : CoreSt) :
    ∃ acc k1, footAction f a row y c = { c with acc := acc, k1 := k1 } := by
  unfold footAction
  dsimp only
  repeat' split
  all_goals exact ⟨_, _, rfl⟩

/-- The foot unit of an array changes its accumulators and the rows that wait for their sum. -/
theorem footTake_eq (f a : Nat) (row : FootRow) (y : List Int) (c : CoreSt) :
    ∃ acc k1 sumk, footTake f a row y c = { c with acc := acc, k1 := k1, sumk := sumk } := by
  have haction : ∀ (b : Nat) (z : List Int) (t : Tab (List Int)),
      ∃ acc k1 sumk, footAction f b row z { c with sumk := t } = { c with acc := acc, k1 := k1, sumk := sumk } := by
    intro b z t
    obtain ⟨acc, k1, h⟩ := footAction_eq f b row z { c with sumk := t }
    exact ⟨acc, k1, t, h⟩
  unfold footTake
  split
  · unfold footSumK
    dsimp only
    split
    · exact haction _ _ _
    · exact ⟨_, _, _, rfl⟩
  · exact haction _ _ c.sumk

theorem injectRow_unarmed (h : (s.hdr (.core n)).inj = 0) (f a : Nat) (y : List Int) : injectRow n f a y s = (y, s) := by
  unfold injectRow
  rw [takeInj_unarmed h]
  dsimp only
  split
  · exact if_neg (by simp)
  · rfl

/-- The checks of the foot unit on a row whose accumulator read is good (R46). -/
theorem footCheck_good (h : (s.hdr (.core n)).inj = 0) (f a : Nat) (c : CoreSt) (row : FootRow) : footCheck n f a c row true s = s := by
  have hcheck : ∀ b, accCheck n b true s = s := fun b => by rw [accCheck_unarmed h, if_pos rfl]
  unfold footCheck
  simp only [hcheck, if_true, ite_self]

theorem raiseAt_inj (b c : Block) (bit addr : Nat) (who : Option (Nat × Nat)) (s : State) :
    ((raiseAt b bit addr who s).hdr c).inj = (s.hdr c).inj := by
  obtain ⟨a, w, i, hhdr⟩ := raiseAt_hdr b bit addr who s
  rw [hhdr]
  split
  · next hpage =>
    unfold State.hdr
    rw [hpage]
  · rfl

/-- An event arms no injection. -/
theorem abftEvent_inj (hrun : (s.core n).run = some u) (cause bit : Nat) (c : Block) :
    ((abftEvent n cause bit s).hdr c).inj = (s.hdr c).inj := by
  rw [← raiseAt_inj (.core n) c bit 0 (some (u.ctx, u.part)) s]
  unfold abftEvent
  rw [hrun]
  dsimp only
  repeat' split
  all_goals rfl

end Foot

/-! ### A row at the foot of one array (R36, R43, R72) -/

/-- A row has left the foot of array `a`, with its sums `y`. -/
def rowEntered (n : Nat) (c : CoreSt) (d : UnitDecl) (g : RowForm) (row : ArrayRow) (a : Nat) (y : List Int) (s : State) : State :=
  ({ s with free := s.free + 1 }).modCore n (fun k =>
    footTake (Tab.get c.fmt 0 a) a (formRow c g a (Tab.get c.fmt 0 a) row).foot y
      (k.noteRow c d g a (Config.freeNat s.free % 65 + 1) row))

/-- What a row leaves at the foot of its array, whatever the comparator says. -/
structure RowTaken (n : Nat) (c : CoreSt) (g : RowForm) (row : ArrayRow) (a : Nat) (s t : State) : Prop where
  steps : (t.core n).steps = Tab.insert (s.core n).steps (a * 512 + row.entry) (formRow c g a (Tab.get c.fmt 0 a) row).next
  runs : ∀ u, (s.core n).run = some u → ∃ u', (t.core n).run = some u'
  inj : (t.hdr (.core n)).inj = (s.hdr (.core n)).inj
  others : OtherCores n s t
  mem : SameMemory s t

section ArrayRow

variable {s : State} {n : Nat} {u : UnitInst} {c : CoreSt} {d : UnitDecl} {g : RowForm} {row : ArrayRow} {a : Nat} {y : List Int}

/-- The core after its row: what the row notes, and the accumulators. -/
theorem core_rowEntered (a : Nat) (y : List Int) (s : State) : ∃ acc k1 sumk, (rowEntered n c d g row a y s).core n =
    { (s.core n).noteRow c d g a (Config.freeNat s.free % 65 + 1) row with acc := acc, k1 := k1, sumk := sumk } := by
  obtain ⟨acc, k1, sumk, h⟩ := footTake_eq (Tab.get c.fmt 0 a) a (formRow c g a (Tab.get c.fmt 0 a) row).foot y
    ((s.core n).noteRow c d g a (Config.freeNat s.free % 65 + 1) row)
  exact ⟨acc, k1, sumk, (State.core_modCore_self _ _ _).trans h⟩

theorem rowEntered_taken (a : Nat) (y : List Int) (s : State) : RowTaken n c g row a s (rowEntered n c d g row a y s) := by
  obtain ⟨acc, k1, sumk, hcore⟩ := core_rowEntered (n := n) (c := c) (d := d) (g := g) (row := row) a y s
  have hothers : OtherCores n s (rowEntered n c d g row a y s) := fun m hm => State.core_modCore_ne _ _ hm
  refine ⟨?_, fun u hu => ⟨u, ?_⟩, rfl, hothers, sameDram_of_eq rfl, fun m w => ?_⟩
  · rw [hcore]
    rfl
  · rw [hcore]
    exact hu
  · unfold State.spWord
    by_cases hm : m = n
    · rw [hm, hcore]
      rfl
    · rw [hothers m hm]

/-- The row is shown as the last that the comparator did not accept (R72). -/
def rowShown (n : Nat) (c : CoreSt) (g : RowForm) (row : ArrayRow) (a : Nat) (s : State) : State :=
  s.modCore n (fun k => { k with abftLast := abftLastWord (Tab.get c.fmt 0 a) a (formRow c g a (Tab.get c.fmt 0 a) row).foot })

theorem rowShown_frame (c : CoreSt) (g : RowForm) (row : ArrayRow) (a : Nat) (s : State) :
    OtherCores n s (rowShown n c g row a s) ∧ SameMemory s (rowShown n c g row a s) :=
  ⟨fun _ hm => State.core_modCore_ne _ _ hm, (modCore_keepsWords n s).sameMemory rfl⟩

theorem run_rowShown (a : Nat) (y : List Int) (hrun : (s.core n).run = some u) :
    ((rowShown n c g row a (rowEntered n c d g row a y s)).core n).run = some u := by
  obtain ⟨acc, k1, sumk, hcore⟩ := core_rowEntered (n := n) (c := c) (d := d) (g := g) (row := row) a y s
  unfold rowShown
  rw [State.core_modCore_self, hcore]
  exact hrun

variable (hinj : (s.hdr (.core n)).inj = 0)
include hinj

/-- A row whose values the comparator accepts enters the foot of its array, and that is all. -/
theorem arrayRow_agrees {fault : Option (Nat × Int)} (hy : disturb (Tab.get c.fmt 0 a) (rowSums c d g a row) fault = y)
    (hagree : mismatch (Tab.get c.fmt 0 a) c.relShift c.absExp y = false) :
    arrayRow n c d g row fault true a s = rowEntered n c d g row a y s := by
  unfold arrayRow
  dsimp only
  rw [injectRow_unarmed hinj, hy]
  dsimp only
  rw [if_neg (by simp [hagree])]
  exact footCheck_good (s := rowEntered n c d g row a y s) hinj _ _ _ _

/-- One that it does not accept is an event of the unit. -/
theorem arrayRow_differs {fault : Option (Nat × Int)} (hrun : (s.core n).run = some u)
    (hy : disturb (Tab.get c.fmt 0 a) (rowSums c d g a row) fault = y)
    (hdiffers : mismatch (Tab.get c.fmt 0 a) c.relShift c.absExp y = true) : arrayRow n c d g row fault true a s =
      abftEvent n Cause.abft Bit.coreAbft (rowShown n c g row a (rowEntered n c d g row a y s)) := by
  unfold arrayRow
  dsimp only
  rw [injectRow_unarmed hinj, hy]
  dsimp only
  rw [if_pos hdiffers]
  exact footCheck_good ((abftEvent_inj (run_rowShown a y hrun) _ _ _).trans hinj) _ _ _ _

/-- With no injection armed a row is taken whatever the comparator says. -/
theorem arrayRow_taken (fault : Option (Nat × Int)) (hrun : (s.core n).run = some u) :
    RowTaken n c g row a s (arrayRow n c d g row fault true a s) := by
  obtain ⟨y, hy⟩ : ∃ y, disturb (Tab.get c.fmt 0 a) (rowSums c d g a row) fault = y := ⟨_, rfl⟩
  have hentered := rowEntered_taken (n := n) (c := c) (d := d) (g := g) (row := row) a y s
  cases hverdict : mismatch (Tab.get c.fmt 0 a) c.relShift c.absExp y with
  | false =>
    rw [arrayRow_agrees hinj hy hverdict]
    exact hentered
  | true =>
    have hshown := run_rowShown (c := c) (d := d) (g := g) (row := row) a y hrun
    obtain ⟨v, -, -, hcore⟩ := abftEvent_core hshown Cause.abft Bit.coreAbft
    obtain ⟨-, hothers, hmem⟩ := abftEvent_frame hshown Cause.abft Bit.coreAbft (by decide)
    obtain ⟨hothers', hmem'⟩ := rowShown_frame (n := n) c g row a (rowEntered n c d g row a y s)
    rw [arrayRow_differs hinj hrun hy hverdict]
    refine ⟨?_, fun _ _ => ⟨v, congrArg CoreSt.run hcore⟩, abftEvent_inj hshown _ _ _,
      fun m hm => (hothers m hm).trans ((hothers' m hm).trans (hentered.others m hm)),
      fun x => (hmem.1 x).trans (hentered.mem.1 x), fun m w => (hmem.2 m w).trans ((hmem'.2 m w).trans (hentered.mem.2 m w))⟩
    rw [hcore]
    refine Eq.trans ?_ hentered.steps
    unfold rowShown
    rw [State.core_modCore_self]

end ArrayRow

/-! ### The arrays that a row feeds (R38) -/

/-- The entry of a row has taken its step in array `b`. -/
def RowFed (n : Nat) (c : CoreSt) (g : RowForm) (row : ArrayRow) (b : Nat) (s : State) : Prop :=
  Tab.find (s.core n).steps (b * 512 + row.entry) = some (formRow c g b (Tab.get c.fmt 0 b) row).next

section Fed

variable {s t : State} {n : Nat} {c : CoreSt} {d : UnitDecl} {g : RowForm} {row : ArrayRow}

/-- A row feeds its array, and an array that was fed stays so. -/
theorem RowTaken.fed {a : Nat} (h : RowTaken n c g row a s t) (b : Nat) (hb : b = a ∨ RowFed n c g row b s) : RowFed n c g row b t := by
  unfold RowFed
  rw [h.steps, Tab.find_insert]
  by_cases hab : b = a
  · rw [hab, if_pos rfl]
  · rw [if_neg (by omega)]
    exact hb.resolve_left hab

/-- A row is taken by each array that it feeds. -/
theorem rowsTaken (fault : Nat → Option (Nat × Int)) : ∀ (bs : List Nat) (s : State) (u : UnitInst), (s.hdr (.core n)).inj = 0 →
    (s.core n).run = some u → (∀ b, b ∈ bs ∨ RowFed n c g row b s →
      RowFed n c g row b (forEach bs (fun b s => arrayRow n c d g row (fault b) true b s) s)) ∧
    OtherCores n s (forEach bs (fun b s => arrayRow n c d g row (fault b) true b s) s) ∧
    SameMemory s (forEach bs (fun b s => arrayRow n c d g row (fault b) true b s) s)
  | [], _, _, _, _ => ⟨fun _ h => h.resolve_left List.not_mem_nil, fun _ _ => rfl, fun _ => rfl, fun _ _ => rfl⟩
  | a :: bs, s, u, hinj, hrun => by
    have htaken := arrayRow_taken (c := c) (d := d) (g := g) (row := row) (a := a) hinj (fault a) hrun
    obtain ⟨u', hrun'⟩ := htaken.runs u hrun
    obtain ⟨hfed, hothers, hmem⟩ := rowsTaken fault bs _ u' (htaken.inj.trans hinj) hrun'
    refine ⟨fun b hb => hfed b ?_, fun m hm => (hothers m hm).trans (htaken.others m hm),
      fun x => (hmem.1 x).trans (htaken.mem.1 x), fun m w => (hmem.2 m w).trans (htaken.mem.2 m w)⟩
    rcases hb with hmem | hb
    · rcases List.mem_cons.mp hmem with hba | hrest
      · exact .inr (htaken.fed b (.inl hba))
      · exact .inl hrest
    · exact .inr (htaken.fed b (.inr hb))

theorem owePiece_frame (s : State) : OtherCores n s (owePiece n s) ∧ SameMemory s (owePiece n s) :=
  ⟨fun _ hm => State.core_modCore_ne _ _ hm, (modCore_keepsWords n s).sameMemory rfl⟩

end Fed

/-! ### ARRAY_ROW_VERDICT -/

section Stream

variable {s : State} {n : CoreNum} {u : UnitInst} {c : CoreSt} {d : UnitDecl} {g : RowForm} {row : ArrayRow} {a : Fin 4}

/-- The words that the row former reads for a row. -/
def rowReads (c : CoreSt) (d : UnitDecl) (g : RowForm) (a : Nat) (row : ArrayRow) : List (Nat × Nat) :=
  (formRow c g a (Tab.get c.fmt 0 a) row).operands.filterMap (fun o => o.word?.map (fun w => (w, 1))) ++
    (rowEntry d g (Tab.get c.fmt 0 a) row).toList.map (fun w => (w, 2))

/-- A row that stops its unit: it is malformed for an array that it feeds, or reads the reserved region. -/
def rowStops (c : CoreSt) (d : UnitDecl) (g : RowForm) (a : Nat) (row : ArrayRow) : Bool :=
  (rowTargets c.gang a).any (fun b => rowMalformed c d g b (Tab.get c.fmt 0 b) row) ||
    (rowReads c d g a row).any (fun r => 0x7C000 < r.1 + r.2)

theorem rowStops_of_reserved {o : Operand} {w : Nat} (ho : o ∈ (formRow c g a.val (Tab.get c.fmt 0 a.val) row).operands)
    (hword : o.word? = some w) (hreserved : 0x7C000 ≤ w) : rowStops c d g a.val row = true := by
  unfold rowStops
  rw [Bool.or_eq_true]
  refine .inr (List.any_eq_true.mpr ⟨(w, 1), List.mem_append_left _ (List.mem_filterMap.mpr ⟨o, ho, by rw [hword]; rfl⟩), ?_⟩)
  simp only [decide_eq_true_eq]
  omega

theorem rowStops_false
    (hmal : (rowTargets c.gang a.val).any (fun b => rowMalformed c d g b (Tab.get c.fmt 0 b) row) = false)
    (hwords : ∀ o ∈ (formRow c g a.val (Tab.get c.fmt 0 a.val) row).operands, ∀ w, o.word? = some w → w < 0x7C000)
    (hentry : ∀ w, rowEntry d g (Tab.get c.fmt 0 a.val) row = some w → w + 2 ≤ 0x7C000) : rowStops c d g a.val row = false := by
  unfold rowStops
  rw [hmal, Bool.false_or, List.any_eq_false]
  intro r hr
  simp only [decide_eq_true_eq, not_lt]
  rcases List.mem_append.mp hr with hr | hr
  · obtain ⟨o, ho, hword⟩ := List.mem_filterMap.mp hr
    obtain ⟨w, hw, rfl⟩ := Option.map_eq_some_iff.mp hword
    exact hwords o ho w hw
  · obtain ⟨w, hw, rfl⟩ := List.mem_map.mp hr
    exact hentry w (Option.mem_toList.mp hw)

variable (hruns : s.unitRuns n.val = true) (hrun : (s.core n.val).run = some u) (hc : (s.core n.val).drain = c)
  (hd : (unitDeclOf s u).getD { wcet := 0 } = d) (hg : rowForm s n.val u d = g)
include hruns hrun hc hd hg

theorem streamRow_eq : streamRow n a.val row s =
    if rowStops c d g a.val row then seqIllegal n s
    else if (readRanges n (rowReads c d g a.val row) row.upset row.upsetAt s).1 then
      (readRanges n (rowReads c d g a.val row) row.upset row.upsetAt s).2
    else owePiece n.val (forEach (rowTargets c.gang a.val) (fun b s =>
      arrayRow n.val c d g row (if b = a.val then row.fault else none) (b != a.val || row.accOk) b s)
      (readRanges n (rowReads c d g a.val row) row.upset row.upsetAt s).2) := by
  subst hc hd hg
  unfold streamRow
  rw [if_neg (by simp [hruns]), hrun]
  rfl

theorem arrayRowVerdict_stops (hstops : rowStops c d g a.val row = true) : Completes (.arrayRowVerdict n a row) s (fun t =>
    (t.core n.val).run = none ∧ (t.core n.val).seq = .faulted ∧ SameMemory s t) := by
  have heq := streamRow_eq (a := a) (row := row) hruns hrun hc hd hg
  rw [hstops, if_pos rfl] at heq
  obtain ⟨hnone, hfaulted, -, hmem⟩ := seqIllegal_effect hrun
  exact ⟨_, congrArg Host.Outcome.next heq, hnone, hfaulted, hmem⟩

section Sound

variable (hstops : rowStops c d g a.val row = false) (hinj : (s.hdr (.core n.val)).inj = 0) (hclean : row.upset = .clean)
  (hacc : row.accOk = true) (hpoison : c.spPoison = [])
include hstops hinj hclean hacc hpoison

/-- A row that meets nothing feeds its arrays, and the unit owes a piece. -/
theorem streamRow_sound : streamRow n a.val row s = owePiece n.val (forEach (rowTargets c.gang a.val) (fun b s =>
    arrayRow n.val c d g row (if b = a.val then row.fault else none) true b s) s) := by
  have heq := streamRow_eq (a := a) (row := row) hruns hrun hc hd hg
  rw [hstops, hclean, readRanges_sound hinj (by rw [hc]; exact hpoison)] at heq
  simpa [hacc] using heq

theorem streamRow_single (hgang : c.gang ≠ 2) :
    streamRow n a.val row s = owePiece n.val (arrayRow n.val c d g row row.fault true a.val s) := by
  rw [streamRow_sound hruns hrun hc hd hg hstops hinj hclean hacc hpoison]
  unfold rowTargets
  rw [if_neg hgang]
  simp [forEach]

theorem arrayRowVerdict_agrees {y : List Int} (hy : disturb (Tab.get c.fmt 0 a.val) (rowSums c d g a.val row) row.fault = y)
    (hgang : c.gang ≠ 2) (hagree : mismatch (Tab.get c.fmt 0 a.val) c.relShift c.absExp y = false) :
    Completes (.arrayRowVerdict n a row) s (fun t =>
      (∃ busy, 1 ≤ busy ∧ busy ≤ 65 ∧ t.core n.val =
        { footTake (Tab.get c.fmt 0 a.val) a.val (formRow c g a.val (Tab.get c.fmt 0 a.val) row).foot y
            ((s.core n.val).noteRow c d g a.val busy row) with run := some { u with owesPiece := true } }) ∧
      OtherCores n.val s t ∧ t = { s with cores := t.cores, free := t.free }) := by
  have heq := streamRow_single hruns hrun hc hd hg hstops hinj hclean hacc hpoison hgang
  rw [arrayRow_agrees hinj hy hagree] at heq
  refine ⟨_, congrArg Host.Outcome.next heq, ⟨Config.freeNat s.free % 65 + 1, by omega, by omega, ?_⟩, fun m hm => ?_, rfl⟩
  · obtain ⟨acc, k1, sumk, hfoot⟩ := footTake_eq (Tab.get c.fmt 0 a.val) a.val
      (formRow c g a.val (Tab.get c.fmt 0 a.val) row).foot y
      ((s.core n.val).noteRow c d g a.val (Config.freeNat s.free % 65 + 1) row)
    have hstays : (footTake (Tab.get c.fmt 0 a.val) a.val (formRow c g a.val (Tab.get c.fmt 0 a.val) row).foot y
        ((s.core n.val).noteRow c d g a.val (Config.freeNat s.free % 65 + 1) row)).run = some u := by
      rw [hfoot]
      exact hrun
    have hcore : (rowEntered n.val c d g row a.val y s).core n.val = footTake (Tab.get c.fmt 0 a.val) a.val
        (formRow c g a.val (Tab.get c.fmt 0 a.val) row).foot y
        ((s.core n.val).noteRow c d g a.val (Config.freeNat s.free % 65 + 1) row) := State.core_modCore_self _ _ _
    unfold owePiece
    rw [State.core_modCore_self, hcore, hstays]
    rfl
  · exact (State.core_modCore_ne _ _ hm).trans (State.core_modCore_ne _ _ hm)

theorem arrayRowVerdict_differs {y : List Int} (hy : disturb (Tab.get c.fmt 0 a.val) (rowSums c d g a.val row) row.fault = y)
    (hgang : c.gang ≠ 2) (hdiffers : mismatch (Tab.get c.fmt 0 a.val) c.relShift c.absExp y = true) (hfirst : u.abft = false) :
    Completes (.arrayRowVerdict n a row) s (fun t => (t.core n.val).abftEvents = sat32 ((s.core n.val).abftEvents + 1) ∧
      (t.core n.val).abftLast = abftLastWord (Tab.get c.fmt 0 a.val) a.val (formRow c g a.val (Tab.get c.fmt 0 a.val) row).foot ∧
      (∃ v, (t.core n.val).run = some v ∧ v.abft = true ∧ Cause.abft ∈ v.causes) ∧
      (t.hdr (.core n)).errStat.getLsbD Bit.coreAbft = true ∧ OtherCores n.val s t ∧ SameMemory s t) := by
  have heq := streamRow_single hruns hrun hc hd hg hstops hinj hclean hacc hpoison hgang
  rw [arrayRow_differs hinj hrun hy hdiffers] at heq
  have hshown := run_rowShown (c := c) (d := d) (g := g) (row := row) a.val y hrun
  obtain ⟨v, habft, hcause, hevent⟩ := abftEvent_core hshown Cause.abft Bit.coreAbft
  have htaken := arrayRow_taken (c := c) (d := d) (g := g) (row := row) (a := a.val) hinj row.fault hrun
  obtain ⟨hbit, -⟩ := abftEvent_frame hshown Cause.abft Bit.coreAbft (by decide)
  rw [arrayRow_differs hinj hrun hy hdiffers] at htaken
  obtain ⟨acc, k1, sumk, hentered⟩ := core_rowEntered (n := n.val) (c := c) (d := d) (g := g) (row := row) a.val y s
  rw [hfirst, if_neg (by simp)] at hevent
  generalize abftEvent n.val Cause.abft Bit.coreAbft _ = t at heq hevent htaken hbit
  unfold rowShown at hevent
  rw [State.core_modCore_self, hentered] at hevent
  have hcore : (owePiece n.val t).core n.val =
      { t.core n.val with run := (t.core n.val).run.map (fun u => { u with owesPiece := true }) } := State.core_modCore_self _ _ _
  rw [hevent] at hcore
  exact ⟨_, congrArg Host.Outcome.next heq, congrArg CoreSt.abftEvents hcore, congrArg CoreSt.abftLast hcore,
    ⟨{ v with owesPiece := true }, congrArg CoreSt.run hcore, habft, hcause⟩, hbit,
    fun m hm => ((owePiece_frame t).1 m hm).trans (htaken.others m hm), fun x => htaken.mem.1 x,
    fun m w => ((owePiece_frame t).2.2 m w).trans (htaken.mem.2 m w)⟩

theorem arrayRowVerdict_shared (hgang : c.gang = 2) :
    Completes (.arrayRowVerdict n a row) s (fun t => (∀ b < 4, Tab.find (t.core n.val).steps (b * 512 + row.entry) =
      some (formRow c g b (Tab.get c.fmt 0 b) row).next) ∧ OtherCores n.val s t ∧ SameMemory s t) := by
  have heq := streamRow_sound hruns hrun hc hd hg hstops hinj hclean hacc hpoison
  obtain ⟨hfed, hothers, hmem⟩ := rowsTaken (c := c) (d := d) (g := g) (row := row)
    (fun b => if b = a.val then row.fault else none) (rowTargets c.gang a.val) s u hinj hrun
  generalize forEach (rowTargets c.gang a.val) _ s = t at heq hfed hothers hmem
  refine ⟨_, congrArg Host.Outcome.next heq, fun b hb => ?_, fun m hm => ((owePiece_frame t).1 m hm).trans (hothers m hm),
    fun x => hmem.1 x, fun m w => ((owePiece_frame t).2.2 m w).trans (hmem.2 m w)⟩
  unfold owePiece
  rw [State.core_modCore_self]
  refine hfed b (.inl ?_)
  unfold rowTargets
  rw [if_pos hgang]
  have hfour : b = 0 ∨ b = 1 ∨ b = 2 ∨ b = 3 := by omega
  simpa using hfour

end Sound

end Stream

/-- Settles O46: a load or a row that stops nothing has the effect of its load path or its foot units, and any other stops the unit. -/
theorem arrayCommandsComplete : Obligations.ArrayCommandsComplete := by
  unfold Obligations.ArrayCommandsComplete
  intro s n a hruns
  refine ⟨fun setB src c l p hc hl hp => ⟨fun hreads hrows => ⟨fun hinj hclean => ?_, fun w hupset hw => ?_⟩, fun hbad => ?_⟩,
    fun row u c d g hrun hc hd hg => ⟨fun hbad => ?_, ?_⟩⟩
  · exact weightSetLoad_loads hruns hc hl hp (loadMalformed_false hreads hrows) hinj hclean
  · exact weightSetLoad_uncorrectable hruns hc hl hp (loadMalformed_false hreads hrows) hupset hw
  · exact weightSetLoad_malformed hruns hc hl hp (loadMalformed_true hbad)
  · refine arrayRowVerdict_stops hruns hrun hc hd hg ?_
    rcases hbad with hmal | ⟨o, ho, w, hword, hreserved⟩
    · unfold rowStops
      rw [hmal, Bool.true_or]
    · exact rowStops_of_reserved ho hword hreserved
  · rintro f r y rfl rfl hmal hwords hentry hinj hclean hacc hpoison hy
    have hstops := rowStops_false hmal hwords hentry
    exact ⟨arrayRowVerdict_agrees hruns hrun hc hd hg hstops hinj hclean hacc hpoison hy,
      arrayRowVerdict_differs hruns hrun hc hd hg hstops hinj hclean hacc hpoison hy,
      arrayRowVerdict_shared hruns hrun hc hd hg hstops hinj hclean hacc hpoison⟩

end Sys2Proof.Machine

/-! The start of a unit (R96, R279, R282, R283): what accounting leaves alone, what a unit that starts finds, and who joins its block. -/

namespace Sys2Proof.Machine

open Sys2Proof

/-! ### Accounting (R282, R283) -/

/-- Between `s` and `t` contexts, streams, register pages and reports change, and what the queue manager shows: no core, no byte of
DRAM, and nothing of what commands wait for. -/
structure Accounts (s t : State) : Prop where
  cores : t.cores = s.cores
  dram : t.dram = s.dram
  ctl : t.ctl = s.ctl
  clock : t.clock = s.clock
  images : t.images = s.images

theorem Accounts.refl (s : State) : Accounts s s := ⟨rfl, rfl, rfl, rfl, rfl⟩

theorem Accounts.trans {s t u : State} (h : Accounts s t) (k : Accounts t u) : Accounts s u :=
  ⟨k.cores.trans h.cores, k.dram.trans h.dram, k.ctl.trans h.ctl, k.clock.trans h.clock, k.images.trans h.images⟩

theorem Accounts.core {s t : State} (h : Accounts s t) (n : Nat) : t.core n = s.core n := core_of_cores h.cores n

theorem Accounts.sameMemory {s t : State} (h : Accounts s t) : SameMemory s t := sameMemory_of_eq h.dram h.cores

theorem modCtx_accounts (c : Nat) (f : Ctx → Ctx) (s : State) : Accounts s (s.modCtx c f) := ⟨rfl, rfl, rfl, rfl, rfl⟩

theorem modStream_accounts (id : Nat) (f : Stream → Stream) (s : State) : Accounts s (s.modStream id f) := ⟨rfl, rfl, rfl, rfl, rfl⟩

theorem raise_accounts (b : Block) (bit : Nat) (s : State) : Accounts s (raise b bit s) :=
  ⟨by simp, by simp, by simp, by simp, by simp⟩

theorem chargeStart_accounts (u : UnitInst) (s : State) : Accounts s (chargeStart u s) := modCtx_accounts _ _ s

theorem accountStart_accounts (u : UnitInst) (others : List UnitInst) (s : State) : Accounts s (accountStart u others s) :=
  (modCtx_accounts u.ctx _ s).trans
    (forEach_inv (Accounts _) others _ (fun v _ ht => ht.trans (modCtx_accounts v.ctx _ _)) _ (.refl _))

theorem chargeEnd_accounts (u : UnitInst) (took : Nat) (s : State) : Accounts s (chargeEnd u took s) := by
  unfold chargeEnd
  dsimp only
  split
  · exact (modCtx_accounts _ _ s).trans (raise_accounts _ _ _)
  · exact modCtx_accounts _ _ s

/-- Accounting leaves the budget of every context as it is. -/
theorem accountStart_budget (u : UnitInst) (others : List UnitInst) (s : State) (c : Nat) :
    ((accountStart u others s).ctx c).budget = (s.ctx c).budget ∧
      ((accountStart u others s).ctx c).budgetLeft = (s.ctx c).budgetLeft := by
  have hmod : ∀ (d : Nat) (f : Ctx → Ctx) (t : State), (∀ x, (f x).budget = x.budget ∧ (f x).budgetLeft = x.budgetLeft) →
      ((t.modCtx d f).ctx c).budget = (t.ctx c).budget ∧ ((t.modCtx d f).ctx c).budgetLeft = (t.ctx c).budgetLeft := by
    intro d f t hf
    rw [State.ctx_modCtx]
    split
    · next hd => rw [hd]; exact hf _
    · exact ⟨rfl, rfl⟩
  have hstart := hmod u.ctx (fun x =>
    if x.extended then { x with
      waitNs := (x.waitNs + (s.clock - u.readyAt)) % 2 ^ 64, maxWait := sat32 (max x.maxWait (s.clock - u.readyAt)) } else x) s
    (fun x => by split <;> exact ⟨rfl, rfl⟩)
  refine forEach_inv (fun t => (t.ctx c).budget = (s.ctx c).budget ∧ (t.ctx c).budgetLeft = (s.ctx c).budgetLeft) others _
    (fun v t ht => ?_) _ hstart
  have hpass := hmod v.ctx (fun x => if x.extended then { x with passed := sat32 (x.passed + 1) } else x) t
    (fun x => by split <;> exact ⟨rfl, rfl⟩)
  exact ⟨hpass.1.trans ht.1, hpass.2.trans ht.2⟩

theorem accountStart_qmg (u : UnitInst) (others : List UnitInst) (s : State) : (accountStart u others s).qmg = s.qmg :=
  forEach_keeps (·.qmg) others _ (fun _ _ => by exact rfl) _

theorem joinBlock_effect : ∀ (vs : List UnitInst) (s : State), Accounts s (joinBlock vs s).2 ∧ ∀ w ∈ (joinBlock vs s).1, w ∈ vs
  | [], s => ⟨.refl s, fun _ h => h⟩
  | v :: vs, s => by
    unfold joinBlock
    split
    · obtain ⟨haccounts, hmem⟩ := joinBlock_effect vs (chargeStart v (accountStart v [] s))
      refine ⟨((accountStart_accounts v [] s).trans (chargeStart_accounts v _)).trans haccounts, fun w hw => ?_⟩
      rcases List.mem_cons.mp hw with rfl | hw
      · exact List.mem_cons_self
      · exact List.mem_cons_of_mem _ (hmem w hw)
    · obtain ⟨haccounts, hmem⟩ := joinBlock_effect vs s
      exact ⟨haccounts, fun w hw => List.mem_cons_of_mem _ (hmem w hw)⟩

/-! ### A unit that starts (R279) -/

/-- Unit `u` has left the ready list of core `n` and runs there from now. -/
structure Begun (n : Nat) (u : UnitInst) (s t : State) : Prop where
  run : ∃ v, (t.core n).run = some v ∧ v.order = u.order ∧ v.inputs = u.inputs ∧ v.seq = u.seq ∧ v.stream = u.stream ∧
    v.startAt = s.clock
  ready : (t.core n).ready = (s.core n).ready.filter (fun v => v.order != u.order)
  seq : (t.core n).seq = .run ∨ (t.core n).seq = .wait
  noWindow : (∀ h ∈ u.inputs, slotWindow s n h = none) → (t.core n).seq = .run
  others : OtherCores n s t
  mem : SameMemory s t

section Begin

variable {s t : State} {n : Nat} {u : UnitInst}

/-- What follows the start and leaves the core but for its flags. -/
theorem Begun.accounts (h : Begun n u s t) {x : State} (k : Accounts t x) : Begun n u s x where
  run := by rw [k.core]; exact h.run
  ready := by rw [k.core]; exact h.ready
  seq := by rw [k.core]; exact h.seq
  noWindow := by rw [k.core]; exact h.noWindow
  others m hm := by rw [k.core]; exact h.others m hm
  mem := ⟨fun a => (k.sameMemory.1 a).trans (h.mem.1 a), fun m w => (k.sameMemory.2 m w).trans (h.mem.2 m w)⟩

theorem Begun.flag (h : Begun n u s t) (cause : Nat) : Begun n u s (flagUnit n cause t) := by
  obtain ⟨v, hrun, hv⟩ := h.run
  have hcore : (flagUnit n cause t).core n = { t.core n with run := (t.core n).run.map (·.flag cause) } := State.core_modCore_self _ _ _
  have hkeeps := flagUnit_keepsWords n cause t
  refine ⟨⟨v.flag cause, ?_, hv⟩, ?_, ?_, fun hw => ?_, fun m hm => ?_, h.mem.1, fun m w => ?_⟩
  · rw [hcore, hrun]
    rfl
  · rw [hcore]
    exact h.ready
  · rw [hcore]
    exact h.seq
  · rw [hcore]
    exact h.noWindow hw
  · exact (State.core_modCore_ne _ _ hm).trans (h.others m hm)
  · exact (hkeeps.scratchpads m w).trans (h.mem.2 m w)

theorem takeBoxes_eq (s : State) (boxes : List (List Byte)) (u : UnitInst) :
    ∃ bs vs k, takeBoxes s boxes u = { u with boxes := bs, boxValid := vs, beyond := k } := by
  unfold takeBoxes
  split
  · exact ⟨_, _, _, rfl⟩
  · exact ⟨_, _, _, rfl⟩

/-- A unit as it starts, with its box list; before line `limit` its core's rings are empty (R97, R382). -/
def UnitInst.begin (s : State) (boxes : List (List Byte)) (limit : Nat) (u : UnitInst) : UnitInst :=
  if u.seq < limit then UnitInst.flag { takeBoxes s boxes u with startAt := s.clock, pos := tilePos s u } Cause.faultStop
  else { takeBoxes s boxes u with startAt := s.clock, pos := tilePos s u }

/-- The core on which a unit starts: its line rings turn, its arrays are configured, and the unit runs. -/
def CoreSt.begin (s : State) (boxes : List (List Byte)) (others : List UnitInst) (u : UnitInst) (c : CoreSt) : CoreSt :=
  let c1 := (if unitMode s u = StageMode.strata then c.turnRings u.seq else c).ringStart u.seq
  let c2 := match unitDeclOf s u with
    | none => c1
    | some d => c1.configure d
  { c2 with seq := .run, ready := others, run := some (u.begin s boxes c1.ringUntil) }

/-- The unit begins once accounting and its charge are done. -/
def unitBegun (n : Nat) (boxes : List (List Byte)) (passed : List UnitInst) (u : UnitInst) (s : State) : State :=
  (chargeStart u (accountStart u passed s)).modCore n
    (CoreSt.begin s boxes ((s.core n).ready.filter (fun v => v.order != u.order)) u)

theorem run_begin (boxes : List (List Byte)) (limit : Nat) (u : UnitInst) : (u.begin s boxes limit).order = u.order ∧
    (u.begin s boxes limit).inputs = u.inputs ∧ (u.begin s boxes limit).seq = u.seq ∧
    (u.begin s boxes limit).stream = u.stream ∧ (u.begin s boxes limit).startAt = s.clock := by
  obtain ⟨bs, vs, k, hboxes⟩ := takeBoxes_eq s boxes u
  unfold UnitInst.begin
  rw [hboxes]
  split <;> exact ⟨rfl, rfl, rfl, rfl, rfl⟩

theorem sp_configure (c : CoreSt) (d : UnitDecl) : (c.configure d).sp = c.sp := by
  unfold CoreSt.configure
  dsimp only
  split <;> rfl

theorem sp_begin (boxes : List (List Byte)) (others : List UnitInst) (c : CoreSt) : (c.begin s boxes others u).sp = c.sp := by
  have hturn : (c.turnRings u.seq).sp = c.sp := by
    unfold CoreSt.turnRings
    repeat' split
    all_goals rfl
  have hstart : ∀ k : CoreSt, (k.ringStart u.seq).sp = k.sp := by
    intro k
    unfold CoreSt.ringStart
    split <;> rfl
  have hrings : ((if unitMode s u = StageMode.strata then c.turnRings u.seq else c).ringStart u.seq).sp = c.sp := by
    rw [hstart]
    split
    · exact hturn
    · rfl
  unfold CoreSt.begin
  dsimp only
  split
  · exact hrings
  · exact (sp_configure _ _).trans hrings

/-- A unit waits for the first input that has not arrived (R83, R137). -/
theorem beginUnit_eq (n : Nat) (boxes : List (List Byte)) (block : List UnitInst) (u : UnitInst) (s : State) : ∃ passed,
    beginUnit n boxes block u s = match openInput (unitBegun n boxes passed u s) n u with
      | some (w, t) => beginWait n (.window w t) (unitBegun n boxes passed u s)
      | none => unitBegun n boxes passed u s := ⟨_, rfl⟩

theorem unitBegun_begun (boxes : List (List Byte)) (passed : List UnitInst) : Begun n u s (unitBegun n boxes passed u s) := by
  have haccounts := (accountStart_accounts u passed s).trans (chargeStart_accounts u _)
  have hcore := State.core_modCore_self (chargeStart u (accountStart u passed s)) n
    (CoreSt.begin s boxes ((s.core n).ready.filter (fun v => v.order != u.order)) u)
  have hothers : OtherCores n s (unitBegun n boxes passed u s) := fun m hm =>
    (State.core_modCore_ne _ _ hm).trans (haccounts.core m)
  refine ⟨⟨_, congrArg CoreSt.run hcore, run_begin _ _ _⟩, congrArg CoreSt.ready hcore, .inl (congrArg CoreSt.seq hcore),
    fun _ => congrArg CoreSt.seq hcore, hothers, sameDram_of_eq haccounts.dram, fun m w => ?_⟩
  unfold State.spWord
  by_cases hm : m = n
  · subst hm
    unfold unitBegun
    rw [hcore, sp_begin, haccounts.core]
  · rw [hothers m hm]

theorem openInput_none (h : ∀ x ∈ u.inputs, slotWindow s n x = none) : openInput s n u = none := by
  have hnone : u.inputs.filterMap (fun h =>
      match slotWindow s n h with
      | none => none
      | some (w, pl) =>
        let t := pl.targetAt (s.buffer (Bits.ofHandle h).pool (Bits.ofHandle h).index).seg (pl.windowCores.idxOf n)
        if ((s.core n).window w).arrived < t then some (w, t) else none) = [] := by
    refine List.filterMap_eq_nil_iff.mpr fun x hx => ?_
    rw [h x hx]
  unfold openInput
  exact congrArg List.head? hnone

/-- A unit that starts runs, and waits only where an input of it has a window. -/
theorem beginUnit_begun (boxes : List (List Byte)) (block : List UnitInst) : Begun n u s (beginUnit n boxes block u s) := by
  obtain ⟨passed, heq⟩ := beginUnit_eq n boxes block u s
  have hbegun := unitBegun_begun (s := s) (n := n) (u := u) boxes passed
  have hpools : (unitBegun n boxes passed u s).qmg = s.qmg := accountStart_qmg u passed s
  rw [heq]
  split
  · next w t hopen =>
    obtain ⟨v, hrun, hv⟩ := hbegun.run
    have hcore : (beginWait n (.window w t) (unitBegun n boxes passed u s)).core n = { (unitBegun n boxes passed u s).core n with
        seq := if ((unitBegun n boxes passed u s).core n).seq = .run then .wait else ((unitBegun n boxes passed u s).core n).seq
        waitAt := (unitBegun n boxes passed u s).clock } := State.core_modCore_self _ _ _
    have hkeeps := beginWait_keepsWords n (.window w t) (unitBegun n boxes passed u s)
    refine ⟨⟨v, ?_, hv⟩, ?_, ?_, fun hwindow => ?_, fun m hm => ?_, hbegun.mem.1,
      fun m x => (hkeeps.scratchpads m x).trans (hbegun.mem.2 m x)⟩
    · rw [hcore]
      exact hrun
    · rw [hcore]
      exact hbegun.ready
    · rw [hcore]
      dsimp only
      split
      · exact .inr rfl
      · exact hbegun.seq
    · have hnone : openInput (unitBegun n boxes passed u s) n u = none := openInput_none fun x hx => by
        have hslot : slotWindow (unitBegun n boxes passed u s) n x = slotWindow s n x := by
          unfold slotWindow State.pool?
          rw [hpools]
        rw [hslot]
        exact hwindow x hx
      rw [hnone] at hopen
      cases hopen
    · exact (State.core_modCore_ne _ _ hm).trans (hbegun.others m hm)
  · exact hbegun

/-- The declared time of a unit that starts is charged to the budget of its context (R282). -/
theorem beginUnit_charges (boxes : List (List Byte)) (block : List UnitInst) :
    ((beginUnit n boxes block u s).ctx u.ctx).budgetLeft =
      if (s.ctx u.ctx).budget.isSome then (s.ctx u.ctx).budgetLeft - u.wcet else (s.ctx u.ctx).budgetLeft := by
  obtain ⟨passed, heq⟩ := beginUnit_eq n boxes block u s
  obtain ⟨hbudget, hleft⟩ := accountStart_budget u passed s u.ctx
  have hcharged : ((unitBegun n boxes passed u s).ctx u.ctx).budgetLeft =
      if (s.ctx u.ctx).budget.isSome then (s.ctx u.ctx).budgetLeft - u.wcet else (s.ctx u.ctx).budgetLeft := by
    have hctx : (unitBegun n boxes passed u s).ctx u.ctx = _ := State.ctx_modCtx_self (accountStart u passed s) u.ctx _
    rw [hctx, ← hbudget, ← hleft]
    split <;> rfl
  rw [heq]
  split <;> exact hcharged

end Begin

/-! ### UNIT_START (R96, R279) -/

section Start

variable {s : State} {n : CoreNum} {u : UnitInst} {boxes : List (List Byte)}

/-- What starts on a core, alone or with the block that it heads. -/
structure Launched (n : Nat) (u : UnitInst) (s t : State) : Prop where
  run : ∃ v, (t.core n).run = some v ∧ v.order = u.order ∧ v.inputs = u.inputs ∧ v.seq = u.seq ∧ v.stream = u.stream ∧
    v.startAt = s.clock
  orders : (t.core n).ready.map (·.order) = ((s.core n).ready.map (·.order)).filter (· != u.order)
  seq : (t.core n).seq = .run ∨ (t.core n).seq = .wait
  noWindow : (∀ h ∈ u.inputs, slotWindow s n h = none) → (t.core n).seq = .run
  alone : batched s u = none → (t.core n).ready = (s.core n).ready.filter (fun v => v.order != u.order) ∧
    (t.ctx u.ctx).budgetLeft =
      (if (s.ctx u.ctx).budget.isSome then (s.ctx u.ctx).budgetLeft - u.wcet else (s.ctx u.ctx).budgetLeft)
  block : ∀ v ∈ (t.core n).ready, v ∈ (s.core n).ready ∨ (v.joined = true ∧ ∃ w ∈ batchOf s n u, w.order = v.order)
  others : OtherCores n s t
  mem : SameMemory s t

theorem checkBoxes_begun {t : State} (h : Begun n.val u s t) (count : Nat) : Begun n.val u s (checkBoxes n.val u count t) ∧
    (checkBoxes n.val u count t).ctxs = t.ctxs := by
  have hevent : Begun n.val u s (checkEvent n.val (some u) Cause.boxOverflow t) := h.accounts ⟨rfl, rfl, rfl, rfl, rfl⟩
  unfold checkBoxes
  repeat' split
  · exact ⟨h, rfl⟩
  · exact ⟨hevent.flag _, rfl⟩
  · exact ⟨h, rfl⟩

theorem orders_filter (us : List UnitInst) (o : Nat) :
    (us.filter (fun v => v.order != o)).map (·.order) = (us.map (·.order)).filter (· != o) := by
  rw [List.filter_map]
  rfl

theorem launch_alone (hbatched : batched s u = none) : Launched n.val u s (launch n.val boxes u s) := by
  have hlaunch : launch n.val boxes u s = checkBoxes n.val u boxes.length (beginUnit n.val boxes [] u s) := by
    unfold launch
    rw [hbatched]
  obtain ⟨hbegun, hctxs⟩ := checkBoxes_begun (beginUnit_begun (s := s) (n := n.val) (u := u) boxes []) boxes.length
  have hcharges := beginUnit_charges (s := s) (n := n.val) (u := u) boxes []
  rw [hlaunch]
  refine ⟨hbegun.run, ?_, hbegun.seq, hbegun.noWindow, fun _ => ⟨hbegun.ready, ?_⟩, fun v hv => .inl ?_, hbegun.others, hbegun.mem⟩
  · rw [hbegun.ready, orders_filter]
  · rw [← hcharges]
    unfold State.ctx
    rw [hctxs]
  · rw [hbegun.ready] at hv
    exact (List.mem_filter.mp hv).1

/-- Units of a block that have joined, marked so in the ready list. -/
def markJoined (joined ready : List UnitInst) : List UnitInst :=
  ready.map (fun v => if joined.any (fun w => w.order == v.order) then { v with joined := true } else v)

theorem orders_markJoined (joined ready : List UnitInst) : (markJoined joined ready).map (·.order) = ready.map (·.order) := by
  unfold markJoined
  rw [List.map_map]
  refine List.map_congr_left fun v _ => ?_
  dsimp only [Function.comp_apply]
  split <;> rfl

theorem mem_markJoined {joined ready : List UnitInst} {v : UnitInst} (h : v ∈ markJoined joined ready) :
    v ∈ ready ∨ (v.joined = true ∧ ∃ w ∈ joined, w.order = v.order) := by
  obtain ⟨x, hx, rfl⟩ := List.mem_map.mp h
  split
  · next hjoined =>
    obtain ⟨w, hw, horder⟩ := List.any_eq_true.mp hjoined
    exact .inr ⟨rfl, w, hw, by simpa using horder⟩
  · exact .inl hx

theorem launch_block {p : StageDecl × Nat} (hbatched : batched s u = some p) : Launched n.val u s (launch n.val boxes u s) := by
  obtain ⟨rest, hrest, hlaunch⟩ : ∃ rest, (∀ w ∈ rest, w ∈ batchOf s n.val u) ∧ launch n.val boxes u s =
      (joinBlock rest (beginUnit n.val [] rest u s)).2.modCore n.val (fun c =>
        { c with ready := markJoined (joinBlock rest (beginUnit n.val [] rest u s)).1 c.ready }) := by
    refine ⟨((batchOf s n.val u).filter (fun v => v.order != u.order)).take (32 / columnsOf p.1 u.unit - 1),
      fun w hw => (List.mem_filter.mp (List.mem_of_mem_take hw)).1, ?_⟩
    unfold launch
    rw [hbatched]
    rfl
  obtain ⟨haccounts, hmem⟩ := joinBlock_effect rest (beginUnit n.val [] rest u s)
  have hbegun := (beginUnit_begun (s := s) (n := n.val) (u := u) [] rest).accounts haccounts
  rw [hlaunch]
  generalize joinBlock rest (beginUnit n.val [] rest u s) = block at hmem hbegun
  obtain ⟨joined, t⟩ := block
  dsimp only at hmem hbegun ⊢
  have hcore : (t.modCore n.val (fun c => { c with ready := markJoined joined c.ready })).core n.val =
      { t.core n.val with ready := markJoined joined (t.core n.val).ready } := State.core_modCore_self _ _ _
  have hkeeps : KeepsWords t (t.modCore n.val (fun c => { c with ready := markJoined joined c.ready })) := modCore_keepsWords _ t
  refine ⟨?_, ?_, ?_, fun hwindow => ?_, fun hnone => ?_, fun v hv => ?_,
    fun m hm => (State.core_modCore_ne _ _ hm).trans (hbegun.others m hm), hbegun.mem.1,
    fun m w => (hkeeps.scratchpads m w).trans (hbegun.mem.2 m w)⟩
  · rw [hcore]
    exact hbegun.run
  · rw [hcore, orders_markJoined, hbegun.ready, orders_filter]
  · rw [hcore]
    exact hbegun.seq
  · rw [hcore]
    exact hbegun.noWindow hwindow
  · rw [hbatched] at hnone
    cases hnone
  · rw [hcore] at hv
    rcases mem_markJoined hv with hv | ⟨hjoined, w, hw, horder⟩
    · rw [hbegun.ready] at hv
      exact .inl (List.mem_filter.mp hv).1
    · exact .inr ⟨hjoined, w, hrest w (hmem w hw), horder⟩

theorem unitStart_launches (hmay : s.mayStart n.val = true)
    (hfirst : firstUnit ((s.core n.val).ready.filter (startable s n.val)) = some u) :
    Completes (.unitStart n boxes) s (fun t =>
      (∃ v, (t.core n.val).run = some v ∧ v.order = u.order ∧ v.inputs = u.inputs ∧ v.seq = u.seq ∧ v.stream = u.stream ∧
        v.startAt = s.clock) ∧
      (t.core n.val).ready.map (·.order) = ((s.core n.val).ready.map (·.order)).filter (· != u.order) ∧
      ((t.core n.val).seq = .run ∨ (t.core n.val).seq = .wait) ∧
      ((∀ h ∈ u.inputs, slotWindow s n.val h = none) → (t.core n.val).seq = .run) ∧
      (batched s u = none → (t.core n.val).ready = (s.core n.val).ready.filter (fun v => v.order != u.order) ∧
        (t.ctx u.ctx).budgetLeft =
          (if (s.ctx u.ctx).budget.isSome then (s.ctx u.ctx).budgetLeft - u.wcet else (s.ctx u.ctx).budgetLeft)) ∧
      (∀ v ∈ (t.core n.val).ready, v ∈ (s.core n.val).ready ∨ (v.joined = true ∧ ∃ w ∈ batchOf s n.val u, w.order = v.order)) ∧
      OtherCores n.val s t ∧ SameMemory s t) := by
  have hrun : startUnit n.val boxes s = launch n.val boxes u s := by
    unfold startUnit
    rw [if_pos hmay, hfirst]
  have hlaunched : Launched n.val u s (launch n.val boxes u s) := by
    cases hbatched : batched s u with
    | none => exact launch_alone hbatched
    | some p => exact launch_block hbatched
  exact ⟨_, congrArg Host.Outcome.next hrun, hlaunched.run, hlaunched.orders, hlaunched.seq, hlaunched.noWindow, hlaunched.alone,
    hlaunched.block, hlaunched.others, hlaunched.mem⟩

theorem unitStart_idle (h : s.mayStart n.val = false ∨ (s.core n.val).ready.filter (startable s n.val) = []) :
    Completes (.unitStart n boxes) s (fun t => t = s) := by
  have hrun : startUnit n.val boxes s = s := by
    unfold startUnit
    rcases h with hmay | hnone
    · exact if_neg (by simp [hmay])
    · rw [hnone]
      exact ite_self s
  exact ⟨s, congrArg Host.Outcome.next hrun, rfl⟩

end Start

end Sys2Proof.Machine

/-! Re-execution of a tile (R45, R93): what returns to the free queues, the unit that runs again, and the sets loaded anew. -/

namespace Sys2Proof.Machine

open Sys2Proof

section Rerun

variable {s t : State} {n : CoreNum} {u v : UnitInst}

theorem formSet_slot (c : CoreSt) (d : UnitDecl) (l : Option LayerDecl) (f base b : Nat) (setB third : Bool) (slot unit : Nat) :
    (formSet c d l f base b setB third slot unit).1.slot = slot := rfl

/-- The unit of a tile that runs again from its first unit (R45). -/
def UnitInst.again (s : State) (u : UnitInst) : UnitInst :=
  { u with
    unit := 0, wcet := ((unitDeclOf s { u with unit := 0 }).map (·.wcet)).getD u.wcet, outputs := [],
    rerun := 1, abft := false, overrun := false, retry := u.owed, owed := 0, startAt := s.clock,
    causes := u.causes.filter (fun c => !abftCause c) ++ (u.causes.filter abftCause).map Cause.corrected }

/-- The core on which it does: its accumulators are dropped, and its arrays are configured for the first unit. -/
def CoreSt.restart (v : UnitInst) (first : Option UnitDecl) (c : CoreSt) : CoreSt :=
  let c1 := { c.dropAcc with run := some v, pass := 0 }
  match first with
  | none => c1
  | some d => c1.configure d

theorem rerunTile_eq (n : CoreNum) (u : UnitInst) (s : State) : rerunTile n u s =
    chargeStart (u.again s) (chargeEnd u (s.clock - u.startAt)
      (forEach (((s.core n.val).wsets).filter (fun e => e.2.slot == u.slot)) (reloadSet n (u.again s))
        ((forEach (u.outputs.map (·.2)) forceFree s).modCore n.val (CoreSt.restart (u.again s) (unitDeclOf s { u with unit := 0 }))))) :=
  rfl

theorem restart_effect (v : UnitInst) (first : Option UnitDecl) (c : CoreSt) : (c.restart v first).run = some v ∧
    (c.restart v first).acc = [] ∧ (c.restart v first).wsets = c.wsets ∧ (c.restart v first).sp = c.sp := by
  unfold CoreSt.restart
  dsimp only
  split
  · exact ⟨rfl, rfl, rfl, rfl⟩
  · unfold CoreSt.configure
    dsimp only
    split <;> exact ⟨rfl, rfl, rfl, rfl⟩

theorem forceFree_pages (h : W64) (s : State) : (forceFree h s).pages = s.pages := by
  have hclose : ∀ (pl : PoolSt) (i : Nat) (t : State), (closeWindows pl i t).pages = t.pages := by
    intro pl i t
    unfold closeWindows
    split
    · exact forEach_keeps (·.pages) _ _ (fun _ _ => by exact rfl) t
    · rfl
  unfold forceFree
  dsimp only
  split
  · rfl
  · split
    · exact hclose _ _ _
    · rfl

/-- Core `n` runs `v` again: its accumulators are empty, and each set of its slot is still one of its slot. -/
structure Rerunning (n : Nat) (v : UnitInst) (s t : State) : Prop where
  run : ∃ cs, (t.core n).run = some { v with causes := cs }
  acc : (t.core n).acc = []
  wsets : ∀ k e, Tab.find (s.core n).wsets k = some e → e.slot = v.slot →
    ∃ w, Tab.find (t.core n).wsets k = some w ∧ w.slot = v.slot
  inj : (t.hdr (.core n)).inj = 0
  others : OtherCores n s t
  mem : SameMemory s t
  ctl : t.ctl = s.ctl

theorem Rerunning.flag (h : Rerunning n.val v s t) (cause : Nat) : Rerunning n.val v s (flagUnit n.val cause t) := by
  obtain ⟨cs, hrun⟩ := h.run
  have hcore : (flagUnit n.val cause t).core n.val = { t.core n.val with run := (t.core n.val).run.map (·.flag cause) } :=
    State.core_modCore_self _ _ _
  refine ⟨⟨addOnce cs cause, ?_⟩, ?_, fun k e he hslot => ?_, h.inj, fun m hm => (State.core_modCore_ne _ _ hm).trans (h.others m hm),
    ⟨h.mem.1, fun m w => ((flagUnit_keepsWords n.val cause t).scratchpads m w).trans (h.mem.2 m w)⟩, h.ctl⟩
  · rw [hcore, hrun]
    rfl
  · rw [hcore]
    exact h.acc
  · rw [hcore]
    exact h.wsets k e he hslot

/-- A set that is loaded anew is one of the slot of the unit that loads it. -/
theorem Rerunning.insert (h : Rerunning n.val v s t) (j : Nat) {w : WeightSet} (hw : w.slot = v.slot) :
    Rerunning n.val v s (t.modCore n.val (fun c => { c with wsets := Tab.insert c.wsets j w })) := by
  have hcore := State.core_modCore_self t n.val (fun c => { c with wsets := Tab.insert c.wsets j w })
  refine ⟨?_, ?_, fun k e he hslot => ?_, h.inj, fun m hm => (State.core_modCore_ne _ _ hm).trans (h.others m hm),
    ⟨h.mem.1, fun m x => ((modCore_keepsWords n.val t).scratchpads m x).trans (h.mem.2 m x)⟩, h.ctl⟩
  · rw [hcore]
    exact h.run
  · rw [hcore]
    exact h.acc
  · rw [hcore]
    dsimp only
    rw [Tab.find_insert]
    split
    · exact ⟨w, rfl, hw⟩
    · exact h.wsets k e he hslot

theorem Rerunning.reloadSet (h : Rerunning n.val v s t) (e : Nat × WeightSet) : Rerunning n.val v s (reloadSet n v e t) := by
  obtain ⟨cs, hrun⟩ := h.run
  have hreload : ∃ w rs, w.slot = v.slot ∧ Machine.reloadSet n v e t =
      if (readRanges n rs .clean 0 t).1 then (readRanges n rs .clean 0 t).2
      else (readRanges n rs .clean 0 t).2.modCore n.val (fun c => { c with wsets := Tab.insert c.wsets e.1 w }) := by
    unfold Machine.reloadSet
    rw [hrun]
    exact ⟨_, _, formSet_slot _ _ _ _ _ _ _ _ _ _, rfl⟩
  obtain ⟨w, rs, hslot, heq⟩ := hreload
  rw [heq, readRanges_clean h.inj]
  split
  · exact (h.flag _).insert e.1 hslot
  · exact h.insert e.1 hslot

/-- The state in which the sets are to be loaded. -/
theorem restarted (v : UnitInst) (first : Option UnitDecl) (hinj : (s.hdr (.core n.val)).inj = 0) :
    Rerunning n.val v s (s.modCore n.val (CoreSt.restart v first)) := by
  obtain ⟨hrun, hacc, hsets, hsp⟩ := restart_effect v first (s.core n.val)
  have hcore := State.core_modCore_self s n.val (CoreSt.restart v first)
  refine ⟨⟨v.causes, ?_⟩, ?_, fun k e he hslot => ⟨e, ?_, hslot⟩, hinj, fun m hm => State.core_modCore_ne _ _ hm,
    ⟨fun _ => rfl, fun m w => ?_⟩, rfl⟩
  · rw [hcore, hrun]
  · rw [hcore, hacc]
  · rw [hcore, hsets, he]
  · unfold State.spWord
    by_cases hm : m = n.val
    · rw [hm, hcore, hsp]
    · rw [State.core_modCore_ne _ _ hm]

theorem rerunTile_effect (hinj : (s.hdr (.core n.val)).inj = 0) :
    (∃ cs, ((rerunTile n u s).core n.val).run = some { u.again s with causes := cs }) ∧ ((rerunTile n u s).core n.val).acc = [] ∧
      (∀ k e, Tab.find (s.core n.val).wsets k = some e → e.slot = u.slot →
        ∃ w, Tab.find ((rerunTile n u s).core n.val).wsets k = some w ∧ w.slot = u.slot) ∧
      (u.outputs = [] → OtherCores n.val s (rerunTile n u s)) ∧ SameMemory s (rerunTile n u s) ∧ (rerunTile n u s).ctl = s.ctl := by
  have hfreed : Returned s (forEach (u.outputs.map (·.2)) forceFree s) := .forEach _ forceFree_returned s
  have hpages := forEach_keeps (·.pages) (u.outputs.map (·.2)) forceFree forceFree_pages s
  have hnone : u.outputs = [] → forEach (u.outputs.map (·.2)) forceFree s = s := fun h => by rw [h]; rfl
  rw [rerunTile_eq]
  generalize forEach (u.outputs.map (·.2)) forceFree s = s0 at hfreed hpages hnone ⊢
  have hstart := restarted (s := s0) (n := n) (u.again s) (unitDeclOf s { u with unit := 0 }) (by rw [hdr_of_pages hpages]; exact hinj)
  have hloaded := forEach_inv (Rerunning n.val (u.again s) s0) (((s.core n.val).wsets).filter (fun e => e.2.slot == u.slot))
    (reloadSet n (u.again s)) (fun e _ h => h.reloadSet e) _ hstart
  generalize forEach _ (reloadSet n (u.again s)) _ = t at hloaded ⊢
  have haccounts := (chargeEnd_accounts u (s.clock - u.startAt) t).trans (chargeStart_accounts (u.again s) _)
  generalize chargeStart (u.again s) _ = t' at haccounts ⊢
  obtain ⟨ws, cs, hcore⟩ := hfreed.core n.val
  refine ⟨?_, ?_, fun k e he hslot => ?_, fun hout m hm => ?_, ⟨fun a => ?_, fun m w => ?_⟩, ?_⟩
  · rw [haccounts.core]
    exact hloaded.run
  · rw [haccounts.core]
    exact hloaded.acc
  · rw [haccounts.core]
    exact hloaded.wsets k e (by rw [hcore]; exact he) hslot
  · rw [haccounts.core, hloaded.others m hm, hnone hout]
  · exact (haccounts.sameMemory.1 a).trans ((hloaded.mem.1 a).trans (sameDram_of_eq hfreed.dram a))
  · exact (haccounts.sameMemory.2 m w).trans ((hloaded.mem.2 m w).trans (hfreed.keeps.scratchpads m w))
  · exact haccounts.ctl.trans (hloaded.ctl.trans hfreed.ctl)

end Rerun

end Sys2Proof.Machine

/-! The end of a unit (R59, R174, R179, R299): its inputs go back, the core shows its time and is IDLE, and a record unit forms the record. -/

namespace Sys2Proof.Machine

open Sys2Proof

/-! ### Inputs that go back (R179) -/

section Inputs

variable {n : CoreNum}

theorem core_sameRun {c : CoreSt} {u : UnitInst} (hrun : c.run = some u) :
    c = { c with windows := c.windows, run := some { u with inputs := u.inputs, causes := u.causes } } := by
  rw [← hrun]

/-- The unit of core `n` gives up its first input. -/
def firstInputGone (n : Nat) (s : State) : State :=
  s.modCore n (fun c => { c with run := c.run.map (fun v => { v with inputs := v.inputs.drop 1 }) })

theorem returnAll_succ {s : State} {u : UnitInst} {h : W64} (hrun : (s.core n.val).run = some u) (hhead : u.inputs.head? = some h)
    (hwaits : (returnTurn (.core n) h s).1 ≠ .waits) (fuel : Nat) :
    returnAll (fuel + 1) n s = returnAll fuel n (firstInputGone n.val (returnTurn (.core n) h s).2) := by
  conv_lhs => unfold returnAll
  rw [hrun, Option.bind_some, hhead]
  dsimp only
  generalize returnTurn (.core n) h s = turn at hwaits
  obtain ⟨turn, s1⟩ := turn
  cases turn with
  | waits => exact absurd rfl hwaits
  | refused => rfl
  | done => rfl

/-- Returns that their free queues take: nothing waits, and of the core only windows, and inputs and flags of its unit change. -/
theorem returnAll_effect : ∀ (fuel : Nat) (s : State) (u : UnitInst), (s.core n.val).run = some u →
    (∀ h ∈ u.inputs, TakesReturn s h) →
    Undisturbed s (returnAll fuel n s) ∧ ∃ ws is cs, (returnAll fuel n s).core n.val =
      { s.core n.val with windows := ws, run := some { u with inputs := is, causes := cs } }
  | 0, s, u, hrun, _ => ⟨.refl s, _, _, _, core_sameRun hrun⟩
  | fuel + 1, s, u, hrun, htakes => by
    cases hhead : u.inputs.head? with
    | none =>
      have hstays : returnAll (fuel + 1) n s = s := by
        unfold returnAll
        rw [hrun, Option.bind_some, hhead]
      rw [hstays]
      exact ⟨.refl s, _, _, _, core_sameRun hrun⟩
    | some h =>
      obtain ⟨hwaits, hturn⟩ := returnTurn_returned (a := .core n) (htakes h (List.mem_of_mem_head? hhead))
      rw [returnAll_succ hrun hhead hwaits]
      generalize (returnTurn (.core n) h s).2 = s1 at hturn ⊢
      obtain ⟨ws, cs, hcore⟩ := hturn.core n.val
      have hdropped : (firstInputGone n.val s1).core n.val =
          { s.core n.val with windows := ws, run := some { u with inputs := u.inputs.drop 1, causes := cs } } := by
        unfold firstInputGone
        rw [State.core_modCore_self, hcore]
        unfold CoreSt.reflag
        rw [hrun]
        rfl
      have hmoved : Undisturbed s (firstInputGone n.val s1) := hturn.toUndisturbed.trans (modCore_undisturbed n.val s1)
      obtain ⟨hrest, ws', is', cs', hcore'⟩ := returnAll_effect fuel (firstInputGone n.val s1) _ (congrArg CoreSt.run hdropped)
        (fun x hx => hmoved.takesReturn (htakes x (List.mem_of_mem_drop hx)))
      exact ⟨hmoved.trans hrest, ws', is', cs', by rw [hcore', hdropped]⟩

/-- Whether a next unit follows does not turn on inputs and flags. -/
theorem nextUnit_none {s t : State} {u : UnitInst} (h : nextUnit s u = none) (hstreams : t.streams = s.streams)
    (himages : t.images = s.images) (is : List W64) (cs : List Nat) : nextUnit t { u with inputs := is, causes := cs } = none := by
  have hdecl : stageDeclOf t { u with inputs := is, causes := cs } = stageDeclOf s u := by
    unfold stageDeclOf State.stageOf State.stream?
    rw [hstreams, himages]
  unfold nextUnit at h ⊢
  rw [hdecl]
  exact Option.map_eq_none_iff.mpr (Option.map_eq_none_iff.mp h)

end Inputs

/-! ### The core that a unit leaves (R59, R60) -/

/-- Unit `u` gives core `n` up, with the units of `next` ready there. -/
def unitLeaves (n : Nat) (u : UnitInst) (next : List UnitInst) (s : State) : State :=
  s.modCore n (fun c => ({ c with ready := next ++ c.ready } : CoreSt).handOn u)

/-- Core `n` of `t` is IDLE without a unit, and nothing else has changed since `s` but windows of that core, and waiting times. -/
structure UnitLeft (n : Nat) (next : List UnitInst) (s t : State) : Prop where
  run : (t.core n).run = none
  seq : (t.core n).seq = .idle
  ready : (t.core n).untimed.ready = ({ s.core n with ready := next ++ (s.core n).ready } : CoreSt).untimed.ready
  unitLast : (t.core n).unitLast = (s.core n).unitLast
  unitMax : (t.core n).unitMax = (s.core n).unitMax
  others : ∀ m, m ≠ n → (t.core m).untimed = (s.core m).untimed
  mem : SameMemory s t
  streams : t.streams = s.streams
  qmg : t.qmg = s.qmg
  ctl : t.ctl = s.ctl

section Leaving

variable {s t : State} {n : Nat} {u : UnitInst}

theorem leave_eq (c : CoreSt) :
    ∃ ws, c.leave = { c with run := none, seq := .idle, strands := 0, bundles := 0, pass := 0, windows := ws } := by
  unfold CoreSt.leave
  dsimp only
  split
  · exact ⟨_, rfl⟩
  · exact ⟨_, rfl⟩

/-- Without a unit that has joined the block, the core is given up. -/
theorem handOn_leaves {c : CoreSt} (h : ∀ x ∈ c.ready, x.joined = false) : c.handOn u = c.leave := by
  have hnone : c.ready.find? (·.joined) = none := List.find?_eq_none.mpr fun x hx => by simp [h x hx]
  unfold CoreSt.handOn
  rw [hnone]

/-- The waiting time of a unit, which counts from now where it has become ready (R283). -/
def stampUnit (s t : State) (u : UnitInst) : UnitInst :=
  if unitReady t u && !unitReady s u then { u with readyAt := t.clock } else u

/-- The ready units of a core with their waiting times. -/
def CoreSt.stamp (s t : State) (c : CoreSt) : CoreSt := { c with ready := c.ready.map (stampUnit s t) }

theorem core_stampReady (s t : State) (m : Nat) : (stampReady s t).core m = (t.core m).stamp s t := by
  have hfind : Tab.find (stampReady s t).cores m = (Tab.find t.cores m).map (CoreSt.stamp s t) :=
    Tab.find_map (CoreSt.stamp s t) m t.cores
  unfold State.core Tab.get
  rw [hfind]
  cases Tab.find t.cores m <;> rfl

theorem untimed_stampReady (s t : State) (m : Nat) : ((stampReady s t).core m).untimed = (t.core m).untimed := by
  have hstamp : ∀ u, ({ stampUnit s t u with readyAt := 0 } : UnitInst) = { u with readyAt := 0 } := by
    intro u
    unfold stampUnit
    split <;> rfl
  rw [core_stampReady]
  unfold CoreSt.untimed CoreSt.stamp
  simp only [List.map_map, Function.comp_def, hstamp]

theorem unitLeaves_left (x : State) (u : UnitInst) (next : List UnitInst)
    (h : ∀ y ∈ next ++ (s.core n).ready, y.joined = false) : UnitLeft n next s (stampReady x (unitLeaves n u next s)) := by
  obtain ⟨ws, hleave⟩ := leave_eq { s.core n with ready := next ++ (s.core n).ready }
  have hcore : (unitLeaves n u next s).core n = { s.core n with
      ready := next ++ (s.core n).ready, run := none, seq := .idle, strands := 0, bundles := 0, pass := 0, windows := ws } := by
    unfold unitLeaves
    rw [State.core_modCore_self, handOn_leaves h, hleave]
  have hothers : OtherCores n s (unitLeaves n u next s) := fun m hm => State.core_modCore_ne _ _ hm
  have hstamped := core_stampReady x (unitLeaves n u next s)
  refine ⟨?_, ?_, ?_, ?_, ?_, fun m hm => ?_, ⟨fun _ => rfl, fun m w => ?_⟩, rfl, rfl, rfl⟩
  · rw [hstamped, hcore]
    rfl
  · rw [hstamped, hcore]
    rfl
  · rw [untimed_stampReady, hcore]
    rfl
  · rw [hstamped, hcore]
    rfl
  · rw [hstamped, hcore]
    rfl
  · rw [untimed_stampReady, hothers m hm]
  · unfold State.spWord
    rw [hstamped]
    by_cases hm : m = n
    · rw [hm, hcore]
      rfl
    · rw [hothers m hm]
      rfl

end Leaving

/-! ### What a unit accounts for at its end (R122, R282, R299) -/

section Ending

variable {s : State} {n : CoreNum} {u : UnitInst}

theorem noteStep_accounts (u : UnitInst) (s : State) : Accounts s (noteStep u s) := by
  unfold noteStep
  split
  · exact .refl s
  · split
    · exact .refl s
    · exact modStream_accounts _ _ s

/-- The steps of a job touch neither the items nor the class of its stream. -/
theorem noteStep_stream {id : Nat} {st : Stream} (h : s.stream? id = some st) :
    ∃ st', (noteStep u s).stream? id = some st' ∧ st'.items = st.items ∧ st'.cls = st.cls := by
  unfold noteStep
  split
  · exact ⟨st, h, rfl, rfl⟩
  · split
    · exact ⟨st, h, rfl, rfl⟩
    · rw [State.stream?_modStream]
      split
      · next heq =>
        rw [← heq, h]
        exact ⟨_, rfl, rfl, rfl⟩
      · exact ⟨st, h, rfl, rfl⟩

theorem chargeEnd_streams (u : UnitInst) (took : Nat) (s : State) : (chargeEnd u took s).streams = s.streams := by
  unfold chargeEnd
  dsimp only
  split
  · simp
  · rfl

/-- The unit's time is charged, and the core shows it (R67, R282). -/
def timeShown (n : Nat) (u : UnitInst) (s : State) : State :=
  noteStep u ((chargeEnd u (s.clock - u.startAt) s).modCore n (fun c => c.timed (s.clock - u.startAt)))

theorem finishUnit_next {payload : List Byte} {v : UnitInst} (h : nextUnit s u = some v) :
    finishUnit n u payload s = stampReady s (unitLeaves n.val u [v] (timeShown n.val u s)) := by
  unfold finishUnit
  dsimp only
  rw [h]
  rfl

/-- The last unit of a stage notes its push, and reports what its checks owe. -/
def pushNoted (n : Nat) (u : UnitInst) (s : State) : State :=
  notePushed u (reportOwed n u (u.retry != 0 && !u.abft) (timeShown n u s))

theorem finishUnit_last {payload : List Byte} (h : nextUnit s u = none) :
    finishUnit n u payload s = stampReady s (unitLeaves n.val u [] (endRecord u payload (pushNoted n.val u s))) := by
  unfold finishUnit
  dsimp only
  rw [h]
  rfl

theorem timeShown_effect (n : CoreNum) (u : UnitInst) (s : State) :
    (timeShown n.val u s).core n.val = (s.core n.val).timed (s.clock - u.startAt) ∧ OtherCores n.val s (timeShown n.val u s) ∧
      SameMemory s (timeShown n.val u s) ∧ (timeShown n.val u s).ctl = s.ctl := by
  have hcharged := chargeEnd_accounts u (s.clock - u.startAt) s
  have hnoted := noteStep_accounts u
    ((chargeEnd u (s.clock - u.startAt) s).modCore n.val (fun c => c.timed (s.clock - u.startAt)))
  have hkeeps := modCore_keepsWords n.val (f := fun c => c.timed (s.clock - u.startAt)) (chargeEnd u (s.clock - u.startAt) s)
  unfold timeShown
  refine ⟨?_, fun m hm => ?_, ⟨fun a => ?_, fun m w => ?_⟩, hnoted.ctl.trans hcharged.ctl⟩
  · rw [hnoted.core, State.core_modCore_self, hcharged.core]
  · rw [hnoted.core, State.core_modCore_ne _ _ hm, hcharged.core]
  · exact (hnoted.sameMemory.1 a).trans (hcharged.sameMemory.1 a)
  · exact (hnoted.sameMemory.2 m w).trans ((hkeeps.scratchpads m w).trans (hcharged.sameMemory.2 m w))

theorem timeShown_stream {id : Nat} {st : Stream} (h : s.stream? id = some st) :
    ∃ st', (timeShown n.val u s).stream? id = some st' ∧ st'.items = st.items ∧ st'.cls = st.cls := by
  refine noteStep_stream ?_
  unfold State.stream? at h ⊢
  exact (congrArg (Tab.find · id) (chargeEnd_streams u _ s)).trans h

theorem reportOwed_accounts (c : Nat) (u : UnitInst) (corrected : Bool) (s : State) : Accounts s (reportOwed c u corrected s) := by
  obtain ⟨f, h⟩ := reportOwed_eq c u corrected s
  rw [h]
  exact ⟨rfl, rfl, rfl, rfl, rfl⟩

theorem reportOwed_streams (c : Nat) (u : UnitInst) (corrected : Bool) (s : State) : (reportOwed c u corrected s).streams = s.streams := by
  obtain ⟨f, h⟩ := reportOwed_eq c u corrected s
  rw [h]

/-- A push that is noted leaves the class of the stream, and the stamp of the item. -/
theorem notePushed_stream {st : Stream} (h : s.stream? u.stream = some st) :
    ∃ st', (notePushed u s).stream? u.stream = some st' ∧ st'.cls = st.cls ∧
      ∀ it, st.item? u.seq = some it → ∃ it', st'.item? u.seq = some it' ∧ it'.stamp = it.stamp := by
  refine ⟨_, (State.stream?_modStream_self _ _ _).trans (congrArg _ h), rfl, fun it hit => ?_⟩
  refine ⟨_, (find?_map_key Item.seq u.seq (f := fun it => { it with
    tiles := Tab.insert it.tiles u.slot (addOnce (Tab.get it.tiles [] u.slot) u.tile),
    pushed := if u.last then addOnce it.pushed u.slot else it.pushed }) (fun _ => rfl) st.items).trans
      (congrArg (Option.map _) hit), rfl⟩

theorem endRecord_accounts (u : UnitInst) (payload : List Byte) (s : State) : Accounts s (endRecord u payload s) := by
  unfold endRecord
  repeat' split
  · exact .refl s
  · exact .refl s
  · exact ⟨rfl, rfl, rfl, rfl, rfl⟩
  · unfold formRecord
    repeat' split
    · exact .refl s
    · exact .refl s
    · exact modStream_accounts _ _ s
  · exact modStream_accounts _ _ s

/-- A record unit outside TRIPLEX forms the record of its item (R299). -/
theorem endRecord_forms {st : Stream} {it : Item} {payload : List Byte} (hst : s.stream? u.stream = some st) (hrecord : u.record = true)
    (hlast : u.last = true) (hcls : st.cls ≠ .triplex) (hit : st.item? u.seq = some it) :
    ∃ st' r, (endRecord u payload s).stream? u.stream = some st' ∧ st'.item? u.seq = none ∧ r ∈ st'.formed ∧ r.seq = u.seq ∧
      r.payload = payload ∧ r.stamp = it.stamp ∧ r.placeEpoch = s.ctl.placeEpoch := by
  have hforms : endRecord u payload s = formRecord u.stream u.seq (u.causes ++ itemFlags u.stream u.seq s) [] payload s := by
    unfold endRecord
    rw [hst]
    dsimp only
    rw [if_neg (by simp [hrecord, hlast]), if_neg hcls, if_pos (by simp [hit])]
  obtain ⟨st', r, hst', hr, hnone, hseq, hstamp, hepoch, hpayload, -⟩ :=
    formRecord_effect hst hit (u.causes ++ itemFlags u.stream u.seq s) [] payload
  exact ⟨st', r, hforms ▸ hst', hnone, hr, hseq, hpayload, hstamp, hepoch⟩

/-- One of a copy keeps its output for the vote (R305). -/
theorem endRecord_shows {st : Stream} {payload : List Byte} (hst : s.stream? u.stream = some st) (hrecord : u.record = true)
    (hlast : u.last = true) (hcls : st.cls = .triplex) : ∃ x ∈ (endRecord u payload s).qmg.shown,
      x.stream = u.stream ∧ x.copy = u.copy ∧ x.seq = u.seq ∧ x.payload = payload := by
  have hshows : endRecord u payload s = showOutput u payload s := by
    unfold endRecord
    rw [hst]
    dsimp only
    rw [if_neg (by simp [hrecord, hlast]), if_pos hcls]
  rw [hshows]
  exact ⟨_, List.mem_append_right _ (List.mem_singleton.mpr rfl), rfl, rfl, rfl, rfl⟩

theorem pushNoted_accounts (n : Nat) (u : UnitInst) (s : State) : Accounts (timeShown n u s) (pushNoted n u s) :=
  (reportOwed_accounts n u _ _).trans (modStream_accounts _ _ _)

/-- Up to its record the last unit leaves the class of its stream, and the stamp of its item. -/
theorem pushNoted_stream {st : Stream} (h : s.stream? u.stream = some st) :
    ∃ st', (pushNoted n.val u s).stream? u.stream = some st' ∧ st'.cls = st.cls ∧
      ∀ it, st.item? u.seq = some it → ∃ it', st'.item? u.seq = some it' ∧ it'.stamp = it.stamp := by
  obtain ⟨st1, hst1, hitems, hcls1⟩ := timeShown_stream (n := n) (u := u) h
  have howed : (reportOwed n.val u (u.retry != 0 && !u.abft) (timeShown n.val u s)).stream? u.stream = some st1 := by
    unfold State.stream?
    rw [reportOwed_streams]
    exact hst1
  obtain ⟨st2, hst2, hcls2, hitem⟩ := notePushed_stream howed
  refine ⟨st2, hst2, hcls2.trans hcls1, fun it hit => hitem it ?_⟩
  unfold Stream.item?
  rw [hitems]
  exact hit

/-- The core and the memories once the record of a last unit is formed. -/
theorem lastRecorded_effect (n : CoreNum) (u : UnitInst) (payload : List Byte) (s : State) :
    (endRecord u payload (pushNoted n.val u s)).core n.val = (s.core n.val).timed (s.clock - u.startAt) ∧
      SameMemory s (endRecord u payload (pushNoted n.val u s)) ∧ (endRecord u payload (pushNoted n.val u s)).ctl = s.ctl := by
  obtain ⟨hcore, -, hmem, hctl⟩ := timeShown_effect n u s
  have haccounts := (pushNoted_accounts n.val u s).trans (endRecord_accounts u payload _)
  exact ⟨(haccounts.core _).trans hcore, ⟨fun a => (haccounts.sameMemory.1 a).trans (hmem.1 a),
    fun m w => (haccounts.sameMemory.2 m w).trans (hmem.2 m w)⟩, haccounts.ctl.trans hctl⟩

theorem lastRecorded_forms {st : Stream} {it : Item} {payload : List Byte} (hst : s.stream? u.stream = some st) (hrecord : u.record = true)
    (hlast : u.last = true) (hcls : st.cls ≠ .triplex) (hit : st.item? u.seq = some it) :
    ∃ st' r, (endRecord u payload (pushNoted n.val u s)).stream? u.stream = some st' ∧ st'.item? u.seq = none ∧ r ∈ st'.formed ∧
      r.seq = u.seq ∧ r.payload = payload ∧ r.stamp = it.stamp ∧ r.placeEpoch = s.ctl.placeEpoch := by
  obtain ⟨st1, hst1, hcls1, hitem⟩ := pushNoted_stream (n := n) hst
  obtain ⟨it1, hit1, hstamp1⟩ := hitem it hit
  obtain ⟨st2, r, hst2, hnone, hr, hseq, hpayload, hstamp, hepoch⟩ :=
    endRecord_forms (payload := payload) hst1 hrecord hlast (hcls1 ▸ hcls) hit1
  have hctl := (pushNoted_accounts n.val u s).ctl.trans (timeShown_effect n u s).2.2.2
  exact ⟨st2, r, hst2, hnone, hr, hseq, hpayload, hstamp.trans hstamp1, by rw [hepoch, hctl]⟩

theorem lastRecorded_shows {st : Stream} {payload : List Byte} (hst : s.stream? u.stream = some st) (hrecord : u.record = true)
    (hlast : u.last = true) (hcls : st.cls = .triplex) : ∃ x ∈ (endRecord u payload (pushNoted n.val u s)).qmg.shown,
      x.stream = u.stream ∧ x.copy = u.copy ∧ x.seq = u.seq ∧ x.payload = payload := by
  obtain ⟨st1, hst1, hcls1, -⟩ := pushNoted_stream (n := n) hst
  exact endRecord_shows hst1 hrecord hlast (hcls1.trans hcls)

end Ending

end Sys2Proof.Machine

/-! UNIT_COMPLETE (R59, R93, R299): a tile that runs again, a unit that a next one follows, and the last unit of a stage. -/

namespace Sys2Proof.Machine

open Sys2Proof

section Complete

variable {s : State} {n : CoreNum} {u : UnitInst} {payload : List Byte} (hwait : NoneWaits s) (hrun : (s.core n.val).run = some u)
  (hseq : (s.core n.val).seq = .run ∨ (s.core n.val).seq = .drain) (hclocks : s.pwr.stopped = false) (hwaits : s.waitOf n.val = none)

include hwait in
/-- What a UNIT_COMPLETE comes to, with nothing waiting inside the device. -/
theorem completes_unitComplete {t : State} {P : State → Prop} (h : completeUnit n payload s = t) (hctl : t.ctl = s.ctl) (hP : P t) :
    Completes (.unitComplete n payload) s P := by
  refine ⟨_, congrArg Host.Outcome.next (congrArg settle h), ?_⟩
  rw [settle_none ((congrArg (·.waiting) hctl).trans hwait.1) ((congrArg (·.fences) hctl).trans hwait.2)]
  exact hP

include hrun hseq hclocks hwaits

theorem completeUnit_reruns (hrerun : mustRerun s u = true) : completeUnit n payload s = rerunTile n u s := by
  unfold completeUnit
  rw [hrun]
  dsimp only
  rw [if_neg (by simpa [hclocks, hwaits] using fun h => hseq.resolve_left h), if_pos hrerun]

/-- A unit without an output left to push hands its inputs over, unless the next one takes them, and ends. -/
theorem completeUnit_ends (hrerun : mustRerun s u = false) (hmay : mayEnd s n.val u = true) (hout : u.outputs = []) {s1 : State}
    (hs1 : (if (nextUnit s u).isSome then s else returnAll u.inputs.length n s) = s1) {v : UnitInst} (hrun1 : (s1.core n.val).run = some v)
    (hwaits1 : s1.waitOf n.val = none) : completeUnit n payload s = finishUnit n v (outputBytes s n.val u payload) s1 := by
  have hover : ∀ out, handOver n u out s = s1 := by
    intro out
    rw [← hs1]
    unfold handOver
    simp only [hout, List.length_nil, pushAll, hwaits, Option.isSome_none, Bool.false_or]
  unfold completeUnit
  rw [hrun]
  dsimp only
  rw [if_neg (by simpa [hclocks, hwaits] using fun h => hseq.resolve_left h), if_neg (by simp [hrerun]), if_neg (by simp [hmay]), hover,
    hrun1]
  exact if_pos (by simp [hwaits1])

include hwait

theorem unitComplete_reruns (hrerun : mustRerun s u = true) (hinj : (s.hdr (.core n)).inj = 0) :
    Completes (.unitComplete n payload) s (fun t =>
      (∃ v, (t.core n.val).run = some v ∧ v.rerun = 1 ∧ v.order = u.order ∧ v.seq = u.seq ∧ v.tile = u.tile ∧ v.retry = u.owed ∧
        v.startAt = s.clock ∧ v.unit = 0 ∧ v.outputs = []) ∧ (t.core n.val).acc = [] ∧
      (∀ k e, Tab.find (s.core n.val).wsets k = some e → e.slot = u.slot →
        ∃ w, Tab.find (t.core n.val).wsets k = some w ∧ w.slot = u.slot) ∧
      (u.outputs = [] → OtherCores n.val s t) ∧ SameMemory s t) := by
  obtain ⟨⟨cs, hagain⟩, hacc, hsets, hothers, hmem, hctl⟩ := rerunTile_effect (n := n) (u := u) hinj
  exact completes_unitComplete hwait (completeUnit_reruns hrun hseq hclocks hwaits hrerun) hctl
    ⟨⟨_, hagain, rfl, rfl, rfl, rfl, rfl, rfl, rfl, rfl⟩, hacc, hsets, hothers, hmem⟩

theorem unitComplete_next (hrerun : mustRerun s u = false) (hmay : mayEnd s n.val u = true) (hout : u.outputs = []) {v : UnitInst}
    (hnext : nextUnit s u = some v) (hjoined : ∀ x ∈ (s.core n.val).ready, x.joined = false) (hfirst : u.joined = false) :
    Completes (.unitComplete n payload) s (fun t => (t.core n.val).run = none ∧ (t.core n.val).seq = .idle ∧
      (t.core n.val).untimed.ready = ({ s.core n.val with ready := v :: (s.core n.val).ready } : CoreSt).untimed.ready ∧
      (t.core n.val).unitLast = sat32 (s.clock - u.startAt) ∧
      (∀ m, m ≠ n.val → (t.core m).untimed = (s.core m).untimed) ∧ SameMemory s t) := by
  have hends := completeUnit_ends (payload := payload) hrun hseq hclocks hwaits hrerun hmay hout (s1 := s)
    (if_pos (by rw [hnext]; rfl)) hrun hwaits
  rw [finishUnit_next hnext] at hends
  have hjoins : v.joined = u.joined := by
    obtain ⟨d, -, rfl⟩ := Option.map_eq_some_iff.mp hnext
    rfl
  obtain ⟨hcore, hothers, hmem, hctl⟩ := timeShown_effect n u s
  have hleft : UnitLeft n.val [v] (timeShown n.val u s) (stampReady s (unitLeaves n.val u [v] (timeShown n.val u s))) := by
    refine unitLeaves_left s u [v] fun y hy => ?_
    rw [hcore] at hy
    rcases List.mem_cons.mp hy with rfl | hy
    · exact hjoins.trans hfirst
    · exact hjoined y hy
  refine completes_unitComplete hwait hends (hleft.ctl.trans hctl) ⟨hleft.run, hleft.seq, ?_, ?_, fun m hm => ?_,
    fun a => (hleft.mem.1 a).trans (hmem.1 a), fun m w => (hleft.mem.2 m w).trans (hmem.2 m w)⟩
  · rw [hleft.ready, hcore]
    rfl
  · rw [hleft.unitLast, hcore]
    rfl
  · rw [hleft.others m hm, hothers m hm]

theorem unitComplete_last (hrerun : mustRerun s u = false) (hmay : mayEnd s n.val u = true) (hout : u.outputs = [])
    (hnext : nextUnit s u = none) (hjoined : ∀ x ∈ (s.core n.val).ready, x.joined = false) (hfrozen : s.qmg.frozen = false)
    (hheld : ∀ h ∈ u.inputs, ∀ pl, s.pool? (Bits.ofHandle h).pool = some pl → (s.queue pl.freeQueue).state ≠ .held) :
    Completes (.unitComplete n payload) s (fun t => (t.core n.val).run = none ∧ (t.core n.val).seq = .idle ∧
      (t.core n.val).untimed.ready = (s.core n.val).untimed.ready ∧ (t.core n.val).unitLast = sat32 (s.clock - u.startAt) ∧
      (t.core n.val).unitMax = max (s.core n.val).unitMax (sat32 (s.clock - u.startAt)) ∧ SameMemory s t ∧
      (∀ st it, s.stream? u.stream = some st → u.record = true → u.last = true → st.cls ≠ .triplex →
        st.item? u.seq = some it → ∃ st' r, t.stream? u.stream = some st' ∧ st'.item? u.seq = none ∧ r ∈ st'.formed ∧
          r.seq = u.seq ∧ r.payload = outputBytes s n.val u payload ∧ r.stamp = it.stamp ∧ r.placeEpoch = s.ctl.placeEpoch) ∧
      (∀ st, s.stream? u.stream = some st → u.record = true → u.last = true → st.cls = .triplex →
        ∃ x ∈ t.qmg.shown, x.stream = u.stream ∧ x.copy = u.copy ∧ x.seq = u.seq ∧
          x.payload = outputBytes s n.val u payload)) := by
  obtain ⟨hmoved, ws, is, cs, hcore1⟩ := returnAll_effect u.inputs.length s u hrun (fun h hh => ⟨hfrozen, hheld h hh⟩)
  have hwaits1 : (returnAll u.inputs.length n s).waitOf n.val = none := by
    unfold State.waitOf
    rw [hmoved.waiters]
    exact hwaits
  have hends := completeUnit_ends (payload := payload) hrun hseq hclocks hwaits hrerun hmay hout (if_neg (by rw [hnext]; simp))
    (congrArg CoreSt.run hcore1) hwaits1
  rw [finishUnit_last (nextUnit_none hnext hmoved.streams hmoved.images is cs)] at hends
  generalize outputBytes s n.val u payload = out at hends ⊢
  generalize returnAll u.inputs.length n s = s1 at hmoved hcore1 hends
  have hsame : ∀ st, s.stream? u.stream = some st → s1.stream? u.stream = some st := by
    intro st hst
    unfold State.stream?
    rw [hmoved.streams]
    exact hst
  obtain ⟨hcore2, hmem2, hctl2⟩ := lastRecorded_effect n { u with inputs := is, causes := cs } out s1
  have hleft := unitLeaves_left (n := n.val) s1 { u with inputs := is, causes := cs } [] (fun y hy => hjoined y (by
    rw [hcore2, hcore1] at hy
    exact hy))
  have htook : s1.clock - u.startAt = s.clock - u.startAt := by rw [hmoved.clock]
  refine completes_unitComplete hwait hends (hleft.ctl.trans (hctl2.trans hmoved.ctl)) ⟨hleft.run, hleft.seq, ?_, ?_, ?_,
    ⟨fun a => ?_, fun m w => ?_⟩, fun st it hst hrecord hlast hcls hit => ?_, fun st hst hrecord hlast hcls => ?_⟩
  · rw [hleft.ready, hcore2, hcore1]
    rfl
  · rw [hleft.unitLast, hcore2]
    exact congrArg sat32 htook
  · rw [hleft.unitMax, hcore2, hcore1]
    exact congrArg (fun took => max (s.core n.val).unitMax (sat32 took)) htook
  · exact (hleft.mem.1 a).trans ((hmem2.1 a).trans (sameDram_of_eq hmoved.dram a))
  · exact (hleft.mem.2 m w).trans ((hmem2.2 m w).trans (hmoved.keeps.scratchpads m w))
  · rw [← hmoved.ctl]
    unfold State.stream?
    rw [hleft.streams]
    exact lastRecorded_forms (n := n) (u := { u with inputs := is, causes := cs }) (hsame st hst) hrecord hlast hcls hit
  · rw [hleft.qmg]
    exact lastRecorded_shows (n := n) (u := { u with inputs := is, causes := cs }) (hsame st hst) hrecord hlast hcls

end Complete

/-- Settles O45: a start is accounting and the change of one core; an end is the return of the inputs, the record, and a core that is
left; a tile that runs again begins anew on the same core. -/
theorem unitsStartAndComplete : Obligations.UnitsStartAndComplete := by
  unfold Obligations.UnitsStartAndComplete
  refine ⟨fun s n boxes => ⟨fun u => unitStart_launches, unitStart_idle⟩, fun s n payload u hwait hrun hseq hclocks hwaits =>
    ⟨unitComplete_reruns hwait hrun hseq hclocks hwaits, fun hrerun hmay hout => ⟨fun v => ?_, ?_⟩⟩⟩
  · exact unitComplete_next hwait hrun hseq hclocks hwaits hrerun hmay hout
  · exact unitComplete_last hwait hrun hseq hclocks hwaits hrerun hmay hout

end Sys2Proof.Machine

/-! Epochs that end and handles that go back (R65, R135, R179, R197): each leaves every context and every word of a scratchpad as it was.
`Reclaims` holds between two states when this is so and the change is `Steady`. -/

namespace Sys2Proof.Machine

open Sys2Proof

/-! ### The relation -/

/-- A reaction of the device leads from `s` to `t` and changes no context and no word of a scratchpad. -/
structure Reclaims (s t : State) : Prop where
  steady : Steady s t
  keeps : KeepsWords s t
  ctxs : t.ctxs = s.ctxs

theorem Reclaims.refl (s : State) : Reclaims s s := ⟨.refl s, .refl s, rfl⟩

theorem Reclaims.trans {s t u : State} (h : Reclaims s t) (k : Reclaims t u) : Reclaims s u :=
  ⟨h.steady.trans k.steady, h.keeps.trans k.keeps, k.ctxs.trans h.ctxs⟩

theorem Reclaims.forEach {α : Type} (xs : List α) {f : α → State → State} (h : ∀ x s, Reclaims s (f x s)) (s : State) :
    Reclaims s (forEach xs f s) :=
  forEach_inv (Reclaims s) xs f (fun x _ ht => ht.trans (h x _)) s (.refl s)

theorem Reclaims.ctx {s t : State} (h : Reclaims s t) (c : Nat) : t.ctx c = s.ctx c := by
  unfold State.ctx
  rw [h.ctxs]

theorem Reclaims.sameMemory {s t : State} (h : Reclaims s t) : SameMemory s t := h.keeps.sameMemory h.steady.dram

/-- Where nothing waits inside the device, nothing does afterwards. -/
theorem Reclaims.settle {s t : State} (h : Reclaims s t) (hwait : NoneWaits s) : settle t = t :=
  settle_none (h.steady.waiting hwait.1) (h.steady.fences hwait.2)

/-! ### Handles that go straight to their free queue (R65, R135) -/

theorem closeWindows_ctxs (pl : PoolSt) (i : Nat) (s : State) : (closeWindows pl i s).ctxs = s.ctxs := by
  unfold closeWindows
  split
  · exact forEach_keeps (·.ctxs) _ _ (fun _ _ => by exact rfl) s
  · rfl

theorem giveFree_reclaims (p : Nat) (pl : PoolSt) (i tag : Nat) (s : State) : Reclaims s (giveFree p pl i tag s) :=
  ⟨giveFree_steady p pl i tag s, (giveFree_returned p pl i tag s).keeps, closeWindows_ctxs pl i _⟩

theorem forceFree_reclaims (h : W64) (s : State) : Reclaims s (forceFree h s) := by
  unfold forceFree
  dsimp only
  split
  · exact .refl s
  · split
    · exact giveFree_reclaims _ _ _ _ s
    · exact .refl s

theorem forceFrees_reclaims (hs : List W64) (s : State) : Reclaims s (forEach hs forceFree s) := .forEach hs forceFree_reclaims s

/-! ### Units that stop (R64) -/

theorem modCore_reclaims (n : Nat) {f : CoreSt → CoreSt} (s : State) (h : ∀ c, (f c).sp = c.sp := by intro; rfl) :
    Reclaims s (s.modCore n f) := ⟨modCore_steady n f s, modCore_keepsWords n s h, rfl⟩

theorem reportOwed_reclaims (c : Nat) (u : UnitInst) (corrected : Bool) (s : State) : Reclaims s (reportOwed c u corrected s) := by
  obtain ⟨hcores, hpages⟩ := reportOwed_coresPages c u corrected s
  obtain ⟨f, heq⟩ := reportOwed_eq c u corrected s
  exact ⟨reportOwed_steady c u corrected s, .of_eq hcores hpages, by rw [heq]⟩

theorem dropWaits_reclaims (c : Nat) (s : State) : Reclaims s (dropWaits c s) :=
  ⟨dropWaits_steady c s, dropWaits_keepsWords c s, rfl⟩

theorem endWait_reclaims (c : Nat) (on : WaitOn) (s : State) : Reclaims s (endWait c on s) :=
  ⟨endWait_steady c on s, endWait_keepsWords c on s, rfl⟩

theorem stopUnit_reclaims (c : Nat) (s : State) : Reclaims s (stopUnit c s) := by
  unfold stopUnit
  split
  · exact .refl s
  · exact (modCore_reclaims c s).trans
      ((dropWaits_reclaims c _).trans ((forceFrees_reclaims _ _).trans (reportOwed_reclaims _ _ _ _)))

/-! ### Records and disarming (R197, R199, R299) -/

theorem formRecord_ctxs (id seq : Nat) (own calls : List Nat) (payload : List Byte) (s : State) :
    (formRecord id seq own calls payload s).ctxs = s.ctxs := by
  unfold formRecord
  repeat' split
  all_goals rfl

theorem qmgRecord_reclaims (id seq cause : Nat) (s : State) : Reclaims s (qmgRecord id seq cause s) := by
  unfold qmgRecord
  split
  · exact .refl s
  · obtain ⟨hcores, hpages⟩ := formRecord_coresPages id seq _ [cause] (Config.freePayload s.free) { s with free := s.free + 1 }
    exact ⟨qmgRecordOf_steady _ _ _ _ s, .of_eq hcores hpages, formRecord_ctxs _ _ _ _ _ _⟩

theorem recordAll_reclaims (cause id : Nat) (s : State) : Reclaims s (recordAll cause id s) := by
  unfold recordAll
  split
  · exact .refl s
  · exact .forEach _ (fun q t => qmgRecord_reclaims id q cause t) s

theorem disarm_reclaims (id : Nat) (s : State) : Reclaims s (disarm id s) := by
  have hfreed := forceFrees_reclaims (ingressHandles id s) s
  exact ⟨disarm_steady id s, hfreed.keeps.trans (.of_eq rfl rfl), hfreed.ctxs⟩

/-! ### Bedrock mode (R356, R365) -/

theorem modQuad_keepsWords (q : Nat) (f : Quad → Quad) (s : State) : KeepsWords s (s.modQuad q f) := .of_eq rfl rfl

theorem startStep_reclaims (q p : Nat) (s : State) : Reclaims s (startStep q p s) := by
  have hkept : KeepsWords s (startStep q p s) ∧ (startStep q p s).ctxs = s.ctxs := by
    unfold startStep
    dsimp only
    repeat' split
    · exact ⟨modQuad_keepsWords q _ s, rfl⟩
    · exact ⟨modQuad_keepsWords q _ s, rfl⟩
    · exact ⟨(takeInj_keepsWords _ _ s).trans (modQuad_keepsWords q _ _), by simp⟩
    · exact ⟨modQuad_keepsWords q _ s, rfl⟩
  obtain ⟨hkeeps, hctxs⟩ := hkept
  exact ⟨startStep_steady q p s, hkeeps, hctxs⟩

theorem refreshBedrock_reclaims (s : State) : Reclaims s (refreshBedrock s) := by
  have hquad : ∀ (q : Nat) (f : Quad → Quad) (t : State), (∀ x, (f x).vrdy = x.vrdy ∧ (f x).isolated = x.isolated) →
      Reclaims t (t.modQuad q f) := fun q f t h => ⟨modQuad_steady q h t, modQuad_keepsWords q f t, rfl⟩
  refine .forEach _ (fun q t => ?_) s
  dsimp only
  split
  · exact (hquad q _ t (by exact fun _ => ⟨rfl, rfl⟩)).trans
      ((hquad q _ _ (by exact fun _ => ⟨rfl, rfl⟩)).trans (startStep_reclaims _ _ _))
  · exact hquad q _ t (by exact fun _ => ⟨rfl, rfl⟩)

/-! ### Cancelled epochs (R197, R199) -/

theorem modEpoch_reclaims (e : Nat) (f : Epoch → Epoch) (s : State) : Reclaims s (modEpoch e f s) :=
  ⟨modEpoch_steady e f s, modQmg_keepsWords _ s, rfl⟩

theorem twins_reclaims (e f : Nat) (s : State) : Reclaims s (twins e f s) := by
  unfold twins
  split
  · exact .refl s
  · exact (modEpoch_reclaims _ _ s).trans (modEpoch_reclaims _ _ _)

theorem dropReady_reclaims (e n : Nat) (s : State) : Reclaims s (dropReady e n s) :=
  (modCore_reclaims n s).trans (forceFrees_reclaims _ _)

theorem modQueue_reclaims (n : Nat) (f : Queue → Queue) (s : State) : Reclaims s (s.modQueue n f) :=
  ⟨modQueue_steady n f s, modQueue_keepsWords n f s, rfl⟩

theorem emptyQueue_reclaims (n : Nat) (s : State) : Reclaims s (emptyQueue n s) :=
  (modQueue_reclaims n _ s).trans (forceFrees_reclaims _ _)

theorem dropSignatures_reclaims (e : Nat) (s : State) : Reclaims s (dropSignatures e s) :=
  ⟨dropSignatures_steady e s, .of_eq rfl rfl, rfl⟩

theorem stopEpoch_reclaims (e : Nat) (s : State) : Reclaims s (stopEpoch e s) := by
  unfold stopEpoch
  dsimp only
  exact (modEpoch_reclaims _ _ s).trans ((Reclaims.forEach _ stopUnit_reclaims _).trans
    ((Reclaims.forEach _ (dropReady_reclaims e) _).trans ((Reclaims.forEach _ (fun w t => endWait_reclaims _ _ t) _).trans
      ((Reclaims.forEach _ emptyQueue_reclaims _).trans (dropSignatures_reclaims e _)))))

theorem cancelEpoch_reclaims (e : Nat) (s : State) : Reclaims s (cancelEpoch e s) := by
  unfold cancelEpoch
  extract_lets ids s1 other s2 s3 s4
  have h1 : Reclaims s s1 := by
    refine Reclaims.forEach _ (fun id t => ?_) s
    repeat' split
    · exact .refl t
    · exact .refl t
    · exact twins_reclaims _ _ t
  have h2 : Reclaims s1 s2 := .forEach _ stopEpoch_reclaims s1
  have h3 : Reclaims s2 s3 := .forEach _ (fun id t => (recordAll_reclaims _ id t).trans (disarm_reclaims id _)) s2
  have h4 : Reclaims s3 s4 := ⟨mapStreams_steady s3 (Stream.Kept.withoutEpoch e), .of_eq rfl rfl, rfl⟩
  exact h1.trans (h2.trans (h3.trans (h4.trans (refreshBedrock_reclaims s4))))

end Sys2Proof.Machine

/-! Orphans and faulted queues (R181, R383, R384): what the firmware takes back, and the queue that it arms again. -/

namespace Sys2Proof.Machine

open Sys2Proof

/-! ### An orphan (R383) -/

/-- Handles have gone back, and no queue has changed its state or its epoch. -/
structure Reconciles (s t : State) : Prop extends Reclaims s t where
  queues : ∀ q, (t.queue q).state = (s.queue q).state ∧ (t.queue q).epoch = (s.queue q).epoch

theorem Reconciles.refl (s : State) : Reconciles s s := ⟨.refl s, fun _ => ⟨rfl, rfl⟩⟩

theorem Reconciles.trans {s t u : State} (h : Reconciles s t) (k : Reconciles t u) : Reconciles s u :=
  ⟨h.toReclaims.trans k.toReclaims, fun q => ⟨(k.queues q).1.trans (h.queues q).1, (k.queues q).2.trans (h.queues q).2⟩⟩

theorem Reconciles.forEach {α : Type} (xs : List α) {f : α → State → State} (h : ∀ x s, Reconciles s (f x s)) (s : State) :
    Reconciles s (forEach xs f s) :=
  forEach_inv (Reconciles s) xs f (fun x _ ht => ht.trans (h x _)) s (.refl s)

/-- A buffer record of a pool after a change of one of that pool. -/
theorem State.buffer_modBuffer (p i j : Nat) (f : Buffer → Buffer) (s : State) :
    (s.modBuffer p i f).buffer p j = if j = i then f (s.buffer p i) else s.buffer p j := by
  have hkey : Bits.bufKey p j = Bits.bufKey p i ↔ j = i := Nat.add_left_cancel_iff
  refine (Tab.get_insert s.qmg.buffers {} (Bits.bufKey p i) (Bits.bufKey p j) _).trans ?_
  simp only [hkey]
  rfl

theorem closeWindows_qmg (pl : PoolSt) (i : Nat) (s : State) : (closeWindows pl i s).qmg = s.qmg := by
  unfold closeWindows
  split
  · exact forEach_keeps (·.qmg) _ _ (fun _ _ => by exact rfl) s
  · rfl

/-- A buffer that goes into its free queue has nothing outstanding and no flag. -/
theorem giveFree_buffer (p : Nat) (pl : PoolSt) (i tag j : Nat) (s : State) : (giveFree p pl i tag s).buffer p j =
    if j = i then { s.buffer p i with returns := 0, cause := 0 } else s.buffer p j :=
  (congrArg (fun m : Qmg => Tab.get m.buffers {} (Bits.bufKey p j)) (closeWindows_qmg pl i _)).trans (State.buffer_modBuffer p i j _ s)

theorem giveFree_reconciles (p : Nat) (pl : PoolSt) (i tag : Nat) (s : State) : Reconciles s (giveFree p pl i tag s) := by
  have hclosed : ∀ (t : State) (q : Nat), (closeWindows pl i t).queue q = t.queue q :=
    fun t q => congrArg (fun m : Qmg => Tab.get m.queues {} q) (closeWindows_qmg pl i t)
  refine ⟨giveFree_reclaims p pl i tag s, fun q => ?_⟩
  unfold giveFree
  dsimp only
  rw [State.queue_modQueue]
  split
  · next hq => rw [hq, hclosed]; exact ⟨rfl, rfl⟩
  · rw [hclosed]; exact ⟨rfl, rfl⟩

theorem modBuffer_reconciles (p i : Nat) (f : Buffer → Buffer) (s : State) : Reconciles s (s.modBuffer p i f) :=
  ⟨⟨modBuffer_steady p i f s, modBuffer_keepsWords p i f s, rfl⟩, fun _ => ⟨rfl, rfl⟩⟩

theorem raise_reconciles (b : Block) (bit : Nat) (s : State) : Reconciles s (raise b bit s) :=
  ⟨⟨raise_steady b bit s, raise_keepsWords b bit s, by simp⟩, fun q => by simp [State.queue]⟩

theorem reclaim_reconciles (p : Nat) (pl : PoolSt) (i : Nat) (s : State) : Reconciles s (reclaim p pl i s) :=
  (modBuffer_reconciles p i _ s).trans ((giveFree_reconciles p pl i 0 _).trans (raise_reconciles _ _ _))

/-- A buffer as an orphan is taken back (R172, R383). -/
def Buffer.reclaimed (b : Buffer) : Buffer := { b with gen := nextGen b.gen, returns := 0, cause := 0 }

theorem reclaim_buffer (p : Nat) (pl : PoolSt) (i j : Nat) (s : State) :
    (reclaim p pl i s).buffer p j = if j = i then (s.buffer p i).reclaimed else s.buffer p j := by
  have hraise : ∀ t : State, (raise .dbg Bit.dbgOrphan t).buffer p j = t.buffer p j := fun t => by simp [State.buffer]
  unfold reclaim
  rw [hraise, giveFree_buffer, State.buffer_modBuffer, if_pos rfl, State.buffer_modBuffer]
  by_cases hj : j = i
  · rw [if_pos hj, if_pos hj]
    rfl
  · rw [if_neg hj, if_neg hj, if_neg hj]

/-- Buffers that are taken back, each once. -/
theorem forEach_reclaim_buffer (p : Nat) (pl : PoolSt) (j : Nat) : ∀ (is : List Nat), is.Nodup → ∀ s : State,
    (forEach is (reclaim p pl) s).buffer p j = if j ∈ is then (s.buffer p j).reclaimed else s.buffer p j
  | [], _, s => by simp [forEach]
  | i :: is, h, s => by
    obtain ⟨hi, his⟩ := List.nodup_cons.mp h
    rw [forEach_cons, forEach_reclaim_buffer p pl j is his, reclaim_buffer]
    by_cases hj : j = i
    · subst hj
      simp [hi]
    · simp [hj]

/-! ### The items that orphans carried (R383) -/

theorem qmgRecord_qmg (id seq cause : Nat) (s : State) : (qmgRecord id seq cause s).qmg = s.qmg := by
  unfold qmgRecord qmgRecordOf formRecord
  repeat' split
  all_goals rfl

theorem orphanItem_qmg (b : Buffer) (s : State) : (orphanItem b s).qmg = s.qmg := by
  unfold orphanItem
  split
  · rfl
  · split
    · rfl
    · exact qmgRecord_qmg _ _ _ s

theorem orphanItem_reconciles (b : Buffer) (s : State) : Reconciles s (orphanItem b s) := by
  refine ⟨?_, fun q => ?_⟩
  · unfold orphanItem
    split
    · exact .refl s
    · split
      · exact .refl s
      · exact qmgRecord_reclaims _ _ _ s
  · unfold State.queue
    rw [orphanItem_qmg]
    exact ⟨rfl, rfl⟩

theorem reclaimAll_reconciles (p : Nat) (pl : PoolSt) (is : List Nat) (carry : Bool) (s : State) :
    Reconciles s (reclaimAll p pl is carry s) := by
  have hbuffers : Reconciles s (forEach is (reclaim p pl) s) := .forEach is (reclaim_reconciles p pl) s
  unfold reclaimAll
  dsimp only
  split
  · exact hbuffers.trans (.forEach _ orphanItem_reconciles _)
  · exact hbuffers

theorem reclaimAll_buffer (p : Nat) (pl : PoolSt) {is : List Nat} (his : is.Nodup) (carry : Bool) (s : State) (j : Nat) :
    (reclaimAll p pl is carry s).buffer p j = if j ∈ is then (s.buffer p j).reclaimed else s.buffer p j := by
  rw [← forEach_reclaim_buffer p pl j is his s]
  unfold reclaimAll
  dsimp only
  split
  · exact congrArg (fun m : Qmg => Tab.get m.buffers {} (Bits.bufKey p j)) (forEach_keeps (·.qmg) _ orphanItem orphanItem_qmg _)
  · rfl

/-! ### ORPHAN_RECONCILE (R383) -/

/-- The orphans of a pool. -/
def orphans (s : State) (p : Nat) (pl : PoolSt) : List Nat := (List.range pl.count).filter (isOrphan s p)

theorem mem_orphans {s : State} {p : Nat} {pl : PoolSt} {i : Nat} : i ∈ orphans s p pl ↔ i < pl.count ∧ isOrphan s p i = true := by
  unfold orphans
  rw [List.mem_filter, List.mem_range]

theorem orphans_nodup (s : State) (p : Nat) (pl : PoolSt) : (orphans s p pl).Nodup := List.nodup_range.filter _

theorem reconcile_pool {s : State} {p : Nat} {pl : PoolSt} (hpl : s.pool? p = some pl) :
    reconcile p s = reclaimAll p pl (orphans s p pl) true s := by
  unfold reconcile
  rw [hpl]
  rfl

theorem reconcile_reconciles (p : Nat) (s : State) : Reconciles s (reconcile p s) := by
  unfold reconcile
  split
  · exact .refl s
  · exact reclaimAll_reconciles _ _ _ _ s

theorem orphanReconcile_completes {s : State} {p : Nat} {pl : PoolSt} (hwait : NoneWaits s) (hpl : s.pool? p = some pl) :
    Completes (.orphanReconcile p) s (fun t =>
      (∀ i < pl.count, isOrphan s p i = true → (t.buffer p i).gen = nextGen (s.buffer p i).gen ∧ (t.buffer p i).returns = 0) ∧
      (∀ i, (pl.count ≤ i ∨ isOrphan s p i = false) → t.buffer p i = s.buffer p i) ∧
      ((∀ i < pl.count, isOrphan s p i = false) → t = s) ∧ SameMemory s t) := by
  have hreconciles := reconcile_reconciles p s
  have hbuffer : ∀ i, (reconcile p s).buffer p i = if i ∈ orphans s p pl then (s.buffer p i).reclaimed else s.buffer p i := by
    rw [reconcile_pool hpl]
    exact reclaimAll_buffer p pl (orphans_nodup s p pl) true s
  refine ⟨_, congrArg Host.Outcome.next (hreconciles.settle hwait), fun i hi horphan => ?_, fun i hkept => ?_, fun hnone => ?_,
    hreconciles.sameMemory⟩
  · rw [hbuffer, if_pos (mem_orphans.mpr ⟨hi, horphan⟩)]
    exact ⟨rfl, rfl⟩
  · have hnot : i ∉ orphans s p pl := fun hmem => by
      obtain ⟨hi, horphan⟩ := mem_orphans.mp hmem
      rcases hkept with hcount | hfalse
      · omega
      · rw [hfalse] at horphan
        cases horphan
    rw [hbuffer, if_neg hnot]
  · have hempty : orphans s p pl = [] := List.filter_eq_nil_iff.mpr fun i hi => by
      rw [hnone i (List.mem_range.mp hi)]
      exact Bool.false_ne_true
    rw [reconcile_pool hpl, hempty]
    rfl

/-! ### QUEUE_RECOVERY (R384) -/

section Recovery

variable {s : State} {n : QueueNum}

theorem completes_queueRecovery {t : State} {P : State → Prop} (hrecover : recoverQueue n.val s = t) (hsettle : settle t = t)
    (hP : P t) : Completes (.queueRecovery n) s P :=
  ⟨t, congrArg Host.Outcome.next ((congrArg settle hrecover).trans hsettle), hP⟩

/-- A queue that needs no recovery. -/
theorem queueRecovery_idle (hwait : NoneWaits s) (h : recoverQueue n.val s = s) : Completes (.queueRecovery n) s (fun t => t = s) :=
  completes_queueRecovery h (settle_none hwait.1 hwait.2) rfl

/-- A FAULTED queue armed anew and empty, with the epoch that its stream has now (R181, R384). -/
def Queue.rearmed (s : State) (q : Queue) : Queue :=
  { q with
    state := .armed, entries := [], head := q.tail, pushCount := 0,
    epoch := match q.stream.bind s.stream? with
      | none => q.epoch
      | some st => st.liveEpoch }

theorem recoverVein_reconciles (n : Nat) (s : State) : Reconciles (s.modQueue n (Queue.rearmed s)) (recoverVein n s) := by
  have hfirst : ∀ (hs : List W64) (carry : Bool) (p : Nat) (t : State), Reconciles t (match t.pool? p with
      | none => t
      | some pl => reclaimAll p pl ((hs.filter (fun h => (Bits.ofHandle h).pool == p)).map (fun h => (Bits.ofHandle h).index)) carry t) := by
    intro hs carry p t
    split
    · exact .refl t
    · exact reclaimAll_reconciles _ _ _ _ t
  exact (Reconciles.forEach _ (hfirst _ _) _).trans (.forEach _ reconcile_reconciles _)

theorem queueRecovery_vein (hwait : NoneWaits s) (hn : n.val < 0x3E000) (hfault : (s.queue n.val).state = .faulted) :
    Completes (.queueRecovery n) s (fun t => (t.queue n.val).state = .armed ∧
      (t.queue n.val).epoch = (match (s.queue n.val).stream.bind s.stream? with
        | none => (s.queue n.val).epoch
        | some st => st.liveEpoch) ∧ SameMemory s t) := by
  have hrecover : recoverQueue n.val s = recoverVein n.val s := by
    unfold recoverQueue
    rw [if_pos hn, if_pos hfault]
  have hreconciles := recoverVein_reconciles n.val s
  have hreclaims := (modQueue_reclaims n.val (Queue.rearmed s) s).trans hreconciles.toReclaims
  obtain ⟨hstate, hepoch⟩ := hreconciles.queues n.val
  rw [State.queue_modQueue_self] at hstate hepoch
  exact completes_queueRecovery hrecover (hreclaims.settle hwait) ⟨hstate, hepoch, hreclaims.sameMemory⟩

/-- The state in which the epochs of a recovered context are cancelled. -/
def ctxRecovered (c : Nat) (s : State) : State := (retireCtx c s).modCtx c (fun x => { x with cmdFault := false, cplFault := false })

theorem ctxRecovered_ctx (c : Nat) (s : State) : ((ctxRecovered c s).ctx c).en = false ∧ ((ctxRecovered c s).ctx c).cmdFault = false ∧
    ((ctxRecovered c s).ctx c).fetched = [] := by
  unfold ctxRecovered retireCtx
  rw [State.ctx_modCtx_self, State.ctx_modCtx_self]
  exact ⟨rfl, rfl, rfl⟩

theorem ctxRecovered_noneWaits (c : Nat) (hwait : NoneWaits s) : NoneWaits (ctxRecovered c s) := by
  obtain ⟨hwaiting, hfences⟩ := hwait
  refine ⟨List.filter_eq_nil_iff.mpr fun h hh => ?_, hfences⟩
  rw [hwaiting] at hh
  cases hh

theorem recoverCtx_reclaims (c : Nat) (s : State) : Reclaims (ctxRecovered c s) (recoverCtx c s) :=
  .forEach _ cancelEpoch_reclaims _

theorem queueRecovery_context (hwait : NoneWaits s) (hn : 0x3F000 ≤ n.val) (hfault : (s.ctx (queueCtx n.val)).cmdFault = true) :
    Completes (.queueRecovery n) s (fun t => (t.ctx (queueCtx n.val)).en = false ∧ (t.ctx (queueCtx n.val)).cmdFault = false ∧
      (t.ctx (queueCtx n.val)).fetched = [] ∧ SameMemory s t) := by
  have hrecover : recoverQueue n.val s = recoverCtx (queueCtx n.val) s := by
    unfold recoverQueue
    rw [if_neg (by omega), if_neg (by omega), if_pos hfault]
  have hreclaims := recoverCtx_reclaims (queueCtx n.val) s
  have hmem : SameMemory s (recoverCtx (queueCtx n.val) s) := hreclaims.sameMemory
  refine completes_queueRecovery hrecover (hreclaims.settle (ctxRecovered_noneWaits _ hwait)) ?_
  rw [hreclaims.ctx]
  obtain ⟨hen, hcmd, hfetched⟩ := ctxRecovered_ctx (queueCtx n.val) s
  exact ⟨hen, hcmd, hfetched, hmem⟩

theorem recoverQueue_notFaulted (hn : n.val < 0x3E000) (h : (s.queue n.val).state ≠ .faulted) : recoverQueue n.val s = s := by
  unfold recoverQueue
  rw [if_pos hn, if_neg h]

theorem recoverQueue_sound (hn : 0x3E000 ≤ n.val) (hcmd : (s.ctx (queueCtx n.val)).cmdFault = false)
    (hcpl : (s.ctx (queueCtx n.val)).cplFault = false) : recoverQueue n.val s = s := by
  unfold recoverQueue
  rw [if_neg (by omega), hcmd, hcpl]
  exact ite_self s

end Recovery

end Sys2Proof.Machine

/-! Blocks of the batcher and the periods of budgets (R96, R282, R283). -/

namespace Sys2Proof.Machine

open Sys2Proof

/-! ### Who joins a block (R96, R282) -/

section Block

variable {s : State} {n : Nat} {u : UnitInst}

theorem chargeStart_budget (u : UnitInst) (s : State) (c : Nat) : ((chargeStart u s).ctx c).budget = (s.ctx c).budget := by
  unfold chargeStart
  rw [State.ctx_modCtx]
  split
  · next hc =>
    rw [hc]
    split <;> rfl
  · rfl

theorem beginUnit_budget (boxes : List (List Byte)) (block : List UnitInst) (c : Nat) :
    ((beginUnit n boxes block u s).ctx c).budget = (s.ctx c).budget := by
  obtain ⟨passed, heq⟩ := beginUnit_eq n boxes block u s
  have hbegun : ((unitBegun n boxes passed u s).ctx c).budget = (s.ctx c).budget :=
    (chargeStart_budget u _ c).trans (accountStart_budget u passed s c).1
  rw [heq]
  split <;> exact hbegun

/-- A unit of a context without a budget joins. -/
theorem mem_joinBlock {v : UnitInst} {vs : List UnitInst} (hv : v ∈ vs) (hbudget : (s.ctx v.ctx).budget = none) :
    v ∈ (joinBlock vs s).1 := by
  induction vs generalizing s with
  | nil => cases hv
  | cons w vs ih =>
    unfold joinBlock
    split
    · have hcharged : ((chargeStart w (accountStart w [] s)).ctx v.ctx).budget = none := by
        rw [chargeStart_budget, (accountStart_budget w [] s v.ctx).1, hbudget]
      rcases List.mem_cons.mp hv with rfl | hv
      · exact List.mem_cons_self
      · exact List.mem_cons_of_mem _ (ih hv hcharged)
    · next hnone =>
      rcases List.mem_cons.mp hv with rfl | hv
      · exact absurd (by simp [hasBudget, hbudget]) hnone
      · exact ih hv hbudget

/-- A unit that has joined stands so in the ready list. -/
theorem joined_markJoined {joined ready : List UnitInst} {v : UnitInst} (hjoined : v ∈ joined) (hready : v ∈ ready) :
    ∃ x ∈ markJoined joined ready, x.order = v.order ∧ x.joined = true := by
  have hany : joined.any (fun w => w.order == v.order) = true := List.any_eq_true.mpr ⟨v, hjoined, beq_self_eq_true _⟩
  exact ⟨_, List.mem_map.mpr ⟨v, hready, if_pos hany⟩, rfl, rfl⟩

/-- The units that may join the block that `u` heads: as many others as 32 columns hold. -/
def blockRest (s : State) (n : Nat) (d : StageDecl) (u : UnitInst) : List UnitInst :=
  ((batchOf s n u).filter (fun v => v.order != u.order)).take (32 / columnsOf d u.unit - 1)

theorem mem_ready_of_mem_blockRest {d : StageDecl} {v : UnitInst} (h : v ∈ blockRest s n d u) :
    v ∈ (s.core n).ready.filter (fun v => v.order != u.order) := by
  obtain ⟨hbatch, horder⟩ := List.mem_filter.mp (List.mem_of_mem_take h)
  exact List.mem_filter.mpr ⟨(List.mem_filter.mp (List.mem_filter.mp hbatch).1).1, horder⟩

/-! ### BATCH_START (R96) -/

/-- The block that `u` heads: `u` runs, who has joined is marked, and nobody else but `u` leaves the ready list. -/
theorem launch_joins {d : StageDecl} {w : Nat} (hbatched : batched s u = some (d, w)) (boxes : List (List Byte)) :
    (∃ v, ((launch n boxes u s).core n).run = some v ∧ v.order = u.order ∧ v.startAt = s.clock) ∧
    (∀ v ∈ blockRest s n d u, (s.ctx v.ctx).budget = none →
      ∃ x ∈ ((launch n boxes u s).core n).ready, x.order = v.order ∧ x.joined = true) ∧
    ((launch n boxes u s).core n).ready.map (·.order) =
      ((s.core n).ready.filter (fun v => v.order != u.order)).map (·.order) ∧
    OtherCores n s (launch n boxes u s) ∧ SameMemory s (launch n boxes u s) := by
  have hlaunch : launch n boxes u s =
      (joinBlock (blockRest s n d u) (beginUnit n [] (blockRest s n d u) u s)).2.modCore n (fun c =>
        { c with ready := markJoined (joinBlock (blockRest s n d u) (beginUnit n [] (blockRest s n d u) u s)).1 c.ready }) := by
    unfold launch
    rw [hbatched]
    rfl
  have hjoins : ∀ v ∈ blockRest s n d u, (s.ctx v.ctx).budget = none →
      v ∈ (joinBlock (blockRest s n d u) (beginUnit n [] (blockRest s n d u) u s)).1 :=
    fun v hv hbudget => mem_joinBlock hv ((beginUnit_budget _ _ _).trans hbudget)
  have hbegun := (beginUnit_begun (s := s) (n := n) (u := u) [] (blockRest s n d u)).accounts (joinBlock_effect (blockRest s n d u) _).1
  rw [hlaunch]
  generalize joinBlock (blockRest s n d u) (beginUnit n [] (blockRest s n d u) u s) = block at hjoins hbegun
  obtain ⟨joined, t⟩ := block
  dsimp only at hjoins hbegun ⊢
  have hcore : (t.modCore n (fun c => { c with ready := markJoined joined c.ready })).core n =
      { t.core n with ready := markJoined joined ((s.core n).ready.filter (fun v => v.order != u.order)) } := by
    rw [State.core_modCore_self, hbegun.ready]
  have hkeeps : KeepsWords t (t.modCore n (fun c => { c with ready := markJoined joined c.ready })) := modCore_keepsWords n t
  refine ⟨?_, fun v hv hbudget => ?_, ?_, fun m hm => (State.core_modCore_ne _ _ hm).trans (hbegun.others m hm), hbegun.mem.1,
    fun m w => (hkeeps.scratchpads m w).trans (hbegun.mem.2 m w)⟩
  · obtain ⟨v, hrun, horder, -, -, -, hstart⟩ := hbegun.run
    rw [hcore]
    exact ⟨v, hrun, horder, hstart⟩
  · rw [hcore]
    exact joined_markJoined (hjoins v hv hbudget) (mem_ready_of_mem_blockRest hv)
  · rw [hcore, orders_markJoined]

/-- On the one core of a slot the batcher starts the first unit that may start. -/
theorem batch_launches {slot : SlotNum} {p : StageDecl × Nat} (hcores : (s.cores.filter (fun c => c.2.slot == slot.val)).map (·.1) = [n])
    (hmay : s.mayStart n = true) (hfirst : firstUnit ((s.core n).ready.filter (startable s n)) = some u)
    (hbatched : batched s u = some p) : batch slot.val s = launch n [] u s := by
  unfold batch
  rw [hcores, forEach_cons, hfirst]
  exact if_pos (by rw [hmay, hbatched]; rfl)

theorem batched_eq {d : StageDecl} {w : Nat} (hdecl : stageDeclOf s u = some d) (hwait : batchWaitOf d u.unit = some w)
    (hmode : d.mode = .frame) : batched s u = some (d, w) := by
  unfold batched
  rw [hdecl, Option.bind_some, if_pos hmode, hwait]
  rfl

end Block

/-! ### BUDGET_REPLENISH (R282) -/

section Budget

variable {s : State} {p : PartNum} {x : Partition}

/-- A context with its full budget, where it is of partition `p`. -/
def Ctx.replenished (p : Nat) (x : Ctx) : Ctx := if x.part = some p then { x with budgetLeft := x.budget.getD 0 } else x

/-- The partition whose period begins at the last boundary before `clock`. -/
def Partition.renewed (clock : Nat) (x : Partition) : Partition :=
  { x with periodAt := x.periodAt + (clock - x.periodAt) / max 1 x.period * x.period }

/-- The state after a period boundary, before the waits of the units are stamped. -/
def periodBegun (p : Nat) (s : State) : State :=
  { s.modPart p (Partition.renewed s.clock) with ctxs := s.ctxs.map (fun e => (e.1, e.2.replenished p)) }

/-- A context that is not listed has no budget, so that its default is replenished. -/
theorem periodBegun_ctx (p : Nat) (s : State) (c : Nat) : (periodBegun p s).ctx c = (s.ctx c).replenished p := by
  have hfind : Tab.find (periodBegun p s).ctxs c = (Tab.find s.ctxs c).map (Ctx.replenished p) :=
    Tab.find_map (Ctx.replenished p) c s.ctxs
  unfold State.ctx Tab.get
  rw [hfind]
  cases Tab.find s.ctxs c with
  | some x => rfl
  | none =>
    unfold Ctx.replenished
    dsimp only [Option.map_none, Option.getD_none]
    split <;> rfl

theorem replenish_due (hx : s.part? p.val = some x) (hdue : x.periodAt + x.period ≤ s.clock) :
    replenish p.val s = stampReady s (periodBegun p.val s) := by
  unfold replenish
  rw [hx]
  exact if_neg (Nat.not_lt.mpr hdue)

theorem budgetReplenish_due (hx : s.part? p.val = some x) (hdue : x.periodAt + x.period ≤ s.clock) :
    Completes (.budgetReplenish p) s (fun t =>
      t.part? p.val = some { x with periodAt := x.periodAt + (s.clock - x.periodAt) / max 1 x.period * x.period } ∧
      (∀ c, (s.ctx c).part = some p.val → t.ctx c = { s.ctx c with budgetLeft := (s.ctx c).budget.getD 0 }) ∧
      (∀ c, (s.ctx c).part ≠ some p.val → t.ctx c = s.ctx c) ∧
      (∀ m, (t.core m).untimed = (s.core m).untimed) ∧ t = { s with parts := t.parts, ctxs := t.ctxs, cores := t.cores }) := by
  have hctx : ∀ c, (stampReady s (periodBegun p.val s)).ctx c = (s.ctx c).replenished p.val := periodBegun_ctx p.val s
  refine ⟨_, congrArg Host.Outcome.next (replenish_due hx hdue), ?_, fun c hpart => ?_, fun c hpart => ?_,
    fun m => untimed_stampReady s (periodBegun p.val s) m, rfl⟩
  · have hfind : Tab.find (Tab.modify s.parts p.val (Partition.renewed s.clock)) p.val = (Tab.find s.parts p.val).map _ :=
      (Tab.find_modify _ _ _ _).trans (if_pos rfl)
    unfold State.part? at hx
    rw [hx] at hfind
    exact hfind
  · rw [hctx]
    exact if_pos hpart
  · rw [hctx]
    exact if_neg hpart

theorem budgetReplenish_early (hx : s.part? p.val = some x) (hearly : s.clock < x.periodAt + x.period) :
    Completes (.budgetReplenish p) s (fun t => t = s) := by
  have hrun : replenish p.val s = s := by
    unfold replenish
    rw [hx]
    exact if_pos hearly
  exact ⟨s, congrArg Host.Outcome.next hrun, rfl⟩

end Budget

/-! ### The obligation -/

/-- Settles O53: what goes back and what is cancelled changes no context, no memory and, but for the recovered one, no queue's state; a
block is the start of its first unit and the marks of those who join; a period boundary is one change of a partition's contexts. -/
theorem recoveryBatchAndBudgetComplete : Obligations.RecoveryBatchAndBudgetComplete := by
  unfold Obligations.RecoveryBatchAndBudgetComplete
  refine ⟨fun s n hwait => ⟨queueRecovery_vein hwait, fun hn hsound => queueRecovery_idle hwait (recoverQueue_notFaulted hn hsound),
      queueRecovery_context hwait, fun hn hcmd hcpl => queueRecovery_idle hwait (recoverQueue_sound hn hcmd hcpl)⟩,
    fun s p pl => orphanReconcile_completes, fun s slot n u d w hcores hmay hfirst hdecl hwait hmode => ?_,
    fun s p x hx => ⟨budgetReplenish_due hx, budgetReplenish_early hx⟩⟩
  have hbatched := batched_eq hdecl hwait hmode
  exact ⟨_, congrArg Host.Outcome.next (batch_launches hcores hmay hfirst hbatched), launch_joins hbatched []⟩

end Sys2Proof.Machine

/-! The canonical form of both memories (log entry 8): what it says of a state, of a core and of an allocation, how it passes through
branches, loops and changes of cores, and the operations that every command shares.  Each operation of the model has its one lemma,
`<operation>_canonical`: it leads from canonical memories to canonical memories. -/

namespace Sys2Proof.Machine

open Sys2Proof Sys2Proof.Machine.Bits

/-! ### The predicate -/

/-- DRAM and every scratchpad list their cells by rising address and no cell that reads 0 (log entry 8). -/
def State.Canonical (s : State) : Prop := memoryWf s = true

/-- The same of the scratchpad of one core. -/
def CoreSt.Canonical (c : CoreSt) : Prop := Tab.wf 0 c.sp = true

/-- The state that an allocation leaves has canonical memories. -/
def AllocStep.Canonical : AllocStep → Prop
  | .got _ s => s.Canonical
  | .wait s => s.Canonical
  | .ended s => s.Canonical

/-- Where a command answers a next state, that state has canonical memories. -/
def KeepsCanonical (o : Host.Outcome State Fault Refusal) : Prop := ∀ t, o = .next t → t.Canonical

variable {s t : State} {c d : CoreSt}

theorem next_canonical (ht : t.Canonical) : KeepsCanonical (.next t) := by
  rintro _ ⟨⟩
  exact ht

/-! ### Branches, loops and cores -/

theorem ite_canonical {p : Prop} {_ : Decidable p} (ht : s.Canonical) (he : t.Canonical) : (if p then s else t).Canonical := by
  split
  · exact ht
  · exact he

theorem ite_snd_canonical {α : Type} {a b : α × State} {p : Prop} {_ : Decidable p} (ht : a.2.Canonical) (he : b.2.Canonical) :
    (if p then a else b).2.Canonical := by
  split
  · exact ht
  · exact he

theorem CoreSt.ite_canonical {p : Prop} {_ : Decidable p} (ht : c.Canonical) (he : d.Canonical) :
    (if p then c else d).Canonical := by
  split
  · exact ht
  · exact he

/-- A state with the same two memories. -/
theorem same_canonical (hs : s.Canonical) (hdram : t.dram = s.dram) (hcores : t.cores = s.cores) : t.Canonical := by
  unfold State.Canonical memoryWf at *
  rwa [hdram, hcores]

theorem core_canonical {n} (hs : s.Canonical) : (s.core n).Canonical := wf_core n hs

theorem modCore_canonical {n f} (hf : ∀ c : CoreSt, c.Canonical → (f c).Canonical) (hs : s.Canonical) :
    (s.modCore n f).Canonical :=
  memoryWf_modCore hs (hf _ (core_canonical hs))

/-- A change of every core that keeps each scratchpad canonical. -/
theorem mapCores_canonical {f : CoreSt → CoreSt} (hs : s.Canonical) (hdram : t.dram = s.dram)
    (hcores : t.cores = s.cores.map (fun e => (e.1, f e.2))) (hf : ∀ c : CoreSt, c.Canonical → (f c).Canonical) : t.Canonical := by
  unfold State.Canonical memoryWf at *
  rw [Bool.and_eq_true] at *
  rw [hdram, hcores, List.all_map]
  exact ⟨hs.1, List.all_eq_true.mpr fun e he => hf e.2 (List.all_eq_true.mp hs.2 e he)⟩

theorem forEach_canonical {α : Type} {xs : List α} {f : α → State → State} (hf : ∀ x t, t.Canonical → (f x t).Canonical)
    (hs : s.Canonical) : (forEach xs f s).Canonical :=
  forEach_inv State.Canonical xs f hf s hs

theorem CoreSt.foldl_canonical {α : Type} {f : CoreSt → α → CoreSt} {xs : List α} (hf : ∀ c x, c.Canonical → (f c x).Canonical)
    (hc : c.Canonical) : (xs.foldl f c).Canonical :=
  wf_foldl hf xs c hc

/-! ### Headers, reports, completions, notices, the safe state (R204, R317, R389, R406, R416, R435) -/

theorem storeDram_canonical {a bs} (hs : s.Canonical) : (s.storeDram a bs).Canonical := memoryWf_storeDram a bs hs

theorem setCtx_canonical {c x} (hs : s.Canonical) : (s.setCtx c x).Canonical := hs

theorem modCtx_canonical {c f} (hs : s.Canonical) : (s.modCtx c f).Canonical := by
  unfold State.modCtx
  exact setCtx_canonical hs

theorem modPart_canonical {p f} (hs : s.Canonical) : (s.modPart p f).Canonical := hs

theorem setStream_canonical {i x} (hs : s.Canonical) : (s.setStream i x).Canonical := hs

theorem modStream_canonical {i f} (hs : s.Canonical) : (s.modStream i f).Canonical := hs

theorem modHdr_canonical {b f} (hs : s.Canonical) : (s.modHdr b f).Canonical := hs

theorem modPort_canonical {p f} (hs : s.Canonical) : (s.modPort p f).Canonical := hs

theorem modSlice_canonical {k f} (hs : s.Canonical) : (s.modSlice k f).Canonical := hs

theorem modDmc_canonical {c f} (hs : s.Canonical) : (s.modDmc c f).Canonical := hs

theorem modQuad_canonical {q f} (hs : s.Canonical) : (s.modQuad q f).Canonical := hs

theorem modTlk_canonical {t f} (hs : s.Canonical) : (s.modTlk t f).Canonical := hs

theorem modMon_canonical {m f} (hs : s.Canonical) : (s.modMon m f).Canonical := hs

theorem modQmg_canonical {f} (hs : s.Canonical) : (s.modQmg f).Canonical := hs

theorem setQueue_canonical {q x} (hs : s.Canonical) : (s.setQueue q x).Canonical := by
  unfold State.setQueue
  exact modQmg_canonical hs

theorem modQueue_canonical {q f} (hs : s.Canonical) : (s.modQueue q f).Canonical := by
  unfold State.modQueue
  exact setQueue_canonical hs

theorem modVote_canonical {v f} (hs : s.Canonical) : (s.modVote v f).Canonical := by
  unfold State.modVote
  exact modQmg_canonical hs

theorem modSafe_canonical {f} (hs : s.Canonical) : (s.modSafe f).Canonical := hs

theorem modCtl_canonical {f} (hs : s.Canonical) : (s.modCtl f).Canonical := hs

theorem modDbg_canonical {f} (hs : s.Canonical) : (s.modDbg f).Canonical := hs

theorem modTal_canonical {f} (hs : s.Canonical) : (s.modTal f).Canonical := hs

theorem modPpe_canonical {f} (hs : s.Canonical) : (s.modPpe f).Canonical := hs

theorem modPwr_canonical {f} (hs : s.Canonical) : (s.modPwr f).Canonical := hs

theorem modBoot_canonical {f} (hs : s.Canonical) : (s.modBoot f).Canonical := hs

theorem modMesh_canonical {f} (hs : s.Canonical) : (s.modMesh f).Canonical := hs

theorem emit_canonical {o} (hs : s.Canonical) : (s.emit o).Canonical := hs

theorem sendMsix_canonical {fn vec} (hs : s.Canonical) : (sendMsix fn vec s).Canonical := by
  unfold sendMsix
  exact ite_canonical hs (emit_canonical hs)

theorem raiseInt_canonical {b bits} (hs : s.Canonical) : (raiseInt b bits s).Canonical := by
  unfold raiseInt
  exact ite_canonical (sendMsix_canonical (modHdr_canonical hs)) (modHdr_canonical hs)

theorem raiseAt_canonical {b bit addr who} (hs : s.Canonical) : (raiseAt b bit addr who s).Canonical := by
  unfold raiseAt
  exact ite_canonical (raiseInt_canonical (modHdr_canonical hs)) (modHdr_canonical hs)

theorem raise_canonical {b bit} (hs : s.Canonical) : (raise b bit s).Canonical := by
  unfold raise
  exact raiseAt_canonical hs

theorem takeInj_canonical {b bit} (hs : s.Canonical) : (takeInj b bit s).2.Canonical := by
  unfold takeInj
  exact ite_snd_canonical (modHdr_canonical hs) hs

theorem receiveTlp_canonical (hs : s.Canonical) : (receiveTlp s).Canonical := by
  unfold receiveTlp
  exact ite_canonical (raise_canonical (takeInj_canonical hs)) (takeInj_canonical hs)

theorem reportAt_canonical {t e} (hs : s.Canonical) : (reportAt t e s).Canonical := by
  unfold reportAt
  exact modSafe_canonical hs

theorem report_canonical {e} (hs : s.Canonical) : (report e s).Canonical := by
  unfold report
  exact reportAt_canonical hs

theorem raiseTold_canonical {b bit} (hs : s.Canonical) : (raiseTold b bit s).Canonical := by
  unfold raiseTold
  split
  · exact report_canonical (raise_canonical hs)
  · exact raise_canonical hs

theorem lockWrite_canonical {b} (hs : s.Canonical) : (lockWrite b s).Canonical := by
  unfold lockWrite
  split
  · exact hs
  · exact raiseTold_canonical hs

theorem sendInval_canonical {i} (hs : s.Canonical) : (sendInval i s).Canonical := by
  unfold sendInval
  exact modSafe_canonical hs

theorem writeCompletion_canonical {c e irq} (hs : s.Canonical) : (writeCompletion c e irq s).Canonical := by
  unfold writeCompletion
  exact ite_canonical (sendMsix_canonical (emit_canonical (modCtx_canonical hs))) (emit_canonical (modCtx_canonical hs))

theorem postCompletion_canonical {c e irq} (hs : s.Canonical) : (postCompletion c e irq s).Canonical := by
  unfold postCompletion
  exact ite_canonical (writeCompletion_canonical hs) (modCtx_canonical hs)

theorem drainHeld_canonical {fuel c} (hs : s.Canonical) : (drainHeld fuel c s).Canonical := by
  induction fuel generalizing s with
  | zero => exact hs
  | succ fuel ih =>
    unfold drainHeld
    split
    · exact hs
    · exact ite_canonical (ih (writeCompletion_canonical (modCtx_canonical hs))) hs

theorem finish_canonical {cmd op status epoch detail} (hs : s.Canonical) : (finish cmd op status epoch detail s).Canonical := by
  unfold finish
  exact postCompletion_canonical (ite_canonical (raise_canonical hs) hs)

theorem finishOpen_canonical {cmd op status epoch} (hs : s.Canonical) : (finishOpen cmd op status epoch s).Canonical := by
  unfold finishOpen
  exact finish_canonical hs

theorem writeNotice_canonical {kind word fault} (hs : s.Canonical) : (writeNotice kind word fault s).Canonical := by
  unfold writeNotice
  exact raiseInt_canonical (emit_canonical (modDbg_canonical hs))

theorem postNotice_canonical {kind word fault} (hs : s.Canonical) : (postNotice kind word fault s).Canonical := by
  unfold postNotice
  exact ite_canonical hs (ite_canonical (writeNotice_canonical hs) (raise_canonical (modDbg_canonical hs)))

theorem beginSample_canonical {cause} (hs : s.Canonical) : (beginSample cause s).Canonical := by
  unfold beginSample
  exact ite_canonical hs hs

theorem enterSafe_canonical {cause} (hs : s.Canonical) : (enterSafe cause s).Canonical := by
  unfold enterSafe
  exact ite_canonical hs (beginSample_canonical (postNotice_canonical (ite_canonical (raise_canonical hs) (report_canonical
      (raise_canonical hs)))))

theorem fatalError_canonical {code} (hs : s.Canonical) : (fatalError code s).Canonical := by
  unfold fatalError
  exact enterSafe_canonical (raise_canonical (modDbg_canonical hs))

/-! ### The passage of time (R126, R219) -/

theorem drainAll_canonical (hs : s.Canonical) : (drainAll s).Canonical :=
  mapCores_canonical hs rfl rfl (fun _ hc => wf_drain hc)

theorem tick_canonical (hs : s.Canonical) : (tick s).Canonical := by
  unfold tick
  exact drainAll_canonical hs

end Sys2Proof.Machine

/-! The canonical form of both memories under the operations on queues, records, placements and the shared cache (R13, R149, R170, R299). -/

namespace Sys2Proof.Machine

open Sys2Proof Sys2Proof.Machine.Bits

variable {s t : State} {c : CoreSt}

/-! ### Handles, queues, waits and units that stop (R170 to R190) -/

theorem modBuffer_canonical {p i f} (hs : s.Canonical) : (s.modBuffer p i f).Canonical := by
  unfold State.modBuffer
  exact modQmg_canonical hs

theorem CoreSt.modWindow_canonical {w f} (hc : c.Canonical) : (c.modWindow w f).Canonical := hc

theorem openWindows_canonical {pl i gen seg epoch} (hs : s.Canonical) : (openWindows pl i gen seg epoch s).Canonical := by
  unfold openWindows
  exact ite_canonical (forEach_canonical (fun _ _ ht => modCore_canonical (fun _ hc => CoreSt.modWindow_canonical hc) ht) hs) hs

theorem closeWindows_canonical {pl i} (hs : s.Canonical) : (closeWindows pl i s).Canonical := by
  unfold closeWindows
  exact ite_canonical (forEach_canonical (fun _ _ ht => modCore_canonical (fun _ hc => CoreSt.modWindow_canonical hc) ht) hs) hs

theorem CoreSt.closeAll_canonical (hc : c.Canonical) : (c.closeAll).Canonical := hc

theorem flagUnit_canonical {n cause} (hs : s.Canonical) : (flagUnit n cause s).Canonical := by
  unfold flagUnit
  exact modCore_canonical (fun _ hc => hc) hs

theorem refuseOp_canonical {a bit} (hs : s.Canonical) : (refuseOp a bit s).Canonical := by
  unfold refuseOp
  dsimp only
  split
  · refine flagUnit_canonical (report_canonical ?_)
    split
    · exact hs
    · exact raise_canonical hs
  · split
    · exact hs
    · exact raise_canonical hs

theorem beginWait_canonical {c on} (hs : s.Canonical) : (beginWait c on s).Canonical := by
  unfold beginWait
  exact modCore_canonical (fun _ hc => hc) (modQmg_canonical hs)

theorem endWait_canonical {c on} (hs : s.Canonical) : (endWait c on s).Canonical := by
  unfold endWait
  exact modCore_canonical (fun _ hc => CoreSt.ite_canonical hc hc) (modQmg_canonical hs)

theorem dropWaits_canonical {c} (hs : s.Canonical) : (dropWaits c s).Canonical := by
  unfold dropWaits
  exact modQmg_canonical hs

theorem nextOrder_canonical (hs : s.Canonical) : (s.nextOrder).2.Canonical := by
  unfold State.nextOrder
  exact modQmg_canonical hs

theorem issueTransfer_canonical {c n h} (hs : s.Canonical) : (issueTransfer c n h s).Canonical := by
  unfold issueTransfer
  exact modQmg_canonical (modQueue_canonical hs)

theorem issueFetch_canonical {f} (hs : s.Canonical) : (issueFetch f s).Canonical := by
  unfold issueFetch
  exact modQmg_canonical (forEach_canonical (fun _ _ ht => issueTransfer_canonical ht) hs)

theorem issueFetches_canonical {n} (hs : s.Canonical) : (issueFetches n s).Canonical := by
  unfold issueFetches
  exact forEach_canonical (fun _ _ ht => issueFetch_canonical ht) (modQmg_canonical hs)

theorem deliver_canonical {c n q h} (hs : s.Canonical) : (deliver c n q h s).Canonical := by
  unfold deliver
  exact ite_canonical (issueFetches_canonical (modQmg_canonical (modCore_canonical (fun _ hc => hc) (nextOrder_canonical hs))))
      (modCore_canonical (fun _ hc => hc) (nextOrder_canonical hs))

theorem pushEntry_canonical {n h} (hs : s.Canonical) : (pushEntry n h s).Canonical := by
  unfold pushEntry
  exact forEach_canonical (fun _ _ ht => deliver_canonical (endWait_canonical ht)) (ite_canonical (modQueue_canonical hs)
      (modQueue_canonical hs))

theorem faultQueue_canonical {n} (hs : s.Canonical) : (faultQueue n s).Canonical := by
  unfold faultQueue
  exact ite_canonical (modQueue_canonical hs) (modCtx_canonical hs)

theorem readDescriptor_canonical {n u} (hs : s.Canonical) : (readDescriptor n u s).2.Canonical := by
  unfold readDescriptor
  exact ite_snd_canonical (report_canonical (raiseAt_canonical (faultQueue_canonical (takeInj_canonical (ite_canonical
      (raise_canonical (modQmg_canonical (takeInj_canonical hs))) (takeInj_canonical hs)))))) (takeInj_canonical (ite_canonical
      (raise_canonical (modQmg_canonical (takeInj_canonical hs))) (takeInj_canonical hs)))

theorem agentWait_canonical {a on} (hs : s.Canonical) : (agentWait a on s).Canonical := by
  unfold agentWait
  split
  · exact beginWait_canonical hs
  · exact hs

theorem pushTurn_canonical {u a n h} (hs : s.Canonical) : (pushTurn u a n h s).2.Canonical := by
  have ht := readDescriptor_canonical (n := n) (u := u) hs
  unfold pushTurn
  generalize readDescriptor n u s = read at ht ⊢
  obtain ⟨ok, t⟩ := read
  dsimp only at ht ⊢
  repeat' split
  all_goals dsimp only
  · exact refuseOp_canonical ht
  · exact refuseOp_canonical ht
  · exact ht
  · exact refuseOp_canonical ht
  · exact agentWait_canonical ht
  · exact refuseOp_canonical ht
  · exact refuseOp_canonical ht
  · exact beginWait_canonical (modQmg_canonical ht)
  · exact ht
  · exact pushEntry_canonical ht

theorem push_canonical {a n h} (hs : s.Canonical) : (push a n h s).Canonical := by
  unfold push
  exact pushTurn_canonical hs

theorem pop_canonical {c n u} (hs : s.Canonical) : (pop c n u s).Canonical := by
  unfold pop
  refine ite_canonical (refuseOp_canonical (readDescriptor_canonical hs)) ?_
  dsimp only
  split
  · exact readDescriptor_canonical hs
  · exact refuseOp_canonical (readDescriptor_canonical hs)
  · exact beginWait_canonical (readDescriptor_canonical hs)
  · split
    · exact deliver_canonical (modQueue_canonical (readDescriptor_canonical hs))
    · exact beginWait_canonical (modQmg_canonical (modQueue_canonical (readDescriptor_canonical hs)))

theorem giveFree_canonical {p pl i tag} (hs : s.Canonical) : (giveFree p pl i tag s).Canonical := by
  unfold giveFree
  exact modQueue_canonical (closeWindows_canonical (modBuffer_canonical hs))

theorem forceFree_canonical {h} (hs : s.Canonical) : (forceFree h s).Canonical := by
  unfold forceFree
  dsimp only
  split
  · exact hs
  · exact ite_canonical (giveFree_canonical hs) hs

theorem countReturn_canonical {a h pl} (hs : s.Canonical) : (countReturn a h pl s).2.Canonical := by
  unfold countReturn
  dsimp only
  repeat' split
  all_goals dsimp only
  · exact refuseOp_canonical hs
  · exact refuseOp_canonical hs
  · exact giveFree_canonical hs
  · exact modBuffer_canonical hs

theorem returnHere_canonical {a h pl} (hs : s.Canonical) : (returnHere a h pl s).2.Canonical := by
  unfold returnHere
  split
  · exact agentWait_canonical hs
  · exact refuseOp_canonical hs
  · exact countReturn_canonical hs

theorem returnTurn_canonical {a h} (hs : s.Canonical) : (returnTurn a h s).2.Canonical := by
  unfold returnTurn
  split
  · dsimp only
    exact refuseOp_canonical hs
  · rename_i pl _
    have ht := readDescriptor_canonical (n := pl.freeQueue) (u := .clean) hs
    generalize readDescriptor pl.freeQueue .clean s = read at ht ⊢
    obtain ⟨ok, t⟩ := read
    dsimp only
    repeat' split
    · exact refuseOp_canonical ht
    · exact refuseOp_canonical ht
    · exact returnHere_canonical ht

theorem giveBack_canonical {a h} (hs : s.Canonical) : (giveBack a h s).Canonical := by
  unfold giveBack
  exact returnTurn_canonical hs

theorem holdOutput_canonical {c q h} (hs : s.Canonical) : (holdOutput c q h s).Canonical := by
  unfold holdOutput
  exact modCore_canonical (fun _ hc => hc) hs

theorem checkOutput_canonical {payload h} (hs : s.Canonical) : (checkOutput payload h s).Canonical := by
  unfold checkOutput
  dsimp only
  split <;> exact modBuffer_canonical hs

theorem stampOutput_canonical {u h} (hs : s.Canonical) : (stampOutput u h s).Canonical := by
  unfold stampOutput
  exact modBuffer_canonical hs

theorem notePushed_canonical {u} (hs : s.Canonical) : (notePushed u s).Canonical := by
  unfold notePushed
  exact modStream_canonical hs

theorem pushOutputs_canonical {c u} (hs : s.Canonical) : (pushOutputs c u s).Canonical := by
  unfold pushOutputs
  exact notePushed_canonical (forEach_canonical (fun _ _ ht => push_canonical (checkOutput_canonical (stampOutput_canonical ht)))
      hs)

theorem CoreSt.dropAcc_canonical (hc : c.Canonical) : (c.dropAcc).Canonical := hc

theorem CoreSt.unjoin_canonical (hc : c.Canonical) : (c.unjoin).Canonical := hc

theorem reportOwed_canonical {c u corrected} (hs : s.Canonical) : (reportOwed c u corrected s).Canonical := by
  unfold reportOwed
  exact ite_canonical (ite_canonical hs (reportAt_canonical hs)) (reportAt_canonical (ite_canonical hs (reportAt_canonical hs)))

theorem stopUnit_canonical {c} (hs : s.Canonical) : (stopUnit c s).Canonical := by
  unfold stopUnit
  split
  · exact hs
  · exact reportOwed_canonical (forEach_canonical (fun _ _ ht => forceFree_canonical ht) (dropWaits_canonical (modCore_canonical
      (fun _ hc => CoreSt.unjoin_canonical (CoreSt.dropAcc_canonical hc)) hs)))

/-! ### Items and formed records (R20, R299, R419) -/

theorem modItem_canonical {id seq f} (hs : s.Canonical) : (s.modItem id seq f).Canonical := by
  unfold State.modItem
  exact modStream_canonical hs

theorem formRecord_canonical {id seq own calls payload} (hs : s.Canonical) : (formRecord id seq own calls payload s).Canonical := by
  unfold formRecord
  split
  · exact hs
  · split
    · exact hs
    · exact modStream_canonical hs

theorem qmgRecordOf_canonical {id seq own cause} (hs : s.Canonical) : (qmgRecordOf id seq own cause s).Canonical := by
  unfold qmgRecordOf
  exact formRecord_canonical hs

theorem qmgRecord_canonical {id seq cause} (hs : s.Canonical) : (qmgRecord id seq cause s).Canonical := by
  unfold qmgRecord
  split
  · exact hs
  · exact qmgRecordOf_canonical hs

theorem discardRecord_canonical {id seq cause} (hs : s.Canonical) : (discardRecord id seq cause s).Canonical := by
  unfold discardRecord
  exact ite_canonical hs (qmgRecordOf_canonical hs)

theorem recordAll_canonical {cause id} (hs : s.Canonical) : (recordAll cause id s).Canonical := by
  unfold recordAll
  split
  · exact hs
  · exact forEach_canonical (fun _ _ ht => qmgRecord_canonical ht) hs

theorem recordEverything_canonical {cause} (hs : s.Canonical) : (recordEverything cause s).Canonical := by
  unfold recordEverything
  exact forEach_canonical (fun _ _ ht => recordAll_canonical ht) hs

theorem acceptItem_canonical {id it} (hs : s.Canonical) : (acceptItem id it s).Canonical := by
  unfold acceptItem
  exact modStream_canonical hs

theorem sendRecord_canonical {st r} (hs : s.Canonical) : (sendRecord st r s).Canonical := by
  unfold sendRecord
  exact ite_canonical (emit_canonical hs) (emit_canonical hs)

theorem sendFormed_canonical {id} (hs : s.Canonical) : (sendFormed id s).Canonical := by
  unfold sendFormed
  split
  · exact hs
  · exact forEach_canonical (fun _ _ ht => sendRecord_canonical ht) (modStream_canonical hs)

/-! ### Settings records (R428 to R430) -/

theorem firmwareRecord_canonical {type inst value} (hs : s.Canonical) : (firmwareRecord type inst value s).Canonical := hs

theorem recordRetirement_canonical {n} (hs : s.Canonical) : (recordRetirement n s).Canonical := by
  unfold recordRetirement
  exact firmwareRecord_canonical hs

/-! ### Placements that come and go, spares, Bedrock mode (R13, R265, R356) -/

theorem startStep_canonical {q t} (hs : s.Canonical) : (startStep q t s).Canonical := by
  unfold startStep
  exact ite_canonical (modQuad_canonical hs) (ite_canonical (modQuad_canonical hs) (ite_canonical (modQuad_canonical
      (takeInj_canonical hs)) (modQuad_canonical hs)))

theorem refreshBedrock_canonical (hs : s.Canonical) : (refreshBedrock s).Canonical := by
  unfold refreshBedrock
  exact forEach_canonical (fun _ _ ht => ite_canonical (startStep_canonical (modQuad_canonical (modQuad_canonical ht)))
      (modQuad_canonical ht)) hs

theorem CoreSt.unhost_canonical {slots} (hc : c.Canonical) : (c.unhost slots).Canonical := hc

theorem CoreSt.release_canonical (hc : c.Canonical) : (c.release).Canonical := hc

theorem rebalance_canonical (hs : s.Canonical) : (rebalance s).Canonical := by
  unfold rebalance
  exact ite_canonical hs (forEach_canonical (fun _ _ ht => modCore_canonical (fun _ hc => hc) ht) hs)

theorem shiftSpare_canonical {q} (hs : s.Canonical) : (shiftSpare q s).Canonical := by
  unfold shiftSpare
  refine ite_canonical hs ?_
  split
  · exact modCore_canonical (fun _ hc => hc) (modCore_canonical (fun _ hc => hc) hs)
  · exact hs

theorem evenSpares_canonical (hs : s.Canonical) : (evenSpares s).Canonical := by
  unfold evenSpares
  exact forEach_canonical (fun _ _ ht => shiftSpare_canonical (shiftSpare_canonical ht)) hs

theorem trimPool_canonical (hs : s.Canonical) : (trimPool s).Canonical := by
  unfold trimPool
  exact forEach_canonical (fun _ _ ht => modCore_canonical (fun _ hc => hc) ht) hs

theorem createPool_canonical {id st p} (hs : s.Canonical) : (createPool id st p s).Canonical := by
  unfold createPool
  exact ite_canonical (forEach_canonical (fun _ _ ht => modCore_canonical (fun _ hc => CoreSt.foldl_canonical (fun _ _ hd =>
      CoreSt.modWindow_canonical hd) hc) ht) (modQmg_canonical hs)) (modQmg_canonical hs)

theorem createQueue_canonical {id st q} (hs : s.Canonical) : (createQueue id st q s).Canonical := by
  unfold createQueue
  exact modQmg_canonical hs

theorem createLink_canonical {l} (hs : s.Canonical) : (createLink l s).Canonical := by
  unfold createLink
  exact modQmg_canonical hs

theorem hostCore_canonical {slot part image stage d n} (hs : s.Canonical) : (hostCore slot part image stage d n s).Canonical := by
  unfold hostCore
  exact modCore_canonical (fun _ hc => wf_loadRegion _ (wf_host _ _ _ _ _ hc)) hs

theorem hostSlot_canonical {st p} (hs : s.Canonical) : (hostSlot st p s).Canonical := by
  unfold hostSlot
  exact forEach_canonical (fun _ _ ht => hostCore_canonical ht) hs

theorem placeStream_canonical {id st} (hs : s.Canonical) : (placeStream id st s).Canonical := by
  unfold placeStream
  exact refreshBedrock_canonical (forEach_canonical (fun _ _ ht => modVote_canonical ht) (forEach_canonical (fun _ _ ht =>
      createLink_canonical ht) (forEach_canonical (fun _ _ ht => createQueue_canonical ht) (forEach_canonical (fun _ _ ht =>
      createPool_canonical ht) (forEach_canonical (fun _ _ ht => hostSlot_canonical ht) hs)))))

theorem withdrawStream_canonical {id} (hs : s.Canonical) : (withdrawStream id s).Canonical := by
  unfold withdrawStream
  split
  · exact hs
  · exact refreshBedrock_canonical (forEach_canonical (fun _ _ ht => modCore_canonical (fun _ hc => CoreSt.unhost_canonical hc) ht)
      (forEach_canonical (fun _ _ ht => modCore_canonical (fun _ hc => CoreSt.release_canonical hc) ht) hs))

/-! ### The shared cache and its lines in DRAM (R149 to R161) -/

theorem dmcUncorr_canonical {c off ctx part} (hs : s.Canonical) : (dmcUncorr c off ctx part s).Canonical := by
  unfold dmcUncorr
  exact report_canonical (raiseAt_canonical hs)

theorem dmcRead_canonical {off u ctx part} (hs : s.Canonical) : (dmcRead off u ctx part s).2.Canonical := by
  unfold dmcRead
  exact ite_snd_canonical (dmcUncorr_canonical (ite_canonical (raise_canonical (ite_canonical (raise_canonical (modDmc_canonical
      (ite_canonical (raise_canonical (ite_canonical (raise_canonical (modDmc_canonical (takeInj_canonical (takeInj_canonical
      (takeInj_canonical (takeInj_canonical hs)))))) (takeInj_canonical (takeInj_canonical (takeInj_canonical (takeInj_canonical
      hs)))))) (ite_canonical (raise_canonical (modDmc_canonical (takeInj_canonical (takeInj_canonical (takeInj_canonical
      (takeInj_canonical hs)))))) (takeInj_canonical (takeInj_canonical (takeInj_canonical (takeInj_canonical hs))))))))
      (ite_canonical (raise_canonical (ite_canonical (raise_canonical (modDmc_canonical (takeInj_canonical (takeInj_canonical
      (takeInj_canonical (takeInj_canonical hs)))))) (takeInj_canonical (takeInj_canonical (takeInj_canonical (takeInj_canonical
      hs)))))) (ite_canonical (raise_canonical (modDmc_canonical (takeInj_canonical (takeInj_canonical (takeInj_canonical
      (takeInj_canonical hs)))))) (takeInj_canonical (takeInj_canonical (takeInj_canonical (takeInj_canonical hs))))))))
      (ite_canonical (raise_canonical (modDmc_canonical (ite_canonical (raise_canonical (ite_canonical (raise_canonical
      (modDmc_canonical (takeInj_canonical (takeInj_canonical (takeInj_canonical (takeInj_canonical hs)))))) (takeInj_canonical
      (takeInj_canonical (takeInj_canonical (takeInj_canonical hs)))))) (ite_canonical (raise_canonical (modDmc_canonical
      (takeInj_canonical (takeInj_canonical (takeInj_canonical (takeInj_canonical hs)))))) (takeInj_canonical (takeInj_canonical
      (takeInj_canonical (takeInj_canonical hs)))))))) (ite_canonical (raise_canonical (ite_canonical (raise_canonical
      (modDmc_canonical (takeInj_canonical (takeInj_canonical (takeInj_canonical (takeInj_canonical hs)))))) (takeInj_canonical
      (takeInj_canonical (takeInj_canonical (takeInj_canonical hs)))))) (ite_canonical (raise_canonical (modDmc_canonical
      (takeInj_canonical (takeInj_canonical (takeInj_canonical (takeInj_canonical hs)))))) (takeInj_canonical (takeInj_canonical
      (takeInj_canonical (takeInj_canonical hs))))))))) (ite_canonical (raise_canonical (ite_canonical (raise_canonical
      (modDmc_canonical (ite_canonical (raise_canonical (ite_canonical (raise_canonical (modDmc_canonical (takeInj_canonical
      (takeInj_canonical (takeInj_canonical (takeInj_canonical hs)))))) (takeInj_canonical (takeInj_canonical (takeInj_canonical
      (takeInj_canonical hs)))))) (ite_canonical (raise_canonical (modDmc_canonical (takeInj_canonical (takeInj_canonical
      (takeInj_canonical (takeInj_canonical hs)))))) (takeInj_canonical (takeInj_canonical (takeInj_canonical (takeInj_canonical
      hs)))))))) (ite_canonical (raise_canonical (ite_canonical (raise_canonical (modDmc_canonical (takeInj_canonical
      (takeInj_canonical (takeInj_canonical (takeInj_canonical hs)))))) (takeInj_canonical (takeInj_canonical (takeInj_canonical
      (takeInj_canonical hs)))))) (ite_canonical (raise_canonical (modDmc_canonical (takeInj_canonical (takeInj_canonical
      (takeInj_canonical (takeInj_canonical hs)))))) (takeInj_canonical (takeInj_canonical (takeInj_canonical (takeInj_canonical
      hs)))))))) (ite_canonical (raise_canonical (modDmc_canonical (ite_canonical (raise_canonical (ite_canonical (raise_canonical
      (modDmc_canonical (takeInj_canonical (takeInj_canonical (takeInj_canonical (takeInj_canonical hs)))))) (takeInj_canonical
      (takeInj_canonical (takeInj_canonical (takeInj_canonical hs)))))) (ite_canonical (raise_canonical (modDmc_canonical
      (takeInj_canonical (takeInj_canonical (takeInj_canonical (takeInj_canonical hs)))))) (takeInj_canonical (takeInj_canonical
      (takeInj_canonical (takeInj_canonical hs)))))))) (ite_canonical (raise_canonical (ite_canonical (raise_canonical
      (modDmc_canonical (takeInj_canonical (takeInj_canonical (takeInj_canonical (takeInj_canonical hs)))))) (takeInj_canonical
      (takeInj_canonical (takeInj_canonical (takeInj_canonical hs)))))) (ite_canonical (raise_canonical (modDmc_canonical
      (takeInj_canonical (takeInj_canonical (takeInj_canonical (takeInj_canonical hs)))))) (takeInj_canonical (takeInj_canonical
      (takeInj_canonical (takeInj_canonical hs))))))))

theorem dmcWriteLink_canonical {off u} (hs : s.Canonical) : (dmcWriteLink off u s).Canonical := by
  unfold dmcWriteLink
  exact ite_canonical (raise_canonical (modDmc_canonical hs)) hs

theorem dramLine_canonical {off data poison} (hs : s.Canonical) : (dramLine off data poison s).Canonical := by
  unfold dramLine
  exact storeDram_canonical hs

theorem touchWay_canonical {k l w} (hs : s.Canonical) : (touchWay k l w s).Canonical := by
  unfold touchWay
  exact modSlice_canonical hs

theorem evictWith_canonical {u k key} (hs : s.Canonical) : (evictWith u k key s).Canonical := by
  unfold evictWith
  split
  · exact hs
  · exact ite_canonical (dmcWriteLink_canonical (dramLine_canonical (modSlice_canonical (modSlice_canonical hs))))
      (modSlice_canonical hs)

theorem evict_canonical {k key} (hs : s.Canonical) : (evict k key s).Canonical := by
  unfold evict
  exact ite_canonical (evictWith_canonical hs) (evictWith_canonical hs)

theorem allocLine_canonical {k mask x u} (hs : s.Canonical) : (allocLine k mask x u s).Canonical := by
  unfold allocLine
  split
  · exact hs
  · exact touchWay_canonical (modSlice_canonical (evictWith_canonical hs))

theorem flushWhere_canonical {k p} (hs : s.Canonical) : (flushWhere k p s).Canonical := by
  unfold flushWhere
  exact forEach_canonical (fun _ _ ht => evict_canonical ht) hs

theorem rehome_canonical {ranges f} (hs : s.Canonical) : (rehome ranges f s).Canonical := by
  unfold rehome
  exact modMesh_canonical (forEach_canonical (fun _ _ ht => flushWhere_canonical ht) hs)

theorem homePools_canonical {st} (hs : s.Canonical) : (homePools st s).Canonical := by
  unfold homePools
  refine forEach_canonical (fun _ _ ht => ?_) hs
  split
  · exact ht
  · exact rehome_canonical ht

theorem dropHomes_canonical {old} (hs : s.Canonical) : (dropHomes old s).Canonical := by
  unfold dropHomes
  exact rehome_canonical hs

theorem unhomePools_canonical {st} (hs : s.Canonical) : (unhomePools st s).Canonical := by
  unfold unhomePools
  exact dropHomes_canonical hs

theorem rehomePools_canonical {st old} (hs : s.Canonical) : (rehomePools st old s).Canonical := by
  unfold rehomePools
  exact ite_canonical hs (homePools_canonical (dropHomes_canonical hs))

theorem dropStream_canonical {id} (hs : s.Canonical) : (dropStream id s).Canonical := by
  unfold dropStream
  split
  · exact hs
  · exact rebalance_canonical (withdrawStream_canonical (unhomePools_canonical (sendFormed_canonical hs)))

theorem bypassSlice_canonical {k takers} (hs : s.Canonical) : (bypassSlice k takers s).Canonical := by
  unfold bypassSlice
  exact modHdr_canonical (modSlice_canonical (forEach_canonical (fun _ _ ht => flushWhere_canonical ht) (modMesh_canonical
      (flushWhere_canonical hs))))

theorem rangeRefusal_canonical {k off ctx part} (hs : s.Canonical) : (rangeRefusal k off ctx part s).Canonical := by
  unfold rangeRefusal
  exact report_canonical (raiseAt_canonical hs)

theorem autoBypass_canonical {k} (hs : s.Canonical) : (autoBypass k s).Canonical := by
  unfold autoBypass
  exact firmwareRecord_canonical (bypassSlice_canonical hs)

theorem repairSliceRow_canonical {k part row} (hs : s.Canonical) : (repairSliceRow k part row s).Canonical := by
  unfold repairSliceRow
  exact ite_canonical (firmwareRecord_canonical (modSlice_canonical hs)) (autoBypass_canonical hs)

theorem sliceCorrected_canonical {k part row word} (hs : s.Canonical) : (sliceCorrected k part row word s).Canonical := by
  unfold sliceCorrected
  exact ite_canonical (repairSliceRow_canonical hs) (modSlice_canonical hs)

theorem tagCheck_canonical {k l u oneCopy copy} (hs : s.Canonical) : (tagCheck k l u oneCopy copy s).Canonical := by
  unfold tagCheck
  exact ite_canonical (fatalError_canonical (raise_canonical (takeInj_canonical hs))) (ite_canonical (ite_canonical
      (repairSliceRow_canonical (raise_canonical (modSlice_canonical (takeInj_canonical hs)))) (sliceCorrected_canonical
      (raise_canonical (modSlice_canonical (takeInj_canonical hs))))) (takeInj_canonical hs))

theorem dataCheck_canonical {k l w ctx part u dram} (hs : s.Canonical) : (dataCheck k l w ctx part u dram s).Canonical := by
  unfold dataCheck
  refine ite_canonical ?_ (ite_canonical (sliceCorrected_canonical (raise_canonical (modSlice_canonical (takeInj_canonical
      (takeInj_canonical hs))))) (takeInj_canonical (takeInj_canonical hs)))
  dsimp only
  split
  · exact raiseAt_canonical (ite_canonical (sliceCorrected_canonical (raise_canonical (modSlice_canonical (takeInj_canonical
      (takeInj_canonical hs))))) (takeInj_canonical (takeInj_canonical hs)))
  · exact repairSliceRow_canonical (ite_canonical (report_canonical (dmcWriteLink_canonical (dramLine_canonical (modSlice_canonical
      (raiseAt_canonical (ite_canonical (sliceCorrected_canonical (raise_canonical (modSlice_canonical (takeInj_canonical
      (takeInj_canonical hs))))) (takeInj_canonical (takeInj_canonical hs)))))))) (modSlice_canonical (raiseAt_canonical
      (ite_canonical (sliceCorrected_canonical (raise_canonical (modSlice_canonical (takeInj_canonical (takeInj_canonical hs)))))
      (takeInj_canonical (takeInj_canonical hs))))))

theorem lineAccess_canonical {off ctx part op tag data oneCopy copy dram} (hs : s.Canonical) :
    (lineAccess off ctx part op tag data oneCopy copy dram s).2.Canonical := by
  unfold lineAccess
  refine ite_snd_canonical (emit_canonical hs) (ite_snd_canonical (rangeRefusal_canonical hs) ?_)
  dsimp only
  split
  · refine touchWay_canonical (modSlice_canonical ?_)
    split
    · exact tagCheck_canonical hs
    · exact ite_canonical (tagCheck_canonical hs) (dataCheck_canonical (tagCheck_canonical hs))
  · refine ite_canonical (allocLine_canonical (ite_snd_canonical (modSlice_canonical ?_) (dmcRead_canonical (modSlice_canonical
      ?_)))) (ite_canonical (dmcWriteLink_canonical (dramLine_canonical (ite_snd_canonical (modSlice_canonical ?_)
      (dmcRead_canonical (modSlice_canonical ?_))))) (ite_snd_canonical (modSlice_canonical ?_) (dmcRead_canonical
      (modSlice_canonical ?_))))
    · split
      · exact tagCheck_canonical hs
      · exact ite_canonical (tagCheck_canonical hs) (dataCheck_canonical (tagCheck_canonical hs))
    · split
      · exact tagCheck_canonical hs
      · exact ite_canonical (tagCheck_canonical hs) (dataCheck_canonical (tagCheck_canonical hs))
    · split
      · exact tagCheck_canonical hs
      · exact ite_canonical (tagCheck_canonical hs) (dataCheck_canonical (tagCheck_canonical hs))
    · split
      · exact tagCheck_canonical hs
      · exact ite_canonical (tagCheck_canonical hs) (dataCheck_canonical (tagCheck_canonical hs))
    · split
      · exact tagCheck_canonical hs
      · exact ite_canonical (tagCheck_canonical hs) (dataCheck_canonical (tagCheck_canonical hs))
    · split
      · exact tagCheck_canonical hs
      · exact ite_canonical (tagCheck_canonical hs) (dataCheck_canonical (tagCheck_canonical hs))

end Sys2Proof.Machine

/-! The canonical form of both memories under the commands of a context (R203, R274 to R278). -/

namespace Sys2Proof.Machine

open Sys2Proof Sys2Proof.Machine.Bits

variable {s t : State} {c : CoreSt}

/-! ### Waiting commands, epochs and CANCEL (R196 to R203) -/

theorem dropFetched_canonical {cmd op} (hs : s.Canonical) : (dropFetched cmd op s).Canonical := by
  unfold dropFetched
  exact modCtx_canonical hs

theorem addRunning_canonical {cmd op order epoch} (hs : s.Canonical) : (addRunning cmd op order epoch s).Canonical := by
  unfold addRunning
  exact modCtx_canonical hs

theorem retireCtx_canonical {c} (hs : s.Canonical) : (retireCtx c s).Canonical := by
  unfold retireCtx
  exact modCtx_canonical (modCtl_canonical hs)

theorem dropRunning_canonical {ctx order} (hs : s.Canonical) : (dropRunning ctx order s).Canonical := by
  unfold dropRunning
  exact modCtx_canonical hs

theorem endRunning_canonical {ctx order status detail} (hs : s.Canonical) : (endRunning ctx order status detail s).Canonical := by
  unfold endRunning
  split
  · exact hs
  · exact finish_canonical (dropRunning_canonical hs)

theorem endOpen_canonical {ctx order status} (hs : s.Canonical) : (endOpen ctx order status s).Canonical := by
  unfold endOpen
  split
  · exact hs
  · exact finishOpen_canonical (dropRunning_canonical hs)

theorem hold_canonical {why cmd op order i} (hs : s.Canonical) : (hold why cmd op order i s).Canonical := by
  unfold hold
  exact modCtl_canonical (addRunning_canonical hs)

theorem gate_canonical {i cmd op run} (hf : ∀ x t, t.Canonical → (run x t).Canonical) (hs : s.Canonical) :
    (gate i cmd op run s).Canonical := by
  unfold gate
  exact ite_canonical (ite_canonical (hold_canonical (nextOrder_canonical (dropFetched_canonical hs))) (hf _ _ (nextOrder_canonical
      (dropFetched_canonical hs)))) hs

theorem openEpoch_canonical {ctx stream order} (hs : s.Canonical) : (openEpoch ctx stream order s).2.Canonical := by
  unfold openEpoch
  exact modQmg_canonical hs

theorem modEpoch_canonical {e f} (hs : s.Canonical) : (modEpoch e f s).Canonical := by
  unfold modEpoch
  exact modQmg_canonical hs

theorem settleFences_canonical (hs : s.Canonical) : (settleFences s).Canonical := by
  unfold settleFences
  exact forEach_canonical (fun _ _ ht => ite_canonical (endRunning_canonical (modCtl_canonical ht)) ht) hs

theorem refreshOdometer_canonical (hs : s.Canonical) : (refreshOdometer s).Canonical := by
  unfold refreshOdometer
  exact modTal_canonical hs

theorem leaveSets_canonical {id} (hs : s.Canonical) : (leaveSets id s).Canonical := by
  unfold leaveSets
  exact modTal_canonical hs

theorem disarm_canonical {id} (hs : s.Canonical) : (disarm id s).Canonical := by
  unfold disarm
  exact refreshOdometer_canonical (modStream_canonical (leaveSets_canonical (forEach_canonical (fun _ _ ht => forceFree_canonical
      ht) hs)))

theorem dropReady_canonical {e n} (hs : s.Canonical) : (dropReady e n s).Canonical := by
  unfold dropReady
  exact forEach_canonical (fun _ _ ht => forceFree_canonical ht) (modCore_canonical (fun _ hc => hc) hs)

theorem emptyQueue_canonical {n} (hs : s.Canonical) : (emptyQueue n s).Canonical := by
  unfold emptyQueue
  exact forEach_canonical (fun _ _ ht => forceFree_canonical ht) (modQueue_canonical hs)

theorem dropSignatures_canonical {e} (hs : s.Canonical) : (dropSignatures e s).Canonical := by
  unfold dropSignatures
  exact modQmg_canonical hs

theorem stopEpoch_canonical {e} (hs : s.Canonical) : (stopEpoch e s).Canonical := by
  unfold stopEpoch
  exact dropSignatures_canonical (forEach_canonical (fun _ _ ht => emptyQueue_canonical ht) (forEach_canonical (fun _ _ ht =>
      endWait_canonical ht) (forEach_canonical (fun _ _ ht => dropReady_canonical ht) (forEach_canonical (fun _ _ ht =>
      stopUnit_canonical ht) (modEpoch_canonical hs)))))

theorem twins_canonical {e f} (hs : s.Canonical) : (twins e f s).Canonical := by
  unfold twins
  exact ite_canonical hs (modEpoch_canonical (modEpoch_canonical hs))

theorem cancelEpoch_canonical {e} (hs : s.Canonical) : (cancelEpoch e s).Canonical := by
  unfold cancelEpoch
  refine refreshBedrock_canonical (forEach_canonical (fun _ _ ht => disarm_canonical (recordAll_canonical ht)) (forEach_canonical
      (fun _ _ ht => stopEpoch_canonical ht) (forEach_canonical (fun _ _ ht => ?_) hs)))
  split
  · exact ht
  · split
    · exact ht
    · exact twins_canonical ht

theorem discardNew_canonical (hs : s.Canonical) : (discardNew s).Canonical := by
  unfold discardNew
  split
  · exact hs
  · exact refreshBedrock_canonical (modCtl_canonical (forEach_canonical (fun _ _ ht => modCore_canonical (fun _ hc => wf_clear
      (CoreSt.release_canonical hc)) ht) hs))

theorem abandon_canonical (hs : s.Canonical) : (abandon s).Canonical := by
  unfold abandon
  split
  · exact hs
  · exact ite_canonical (raise_canonical (modCtl_canonical (discardNew_canonical hs))) hs

theorem abandonForCancel_canonical (hs : s.Canonical) : (abandonForCancel s).Canonical := by
  unfold abandonForCancel
  split
  · exact hs
  · exact ite_canonical (raise_canonical (modCtl_canonical (discardNew_canonical hs))) hs

theorem leaveStage_canonical {n} (hs : s.Canonical) : (leaveStage n s).Canonical := by
  unfold leaveStage
  exact ite_canonical hs (modCore_canonical (fun _ hc => CoreSt.release_canonical hc) hs)

theorem endRepl_canonical {r} (hs : s.Canonical) : (endRepl r s).Canonical := by
  unfold endRepl
  exact trimPool_canonical (refreshBedrock_canonical (modCtl_canonical (forEach_canonical (fun _ _ ht => leaveStage_canonical ht)
      hs)))

/-! ### Images (R272, R273) -/

theorem doLoadImage_canonical {cmd len crc file} (hs : s.Canonical) : (doLoadImage cmd len crc file s).Canonical := by
  unfold doLoadImage
  refine ite_canonical (finish_canonical (takeInj_canonical hs)) (ite_canonical (finishOpen_canonical (takeInj_canonical hs))
      (ite_canonical (finishOpen_canonical (takeInj_canonical hs)) ?_))
  split <;> exact finish_canonical (takeInj_canonical hs)

theorem doUnload_canonical {cmd image} (hs : s.Canonical) : (doUnload cmd image s).Canonical := by
  unfold doUnload
  split
  · exact finishOpen_canonical hs
  · exact ite_canonical (finishOpen_canonical hs) (ite_canonical (finishOpen_canonical hs) (finishOpen_canonical hs))

/-! ### DECLARE_STREAM (R275) -/

theorem bindPort_canonical {id d} (hs : s.Canonical) : (bindPort id d s).Canonical := by
  unfold bindPort
  split
  · exact hs
  · exact ite_canonical (modPort_canonical (modPort_canonical hs)) (modPort_canonical hs)

theorem joinGroup_canonical {id d} (hs : s.Canonical) : (joinGroup id d s).Canonical := by
  unfold joinGroup
  split
  · exact hs
  · exact modTal_canonical hs

theorem bindDetector_canonical {id d} (hs : s.Canonical) : (bindDetector id d s).Canonical := by
  unfold bindDetector
  split
  · exact hs
  · exact modTal_canonical hs

theorem doDeclare_canonical {cmd id image block crc lode} (hs : s.Canonical) :
    (doDeclare cmd id image block crc lode s).Canonical := by
  unfold doDeclare
  dsimp only
  split
  · exact finishOpen_canonical hs
  · refine ite_canonical (finishOpen_canonical hs) (ite_canonical (finishOpen_canonical hs) ?_)
    split
    · exact finishOpen_canonical hs
    · refine ite_canonical (finishOpen_canonical hs) (ite_canonical (finishOpen_canonical hs) ?_)
      split
      · exact finishOpen_canonical hs
      · exact ite_canonical (finish_canonical (homePools_canonical (placeStream_canonical (bindDetector_canonical
          (joinGroup_canonical (bindPort_canonical (setStream_canonical hs))))))) (finishOpen_canonical hs)

/-! ### ARM_STREAM and REARM (R193, R274) -/

theorem emptyRings_canonical {st} (hs : s.Canonical) : (emptyRings st s).Canonical := by
  unfold emptyRings
  exact forEach_canonical (fun _ _ ht => modCore_canonical (fun _ hc => wf_emptyRings hc) ht) hs

theorem setQueueEpochs_canonical {id e} (hs : s.Canonical) : (setQueueEpochs id e s).Canonical := by
  unfold setQueueEpochs
  exact modQmg_canonical hs

theorem fixGrid_canonical {d} (hs : s.Canonical) : (fixGrid d s).Canonical := by
  unfold fixGrid
  exact ite_canonical (modTal_canonical hs) hs

theorem checkFailed_canonical {id st} (hs : s.Canonical) : (checkFailed id st s).Canonical := by
  unfold checkFailed
  exact report_canonical hs

theorem armNow_canonical {cmd id st first ring} (hs : s.Canonical) : (armNow cmd id st first ring s).Canonical := by
  unfold armNow
  exact finish_canonical (ite_canonical (forEach_canonical (fun _ _ ht => modPort_canonical ht) (refreshOdometer_canonical
      (setStream_canonical (fixGrid_canonical (setQueueEpochs_canonical (emptyRings_canonical (openEpoch_canonical hs)))))))
      (refreshOdometer_canonical (setStream_canonical (fixGrid_canonical (setQueueEpochs_canonical (emptyRings_canonical
      (openEpoch_canonical hs)))))))

theorem doArm_canonical {o cmd id firstSeq camera ring} (hs : s.Canonical) : (doArm o cmd id firstSeq camera ring s).Canonical := by
  unfold doArm
  dsimp only
  split
  · exact finishOpen_canonical hs
  · refine ite_canonical (finishOpen_canonical hs) (ite_canonical (hold_canonical hs) ?_)
    split
    · exact finishOpen_canonical hs
    · exact ite_canonical (finishOpen_canonical hs) (ite_canonical (finishOpen_canonical hs) (ite_canonical (finishOpen_canonical
        (checkFailed_canonical hs)) (ite_canonical (hold_canonical hs) (ite_canonical (hold_canonical hs) (armNow_canonical hs)))))

theorem rearmNow_canonical {o cmd id firstSeq rs ring} (hs : s.Canonical) : (rearmNow o cmd id firstSeq rs ring s).Canonical := by
  unfold rearmNow
  exact modStream_canonical (addRunning_canonical (openEpoch_canonical hs))

theorem doRearm_canonical {o cmd id firstSeq rebase ring} (hs : s.Canonical) :
    (doRearm o cmd id firstSeq rebase ring s).Canonical := by
  unfold doRearm
  dsimp only
  split
  · exact finishOpen_canonical hs
  · refine ite_canonical (finishOpen_canonical hs) (ite_canonical (hold_canonical hs) (ite_canonical (hold_canonical hs) ?_))
    split
    · exact ite_canonical (finishOpen_canonical hs) (ite_canonical (hold_canonical hs) (rearmNow_canonical hs))
    · exact finishOpen_canonical hs

theorem advanceAll_canonical {p pl} (hs : s.Canonical) : (advanceAll p pl s).Canonical := by
  unfold advanceAll
  exact forEach_canonical (fun _ _ ht => modBuffer_canonical ht) hs

theorem moveWindows_canonical {pl} (hs : s.Canonical) : (moveWindows pl s).Canonical := by
  unfold moveWindows
  exact ite_canonical (forEach_canonical (fun _ _ ht => modCore_canonical (fun _ hc => CoreSt.foldl_canonical (fun _ _ hd =>
      CoreSt.modWindow_canonical hd) hc) ht) hs) hs

theorem rebaseOne_canonical {r} (hs : s.Canonical) : (rebaseOne r s).Canonical := by
  unfold rebaseOne
  split
  · exact modQueue_canonical hs
  · split
    · exact hs
    · exact moveWindows_canonical (advanceAll_canonical (modQmg_canonical hs))

theorem rearmDone_canonical {id} (hs : s.Canonical) : (rearmDone id s).Canonical := by
  unfold rearmDone
  split
  · exact hs
  · split
    · exact hs
    · exact ite_canonical (endRunning_canonical (modEpoch_canonical (modStream_canonical (emptyRings_canonical
        (setQueueEpochs_canonical (forEach_canonical (fun _ _ ht => rebaseOne_canonical ht) hs)))))) hs

/-! ### Jobs, CANCEL, FENCE and HINT_PHASE (R249, R274, R281) -/

theorem readyTile_canonical {id st job p d n k} (hs : s.Canonical) : (readyTile id st job p d n k s).Canonical := by
  unfold readyTile
  split
  · exact hs
  · exact modCore_canonical (fun _ hc => hc) (nextOrder_canonical hs)

theorem readyJob_canonical {id st job} (hs : s.Canonical) : (readyJob id st job s).Canonical := by
  unfold readyJob
  exact forEach_canonical (fun _ _ ht => forEach_canonical (fun _ _ hu => readyTile_canonical hu) ht) hs

theorem dispatchNow_canonical {o cmd id st prio adapt deadline roundSeed augSeed first} (hs : s.Canonical) :
    (dispatchNow o cmd id st prio adapt deadline roundSeed augSeed first s).Canonical := by
  have ht : (openEpoch cmd.ctx.val (some id) (some o) s).2.Canonical := openEpoch_canonical hs
  unfold dispatchNow
  exact readyJob_canonical (addRunning_canonical (ite_canonical (setQueueEpochs_canonical (modStream_canonical ht))
    (modStream_canonical ht)))

theorem doDispatch_canonical {o cmd id prio adapt input output deadline roundSeed augSeed first} (hs : s.Canonical) :
    (doDispatch o cmd id prio adapt input output deadline roundSeed augSeed first s).Canonical := by
  unfold doDispatch
  dsimp only
  split
  · exact finishOpen_canonical hs
  · exact ite_canonical (finishOpen_canonical hs) (ite_canonical (finishOpen_canonical hs) (ite_canonical (finishOpen_canonical hs)
      (ite_canonical (hold_canonical hs) (dispatchNow_canonical hs))))

theorem endJob_canonical {id seq} (hs : s.Canonical) : (endJob id seq s).Canonical := by
  unfold endJob
  split
  · exact hs
  · split
    · exact hs
    · refine endRunning_canonical (modEpoch_canonical (modCtx_canonical ?_))
      split
      · exact modStream_canonical hs
      · exact setQueueEpochs_canonical (modStream_canonical hs)

theorem refreshHeld_canonical (hs : s.Canonical) : (refreshHeld s).Canonical := by
  unfold refreshHeld
  split <;> exact modPpe_canonical hs

theorem holdJob_canonical {id k} (hs : s.Canonical) : (holdJob id k s).Canonical := by
  unfold holdJob
  split
  · exact hs
  · split
    · exact hs
    · exact endRunning_canonical (modEpoch_canonical (raise_canonical (refreshHeld_canonical (modPpe_canonical (modStream_canonical
        hs)))))

theorem skipHeld_canonical {id j} (hs : s.Canonical) : (skipHeld id j s).Canonical := by
  unfold skipHeld
  exact refreshHeld_canonical (modStream_canonical hs)

theorem abortHeld_canonical {id j} (hs : s.Canonical) : (abortHeld id j s).Canonical := by
  unfold abortHeld
  exact refreshHeld_canonical (modStream_canonical hs)

theorem doResumeSkip_canonical {cmd} (hs : s.Canonical) : (doResumeSkip cmd s).Canonical := by
  unfold doResumeSkip
  split
  · exact finishOpen_canonical hs
  · exact finishOpen_canonical (skipHeld_canonical hs)

theorem doResumeAbort_canonical {cmd} (hs : s.Canonical) : (doResumeAbort cmd s).Canonical := by
  unfold doResumeAbort
  split
  · exact finishOpen_canonical hs
  · exact finishOpen_canonical (abortHeld_canonical hs)

theorem abortHeldOf_canonical {e} (hs : s.Canonical) : (abortHeldOf e s).Canonical := by
  unfold abortHeldOf
  exact forEach_canonical (fun _ _ ht => abortHeld_canonical ht) hs

theorem doCancel_canonical {o cmd e} (hs : s.Canonical) : (doCancel o cmd e s).Canonical := by
  unfold doCancel
  split
  · exact finishOpen_canonical hs
  · exact ite_canonical (finishOpen_canonical hs) (ite_canonical (modEpoch_canonical (addRunning_canonical hs))
      (cancelEpoch_canonical (abortHeldOf_canonical (ite_canonical (abandonForCancel_canonical (modEpoch_canonical
      (addRunning_canonical hs))) (modEpoch_canonical (addRunning_canonical hs))))))

theorem nextJobs_canonical (hs : s.Canonical) : (nextJobs s).Canonical := by
  unfold nextJobs
  refine forEach_canonical (fun _ _ ht => ?_) hs
  split
  · exact ht
  · exact setQueueEpochs_canonical ht

theorem epochQuietNow_canonical {e} (hs : s.Canonical) : (epochQuietNow e s).Canonical := by
  unfold epochQuietNow
  split
  · exact hs
  · refine ite_canonical (nextJobs_canonical (modCtl_canonical (forEach_canonical (fun _ _ ht => ?_) hs))) hs
    split
    · exact ht
    · exact modEpoch_canonical (forEach_canonical (fun _ _ hu => endOpen_canonical hu) (forEach_canonical (fun _ _ hu =>
        endRunning_canonical hu) ht))

theorem cancelTimedOut_canonical {e} (hs : s.Canonical) : (cancelTimedOut e s).Canonical := by
  unfold cancelTimedOut
  split
  · exact hs
  · exact ite_canonical (fatalError_canonical (raise_canonical hs)) hs

theorem freeEpoch_canonical {e} (hs : s.Canonical) : (freeEpoch e s).Canonical := by
  unfold freeEpoch
  split
  · exact hs
  · exact ite_canonical (modQmg_canonical hs) hs

theorem doFence_canonical {o cmd e} (hs : s.Canonical) : (doFence o cmd e s).Canonical := by
  unfold doFence
  exact settleFences_canonical (modCtl_canonical (addRunning_canonical hs))

theorem doHint_canonical {cmd phase us} (hs : s.Canonical) : (doHint cmd phase us s).Canonical := by
  unfold doHint
  exact finish_canonical (ite_canonical (modCtx_canonical hs) hs)

theorem hintEnds_canonical {ctx} (hs : s.Canonical) : (hintEnds ctx s).Canonical := by
  unfold hintEnds
  split
  · exact hs
  · exact ite_canonical (modCtx_canonical hs) hs

/-! ### QUERY (R277) -/

theorem answer_canonical {cmd len bytes} (hs : s.Canonical) : (answer cmd len bytes s).Canonical := by
  unfold answer
  exact finish_canonical (emit_canonical hs)

theorem answerFields_canonical {cmd len size fields} (hs : s.Canonical) : (answerFields cmd len size fields s).Canonical := by
  unfold answerFields
  exact finish_canonical (emit_canonical hs)

theorem doQueryPlacement_canonical {cmd len} (hs : s.Canonical) : (doQueryPlacement cmd len s).Canonical := by
  unfold doQueryPlacement
  exact answer_canonical hs

theorem doQueryImage_canonical {cmd image len} (hs : s.Canonical) : (doQueryImage cmd image len s).Canonical := by
  unfold doQueryImage
  split
  · exact finishOpen_canonical hs
  · exact ite_canonical (finishOpen_canonical hs) (answerFields_canonical hs)

theorem doQueryStream_canonical {cmd id len} (hs : s.Canonical) : (doQueryStream cmd id len s).Canonical := by
  unfold doQueryStream
  split
  · exact finishOpen_canonical hs
  · exact ite_canonical (finishOpen_canonical hs) (answerFields_canonical hs)

theorem doQueryAccounting_canonical {cmd len} (hs : s.Canonical) : (doQueryAccounting cmd len s).Canonical := by
  unfold doQueryAccounting
  exact answerFields_canonical (modCtx_canonical hs)

theorem doQueryFaults_canonical {cmd len} (hs : s.Canonical) : (doQueryFaults cmd len s).Canonical := by
  unfold doQueryFaults
  exact answer_canonical hs

theorem doQuerySpares_canonical {cmd len} (hs : s.Canonical) : (doQuerySpares cmd len s).Canonical := by
  unfold doQuerySpares
  exact answerFields_canonical hs

/-! ### SERVICE (R152, R262, R278, R402 to R404) -/

theorem served_canonical {cmd status} (hs : s.Canonical) : (served cmd status s).Canonical := by
  unfold served
  exact finishOpen_canonical hs

theorem pfOnly_canonical {cmd} (hs : s.Canonical) (ht : t.Canonical) : (pfOnly cmd s t).Canonical := by
  unfold pfOnly
  exact ite_canonical ht (served_canonical hs)

theorem putPartition_canonical {n x p} (hs : s.Canonical) : (putPartition n x p s).Canonical := by
  unfold putPartition
  exact forEach_canonical (fun _ _ ht => modCtx_canonical ht) hs

theorem doPartCreate_canonical {cmd n p} (hs : s.Canonical) : (doPartCreate cmd n p s).Canonical := by
  unfold doPartCreate
  exact pfOnly_canonical hs (ite_canonical (served_canonical hs) (served_canonical (putPartition_canonical hs)))

theorem doPartChange_canonical {cmd n p} (hs : s.Canonical) : (doPartChange cmd n p s).Canonical := by
  unfold doPartChange
  refine pfOnly_canonical hs ?_
  split
  · exact served_canonical hs
  · exact ite_canonical (served_canonical hs) (ite_canonical (served_canonical hs) (served_canonical (putPartition_canonical hs)))

theorem dropPartition_canonical {n} (hs : s.Canonical) : (dropPartition n s).Canonical := by
  unfold dropPartition
  exact forEach_canonical (fun _ _ ht => dropStream_canonical ht) hs

theorem doPartRemove_canonical {cmd n} (hs : s.Canonical) : (doPartRemove cmd n s).Canonical := by
  unfold doPartRemove
  exact pfOnly_canonical hs (ite_canonical (served_canonical hs) (ite_canonical (served_canonical hs) (served_canonical
      (dropPartition_canonical hs))))

theorem doBind_canonical {cmd c n fn vector} (hs : s.Canonical) : (doBind cmd c n fn vector s).Canonical := by
  unfold doBind
  refine pfOnly_canonical hs (ite_canonical (served_canonical hs) ?_)
  split
  · exact served_canonical hs
  · exact ite_canonical (served_canonical hs) (served_canonical (modCtx_canonical hs))

theorem wantReplacement_canonical {slots} (hs : s.Canonical) : (wantReplacement slots s).Canonical := by
  unfold wantReplacement
  exact modCtl_canonical hs

theorem doCoreTest_canonical {o cmd n} (hs : s.Canonical) : (doCoreTest o cmd n s).Canonical := by
  unfold doCoreTest
  exact pfOnly_canonical hs (ite_canonical (served_canonical hs) (ite_canonical (served_canonical hs) (wantReplacement_canonical
      (modCore_canonical (fun _ hc => hc) (modCtl_canonical (addRunning_canonical hs))))))

theorem doBypass_canonical {cmd k takers} (hs : s.Canonical) : (doBypass cmd k takers s).Canonical := by
  unfold doBypass
  exact pfOnly_canonical hs (ite_canonical (served_canonical hs) (served_canonical (firmwareRecord_canonical (bypassSlice_canonical
      hs))))

theorem doSettings_canonical {cmd record} (hs : s.Canonical) : (doSettings cmd record s).Canonical := by
  unfold doSettings
  refine pfOnly_canonical hs ?_
  split
  · exact served_canonical hs
  · exact ite_canonical (served_canonical hs) (ite_canonical (served_canonical hs) (served_canonical hs))

theorem doCamera_canonical {cmd id write reg value} (hs : s.Canonical) : (doCamera cmd id write reg value s).Canonical := by
  unfold doCamera
  split
  · exact served_canonical hs
  · exact ite_canonical (served_canonical hs) (ite_canonical (served_canonical hs) (served_canonical (emit_canonical hs)))

theorem doSeconds_canonical {cmd seconds} (hs : s.Canonical) : (doSeconds cmd seconds s).Canonical := by
  unfold doSeconds
  exact pfOnly_canonical hs (ite_canonical (served_canonical hs) (served_canonical (modTal_canonical hs)))

theorem doTrace_canonical {cmd set} (hs : s.Canonical) : (doTrace cmd set s).Canonical := by
  unfold doTrace
  exact served_canonical (modCtx_canonical hs)

theorem updateFailed_canonical {reason} (hs : s.Canonical) : (updateFailed reason s).Canonical := by
  unfold updateFailed
  exact raise_canonical (modDbg_canonical hs)

theorem doFwUpdate_canonical {mode o cmd len crc x} (hs : s.Canonical) : (doFwUpdate mode o cmd len crc x s).Canonical := by
  unfold doFwUpdate
  exact pfOnly_canonical hs (ite_canonical (served_canonical hs) (ite_canonical (served_canonical hs) (ite_canonical
    (finish_canonical (updateFailed_canonical hs)) hs)))

theorem rejectUpdate_canonical {u reason} (hs : s.Canonical) : (rejectUpdate u reason s).Canonical := by
  unfold rejectUpdate
  exact endRunning_canonical (modCtl_canonical (updateFailed_canonical hs))

theorem acceptUpdate_canonical {u st} (hs : s.Canonical) : (acceptUpdate u st s).Canonical := by
  unfold acceptUpdate
  exact endRunning_canonical (modCtl_canonical (modDbg_canonical hs))

theorem switchCore_canonical {n} (hs : s.Canonical) : (switchCore n s).Canonical := by
  unfold switchCore
  exact modCtl_canonical (modDbg_canonical hs)

theorem activated_canonical {u} (hs : s.Canonical) : (activated u s).Canonical := by
  unfold activated
  exact acceptUpdate_canonical (postNotice_canonical hs)

theorem flashVerified_canonical {ok} (hs : s.Canonical) : (flashVerified ok s).Canonical := by
  unfold flashVerified
  split
  · exact hs
  · refine ite_canonical hs (ite_canonical (rejectUpdate_canonical hs) (ite_canonical (acceptUpdate_canonical hs) (ite_canonical
      (acceptUpdate_canonical (postNotice_canonical hs)) ?_)))
    dsimp only
    split
    · exact activated_canonical (modDbg_canonical hs)
    · exact switchCore_canonical (modDbg_canonical hs)

theorem rejoined_canonical {n} (hs : s.Canonical) : (rejoined n s).Canonical := by
  unfold rejoined
  split
  · exact hs
  · refine ite_canonical hs ?_
    dsimp only
    split
    · exact activated_canonical (modCtl_canonical hs)
    · exact switchCore_canonical (modCtl_canonical hs)

theorem rejoinTimedOut_canonical {n} (hs : s.Canonical) : (rejoinTimedOut n s).Canonical := by
  unfold rejoinTimedOut
  split
  · exact hs
  · exact ite_canonical hs (rejectUpdate_canonical hs)

/-! ### Commands that go on once nothing holds them (R203) -/

theorem startLoad_canonical {o cmd len crc file} (hs : s.Canonical) : (startLoad o cmd len crc file s).Canonical := by
  unfold startLoad
  exact ite_canonical (hold_canonical hs) (doLoadImage_canonical hs)

theorem startDeclare_canonical {o cmd id image block crc lode} (hs : s.Canonical) :
    (startDeclare o cmd id image block crc lode s).Canonical := by
  unfold startDeclare
  exact ite_canonical (hold_canonical hs) (doDeclare_canonical hs)

theorem runHeld_canonical {o i} (hs : s.Canonical) : (runHeld o i s).Canonical := by
  unfold runHeld
  split
  · exact startLoad_canonical hs
  · exact startDeclare_canonical hs
  · exact doArm_canonical hs
  · exact doRearm_canonical hs
  · exact doDispatch_canonical hs
  · exact doFence_canonical hs
  · exact doHint_canonical hs
  · exact doQueryPlacement_canonical hs
  · exact doQueryImage_canonical hs
  · exact doQueryStream_canonical hs
  · exact doQueryAccounting_canonical hs
  · exact doQueryFaults_canonical hs
  · exact doQuerySpares_canonical hs
  · exact doPartCreate_canonical hs
  · exact doPartChange_canonical hs
  · exact doPartRemove_canonical hs
  · exact doBind_canonical hs
  · exact doUnload_canonical hs
  · exact doCoreTest_canonical hs
  · exact doBypass_canonical hs
  · exact doSettings_canonical hs
  · exact doCamera_canonical hs
  · exact doCamera_canonical hs
  · exact doSeconds_canonical hs
  · exact doResumeSkip_canonical hs
  · exact doResumeAbort_canonical hs
  · exact doTrace_canonical hs
  · exact doFwUpdate_canonical hs
  · exact doFwUpdate_canonical hs
  · exact doFwUpdate_canonical hs
  · exact hs

theorem unhold_canonical {h} (hs : s.Canonical) : (unhold h s).Canonical := by
  unfold unhold
  exact modCtx_canonical (modCtl_canonical hs)

theorem resumeHeld_canonical {fuel} (hs : s.Canonical) : (resumeHeld fuel s).Canonical := by
  induction fuel generalizing s with
  | zero => exact hs
  | succ fuel ih =>
    unfold resumeHeld
    split
    · exact hs
    · exact ih (runHeld_canonical (unhold_canonical hs))

theorem settle_canonical (hs : s.Canonical) : (settle s).Canonical := by
  unfold settle
  exact settleFences_canonical (resumeHeld_canonical hs)

end Sys2Proof.Machine

/-! The canonical form of both memories under votes, faults, power management, boot and resets. -/

namespace Sys2Proof.Machine

open Sys2Proof Sys2Proof.Machine.Bits

variable {s t : State} {c : CoreSt}

/-! ### Fault stops (R65) -/

theorem stopRecord_canonical {u cause} (hs : s.Canonical) : (stopRecord u cause s).Canonical := by
  unfold stopRecord
  exact ite_canonical (qmgRecord_canonical hs) hs

theorem stallStop_canonical {c cause bit reason counted} (hs : s.Canonical) :
    (stallStop c cause bit reason counted s).Canonical := by
  unfold stallStop
  exact ite_canonical hs (report_canonical (modCore_canonical (fun _ hc => CoreSt.closeAll_canonical hc) (dropWaits_canonical hs)))

theorem faultStop_canonical {c cause bit reason counted} (hs : s.Canonical) :
    (faultStop c cause bit reason counted s).Canonical := by
  unfold faultStop
  split
  · exact stallStop_canonical hs
  · exact report_canonical (reportOwed_canonical (stopRecord_canonical (forEach_canonical (fun _ _ ht => giveBack_canonical ht)
      (modCore_canonical (fun _ hc => CoreSt.unjoin_canonical (CoreSt.closeAll_canonical (CoreSt.dropAcc_canonical hc)))
      (pushOutputs_canonical (dropWaits_canonical (modCore_canonical (fun _ hc => hc) hs)))))))

theorem seqIllegal_canonical {c} (hs : s.Canonical) : (seqIllegal c s).Canonical := by
  unfold seqIllegal
  exact faultStop_canonical (raise_canonical hs)

theorem checkEvent_canonical {n u cause} (hs : s.Canonical) : (checkEvent n u cause s).Canonical := by
  unfold checkEvent
  exact report_canonical hs

/-! ### Votes (R305, R306, R460) -/

theorem markOutvoted_canonical {id copy seq cause} (hs : s.Canonical) : (markOutvoted id copy seq cause s).Canonical := by
  unfold markOutvoted
  exact forEach_canonical (fun _ _ ht => flagUnit_canonical ht) (modItem_canonical hs)

theorem logOutvoted_canonical {id st seq copy cause} (hs : s.Canonical) : (logOutvoted id st seq copy cause s).Canonical := by
  unfold logOutvoted
  exact report_canonical hs

theorem outvoteOthers_canonical {v id st seq} (hs : s.Canonical) : (outvoteOthers v id st seq s).Canonical := by
  unfold outvoteOthers
  refine forEach_canonical (fun _ _ ht => ?_) hs
  split
  · exact ht
  · split
    · exact ht
    · split
      · exact ht
      · exact ite_canonical ht (markOutvoted_canonical (logOutvoted_canonical (modVote_canonical ht)))

theorem forwardVote_canonical {v id seq x y} (hs : s.Canonical) : (forwardVote v id seq x y s).Canonical := by
  unfold forwardVote
  exact ite_canonical (formRecord_canonical (modVote_canonical hs)) (modVote_canonical hs)

theorem noMajority_canonical {v id st e} (hs : s.Canonical) : (noMajority v id st e s).Canonical := by
  unfold noMajority
  exact ite_canonical (qmgRecord_canonical (report_canonical (modVote_canonical hs))) (forEach_canonical (fun _ _ ht =>
      markOutvoted_canonical ht) (report_canonical (modVote_canonical hs)))

theorem decideVote_canonical {v id seq last} (hs : s.Canonical) : (decideVote v id seq last s).Canonical := by
  unfold decideVote
  split
  · refine outvoteOthers_canonical (ite_canonical hs ?_)
    split
    · exact forwardVote_canonical hs
    · exact ite_canonical (noMajority_canonical hs) hs
  · exact hs

theorem dropVote_canonical {v id seq force} (hs : s.Canonical) : (dropVote v id seq force s).Canonical := by
  unfold dropVote
  split
  · exact ite_canonical (modVote_canonical hs) hs
  · exact hs

theorem retireVote_canonical {v id seq} (hs : s.Canonical) : (retireVote v id seq s).Canonical := by
  unfold retireVote
  exact dropVote_canonical (decideVote_canonical (modVote_canonical hs))

theorem roomFor_canonical {v id seq} (hs : s.Canonical) : (roomFor v id seq s).Canonical := by
  unfold roomFor
  refine ite_canonical hs (modVote_canonical ?_)
  split
  · exact ite_canonical (retireVote_canonical hs) hs
  · exact hs

theorem discardSig_canonical {v} (hs : s.Canonical) : (discardSig v s).Canonical := by
  unfold discardSig
  exact modVote_canonical hs

theorem presentSig_canonical {v seq g} (hs : s.Canonical) : (presentSig v seq g s).Canonical := by
  unfold presentSig
  split
  · exact hs
  · split
    · exact hs
    · exact ite_canonical (discardSig_canonical hs) (dropVote_canonical (decideVote_canonical (modVote_canonical (roomFor_canonical
        hs))))

theorem resettleVotes_canonical {id} (hs : s.Canonical) : (resettleVotes id s).Canonical := by
  unfold resettleVotes
  exact forEach_canonical (fun _ _ ht => forEach_canonical (fun _ _ hu => dropVote_canonical (decideVote_canonical hu)) ht) hs

theorem voteUnitFails_canonical {v} (hs : s.Canonical) : (voteUnitFails v s).Canonical := by
  unfold voteUnitFails
  dsimp only
  split
  · exact modVote_canonical hs
  · split
    · exact resettleVotes_canonical (modStream_canonical (modVote_canonical (report_canonical hs)))
    · exact modStream_canonical (modVote_canonical (modVote_canonical (report_canonical hs)))

theorem testVote_canonical {v pass} (hs : s.Canonical) : (testVote v pass s).Canonical := by
  unfold testVote
  exact ite_canonical hs (ite_canonical (modVote_canonical hs) (voteUnitFails_canonical hs))

/-! ### The safety island (R294 to R333) -/

theorem sendFrame_canonical {kind n} (hs : s.Canonical) : (sendFrame kind n s).Canonical := by
  unfold sendFrame
  exact ite_canonical (emit_canonical (modSafe_canonical hs)) hs

theorem queueEgress_canonical {r} (hs : s.Canonical) : (queueEgress r s).Canonical := by
  unfold queueEgress
  exact ite_canonical (modSafe_canonical hs) (raise_canonical (modSafe_canonical hs))

theorem releaseFault_canonical (hs : s.Canonical) : (releaseFault s).Canonical := by
  unfold releaseFault
  exact ite_canonical (modSafe_canonical hs) hs

theorem withdraw_canonical {t sc cause} (hs : s.Canonical) : (withdraw t sc cause s).Canonical := by
  unfold withdraw
  exact sendInval_canonical hs

theorem streamFault_canonical {id} (hs : s.Canonical) : (streamFault id s).Canonical := by
  unfold streamFault
  split
  · exact hs
  · exact ite_canonical hs (ite_canonical (ite_canonical (report_canonical (sendInval_canonical (raise_canonical
      (modStream_canonical hs)))) (modStream_canonical hs)) (recordAll_canonical (ite_canonical (report_canonical
      (sendInval_canonical (raise_canonical (modStream_canonical hs)))) (modStream_canonical hs))))

theorem loseStages_canonical {id copies cause} (hs : s.Canonical) : (loseStages id copies cause s).Canonical := by
  unfold loseStages
  split
  · exact hs
  · exact ite_canonical (forEach_canonical (fun _ _ ht => sendInval_canonical ht) hs) (streamFault_canonical hs)

theorem checkSpares_canonical {before} (hs : s.Canonical) : (checkSpares before s).Canonical := by
  unfold checkSpares
  exact ite_canonical (postNotice_canonical (report_canonical (raise_canonical hs))) hs

theorem retireCore_canonical {n} (hs : s.Canonical) : (retireCore n s).Canonical := by
  unfold retireCore
  exact ite_canonical hs (checkSpares_canonical (rebalance_canonical (forEach_canonical (fun _ _ ht => loseStages_canonical ht)
      (wantReplacement_canonical (recordRetirement_canonical (forEach_canonical (fun _ _ ht => forceFree_canonical ht)
      (modCore_canonical (fun _ hc => CoreSt.ite_canonical hc (CoreSt.closeAll_canonical hc)) hs)))))))

theorem logRecord_canonical {r} (hs : s.Canonical) : (logRecord r s).Canonical := by
  unfold logRecord
  exact sendFrame_canonical (ite_canonical (postNotice_canonical (queueEgress_canonical (ite_canonical (modCtx_canonical
      (modSafe_canonical hs)) (modSafe_canonical hs)))) (queueEgress_canonical (ite_canonical (modCtx_canonical (modSafe_canonical
      hs)) (modSafe_canonical hs))))

theorem danger_canonical (hs : s.Canonical) : (danger s).Canonical := by
  unfold danger
  exact raise_canonical (modSafe_canonical hs)

theorem reactTo_canonical {e perm} (hs : s.Canonical) : (reactTo e perm s).Canonical := by
  unfold reactTo
  exact ite_canonical (retireCore_canonical (ite_canonical (abandon_canonical (ite_canonical (raise_canonical hs) hs))
      (ite_canonical (raise_canonical hs) hs))) (ite_canonical (abandon_canonical (ite_canonical (raise_canonical hs) hs))
      (ite_canonical (raise_canonical hs) hs))

theorem faultReport_canonical {u} (hs : s.Canonical) : (faultReport u s).Canonical := by
  unfold faultReport
  split
  · exact hs
  · exact ite_canonical (enterSafe_canonical hs) (ite_canonical (modSafe_canonical hs) (ite_canonical (ite_canonical (ite_canonical
      (danger_canonical (ite_canonical (modSafe_canonical hs) (modSafe_canonical (modSafe_canonical hs)))) (ite_canonical
      (modSafe_canonical hs) (modSafe_canonical (modSafe_canonical hs)))) (logRecord_canonical (ite_canonical (danger_canonical
      (ite_canonical (modSafe_canonical hs) (modSafe_canonical (modSafe_canonical hs)))) (ite_canonical (modSafe_canonical hs)
      (modSafe_canonical (modSafe_canonical hs)))))) (reactTo_canonical (ite_canonical (ite_canonical (danger_canonical
      (ite_canonical (modSafe_canonical hs) (modSafe_canonical (modSafe_canonical hs)))) (ite_canonical (modSafe_canonical hs)
      (modSafe_canonical (modSafe_canonical hs)))) (logRecord_canonical (ite_canonical (danger_canonical (ite_canonical
      (modSafe_canonical hs) (modSafe_canonical (modSafe_canonical hs)))) (ite_canonical (modSafe_canonical hs) (modSafe_canonical
      (modSafe_canonical hs)))))))))

theorem landInval_canonical (hs : s.Canonical) : (landInval s).Canonical := by
  unfold landInval
  split
  · exact hs
  · dsimp only
    split
    · exact resettleVotes_canonical (ite_canonical (streamFault_canonical (modStream_canonical (modSafe_canonical hs)))
        (modStream_canonical (modSafe_canonical hs)))
    · exact ite_canonical (modQmg_canonical (modSafe_canonical hs)) (modQmg_canonical (modSafe_canonical hs))

theorem loseHandles_canonical {n} (hs : s.Canonical) : (loseHandles n s).Canonical := by
  unfold loseHandles
  refine ite_canonical (dropWaits_canonical (modCore_canonical (fun _ hc => CoreSt.closeAll_canonical (CoreSt.dropAcc_canonical hc))
      ?_)) (forEach_canonical (fun _ _ ht => report_canonical ht) (raise_canonical (modQmg_canonical (dropWaits_canonical
      (modCore_canonical (fun _ hc => CoreSt.closeAll_canonical (CoreSt.dropAcc_canonical hc)) ?_)))))
  · split
    · exact hs
    · exact reportOwed_canonical hs
  · split
    · exact hs
    · exact reportOwed_canonical hs

theorem isolateCore_canonical {n} (hs : s.Canonical) : (isolateCore n s).Canonical := by
  unfold isolateCore
  exact loseHandles_canonical (modHdr_canonical hs)

theorem isolateQuad_canonical {q cause} (hs : s.Canonical) : (isolateQuad q cause s).Canonical := by
  unfold isolateQuad
  refine ite_canonical (modQuad_canonical hs) ?_
  dsimp only
  split
  · refine ite_canonical (abandon_canonical (wantReplacement_canonical (ite_canonical (report_canonical (forEach_canonical (fun _ _
      ht => ?_) (forEach_canonical (fun _ _ ht => isolateCore_canonical ht) (modQuad_canonical hs)))) (forEach_canonical (fun _ _ ht
      => ?_) (forEach_canonical (fun _ _ ht => isolateCore_canonical ht) (modQuad_canonical hs)))))) (wantReplacement_canonical
      (ite_canonical (report_canonical (forEach_canonical (fun _ _ ht => ?_) (forEach_canonical (fun _ _ ht => isolateCore_canonical
      ht) (modQuad_canonical hs)))) (forEach_canonical (fun _ _ ht => ?_) (forEach_canonical (fun _ _ ht => isolateCore_canonical
      ht) (modQuad_canonical hs)))))
    · split
      · exact ht
      · exact loseStages_canonical (report_canonical ht)
    · split
      · exact ht
      · exact loseStages_canonical (report_canonical ht)
    · split
      · exact ht
      · exact loseStages_canonical (report_canonical ht)
    · split
      · exact ht
      · exact loseStages_canonical (report_canonical ht)
  · refine wantReplacement_canonical (ite_canonical (report_canonical (forEach_canonical (fun _ _ ht => ?_) (forEach_canonical (fun
      _ _ ht => isolateCore_canonical ht) (modQuad_canonical hs)))) (forEach_canonical (fun _ _ ht => ?_) (forEach_canonical (fun _
      _ ht => isolateCore_canonical ht) (modQuad_canonical hs))))
    · split
      · exact ht
      · exact loseStages_canonical (report_canonical ht)
    · split
      · exact ht
      · exact loseStages_canonical (report_canonical ht)

theorem clockWindow_canonical {d count expected} (hs : s.Canonical) : (clockWindow d count expected s).Canonical := by
  unfold clockWindow
  refine ite_canonical ?_ hs
  split
  · exact isolateQuad_canonical hs
  · exact report_canonical hs
  · exact report_canonical hs
  · exact enterSafe_canonical (report_canonical hs)

theorem supplyFault_canonical {r} (hs : s.Canonical) : (supplyFault r s).Canonical := by
  unfold supplyFault
  split
  · exact isolateQuad_canonical hs
  · exact enterSafe_canonical (report_canonical hs)

theorem loseSaferef_canonical (hs : s.Canonical) : (loseSaferef s).Canonical := by
  unfold loseSaferef
  exact enterSafe_canonical (modSafe_canonical hs)

theorem lockstepLost_canonical {pair} (hs : s.Canonical) : (lockstepLost pair s).Canonical := by
  unfold lockstepLost
  exact enterSafe_canonical (modSafe_canonical hs)

theorem kick_canonical {pair} (hs : s.Canonical) : (kick pair s).Canonical := by
  unfold kick
  exact ite_canonical (modSafe_canonical hs) hs

theorem toggle_canonical (hs : s.Canonical) : (toggle s).Canonical := by
  unfold toggle
  exact ite_canonical hs (ite_canonical (enterSafe_canonical hs) (modSafe_canonical hs))

theorem ctrlKick_canonical {n} (hs : s.Canonical) : (ctrlKick n s).Canonical := by
  unfold ctrlKick
  exact modSafe_canonical hs

theorem ctrlLost_canonical {n} (hs : s.Canonical) : (ctrlLost n s).Canonical := by
  unfold ctrlLost
  exact ite_canonical hs (ite_canonical (enterSafe_canonical (report_canonical (modCtl_canonical hs))) (report_canonical
      (modCtl_canonical hs)))

theorem sliceStart_canonical {n} (hs : s.Canonical) : (sliceStart n s).Canonical := by
  unfold sliceStart
  exact ite_canonical (modHdr_canonical (modCore_canonical (fun _ hc => hc) hs)) hs

theorem endCoreTest_canonical {n} (hs : s.Canonical) : (endCoreTest n s).Canonical := by
  unfold endCoreTest
  split
  · exact hs
  · exact endOpen_canonical (modCtl_canonical hs)

theorem sliceDone_canonical {n pass comparatorOk} (hs : s.Canonical) : (sliceDone n pass comparatorOk s).Canonical := by
  have ht : (s.modCore n (fun c => { c with seq := .idle })).Canonical := modCore_canonical (fun _ hc => hc) hs
  unfold sliceDone
  exact ite_canonical hs (ite_canonical (ite_canonical (endCoreTest_canonical (modCore_canonical (fun _ hc => hc) ht))
    (modCore_canonical (fun _ hc => hc) ht)) (endCoreTest_canonical (report_canonical ht)))

theorem deferralLimit_canonical {n} (hs : s.Canonical) : (deferralLimit n s).Canonical := by
  unfold deferralLimit
  exact ite_canonical (wantReplacement_canonical hs) hs

theorem latentCore_canonical {n} (hs : s.Canonical) : (latentCore n s).Canonical := by
  unfold latentCore
  exact ite_canonical (wantReplacement_canonical (report_canonical (raise_canonical (modSafe_canonical (modCore_canonical (fun _ hc
      => hc) hs))))) hs

theorem mboxRefuse_canonical (hs : s.Canonical) : (mboxRefuse s).Canonical := by
  unfold mboxRefuse
  exact raise_canonical (modSafe_canonical hs)

theorem mboxDone_canonical {cmd} (hs : s.Canonical) : (mboxDone cmd s).Canonical := by
  unfold mboxDone
  exact modSafe_canonical hs

theorem readLogWords_canonical (hs : s.Canonical) : (readLogWords s).2.Canonical := by
  unfold readLogWords
  split <;> exact hs

theorem mbox_canonical {fn cmd} (hs : s.Canonical) : (mbox fn cmd s).Canonical := by
  unfold mbox
  exact ite_canonical hs (ite_canonical (mboxRefuse_canonical hs) (ite_canonical (enterSafe_canonical (mboxDone_canonical hs))
      (ite_canonical (mboxDone_canonical (modSafe_canonical (readLogWords_canonical hs))) (ite_canonical (sendFrame_canonical
      (mboxDone_canonical (modSafe_canonical hs))) (mboxDone_canonical (modSafe_canonical hs))))))

theorem endPinTest_canonical (hs : s.Canonical) : (endPinTest s).Canonical := by
  unfold endPinTest
  split
  · exact hs
  · exact ite_canonical (releaseFault_canonical (modSafe_canonical hs)) hs

theorem copySample_canonical (hs : s.Canonical) : (copySample s).Canonical := by
  unfold copySample
  exact ite_canonical (ite_canonical (modDbg_canonical hs) (modDbg_canonical hs)) hs

theorem copyDone_canonical (hs : s.Canonical) : (copyDone s).Canonical := by
  unfold copyDone
  exact ite_canonical (emit_canonical (modDbg_canonical hs)) hs

theorem releaseSample_canonical (hs : s.Canonical) : (releaseSample s).Canonical := by
  unfold releaseSample
  exact ite_canonical hs (modDbg_canonical hs)

/-! ### Power and temperature (R355 to R373) -/

theorem switchStep_canonical {q} (hs : s.Canonical) : (switchStep q s).Canonical := by
  unfold switchStep
  dsimp only
  split
  · exact hs
  · exact ite_canonical hs (startStep_canonical (modQuad_canonical hs))

theorem regulatorFail_canonical {q} (hs : s.Canonical) : (regulatorFail q s).Canonical := by
  unfold regulatorFail
  dsimp only
  split
  · exact hs
  · exact ite_canonical (report_canonical (raise_canonical (modQuad_canonical hs))) hs

theorem storeEstimate_canonical {quads rest} (hs : s.Canonical) : (storeEstimate quads rest s).Canonical := by
  unfold storeEstimate
  exact modPwr_canonical (forEach_canonical (fun _ _ ht => modQuad_canonical ht) hs)

theorem guardCheck_canonical (hs : s.Canonical) : (guardCheck s).Canonical := by
  unfold guardCheck
  exact ite_canonical (raise_canonical (modPwr_canonical (forEach_canonical (fun _ _ ht => modQuad_canonical ht) hs)))
      (ite_canonical (forEach_canonical (fun _ _ ht => modQuad_canonical ht) hs) hs)

theorem updateTable_canonical {measured} (hs : s.Canonical) : (updateTable measured s).Canonical := by
  unfold updateTable
  exact forEach_canonical (fun _ _ ht => modPwr_canonical ht) hs

theorem takeHints_canonical (hs : s.Canonical) : (takeHints s).Canonical := hs

theorem orderLevel_canonical {q level} (hs : s.Canonical) : (orderLevel q level s).Canonical := by
  unfold orderLevel
  exact startStep_canonical (modQuad_canonical hs)

theorem throttle_canonical (hs : s.Canonical) : (throttle s).Canonical := by
  unfold throttle
  exact modPwr_canonical (ite_canonical (raise_canonical hs) hs)

theorem infeasibleCheck_canonical (hs : s.Canonical) : (infeasibleCheck s).Canonical := by
  unfold infeasibleCheck
  exact ite_canonical (modPwr_canonical hs) (ite_canonical (raise_canonical (modPwr_canonical hs)) hs)

theorem allocatorDecide_canonical {measured} (hs : s.Canonical) : (allocatorDecide measured s).Canonical := by
  unfold allocatorDecide
  exact forEach_canonical (fun _ _ ht => orderLevel_canonical ht) (modPwr_canonical (forEach_canonical (fun _ _ ht =>
      modQuad_canonical ht) (throttle_canonical (infeasibleCheck_canonical (takeHints_canonical (updateTable_canonical hs))))))

theorem powerLimit_canonical (hs : s.Canonical) : (powerLimit s).Canonical := by
  unfold powerLimit
  exact sendInval_canonical (report_canonical (raise_canonical (modPwr_canonical (forEach_canonical (fun _ _ ht => modQuad_canonical
      ht) hs))))

theorem powerRelease_canonical (hs : s.Canonical) : (powerRelease s).Canonical := by
  unfold powerRelease
  exact ite_canonical (ite_canonical (modPwr_canonical (forEach_canonical (fun _ _ ht => modQuad_canonical ht) hs))
      (sendInval_canonical (modPwr_canonical (forEach_canonical (fun _ _ ht => modQuad_canonical ht) hs)))) hs

theorem gradeCheck_canonical {n t} (hs : s.Canonical) : (gradeCheck n t s).Canonical := by
  unfold gradeCheck
  exact modPwr_canonical (ite_canonical (sendInval_canonical (report_canonical (raise_canonical (modPwr_canonical hs)))) hs)

theorem sampleSensor_canonical {n t} (hs : s.Canonical) : (sampleSensor n t s).Canonical := by
  unfold sampleSensor
  exact ite_canonical (ite_canonical (modPwr_canonical (ite_snd_canonical (takeInj_canonical hs) hs)) (report_canonical
      (raise_canonical (modPwr_canonical (ite_snd_canonical (takeInj_canonical hs) hs))))) (gradeCheck_canonical (modPwr_canonical
      (ite_snd_canonical (takeInj_canonical hs) hs)))

theorem gradeClear_canonical (hs : s.Canonical) : (gradeClear s).Canonical := by
  unfold gradeClear
  exact ite_canonical (ite_canonical (modPwr_canonical hs) (sendInval_canonical (modPwr_canonical hs))) hs

theorem stopDevice_canonical {cause} (hs : s.Canonical) : (stopDevice cause s).Canonical := by
  unfold stopDevice
  exact enterSafe_canonical hs

theorem thermTrip_canonical (hs : s.Canonical) : (thermTrip s).Canonical := by
  unfold thermTrip
  exact stopDevice_canonical (raise_canonical (modPwr_canonical hs))

theorem coolantLost_canonical (hs : s.Canonical) : (coolantLost s).Canonical := by
  unfold coolantLost
  exact stopDevice_canonical (raise_canonical hs)

theorem selfRefresh_canonical (hs : s.Canonical) : (selfRefresh s).Canonical := hs

theorem clocksStop_canonical (hs : s.Canonical) : (clocksStop s).Canonical := by
  unfold clocksStop
  exact ite_canonical (recordEverything_canonical hs) hs

theorem vrdyLow_canonical {q} (hs : s.Canonical) : (vrdyLow q s).Canonical := by
  unfold vrdyLow
  exact ite_canonical (modQuad_canonical hs) (isolateQuad_canonical (modQuad_canonical hs))

/-! ### Boot and resets (R387 to R394, R424 to R429) -/

theorem bindFromSettings_canonical (hs : s.Canonical) : (bindFromSettings s).Canonical := by
  unfold bindFromSettings
  exact forEach_canonical (fun _ _ ht => modCtx_canonical ht) hs

theorem portsFromSettings_canonical (hs : s.Canonical) : (portsFromSettings s).Canonical := by
  unfold portsFromSettings
  exact forEach_canonical (fun _ _ ht => modPort_canonical ht) hs

theorem applySettings_canonical (hs : s.Canonical) : (applySettings s).Canonical := by
  unfold applySettings
  exact ite_canonical (raise_canonical (portsFromSettings_canonical (bindFromSettings_canonical hs))) (portsFromSettings_canonical
      (bindFromSettings_canonical hs))

theorem bootStop_canonical {code} (hs : s.Canonical) : (bootStop code s).Canonical := by
  unfold bootStop
  exact raise_canonical (modBoot_canonical hs)

theorem beginWarm_canonical {source} (hs : s.Canonical) : (beginWarm source s).Canonical := by
  unfold beginWarm
  exact forEach_canonical (fun _ _ ht => stopUnit_canonical ht) hs

theorem requestWarm_canonical {source} (hs : s.Canonical) : (requestWarm source s).Canonical := by
  unfold requestWarm
  exact ite_canonical (beginWarm_canonical hs) (modBoot_canonical hs)

theorem takePending_canonical (hs : s.Canonical) : (takePending s).Canonical := by
  unfold takePending
  exact ite_canonical (beginWarm_canonical hs) hs

theorem stopBoot_canonical {code} (hs : s.Canonical) : (stopBoot code s).Canonical := by
  unfold stopBoot
  exact takePending_canonical (bootStop_canonical hs)

theorem afterSafeTest_canonical (hs : s.Canonical) : (afterSafeTest s).Canonical := by
  unfold afterSafeTest
  exact ite_canonical (modBoot_canonical hs) hs

theorem powerOn_canonical : (powerOn s).Canonical := rfl

theorem fusesRead_canonical {ok} (hs : s.Canonical) : (fusesRead ok s).Canonical := by
  unfold fusesRead
  exact ite_canonical hs (ite_canonical (stopBoot_canonical hs) (forEach_canonical (fun _ _ ht => modCore_canonical (fun _ hc => hc)
      ht) (modBoot_canonical hs)))

theorem safeTested_canonical {pass} (hs : s.Canonical) : (safeTested pass s).Canonical := by
  unfold safeTested
  exact ite_canonical hs (ite_canonical (stopBoot_canonical hs) (afterSafeTest_canonical hs))

theorem vrdyHigh_canonical {q} (hs : s.Canonical) : (vrdyHigh q s).Canonical := by
  unfold vrdyHigh
  exact afterSafeTest_canonical (modQuad_canonical hs)

theorem vrdyTimeout_canonical {q} (hs : s.Canonical) : (vrdyTimeout q s).Canonical := by
  unfold vrdyTimeout
  exact ite_canonical (stopBoot_canonical hs) hs

theorem coolantBack_canonical (hs : s.Canonical) : (coolantBack s).Canonical := by
  unfold coolantBack
  exact ite_canonical (modBoot_canonical (modPwr_canonical hs)) (modPwr_canonical hs)

theorem dropPendingSlot_canonical (hs : s.Canonical) : (dropPendingSlot s).Canonical := by
  unfold dropPendingSlot
  split <;> exact hs

theorem runSlot_canonical {b} (hs : s.Canonical) : (runSlot b s).Canonical := by
  unfold runSlot
  split <;> exact hs

theorem chooseSlot_canonical (hs : s.Canonical) : (chooseSlot s).2.Canonical := by
  unfold chooseSlot
  exact ite_snd_canonical (runSlot_canonical (modBoot_canonical hs)) (ite_snd_canonical (runSlot_canonical (modBoot_canonical
      (dropPendingSlot_canonical hs))) (dropPendingSlot_canonical hs))

theorem imageVerified_canonical (hs : s.Canonical) : (imageVerified s).Canonical := by
  have ht := chooseSlot_canonical hs
  unfold imageVerified
  generalize chooseSlot s = chosen at ht ⊢
  obtain ⟨_ | _, t⟩ := chosen
  · exact ite_canonical hs (stopBoot_canonical ht)
  · exact ite_canonical hs (modBoot_canonical ht)

theorem trainFail_canonical {c} (hs : s.Canonical) : (trainFail c s).Canonical := by
  unfold trainFail
  exact firmwareRecord_canonical (raise_canonical hs)

theorem applyCoreRow_canonical {inst} (hs : s.Canonical) : (applyCoreRow inst s).Canonical := by
  unfold applyCoreRow
  exact modCore_canonical (fun _ hc => hc) hs

theorem applySliceRow_canonical {inst} (hs : s.Canonical) : (applySliceRow inst s).Canonical := by
  unfold applySliceRow
  exact modSlice_canonical hs

theorem applyRepairs_canonical (hs : s.Canonical) : (applyRepairs s).Canonical := by
  unfold applyRepairs
  exact forEach_canonical (fun _ _ ht => bypassSlice_canonical ht) (forEach_canonical (fun _ _ ht => ite_canonical
      (applyCoreRow_canonical ht) (applySliceRow_canonical ht)) (forEach_canonical (fun _ _ ht => applySliceRow_canonical ht)
      (forEach_canonical (fun _ _ ht => applyCoreRow_canonical ht) hs)))

theorem trainDone_canonical {trained dies} (hs : s.Canonical) : (trainDone trained dies s).Canonical := by
  unfold trainDone
  exact ite_canonical hs (ite_canonical (stopBoot_canonical (modBoot_canonical (forEach_canonical (fun _ _ ht => trainFail_canonical
      ht) (forEach_canonical (fun _ _ ht => modDmc_canonical ht) hs)))) (modBoot_canonical (applyRepairs_canonical
      (modBoot_canonical (forEach_canonical (fun _ _ ht => trainFail_canonical ht) (forEach_canonical (fun _ _ ht =>
      modDmc_canonical ht) hs))))))

theorem coresTested_canonical {failed} (hs : s.Canonical) : (coresTested failed s).Canonical := by
  unfold coresTested
  refine ite_canonical hs ?_
  generalize allCores = cores
  extract_lets good chosen pool s1 s2 s3
  have h1 : s1.Canonical := forEach_canonical (fun _ _ ht => modCore_canonical (fun _ hc => hc) ht) hs
  have h3 : s3.Canonical := forEach_canonical (fun _ _ ht => recordRetirement_canonical ht) (same_canonical h1 rfl rfl)
  exact ite_canonical (stopBoot_canonical h3) (applySettings_canonical (modBoot_canonical h3))

theorem confirmSlot_canonical (hs : s.Canonical) : (confirmSlot s).Canonical := by
  unfold confirmSlot
  dsimp only
  split
  · exact hs
  · exact postNotice_canonical hs

theorem becomeReady_canonical (hs : s.Canonical) : (becomeReady s).Canonical := by
  unfold becomeReady
  exact releaseFault_canonical (confirmSlot_canonical hs)

theorem bootDone_canonical (hs : s.Canonical) : (bootDone s).Canonical := by
  unfold bootDone
  exact ite_canonical hs (takePending_canonical (becomeReady_canonical hs))

theorem flushRecords_canonical (hs : s.Canonical) : (flushRecords s).Canonical := by
  unfold flushRecords
  exact forEach_canonical (fun _ _ ht => sendFormed_canonical ht) hs

theorem CoreSt.warm_canonical : c.warm.Canonical := rfl

theorem warmState_canonical (hs : s.Canonical) : (warmState s).Canonical :=
  mapCores_canonical hs rfl rfl (fun _ _ => CoreSt.warm_canonical)

/-- A core whose row repairs are forgotten. -/
def CoreSt.unrepaired (c : CoreSt) : CoreSt := { c with spareRows := [], rowMap := [] }

theorem bootAgain_canonical {safePass} (hs : s.Canonical) : (bootAgain safePass s).Canonical := by
  have hclean : ∀ t : State, t.dram = (warmState s).dram →
      t.cores = (warmState s).cores.map (fun e => (e.1, e.2.unrepaired)) → t.Canonical :=
    fun t hdram hcores => mapCores_canonical (warmState_canonical hs) hdram hcores (fun _ hc => hc)
  unfold bootAgain
  exact ite_canonical (hclean _ rfl rfl) (ite_canonical (bootStop_canonical (hclean _ rfl rfl))
    (afterSafeTest_canonical (hclean _ rfl rfl)))

theorem takeReset_canonical {safePass} (hs : s.Canonical) : (takeReset safePass s).Canonical := by
  have ht := chooseSlot_canonical (warmState_canonical hs)
  unfold takeReset
  generalize chooseSlot (warmState s) = chosen at ht ⊢
  obtain ⟨_ | _, t⟩ := chosen
  · exact ite_canonical (bootAgain_canonical hs) (bootStop_canonical (modBoot_canonical ht))
  · exact ite_canonical (bootAgain_canonical hs) (ite_canonical (bootStop_canonical (modBoot_canonical ht))
      (ite_canonical (enterSafe_canonical ht) ht))

theorem quiesced_canonical {safePass} (hs : s.Canonical) : (quiesced safePass s).Canonical := by
  unfold quiesced
  exact ite_canonical (takeReset_canonical (selfRefresh_canonical (flushRecords_canonical (recordEverything_canonical hs)))) hs

theorem cutOff_canonical {safePass} (hs : s.Canonical) : (cutOff safePass s).Canonical := by
  unfold cutOff
  exact ite_canonical (takeReset_canonical (selfRefresh_canonical (modDbg_canonical hs))) hs

theorem readJournal_canonical (hs : s.Canonical) : (readJournal s).Canonical := by
  unfold readJournal
  split
  · exact hs
  · exact raise_canonical (wantReplacement_canonical (modCtl_canonical (discardNew_canonical hs)))
  · exact raise_canonical (modCtl_canonical (forEach_canonical (fun _ _ ht => endRepl_canonical ht) hs))

theorem rebuild_canonical (hs : s.Canonical) : (rebuild s).Canonical := by
  unfold rebuild
  refine forEach_canonical (fun _ _ ht => ?_) hs
  split
  · exact ht
  · exact placeStream_canonical ht

theorem warmDone_canonical (hs : s.Canonical) : (warmDone s).Canonical := by
  unfold warmDone
  exact ite_canonical (takePending_canonical (postNotice_canonical (becomeReady_canonical (applySettings_canonical
      (rebuild_canonical (readJournal_canonical hs)))))) hs

theorem autoWarm_canonical (hs : s.Canonical) : (autoWarm s).Canonical := by
  unfold autoWarm
  exact ite_canonical (beginWarm_canonical hs) hs

theorem CoreSt.quadReset_canonical : c.quadReset.Canonical := rfl

theorem quadReset_canonical {q} (hs : s.Canonical) : (quadReset q s).Canonical := by
  unfold quadReset
  refine ite_canonical (forEach_canonical (fun _ _ ht => modCore_canonical (fun _ _ => CoreSt.quadReset_canonical) ht)
      (modQuad_canonical ?_)) hs
  split
  · exact ite_canonical (abandon_canonical hs) hs
  · exact hs

theorem quadCoreTested_canonical {failed n} (hs : s.Canonical) : (quadCoreTested failed n s).Canonical := by
  unfold quadCoreTested
  exact ite_canonical (modHdr_canonical hs) (ite_canonical (recordRetirement_canonical (modCore_canonical (fun _ hc => hc)
      (modHdr_canonical hs))) (modCore_canonical (fun _ hc => hc) (modHdr_canonical hs)))

theorem quadResetDone_canonical {q failed} (hs : s.Canonical) : (quadResetDone q failed s).Canonical := by
  unfold quadResetDone
  exact ite_canonical (checkSpares_canonical (rebalance_canonical (wantReplacement_canonical (forEach_canonical (fun _ _ ht =>
      quadCoreTested_canonical ht) (modQuad_canonical hs))))) hs

theorem disableContext_canonical {c} (hs : s.Canonical) : (disableContext c s).Canonical := by
  unfold disableContext
  exact forEach_canonical (fun _ _ ht => disarm_canonical (recordAll_canonical ht)) (forEach_canonical (fun _ _ ht =>
      cancelEpoch_canonical (abortHeldOf_canonical ht)) (modCtx_canonical (modCtl_canonical hs)))

theorem functionReset_canonical {fn} (hs : s.Canonical) : (functionReset fn s).Canonical := by
  unfold functionReset
  exact ite_canonical (forEach_canonical (fun _ _ ht => disableContext_canonical ht) hs) (forEach_canonical (fun _ _ ht =>
      disableContext_canonical ht) hs)

theorem perst_canonical (hs : s.Canonical) : (perst s).Canonical := by
  unfold perst
  exact functionReset_canonical hs

theorem linkUp_canonical {speed width mps} (hs : s.Canonical) : (linkUp speed width mps s).Canonical := by
  unfold linkUp
  exact ite_canonical (raise_canonical hs) hs

theorem linkDown_canonical {pm aer} (hs : s.Canonical) : (linkDown pm aer s).Canonical := by
  unfold linkDown
  refine ite_canonical ?_ (raise_canonical ?_)
  · split
    · exact hs
    · exact raise_canonical hs
    · exact raise_canonical hs
  · split
    · exact hs
    · exact raise_canonical hs
    · exact raise_canonical hs

theorem resetPort_canonical {p} (hs : s.Canonical) : (resetPort p s).Canonical := by
  unfold resetPort
  exact forEach_canonical (fun _ _ ht => modStream_canonical ht) (modPort_canonical hs)

theorem resetRequest_canonical {fn value} (hs : s.Canonical) : (resetRequest fn value s).Canonical := by
  unfold resetRequest
  exact ite_canonical (lockWrite_canonical hs) (ite_canonical (requestWarm_canonical hs) hs)

theorem loadStart_canonical {fn value} (hs : s.Canonical) : (loadStart fn value s).Canonical := by
  unfold loadStart
  exact ite_canonical (lockWrite_canonical hs) (ite_canonical (modBoot_canonical hs) hs)

theorem loadDone_canonical {x} (hs : s.Canonical) : (loadDone x s).Canonical := by
  unfold loadDone
  exact ite_canonical hs (ite_canonical hs (modBoot_canonical hs))

end Sys2Proof.Machine

/-! The canonical form of both memories under host accesses, scratchpad accesses, rows of the arrays and core samples. -/

namespace Sys2Proof.Machine

open Sys2Proof Sys2Proof.Machine.Bits

variable {s t : State} {c : CoreSt}

/-! ### What the host writes (R7 to R9, R414, R432 to R441) -/

theorem injRefused_canonical {b} (hs : s.Canonical) : (injRefused b s).Canonical := by
  unfold injRefused
  split
  · exact hs
  · exact raiseTold_canonical hs

theorem injLocked_canonical {b value} (hs : s.Canonical) : (injLocked b value s).Canonical := by
  unfold injLocked
  split
  · exact ite_canonical hs (injRefused_canonical hs)
  · exact hs

theorem injWrite_canonical {b value} (hs : s.Canonical) : (injWrite b value s).Canonical := by
  unfold injWrite
  exact ite_canonical hs (ite_canonical (injRefused_canonical hs) (ite_canonical (modHdr_canonical hs) (injRefused_canonical
      (modHdr_canonical hs))))

theorem writeLock_canonical {b value} (hs : s.Canonical) : (writeLock b value s).Canonical := by
  unfold writeLock
  exact modHdr_canonical hs

theorem closeLock_canonical {b} (hs : s.Canonical) : (closeLock b s).Canonical := by
  unfold closeLock
  exact ite_canonical (modHdr_canonical hs) hs

theorem underLock_canonical {b effect} (hf : ∀ t, t.Canonical → (effect t).Canonical) (hs : s.Canonical) :
    (underLock b effect s).Canonical := by
  unfold underLock
  exact ite_canonical (hf _ (modHdr_canonical hs)) (lockWrite_canonical hs)

theorem clearErr_canonical {b value} (hs : s.Canonical) : (clearErr b value s).Canonical := by
  unfold clearErr
  exact modHdr_canonical hs

theorem writeHeader_canonical {b off value} (hs : s.Canonical) : (writeHeader b off value s).Canonical := by
  unfold writeHeader
  exact ite_canonical (clearErr_canonical hs) (ite_canonical (modHdr_canonical hs) (ite_canonical (ite_canonical
      (underLock_canonical (fun _ ht => injWrite_canonical ht) (ite_canonical hs (injLocked_canonical hs))) (lockWrite_canonical
      hs)) (ite_canonical (modHdr_canonical hs) (ite_canonical (modHdr_canonical hs) (ite_canonical (modHdr_canonical hs)
      (ite_canonical (writeLock_canonical hs) (lockWrite_canonical hs)))))))

theorem fetchOne_canonical {c d} (hs : s.Canonical) : (fetchOne c d s).Canonical := by
  unfold fetchOne
  exact ite_canonical (modCtx_canonical hs) (raise_canonical (finishOpen_canonical hs))

theorem doorbell_canonical {fn c value descs} (hs : s.Canonical) : (doorbell fn c value descs s).Canonical := by
  unfold doorbell
  exact ite_canonical (raise_canonical (ite_canonical (lockWrite_canonical hs) hs)) (ite_canonical (readDescriptor_canonical hs)
      (forEach_canonical (fun _ _ ht => fetchOne_canonical ht) (modCtx_canonical (readDescriptor_canonical hs))))

theorem drainCpl_canonical {c} (hs : s.Canonical) : (drainCpl c s).Canonical := by
  unfold drainCpl
  exact drainHeld_canonical hs

theorem writeQcfg_canonical {c value} (hs : s.Canonical) : (writeQcfg c value s).Canonical := by
  unfold writeQcfg
  exact ite_canonical (ite_canonical hs (retireCtx_canonical hs)) (ite_canonical (drainCpl_canonical (modCtx_canonical
      (modCtx_canonical hs))) (modCtx_canonical hs))

theorem writeCplHead_canonical {c value} (hs : s.Canonical) : (writeCplHead c value s).Canonical := by
  unfold writeCplHead
  exact drainCpl_canonical (modCtx_canonical hs)

theorem writeRing_canonical {c off v} (hs : s.Canonical) : (writeRing c off v s).Canonical := by
  unfold writeRing
  exact ite_canonical (lockWrite_canonical hs) (modCtx_canonical hs)

theorem writeSel_canonical {fn b off value} (hs : s.Canonical) : (writeSel fn b off value s).Canonical := hs

theorem writeCtxReg_canonical {fn off value} (hs : s.Canonical) : (writeCtxReg fn off value s).Canonical := by
  unfold writeCtxReg
  split
  · exact lockWrite_canonical hs
  · exact ite_canonical (writeQcfg_canonical hs) (ite_canonical (writeCplHead_canonical hs) (writeRing_canonical hs))

theorem monSample_canonical {k v} (hs : s.Canonical) : (monSample k v s).Canonical := by
  unfold monSample
  exact ite_canonical hs (ite_canonical (modMon_canonical hs) (raise_canonical hs))

theorem writeMonCfg_canonical {k value} (hs : s.Canonical) : (writeMonCfg k value s).Canonical := by
  unfold writeMonCfg
  exact modMon_canonical hs

theorem writeMon_canonical {k r value} (hs : s.Canonical) : (writeMon k r value s).Canonical := by
  unfold writeMon
  exact ite_canonical (writeMonCfg_canonical hs) (ite_canonical (ite_canonical (modMon_canonical hs) hs) (ite_canonical
      (lockWrite_canonical hs) (modMon_canonical hs)))

theorem announceLost_canonical (hs : s.Canonical) : (announceLost s).Canonical := by
  unfold announceLost
  exact ite_canonical (writeNotice_canonical (modDbg_canonical hs)) hs

theorem writeNoticeCfg_canonical {value} (hs : s.Canonical) : (writeNoticeCfg value s).Canonical := by
  unfold writeNoticeCfg
  exact modDbg_canonical hs

theorem writeNoticeHead_canonical {value} (hs : s.Canonical) : (writeNoticeHead value s).Canonical := by
  unfold writeNoticeHead
  exact announceLost_canonical (modDbg_canonical hs)

theorem writeDbg_canonical {off value} (hs : s.Canonical) : (writeDbg off value s).Canonical := by
  unfold writeDbg
  exact ite_canonical (modDbg_canonical hs) (ite_canonical (modDbg_canonical hs) (ite_canonical (ite_canonical
      (releaseSample_canonical (ite_canonical (copySample_canonical hs) hs)) (ite_canonical (copySample_canonical hs) hs))
      (ite_canonical (modDbg_canonical hs) (ite_canonical (modDbg_canonical hs) (ite_canonical (writeNoticeCfg_canonical hs)
      (writeNoticeHead_canonical hs))))))

theorem clearCore_canonical {n value} (hs : s.Canonical) : (clearCore n value s).Canonical := by
  unfold clearCore
  exact ite_canonical (modCore_canonical (fun _ hc => hc) hs) hs

theorem clearPort_canonical {p value} (hs : s.Canonical) : (clearPort p value s).Canonical := by
  unfold clearPort
  exact ite_canonical (modPort_canonical hs) hs

theorem writePwr_canonical {off value} (hs : s.Canonical) : (writePwr off value s).Canonical := by
  unfold writePwr
  exact ite_canonical (modPwr_canonical hs) (modPwr_canonical hs)

theorem writeBoot_canonical {off value} (hs : s.Canonical) : (writeBoot off value s).Canonical := by
  unfold writeBoot
  exact ite_canonical (modBoot_canonical hs) (ite_canonical (modBoot_canonical hs) (ite_canonical (modBoot_canonical hs)
      (loadStart_canonical hs)))

theorem writeBody_canonical {b off value} (hs : s.Canonical) : (writeBody b off value s).Canonical := by
  unfold writeBody
  refine ite_canonical (lockWrite_canonical hs) (ite_canonical (writeSel_canonical hs) ?_)
  split
  · exact resetRequest_canonical hs
  · exact ite_canonical (mbox_canonical hs) (modSafe_canonical hs)
  · exact underLock_canonical (fun _ ht => writePwr_canonical ht) hs
  · exact writeBoot_canonical hs
  · exact writeDbg_canonical hs
  · exact writeMon_canonical hs
  · exact clearPort_canonical hs
  · exact ite_canonical (underLock_canonical (fun _ ht => modCore_canonical (fun _ hc => hc) ht) hs) (clearCore_canonical hs)
  · exact ite_canonical (doorbell_canonical hs) (writeCtxReg_canonical hs)
  · exact hs

theorem writeVirtual_canonical {fn b off value} (hs : s.Canonical) : (writeVirtual fn b off value s).Canonical := by
  unfold writeVirtual
  split
  · exact ite_canonical (writeSel_canonical hs) (lockWrite_canonical hs)
  · exact ite_canonical (mbox_canonical hs) (lockWrite_canonical hs)
  · exact ite_canonical (writeSel_canonical hs) (ite_canonical (doorbell_canonical hs) (ite_canonical (writeCtxReg_canonical hs)
      (lockWrite_canonical hs)))
  · exact lockWrite_canonical hs

theorem writeReg_canonical {fn b off value} (hs : s.Canonical) : (writeReg fn b off value s).Canonical := by
  unfold writeReg
  refine ite_canonical hs ?_
  split
  · exact hs
  · exact hs
  · exact ite_canonical (writeVirtual_canonical hs) (ite_canonical (writeHeader_canonical hs) (writeBody_canonical hs))

theorem hostWrite_canonical {fn addr value} (hs : s.Canonical) : (hostWrite fn addr value s).Canonical := by
  unfold hostWrite
  refine ite_canonical (ite_canonical (lockWrite_canonical (receiveTlp_canonical hs)) (receiveTlp_canonical hs)) ?_
  split
  · exact receiveTlp_canonical hs
  · exact writeReg_canonical (receiveTlp_canonical hs)

/-! ### Scratchpad accesses, row repair, DRAM and the mesh (R124 to R161) -/

theorem CoreSt.noteCorr_canonical {w pass} (hc : c.Canonical) : (c.noteCorr w pass).Canonical := hc

theorem bankRead_canonical {n w u pass} (hs : s.Canonical) : (bankRead n w u pass s).2.Canonical := by
  unfold bankRead
  exact ite_snd_canonical (raiseAt_canonical (modCore_canonical (fun _ hc => wf_poisonAt _ hc) (takeInj_canonical (takeInj_canonical
      hs)))) (ite_snd_canonical (report_canonical (raise_canonical (modCore_canonical (fun _ hc => CoreSt.noteCorr_canonical hc)
      (takeInj_canonical (takeInj_canonical hs))))) (takeInj_canonical (takeInj_canonical hs)))

theorem readFault_canonical {n} (hs : s.Canonical) : (readFault n s).Canonical := by
  unfold readFault
  split
  · exact faultStop_canonical hs
  · exact report_canonical hs

theorem localRead_canonical {n w u} (hs : s.Canonical) : (localRead n w u s).Canonical := by
  unfold localRead
  split
  · exact emit_canonical hs
  · exact flagUnit_canonical (emit_canonical hs)
  · exact ite_canonical (readFault_canonical (emit_canonical (bankRead_canonical hs))) (ite_canonical (flagUnit_canonical
      (emit_canonical (bankRead_canonical hs))) (emit_canonical (bankRead_canonical hs)))

theorem readRanges_canonical {n rs u k} (hs : s.Canonical) : (readRanges n rs u k s).2.Canonical := by
  unfold readRanges
  refine ite_snd_canonical (readFault_canonical ?_) (ite_snd_canonical (flagUnit_canonical ?_) ?_)
  · split
    · exact hs
    · exact ite_snd_canonical (bankRead_canonical hs) (bankRead_canonical (bankRead_canonical hs))
  · split
    · exact hs
    · exact ite_snd_canonical (bankRead_canonical hs) (bankRead_canonical (bankRead_canonical hs))
  · split
    · exact hs
    · exact ite_snd_canonical (bankRead_canonical hs) (bankRead_canonical (bankRead_canonical hs))

theorem unitWrite_canonical {n w v} (hs : s.Canonical) : (unitWrite n w v s).Canonical := by
  unfold unitWrite
  exact ite_canonical hs (ite_canonical (modCore_canonical (fun _ hc => wf_writeWord _ _ hc) hs) (seqIllegal_canonical hs))

theorem spAccess_canonical {n op u} (hs : s.Canonical) : (spAccess n op u s).Canonical := by
  unfold spAccess
  split
  · exact ite_canonical (seqIllegal_canonical hs) (localRead_canonical hs)
  · exact unitWrite_canonical hs
  · exact modCore_canonical (fun _ hc => wf_writeWord _ _ hc) hs

theorem scrubWord_canonical {n w u} (hs : s.Canonical) : (scrubWord n w u s).Canonical := by
  unfold scrubWord
  exact ite_canonical (report_canonical (bankRead_canonical hs)) (bankRead_canonical hs)

theorem loseRow_canonical {n bank row} (hs : s.Canonical) : (loseRow n bank row s).Canonical := by
  unfold loseRow
  exact forEach_canonical (fun _ _ ht => ite_canonical ht (modCore_canonical (fun _ hc => wf_writeWord _ _ hc) ht)) hs

theorem repairRow_canonical {n bank row} (hs : s.Canonical) : (repairRow n bank row s).Canonical := by
  unfold repairRow
  exact ite_canonical hs (ite_canonical (retireCore_canonical hs) (firmwareRecord_canonical (modCore_canonical (fun _ hc => hc)
      (ite_canonical (loseRow_canonical hs) hs))))

theorem recordMapOuts_canonical (hs : s.Canonical) : (recordMapOuts s).Canonical := by
  unfold recordMapOuts
  exact forEach_canonical (fun _ _ ht => firmwareRecord_canonical ht) hs

theorem sliceAccess_canonical {ctx part off op tag data oneCopy copy dram} (hs : s.Canonical) :
    (sliceAccess ctx part off op tag data oneCopy copy dram s).Canonical := by
  unfold sliceAccess
  exact ite_canonical hs (recordMapOuts_canonical (ite_canonical (emit_canonical (lineAccess_canonical hs)) (lineAccess_canonical
      hs)))

theorem hostDram_canonical {off op tag data dram} (hs : s.Canonical) : (hostDram off op tag data dram s).Canonical := by
  unfold hostDram
  exact ite_canonical (ite_canonical (emit_canonical (receiveTlp_canonical hs)) (receiveTlp_canonical hs)) (ite_canonical
      (receiveTlp_canonical hs) (recordMapOuts_canonical (ite_canonical (emit_canonical (lineAccess_canonical (receiveTlp_canonical
      hs))) (lineAccess_canonical (receiveTlp_canonical hs)))))

theorem countShare_canonical {part c} (hs : s.Canonical) : (countShare part c s).Canonical := by
  unfold countShare
  exact modPart_canonical hs

theorem writeBack_canonical {off} (hs : s.Canonical) : (writeBack off s).Canonical := by
  unfold writeBack
  dsimp only
  split
  · exact hs
  · split
    · exact hs
    · exact ite_canonical (dramLine_canonical (modSlice_canonical hs)) hs

theorem syncHome_canonical {off} (hs : s.Canonical) : (syncHome off s).Canonical := by
  unfold syncHome
  dsimp only
  split
  · exact hs
  · exact modSlice_canonical hs

theorem dmcServe_canonical {off op u ctx part} (hs : s.Canonical) : (dmcServe off op u ctx part s).Canonical := by
  unfold dmcServe
  refine ite_canonical (emit_canonical hs) (ite_canonical hs ?_)
  dsimp only
  split
  · exact recordMapOuts_canonical (emit_canonical (dmcRead_canonical (writeBack_canonical (countShare_canonical hs))))
  · exact syncHome_canonical (dmcWriteLink_canonical (dramLine_canonical (writeBack_canonical (countShare_canonical hs))))
  · exact recordMapOuts_canonical (syncHome_canonical (dmcWriteLink_canonical (dramLine_canonical (dmcRead_canonical
      (writeBack_canonical (countShare_canonical hs))))))

theorem patrol_canonical {off u second} (hs : s.Canonical) : (patrol off u second s).Canonical := by
  unfold patrol
  exact ite_canonical hs (recordMapOuts_canonical (ite_canonical (dmcRead_canonical hs) (modDmc_canonical (dmcRead_canonical hs))))

theorem shareWindow_canonical {c} (hs : s.Canonical) : (shareWindow c s).Canonical := hs

theorem setPlane_canonical {p x} (hs : s.Canonical) : (setPlane p x s).Canonical := by
  unfold setPlane
  exact modMesh_canonical hs

theorem steerLane_canonical {p link} (hs : s.Canonical) : (steerLane p link s).Canonical := by
  unfold steerLane
  exact ite_canonical (setPlane_canonical (modMesh_canonical hs)) hs

theorem steerDone_canonical {p} (hs : s.Canonical) : (steerDone p s).Canonical := by
  unfold steerDone
  exact ite_canonical (setPlane_canonical hs) hs

theorem planeOut_canonical {p why} (hs : s.Canonical) : (planeOut p why s).Canonical := by
  unfold planeOut
  exact ite_canonical hs (ite_canonical (fatalError_canonical (report_canonical hs)) (setPlane_canonical (raise_canonical
      (report_canonical hs))))

theorem planeRehash_canonical {p} (hs : s.Canonical) : (planeRehash p s).Canonical := by
  unfold planeRehash
  exact ite_canonical (setPlane_canonical hs) hs

theorem refillTokens_canonical (hs : s.Canonical) : (refillTokens s).Canonical := hs

/-! ### Weight loads and rows of the arrays (R35, R43, R46) -/

theorem loadWeights_canonical {n a setB src} (hs : s.Canonical) : (loadWeights n a setB src s).Canonical := by
  unfold loadWeights
  exact ite_canonical hs (ite_canonical (seqIllegal_canonical hs) (ite_canonical (readRanges_canonical hs) (modCore_canonical (fun _
      hc => hc) (readRanges_canonical hs))))

theorem footAction_canonical {f array row y} (hc : c.Canonical) : (footAction f array row y c).Canonical := by
  unfold footAction
  exact CoreSt.ite_canonical hc (CoreSt.ite_canonical (CoreSt.ite_canonical hc (CoreSt.ite_canonical hc hc)) hc)

theorem footSumK_canonical {f array row y} (hc : c.Canonical) : (footSumK f array row y c).Canonical := by
  unfold footSumK
  dsimp only
  split
  · exact footAction_canonical hc
  · exact hc

theorem footTake_canonical {f array row y} (hc : c.Canonical) : (footTake f array row y c).Canonical := by
  unfold footTake
  exact CoreSt.ite_canonical (footSumK_canonical hc) (footAction_canonical hc)

theorem abftEvent_canonical {n cause bit} (hs : s.Canonical) : (abftEvent n cause bit s).Canonical := by
  unfold abftEvent
  split
  · exact hs
  · exact ite_canonical (flagUnit_canonical (raiseAt_canonical hs)) (ite_canonical (report_canonical (modCore_canonical (fun _ hc =>
      hc) (modCore_canonical (fun _ hc => hc) (flagUnit_canonical (raiseAt_canonical hs))))) (report_canonical (modCore_canonical
      (fun _ hc => hc) (flagUnit_canonical (raiseAt_canonical hs)))))

theorem injectRow_canonical {n f array y} (hs : s.Canonical) : (injectRow n f array y s).2.Canonical := by
  unfold injectRow
  exact ite_snd_canonical (ite_snd_canonical (takeInj_canonical hs) (takeInj_canonical hs)) hs

theorem accCheck_canonical {n array ok} (hs : s.Canonical) : (accCheck n array ok s).Canonical := by
  unfold accCheck
  exact ite_canonical (abftEvent_canonical (ite_snd_canonical (takeInj_canonical hs) hs)) (ite_snd_canonical (takeInj_canonical hs)
      hs)

theorem footCheck_canonical {n f a c row ok} (hs : s.Canonical) : (footCheck n f a c row ok s).Canonical := by
  unfold footCheck
  exact ite_canonical (ite_canonical hs (ite_canonical (accCheck_canonical hs) (ite_canonical hs (abftEvent_canonical hs))))
      (ite_canonical (accCheck_canonical hs) hs)

theorem CoreSt.noteRow_canonical {c' d g a busy row} (hc : c.Canonical) : (c.noteRow c' d g a busy row).Canonical := hc

theorem arrayRow_canonical {n c d g row fault ok a} (hs : s.Canonical) : (arrayRow n c d g row fault ok a s).Canonical := by
  unfold arrayRow
  exact footCheck_canonical (ite_canonical (abftEvent_canonical (modCore_canonical (fun _ hc => hc) (modCore_canonical (fun _ hc =>
      footTake_canonical (CoreSt.noteRow_canonical hc)) (injectRow_canonical hs)))) (modCore_canonical (fun _ hc =>
      footTake_canonical (CoreSt.noteRow_canonical hc)) (injectRow_canonical hs)))

theorem owePiece_canonical {n} (hs : s.Canonical) : (owePiece n s).Canonical := by
  unfold owePiece
  exact modCore_canonical (fun _ hc => hc) hs

theorem streamRow_canonical {n a row} (hs : s.Canonical) : (streamRow n a row s).Canonical := by
  unfold streamRow
  refine ite_canonical hs ?_
  split
  · exact hs
  · exact ite_canonical (seqIllegal_canonical hs) (ite_canonical (readRanges_canonical hs) (owePiece_canonical (forEach_canonical
      (fun _ _ ht => arrayRow_canonical ht) (readRanges_canonical hs))))

/-! ### Reads that latch (R254, R291) -/

theorem giveValue_canonical {fn v} (hs : s.Canonical) : (giveValue fn v s).Canonical := by
  unfold giveValue
  exact emit_canonical hs

theorem readTimeLo_canonical {fn} (hs : s.Canonical) : (readTimeLo fn s).Canonical := by
  unfold readTimeLo
  exact ite_canonical (giveValue_canonical hs) (giveValue_canonical (modTal_canonical hs))

theorem readPosLo_canonical {fn} (hs : s.Canonical) : (readPosLo fn s).Canonical := by
  unfold readPosLo
  exact ite_canonical (giveValue_canonical hs) (giveValue_canonical (modTal_canonical hs))

theorem readWaitLo_canonical {fn} (hs : s.Canonical) : (readWaitLo fn s).Canonical := by
  unfold readWaitLo
  split
  · exact giveValue_canonical hs
  · exact giveValue_canonical (modCtl_canonical hs)

/-! ### The core sample in DRAM (R395 to R399) -/

theorem storeRegion_canonical {off bytes} (hs : s.Canonical) : (storeRegion off bytes s).Canonical := by
  unfold storeRegion
  generalize List.range 48 = slices
  extract_lets here s1
  have h1 : s1.Canonical := storeDram_canonical (forEach_canonical (fun _ _ ht => flushWhere_canonical ht) hs)
  clear_value s1
  exact h1

theorem sampleDone_canonical {truncated} (hs : s.Canonical) : (sampleDone truncated s).Canonical := by
  unfold sampleDone
  exact ite_canonical hs (postNotice_canonical (recordEverything_canonical (ite_canonical (raise_canonical (modDbg_canonical
      (storeRegion_canonical hs))) (modDbg_canonical (storeRegion_canonical hs)))))

end Sys2Proof.Machine

/-! The canonical form of both memories under units of work, queue operations, frames and transfers. -/

namespace Sys2Proof.Machine

open Sys2Proof Sys2Proof.Machine.Bits

variable {s t : State} {c : CoreSt}

/-! ### Units of work: start, re-execution, end, recovery (R59 to R65, R93, R382) -/

theorem accountStart_canonical {u others} (hs : s.Canonical) : (accountStart u others s).Canonical := by
  unfold accountStart
  exact forEach_canonical (fun _ _ ht => modCtx_canonical ht) (modCtx_canonical hs)

theorem chargeStart_canonical {u} (hs : s.Canonical) : (chargeStart u s).Canonical := by
  unfold chargeStart
  exact modCtx_canonical hs

theorem chargeEnd_canonical {u took} (hs : s.Canonical) : (chargeEnd u took s).Canonical := by
  unfold chargeEnd
  exact ite_canonical (raise_canonical (modCtx_canonical hs)) (modCtx_canonical hs)

theorem CoreSt.configure_canonical {d} (hc : c.Canonical) : (c.configure d).Canonical := by
  unfold CoreSt.configure
  exact CoreSt.ite_canonical hc hc

theorem CoreSt.ringStart_canonical {seq} (hc : c.Canonical) : (c.ringStart seq).Canonical := by
  unfold CoreSt.ringStart
  exact CoreSt.ite_canonical hc hc

theorem CoreSt.turnRings_canonical {seq} (hc : c.Canonical) : (c.turnRings seq).Canonical := by
  unfold CoreSt.turnRings
  split
  · exact hc
  · exact CoreSt.ite_canonical hc hc

theorem beginUnit_canonical {n boxes block u} (hs : s.Canonical) : (beginUnit n boxes block u s).Canonical := by
  unfold beginUnit
  dsimp only
  split
  · refine beginWait_canonical (modCore_canonical (fun _ hc => ?_) (chargeStart_canonical (accountStart_canonical hs)))
    split
    · exact CoreSt.ringStart_canonical (CoreSt.ite_canonical (CoreSt.turnRings_canonical hc) hc)
    · exact CoreSt.configure_canonical (CoreSt.ringStart_canonical (CoreSt.ite_canonical (CoreSt.turnRings_canonical hc) hc))
  · refine modCore_canonical (fun _ hc => ?_) (chargeStart_canonical (accountStart_canonical hs))
    split
    · exact CoreSt.ringStart_canonical (CoreSt.ite_canonical (CoreSt.turnRings_canonical hc) hc)
    · exact CoreSt.configure_canonical (CoreSt.ringStart_canonical (CoreSt.ite_canonical (CoreSt.turnRings_canonical hc) hc))

theorem checkBoxes_canonical {n u count} (hs : s.Canonical) : (checkBoxes n u count s).Canonical := by
  unfold checkBoxes
  split
  · exact hs
  · exact ite_canonical (flagUnit_canonical (checkEvent_canonical hs)) hs

theorem joinBlock_canonical {us} (hs : s.Canonical) : (joinBlock us s).2.Canonical := by
  induction us generalizing s with
  | nil => exact hs
  | cons u us ih =>
    unfold joinBlock
    exact ite_snd_canonical (ih (chargeStart_canonical (accountStart_canonical hs))) (ih hs)

theorem startBlock_canonical {n m u us} (hs : s.Canonical) : (startBlock n m u us s).Canonical := by
  unfold startBlock
  exact modCore_canonical (fun _ hc => hc) (joinBlock_canonical (beginUnit_canonical hs))

theorem launch_canonical {n boxes u} (hs : s.Canonical) : (launch n boxes u s).Canonical := by
  unfold launch
  split
  · exact checkBoxes_canonical (beginUnit_canonical hs)
  · exact startBlock_canonical hs

theorem startUnit_canonical {n boxes} (hs : s.Canonical) : (startUnit n boxes s).Canonical := by
  unfold startUnit
  refine ite_canonical ?_ hs
  split
  · exact hs
  · exact launch_canonical hs

theorem reloadSet_canonical {n u e} (hs : s.Canonical) : (reloadSet n u e s).Canonical := by
  unfold reloadSet
  dsimp only
  generalize formSet _ _ _ _ _ _ _ _ _ _ = formed
  have ht := readRanges_canonical (n := n) (rs := formed.2) (u := .clean) (k := 0) hs
  exact ite_canonical hs (ite_canonical ht (modCore_canonical (fun _ hc => hc) ht))

theorem rerunTile_canonical {n u} (hs : s.Canonical) : (rerunTile n u s).Canonical := by
  unfold rerunTile
  refine chargeStart_canonical (chargeEnd_canonical (forEach_canonical (fun _ _ ht => reloadSet_canonical ht) (modCore_canonical
      (fun _ hc => ?_) (forEach_canonical (fun _ _ ht => forceFree_canonical ht) hs))))
  dsimp only
  split
  · exact CoreSt.dropAcc_canonical hc
  · exact CoreSt.configure_canonical (CoreSt.dropAcc_canonical hc)

theorem pushAll_canonical {fuel n payload} (hs : s.Canonical) : (pushAll fuel n payload s).Canonical := by
  induction fuel generalizing s with
  | zero => exact hs
  | succ fuel ih =>
    unfold pushAll
    split
    · exact hs
    · rename_i v _
      split
      · exact hs
      · rename_i q h _ _
        have hout : (checkOutput (some payload) h (stampOutput v h s)).Canonical := checkOutput_canonical (stampOutput_canonical hs)
        have ht := pushTurn_canonical (u := .clean) (a := .core n) (n := q)
          (h := outHandle (checkOutput (some payload) h (stampOutput v h s)) v h) hout
        dsimp only
        generalize pushTurn .clean (.core n) q _ (checkOutput (some payload) h (stampOutput v h s)) = turn at ht ⊢
        obtain ⟨_ | _ | _, t⟩ := turn
        · exact ih (modCore_canonical (fun _ hc => hc) ht)
        · exact ht
        · exact ih (modCore_canonical (fun _ hc => hc) (pushTurn_canonical hs))

theorem returnAll_canonical {fuel n} (hs : s.Canonical) : (returnAll fuel n s).Canonical := by
  induction fuel generalizing s with
  | zero => exact hs
  | succ fuel ih =>
    unfold returnAll
    split
    · exact hs
    · rename_i h _
      have ht := returnTurn_canonical (a := .core n) (h := h) hs
      generalize returnTurn (.core n) h s = turn at ht ⊢
      obtain ⟨_ | _ | _, t⟩ := turn
      · exact ih (modCore_canonical (fun _ hc => hc) ht)
      · exact ht
      · exact ih (modCore_canonical (fun _ hc => hc) ht)

theorem showOutput_canonical {u payload} (hs : s.Canonical) : (showOutput u payload s).Canonical := by
  unfold showOutput
  exact modQmg_canonical hs

theorem endRecord_canonical {u payload} (hs : s.Canonical) : (endRecord u payload s).Canonical := by
  unfold endRecord
  split
  · exact hs
  · exact ite_canonical hs (ite_canonical (showOutput_canonical hs) (ite_canonical (formRecord_canonical hs) (modStream_canonical
      hs)))

theorem noteStep_canonical {u} (hs : s.Canonical) : (noteStep u s).Canonical := by
  unfold noteStep
  split
  · exact hs
  · exact ite_canonical hs (modStream_canonical hs)

theorem CoreSt.timed_canonical {took} (hc : c.Canonical) : (c.timed took).Canonical := hc

theorem CoreSt.leave_canonical (hc : c.Canonical) : (c.leave).Canonical := by
  unfold CoreSt.leave
  exact CoreSt.ite_canonical (CoreSt.closeAll_canonical hc) hc

theorem CoreSt.handOn_canonical {u} (hc : c.Canonical) : (c.handOn u).Canonical := by
  unfold CoreSt.handOn
  split
  · exact CoreSt.leave_canonical hc
  · exact hc

/-- A core with each unit stamped that is ready in `t` and was not in `s` (R283). -/
def CoreSt.stamped (s t : State) (c : CoreSt) : CoreSt :=
  { c with ready := c.ready.map (fun u => if unitReady t u && !unitReady s u then { u with readyAt := t.clock } else u) }

theorem stampReady_canonical (ht : t.Canonical) : (stampReady s t).Canonical :=
  mapCores_canonical (f := CoreSt.stamped s t) ht rfl rfl (fun _ hc => hc)

theorem finishUnit_canonical {n u payload} (hs : s.Canonical) : (finishUnit n u payload s).Canonical := by
  unfold finishUnit
  dsimp only
  split
  · exact stampReady_canonical (modCore_canonical (fun _ hc => CoreSt.handOn_canonical hc) (noteStep_canonical (modCore_canonical
      (fun _ hc => CoreSt.timed_canonical hc) (chargeEnd_canonical hs))))
  · exact stampReady_canonical (modCore_canonical (fun _ hc => CoreSt.handOn_canonical hc) (endRecord_canonical
      (notePushed_canonical (reportOwed_canonical (noteStep_canonical (modCore_canonical (fun _ hc => CoreSt.timed_canonical hc)
      (chargeEnd_canonical hs)))))))

theorem handOver_canonical {n u payload} (hs : s.Canonical) : (handOver n u payload s).Canonical := by
  unfold handOver
  exact ite_canonical (pushAll_canonical hs) (returnAll_canonical (pushAll_canonical hs))

theorem completeUnit_canonical {n payload} (hs : s.Canonical) : (completeUnit n payload s).Canonical := by
  unfold completeUnit
  split
  · exact hs
  · refine ite_canonical hs (ite_canonical (rerunTile_canonical hs) (ite_canonical hs ?_))
    dsimp only
    split
    · exact handOver_canonical hs
    · exact ite_canonical (finishUnit_canonical (handOver_canonical hs)) (handOver_canonical hs)

theorem overrunUnit_canonical {n} (hs : s.Canonical) : (overrunUnit n s).Canonical := by
  unfold overrunUnit
  split
  · exact hs
  · refine ite_canonical hs ?_
    dsimp only
    split
    · exact report_canonical (raiseAt_canonical (modCore_canonical (fun _ hc => hc) hs))
    · exact ite_canonical (report_canonical (raiseAt_canonical (modCore_canonical (fun _ hc => hc) hs))) (ite_canonical
        (markOutvoted_canonical (sendInval_canonical (report_canonical (raiseAt_canonical (modCore_canonical (fun _ hc => hc)
        hs))))) (sendInval_canonical (report_canonical (raiseAt_canonical (modCore_canonical (fun _ hc => hc) hs)))))

theorem hangStop_canonical {n} (hs : s.Canonical) : (hangStop n s).Canonical := by
  unfold hangStop
  split <;> exact ite_canonical (raise_canonical (faultStop_canonical hs)) hs

theorem drain_canonical {n} (hs : s.Canonical) : (drain n s).Canonical := by
  unfold drain
  exact modCore_canonical (fun _ hc => hc) hs

theorem windowReached_canonical {n} (hs : s.Canonical) : (windowReached n s).Canonical := by
  unfold windowReached
  split
  · exact ite_canonical (endWait_canonical hs) hs
  · exact hs

theorem CoreSt.reloadResident_canonical (hc : c.Canonical) : (c.reloadResident).Canonical := by
  unfold CoreSt.reloadResident
  exact CoreSt.foldl_canonical (fun _ _ hd => wf_loadRegion _ hd) hc

theorem CoreSt.dropWorking_canonical (hc : c.Canonical) : c.dropWorking.Canonical := Tab.wf_filter _ hc

theorem recoverCore_canonical {n pass} (hs : s.Canonical) : (recoverCore n pass s).Canonical := by
  unfold recoverCore
  exact ite_canonical hs (ite_canonical (modCore_canonical (fun _ hc => wf_emptyRings hc) (modCore_canonical (fun _ hc =>
      CoreSt.ite_canonical (CoreSt.reloadResident_canonical (CoreSt.dropWorking_canonical hc)) (CoreSt.dropWorking_canonical hc))
      hs)) (report_canonical (modCore_canonical (fun _ hc => CoreSt.ite_canonical (CoreSt.reloadResident_canonical
      (CoreSt.dropWorking_canonical hc)) (CoreSt.dropWorking_canonical hc)) hs)))

/-! ### Allocations, pushes, pops, returns and recovery (R177 to R191, R383, R384) -/

theorem withTable_canonical {table} (hs : s.Canonical) (ht : t.Canonical) : (withTable table s t).Canonical := by
  unfold withTable
  exact ite_canonical (fatalError_canonical hs) ht

theorem giveHandle_canonical {a q h} (hs : s.Canonical) : (giveHandle a q h s).Canonical := by
  unfold giveHandle
  refine emit_canonical ?_
  split
  · exact holdOutput_canonical hs
  · exact hs

theorem waitAlloc_canonical {a via} (hs : s.Canonical) : (waitAlloc a via s).Canonical := by
  unfold waitAlloc
  split
  · exact ite_canonical hs (beginWait_canonical hs)
  · exact hs

theorem allocGate_canonical {a p take} (htake : ∀ pl t, t.Canonical → (take pl t).Canonical) (hs : s.Canonical) :
    (allocGate a p take s).Canonical := by
  unfold allocGate
  split
  · exact refuseOp_canonical hs
  · rename_i pl _
    have ht := readDescriptor_canonical (n := pl.freeQueue) (u := .clean) hs
    generalize readDescriptor pl.freeQueue .clean s = read at ht ⊢
    obtain ⟨ok, t⟩ := read
    dsimp only
    split
    · exact refuseOp_canonical ht
    · split
      · exact ht
      · exact refuseOp_canonical ht
      · exact ht
      · exact htake pl t ht

theorem takeFree_canonical {p pl seg} (hs : s.Canonical) : ∀ r, takeFree p pl seg s = some r → r.2.Canonical := by
  intro r hr
  unfold takeFree at hr
  dsimp only at hr
  split at hr
  · cases hr
  · cases hr
    exact openWindows_canonical (modBuffer_canonical (modQueue_canonical hs))

theorem allocFrom_canonical {a p seg} (hs : s.Canonical) : (allocFrom a p seg s).Canonical := by
  unfold allocFrom
  refine allocGate_canonical (fun pl t ht => ?_) hs
  split
  · exact takeFree_canonical ht _ ‹_›
  · exact ht

theorem stampAhead_canonical {a h} (hs : s.Canonical) : (stampAhead a h s).Canonical := by
  unfold stampAhead
  split
  · split
    · exact hs
    · exact stampOutput_canonical hs
  · exact hs

theorem noteRecent_canonical {l line seg h} (hs : s.Canonical) : (noteRecent l line seg h s).Canonical := by
  unfold noteRecent
  exact modQmg_canonical hs

theorem pushAhead_canonical {a q h} (hs : s.Canonical) : (pushAhead a q h s).Canonical := by
  unfold pushAhead
  split
  · exact push_canonical hs
  · exact hs

theorem allocStrata_canonical {a l x line seg} (hs : s.Canonical) : (allocStrata a l x line seg s).Canonical := by
  have hstep : ∀ r : AllocStep, r.Canonical → (match r with
      | .ended s1 => s1
      | .wait s1 => waitAlloc a (.link l line seg) s1
      | .got h s1 =>
        pushAhead a (x.ends seg).2 (aheadHandle (noteRecent l line seg h (stampAhead a h s1)) a h)
          (giveHandle a none h (noteRecent l line seg h (stampAhead a h s1)))).Canonical := by
    intro r hr
    cases r with
    | got h t => exact pushAhead_canonical (giveHandle_canonical (noteRecent_canonical (stampAhead_canonical hr)))
    | wait t => exact waitAlloc_canonical hr
    | ended t => exact hr
  unfold allocStrata
  refine hstep _ ?_
  split
  · exact allocGate_canonical (fun _ _ ht => giveHandle_canonical ht) hs
  · split
    · cases a with
      | core c => exact seqIllegal_canonical hs
      | _ => exact hs
    · exact allocFrom_canonical hs

theorem allocFrame_canonical {a l x line seg} (hs : s.Canonical) : (allocFrame a l x line seg s).Canonical := by
  have ht := allocFrom_canonical (a := a) (p := (x.ends seg).1) (seg := seg) hs
  unfold allocFrame
  dsimp only
  generalize allocFrom a (x.ends seg).1 seg s = step at ht ⊢
  cases step with
  | got h t => exact giveHandle_canonical ht
  | wait t => exact waitAlloc_canonical ht
  | ended t => exact ht

theorem allocate_canonical {a via} (hs : s.Canonical) : (allocate a via s).Canonical := by
  cases via with
  | pool p =>
    have ht := allocFrom_canonical (a := a) (p := p) (seg := 0) hs
    unfold allocate
    dsimp only
    generalize allocFrom a p 0 s = step at ht ⊢
    cases step with
    | got h t => exact giveHandle_canonical ht
    | wait t => exact waitAlloc_canonical ht
    | ended t => exact ht
  | link l line seg =>
    unfold allocate
    dsimp only
    split
    · split
      · exact seqIllegal_canonical hs
      · exact hs
    · exact ite_canonical (allocStrata_canonical hs) (allocFrame_canonical hs)

theorem checkHeld_canonical {a h} (hs : s.Canonical) : (checkHeld a h s).Canonical := by
  unfold checkHeld
  exact ite_canonical hs (checkOutput_canonical hs)

theorem pushChecked_canonical {u a n h} (hs : s.Canonical) : (pushChecked u a n h s).Canonical := by
  unfold pushChecked
  exact ite_canonical (pushTurn_canonical hs) hs

theorem dropOutput_canonical {n h} (hs : s.Canonical) : (dropOutput n h s).Canonical := by
  unfold dropOutput
  exact modCore_canonical (fun _ hc => hc) hs

theorem pushHeld_canonical {u c n h} (hs : s.Canonical) : (pushHeld u c n h s).Canonical := by
  unfold pushHeld
  split
  · exact pushChecked_canonical hs
  · rename_i v _
    have hout : (checkHeld (.core c) h (stampOutput v h s)).Canonical := checkHeld_canonical (stampOutput_canonical hs)
    have ht := pushTurn_canonical (u := u) (a := .core c) (n := n) (h := outHandle (checkHeld (.core c) h (stampOutput v h s)) v h) hout
    refine ite_canonical hs ?_
    dsimp only
    generalize pushTurn u (.core c) n _ (checkHeld (.core c) h (stampOutput v h s)) = turn at ht ⊢
    obtain ⟨_ | _ | _, t⟩ := turn
    · exact dropOutput_canonical ht
    · exact ht
    · exact pushTurn_canonical hs

theorem pushNow_canonical {u a n h} (hs : s.Canonical) : (pushNow u a n h s).Canonical := by
  unfold pushNow
  split
  · exact pushHeld_canonical hs
  · exact pushChecked_canonical hs

theorem dropInput_canonical {n h} (hs : s.Canonical) : (dropInput n h s).Canonical := by
  unfold dropInput
  exact modCore_canonical (fun _ hc => hc) hs

theorem coreReturn_canonical {c h} (hs : s.Canonical) : (coreReturn c h s).Canonical := by
  have ht := returnTurn_canonical (a := .core c) (h := h) hs
  unfold coreReturn
  generalize returnTurn (.core c) h s = turn at ht ⊢
  obtain ⟨_ | _ | _, t⟩ := turn
  · exact dropInput_canonical ht
  · exact ht
  · exact ht

theorem popResumes_canonical {c n} (hs : s.Canonical) : (popResumes c n s).Canonical := by
  unfold popResumes
  dsimp only
  split
  · exact endWait_canonical hs
  · exact refuseOp_canonical (endWait_canonical hs)
  · exact hs
  · exact hs
  · split
    · exact deliver_canonical (endWait_canonical (modQueue_canonical hs))
    · exact modQueue_canonical hs

theorem dropPushed_canonical {c h} (hs : s.Canonical) : (dropPushed c h s).Canonical := by
  unfold dropPushed
  exact modCore_canonical (fun _ hc => hc) hs

theorem pushResumes_canonical {c n h} (hs : s.Canonical) : (pushResumes c n h s).Canonical := by
  unfold pushResumes
  dsimp only
  split
  · exact endWait_canonical hs
  · exact refuseOp_canonical (endWait_canonical hs)
  · exact hs
  · exact hs
  · exact ite_canonical (refuseOp_canonical (endWait_canonical hs)) (ite_canonical (refuseOp_canonical (endWait_canonical hs))
      (ite_canonical hs (pushEntry_canonical (dropPushed_canonical (endWait_canonical hs)))))

theorem returnResumes_canonical {c h} (hs : s.Canonical) : (returnResumes c h s).Canonical := by
  unfold returnResumes
  split
  · exact hs
  · exact hs
  · exact coreReturn_canonical (endWait_canonical hs)

theorem allocResumes_canonical {c via} (hs : s.Canonical) : (allocResumes c via s).Canonical := by
  unfold allocResumes
  exact ite_canonical hs (allocate_canonical (endWait_canonical hs))

theorem queueWaitEnds_canonical {c} (hs : s.Canonical) : (queueWaitEnds c s).Canonical := by
  unfold queueWaitEnds
  split
  · exact popResumes_canonical hs
  · exact pushResumes_canonical hs
  · exact allocResumes_canonical hs
  · exact returnResumes_canonical hs
  · exact hs

theorem reclaim_canonical {p pl i} (hs : s.Canonical) : (reclaim p pl i s).Canonical := by
  unfold reclaim
  exact raise_canonical (giveFree_canonical (modBuffer_canonical hs))

theorem orphanItem_canonical {b} (hs : s.Canonical) : (orphanItem b s).Canonical := by
  unfold orphanItem
  split
  · exact hs
  · exact ite_canonical hs (qmgRecord_canonical hs)

theorem reclaimAll_canonical {p pl is carry} (hs : s.Canonical) : (reclaimAll p pl is carry s).Canonical := by
  unfold reclaimAll
  exact ite_canonical (forEach_canonical (fun _ _ ht => orphanItem_canonical ht) (forEach_canonical (fun _ _ ht => reclaim_canonical
      ht) hs)) (forEach_canonical (fun _ _ ht => reclaim_canonical ht) hs)

theorem reconcile_canonical {p} (hs : s.Canonical) : (reconcile p s).Canonical := by
  unfold reconcile
  split
  · exact hs
  · exact reclaimAll_canonical hs

theorem recoverVein_canonical {n} (hs : s.Canonical) : (recoverVein n s).Canonical := by
  unfold recoverVein
  refine forEach_canonical (fun _ _ ht => reconcile_canonical ht) (forEach_canonical (fun _ _ ht => ?_) (modQueue_canonical hs))
  split
  · exact ht
  · exact reclaimAll_canonical ht

theorem recoverCtx_canonical {c} (hs : s.Canonical) : (recoverCtx c s).Canonical := by
  unfold recoverCtx
  exact forEach_canonical (fun _ _ ht => cancelEpoch_canonical ht) (modCtx_canonical (retireCtx_canonical hs))

theorem recoverQueue_canonical {n} (hs : s.Canonical) : (recoverQueue n s).Canonical := by
  unfold recoverQueue
  exact ite_canonical (ite_canonical (recoverVein_canonical hs) hs) (ite_canonical (ite_canonical (recoverCtx_canonical hs) hs)
      (ite_canonical (recoverCtx_canonical hs) hs))

theorem batch_canonical {slot} (hs : s.Canonical) : (batch slot s).Canonical := by
  unfold batch
  refine forEach_canonical (fun _ _ ht => ?_) hs
  split
  · exact ht
  · exact ite_canonical (launch_canonical ht) ht

theorem replenish_canonical {p} (hs : s.Canonical) : (replenish p s).Canonical := by
  unfold replenish
  split
  · exact hs
  · exact ite_canonical hs (stampReady_canonical hs)

theorem faultedOutput_canonical {l x v} (hs : s.Canonical) : ∀ t, faultedOutput l x v s = some t → t.Canonical := by
  intro t h
  unfold faultedOutput at h
  dsimp only at h
  split at h
  · cases h
    exact hs
  · split at h
    · split at h
      · cases h
        exact hs
      · obtain ⟨r, hr, rfl⟩ := Option.map_eq_some_iff.mp h
        exact push_canonical (noteRecent_canonical (stampOutput_canonical (takeFree_canonical hs r hr)))
    · obtain ⟨r, hr, rfl⟩ := Option.map_eq_some_iff.mp h
      exact push_canonical (checkOutput_canonical (stampOutput_canonical (takeFree_canonical hs r hr)))

theorem faultedItem_canonical {n} (hs : s.Canonical) : (faultedItem n s).Canonical := by
  unfold faultedItem
  split
  · exact hs
  · rename_i u rest _
    have hdone : ∀ {t : State}, t.Canonical → (forEach u.inputs (fun h s => giveBack .firmware h s)
        (t.modCore n.val (fun c => { c with ready := rest }))).Canonical := fun ht =>
      forEach_canonical (fun _ _ hu => giveBack_canonical hu) (modCore_canonical (fun _ hc => hc) ht)
    refine ite_canonical hs ?_
    dsimp only
    split
    · exact hdone hs
    · refine ite_canonical (stopRecord_canonical (hdone hs)) ?_
      split
      · exact hdone hs
      · split
        · exact hs
        · exact hdone (notePushed_canonical (faultedOutput_canonical hs _ ‹_›))

/-! ### Frames at their ports, slots and alignment groups (R84, R186, R231 to R235) -/

theorem dropPacket_canonical {p} (hs : s.Canonical) : (dropPacket p s).Canonical := by
  unfold dropPacket
  exact raise_canonical (modPort_canonical hs)

theorem strayPacket_canonical {p} (hs : s.Canonical) : (strayPacket p s).Canonical := by
  unfold strayPacket
  exact raise_canonical (modPort_canonical hs)

theorem countPacket_canonical {p} (hs : s.Canonical) : (countPacket p s).Canonical := by
  unfold countPacket
  exact modPort_canonical hs

theorem countCrc_canonical {p} (hs : s.Canonical) : (countCrc p s).Canonical := by
  unfold countCrc
  exact raise_canonical (modPort_canonical hs)

theorem flagItemAs_canonical {unit id seq cause bit} (hs : s.Canonical) : (flagItemAs unit id seq cause bit s).Canonical := by
  unfold flagItemAs
  split
  · exact hs
  · split
    · exact hs
    · exact ite_canonical hs (report_canonical (modItem_canonical hs))

theorem flagItem_canonical {id seq cause bit} (hs : s.Canonical) : (flagItem id seq cause bit s).Canonical := by
  unfold flagItem
  exact flagItemAs_canonical hs

theorem takeOne_canonical {st k seg} (hs : s.Canonical) : (takeOne st k seg s).2.Canonical := by
  unfold takeOne
  split
  · exact hs
  · rename_i l _
    have ht := allocFrom_canonical (a := .ingress) (p := (l.ends seg).1) (seg := seg) hs
    generalize allocFrom .ingress (l.ends seg).1 seg s = step at ht ⊢
    cases step <;> exact ht

theorem takeCopies_canonical {st seg ks} (hs : s.Canonical) : (takeCopies st seg ks s).2.Canonical := by
  induction ks generalizing s with
  | nil => exact hs
  | cons k ks ih =>
    have ht := takeOne_canonical (st := st) (k := k) (seg := seg) hs
    unfold takeCopies
    generalize takeOne st k seg s = one at ht ⊢
    obtain ⟨_ | x, t⟩ := one
    · exact ht
    · have hu := ih ht
      dsimp only
      generalize takeCopies st seg ks t = rest at hu ⊢
      obtain ⟨_ | xs, u⟩ := rest
      · exact forceFree_canonical hu
      · exact hu

theorem takeBuffers_canonical {st seq seg} (hs : s.Canonical) : (takeBuffers st seq seg s).2.Canonical := by
  unfold takeBuffers
  exact ite_snd_canonical hs (takeCopies_canonical hs)

theorem dropHandles_canonical {hs'} (hs : s.Canonical) : (dropHandles hs' s).Canonical := by
  unfold dropHandles
  exact forEach_canonical (fun _ _ ht => forceFree_canonical ht) hs

theorem stampBuffer_canonical {h id seq stamp len cause crc} (hs : s.Canonical) :
    (stampBuffer h id seq stamp len cause crc s).Canonical := by
  unfold stampBuffer
  exact modBuffer_canonical hs

theorem wholeRows_canonical {len lines rs} (hs : s.Canonical) : (wholeRows len lines rs s).2.Canonical := by
  induction rs generalizing s with
  | nil => exact hs
  | cons r rs ih => exact ih hs

theorem pushIngress_canonical {st id seq last stamp len crc q h} (hs : s.Canonical) :
    (pushIngress st id seq last stamp len crc q h s).Canonical := by
  unfold pushIngress
  exact ite_canonical (forceFree_canonical (stampBuffer_canonical hs)) (push_canonical (stampBuffer_canonical hs))

theorem detect_canonical {id seq rows} (hs : s.Canonical) : (detect id seq rows s).Canonical := by
  unfold detect
  exact forEach_canonical (fun _ _ ht => ite_canonical (ite_canonical (raise_canonical (modTal_canonical ht)) (modTal_canonical ht))
      (ite_canonical (flagItem_canonical (ite_canonical (raise_canonical (modTal_canonical ht)) (modTal_canonical ht)))
      (modItem_canonical (ite_canonical (raise_canonical (modTal_canonical ht)) (modTal_canonical ht))))) hs

theorem checkItem_canonical {id seq stamp payload} (hs : s.Canonical) : (checkItem id seq stamp payload s).Canonical := by
  unfold checkItem
  exact modItem_canonical hs

theorem restamp_canonical {id seq stamp} (hs : s.Canonical) : (restamp id seq stamp s).Canonical := by
  unfold restamp
  exact modQmg_canonical hs

theorem overrunItem_canonical {id p seq stamp} (hs : s.Canonical) : (overrunItem id p seq stamp s).Canonical := by
  unfold overrunItem
  split
  · exact hs
  · exact discardRecord_canonical (report_canonical (restamp_canonical (modItem_canonical (raise_canonical (modPort_canonical
      hs)))))

theorem faultedRecord_canonical {id seq hs'} (hs : s.Canonical) : (faultedRecord id seq hs' s).Canonical := by
  unfold faultedRecord
  exact qmgRecord_canonical (dropHandles_canonical hs)

theorem pushFrame_canonical {id seq hs'} (hs : s.Canonical) : (pushFrame id seq hs' s).Canonical := by
  unfold pushFrame
  split
  · exact dropHandles_canonical hs
  · exact forEach_canonical (fun _ _ ht => pushIngress_canonical ht) hs

theorem modGroup_canonical {g f} (hs : s.Canonical) : (modGroup g f s).Canonical := by
  unfold modGroup
  exact modTal_canonical hs

theorem releaseSet_canonical {g set} (hs : s.Canonical) : (releaseSet g set s).Canonical := by
  unfold releaseSet
  exact forEach_canonical (fun _ _ ht => pushFrame_canonical (ite_canonical ht (flagItem_canonical ht))) (ite_canonical
      (modGroup_canonical hs) (raise_canonical (modGroup_canonical hs)))

theorem lateFrame_canonical {g id seq hs'} (hs : s.Canonical) : (lateFrame g id seq hs' s).Canonical := by
  unfold lateFrame
  exact pushFrame_canonical (flagItem_canonical (raise_canonical (modGroup_canonical hs)))

theorem joinSet_canonical {g k id seq stamp hs'} (hs : s.Canonical) : (joinSet g k id seq stamp hs' s).Canonical := by
  unfold joinSet
  dsimp only
  split
  · exact ite_canonical (releaseSet_canonical (modGroup_canonical hs)) (modGroup_canonical hs)
  · refine modGroup_canonical ?_
    split
    · exact releaseSet_canonical hs
    · exact hs

theorem releaseDue_canonical {g} (hs : s.Canonical) : (releaseDue g s).Canonical := by
  unfold releaseDue
  exact forEach_canonical (fun _ _ ht => releaseSet_canonical ht) hs

theorem groupFrame_canonical {g k id seq stamp hs'} (hs : s.Canonical) : (groupFrame g k id seq stamp hs' s).Canonical := by
  unfold groupFrame
  exact ite_canonical (lateFrame_canonical (releaseDue_canonical hs)) (joinSet_canonical (releaseDue_canonical hs))

theorem deliverFrame_canonical {id seq stamp hs'} (hs : s.Canonical) : (deliverFrame id seq stamp hs' s).Canonical := by
  unfold deliverFrame
  split
  · exact hs
  · refine ite_canonical (faultedRecord_canonical hs) ?_
    split
    · exact groupFrame_canonical hs
    · exact pushFrame_canonical hs

theorem modFrame_canonical {id f} (hs : s.Canonical) : (modFrame id f s).Canonical := by
  unfold modFrame
  exact modStream_canonical hs

theorem openFrame_canonical {id seq} (hs : s.Canonical) : (openFrame id seq s).Canonical := by
  have ht : (acceptItem id { seq := seq, stamp := s.tal.time }
      (s.modStream id (fun st => { st with nextSeq := seq + 1 }))).Canonical := acceptItem_canonical (modStream_canonical hs)
  unfold openFrame
  generalize acceptItem id _ _ = t at ht ⊢
  dsimp only
  split
  · exact ht
  · rename_i st _
    have hu := takeBuffers_canonical (st := st) (seq := seq) (seg := 0) ht
    generalize takeBuffers st seq 0 t = taken at hu ⊢
    obtain ⟨_ | _, u⟩ := taken <;> exact modStream_canonical hu

theorem closeFrame_canonical {id p f rows payload} (hs : s.Canonical) : (closeFrame id p f rows payload s).Canonical := by
  unfold closeFrame
  exact ite_canonical (dropHandles_canonical (modStream_canonical hs)) (ite_canonical (overrunItem_canonical (modStream_canonical
      hs)) (deliverFrame_canonical (detect_canonical (checkItem_canonical (modStream_canonical hs)))))

/-! ### CSI-2 frames and crops (R211 to R213, R239) -/

theorem cropEntry_canonical {id d o ho wo ps e} (hs : s.Canonical) : (cropEntry id d o ho wo ps e s).2.Canonical := by
  unfold cropEntry
  exact ite_snd_canonical hs hs

theorem cropSlots_canonical {id d o ho wo ps es ks} (hs : s.Canonical) : (cropSlots id d o ho wo ps es ks s).2.Canonical := by
  induction ks generalizing s with
  | nil => exact hs
  | cons k ks ih =>
    refine ih ?_
    split
    · exact cropEntry_canonical hs
    · exact hs

theorem noteBeyond_canonical {f n} (hs : s.Canonical) : (noteBeyond f n s).Canonical := by
  unfold noteBeyond
  exact forEach_canonical (fun _ _ ht => modBuffer_canonical ht) hs

theorem judgeBoxes_canonical {id d f boxes} (hs : s.Canonical) : (judgeBoxes id d f boxes s).Canonical := by
  unfold judgeBoxes
  exact ite_canonical (flagItemAs_canonical (noteBeyond_canonical (ite_canonical hs (raise_canonical (modPpe_canonical hs)))))
      (ite_canonical hs (raise_canonical (modPpe_canonical hs)))

theorem cropFrame_canonical {id d o size f boxes rows} (hs : s.Canonical) : (cropFrame id d o size f boxes rows s).2.Canonical := by
  unfold cropFrame
  exact emit_canonical (judgeBoxes_canonical (cropSlots_canonical hs))

theorem framePayload_canonical {id d f boxes rows} (hs : s.Canonical) : (framePayload id d f boxes rows s).2.Canonical := by
  unfold framePayload
  split
  · exact cropFrame_canonical hs
  · split
    · exact emit_canonical hs
    · exact hs

theorem endFrame_canonical {id p d f boxes shape} (hs : s.Canonical) : (endFrame id p d f boxes shape s).Canonical := by
  unfold endFrame
  exact ite_canonical (closeFrame_canonical (ite_canonical (flagItem_canonical (raise_canonical hs)) hs)) (closeFrame_canonical
      (framePayload_canonical (wholeRows_canonical (ite_canonical (flagItem_canonical (raise_canonical hs)) hs))))

theorem flagPort_canonical {p} (hs : s.Canonical) : (flagPort p s).Canonical := by
  unfold flagPort
  refine forEach_canonical (fun _ _ ht => ?_) hs
  split
  · exact ht
  · exact flagItem_canonical ht

theorem checkHeader_canonical {p ecc} (hs : s.Canonical) : (checkHeader p ecc s).2.Canonical := by
  unfold checkHeader
  exact ite_snd_canonical (flagPort_canonical (raise_canonical (dropPacket_canonical (takeInj_canonical (takeInj_canonical hs)))))
      (ite_snd_canonical (raise_canonical (modPort_canonical (takeInj_canonical (takeInj_canonical hs)))) (takeInj_canonical
      (takeInj_canonical hs)))

theorem frameStart_canonical {p vc frameNo} (hs : s.Canonical) : (frameStart p vc frameNo s).Canonical := by
  unfold frameStart
  split
  · exact strayPacket_canonical hs
  · refine ite_canonical ?_ (openFrame_canonical (modStream_canonical ?_))
    · split
      · exact countPacket_canonical hs
      · exact endFrame_canonical (countPacket_canonical hs)
    · split
      · exact countPacket_canonical hs
      · exact endFrame_canonical (countPacket_canonical hs)

theorem longPacket_canonical {p vc dt crcOk data} (hs : s.Canonical) : (longPacket p vc dt crcOk data s).Canonical := by
  unfold longPacket
  split
  · exact strayPacket_canonical hs
  · refine ite_canonical (countPacket_canonical hs) ?_
    split
    · exact dropPacket_canonical hs
    · exact ite_canonical (dropPacket_canonical hs) (ite_canonical (flagItem_canonical (countCrc_canonical (modFrame_canonical
        (takeInj_canonical (countPacket_canonical hs))))) (modFrame_canonical (takeInj_canonical (countPacket_canonical hs))))

theorem frameEnd_canonical {p vc boxes} (hs : s.Canonical) : (frameEnd p vc boxes s).Canonical := by
  unfold frameEnd
  split
  · exact strayPacket_canonical hs
  · split
    · exact dropPacket_canonical hs
    · exact endFrame_canonical (countPacket_canonical hs)

/-! ### Remote writes and transfers that return (R126, R127, R134 to R136, R190) -/

theorem writerRefused_canonical {a reason} (hs : s.Canonical) : (writerRefused a reason s).Canonical := by
  unfold writerRefused
  split
  · exact flagUnit_canonical (report_canonical (raiseAt_canonical hs))
  · exact hs

theorem countIssue_canonical {a q} (hs : s.Canonical) : (countIssue a q s).Canonical := by
  unfold countIssue
  split
  · exact issueTransfer_canonical hs
  · exact hs

theorem notePiece_canonical {a n w ws trailer} (hs : s.Canonical) : (notePiece a n w ws trailer s).Canonical := by
  unfold notePiece
  exact modMesh_canonical hs

theorem paidTrailer_canonical {a trailer} (hs : s.Canonical) : (paidTrailer a trailer s).Canonical := by
  unfold paidTrailer
  split
  · exact ite_canonical (modCore_canonical (fun _ hc => hc) hs) hs
  · exact hs

theorem remoteWrite_canonical {a n w gen addr data poison trailer} (hs : s.Canonical) :
    (remoteWrite a n w gen addr data poison trailer s).Canonical := by
  have ht : (paidTrailer a trailer (notePiece a n w (sentWords a n w data trailer s) trailer
      (countIssue a (queueOfWindow s n w) s))).Canonical := paidTrailer_canonical (notePiece_canonical (countIssue_canonical hs))
  unfold remoteWrite
  refine ite_canonical hs (ite_canonical (emit_canonical ht) ?_)
  split
  · exact writerRefused_canonical (emit_canonical (modCore_canonical (fun _ hc => hc) ht))
  · exact modCore_canonical (fun _ hc => hc) ht

theorem endTransfer_canonical {x} (hs : s.Canonical) : (endTransfer x s).Canonical := by
  unfold endTransfer
  exact issueFetches_canonical (modQmg_canonical (modQueue_canonical hs))

theorem endWrite_canonical {c n} (hs : s.Canonical) : (endWrite c n s).Canonical := by
  unfold endWrite
  split
  · exact endTransfer_canonical hs
  · split
    · exact endTransfer_canonical hs
    · exact hs

theorem flagHolder_canonical {n h cause} (hs : s.Canonical) : (flagHolder n h cause s).Canonical := by
  unfold flagHolder
  exact modCore_canonical (fun _ hc => CoreSt.ite_canonical hc hc) hs

theorem readCheckFailed_canonical {n h cause} (hs : s.Canonical) : (readCheckFailed n h cause s).Canonical := by
  unfold readCheckFailed
  dsimp only
  split
  · exact holdJob_canonical (checkEvent_canonical hs)
  · exact flagHolder_canonical (checkEvent_canonical hs)

theorem fill_canonical {n dest ws} (hs : s.Canonical) : (fill n dest ws s).Canonical := by
  unfold fill
  exact ite_canonical (modCore_canonical (fun _ hc => hc) hs) (seqIllegal_canonical hs)

theorem keepRead_canonical {n h b more} (hs : s.Canonical) : (keepRead n h b more s).Canonical := by
  unfold keepRead
  exact modCore_canonical (fun _ hc => hc) hs

theorem staleRead_canonical {n u} (hs : s.Canonical) : (staleRead n u s).Canonical := by
  unfold staleRead
  exact report_canonical (raiseAt_canonical hs)

theorem checkRead_canonical {n h data poisoned} (hs : s.Canonical) : (checkRead n h data poisoned s).Canonical := by
  unfold checkRead
  exact ite_canonical (flagHolder_canonical (staleRead_canonical (emit_canonical hs))) (ite_canonical (readCheckFailed_canonical
      (keepRead_canonical hs)) (ite_canonical (flagHolder_canonical (keepRead_canonical hs)) (keepRead_canonical hs)))

theorem readReturns_canonical {n h dest data poison} (hs : s.Canonical) : (readReturns n h dest data poison s).Canonical := by
  unfold readReturns
  exact fill_canonical (checkRead_canonical hs)

theorem endRead_canonical {n q h} (hs : s.Canonical) : (endRead n q h s).Canonical := by
  unfold endRead
  split
  · exact endTransfer_canonical hs
  · exact hs

theorem dataReturns_canonical {n q h dest data poison} (hs : s.Canonical) : (dataReturns n q h dest data poison s).Canonical := by
  unfold dataReturns
  exact ite_canonical (endRead_canonical hs) (ite_canonical (emit_canonical (endRead_canonical hs)) (ite_canonical hs (ite_canonical
      (readReturns_canonical (endRead_canonical hs)) hs)))

theorem noteVerdict_canonical {n base} (hs : s.Canonical) : (noteVerdict n base s).Canonical := by
  unfold noteVerdict
  exact modCore_canonical (fun _ hc => hc) hs

theorem pieceReturns_canonical {n base words u k} (hs : s.Canonical) : (pieceReturns n base words u k s).Canonical := by
  have ht := readRanges_canonical (n := n) (rs := [(base, words + 2)]) (u := u) (k := k) hs
  unfold pieceReturns
  refine ite_canonical (seqIllegal_canonical hs) (ite_canonical (noteVerdict_canonical (flagUnit_canonical (staleRead_canonical
      hs))) ?_)
  generalize readRanges n [(base, words + 2)] u k s = read at ht ⊢
  obtain ⟨stopped, t⟩ := read
  refine ite_canonical ht ?_
  dsimp only
  split
  · exact noteVerdict_canonical ht
  · exact flagUnit_canonical (ite_canonical (checkEvent_canonical (noteVerdict_canonical ht)) (noteVerdict_canonical ht))

theorem transferReturns_canonical {n q r} (hs : s.Canonical) : (transferReturns n q r s).Canonical := by
  unfold transferReturns
  split
  · exact endWrite_canonical hs
  · exact endWrite_canonical hs
  · exact dataReturns_canonical hs
  · exact pieceReturns_canonical hs

/-! ### Lines of CoaXPress cameras (R214, R215, R227) -/

theorem modLine_canonical {id seq f} (hs : s.Canonical) : (modLine id seq f s).Canonical := by
  unfold modLine
  exact modStream_canonical hs

theorem dropLine_canonical {id l} (hs : s.Canonical) : (dropLine id l s).Canonical := by
  unfold dropLine
  exact dropHandles_canonical (modStream_canonical hs)

theorem discardLine_canonical {id p l} (hs : s.Canonical) : (discardLine id p l s).Canonical := by
  unfold discardLine
  exact overrunItem_canonical (modStream_canonical (dropLine_canonical hs))

theorem takeSegments_canonical {fuel id seq} (hs : s.Canonical) : (takeSegments fuel id seq s).2.Canonical := by
  induction fuel generalizing s with
  | zero => exact hs
  | succ fuel ih =>
    unfold takeSegments
    split
    · exact hs
    · rename_i st l _
      have ht := takeBuffers_canonical (st := st) (seq := seq) (seg := l.begun) hs
      refine ite_snd_canonical ?_ hs
      generalize takeBuffers st seq l.begun s = taken at ht ⊢
      obtain ⟨_ | hs', t⟩ := taken
      · exact ht
      · exact ih (modLine_canonical ht)

theorem lineStamp_canonical {l} (hs : s.Canonical) : (lineStamp l s).2.Canonical := by
  unfold lineStamp
  split <;> exact hs

theorem forgetLine_canonical {id seq} (hs : s.Canonical) : (forgetLine id seq s).Canonical := by
  unfold forgetLine
  exact modStream_canonical hs

theorem pushSegments_canonical {id seq} (hs : s.Canonical) : (pushSegments id seq s).Canonical := by
  unfold pushSegments
  split
  · exact hs
  · exact forgetLine_canonical (forEach_canonical (fun _ _ ht => pushIngress_canonical ht) (modLine_canonical (lineStamp_canonical
      hs)))

theorem pieceWritten_canonical {a n w} (hs : s.Canonical) : (pieceWritten a n w s).Canonical := by
  unfold pieceWritten
  split
  · split
    · exact settle_canonical (pushSegments_canonical hs)
    · exact hs
  · exact hs

theorem missLine_canonical {id st l} (hs : s.Canonical) : (missLine id st l s).Canonical := by
  unfold missLine
  exact qmgRecord_canonical (report_canonical (raise_canonical (restamp_canonical (modItem_canonical (dropLine_canonical hs)))))

theorem timeoutLines_canonical {k} (hs : s.Canonical) : (timeoutLines k s).Canonical := by
  unfold timeoutLines
  split
  · exact hs
  · split
    · exact hs
    · exact forEach_canonical (fun _ _ ht => missLine_canonical ht) hs

theorem endLine_canonical {id p st seq} (hs : s.Canonical) : (endLine id p st seq s).Canonical := by
  unfold endLine
  split
  · exact hs
  · exact ite_canonical (faultedRecord_canonical (dropLine_canonical (detect_canonical (checkItem_canonical (restamp_canonical
      (ite_canonical (flagItem_canonical (raise_canonical hs)) hs)))))) (pushSegments_canonical (modLine_canonical (detect_canonical
      (checkItem_canonical (restamp_canonical (ite_canonical (flagItem_canonical (raise_canonical hs)) hs))))))

theorem linePacket_canonical {id p st l off data crcOk lineEnd} (hs : s.Canonical) :
    (linePacket id p st l off data crcOk lineEnd s).Canonical := by
  unfold linePacket
  refine ite_canonical ?_ (ite_canonical (endLine_canonical (takeSegments_canonical (modLine_canonical (ite_canonical
      (flagItem_canonical (countCrc_canonical (takeInj_canonical (countPacket_canonical hs)))) (takeInj_canonical
      (countPacket_canonical hs)))))) (pushSegments_canonical (takeSegments_canonical (modLine_canonical (ite_canonical
      (flagItem_canonical (countCrc_canonical (takeInj_canonical (countPacket_canonical hs)))) (takeInj_canonical
      (countPacket_canonical hs)))))))
  split
  · exact takeSegments_canonical (modLine_canonical (ite_canonical (flagItem_canonical (countCrc_canonical (takeInj_canonical
      (countPacket_canonical hs)))) (takeInj_canonical (countPacket_canonical hs))))
  · exact discardLine_canonical (takeSegments_canonical (modLine_canonical (ite_canonical (flagItem_canonical (countCrc_canonical
      (takeInj_canonical (countPacket_canonical hs)))) (takeInj_canonical (countPacket_canonical hs)))))

theorem strayOnce_canonical {p line lineEnd} (hs : s.Canonical) : (strayOnce p line lineEnd s).Canonical := by
  unfold strayOnce
  exact modPort_canonical (ite_canonical hs (strayPacket_canonical hs))

theorem lineScanPacket_canonical {id p st line off data crcOk lineEnd} (hs : s.Canonical) :
    (lineScanPacket id p st line off data crcOk lineEnd s).Canonical := by
  unfold lineScanPacket
  split
  · exact ite_canonical (modStream_canonical hs) (strayOnce_canonical hs)
  · exact ite_canonical (strayOnce_canonical (missLine_canonical hs)) (linePacket_canonical hs)

theorem areaPacket_canonical {id p st boxes data crcOk lineEnd} (hs : s.Canonical) :
    (areaPacket id p st boxes data crcOk lineEnd s).Canonical := by
  unfold areaPacket
  dsimp only
  split
  · exact ite_canonical (openFrame_canonical (countPacket_canonical hs)) (countPacket_canonical hs)
  · exact ite_canonical (ite_canonical (endFrame_canonical (modFrame_canonical (ite_canonical (flagItem_canonical
      (countCrc_canonical (takeInj_canonical (ite_canonical (openFrame_canonical (countPacket_canonical hs)) (countPacket_canonical
      hs))))) (takeInj_canonical (ite_canonical (openFrame_canonical (countPacket_canonical hs)) (countPacket_canonical hs))))))
      (modFrame_canonical (ite_canonical (flagItem_canonical (countCrc_canonical (takeInj_canonical (ite_canonical
      (openFrame_canonical (countPacket_canonical hs)) (countPacket_canonical hs))))) (takeInj_canonical (ite_canonical
      (openFrame_canonical (countPacket_canonical hs)) (countPacket_canonical hs)))))) (modFrame_canonical (ite_canonical
      (flagItem_canonical (countCrc_canonical (takeInj_canonical (ite_canonical (openFrame_canonical (countPacket_canonical hs))
      (countPacket_canonical hs))))) (takeInj_canonical (ite_canonical (openFrame_canonical (countPacket_canonical hs))
      (countPacket_canonical hs)))))

theorem cxpPacket_canonical {k line off data crcOk lineEnd} (hs : s.Canonical) :
    (cxpPacket k line off data crcOk lineEnd s).Canonical := by
  unfold cxpPacket
  dsimp only
  split
  · exact strayPacket_canonical hs
  · exact ite_canonical (lineScanPacket_canonical hs) (areaPacket_canonical hs)

end Sys2Proof.Machine

/-! The canonical form of both memories under the remaining events: decoders, links, the odometer, re-placements, the vector engine, votes. -/

namespace Sys2Proof.Machine

open Sys2Proof Sys2Proof.Machine.Bits

variable {s t : State} {c : CoreSt}

/-! ### The JPEG-LS decoders and the tokeniser (R240 to R249) -/

theorem corruptSample_canonical {id sample cause bit} (hs : s.Canonical) : (corruptSample id sample cause bit s).Canonical := by
  unfold corruptSample
  split
  · exact hs
  · exact ite_canonical (holdJob_canonical (report_canonical hs)) (qmgRecord_canonical (report_canonical hs))

theorem fedSample_canonical {id sample} (hs : s.Canonical) : (fedSample id sample s).Canonical := by
  unfold fedSample
  exact modStream_canonical hs

theorem rejectImage_canonical {id sample reason} (hs : s.Canonical) : (rejectImage id sample reason s).Canonical := by
  unfold rejectImage
  exact corruptSample_canonical (raise_canonical (modPpe_canonical hs))

theorem startDecode_canonical {d id sample st h} (hs : s.Canonical) : (startDecode d id sample st h s).Canonical := by
  unfold startDecode
  split
  · exact hs
  · rename_i l _
    have ht := allocFrom_canonical (a := .ppe) (p := (l.ends 0).1) (seg := 0) hs
    generalize allocFrom .ppe (l.ends 0).1 0 s = step at ht ⊢
    cases step with
    | got x t => exact modPpe_canonical (takeInj_canonical ht)
    | wait t => exact ht
    | ended t => exact ht

theorem decodeImage_canonical {d id sample h} (hs : s.Canonical) : (decodeImage d id sample h s).Canonical := by
  unfold decodeImage
  refine ite_canonical hs ?_
  split
  · exact hs
  · exact ite_canonical hs (ite_canonical (startDecode_canonical hs) (rejectImage_canonical hs))

theorem decodedBytes_canonical {x st j} (hs : s.Canonical) : (decodedBytes x st j s).2.Canonical := by
  unfold decodedBytes
  exact ite_snd_canonical (emit_canonical hs) hs

theorem finishDecode_canonical {x} (hs : s.Canonical) : (finishDecode x s).Canonical := by
  unfold finishDecode
  split
  · exact forceFree_canonical hs
  · exact push_canonical (modBuffer_canonical (stampBuffer_canonical (decodedBytes_canonical (fedSample_canonical (modPpe_canonical
      hs)))))

theorem endDecode_canonical {d how} (hs : s.Canonical) : (endDecode d how s).Canonical := by
  unfold endDecode
  split
  · exact hs
  · exact ite_canonical (rejectImage_canonical (forceFree_canonical (modPpe_canonical hs))) (ite_canonical (rejectImage_canonical
      (forceFree_canonical (modPpe_canonical hs))) (finishDecode_canonical (modPpe_canonical hs)))

theorem tokeniseInput_canonical {id sample input} (hs : s.Canonical) : (tokeniseInput id sample input s).Canonical := by
  unfold tokeniseInput
  split
  · exact hs
  · exact ite_canonical (corruptSample_canonical (raise_canonical (modPpe_canonical hs))) (emit_canonical (fedSample_canonical
      (modPpe_canonical hs)))

/-! ### Lidar sweeps (R216, R217) -/

theorem endSweep_canonical {id p st f} (hs : s.Canonical) : (endSweep id p st f s).Canonical := by
  unfold endSweep
  exact closeFrame_canonical (wholeRows_canonical (ite_canonical (flagItem_canonical (raise_canonical hs)) hs))

theorem addPacket_canonical {id p st i payload} (hs : s.Canonical) : (addPacket id p st i payload s).Canonical := by
  unfold addPacket
  split
  · exact hs
  · exact ite_canonical (endSweep_canonical (modFrame_canonical hs)) (modFrame_canonical hs)

theorem openSweep_canonical {id p st i payload} (hs : s.Canonical) : (openSweep id p st i payload s).Canonical := by
  unfold openSweep
  refine ite_canonical hs ?_
  split
  · exact hs
  · exact addPacket_canonical (openFrame_canonical hs)

theorem sweepPacket_canonical {id p st payload} (hs : s.Canonical) : (sweepPacket id p st payload s).Canonical := by
  unfold sweepPacket
  refine ite_canonical ?_ ?_
  · dsimp only
    split
    · exact dropPacket_canonical hs
    · exact flagItem_canonical (raise_canonical (dropPacket_canonical hs))
  · split
    · exact openSweep_canonical (countPacket_canonical hs)
    · exact ite_canonical (openSweep_canonical (endSweep_canonical (countPacket_canonical hs))) (ite_canonical (dropPacket_canonical
        hs) (addPacket_canonical (countPacket_canonical hs)))

theorem udpPacket_canonical {lane pkt} (hs : s.Canonical) : (udpPacket lane pkt s).Canonical := by
  unfold udpPacket
  refine ite_canonical (dropPacket_canonical hs) ?_
  split
  · exact strayPacket_canonical hs
  · exact ite_canonical (dropPacket_canonical hs) (sweepPacket_canonical hs)

/-! ### The discipline of the timebase (R219 to R222) -/

theorem timeWarning_canonical {bit} (hs : s.Canonical) : (timeWarning bit s).Canonical := by
  unfold timeWarning
  exact report_canonical (raise_canonical hs)

theorem slew_canonical (hs : s.Canonical) : (slew s).Canonical := hs

theorem measured_canonical {o} (hs : s.Canonical) : (measured o s).Canonical := by
  unfold measured
  exact ite_canonical (timeWarning_canonical (ite_canonical (modTal_canonical (modTal_canonical hs)) (slew_canonical
      (modTal_canonical hs)))) (ite_canonical (modTal_canonical (modTal_canonical hs)) (slew_canonical (modTal_canonical hs)))

theorem askDelay_canonical {m origin arrived} (hs : s.Canonical) : (askDelay m origin arrived s).Canonical := by
  unfold askDelay
  exact emit_canonical (modTal_canonical hs)

theorem fromMaster_canonical {m} (hs : s.Canonical) : (fromMaster m s).Canonical := by
  unfold fromMaster
  dsimp only
  split
  · exact hs
  · exact askDelay_canonical (modTal_canonical hs)
  · exact modTal_canonical (modTal_canonical hs)
  · split
    · exact hs
    · exact askDelay_canonical hs
  · split
    · exact hs
    · exact measured_canonical (modTal_canonical hs)

theorem ptpTaken_canonical {m} (hs : s.Canonical) : (ptpTaken m s).Canonical := by
  unfold ptpTaken
  split
  · exact fromMaster_canonical (modTal_canonical hs)
  · exact ite_canonical hs (ite_canonical (fromMaster_canonical hs) (fromMaster_canonical (modTal_canonical hs)))

theorem ptpMessage_canonical {m} (hs : s.Canonical) : (ptpMessage m s).Canonical := by
  unfold ptpMessage
  exact ite_canonical (dropPacket_canonical hs) (ite_canonical (ptpTaken_canonical (countPacket_canonical hs))
      (countPacket_canonical hs))

theorem edgeSecond_canonical (hs : s.Canonical) : (edgeSecond s).2.Canonical := by
  unfold edgeSecond
  split <;> exact hs

theorem ppsEdge_canonical (hs : s.Canonical) : (ppsEdge s).Canonical := by
  unfold ppsEdge
  exact ite_canonical hs (measured_canonical (modTal_canonical (edgeSecond_canonical hs)))

theorem enterHoldover_canonical (hs : s.Canonical) : (enterHoldover s).Canonical := by
  unfold enterHoldover
  exact ite_canonical (timeWarning_canonical (modTal_canonical hs)) hs

theorem leaveHoldover_canonical (hs : s.Canonical) : (leaveHoldover s).Canonical := by
  unfold leaveHoldover
  exact ite_canonical (timeWarning_canonical (modTal_canonical hs)) hs

/-! ### Error injections (R47, R433) -/

theorem inject_canonical {fn b bit} (hs : s.Canonical) : (inject fn b bit s).Canonical := by
  unfold inject
  exact hostWrite_canonical hs

/-! ### Ternlink and the links of the ports (R421 to R423) -/

theorem peerNotice_canonical {p} (hs : s.Canonical) : (peerNotice p s).Canonical := by
  unfold peerNotice
  exact postNotice_canonical hs

theorem tlkTrain_canonical {p lo hi dev release} (hs : s.Canonical) : (tlkTrain p lo hi dev release s).Canonical := by
  unfold tlkTrain
  split
  · exact raise_canonical (modTlk_canonical hs)
  · exact ite_canonical (modTlk_canonical hs) (peerNotice_canonical (modTlk_canonical hs))

theorem writeLines_canonical {fuel off d part} (hs : s.Canonical) : (writeLines fuel off d part s).Canonical := by
  induction fuel generalizing off d s with
  | zero => exact hs
  | succ fuel ih =>
    unfold writeLines
    exact ite_canonical hs (ih (lineAccess_canonical hs))

theorem tlkFlit_canonical {p crcOk part ap off d} (hs : s.Canonical) : (tlkFlit p crcOk part ap off d s).Canonical := by
  unfold tlkFlit
  exact ite_canonical hs (ite_canonical (raise_canonical (modTlk_canonical (takeInj_canonical hs))) (ite_canonical
      (writeLines_canonical (takeInj_canonical hs)) (raise_canonical (emit_canonical (takeInj_canonical hs)))))

theorem tlkLaneFail_canonical {p lane} (hs : s.Canonical) : (tlkLaneFail p lane s).Canonical := by
  unfold tlkLaneFail
  exact ite_canonical (takeInj_canonical hs) (ite_canonical (ite_canonical (modTlk_canonical (takeInj_canonical hs))
      (raise_canonical (modTlk_canonical (modTlk_canonical (takeInj_canonical hs))))) (ite_canonical (postNotice_canonical
      (raise_canonical (modTlk_canonical (modTlk_canonical (takeInj_canonical hs))))) (modTlk_canonical (modTlk_canonical
      (takeInj_canonical hs)))))

theorem tlkSteered_canonical {p} (hs : s.Canonical) : (tlkSteered p s).Canonical := by
  unfold tlkSteered
  exact ite_canonical (ite_canonical (modTlk_canonical hs) (raise_canonical (modTlk_canonical hs))) hs

theorem tlkMessage_canonical {p release} (hs : s.Canonical) : (tlkMessage p release s).Canonical := by
  unfold tlkMessage
  exact ite_canonical hs (peerNotice_canonical (modTlk_canonical hs))

theorem portDown_canonical {p} (hs : s.Canonical) : (portDown p s).Canonical := by
  unfold portDown
  exact ite_canonical (ite_canonical (modPort_canonical hs) (raise_canonical (modPort_canonical hs))) hs

theorem portUp_canonical {p} (hs : s.Canonical) : (portUp p s).Canonical := by
  unfold portUp
  exact modPort_canonical hs

/-! ### The odometer (R223 to R226) -/

theorem odoReport_canonical {cause bit} (hs : s.Canonical) : (odoReport cause bit s).Canonical := by
  unfold odoReport
  exact report_canonical hs

theorem illegalSample_canonical (hs : s.Canonical) : (illegalSample s).Canonical := by
  unfold illegalSample
  exact odoReport_canonical (raise_canonical (modTal_canonical hs))

theorem skipLine_canonical {id} (hs : s.Canonical) : (skipLine id s).Canonical := by
  unfold skipLine
  exact modStream_canonical hs

theorem skipPosition_canonical (hs : s.Canonical) : (skipPosition s).Canonical := by
  unfold skipPosition
  exact forEach_canonical (fun _ _ ht => skipLine_canonical ht) (odoReport_canonical (raise_canonical (modTal_canonical hs)))

theorem acceptLine_canonical {now causes id} (hs : s.Canonical) : (acceptLine now causes id s).Canonical := by
  unfold acceptLine
  split
  · exact hs
  · exact acceptItem_canonical (modStream_canonical hs)

theorem issueTrigger_canonical (hs : s.Canonical) : (issueTrigger s).Canonical := by
  unfold issueTrigger
  exact modTal_canonical (forEach_canonical (fun _ _ ht => acceptLine_canonical ht) (emit_canonical hs))

theorem crossPosition_canonical (hs : s.Canonical) : (crossPosition s).Canonical := by
  unfold crossPosition
  exact ite_canonical (forEach_canonical (fun _ _ ht => skipLine_canonical ht) hs) (ite_canonical (skipPosition_canonical hs)
      (issueTrigger_canonical hs))

theorem moveTo_canonical {a b} (hs : s.Canonical) : (moveTo a b s).Canonical := by
  unfold moveTo
  exact modTal_canonical (ite_canonical (crossPosition_canonical (modTal_canonical hs)) (modTal_canonical hs))

theorem odoSample_canonical {a b} (hs : s.Canonical) : (odoSample a b s).Canonical := by
  unfold odoSample
  exact ite_canonical (illegalSample_canonical (modTal_canonical (takeInj_canonical hs))) (moveTo_canonical (takeInj_canonical hs))

/-! ### Re-placements (R285 to R289) -/

theorem CoreSt.takeWindows_canonical {old} (hc : c.Canonical) : (c.takeWindows old).Canonical := by
  unfold CoreSt.takeWindows
  exact CoreSt.foldl_canonical (fun _ _ hd => CoreSt.modWindow_canonical hd) hc

theorem prepareCore_canonical {st p x} (hs : s.Canonical) : (prepareCore st p x s).Canonical := by
  unfold prepareCore
  exact ite_canonical hs (modCore_canonical (fun _ hc => CoreSt.takeWindows_canonical hc) (hostCore_canonical hs))

theorem prepare_canonical {st p ms} (hs : s.Canonical) : (prepare st p ms s).Canonical := by
  unfold prepare
  exact refreshBedrock_canonical (modCtl_canonical (forEach_canonical (fun _ _ ht => forEach_canonical (fun _ _ hu =>
      prepareCore_canonical hu) ht) hs))

theorem startReplacement_canonical {slot cores} (hs : s.Canonical) : (startReplacement slot cores s).Canonical := by
  unfold startReplacement
  refine ite_canonical hs ?_
  split
  · exact hs
  · split
    · exact hs
    · refine ite_canonical hs ?_
      split
      · exact hs
      · split
        · exact hs
        · exact ite_canonical (prepare_canonical hs) hs

theorem CoreSt.mirror_canonical {old} (hc : c.Canonical) : (c.mirror old).Canonical := by
  unfold CoreSt.mirror
  exact CoreSt.foldl_canonical (fun _ _ hd => CoreSt.modWindow_canonical hd) (CoreSt.foldl_canonical (fun _ _ hd => wf_writeWord _ _
      hd) hc)

theorem CoreSt.serve_canonical (hc : c.Canonical) : (c.serve).Canonical := by
  unfold CoreSt.serve
  exact CoreSt.ite_canonical hc hc

theorem enterService_canonical {st p x} (hs : s.Canonical) : (enterService st p x s).Canonical := by
  unfold enterService
  exact ite_canonical (modCore_canonical (fun _ hc => CoreSt.serve_canonical hc) hs) (modCore_canonical (fun _ hc =>
      CoreSt.ite_canonical (CoreSt.mirror_canonical hc) (CoreSt.takeWindows_canonical hc)) (ite_canonical (hostCore_canonical
      (modCore_canonical (fun _ hc => CoreSt.ite_canonical (CoreSt.release_canonical hc) (CoreSt.unhost_canonical hc)) hs)) hs))

theorem switchTables_canonical {id ps boundary} (hs : s.Canonical) : (switchTables id ps boundary s).Canonical := by
  unfold switchTables
  exact modQmg_canonical hs

theorem restoreStream_canonical {id} (hs : s.Canonical) : (restoreStream id s).Canonical := by
  unfold restoreStream
  split
  · exact hs
  · exact ite_canonical (releaseFault_canonical (ite_canonical (withdraw_canonical (modStream_canonical (forEach_canonical (fun _ _
      ht => withdraw_canonical ht) hs))) (modStream_canonical (forEach_canonical (fun _ _ ht => withdraw_canonical ht) hs))))
      (forEach_canonical (fun _ _ ht => withdraw_canonical ht) hs)

theorem commit_canonical {id st r boundary} (hs : s.Canonical) : (commit id st r boundary s).Canonical := by
  unfold commit
  extract_lets ps before s1 s2 s3 s4
  have h1 : s1.Canonical := forEach_canonical (fun _ _ ht => forEach_canonical (fun _ _ hu => enterService_canonical hu) ht) hs
  have h3 : s3.Canonical := modCtl_canonical (setStream_canonical (switchTables_canonical h1))
  have h4 : s4.Canonical := same_canonical h3 rfl rfl
  exact checkSpares_canonical (restoreStream_canonical (refreshBedrock_canonical (evenSpares_canonical (rebalance_canonical
    (rehomePools_canonical h4)))))

theorem commitReplacement_canonical {boundary} (hs : s.Canonical) : (commitReplacement boundary s).Canonical := by
  unfold commitReplacement
  split
  · split
    · exact hs
    · exact ite_canonical hs (ite_canonical (abandon_canonical (checkFailed_canonical hs)) (ite_canonical hs (commit_canonical hs)))
  · exact hs

theorem replacementDone_canonical (hs : s.Canonical) : (replacementDone s).Canonical := by
  unfold replacementDone
  split
  · exact hs
  · exact ite_canonical (endRepl_canonical hs) hs

/-! ### The vector engine (R53, R58) -/

theorem CoreSt.setReg_canonical {k r v} (hc : c.Canonical) : (c.setReg k r v).Canonical := hc

theorem writeLanes_canonical {v o b view} (hc : c.Canonical) : (writeLanes v o b view c).Canonical := by
  unfold writeLanes
  refine CoreSt.foldl_canonical (fun _ _ hd => CoreSt.ite_canonical ?_ hd) hc
  split
  · exact CoreSt.setReg_canonical hd
  · exact hd

theorem unitWrites_canonical {n w xs} (hs : s.Canonical) : (unitWrites n w xs s).Canonical := by
  unfold unitWrites
  exact forEach_canonical (fun _ _ ht => unitWrite_canonical ht) hs

theorem vecEffects_canonical {n v o b ok view} (hs : s.Canonical) : (vecEffects n v o b ok view s).Canonical := by
  unfold vecEffects
  dsimp only
  split
  · exact ite_canonical hs (unitWrites_canonical hs)
  · exact ite_canonical hs (unitWrites_canonical hs)
  · exact ite_canonical (flagUnit_canonical hs) (ite_canonical hs (unitWrites_canonical hs))
  · split
    · exact hs
    · exact ite_canonical hs (unitWrites_canonical hs)
  · exact ite_canonical (ite_canonical (flagUnit_canonical hs) hs) (unitWrites_canonical (ite_canonical (flagUnit_canonical hs) hs))
  · exact ite_canonical (flagUnit_canonical hs) (ite_canonical (ite_canonical (flagUnit_canonical hs) hs) (unitWrites_canonical
      (ite_canonical (flagUnit_canonical hs) hs)))
  · split
    · exact hs
    · exact accCheck_canonical hs

theorem issue_canonical {n ready o parityOk u k} (hs : s.Canonical) : (issue n ready o parityOk u k s).Canonical := by
  unfold issue
  refine ite_canonical hs ?_
  split
  · exact hs
  · exact ite_canonical (seqIllegal_canonical (modCore_canonical (fun _ hc => hc) hs)) (ite_canonical (faultStop_canonical
      (raiseAt_canonical (ite_snd_canonical (takeInj_canonical (modCore_canonical (fun _ hc => hc) hs)) (modCore_canonical (fun _ hc
      => hc) hs)))) (ite_canonical (readRanges_canonical (ite_snd_canonical (takeInj_canonical (modCore_canonical (fun _ hc => hc)
      hs)) (modCore_canonical (fun _ hc => hc) hs))) (vecEffects_canonical (modCore_canonical (fun _ hc => writeLanes_canonical hc)
      (readRanges_canonical (ite_snd_canonical (takeInj_canonical (modCore_canonical (fun _ hc => hc) hs)) (modCore_canonical (fun _
      hc => hc) hs)))))))

/-! ### Vote units, deadline monitors and egress (R305 to R310, R419) -/

theorem egress_canonical {id} (hs : s.Canonical) : (egress id s).Canonical := by
  unfold egress
  split
  · exact hs
  · split
    · exact hs
    · exact ite_canonical hs (endJob_canonical (sendRecord_canonical (modStream_canonical hs)))

theorem missDeadline_canonical {v id copy seq} (hs : s.Canonical) : (missDeadline v id copy seq s).Canonical := by
  unfold missDeadline
  exact dropVote_canonical (decideVote_canonical (markOutvoted_canonical (modVote_canonical (ite_canonical hs (roomFor_canonical
      hs)))))

theorem substitute_canonical {id slot st seq} (hs : s.Canonical) : (substitute id slot st seq s).Canonical := by
  unfold substitute
  exact report_canonical (qmgRecord_canonical (sendInval_canonical hs))

theorem stopWaiting_canonical {slot id seq} (hs : s.Canonical) : (stopWaiting slot id seq s).Canonical := by
  unfold stopWaiting
  exact forEach_canonical (fun _ _ ht => ite_canonical (faultStop_canonical ht) ht) hs

theorem fireMonitor_canonical {id st p d seq} (hs : s.Canonical) : (fireMonitor id st p d seq s).Canonical := by
  unfold fireMonitor
  dsimp only
  split
  · exact hs
  · refine ite_canonical hs ?_
    split
    · exact stopWaiting_canonical (missDeadline_canonical hs)
    · exact stopWaiting_canonical (substitute_canonical hs)

theorem monitorFires_canonical {slot seq} (hs : s.Canonical) : (monitorFires slot seq s).Canonical := by
  unfold monitorFires
  refine forEach_canonical (fun _ _ ht => ?_) hs
  split
  · exact ht
  · split
    · exact ht
    · split
      · exact ht
      · exact fireMonitor_canonical ht

end Sys2Proof.Machine

/-! Every step keeps both memories in canonical form: one line a command, over the lemmas of the operation that it runs. -/

namespace Sys2Proof.Machine

open Sys2Proof

/-! ### Commands and steps -/

theorem exec_canonical {s : State} (i : Instr) (hs : s.Canonical) : KeepsCanonical (exec i s) := by
  cases i with
  | loadImage => exact next_canonical (settle_canonical (gate_canonical (fun _ _ ht => startLoad_canonical ht) hs))
  | declareStream => exact next_canonical (settle_canonical (gate_canonical (fun _ _ ht => startDeclare_canonical ht) hs))
  | armStream => exact next_canonical (settle_canonical (gate_canonical (fun _ _ ht => doArm_canonical ht) hs))
  | rearm => exact next_canonical (settle_canonical (gate_canonical (fun _ _ ht => doRearm_canonical ht) hs))
  | rearmDrained => exact next_canonical (settle_canonical (rearmDone_canonical hs))
  | dispatch => exact next_canonical (settle_canonical (gate_canonical (fun _ _ ht => doDispatch_canonical ht) hs))
  | fence => exact next_canonical (settle_canonical (gate_canonical (fun _ _ ht => doFence_canonical ht) hs))
  | hintPhase => exact next_canonical (settle_canonical (gate_canonical (fun _ _ ht => doHint_canonical ht) hs))
  | phaseHintExpiry => exact next_canonical (hintEnds_canonical hs)
  | cancel =>
    exact next_canonical (settle_canonical (ite_canonical (doCancel_canonical (nextOrder_canonical (dropFetched_canonical hs))) hs))
  | epochQuiet => exact next_canonical (settle_canonical (epochQuietNow_canonical hs))
  | cancelTimeout => exact next_canonical (cancelTimedOut_canonical hs)
  | epochNumberFreed => exact next_canonical (settle_canonical (freeEpoch_canonical hs))
  | queryPlacement => exact next_canonical (settle_canonical (gate_canonical (fun _ _ ht => doQueryPlacement_canonical ht) hs))
  | queryImageSummary => exact next_canonical (settle_canonical (gate_canonical (fun _ _ ht => doQueryImage_canonical ht) hs))
  | queryStreamState => exact next_canonical (settle_canonical (gate_canonical (fun _ _ ht => doQueryStream_canonical ht) hs))
  | queryAccounting => exact next_canonical (settle_canonical (gate_canonical (fun _ _ ht => doQueryAccounting_canonical ht) hs))
  | queryFaultRecords => exact next_canonical (settle_canonical (gate_canonical (fun _ _ ht => doQueryFaults_canonical ht) hs))
  | querySpares => exact next_canonical (settle_canonical (gate_canonical (fun _ _ ht => doQuerySpares_canonical ht) hs))
  | partitionCreate => exact next_canonical (settle_canonical (gate_canonical (fun _ _ ht => doPartCreate_canonical ht) hs))
  | partitionChange => exact next_canonical (settle_canonical (gate_canonical (fun _ _ ht => doPartChange_canonical ht) hs))
  | partitionRemove => exact next_canonical (settle_canonical (gate_canonical (fun _ _ ht => doPartRemove_canonical ht) hs))
  | contextBind => exact next_canonical (settle_canonical (gate_canonical (fun _ _ ht => doBind_canonical ht) hs))
  | unload => exact next_canonical (settle_canonical (gate_canonical (fun _ _ ht => doUnload_canonical ht) hs))
  | coreTest => exact next_canonical (settle_canonical (gate_canonical (fun _ _ ht => doCoreTest_canonical ht) hs))
  | sliceBypass => exact next_canonical (settle_canonical (gate_canonical (fun _ _ ht => doBypass_canonical ht) hs))
  | settingsWrite => exact next_canonical (settle_canonical (gate_canonical (fun _ _ ht => doSettings_canonical ht) hs))
  | cameraRegRead => exact next_canonical (settle_canonical (gate_canonical (fun _ _ ht => doCamera_canonical ht) hs))
  | cameraRegWrite => exact next_canonical (settle_canonical (gate_canonical (fun _ _ ht => doCamera_canonical ht) hs))
  | timeSeconds => exact next_canonical (settle_canonical (gate_canonical (fun _ _ ht => doSeconds_canonical ht) hs))
  | resumeHeldSkip => exact next_canonical (settle_canonical (gate_canonical (fun _ _ ht => doResumeSkip_canonical ht) hs))
  | resumeHeldAbort => exact next_canonical (settle_canonical (gate_canonical (fun _ _ ht => doResumeAbort_canonical ht) hs))
  | acctTrace => exact next_canonical (settle_canonical (gate_canonical (fun _ _ ht => doTrace_canonical ht) hs))
  | fwUpdateStage => exact next_canonical (settle_canonical (gate_canonical (fun _ _ ht => doFwUpdate_canonical ht) hs))
  | fwUpdateNextReset => exact next_canonical (settle_canonical (gate_canonical (fun _ _ ht => doFwUpdate_canonical ht) hs))
  | fwUpdateLive => exact next_canonical (settle_canonical (gate_canonical (fun _ _ ht => doFwUpdate_canonical ht) hs))
  | fwFlashVerified => exact next_canonical (settle_canonical (flashVerified_canonical hs))
  | liveCoreRejoin => exact next_canonical (settle_canonical (rejoined_canonical hs))
  | liveRejoinTimeout => exact next_canonical (settle_canonical (rejoinTimedOut_canonical hs))
  | qmgDoorbell => exact next_canonical (ite_canonical (doorbell_canonical (receiveTlp_canonical hs)) (receiveTlp_canonical hs))
  | qmgCtxQcfgWrite => exact next_canonical (hostWrite_canonical hs)
  | qmgCtxCplHeadWrite => exact next_canonical (hostWrite_canonical hs)
  | enterSafeState => exact next_canonical (mbox_canonical (receiveTlp_canonical hs))
  | readLog => exact next_canonical (mbox_canonical (receiveTlp_canonical hs))
  | pinTest => exact next_canonical (mbox_canonical (receiveTlp_canonical hs))
  | pinTestEnd => exact next_canonical (endPinTest_canonical hs)
  | clearCounts => exact next_canonical (mbox_canonical (receiveTlp_canonical hs))
  | lockKeyWrite => exact next_canonical (hostWrite_canonical hs)
  | lockTimeout =>
    refine next_canonical ?_
    split
    · exact hs
    · exact closeLock_canonical hs
  | errStatClear => exact next_canonical (hostWrite_canonical hs)
  | registerWrite => exact next_canonical (hostWrite_canonical hs)
  | talTimeLoRead => exact next_canonical (readTimeLo_canonical (receiveTlp_canonical hs))
  | talOdoPosLoRead => exact next_canonical (readPosLo_canonical (receiveTlp_canonical hs))
  | ctlAcctWaitLoRead => exact next_canonical (readWaitLo_canonical (receiveTlp_canonical hs))
  | coreCntClr => exact next_canonical (hostWrite_canonical hs)
  | ingCntClr => exact next_canonical (hostWrite_canonical hs)
  | monClear => exact next_canonical (hostWrite_canonical hs)
  | monCfgWrite => exact next_canonical (hostWrite_canonical hs)
  | monSample => exact next_canonical (monSample_canonical hs)
  | pwrCapWrite => exact next_canonical (hostWrite_canonical hs)
  | glbRstReq => exact next_canonical (resetRequest_canonical (receiveTlp_canonical hs))
  | bootLoadStart => exact next_canonical (loadStart_canonical (receiveTlp_canonical hs))
  | bootLoadDone => exact next_canonical (loadDone_canonical hs)
  | coreSampleCopy =>
    exact next_canonical (ite_canonical (copySample_canonical (receiveTlp_canonical hs)) (lockWrite_canonical (receiveTlp_canonical
      hs)))
  | coreSampleCopyDone => exact next_canonical (copyDone_canonical hs)
  | coreSampleRelease =>
    exact next_canonical (ite_canonical (releaseSample_canonical (receiveTlp_canonical hs)) (lockWrite_canonical
      (receiveTlp_canonical hs)))
  | dbgNoticeHeadWrite => exact next_canonical (hostWrite_canonical hs)
  | injAbftMismatch => exact next_canonical (inject_canonical hs)
  | injAccCheck => exact next_canonical (inject_canonical hs)
  | injStrandFault => exact next_canonical (inject_canonical hs)
  | injSpEccCorr => exact next_canonical (inject_canonical hs)
  | injSpEccUncorr => exact next_canonical (inject_canonical hs)
  | injShcTagCorr => exact next_canonical (inject_canonical hs)
  | injShcDataCorr => exact next_canonical (inject_canonical hs)
  | injShcDataUncorr => exact next_canonical (inject_canonical hs)
  | injDmcEccCorr => exact next_canonical (inject_canonical hs)
  | injDmcEccUncorr => exact next_canonical (inject_canonical hs)
  | injDmcLinkCorr => exact next_canonical (inject_canonical hs)
  | injDmcLinkUncorr => exact next_canonical (inject_canonical hs)
  | injDescCorr => exact next_canonical (inject_canonical hs)
  | injDescUncorr => exact next_canonical (inject_canonical hs)
  | injIngCrc => exact next_canonical (inject_canonical hs)
  | injHdrCorr => exact next_canonical (inject_canonical hs)
  | injHdrUncorr => exact next_canonical (inject_canonical hs)
  | injOdoIllegal => exact next_canonical (inject_canonical hs)
  | injJlsCorrupt => exact next_canonical (inject_canonical hs)
  | injCmdRejected => exact next_canonical (inject_canonical hs)
  | injRegFail => exact next_canonical (inject_canonical hs)
  | injSensorFail => exact next_canonical (inject_canonical hs)
  | injPceCorr => exact next_canonical (inject_canonical hs)
  | injTlkLaneSpared => exact next_canonical (inject_canonical hs)
  | injTlkReplay => exact next_canonical (inject_canonical hs)
  | hostDramAccess => exact next_canonical (hostDram_canonical hs)
  | functionLevelReset => exact next_canonical (settle_canonical (functionReset_canonical hs))
  | pciePerst => exact next_canonical (settle_canonical (perst_canonical hs))
  | pcieLinkUp => exact next_canonical (linkUp_canonical hs)
  | pcieLinkDown => exact next_canonical (linkDown_canonical hs)
  | powerOnReset => exact next_canonical powerOn_canonical
  | bootSafeTestDone => exact next_canonical (safeTested_canonical hs)
  | bootImageVerified => exact next_canonical (imageVerified_canonical hs)
  | bootTrainDone => exact next_canonical (trainDone_canonical hs)
  | bootCoreTestDone => exact next_canonical (coresTested_canonical hs)
  | bootReady => exact next_canonical (bootDone_canonical hs)
  | waitCoolantEnd => exact next_canonical (coolantBack_canonical hs)
  | vrdyBootTimeout => exact next_canonical (vrdyTimeout_canonical hs)
  | warmReset => exact next_canonical (requestWarm_canonical hs)
  | quiesceDone => exact next_canonical (quiesced_canonical hs)
  | quiesceCutOff => exact next_canonical (cutOff_canonical hs)
  | warmResetReady =>
    exact next_canonical (settle_canonical (ite_canonical (enterSafe_canonical (warmDone_canonical hs)) (warmDone_canonical hs)))
  | autoRestart => exact next_canonical (autoWarm_canonical hs)
  | quadrantReset => exact next_canonical (settle_canonical (quadReset_canonical hs))
  | quadrantResetDone => exact next_canonical (quadResetDone_canonical hs)
  | portReset => exact next_canonical (resetPort_canonical hs)
  | csi2FrameStart =>
    exact next_canonical (settle_canonical (ite_canonical (frameStart_canonical (checkHeader_canonical hs)) (checkHeader_canonical
      hs)))
  | csi2LongPacket =>
    exact next_canonical (ite_canonical (longPacket_canonical (checkHeader_canonical hs)) (checkHeader_canonical hs))
  | csi2FrameEnd =>
    exact next_canonical (settle_canonical (ite_canonical (frameEnd_canonical (checkHeader_canonical hs)) (checkHeader_canonical
      hs)))
  | cxpStreamPacket => exact next_canonical (settle_canonical (cxpPacket_canonical hs))
  | lineTimeout => exact next_canonical (settle_canonical (timeoutLines_canonical hs))
  | lidarPacket => exact next_canonical (settle_canonical (udpPacket_canonical hs))
  | ptpMessage => exact next_canonical (ptpMessage_canonical hs)
  | ppsEdge => exact next_canonical (ppsEdge_canonical hs)
  | holdoverEntry => exact next_canonical (enterHoldover_canonical hs)
  | holdoverExpiry => exact next_canonical (leaveHoldover_canonical hs)
  | odoFilteredSample => exact next_canonical (odoSample_canonical hs)
  | alignWaitTimeout => exact next_canonical (settle_canonical (releaseDue_canonical hs))
  | jlsDecode => exact next_canonical (settle_canonical (decodeImage_canonical hs))
  | jlsDecodeDone => exact next_canonical (settle_canonical (endDecode_canonical hs))
  | tokenise => exact next_canonical (settle_canonical (tokeniseInput_canonical hs))
  | unitStart => exact next_canonical (startUnit_canonical hs)
  | unitComplete => exact next_canonical (settle_canonical (completeUnit_canonical hs))
  | weightSetLoad => exact next_canonical (loadWeights_canonical hs)
  | arrayRowVerdict => exact next_canonical (streamRow_canonical hs)
  | vectorIssue => exact next_canonical (issue_canonical hs)
  | scratchpadAccess => exact next_canonical (spAccess_canonical hs)
  | faultedItem => exact next_canonical (settle_canonical (faultedItem_canonical hs))
  | coreRecovery => exact next_canonical (recoverCore_canonical hs)
  | unitOverrun => exact next_canonical (overrunUnit_canonical hs)
  | hangStop => exact next_canonical (settle_canonical (hangStop_canonical hs))
  | drainRequest => exact next_canonical (drain_canonical hs)
  | remoteWrite => exact next_canonical (pieceWritten_canonical (remoteWrite_canonical hs))
  | windowWaitEnd => exact next_canonical (windowReached_canonical hs)
  | transferComplete => exact next_canonical (settle_canonical (transferReturns_canonical hs))
  | allocate => exact next_canonical (settle_canonical (ite_canonical hs (withTable_canonical hs (allocate_canonical hs))))
  | queuePush => exact next_canonical (settle_canonical (ite_canonical hs (withTable_canonical hs (pushNow_canonical hs))))
  | queuePop => exact next_canonical (settle_canonical (ite_canonical hs (withTable_canonical hs (pop_canonical hs))))
  | bufferReturn => exact next_canonical (settle_canonical (ite_canonical hs (coreReturn_canonical hs)))
  | queueWaitEnd => exact next_canonical (settle_canonical (queueWaitEnds_canonical hs))
  | queueRecovery => exact next_canonical (settle_canonical (recoverQueue_canonical hs))
  | orphanReconcile => exact next_canonical (settle_canonical (reconcile_canonical hs))
  | batchStart => exact next_canonical (batch_canonical hs)
  | budgetReplenish => exact next_canonical (replenish_canonical hs)
  | voteSignature => exact next_canonical (settle_canonical (presentSig_canonical hs))
  | voteUnitTest => exact next_canonical (testVote_canonical hs)
  | recordInvalidation => exact next_canonical (landInval_canonical hs)
  | recordEgress => exact next_canonical (settle_canonical (egress_canonical hs))
  | stageDeadline => exact next_canonical (settle_canonical (monitorFires_canonical hs))
  | faultReport => exact next_canonical (settle_canonical (faultReport_canonical hs))
  | coreSampleDone => exact next_canonical (sampleDone_canonical hs)
  | faultHoldExpiry => exact next_canonical (releaseFault_canonical hs)
  | heartbeatToggle => exact next_canonical (toggle_canonical hs)
  | hbKick => exact next_canonical (kick_canonical hs)
  | lockstepMismatch => exact next_canonical (lockstepLost_canonical hs)
  | clockMonitorWindow => exact next_canonical (settle_canonical (clockWindow_canonical hs))
  | supplyExcursion => exact next_canonical (settle_canonical (supplyFault_canonical hs))
  | saferefLoss => exact next_canonical (loseSaferef_canonical hs)
  | ctrlCoreKickTimeout => exact next_canonical (ctrlLost_canonical hs)
  | statusFrame => exact next_canonical (ite_canonical (sendFrame_canonical hs) hs)
  | selfTestSliceStart => exact next_canonical (sliceStart_canonical hs)
  | selfTestSliceDone => exact next_canonical (settle_canonical (sliceDone_canonical hs))
  | testDeferralLimit => exact next_canonical (deferralLimit_canonical hs)
  | latent => exact next_canonical (latentCore_canonical hs)
  | replacementStart => exact next_canonical (startReplacement_canonical hs)
  | replacementCommit => exact next_canonical (settle_canonical (commitReplacement_canonical hs))
  | replacementDone => exact next_canonical (settle_canonical (replacementDone_canonical hs))
  | rowRepair => exact next_canonical (settle_canonical (repairRow_canonical hs))
  | scratchpadScrub => exact next_canonical (scrubWord_canonical hs)
  | shcAccess => exact next_canonical (sliceAccess_canonical hs)
  | dmcAccess => exact next_canonical (dmcServe_canonical hs)
  | patrolScrub => exact next_canonical (patrol_canonical hs)
  | meshLaneSteer => exact next_canonical (steerLane_canonical hs)
  | meshLaneSteerDone => exact next_canonical (steerDone_canonical hs)
  | meshPlaneOut => exact next_canonical (planeOut_canonical hs)
  | meshPlaneRehash => exact next_canonical (planeRehash_canonical hs)
  | powerEstimate => exact next_canonical (guardCheck_canonical (storeEstimate_canonical hs))
  | allocatorDecision => exact next_canonical (allocatorDecide_canonical hs)
  | pstepSwitch => exact next_canonical (settle_canonical (switchStep_canonical hs))
  | regFail => exact next_canonical (regulatorFail_canonical hs)
  | pwrLimit => exact next_canonical (powerLimit_canonical hs)
  | pwrLimitRelease => exact next_canonical (powerRelease_canonical hs)
  | sensorSample => exact next_canonical (sampleSensor_canonical hs)
  | tjOverGradeClear => exact next_canonical (gradeClear_canonical hs)
  | thermtrip => exact next_canonical (thermTrip_canonical hs)
  | coolant => exact next_canonical (coolantLost_canonical hs)
  | coolantClockStop => exact next_canonical (clocksStop_canonical hs)
  | vrdyFall => exact next_canonical (settle_canonical (vrdyLow_canonical hs))
  | ternlinkTraining => exact next_canonical (tlkTrain_canonical hs)
  | ternlinkFlit => exact next_canonical (tlkFlit_canonical hs)
  | ternlinkLaneFail => exact next_canonical (tlkLaneFail_canonical hs)
  | ternlinkFwMessage => exact next_canonical (tlkMessage_canonical hs)
  | ingLinkDown => exact next_canonical (portDown_canonical hs)
  | ingLinkUp => exact next_canonical (portUp_canonical hs)
  | sgmiiLinkChange => exact next_canonical (modSafe_canonical hs)
  | meshTokenRefill => exact next_canonical (refillTokens_canonical hs)
  | dramShareWindow => exact next_canonical (shareWindow_canonical hs)
  | ctrlCoreKick => exact next_canonical (ctrlKick_canonical hs)
  | vrdyRise => exact next_canonical (vrdyHigh_canonical hs)
  | ternlinkLaneSteerDone => exact next_canonical (tlkSteered_canonical hs)
  | bootFuseReadDone => exact next_canonical (fusesRead_canonical hs)

theorem step_canonical {s : State} (hs : s.Canonical) : KeepsCanonical (step s) := by
  unfold step
  split
  · exact exec_canonical _ (same_canonical hs rfl rfl)
  · exact next_canonical (tick_canonical hs)

/-! ### The obligations -/

/-- Settles O6: the canonical form passes through every operation that a command is made of, and through a cycle without one. -/
theorem memoryKeepsItsCanonicalForm : Obligations.MemoryKeepsItsCanonicalForm := by
  unfold Obligations.MemoryKeepsItsCanonicalForm
  exact fun _ t hs hstep => step_canonical hs t hstep

/-- Settles O7: at reset neither memory lists a cell. -/
theorem memoryCanonicalAtReset : Obligations.MemoryCanonicalAtReset := by
  unfold Obligations.MemoryCanonicalAtReset
  decide

end Sys2Proof.Machine

/-! The planes of the mesh, the shares of partitions and the Ternlink ports (R154, R325, R326, R388, R389, R421 to R423): what
each of their commands does, and what it leaves alone. -/

namespace Sys2Proof.Machine

open Sys2Proof

/-! ### Planes of the mesh -/

@[simp] theorem setPlane_plane_self (p : Nat) (x : PlaneState) (s : State) : (setPlane p x s).plane p = x :=
  Tab.get_insert_self _ _ _ _

theorem setPlane_plane_ne {p k : Nat} (x : PlaneState) (s : State) (h : k ≠ p) : (setPlane p x s).plane k = s.plane k :=
  Tab.get_insert_ne _ _ _ h

theorem plane_of_mesh {s t : State} (h : t.mesh = s.mesh) (k : Nat) : t.plane k = s.plane k := by
  unfold State.plane
  rw [h]

theorem planesOut_of_mesh {s t : State} (h : t.mesh = s.mesh) : t.planesOut = s.planesOut := by
  simp only [State.planesOut, plane_of_mesh h]

/-- A lane of a plane that is up and has a spare left is steered (R154). -/
theorem steerLane_steers {s : State} {p link : Nat} (hup : s.plane p = .up) (hspare : Tab.get s.mesh.spares 0 (laneKey p link) < 4) :
    (steerLane p link s).plane p = .steering ∧ (∀ k, k ≠ p → (steerLane p link s).plane k = s.plane k) ∧
      Tab.get (steerLane p link s).mesh.spares 0 (laneKey p link) = Tab.get s.mesh.spares 0 (laneKey p link) + 1 ∧
      (steerLane p link s).mesh.lanesSpared = min 65535 (s.mesh.lanesSpared + 1) ∧
      steerLane p link s = { s with mesh := (steerLane p link s).mesh } := by
  unfold steerLane
  dsimp only
  rw [if_pos ⟨hup, hspare⟩]
  exact ⟨setPlane_plane_self _ _ _, fun k hk => setPlane_plane_ne _ _ hk, Tab.get_insert_self _ _ _ _, rfl, rfl⟩

theorem steerLane_refused {s : State} {p link : Nat} (h : s.plane p ≠ .up ∨ 4 ≤ Tab.get s.mesh.spares 0 (laneKey p link)) :
    steerLane p link s = s :=
  if_neg fun ⟨hup, hspare⟩ => h.elim (absurd hup) (Nat.not_le.mpr hspare)

/-- The fault event of a plane that is taken out (R322, R388). -/
def planeFault (s : State) : FaultEv :=
  { unit := 0xC4, cause := Config.freeNat s.free % 256, cls := 2, bit := Bit.dbgPlane, permanent := true }

/-- The state in which the loss of a plane is reported. -/
def planeReported (s : State) : State := report (planeFault s) { s with free := s.free + 1 }

theorem planeOut_kept {s : State} {p : Nat} {why : PlaneLoss}
    (h : s.plane p = .draining ∨ s.plane p = .out ∨ (why = .fifthLane ∧ s.lanesSpent p = false)) : planeOut p why s = s :=
  if_pos h

/-- A plane that may be taken out drains, or is the third and ends the service of the device (R388, R389). -/
theorem planeOut_taken {s : State} {p : Nat} {why : PlaneLoss} (hp : s.plane p ∉ [.draining, .out])
    (hwhy : why = .fifthLane → s.lanesSpent p = true) :
    planeOut p why s = if 2 ≤ s.planesOut then fatalError Fatal.meshPlanes (planeReported s)
      else setPlane p .draining (raise .dbg Bit.dbgPlane (planeReported s)) := by
  have hnot : ¬ (s.plane p = .draining ∨ s.plane p = .out ∨ (why = .fifthLane ∧ s.lanesSpent p = false)) := by
    rintro (h | h | ⟨h, hspent⟩)
    · exact hp (by simp [h])
    · exact hp (by simp [h])
    · exact absurd (hwhy h) (by simp [hspent])
  unfold planeOut
  rw [if_neg hnot]
  dsimp only
  rw [planesOut_of_mesh (s := s) rfl]
  rfl

theorem planeOut_drains {s : State} (p : Nat) :
    let t := setPlane p .draining (raise .dbg Bit.dbgPlane (planeReported s))
    t.plane p = .draining ∧ (∀ k, k ≠ p → t.plane k = s.plane k) ∧ (t.hdr .dbg).errStat.getLsbD Bit.dbgPlane = true ∧
      (∃ ev, t.safe.inbox = s.safe.inbox ++ [ev] ∧ ev.unit = 0xC4 ∧ ev.permanent = true) ∧ SameMemory s t := by
  intro t
  have hmesh : (raise .dbg Bit.dbgPlane (planeReported s)).mesh = s.mesh := by simp [planeReported]
  have hsafe : t.safe = (planeReported s).safe := by simp [t, setPlane]
  refine ⟨setPlane_plane_self _ _ _, fun k hk => (setPlane_plane_ne _ _ hk).trans (plane_of_mesh hmesh k),
    raise_sets _ _ (planeReported s) (by decide), ?_,
    sameMemory_of_eq (by simp [t, setPlane, planeReported]) (by simp [t, setPlane, planeReported])⟩
  rw [hsafe]
  exact ⟨_, rfl, rfl, rfl⟩

/-! ### Shares of partitions -/

theorem part?_refillTokens {s : State} {p : Nat} {x : Partition} (h : s.part? p = some x) :
    (refillTokens s).part? p = some { x with tokens := (List.range 8).map (fun k => (k, x.meshShare)) } := by
  have hfind := Tab.find_map (fun y : Partition => { y with tokens := (List.range 8).map (fun k => (k, y.meshShare)) }) p s.parts
  rw [show Tab.find s.parts p = some x from h] at hfind
  exact hfind

theorem part?_shareWindow {s : State} {p : Nat} {x : Partition} (h : s.part? p = some x) (c : Nat) :
    (shareWindow c s).part? p = some { x with dramUsed := Tab.erase x.dramUsed c } := by
  have hfind := Tab.find_map (fun y : Partition => { y with dramUsed := Tab.erase y.dramUsed c }) p s.parts
  rw [show Tab.find s.parts p = some x from h] at hfind
  exact hfind

/-! ### Ternlink ports -/

theorem tlk_of_tlks {s t : State} (h : t.tlks = s.tlks) (k : Nat) : t.tlk k = s.tlk k := by
  unfold State.tlk
  rw [h]

/-- A notice leaves the errors of a page set. -/
theorem postNotice_keeps_errStat (kind word : Nat) (fault : Option FaultRec) {s : State} {b : Block} {n : Nat}
    (h : (s.hdr b).errStat.getLsbD n = true) : ((postNotice kind word fault s).hdr b).errStat.getLsbD n = true := by
  unfold postNotice
  split
  · exact h
  · split
    · unfold writeNotice
      dsimp only
      rw [raiseInt_hdr]
      split
      · rename_i hpage
        have hdbg : s.hdr .dbg = s.hdr b := by unfold State.hdr; rw [hpage]
        exact (congrArg (fun x : Header => x.errStat.getLsbD n) hdbg).trans h
      · exact h
    · exact raise_keeps_errStat _ _ (s.modDbg _) h

/-- Only Ternlink port `p` changes among the ports, and it becomes what `f` makes of it; both memories and the shared cache stay. -/
def TlkMoves (p : Nat) (f : Tlk → Tlk) (s t : State) : Prop :=
  t.tlk p = f (s.tlk p) ∧ (∀ k, k ≠ p → t.tlk k = s.tlk k) ∧ SameMemory s t ∧ t.slices = s.slices

section TlkMoves

variable {p : Nat} {f g : Tlk → Tlk} {s t u : State}

theorem TlkMoves.mod (p : Nat) (f : Tlk → Tlk) (s : State) : TlkMoves p f s (s.modTlk p f) :=
  ⟨State.tlk_modTlk_self _ _ _, fun _ hk => State.tlk_modTlk_ne _ _ hk, sameMemory_of_eq rfl rfl, rfl⟩

theorem TlkMoves.trans (h : TlkMoves p f s t) (k : TlkMoves p g t u) : TlkMoves p (g ∘ f) s u := by
  obtain ⟨hport, hother, ⟨hdram, hsp⟩, hslices⟩ := h
  obtain ⟨kport, kother, ⟨kdram, ksp⟩, kslices⟩ := k
  exact ⟨kport.trans (congrArg g hport), fun n hn => (kother n hn).trans (hother n hn),
    ⟨fun a => (kdram a).trans (hdram a), fun n w => (ksp n w).trans (hsp n w)⟩, kslices.trans hslices⟩

/-- What touches no port, no memory and no line of the cache moves no port. -/
theorem tlkMoves_of_eq (p : Nat) (htlks : t.tlks = s.tlks) (hdram : t.dram = s.dram) (hcores : t.cores = s.cores)
    (hslices : t.slices = s.slices) : TlkMoves p id s t :=
  ⟨tlk_of_tlks htlks p, fun k _ => tlk_of_tlks htlks k, sameMemory_of_eq hdram hcores, hslices⟩

theorem TlkMoves.raise (h : TlkMoves p f s t) (b : Block) (n : Nat) : TlkMoves p f s (raise b n t) :=
  h.trans (tlkMoves_of_eq p (by simp) (by simp) (by simp) (by simp))

theorem TlkMoves.postNotice (h : TlkMoves p f s t) (kind word : Nat) (fault : Option FaultRec) :
    TlkMoves p f s (postNotice kind word fault t) :=
  h.trans (tlkMoves_of_eq p (by simp) (by simp) (by simp) (by simp))

end TlkMoves

/-- A port without a version in common with its peer stays down (R422). -/
theorem tlkTrain_noVersion {lo hi : Nat} (h : commonVersion lo hi = none) (p dev rel : Nat) (s : State) :
    TlkMoves p (fun t => { t with up := false, lanes := 0 }) s (tlkTrain p lo hi dev rel s) ∧
      ((tlkTrain p lo hi dev rel s).hdr (.tlk p)).errStat.getLsbD Bit.tlkNoVersion = true := by
  unfold tlkTrain
  rw [h]
  exact ⟨(TlkMoves.mod p _ s).raise _ _, raise_sets _ _ _ (by decide)⟩

/-- A port as it is once it has trained at version `v` (R422). -/
def trainedTlk (v dev rel : Nat) (t : Tlk) : Tlk :=
  { t with up := true, version := v, peer := dev % 256, lanes := 8, spareUsed := false, failed := [],
           steering := false, peerFw := rel % 2 ^ 24 }

theorem tlkTrain_trains {lo hi v : Nat} (h : commonVersion lo hi = some v) (p dev rel : Nat) (s : State) :
    TlkMoves p (trainedTlk v dev rel) s (tlkTrain p lo hi dev rel s) := by
  unfold tlkTrain
  rw [h]
  dsimp only
  split
  · exact TlkMoves.mod p (trainedTlk v dev rel) s
  · exact (TlkMoves.mod p (trainedTlk v dev rel) s).postNotice _ _ _

theorem tlkMessage_ignored {s : State} {p rel : Nat} (h : (s.tlk p).up = false ∨ rel % 2 ^ 24 = (s.tlk p).peerFw) :
    tlkMessage p rel s = s := by
  refine if_pos ?_
  rw [Bool.or_eq_true, Bool.not_eq_true', beq_iff_eq]
  exact h

theorem tlkMessage_announces {s : State} {p rel : Nat} (hup : (s.tlk p).up = true) (hrel : rel % 2 ^ 24 ≠ (s.tlk p).peerFw) :
    TlkMoves p (fun t => { t with peerFw := rel % 2 ^ 24 }) s (tlkMessage p rel s) := by
  unfold tlkMessage
  rw [if_neg (by rw [hup, Bool.not_true, Bool.false_or, beq_iff_eq]; exact hrel)]
  exact (TlkMoves.mod p _ s).postNotice _ _ _

theorem tlkSteered_ignored {s : State} {p : Nat} (h : (s.tlk p).steering = false) : tlkSteered p s = s :=
  if_neg (by simp [h])

/-- The steering of a lane ends with every flit in flight replayed (R423). -/
theorem tlkSteered_ends {s : State} {p : Nat} (h : (s.tlk p).steering = true) :
    TlkMoves p (fun t => { t with steering := false, replays := sat32 (t.replays + Config.freeNat s.free) }) s
      (tlkSteered p s) := by
  have hmoves : TlkMoves p (fun t => { t with steering := false, replays := sat32 (t.replays + Config.freeNat s.free) }) s
      (({ s with free := s.free + 1 } : State).modTlk p
        (fun t => { t with steering := false, replays := sat32 (t.replays + Config.freeNat s.free) })) :=
    (tlkMoves_of_eq p rfl rfl rfl rfl).trans (TlkMoves.mod p _ { s with free := s.free + 1 })
  unfold tlkSteered
  rw [if_pos h]
  dsimp only
  split
  · exact hmoves
  · exact hmoves.raise _ _

/-! ### Flits (R421) -/

theorem tlkFlit_ignored {s : State} {p : Nat}
    (h : (s.tlk p).up = false ∨ (s.tlk p).steering = true ∨ s.pwr.retention = true) (crc : Bool) (part ap off : Nat) (d : List Byte) :
    tlkFlit p crc part ap off d s = s :=
  if_pos (by rcases h with h | h | h <;> simp [h])

section Flit

variable {s : State} {p : Nat} (hinj : (s.hdr (.tlk p)).inj = 0) (hup : (s.tlk p).up = true)
  (hsteering : (s.tlk p).steering = false) (hret : s.pwr.retention = false)
include hinj hup hsteering hret

/-- A flit that the port takes: its check, its aperture, its bytes. -/
theorem tlkFlit_taken (crc : Bool) (part ap off : Nat) (d : List Byte) :
    tlkFlit p crc part ap off d s =
      if crc = false then raise (.tlk p) Bit.tlkReplay (s.modTlk p (fun t => { t with replays := sat32 (t.replays + 1) }))
      else if apertureOk (s.tlk p) ap part off d.length then writeLines (d.length + 1) off d part s
      else raise (.tlk p) Bit.tlkPartNack (s.emit (.ternNack p)) := by
  unfold tlkFlit
  rw [if_neg (by simp [hup, hsteering, hret]), takeInj_unarmed hinj]
  cases crc <;> simp

/-- A flit that fails its CRC is counted for replay (R421). -/
theorem tlkFlit_replayed (part ap off : Nat) (d : List Byte) :
    TlkMoves p (fun t => { t with replays := sat32 (t.replays + 1) }) s (tlkFlit p false part ap off d s) ∧
      ((tlkFlit p false part ap off d s).hdr (.tlk p)).errStat.getLsbD Bit.tlkReplay = true := by
  rw [tlkFlit_taken hinj hup hsteering hret, if_pos rfl]
  exact ⟨(TlkMoves.mod p _ s).raise _ _, raise_sets _ _ _ (by decide)⟩

/-- A transfer outside an aperture of its partition is refused (R421). -/
theorem tlkFlit_refused {part ap off : Nat} {d : List Byte} (h : apertureOk (s.tlk p) ap part off d.length = false) :
    Sends s (tlkFlit p true part ap off d s) (.ternNack p) ∧
      ((tlkFlit p true part ap off d s).hdr (.tlk p)).errStat.getLsbD Bit.tlkPartNack = true ∧
      SameMemory s (tlkFlit p true part ap off d s) ∧ (tlkFlit p true part ap off d s).slices = s.slices := by
  rw [tlkFlit_taken hinj hup hsteering hret, if_neg (by decide), if_neg (by simp [h])]
  exact ⟨(Sends.emit s _).after (raise_grows _ _ _), raise_sets _ _ _ (by decide),
    sameMemory_of_eq (by simp) (by simp), by simp⟩

end Flit

theorem writeLines_nil (fuel off part : Nat) (s : State) : writeLines fuel off [] part s = s := by
  cases fuel <;> rfl

/-- A full line is written in one access of its home slice. -/
theorem writeLines_line {off : Nat} {d : List Byte} (hd : d.length = 64) (hoff : off % 64 = 0) (fuel part : Nat) (s : State) :
    writeLines (fuel + 1) off d part s = (lineAccess off 0xFFFF part (.writeLine d) .clean .clean false 0 .clean s).2 := by
  have hne : d.isEmpty = false := by cases d <;> simp_all
  have hsplit : splitLine off d = (d, []) := by
    unfold splitLine
    rw [hoff, List.take_of_length_le (by omega), List.drop_of_length_le (by omega)]
  unfold writeLines
  rw [if_neg (by simp [hne]), hsplit]
  dsimp only
  rw [if_pos hd]
  exact writeLines_nil _ _ _ _

theorem lineBase_of_aligned {off : Nat} (h : off % 64 = 0) : lineBase off = off := by
  unfold lineBase
  omega

/-- A full line that its home slice does not keep lands in DRAM, and nowhere else (R421). -/
theorem writeLines_lands {s : State} {off part : Nat} {d : List Byte} (hs : Served s off)
    (hway : (s.slice (s.home off).1).wayOf (off / 64) = none)
    (hpass : (s.home off).2 = false ∨ wayMaskOf part s % 65536 = 0) (hd : d.length = 64) (hoff : off % 64 = 0) (fuel : Nat) :
    let t := writeLines (fuel + 1) off d part s
    t.readDram off 64 = d ∧ (∀ a, (a < off ∨ off + 64 ≤ a) → t.dramByte a = s.dramByte a) ∧ SameScratchpads s t := by
  intro t
  have ht : t = dramLine off d false (missState (s.home off).1 s) := by
    dsimp only [t]
    rw [writeLines_line hd hoff, lineAccess_missWrite hs hway hpass, List.take_of_length_le (by omega : d.length ≤ 64)]
  have hbase := lineBase_of_aligned hoff
  refine ⟨?_, fun a ha => ?_, ?_⟩
  · have hread := dramLine_readDram off hd false (missState (s.home off).1 s)
    rwa [hbase, ← ht] at hread
  · rw [ht]
    exact dramLine_dramByte off d false (missState (s.home off).1 s) (by rwa [hbase])
  · rw [ht]
    exact sameScratchpads_of_cores rfl

/-! ### Lanes of a port (R423) -/

theorem tlkLaneFail_ignored {s : State} {p lane : Nat} (hinj : (s.hdr (.tlk p)).inj = 0)
    (h : (s.tlk p).up = false ∨ lane ∈ (s.tlk p).failed) : tlkLaneFail p lane s = s := by
  unfold tlkLaneFail
  rw [takeInj_unarmed hinj]
  exact if_pos (by rcases h with h | h <;> simp [h])

/-- A port that has lost one more lane. -/
def loseLane (lane : Nat) (t : Tlk) : Tlk := { t with failed := t.failed ++ [lane] }

section LaneFail

variable {s : State} {p lane : Nat} (hinj : (s.hdr (.tlk p)).inj = 0) (hup : (s.tlk p).up = true)
  (hlane : lane ∉ (s.tlk p).failed)
include hinj hup hlane

/-- A lane that newly fails: the first, the second and every later one. -/
theorem tlkLaneFail_taken :
    tlkLaneFail p lane s =
      if (s.tlk p).failed.isEmpty then
        if lane = 8 then s.modTlk p (loseLane lane)
        else raise (.tlk p) Bit.tlkSpared
          ((s.modTlk p (loseLane lane)).modTlk p (fun t => { t with spareUsed := true, steering := true }))
      else if (s.tlk p).failed.length = 1 then
        postNotice 0x02 0 none
          (raise (.tlk p) Bit.tlkWidth ((s.modTlk p (loseLane lane)).modTlk p (fun t => { t with lanes := 4 })))
      else (s.modTlk p (loseLane lane)).modTlk p (fun t => { t with up := false, lanes := 0, steering := false }) := by
  unfold tlkLaneFail
  rw [takeInj_unarmed hinj]
  dsimp only
  rw [if_neg Bool.false_ne_true, if_neg (by simp [hup, hlane])]
  rfl

/-- The first lane to fail is steered onto the spare; the spare itself leaves none. -/
theorem tlkLaneFail_first (h : (s.tlk p).failed = []) :
    (lane = 8 → TlkMoves p (loseLane lane) s (tlkLaneFail p lane s)) ∧
      (lane ≠ 8 → TlkMoves p (fun t => { loseLane lane t with spareUsed := true, steering := true }) s (tlkLaneFail p lane s) ∧
        ((tlkLaneFail p lane s).hdr (.tlk p)).errStat.getLsbD Bit.tlkSpared = true) := by
  rw [tlkLaneFail_taken hinj hup hlane, if_pos (by simp [h])]
  refine ⟨fun h8 => ?_, fun h8 => ?_⟩
  · rw [if_pos h8]
    exact TlkMoves.mod p _ s
  · rw [if_neg h8]
    exact ⟨((TlkMoves.mod p _ s).trans (TlkMoves.mod p _ _)).raise _ _, raise_sets _ _ _ (by decide)⟩

/-- The second lane to fail narrows the port. -/
theorem tlkLaneFail_second (h : (s.tlk p).failed.length = 1) :
    TlkMoves p (fun t => { loseLane lane t with lanes := 4 }) s (tlkLaneFail p lane s) ∧
      ((tlkLaneFail p lane s).hdr (.tlk p)).errStat.getLsbD Bit.tlkWidth = true := by
  rw [tlkLaneFail_taken hinj hup hlane, if_neg (by intro hnil; simp_all), if_pos h]
  exact ⟨(((TlkMoves.mod p _ s).trans (TlkMoves.mod p _ _)).raise _ _).postNotice _ _ _,
    postNotice_keeps_errStat _ _ _ (raise_sets _ _ _ (by decide))⟩

/-- A third lane that fails takes the port down. -/
theorem tlkLaneFail_later (h : 2 ≤ (s.tlk p).failed.length) :
    TlkMoves p (fun t => { loseLane lane t with up := false, lanes := 0, steering := false }) s (tlkLaneFail p lane s) := by
  rw [tlkLaneFail_taken hinj hup hlane, if_neg (by intro hnil; simp_all), if_neg (by omega)]
  exact (TlkMoves.mod p _ s).trans (TlkMoves.mod p _ _)

/-- Whichever lane fails, it is noted, and nothing but the port changes. -/
theorem tlkLaneFail_notes : ∃ f, TlkMoves p f s (tlkLaneFail p lane s) ∧ (f (s.tlk p)).failed = (s.tlk p).failed ++ [lane] := by
  have hlength : (s.tlk p).failed = [] ∨ (s.tlk p).failed.length = 1 ∨ 2 ≤ (s.tlk p).failed.length := by
    rw [← List.length_eq_zero_iff]
    omega
  rcases hlength with h | h | h
  · obtain ⟨hspare, hother⟩ := tlkLaneFail_first hinj hup hlane h
    by_cases h8 : lane = 8
    · exact ⟨_, hspare h8, rfl⟩
    · exact ⟨_, (hother h8).1, rfl⟩
  · exact ⟨_, (tlkLaneFail_second hinj hup hlane h).1, rfl⟩
  · exact ⟨_, tlkLaneFail_later hinj hup hlane h, rfl⟩

end LaneFail

/-! ### The commands -/

theorem meshPlaneCommands_complete (s : State) (p : PlaneNum) (link : Nat) :
    (s.plane p.val = .up → Tab.get s.mesh.spares 0 (laneKey p.val link) < 4 → Completes (.meshLaneSteer p link) s (fun t =>
      t.plane p.val = .steering ∧ (∀ k, k ≠ p.val → t.plane k = s.plane k) ∧
      Tab.get t.mesh.spares 0 (laneKey p.val link) = Tab.get s.mesh.spares 0 (laneKey p.val link) + 1 ∧
      t.mesh.lanesSpared = min 65535 (s.mesh.lanesSpared + 1) ∧ t = { s with mesh := t.mesh })) ∧
    (s.plane p.val ≠ .up ∨ 4 ≤ Tab.get s.mesh.spares 0 (laneKey p.val link) →
      Completes (.meshLaneSteer p link) s (fun t => t = s)) ∧
    (s.plane p.val = .steering → Completes (.meshLaneSteerDone p) s (fun t => t.plane p.val = .up ∧
      (∀ k, k ≠ p.val → t.plane k = s.plane k) ∧ t = { s with mesh := t.mesh })) ∧
    (s.plane p.val ≠ .steering → Completes (.meshLaneSteerDone p) s (fun t => t = s)) ∧
    (s.plane p.val = .draining → Completes (.meshPlaneRehash p) s (fun t => t.plane p.val = .out ∧
      (∀ k, k ≠ p.val → t.plane k = s.plane k) ∧ t = { s with mesh := t.mesh })) ∧
    (s.plane p.val ≠ .draining → Completes (.meshPlaneRehash p) s (fun t => t = s)) := by
  refine ⟨fun hup hspare => ⟨_, rfl, steerLane_steers hup hspare⟩, fun h => ⟨_, rfl, steerLane_refused h⟩,
    fun h => ⟨_, rfl, ?_⟩, fun h => ⟨_, rfl, if_neg h⟩, fun h => ⟨_, rfl, ?_⟩, fun h => ⟨_, rfl, if_neg h⟩⟩
  · rw [show steerDone p.val s = setPlane p.val .up s from if_pos h]
    exact ⟨setPlane_plane_self _ _ _, fun k hk => setPlane_plane_ne _ _ hk, rfl⟩
  · rw [show planeRehash p.val s = setPlane p.val .out s from if_pos h]
    exact ⟨setPlane_plane_self _ _ _, fun k hk => setPlane_plane_ne _ _ hk, rfl⟩

theorem meshPlaneOut_completes {s : State} {p : PlaneNum} {why : PlaneLoss} (hp : s.plane p.val ∉ [.draining, .out])
    (hwhy : why = .fifthLane → s.lanesSpent p.val = true) :
    (s.planesOut < 2 → Completes (.meshPlaneOut p why) s (fun t => t.plane p.val = .draining ∧
      (∀ k, k ≠ p.val → t.plane k = s.plane k) ∧ (t.hdr .dbg).errStat.getLsbD Bit.dbgPlane = true ∧
      (∃ ev, t.safe.inbox = s.safe.inbox ++ [ev] ∧ ev.unit = 0xC4 ∧ ev.permanent = true) ∧ SameMemory s t)) ∧
    (2 ≤ s.planesOut → s.safe.ssCause = 0 → Completes (.meshPlaneOut p why) s (fun t =>
      t.safe.ssCause = SS.fatal ∧ PinsLow t)) := by
  refine ⟨fun hfew => ⟨_, rfl, ?_⟩, fun hmany hsafe => ⟨_, rfl, ?_⟩⟩
  · rw [planeOut_taken hp hwhy, if_neg (Nat.not_le.mpr hfew)]
    exact planeOut_drains p.val
  · rw [planeOut_taken hp hwhy, if_pos hmany]
    exact fatalError_safe (s := planeReported s) _ hsafe

theorem ternlinkLaneFail_completes {s : State} {p : TlkNum} {lane : Fin 9} (hinj : (s.hdr (.tlk p)).inj = 0)
    (hup : (s.tlk p.val).up = true) (hlane : lane.val ∉ (s.tlk p.val).failed) :
    Completes (.ternlinkLaneFail p lane) s (fun t =>
      (t.tlk p.val).failed = (s.tlk p.val).failed ++ [lane.val] ∧ (∀ k, k ≠ p.val → t.tlk k = s.tlk k) ∧ SameMemory s t ∧
      ((s.tlk p.val).failed = [] → lane.val ≠ 8 → (t.tlk p.val).spareUsed = true ∧ (t.tlk p.val).steering = true ∧
        (t.tlk p.val).lanes = (s.tlk p.val).lanes ∧ (t.hdr (.tlk p.val)).errStat.getLsbD Bit.tlkSpared = true) ∧
      ((s.tlk p.val).failed.length = 1 → (t.tlk p.val).lanes = 4 ∧
        (t.hdr (.tlk p.val)).errStat.getLsbD Bit.tlkWidth = true) ∧
      (2 ≤ (s.tlk p.val).failed.length → (t.tlk p.val).up = false ∧ (t.tlk p.val).lanes = 0)) := by
  obtain ⟨f, ⟨hport, hother, hmemory, -⟩, hfailed⟩ := tlkLaneFail_notes hinj hup hlane
  refine ⟨_, rfl, (congrArg Tlk.failed hport).trans hfailed, hother, hmemory, fun hnil h8 => ?_, fun hone => ?_, fun htwo => ?_⟩
  · obtain ⟨⟨hmoved, -⟩, hbit⟩ := (tlkLaneFail_first hinj hup hlane hnil).2 h8
    exact ⟨congrArg Tlk.spareUsed hmoved, congrArg Tlk.steering hmoved, (congrArg Tlk.lanes hmoved).trans rfl, hbit⟩
  · obtain ⟨⟨hmoved, -⟩, hbit⟩ := tlkLaneFail_second hinj hup hlane hone
    exact ⟨congrArg Tlk.lanes hmoved, hbit⟩
  · obtain ⟨hmoved, -⟩ := tlkLaneFail_later hinj hup hlane htwo
    exact ⟨congrArg Tlk.up hmoved, congrArg Tlk.lanes hmoved⟩

/-- Settles O58: each command as the lemmas on planes, shares, flits and lanes above say. -/
theorem meshSharesAndTernlinkComplete : Obligations.MeshSharesAndTernlinkComplete := by
  unfold Obligations.MeshSharesAndTernlinkComplete
  refine ⟨fun s p link => ?_, fun s c p x hx => ?_, fun s p lo hi dev rel => ?_, fun s p part ap off d hinj => ?_,
    fun s p lane hinj => ?_⟩
  · obtain ⟨hsteer, hkept, hdone, hdoneKept, hrehash, hrehashKept⟩ := meshPlaneCommands_complete s p link
    refine ⟨hsteer, hkept, hdone, hdoneKept, hrehash, hrehashKept, fun h why => ⟨_, rfl, planeOut_kept ?_⟩,
      fun h => ⟨_, rfl, planeOut_kept (.inr (.inr ⟨rfl, h⟩))⟩, fun hp why hwhy => meshPlaneOut_completes hp hwhy⟩
    simp only [List.mem_cons, List.not_mem_nil, or_false] at h
    exact h.elim .inl (fun h => .inr (.inl h))
  · exact ⟨⟨_, rfl, part?_refillTokens hx, rfl⟩, ⟨_, rfl, part?_shareWindow hx c.val, rfl⟩⟩
  · refine ⟨fun h => ?_, fun v h => ?_, fun h => ⟨_, rfl, tlkMessage_ignored h⟩, fun hup hrel => ?_, fun h => ?_,
      fun h => ⟨_, rfl, tlkSteered_ignored h⟩⟩
    · obtain ⟨⟨hport, hother, hmemory, -⟩, hbit⟩ := tlkTrain_noVersion h p.val dev rel s
      exact ⟨_, rfl, congrArg Tlk.up hport, hbit, hother, hmemory⟩
    · obtain ⟨hport, hother, hmemory, -⟩ := tlkTrain_trains h p.val dev rel s
      exact ⟨_, rfl, congrArg Tlk.up hport, congrArg Tlk.version hport, congrArg Tlk.lanes hport, congrArg Tlk.failed hport,
        congrArg Tlk.peerFw hport, hother, hmemory⟩
    · obtain ⟨hport, hother, hmemory, -⟩ := tlkMessage_announces hup hrel
      exact ⟨_, rfl, hport, hother, hmemory⟩
    · obtain ⟨hport, hother, hmemory, -⟩ := tlkSteered_ends h
      exact ⟨_, rfl, congrArg Tlk.steering hport, (congrArg Tlk.lanes hport).trans rfl, hother, hmemory⟩
  · refine ⟨fun h crc => ⟨_, rfl, tlkFlit_ignored h crc _ _ _ _⟩, fun hup hsteering hret => ⟨?_, fun hap => ?_, ?_⟩⟩
    · obtain ⟨⟨hport, -, hmemory, hslices⟩, hbit⟩ := tlkFlit_replayed hinj hup hsteering hret part.val ap off d
      exact ⟨_, rfl, hport, hbit, hmemory, hslices⟩
    · exact ⟨_, rfl, tlkFlit_refused hinj hup hsteering hret hap⟩
    · intro hap hd hoff hsize hshc hiso hway hpass
      refine ⟨_, rfl, ?_⟩
      rw [tlkFlit_taken hinj hup hsteering hret, if_neg (by decide), if_pos hap]
      exact writeLines_lands ⟨hiso, hret, hsize, hshc⟩ hway hpass hd hoff _
  · exact ⟨fun h => ⟨_, rfl, tlkLaneFail_ignored hinj h⟩, ternlinkLaneFail_completes hinj⟩

end Sys2Proof.Machine

/-! What the device's own reactions never do: take back what has been sent, write a write buffer or move a core between pools (R65,
R126, R387).  `KeepsSent` holds between two states when this is so; each operation that pushes, returns and stops are made of has its
one lemma. -/

namespace Sys2Proof.Machine

open Sys2Proof

/-! ### The relation -/

/-- Between `s` and `t` what was sent stays sent, and every core has its write buffer and its pool as before. -/
structure KeepsSent (s t : State) : Prop where
  outs : Grows s t
  wbuf : ∀ n, (t.core n).wbuf = (s.core n).wbuf
  pool : ∀ n, (t.core n).pool = (s.core n).pool

theorem KeepsSent.refl (s : State) : KeepsSent s s := ⟨.refl s, fun _ => rfl, fun _ => rfl⟩

theorem KeepsSent.trans {s t u : State} (h : KeepsSent s t) (k : KeepsSent t u) : KeepsSent s u :=
  ⟨h.outs.trans k.outs, fun n => (k.wbuf n).trans (h.wbuf n), fun n => (k.pool n).trans (h.pool n)⟩

/-- What touches no core and sends at most something more. -/
theorem KeepsSent.of_cores {s t : State} (hcores : t.cores = s.cores) (houts : Grows s t) : KeepsSent s t :=
  ⟨houts, fun n => congrArg CoreSt.wbuf (core_of_cores hcores n), fun n => congrArg CoreSt.pool (core_of_cores hcores n)⟩

theorem KeepsSent.of_eq {s t : State} (hcores : t.cores = s.cores) (houts : t.outs = s.outs) : KeepsSent s t :=
  .of_cores hcores (.of_eq houts)

theorem KeepsSent.forEach {α : Type} (xs : List α) {f : α → State → State} (h : ∀ x s, KeepsSent s (f x s)) (s : State) :
    KeepsSent s (forEach xs f s) :=
  forEach_inv (KeepsSent s) xs f (fun x _ ht => ht.trans (h x _)) s (.refl s)

/-! ### Changes of one part -/

theorem modCore_keepsSent (n : Nat) {f : CoreSt → CoreSt} (s : State)
    (h : ∀ c, (f c).wbuf = c.wbuf ∧ (f c).pool = c.pool := by exact fun _ => ⟨rfl, rfl⟩) : KeepsSent s (s.modCore n f) := by
  have hcore : ∀ m, ((s.modCore n f).core m).wbuf = (s.core m).wbuf ∧ ((s.modCore n f).core m).pool = (s.core m).pool := by
    intro m
    rw [State.core_modCore]
    split
    · next hm => exact hm ▸ h _
    · exact ⟨rfl, rfl⟩
  exact ⟨.of_eq rfl, fun m => (hcore m).1, fun m => (hcore m).2⟩

theorem modQmg_keepsSent (f : Qmg → Qmg) (s : State) : KeepsSent s (s.modQmg f) := .of_eq rfl rfl

theorem modStream_keepsSent (id : Nat) (f : Stream → Stream) (s : State) : KeepsSent s (s.modStream id f) := .of_eq rfl rfl

theorem modBuffer_keepsSent (p i : Nat) (f : Buffer → Buffer) (s : State) : KeepsSent s (s.modBuffer p i f) := .of_eq rfl rfl

theorem modQueue_keepsSent (n : Nat) (f : Queue → Queue) (s : State) : KeepsSent s (s.modQueue n f) := .of_eq rfl rfl

/-! ### Detections, waits and units -/

theorem raiseAt_keepsSent (b : Block) (bit addr : Nat) (who : Option (Nat × Nat)) (s : State) : KeepsSent s (raiseAt b bit addr who s) :=
  .of_cores (by simp) (raiseAt_grows b bit addr who s)

theorem raise_keepsSent (b : Block) (bit : Nat) (s : State) : KeepsSent s (raise b bit s) := raiseAt_keepsSent b bit 0 none s

theorem report_keepsSent (e : FaultEv) (s : State) : KeepsSent s (report e s) := .of_eq rfl rfl

theorem takeInj_keepsSent (b : Block) (bit : Nat) (s : State) : KeepsSent s (takeInj b bit s).2 := .of_eq (by simp) (by simp)

theorem flagUnit_keepsSent (n cause : Nat) (s : State) : KeepsSent s (flagUnit n cause s) := modCore_keepsSent n s

theorem refuseOp_keepsSent (a : Agent) (bit : Option Nat) (s : State) : KeepsSent s (refuseOp a bit s) := by
  have hraise : KeepsSent s (match bit with | none => s | some b => raise .qmg b s) := by
    cases bit with
    | none => exact .refl s
    | some b => exact raise_keepsSent _ _ s
  unfold refuseOp
  dsimp only
  split
  · exact hraise.trans ((report_keepsSent _ _).trans (flagUnit_keepsSent _ _ _))
  · exact hraise

theorem beginWait_keepsSent (c : Nat) (on : WaitOn) (s : State) : KeepsSent s (beginWait c on s) :=
  (modQmg_keepsSent _ s).trans (modCore_keepsSent c _)

theorem endWait_keepsSent (c : Nat) (on : WaitOn) (s : State) : KeepsSent s (endWait c on s) :=
  (modQmg_keepsSent _ s).trans (modCore_keepsSent c _ (fun k => by split <;> exact ⟨rfl, rfl⟩))

theorem dropWaits_keepsSent (c : Nat) (s : State) : KeepsSent s (dropWaits c s) := .of_eq rfl rfl

theorem agentWait_keepsSent (a : Agent) (on : WaitOn) (s : State) : KeepsSent s (agentWait a on s) := by
  unfold agentWait
  split
  · exact beginWait_keepsSent _ _ s
  · exact .refl s

/-! ### Handles that go back and are pushed (R135, R178, R184, R187) -/

theorem giveFree_keepsSent (p : Nat) (pl : PoolSt) (i tag : Nat) (s : State) : KeepsSent s (giveFree p pl i tag s) := by
  have hclose : ∀ t, KeepsSent t (closeWindows pl i t) := by
    intro t
    unfold closeWindows
    split
    · exact .forEach _ (fun c u => modCore_keepsSent c u) t
    · exact .refl t
  unfold giveFree
  dsimp only
  exact (modBuffer_keepsSent p i _ s).trans ((hclose _).trans (modQueue_keepsSent _ _ _))

theorem forceFree_keepsSent (h : W64) (s : State) : KeepsSent s (forceFree h s) := by
  unfold forceFree
  dsimp only
  split
  · exact .refl s
  · split
    · exact giveFree_keepsSent _ _ _ _ s
    · exact .refl s

theorem issueTransfer_keepsSent (c n : Nat) (h : Option W64) (s : State) : KeepsSent s (issueTransfer c n h s) := .of_eq rfl rfl

theorem issueFetches_keepsSent (n : Nat) (s : State) : KeepsSent s (issueFetches n s) := by
  unfold issueFetches
  refine (modQmg_keepsSent _ s).trans (.forEach _ (fun f t => ?_) _)
  unfold issueFetch
  dsimp only
  exact (KeepsSent.forEach _ (fun _ u => issueTransfer_keepsSent _ _ _ u) t).trans (modQmg_keepsSent _ _)

theorem deliver_keepsSent (c n : Nat) (q : Queue) (h : W64) (s : State) : KeepsSent s (deliver c n q h s) := by
  have hready : ∀ (o : Nat) (u : UnitInst) (t : State),
      KeepsSent t (t.modCore c (fun k => { k with ready := k.ready ++ [u], releasedAt := some o })) :=
    fun o u t => modCore_keepsSent c t
  unfold deliver State.nextOrder
  dsimp only
  split
  · exact (modQmg_keepsSent _ s).trans ((hready _ _ _).trans ((modQmg_keepsSent _ _).trans (issueFetches_keepsSent n _)))
  · exact (modQmg_keepsSent _ s).trans (hready _ _ _)

theorem pushEntry_keepsSent (n : Nat) (h : W64) (s : State) : KeepsSent s (pushEntry n h s) := by
  have hdirect : ∀ (cs : List Nat) (q : Queue) (t : State),
      KeepsSent t (forEach cs (fun c s => deliver c n q h (endWait c (.pop n) s)) t) :=
    fun cs q t => .forEach cs (fun c u => (endWait_keepsSent c _ u).trans (deliver_keepsSent c n q h _)) t
  unfold pushEntry
  dsimp only
  split
  · exact (modQueue_keepsSent n _ s).trans (hdirect _ _ _)
  · exact (modQueue_keepsSent n _ s).trans (hdirect _ _ _)

theorem faultQueue_keepsSent (n : Nat) (s : State) : KeepsSent s (faultQueue n s) := by
  unfold faultQueue
  split
  · exact modQueue_keepsSent n _ s
  · exact .of_eq rfl rfl

theorem readDescriptor_keepsSent (n : Nat) (u : Upset) (s : State) : KeepsSent s (readDescriptor n u s).2 := by
  have hcorr : ∀ (b : Bool) (t : State),
      KeepsSent t (if b then raise .qmg Bit.qmgDescCorr (t.modQmg (fun m => { m with descCorr := sat32 (m.descCorr + 1) })) else t) := by
    intro b t
    cases b with
    | true => exact (modQmg_keepsSent _ t).trans (raise_keepsSent _ _ _)
    | false => exact .refl t
  have hfirst := takeInj_keepsSent .qmg Bit.qmgDescCorr s
  unfold readDescriptor
  generalize takeInj .qmg Bit.qmgDescCorr s = taken at hfirst ⊢
  obtain ⟨corr, s1⟩ := taken
  dsimp only at hfirst ⊢
  have hread := hfirst.trans (hcorr (corr || u == .corrected) s1)
  generalize (if (corr || u == .corrected) = true then _ else s1) = s2 at hread ⊢
  have hsecond := hread.trans (takeInj_keepsSent .qmg Bit.qmgDescUncorr s2)
  generalize takeInj .qmg Bit.qmgDescUncorr s2 = taken at hsecond ⊢
  obtain ⟨unc, s3⟩ := taken
  dsimp only at hsecond ⊢
  generalize queueOwner n s3 = owner
  obtain ⟨ctx, part, id⟩ := owner
  dsimp only
  split
  · exact hsecond.trans ((faultQueue_keepsSent n _).trans ((raiseAt_keepsSent _ _ _ _ _).trans (report_keepsSent _ _)))
  · exact hsecond

theorem push_keepsSent (a : Agent) (n : Nat) (h : W64) (s : State) : KeepsSent s (push a n h s) := by
  have hread := readDescriptor_keepsSent n .clean s
  unfold push pushTurn
  generalize readDescriptor n .clean s = read at hread ⊢
  obtain ⟨ok, t⟩ := read
  refine hread.trans ?_
  dsimp only
  repeat' split
  all_goals dsimp only
  · exact refuseOp_keepsSent _ _ t
  · exact refuseOp_keepsSent _ _ t
  · exact .refl t
  · exact refuseOp_keepsSent _ _ t
  · exact agentWait_keepsSent _ _ t
  · exact refuseOp_keepsSent _ _ t
  · exact refuseOp_keepsSent _ _ t
  · exact (modQmg_keepsSent _ t).trans (beginWait_keepsSent _ _ _)
  · exact .refl t
  · exact pushEntry_keepsSent n h t

theorem returnHere_keepsSent (a : Agent) (h : W64) (pl : PoolSt) (s : State) : KeepsSent s (returnHere a h pl s).2 := by
  have hcount : KeepsSent s (countReturn a h pl s).2 := by
    unfold countReturn
    dsimp only
    repeat' split
    all_goals dsimp only
    · exact refuseOp_keepsSent _ _ s
    · exact refuseOp_keepsSent _ _ s
    · exact giveFree_keepsSent _ _ _ _ s
    · exact modBuffer_keepsSent _ _ _ s
  unfold returnHere
  split
  · exact agentWait_keepsSent _ _ s
  · exact refuseOp_keepsSent _ _ s
  · exact hcount

theorem giveBack_keepsSent (a : Agent) (h : W64) (s : State) : KeepsSent s (giveBack a h s) := by
  unfold giveBack returnTurn
  split
  · dsimp only
    exact refuseOp_keepsSent _ _ s
  · next pl _ =>
    have hread := readDescriptor_keepsSent pl.freeQueue .clean s
    generalize readDescriptor pl.freeQueue .clean s = read at hread ⊢
    obtain ⟨ok, t⟩ := read
    refine hread.trans ?_
    dsimp only
    repeat' split
    · dsimp only
      exact refuseOp_keepsSent _ _ t
    · dsimp only
      exact refuseOp_keepsSent _ _ t
    · exact returnHere_keepsSent a h pl t

/-! ### Outputs, records and fault stops (R20, R65, R174) -/

theorem stampOutput_keepsSent (u : UnitInst) (h : W64) (s : State) : KeepsSent s (stampOutput u h s) := by
  unfold stampOutput
  dsimp only
  exact modBuffer_keepsSent _ _ _ s

theorem notePushed_keepsSent (u : UnitInst) (s : State) : KeepsSent s (notePushed u s) := modStream_keepsSent _ _ s

theorem pushOutputs_keepsSent (c : CoreNum) (u : UnitInst) (s : State) : KeepsSent s (pushOutputs c u s) := by
  have hcheck : ∀ (payload : Option (List Byte)) (h : W64) (t : State), KeepsSent t (checkOutput payload h t) := by
    intro payload h t
    unfold checkOutput
    dsimp only
    split
    · exact modBuffer_keepsSent _ _ _ t
    · exact .of_eq rfl rfl
  unfold pushOutputs
  refine (KeepsSent.forEach u.outputs (fun o t => ?_) s).trans (notePushed_keepsSent u _)
  exact (stampOutput_keepsSent u o.2 t).trans ((hcheck _ _ _).trans (push_keepsSent _ _ _ _))

theorem formRecord_keepsSent (id seq : Nat) (own calls : List Nat) (payload : List Byte) (s : State) :
    KeepsSent s (formRecord id seq own calls payload s) := by
  unfold formRecord
  split
  · exact .refl s
  · split
    · exact .refl s
    · exact modStream_keepsSent _ _ s

theorem qmgRecord_keepsSent (id seq cause : Nat) (s : State) : KeepsSent s (qmgRecord id seq cause s) := by
  unfold qmgRecord
  split
  · exact .refl s
  · exact KeepsSent.trans (t := { s with free := s.free + 1 }) (.of_eq rfl rfl) (formRecord_keepsSent _ _ _ _ _ _)

theorem recordAll_keepsSent (cause id : Nat) (s : State) : KeepsSent s (recordAll cause id s) := by
  unfold recordAll
  split
  · exact .refl s
  · exact .forEach _ (fun q t => qmgRecord_keepsSent id q cause t) s

theorem reportOwed_keepsSent (c : Nat) (u : UnitInst) (corrected : Bool) (s : State) : KeepsSent s (reportOwed c u corrected s) := by
  obtain ⟨f, h⟩ := reportOwed_eq c u corrected s
  rw [h]
  exact .of_eq rfl rfl

theorem stopRecord_keepsSent (u : UnitInst) (cause : Nat) (s : State) : KeepsSent s (stopRecord u cause s) := by
  unfold stopRecord
  split
  · exact qmgRecord_keepsSent _ _ _ s
  · exact .refl s

theorem faultStop_keepsSent (c : CoreNum) (cause bit reason : Nat) (counted : Bool) (s : State) :
    KeepsSent s (faultStop c cause bit reason counted s) := by
  unfold faultStop
  split
  · unfold stallStop
    split
    · exact .refl s
    · exact (dropWaits_keepsSent c.val s).trans ((modCore_keepsSent c.val _).trans (report_keepsSent _ _))
  · dsimp only
    refine (modCore_keepsSent c.val s).trans ((dropWaits_keepsSent c.val _).trans ((pushOutputs_keepsSent c _ _).trans
      ((modCore_keepsSent c.val _).trans ((KeepsSent.forEach _ (fun h t => giveBack_keepsSent .firmware h t) _).trans
        ((stopRecord_keepsSent _ _ _).trans ((reportOwed_keepsSent _ _ _ _).trans (report_keepsSent _ _)))))))

theorem seqIllegal_keepsSent (c : CoreNum) (s : State) : KeepsSent s (seqIllegal c s) :=
  (raise_keepsSent _ _ s).trans (faultStop_keepsSent _ _ _ _ _ _)

/-! ### Stages that are lost (R307, R386) -/

theorem sendInval_keepsSent (i : Inval) (s : State) : KeepsSent s (sendInval i s) := .of_eq rfl rfl

theorem streamFault_keepsSent (id : Nat) (s : State) : KeepsSent s (streamFault id s) := by
  unfold streamFault
  split
  · exact .refl s
  · next st _ =>
    split
    · exact .refl s
    · have htold : ∀ t, KeepsSent t
          (if isSafety st.cls then
            report { unit := 0xC7, cause := Cause.streamFault, ctx := st.ctx, part := st.part, stream := some id,
                     cls := 1, bit := Bit.safeStreamFault }
              (sendInval { target := .stream id, scope := .fromNext, cause := Cause.streamFault } (raise .safe Bit.safeStreamFault t))
          else t) := by
        intro t
        split
        · exact (raise_keepsSent _ _ t).trans ((sendInval_keepsSent _ _).trans (report_keepsSent _ _))
        · exact .refl t
      dsimp only
      split
      · exact (modStream_keepsSent id _ s).trans (htold _)
      · exact (modStream_keepsSent id _ s).trans ((htold _).trans (recordAll_keepsSent _ _ _))

theorem loseStages_keepsSent (id : Nat) (copies : List Nat) (cause : Nat) (s : State) : KeepsSent s (loseStages id copies cause s) := by
  unfold loseStages
  split
  · exact .refl s
  · split
    · exact .forEach _ (fun k t => sendInval_keepsSent _ t) s
    · exact streamFault_keepsSent id s

end Sys2Proof.Machine

/-! Notices and the spare pool (R269, R387, R406): they are `Steady` too. -/

namespace Sys2Proof.Machine

open Sys2Proof

theorem rebalance_steady (s : State) : Steady s (rebalance s) := by
  unfold rebalance
  dsimp only
  split
  · exact .refl s
  · exact (Steady.forEach _ (fun n t => modCore_steady n _ t) s).trans (draw_steady _ _)

theorem raiseInt_up (b : Block) (bits : BitVec 2) (s : State) : (raiseInt b bits s).pce.up = s.pce.up := by
  unfold raiseInt
  dsimp only
  split
  · exact sendMsix_up _ _ _
  · rfl

theorem postNotice_up (kind word : Nat) (fault : Option FaultRec) (s : State) : (postNotice kind word fault s).pce.up = s.pce.up := by
  unfold postNotice
  split
  · rfl
  · split
    · exact raiseInt_up _ _ _
    · exact raiseAt_up _ _ _ _ _

theorem postNotice_steady (kind word : Nat) (fault : Option FaultRec) (s : State) : Steady s (postNotice kind word fault s) :=
  .of_watched (by simp [State.watched, postNotice_up])

theorem checkSpares_steady (before : Nat) (s : State) : Steady s (checkSpares before s) := by
  unfold checkSpares
  split
  · exact (raise_steady _ _ s).trans ((report_steady _ _).trans (postNotice_steady _ _ _ _))
  · exact .refl s

end Sys2Proof.Machine

/-! Scratchpad words and row repair (R126, R139 to R144): what an access of a bank, a scrub and a repair do to the words of a core. -/

namespace Sys2Proof.Machine

open Sys2Proof

/-! ### A change of one core -/

theorem modCore_otherCores (n : Nat) (f : CoreSt → CoreSt) (s : State) : OtherCores n s (s.modCore n f) :=
  fun _ hm => State.core_modCore_ne _ _ hm

theorem OtherCores.of_cores {n : Nat} {s t u : State} (h : OtherCores n s t) (hcores : u.cores = t.cores) : OtherCores n s u :=
  fun m hm => (core_of_cores hcores m).trans (h m hm)

theorem OtherCores.trans {n : Nat} {s t u : State} (h : OtherCores n s t) (k : OtherCores n t u) : OtherCores n s u :=
  fun m hm => (k m hm).trans (h m hm)

/-- A core whose scratchpad stays is changed: both memories read as before. -/
theorem modCore_sameMemory (n : Nat) {f : CoreSt → CoreSt} (s : State) (h : ∀ c, (f c).sp = c.sp := by intro; rfl) :
    SameMemory s (s.modCore n f) := (modCore_keepsWords n s h).sameMemory rfl

theorem SameMemory.of_eq {s t u : State} (h : SameMemory s t) (hdram : u.dram = t.dram) (hcores : u.cores = t.cores) : SameMemory s u :=
  ⟨fun a => (dramByte_of_dram hdram a).trans (h.1 a), fun n w => (sameScratchpads_of_cores hcores n w).trans (h.2 n w)⟩

theorem SameMemory.trans {s t u : State} (h : SameMemory s t) (k : SameMemory t u) : SameMemory s u :=
  ⟨fun a => (k.1 a).trans (h.1 a), fun n w => (k.2 n w).trans (h.2 n w)⟩

/-- A change of a core that writes one word: that word, and no other, reads anew. -/
theorem spWord_modCore_write {n w : Nat} {v : W32} {f : CoreSt → CoreSt} {s : State}
    (h : (f (s.core n)).sp = Tab.write (s.core n).sp 0 w v) :
    (s.modCore n f).spWord n w = v ∧ ∀ k, k ≠ w → (s.modCore n f).spWord n k = s.spWord n k := by
  unfold State.spWord
  rw [State.core_modCore_self, h]
  exact ⟨Tab.get_write_self _ _ _, fun k hk => Tab.get_write_ne _ _ hk⟩

theorem not_mem_dropAll (xs : List Nat) (x : Nat) : x ∉ dropAll xs x := by simp [dropAll]

theorem mem_addOnce_self (xs : List Nat) (x : Nat) : x ∈ addOnce xs x := by
  unfold addOnce
  split
  · next h => simpa using h
  · simp

/-- A write of a word by command: it lands unpoisoned, and changes no other word, no other core and nothing else. -/
theorem modCore_writeWord (n w : Nat) (v : W32) (s : State) :
    let t := s.modCore n (fun c => c.writeWord w v)
    t.spWord n w = v ∧ w ∉ (t.core n).spPoison ∧ (∀ k, k ≠ w → t.spWord n k = s.spWord n k) ∧ OtherCores n s t ∧
      t = { s with cores := t.cores } := by
  intro t
  obtain ⟨hword, hother⟩ := spWord_modCore_write (s := s) (n := n) (w := w) (v := v) (f := fun c => c.writeWord w v) rfl
  refine ⟨hword, ?_, hother, modCore_otherCores n _ s, rfl⟩
  rw [show t.core n = (s.core n).writeWord w v from State.core_modCore_self _ _ _]
  exact not_mem_dropAll _ _

theorem flagUnit_run (n cause : Nat) (s : State) : ((flagUnit n cause s).core n).run = (s.core n).run.map (·.flag cause) :=
  congrArg CoreSt.run (State.core_modCore_self _ _ _)

/-! ### What a bank read meets (R75, R140, R143) -/

/-- A word whose contents are lost is poisoned in place, and its row wants repair (R140, R143). -/
def CoreSt.loseWord (w : Nat) (c : CoreSt) : CoreSt := { c.poisonAt w with badWords := addOnce c.badWords w }

section BankRead

variable {s : State} {n : Nat} (hinj : (s.hdr (.core n)).inj = 0) (w : Nat) (pass : Bool)
include hinj

/-- The code corrects a word and reports it. -/
theorem bankRead_corrected : bankRead n w .corrected pass s =
    (false, report { unit := n, cause := 0, bit := Bit.coreEccCorr, corrected := true }
      (raise (.core n) Bit.coreEccCorr (s.modCore n (fun c => c.noteCorr w pass)))) := by
  unfold bankRead
  simp [takeInj_unarmed hinj]

theorem bankRead_uncorrected : bankRead n w .uncorrectable pass s =
    (true, raiseAt (.core n) Bit.coreEccUncorr w none (s.modCore n (CoreSt.loseWord w))) := by
  unfold bankRead CoreSt.loseWord
  simp [takeInj_unarmed hinj]

/-- A corrected word keeps its value, is counted and reported. -/
theorem bankRead_corrected_effect :
    let t := (bankRead n w .corrected pass s).2
    (t.hdr (.core n)).errStat.getLsbD Bit.coreEccCorr = true ∧
      Tab.find (t.core n).corrWords w = some (Tab.get (s.core n).corrWords 0 w + (if pass then 1 else 0)) ∧
      (∃ ev ∈ t.safe.inbox, ev.unit = n ∧ ev.corrected = true) ∧ SameMemory s t ∧ OtherCores n s t := by
  rw [bankRead_corrected hinj]
  have hmem := modCore_sameMemory n (f := fun c => c.noteCorr w pass) s
  have hcores := modCore_otherCores n (fun c => c.noteCorr w pass) s
  have hcount : Tab.find ((s.modCore n (fun c => c.noteCorr w pass)).core n).corrWords w =
      some (Tab.get (s.core n).corrWords 0 w + (if pass then 1 else 0)) := by
    rw [State.core_modCore_self]
    exact Tab.find_insert_self _ _ _
  generalize s.modCore n (fun c => c.noteCorr w pass) = r at hmem hcores hcount
  dsimp only
  rw [core_report, core_raise]
  exact ⟨raise_sets _ _ r (by decide), hcount, ⟨_, report_inbox _ _, rfl, rfl⟩, hmem.of_eq (by simp) (by simp), hcores.of_cores (by simp)⟩

/-- An uncorrectable word is poisoned in place: no other word, no other core, no unit and no sequencer changes. -/
theorem bankRead_uncorrected_effect :
    let t := (bankRead n w .uncorrectable pass s).2
    t.spWord n w = poisonWord ∧ w ∈ (t.core n).spPoison ∧ (∀ k, k ≠ w → t.spWord n k = s.spWord n k) ∧
      (t.core n).seq = (s.core n).seq ∧ (t.core n).run = (s.core n).run ∧
      (t.hdr (.core n)).errStat.getLsbD Bit.coreEccUncorr = true ∧ OtherCores n s t ∧ Grows s t := by
  rw [bankRead_uncorrected hinj]
  obtain ⟨hword, hother⟩ := spWord_modCore_write (s := s) (n := n) (w := w) (v := poisonWord) (f := CoreSt.loseWord w) rfl
  have hcore : (s.modCore n (CoreSt.loseWord w)).core n = (s.core n).loseWord w := State.core_modCore_self _ _ _
  have hcores := modCore_otherCores n (CoreSt.loseWord w) s
  have hgrows : Grows s (s.modCore n (CoreSt.loseWord w)) := .of_eq rfl
  generalize s.modCore n (CoreSt.loseWord w) = r at hword hother hcore hcores hgrows
  have hsp : ∀ k, (raiseAt (.core n) Bit.coreEccUncorr w none r).spWord n k = r.spWord n k :=
    fun k => sameScratchpads_of_cores (by simp) n k
  dsimp only
  rw [core_raiseAt, hcore]
  exact ⟨(hsp w).trans hword, mem_addOnce_self _ _, fun k hk => (hsp k).trans (hother k hk), rfl, rfl, raiseAt_sets _ _ _ _ _ (by decide),
    hcores.of_cores (by simp), hgrows.trans (raiseAt_grows _ _ _ _ _)⟩

end BankRead

/-! ### What SAFE is told (R65, R301) -/

theorem coreEv_idle {s : State} {n : Nat} (h : (s.core n).run = none) (cause bit : Nat) :
    coreEv s n cause bit = { unit := n, cause := cause, bit := bit } := by
  unfold coreEv
  rw [h]

theorem faultStop_reports {c : CoreNum} {s : State} {u : UnitInst} (hrun : (s.core c.val).run = some u) (cause bit reason : Nat)
    (counted : Bool) : ∃ ev ∈ (faultStop c cause bit reason counted s).safe.inbox, ev.unit = c.val ∧ ev.cause = cause := by
  unfold faultStop
  rw [hrun]
  exact ⟨_, report_inbox _ _, rfl, rfl⟩

/-! ### Local reads (R126, R139, R140) -/

theorem localRead_buffered {s : State} {n : CoreNum} {w : Nat} {v : W32} (h : (s.core n.val).buffered w = some (v, false)) (u : Upset) :
    localRead n w u s = s.emit (.data n.val [v] false) := by
  unfold localRead
  rw [h]

theorem localRead_bufferedPoison {s : State} {n : CoreNum} {w : Nat} {v : W32} (h : (s.core n.val).buffered w = some (v, true)) (u : Upset) :
    localRead n w u s = flagUnit n.val Cause.memPoison (s.emit (.data n.val [poisonWord] true)) := by
  unfold localRead
  rw [h]

/-- What core `n` is given of word `w` once the bank has read it. -/
def spReadOut (n w : Nat) (s : State) : Out :=
  .data n [if (s.core n).spPoison.contains w then poisonWord else s.spWord n w] ((s.core n).spPoison.contains w)

/-- A read of a bank answers the word that the bank holds then; what it finds stops the unit or flags it. -/
theorem localRead_bank {s : State} {n : CoreNum} {w : Nat} (h : (s.core n.val).buffered w = none) (u : Upset) :
    localRead n w u s =
      let r := bankRead n.val w u false s
      if r.1 then readFault n (r.2.emit (spReadOut n.val w r.2))
      else if (r.2.core n.val).spPoison.contains w then
        flagUnit n.val Cause.memPoison (r.2.emit (spReadOut n.val w r.2))
      else r.2.emit (spReadOut n.val w r.2) := by
  unfold localRead
  rw [h]
  rfl

/-- A poisoned word is answered as such, and flags the unit that reads it. -/
theorem poisonedRead_effect (n : Nat) (s : State) :
    let t := flagUnit n Cause.memPoison (s.emit (.data n [poisonWord] true))
    Sends s t (.data n [poisonWord] true) ∧ (t.core n).run = (s.core n).run.map (·.flag Cause.memPoison) ∧ SameMemory s t ∧
      OtherCores n s t :=
  ⟨Sends.emit s _, flagUnit_run n _ _, modCore_sameMemory n (s.emit _), modCore_otherCores n _ (s.emit _)⟩

theorem spReadOut_poisoned {s : State} {n w : Nat} (h : w ∈ (s.core n).spPoison) : spReadOut n w s = .data n [poisonWord] true := by
  simp [spReadOut, h]

theorem spReadOut_sound {s : State} {n w : Nat} (h : w ∉ (s.core n).spPoison) : spReadOut n w s = .data n [s.spWord n w] false := by
  simp [spReadOut, h]

section BankAccess

variable {s : State} {n : CoreNum} {w : Nat} (hinj : (s.hdr (.core n.val)).inj = 0) (hbuf : (s.core n.val).buffered w = none)
include hinj hbuf

theorem localRead_clean (h : w ∉ (s.core n.val).spPoison) :
    localRead n w .clean s = s.emit (.data n.val [s.spWord n.val w] false) := by
  rw [localRead_bank hbuf, bankRead_clean hinj]
  simp [h, spReadOut_sound h]

theorem localRead_cleanPoison (h : w ∈ (s.core n.val).spPoison) :
    localRead n w .clean s = flagUnit n.val Cause.memPoison (s.emit (.data n.val [poisonWord] true)) := by
  rw [localRead_bank hbuf, bankRead_clean hinj]
  simp [h, spReadOut_poisoned h]

/-- A word that the code corrects is counted and reported, whatever the read then answers. -/
theorem localRead_corrected :
    let t := localRead n w .corrected s
    (t.hdr (.core n.val)).errStat.getLsbD Bit.coreEccCorr = true ∧ (Tab.find (t.core n.val).corrWords w).isSome = true ∧
      (∃ ev ∈ t.safe.inbox, ev.unit = n.val ∧ ev.corrected = true) ∧ SameMemory s t ∧ OtherCores n.val s t := by
  intro t
  have heq : t = _ := localRead_bank hbuf .corrected
  have hgood : (bankRead n.val w .corrected false s).1 = false := by rw [bankRead_corrected hinj]
  obtain ⟨hbit, hcount, hev, hmem, hcores⟩ := bankRead_corrected_effect hinj w false
  dsimp only at heq hbit hcount hev hmem hcores
  rw [hgood, if_neg Bool.false_ne_true] at heq
  generalize (bankRead n.val w .corrected false s).2 = r at heq hbit hcount hev hmem hcores
  have hcount' : (Tab.find (r.core n.val).corrWords w).isSome = true := by rw [hcount]; rfl
  rw [heq]
  split
  · refine ⟨hbit, ?_, hev, hmem.trans (modCore_sameMemory n.val (r.emit _)), hcores.trans (modCore_otherCores n.val _ (r.emit _))⟩
    rw [show (flagUnit n.val Cause.memPoison (r.emit (spReadOut n.val w r))).core n.val = _ from State.core_modCore_self _ _ _]
    exact hcount'
  · exact ⟨hbit, hcount', hev, hmem.of_eq rfl rfl, hcores.of_cores rfl⟩

/-- An uncorrectable word stops the unit that reads it, and is reported where none runs. -/
theorem localRead_uncorrectable :
    let t := localRead n w .uncorrectable s
    Sends s t (.data n.val [poisonWord] true) ∧ (t.hdr (.core n.val)).errStat.getLsbD Bit.coreEccUncorr = true ∧
      (∃ ev ∈ t.safe.inbox, ev.unit = n.val ∧ ev.cause = Cause.memPoison) ∧
      ((s.core n.val).run = none → (t.core n.val).seq = (s.core n.val).seq ∧ t.spWord n.val w = poisonWord) ∧
      ((s.core n.val).run ≠ none → (t.core n.val).seq = .faulted ∧ (t.core n.val).run = none) := by
  intro t
  have heq : t = _ := localRead_bank hbuf .uncorrectable
  have hbad : (bankRead n.val w .uncorrectable false s).1 = true := by rw [bankRead_uncorrected hinj]
  obtain ⟨hword, hpoison, -, hseq, hrun, hbit, -, hgrows⟩ := bankRead_uncorrected_effect hinj w false
  dsimp only at heq hword hpoison hseq hrun hbit hgrows
  rw [hbad, if_pos rfl] at heq
  generalize (bankRead n.val w .uncorrectable false s).2 = r at heq hword hpoison hseq hrun hbit hgrows
  rw [spReadOut_poisoned hpoison] at heq
  have hsent : Sends s (r.emit (.data n.val [poisonWord] true)) (.data n.val [poisonWord] true) := .before hgrows (.emit r _)
  rw [heq]
  unfold readFault
  split
  · next u hu =>
    have hu : (r.core n.val).run = some u := hu
    obtain ⟨hnone, hfaulted, -, hkeeps⟩ :=
      faultStop_effect (s := r.emit (.data n.val [poisonWord] true)) hu Cause.memPoison Bit.coreEccUncorr 0 true
    refine ⟨hsent.after (faultStop_keepsSent _ _ _ _ _ _).outs, hkeeps.errStat _ _ hbit, ?_, fun h => ?_, fun _ => ⟨hfaulted, hnone⟩⟩
    · exact faultStop_reports (s := r.emit _) hu _ _ _ _
    · rw [← hrun, hu] at h
      cases h
  · next hnone =>
    have hnone : (r.core n.val).run = none := hnone
    refine ⟨hsent.after (report_keepsSent _ _).outs, hbit, ⟨_, report_inbox _ _, ?_⟩, fun _ => ⟨hseq, hword⟩,
      fun h => absurd (hrun.symm.trans hnone) h⟩
    rw [coreEv_idle (s := r.emit _) hnone]
    exact ⟨rfl, rfl⟩

end BankAccess

/-! ### Scrubbing and unit writes (R128, R130, R141) -/

theorem scrubWord_clean {s : State} {n : Nat} (hinj : (s.hdr (.core n)).inj = 0) (w : Nat) : scrubWord n w .clean s = s := by
  unfold scrubWord
  rw [bankRead_clean hinj]
  rfl

theorem scrubWord_corrected {s : State} {n : Nat} (hinj : (s.hdr (.core n)).inj = 0) (w : Nat) :
    scrubWord n w .corrected s = (bankRead n w .corrected true s).2 := by
  unfold scrubWord
  rw [bankRead_corrected hinj]
  rfl

theorem scrubWord_uncorrectable {s : State} {n : Nat} (hinj : (s.hdr (.core n)).inj = 0) (w : Nat) :
    scrubWord n w .uncorrectable s = report { unit := n, cause := Cause.memPoison, bit := Bit.coreEccUncorr, counted := true }
      (bankRead n w .uncorrectable true s).2 := by
  unfold scrubWord
  rw [bankRead_uncorrected hinj]
  rfl

theorem unitWrite_held {s : State} {n : CoreNum} (h : (s.core n.val).run = none ∨ s.pwr.stopped = true) (w : Nat) (v : W32) :
    unitWrite n w v s = s :=
  if_pos (by rcases h with h | h <;> simp [h])

theorem unitWrite_runs {s : State} {n : CoreNum} (hrun : (s.core n.val).run ≠ none) (hstop : s.pwr.stopped = false) (w : Nat) (v : W32) :
    unitWrite n w v s =
      if (s.core n.val).unitMayWrite w then s.modCore n.val (fun c => c.writeWord w v) else seqIllegal n s :=
  if_neg (by simp [hrun, hstop])

/-! ### Rows that are repaired (R142 to R144, R387) -/

theorem Tab.find_filter_none {α : Type} {p : Nat × α → Bool} {k : Nat} (h : ∀ v, p (k, v) = false) :
    ∀ t : Tab α, Tab.find (t.filter p) k = none
  | [] => rfl
  | (j, v) :: t => by
    rw [List.filter_cons]
    split
    · next hp =>
      have hne : k ≠ j := fun heq => by rw [← heq, h] at hp; cases hp
      unfold Tab.find
      rw [if_neg hne]
      exact Tab.find_filter_none h t
    · exact Tab.find_filter_none h t

/-- Between `s` and `t` only contents and poison tags of the words `ws` of core `n` change, and free values are drawn. -/
structure LosesWords (n : Nat) (ws : List Nat) (s t : State) : Prop where
  frame : t = { s with cores := t.cores, free := t.free }
  core : ∃ sp poison, t.core n = { s.core n with sp := sp, spPoison := poison }
  others : OtherCores n s t
  words : ∀ w, w ∉ ws → t.spWord n w = s.spWord n w

theorem LosesWords.refl (n : Nat) (ws : List Nat) (s : State) : LosesWords n ws s s :=
  ⟨rfl, ⟨_, _, rfl⟩, fun _ _ => rfl, fun _ _ => rfl⟩

theorem LosesWords.trans {n : Nat} {ws : List Nat} {s t u : State} (h : LosesWords n ws s t) (k : LosesWords n ws t u) :
    LosesWords n ws s u where
  frame := by
    rw [k.frame, h.frame]
  core := by
    obtain ⟨sp, poison, hcore⟩ := h.core
    obtain ⟨sp', poison', kcore⟩ := k.core
    exact ⟨sp', poison', by rw [kcore, hcore]⟩
  others := h.others.trans k.others
  words w hw := (k.words w hw).trans (h.words w hw)

theorem loseRow_losesWords (n bank row : Nat) (s : State) : LosesWords n (rowWords bank row) s (loseRow n bank row s) := by
  refine forEach_inv_mem (LosesWords n (rowWords bank row) s) _ (fun w hw t ht => ?_) s (.refl _ _ _)
  split
  · exact ht
  · refine ht.trans ⟨rfl, ⟨_, _, State.core_modCore_self _ _ _⟩, fun m hm => State.core_modCore_ne _ _ hm, fun k hk => ?_⟩
    have hne : k ≠ w := fun heq => hk (heq ▸ hw)
    exact (spWord_modCore_write (s := t.drawWord.2) (f := fun c => c.writeWord w t.drawWord.1) rfl).2 k hne

/-- A core whose row has been put onto the next spare row of its bank. -/
def CoreSt.repaired (bank row : Nat) (lost : Bool) (used : Nat) (c : CoreSt) : CoreSt :=
  { c with reloadDue := c.reloadDue || lost,
           badWords := c.badWords.filter (fun w => !(rowWords bank row).contains w),
           rowMap := Tab.insert c.rowMap (bank * 512 + row) used,
           spareRows := Tab.insert c.spareRows bank (used + 1),
           corrWords := c.corrWords.filter (fun e => !(rowWords bank row).contains e.1) }

theorem repairRow_refused {s : State} {n bank row : Nat}
    (h : (s.core n).seq ∉ [Seq.test, .idle, .faulted] ∨ rowNeedsRepair (s.core n) bank row = false) : repairRow n bank row s = s := by
  refine if_pos ?_
  rcases h with h | h
  · have hseq : ¬ ((s.core n).seq = .test ∨ (s.core n).seq = .idle ∨ (s.core n).seq = .faulted) := by simpa using h
    simp [hseq]
  · simp [h]

section Repair

variable {s : State} {n bank row : Nat} (hseq : (s.core n).seq ∈ [Seq.test, .idle, .faulted])
  (hneed : rowNeedsRepair (s.core n) bank row = true)
include hseq hneed

theorem repairRow_taken : repairRow n bank row s =
    if 8 ≤ Tab.get (s.core n).spareRows 0 bank then retireCore n s
    else
      let lost := (rowWords bank row).any ((s.core n).badWords.contains ·)
      let r := if lost then loseRow n bank row s else s
      firmwareRecord 0x0080 (n * 32768 + bank * 512 + row) []
        (r.modCore n (fun c => c.repaired bank row lost (Tab.get c.spareRows 0 bank))) := by
  have hin : (s.core n).seq = .test ∨ (s.core n).seq = .idle ∨ (s.core n).seq = .faulted := by simpa using hseq
  unfold repairRow
  dsimp only
  rw [if_neg (by simp [hin, hneed])]
  rfl

/-- A repaired row stands on the next spare row; nothing outside it changes, and it keeps its words unless an error had lost them. -/
theorem repairRow_repairs (hspare : Tab.get (s.core n).spareRows 0 bank < 8) :
    let t := repairRow n bank row s
    t.ctl = s.ctl ∧ Tab.find (t.core n).rowMap (bank * 512 + row) = some (Tab.get (s.core n).spareRows 0 bank) ∧
      Tab.get (t.core n).spareRows 0 bank = Tab.get (s.core n).spareRows 0 bank + 1 ∧
      (∀ w, w ∉ rowWords bank row → t.spWord n w = s.spWord n w) ∧
      ((∀ w ∈ rowWords bank row, w ∉ (s.core n).badWords) → SameMemory s t) ∧
      (∀ w ∈ rowWords bank row, Tab.find (t.core n).corrWords w = none) ∧ OtherCores n s t := by
  intro t
  have heq : t = _ := repairRow_taken hseq hneed
  rw [if_neg (Nat.not_le.mpr hspare)] at heq
  dsimp only at heq
  have hlost : LosesWords n (rowWords bank row) s
      (if (rowWords bank row).any ((s.core n).badWords.contains ·) then loseRow n bank row s else s) := by
    split
    · exact loseRow_losesWords n bank row s
    · exact .refl _ _ s
  have hkept : (∀ w ∈ rowWords bank row, w ∉ (s.core n).badWords) →
      (if (rowWords bank row).any ((s.core n).badWords.contains ·) then loseRow n bank row s else s) = s := by
    intro h
    refine if_neg ?_
    simpa using h
  generalize (if (rowWords bank row).any ((s.core n).badWords.contains ·) then loseRow n bank row s else s) = r at heq hlost hkept
  obtain ⟨sp, poison, hcore⟩ := hlost.core
  have ht : t.core n = (r.core n).repaired bank row ((rowWords bank row).any ((s.core n).badWords.contains ·))
      (Tab.get (r.core n).spareRows 0 bank) := by
    rw [heq]
    exact State.core_modCore_self _ _ _
  have hsp : ∀ w, t.spWord n w = r.spWord n w := fun w => by
    unfold State.spWord
    rw [ht]
    rfl
  have hothers : OtherCores n r t := by
    rw [heq]
    exact modCore_otherCores n _ r
  rw [hcore] at ht
  refine ⟨?_, ?_, ?_, fun w hw => (hsp w).trans (hlost.words w hw), fun h => ?_, fun w hw => ?_, hlost.others.trans hothers⟩
  · rw [heq]
    exact (congrArg State.ctl hlost.frame).trans rfl
  · rw [ht]
    exact Tab.find_insert_self _ _ _
  · rw [ht]
    exact Tab.get_insert_self _ _ _ _
  · rw [heq, hkept h]
    exact modCore_sameMemory n s
  · rw [ht]
    exact Tab.find_filter_none (fun v => by simpa using hw) _

end Repair

/-- A core that leaves service is RETIRED, and no command comes to wait inside the device. -/
theorem retireCore_retires (n : Nat) (s : State) : ((retireCore n s).core n).pool = .retired ∧ Steady s (retireCore n s) := by
  unfold retireCore
  split
  · next h => exact ⟨h, .refl s⟩
  · dsimp only
    generalize hs1 : s.modCore n _ = s1
    have hout : (s1.core n).pool = .retired ∧ Steady s s1 := by
      rw [← hs1, State.core_modCore_self]
      exact ⟨rfl, modCore_steady n _ s⟩
    have hsent : ∀ hs : List W64, KeepsSent s1 (recordRetirement n (forEach hs forceFree s1)) := fun hs =>
      (KeepsSent.forEach hs forceFree_keepsSent s1).trans (.of_eq rfl rfl)
    have hsteady : ∀ hs : List W64, Steady s1 (recordRetirement n (forEach hs forceFree s1)) := fun hs =>
      (forceFrees_steady hs s1).trans (.of_watched rfl)
    generalize hs2 : recordRetirement n _ = s2
    have hsent2 : KeepsSent s1 s2 := hs2 ▸ hsent _
    have hsteady2 : Steady s1 s2 := hs2 ▸ hsteady _
    generalize hs4 : forEach _ _ (wantReplacement (s2.slotsOn n) s2) = s4
    have hsent4 : KeepsSent s2 s4 := by
      rw [← hs4]
      exact KeepsSent.trans (t := wantReplacement (s2.slotsOn n) s2) (.of_eq rfl rfl)
        (.forEach _ (fun id t => loseStages_keepsSent id _ _ t) _)
    have hsteady4 : Steady s2 s4 := by
      rw [← hs4]
      exact (wantReplacement_steady _ s2).trans (.forEach _ (fun id t => loseStages_steady id _ _ t) _)
    have hretired : (s4.core n).pool = .retired := ((hsent2.trans hsent4).pool n).trans hout.1
    obtain ⟨-, hcores, -⟩ := checkSpares_effect s.spares.length (rebalance s4)
    refine ⟨?_, hout.2.trans (hsteady2.trans (hsteady4.trans ((rebalance_steady s4).trans (checkSpares_steady _ _))))⟩
    rw [core_of_cores hcores]
    rcases (rebalance_effect s4).2.2 n with h | h
    · exact h.trans hretired
    · rw [hretired] at h
      cases h.1

/-! ### The commands -/

theorem scratchpadRead_completes {s : State} {n : CoreNum} {w : Nat} (h : (s.core n.val).run.isSome = true → w < 0x7C000) {up : Upset}
    {t : State} {P : State → Prop} (heq : localRead n w up s = t) (hP : P t) : Completes (.scratchpadAccess n (.read w) up) s P := by
  refine ⟨t, congrArg Host.Outcome.next ?_, hP⟩
  have hnot : ¬ ((s.core n.val).run.isSome && decide (0x7C000 ≤ w)) = true := by
    rw [Bool.and_eq_true, decide_eq_true_eq]
    exact fun ⟨hrun, hw⟩ => absurd (h hrun) (Nat.not_lt.mpr hw)
  exact (if_neg hnot).trans heq

theorem rowRepair_completes {s : State} {n : CoreNum} {bank : Fin 64} {row : Fin 512} (hwait : NoneWaits s) {t : State} {P : State → Prop}
    (heq : repairRow n.val bank.val row.val s = t) (hwaiting : s.ctl.waiting = [] → t.ctl.waiting = [])
    (hfences : s.ctl.fences = [] → t.ctl.fences = []) (hP : P t) : Completes (.rowRepair n bank row) s P :=
  ⟨t, congrArg Host.Outcome.next ((congrArg settle heq).trans (settle_none (hwaiting hwait.1) (hfences hwait.2))), hP⟩

/-- Settles O56: reads, writes, scrubs and repairs, as the lemmas on the bank's reads and on rows above say. -/
theorem scratchpadAccessesAndRepairsComplete : Obligations.ScratchpadAccessesAndRepairsComplete := by
  unfold Obligations.ScratchpadAccessesAndRepairsComplete
  refine ⟨fun s n w hinj hw => ⟨fun v up hbuf => ?_, fun v up hbuf => ?_, fun hbuf => ⟨fun h => ?_, fun h => ?_, ?_, ?_⟩⟩,
    fun s n w v up => ⟨⟨_, rfl, modCore_writeWord n.val w v s⟩, fun h => ⟨_, rfl, unitWrite_held h w v⟩,
      fun hrun hstop => ⟨fun h => ?_, fun h => ?_⟩⟩,
    fun s n w hinj => ⟨⟨_, rfl, scrubWord_clean hinj w⟩, ?_, ?_⟩,
    fun s n bank row hwait => ⟨fun h => rowRepair_completes hwait (repairRow_refused h) id id rfl,
      fun hseq hneed => ⟨fun h => ?_, fun h => ?_⟩⟩⟩
  · exact scratchpadRead_completes hw (localRead_buffered hbuf up) ⟨Sends.emit s _, rfl⟩
  · exact scratchpadRead_completes hw (localRead_bufferedPoison hbuf up) (poisonedRead_effect n.val s)
  · exact scratchpadRead_completes hw (localRead_clean hinj hbuf h) ⟨Sends.emit s _, rfl⟩
  · exact scratchpadRead_completes hw (localRead_cleanPoison hinj hbuf h) (poisonedRead_effect n.val s)
  · exact scratchpadRead_completes hw rfl (localRead_corrected hinj hbuf)
  · exact scratchpadRead_completes hw rfl (localRead_uncorrectable hinj hbuf)
  · refine ⟨_, congrArg Host.Outcome.next ((unitWrite_runs hrun hstop w v).trans (if_pos h)), modCore_writeWord n.val w v s⟩
  · obtain ⟨u, hu⟩ := Option.ne_none_iff_exists'.mp hrun
    obtain ⟨hnone, hfaulted, hbit, hmem⟩ := seqIllegal_effect hu
    exact ⟨_, congrArg Host.Outcome.next ((unitWrite_runs hrun hstop w v).trans (if_neg (by simp [h]))), hbit, hfaulted, hnone, hmem⟩
  · obtain ⟨hbit, hcount, -, hmem, hcores⟩ := bankRead_corrected_effect hinj w true
    exact ⟨_, congrArg Host.Outcome.next (scrubWord_corrected hinj w), hcount, hbit, hmem, hcores⟩
  · obtain ⟨hword, hpoison, hkept, hseq, hrun, -, hcores, -⟩ := bankRead_uncorrected_effect hinj w true
    exact ⟨_, congrArg Host.Outcome.next (scrubWord_uncorrectable hinj w), hword, hpoison, hkept, hseq, hrun,
      ⟨_, report_inbox _ _, rfl, rfl⟩, hcores⟩
  · obtain ⟨hretired, hsteady⟩ := retireCore_retires n.val s
    exact rowRepair_completes hwait ((repairRow_taken hseq hneed).trans (if_pos h)) hsteady.waiting hsteady.fences hretired
  · obtain ⟨hctl, hrepaired⟩ := repairRow_repairs hseq hneed h
    exact rowRepair_completes hwait rfl (fun hw => by rw [hctl]; exact hw) (fun hf => by rw [hctl]; exact hf) hrepaired

end Sys2Proof.Machine

/-! Remote writes at a core's write port (R126, R134 to R136, R148): what a write that is held back, refused or taken leaves behind, and
the slots of ING that its writes complete. -/

namespace Sys2Proof.Machine

open Sys2Proof

/-! ### What the writer's engine has noted when a write goes out (R82, R87, R190) -/

/-- The state once the engine has issued a write of `ws`. -/
def issuedWrite (a : Agent) (n w : Nat) (ws : List W32) (trailer : Bool) (s : State) : State :=
  paidTrailer a trailer (notePiece a n w ws trailer (countIssue a (queueOfWindow s n w) s))

/-- Before the unit has paid its trailer the engine has touched no more than the QMG and the pieces in progress. -/
theorem countedWrite_eq (a : Agent) (n w : Nat) (ws : List W32) (trailer : Bool) (q : Option Nat) (s : State) :
    ∃ qmg mesh, notePiece a n w ws trailer (countIssue a q s) = { s with qmg := qmg, mesh := mesh } := by
  unfold countIssue
  split
  · exact ⟨_, _, rfl⟩
  · exact ⟨s.qmg, _, rfl⟩

section Issued

variable (a : Agent) (n w : Nat) (ws : List W32) (trailer : Bool) (s : State)

theorem issuedWrite_eq : ∃ qmg mesh cores, issuedWrite a n w ws trailer s = { s with qmg := qmg, mesh := mesh, cores := cores } := by
  obtain ⟨qmg, mesh, hcounted⟩ := countedWrite_eq a n w ws trailer (queueOfWindow s n w) s
  unfold issuedWrite
  rw [hcounted]
  unfold paidTrailer
  split
  · split
    · exact ⟨_, _, _, rfl⟩
    · exact ⟨_, _, s.cores, rfl⟩
  · exact ⟨_, _, s.cores, rfl⟩

/-- Only the writing core's unit changes: a trailer that it owed is paid. -/
theorem core_issuedWrite (m : Nat) : (issuedWrite a n w ws trailer s).core m =
    if (∃ c : CoreNum, a = .core c ∧ m = c.val) ∧ trailer = true then
      { s.core m with run := (s.core m).run.map (fun u => { u with owesPiece := false }) }
    else s.core m := by
  obtain ⟨qmg, mesh, hcounted⟩ := countedWrite_eq a n w ws trailer (queueOfWindow s n w) s
  unfold issuedWrite
  rw [hcounted]
  unfold paidTrailer
  split
  · next c =>
    cases trailer with
    | false => rw [if_neg Bool.false_ne_true, if_neg (by simp)]; rfl
    | true =>
      rw [if_pos rfl, State.core_modCore]
      by_cases hm : m = c.val
      · rw [if_pos hm, if_pos ⟨⟨c, rfl, hm⟩, rfl⟩, hm]
        rfl
      · rw [if_neg hm, if_neg (fun ⟨⟨d, hd, hmd⟩, _⟩ => hm (by cases hd; exact hmd))]
        rfl
  · next hno =>
    rw [if_neg (fun ⟨⟨d, hd, _⟩, _⟩ => hno d hd)]
    rfl

theorem core_issuedWrite_run (m : Nat) : ∃ run, (issuedWrite a n w ws trailer s).core m = { s.core m with run := run } := by
  rw [core_issuedWrite]
  split
  · exact ⟨_, rfl⟩
  · exact ⟨_, rfl⟩

theorem core_issuedWrite_other {m : Nat} (h : trailer = false ∨ ∀ c : CoreNum, a = .core c → m ≠ c.val) :
    (issuedWrite a n w ws trailer s).core m = s.core m := by
  rw [core_issuedWrite, if_neg]
  rintro ⟨⟨c, hc, hm⟩, htrailer⟩
  rcases h with h | h
  · rw [h] at htrailer
    cases htrailer
  · exact h c hc hm

theorem core_issuedWrite_writer {c : CoreNum} (ha : a = .core c) (htrailer : trailer = true) :
    ((issuedWrite a n w ws trailer s).core c.val).run = (s.core c.val).run.map (fun u => { u with owesPiece := false }) := by
  rw [core_issuedWrite, if_pos ⟨⟨c, ha, rfl⟩, htrailer⟩]

theorem issuedWrite_sameMemory : SameMemory s (issuedWrite a n w ws trailer s) := by
  obtain ⟨qmg, mesh, cores, h⟩ := issuedWrite_eq a n w ws trailer s
  refine ⟨sameDram_of_eq (by rw [h]), fun m k => ?_⟩
  obtain ⟨run, hcore⟩ := core_issuedWrite_run a n w ws trailer s m
  unfold State.spWord
  rw [hcore]

end Issued

/-! ### The write port (R29, R134 to R136) -/

section Port

variable {s : State} {a : Agent} {n w gen addr : Nat} {data : List W32} {poison : List Nat} {trailer : Bool} {x : Window} {ws : List W32}
  (hx : (s.core n).window w = x) (hws : sentWords a n w data trailer s = ws)
include hx hws

theorem remoteWrite_held (h : writeGoes s a n w addr trailer ws.length x.part = false) :
    remoteWrite a n w gen addr data poison trailer s = s := by
  unfold remoteWrite
  dsimp only
  rw [hx, hws]
  exact if_pos (by simp [h])

variable (hgoes : writeGoes s a n w addr trailer ws.length x.part = true)
include hgoes

theorem remoteWrite_cutOff (h : s.unreachable n = true) :
    remoteWrite a n w gen addr data poison trailer s = (issuedWrite a n w ws trailer s).emit (.nack (agentUnit a)) := by
  unfold remoteWrite
  dsimp only
  rw [hx, hws, if_neg (by simp [hgoes]), if_pos h]
  rfl

variable (hreach : s.unreachable n = false)
include hreach

theorem remoteWrite_refused {reason : Nat} (h : refusedAt s x gen (writerPart s a x) addr ws.length = some reason) :
    remoteWrite a n w gen addr data poison trailer s = writerRefused a reason
      (((issuedWrite a n w ws trailer s).modCore n (fun c => c.modWindow w (·.refuse (agentUnit a) reason))).emit
        (.nack (agentUnit a))) := by
  unfold remoteWrite
  dsimp only
  rw [hx, hws, if_neg (by simp [hgoes]), if_neg (by simp [hreach]), h]
  rfl

theorem remoteWrite_taken (h : refusedAt s x gen (writerPart s a x) addr ws.length = none) :
    remoteWrite a n w gen addr data poison trailer s = (issuedWrite a n w ws trailer s).modCore n (fun c =>
      { c.modWindow w (·.count (beatCount addr ws.length) trailer) with
        wbuf := c.wbuf ++ (ws.zipIdx).map (fun d => (addr + d.2, d.1, !trailer && poison.contains d.2)) }) := by
  unfold remoteWrite
  dsimp only
  rw [hx, hws, if_neg (by simp [hgoes]), if_neg (by simp [hreach]), h]
  rfl

end Port

/-- What a core does about its refused write: its unit is flagged, SAFE told and its bit raised; no more of a core changes. -/
theorem writerRefused_effect (a : Agent) (reason : Nat) (s : State) :
    (∀ m, ∃ run, (writerRefused a reason s).core m = { s.core m with run := run }) ∧
      (writerRefused a reason s).dram = s.dram ∧ Grows s (writerRefused a reason s) ∧
      ∀ c, a = .core c → ((writerRefused a reason s).hdr (.core c.val)).errStat.getLsbD Bit.coreClosed = true := by
  unfold writerRefused
  split
  · next c =>
    refine ⟨fun m => ?_, by simp [flagUnit], ?_, fun d hd => ?_⟩
    · unfold flagUnit
      rw [State.core_modCore]
      split
      · next hm =>
        rw [core_report, core_raiseAt, hm]
        exact ⟨_, rfl⟩
      · rw [core_report, core_raiseAt]
        exact ⟨_, rfl⟩
    · exact ((raiseAt_keepsSent _ _ _ _ s).trans ((report_keepsSent _ _).trans (flagUnit_keepsSent _ _ _))).outs
    · cases hd
      exact raiseAt_sets _ _ _ _ s (by decide)
  · next hno => exact ⟨fun m => ⟨_, rfl⟩, rfl, .refl s, fun c hc => absurd hc (hno c)⟩

end Sys2Proof.Machine

/-! What a write of ING completes, and REMOTE_WRITE as a command (R19, R83, R134). -/

namespace Sys2Proof.Machine

open Sys2Proof

/-! ### Segments that ING pushes (R19, R79, R83) -/

/-- Nothing comes to wait inside the device, nothing sent is taken back, and neither DRAM nor a write buffer changes. -/
structure Pushes (s t : State) : Prop where
  steady : Steady s t
  sent : KeepsSent s t

theorem Pushes.refl (s : State) : Pushes s s := ⟨.refl s, .refl s⟩

theorem Pushes.trans {s t u : State} (h : Pushes s t) (k : Pushes t u) : Pushes s u := ⟨h.steady.trans k.steady, h.sent.trans k.sent⟩

theorem Pushes.forEach {α : Type} (xs : List α) {f : α → State → State} (h : ∀ x s, Pushes s (f x s)) (s : State) :
    Pushes s (forEach xs f s) :=
  forEach_inv (Pushes s) xs f (fun x _ ht => ht.trans (h x _)) s (.refl s)

theorem pushIngress_pushes (st : Stream) (id seq : Nat) (last : Bool) (stamp len : Nat) (crc : W32) (q : Nat) (h : W64) (s : State) :
    Pushes s (pushIngress st id seq last stamp len crc q h s) := by
  have hstamp : ∀ cause, Pushes s (stampBuffer h id seq stamp len cause crc s) := by
    intro cause
    unfold stampBuffer
    dsimp only
    exact ⟨modBuffer_steady _ _ _ s, modBuffer_keepsSent _ _ _ s⟩
  unfold pushIngress
  dsimp only
  split
  · exact (hstamp _).trans ⟨forceFree_steady _ _, forceFree_keepsSent _ _⟩
  · exact (hstamp _).trans ⟨push_steady _ _ _ _, push_keepsSent _ _ _ _⟩

theorem modLines_pushes (id : Nat) (f : List PendLine → List PendLine) (s : State) :
    Pushes s (s.modStream id (fun st => { st with lines := f st.lines })) :=
  ⟨modStream_steady s (fun _ _ => .of_eq rfl rfl rfl rfl), modStream_keepsSent id _ s⟩

theorem modLine_pushes (id seq : Nat) (f : PendLine → PendLine) (s : State) : Pushes s (modLine id seq f s) :=
  modLines_pushes id (List.map _) s

theorem forgetLine_pushes (id seq : Nat) (s : State) : Pushes s (forgetLine id seq s) := modLines_pushes id (List.filter _) s

theorem lineStamp_pushes (l : PendLine) (s : State) : Pushes s (lineStamp l s).2 := by
  unfold lineStamp
  split
  · exact .refl s
  · exact ⟨draw_steady _ s, .of_eq rfl rfl⟩

theorem pushSegments_pushes (id seq : Nat) (s : State) : Pushes s (pushSegments id seq s) := by
  unfold pushSegments
  split
  · exact .refl s
  · next st l _ =>
    have hstamp := lineStamp_pushes l s
    generalize lineStamp l s = stamped at hstamp ⊢
    obtain ⟨stamp, s0⟩ := stamped
    dsimp only at hstamp ⊢
    exact hstamp.trans ((modLine_pushes id seq _ s0).trans
      ((Pushes.forEach _ (fun h t => pushIngress_pushes _ _ _ _ _ _ _ _ _ t) _).trans (forgetLine_pushes id seq _)))

/-- ING's own write completes no more than segments of its line. -/
theorem pieceWritten_pushes {s : State} (hwait : NoneWaits s) (a : Agent) (n w : Nat) : Pushes s (pieceWritten a n w s) := by
  unfold pieceWritten
  split
  · split
    · next id seq _ =>
      have hpushes := pushSegments_pushes id seq s
      rw [settle_none (hpushes.steady.waiting hwait.1) (hpushes.steady.fences hwait.2)]
      exact hpushes
    · exact .refl s
  · exact .refl s

/-- A write of ING touches neither the QMG nor a stream. -/
theorem remoteWrite_ingress_tables (n w gen addr : Nat) (data : List W32) (poison : List Nat) (trailer : Bool) (s : State) :
    (remoteWrite .ingress n w gen addr data poison trailer s).qmg = s.qmg ∧
      (remoteWrite .ingress n w gen addr data poison trailer s).streams = s.streams ∧
      (remoteWrite .ingress n w gen addr data poison trailer s).ctl = s.ctl := by
  unfold remoteWrite
  dsimp only
  split
  · exact ⟨rfl, rfl, rfl⟩
  · split
    · exact ⟨rfl, rfl, rfl⟩
    · split
      · exact ⟨rfl, rfl, rfl⟩
      · exact ⟨rfl, rfl, rfl⟩

theorem itemOfWindow_of_tables {s t : State} (hqmg : t.qmg = s.qmg) (hstreams : t.streams = s.streams) (n w : Nat) :
    itemOfWindow t n w = itemOfWindow s n w := by
  unfold itemOfWindow poolOfWindow State.stream? State.buffer
  rw [hqmg, hstreams]

/-- A write that is no write of ING at a slot of its stream completes nothing. -/
theorem pieceWritten_remoteWrite {a : Agent} {n w : Nat} {s : State} (h : a ≠ .ingress ∨ itemOfWindow s n w = none)
    (gen addr : Nat) (data : List W32) (poison : List Nat) (trailer : Bool) :
    pieceWritten a n w (remoteWrite a n w gen addr data poison trailer s) = remoteWrite a n w gen addr data poison trailer s := by
  unfold pieceWritten
  split
  · obtain ⟨hqmg, hstreams, -⟩ := remoteWrite_ingress_tables n w gen addr data poison trailer s
    rw [itemOfWindow_of_tables hqmg hstreams, h.resolve_left (by simp)]
  · rfl

/-! ### The command -/

theorem remoteWrite_completes {a : Agent} {n : CoreNum} {w : Fin 256} {gen : Byte} {addr : Nat} {data : WriteBeat} {s t : State}
    {P : State → Prop} (ha : a ≠ .ingress ∨ itemOfWindow s n.val w.val = none)
    (h : remoteWrite a n.val w.val gen.toNat addr data.words data.poison data.trailer s = t) (hP : P t) :
    Completes (.remoteWrite a n w gen addr data) s P :=
  ⟨t, congrArg Host.Outcome.next ((pieceWritten_remoteWrite ha _ _ _ _ _).trans h), hP⟩

section Commands

variable {s : State} {a : Agent} {n : CoreNum} {w : Fin 256} {gen : Byte} {addr : Nat} {data : WriteBeat} {x : Window} {ws : List W32}
  (hx : (s.core n.val).window w.val = x) (hws : sentWords a n.val w.val data.words data.trailer s = ws)
  (hgoes : writeGoes s a n.val w.val addr data.trailer ws.length x.part = true)
include hx hws hgoes

theorem remoteWrite_cutOff_completes (ha : a ≠ .ingress ∨ itemOfWindow s n.val w.val = none) (h : s.unreachable n.val = true) :
    Completes (.remoteWrite a n w gen addr data) s (fun t =>
      Sends s t (.nack (agentUnit a)) ∧ (∀ m, (t.core m).wbuf = (s.core m).wbuf ∧ (t.core m).windows = (s.core m).windows) ∧
      SameMemory s t ∧ t = { s with outs := t.outs, qmg := t.qmg, mesh := t.mesh, cores := t.cores }) := by
  refine remoteWrite_completes ha (remoteWrite_cutOff hx hws hgoes h) ?_
  obtain ⟨qmg, mesh, cores, heq⟩ := issuedWrite_eq a n.val w.val ws data.trailer s
  refine ⟨.before (.of_eq (by rw [heq])) (Sends.emit _ _), fun m => ?_, (issuedWrite_sameMemory a n.val w.val ws data.trailer s).of_eq rfl rfl,
    by rw [heq]; rfl⟩
  obtain ⟨run, hcore⟩ := core_issuedWrite_run a n.val w.val ws data.trailer s m
  rw [State.emit_core, hcore]
  exact ⟨rfl, rfl⟩

variable (hreach : s.unreachable n.val = false)
include hreach

theorem remoteWrite_taken_completes (ha : a ≠ .ingress ∨ itemOfWindow s n.val w.val = none)
    (h : refusedAt s x gen.toNat (writerPart s a x) addr ws.length = none) :
    Completes (.remoteWrite a n w gen addr data) s (fun t =>
      t.core n.val = { (s.core n.val).modWindow w.val (fun x => x.count (beatCount addr ws.length) data.trailer) with
        wbuf := (s.core n.val).wbuf ++ (ws.zipIdx).map (fun d => (addr + d.2, d.1, !data.trailer && data.poison.contains d.2)),
        run := (t.core n.val).run } ∧
      (data.trailer = false ∨ a ≠ .core n → (t.core n.val).run = (s.core n.val).run) ∧
      (∀ c, a = .core c → data.trailer = true → (t.core c.val).run = (s.core c.val).run.map (fun u => { u with owesPiece := false })) ∧
      (∀ m, m ≠ n.val → (data.trailer = false ∨ ∀ c, a = .core c → m ≠ c.val) → t.core m = s.core m) ∧
      t = { s with cores := t.cores, qmg := t.qmg, mesh := t.mesh }) := by
  refine remoteWrite_completes ha (remoteWrite_taken hx hws hgoes hreach h) ?_
  have hother := fun m => core_issuedWrite_other (m := m) a n.val w.val ws data.trailer s
  have hwriter := fun c => core_issuedWrite_writer (c := c) a n.val w.val ws data.trailer s
  obtain ⟨qmg, mesh, cores, heq⟩ := issuedWrite_eq a n.val w.val ws data.trailer s
  obtain ⟨run, hcore⟩ := core_issuedWrite_run a n.val w.val ws data.trailer s n.val
  generalize issuedWrite a n.val w.val ws data.trailer s = r at hother hwriter heq hcore
  refine ⟨?_, fun hno => ?_, fun c hc htrailer => ?_, fun m hm hno => ?_, by rw [heq]; rfl⟩
  · rw [State.core_modCore_self, hcore]
    rfl
  · have hsame : r.core n.val = s.core n.val :=
      hother n.val (hno.imp_right (fun hne c hc hcn => hne (by rw [hc, Fin.ext hcn])))
    rw [State.core_modCore_self, ← hsame]
    rfl
  · by_cases hcn : c.val = n.val
    · rw [hcn, State.core_modCore_self, ← hcn, ← hwriter c hc htrailer]
      rfl
    · rw [State.core_modCore_ne _ _ hcn]
      exact hwriter c hc htrailer
  · rw [State.core_modCore_ne _ _ hm]
    exact hother m hno

theorem remoteWrite_refused_completes (ha : a ≠ .ingress ∨ itemOfWindow s n.val w.val = none) {reason : Nat}
    (h : refusedAt s x gen.toNat (writerPart s a x) addr ws.length = some reason) :
    Completes (.remoteWrite a n w gen addr data) s (fun t =>
      Sends s t (.nack (agentUnit a)) ∧ (t.core n.val).window w.val = x.refuse (agentUnit a) reason ∧
      (t.core n.val).wbuf = (s.core n.val).wbuf ∧ SameMemory s t ∧
      (∀ c, a = .core c → (t.hdr (.core c.val)).errStat.getLsbD Bit.coreClosed = true)) := by
  refine remoteWrite_completes ha (remoteWrite_refused hx hws hgoes hreach h) ?_
  have hmem := issuedWrite_sameMemory a n.val w.val ws data.trailer s
  obtain ⟨qmg, mesh, cores, heq⟩ := issuedWrite_eq a n.val w.val ws data.trailer s
  obtain ⟨run, hcore⟩ := core_issuedWrite_run a n.val w.val ws data.trailer s n.val
  have houts : Grows s (issuedWrite a n.val w.val ws data.trailer s) := .of_eq (by rw [heq])
  generalize issuedWrite a n.val w.val ws data.trailer s = r at hmem hcore houts
  have hmem' := hmem.trans (modCore_sameMemory n.val (f := fun c => c.modWindow w.val (·.refuse (agentUnit a) reason)) r)
  have hcore' : (r.modCore n.val (fun c => c.modWindow w.val (·.refuse (agentUnit a) reason))).core n.val = _ := State.core_modCore_self _ _ _
  have houts' : Grows s (r.modCore n.val (fun c => c.modWindow w.val (·.refuse (agentUnit a) reason))) := houts.trans (.of_eq rfl)
  rw [hcore] at hcore'
  generalize r.modCore n.val (fun c => c.modWindow w.val (·.refuse (agentUnit a) reason)) = v at hmem' hcore' houts'
  obtain ⟨hrun, hdram, hgrows, hbit⟩ := writerRefused_effect a reason (v.emit (.nack (agentUnit a)))
  obtain ⟨run', hcoren⟩ := hrun n.val
  refine ⟨.after (.before houts' (Sends.emit v _)) hgrows, ?_, ?_,
    ⟨fun b => (dramByte_of_dram hdram b).trans (hmem'.1 b), fun m k => ?_⟩, hbit⟩
  · rw [hcoren, State.emit_core, hcore', ← hx]
    exact Tab.get_insert_self _ _ _ _
  · rw [hcoren, State.emit_core, hcore']
    rfl
  · obtain ⟨runm, hcorem⟩ := hrun m
    refine Eq.trans ?_ (hmem'.2 m k)
    unfold State.spWord
    rw [hcorem]
    rfl

/-- A write of ING that is taken enters the write buffer, whatever segment it completes. -/
theorem remoteWrite_ingress_completes (ha : a = .ingress) (hwait : NoneWaits s)
    (h : refusedAt s x gen.toNat (writerPart s a x) addr ws.length = none) :
    Completes (.remoteWrite a n w gen addr data) s (fun t =>
      (t.core n.val).wbuf = (s.core n.val).wbuf ++
        (ws.zipIdx).map (fun d => (addr + d.2, d.1, !data.trailer && data.poison.contains d.2)) ∧ SameDram s t) := by
  have htaken := remoteWrite_taken (poison := data.poison) hx hws hgoes hreach h
  have hctl : (remoteWrite a n.val w.val gen.toNat addr data.words data.poison data.trailer s).ctl = s.ctl := by
    rw [ha]
    exact (remoteWrite_ingress_tables _ _ _ _ _ _ _ s).2.2
  obtain ⟨hsteady, hsent⟩ := pieceWritten_pushes
    (s := remoteWrite a n.val w.val gen.toNat addr data.words data.poison data.trailer s) (by rwa [NoneWaits, hctl]) a n.val w.val
  refine ⟨_, rfl, ?_, ?_⟩
  · obtain ⟨run, hcore⟩ := core_issuedWrite_run a n.val w.val ws data.trailer s n.val
    rw [hsent.wbuf, htaken, State.core_modCore_self, hcore]
  · refine sameDram_of_eq (hsteady.dram.trans ?_)
    obtain ⟨qmg, mesh, cores, heq⟩ := issuedWrite_eq a n.val w.val ws data.trailer s
    rw [htaken, heq]
    rfl

end Commands

end Sys2Proof.Machine

/-! The return of transfers (R82, R83, R126, R138, R173, R190): the counts of a queue, the data that a read brings, and the verdict on a
piece. -/

namespace Sys2Proof.Machine

open Sys2Proof

/-! ### Transfers that end (R190 to R192) -/

/-- Between `s` and `t` only the QMG changes, and neither its buffers nor its pools. -/
structure EndsTransfer (s t : State) : Prop where
  frame : t = { s with qmg := t.qmg }
  buffers : t.qmg.buffers = s.qmg.buffers
  pools : t.qmg.pools = s.qmg.pools

theorem EndsTransfer.refl (s : State) : EndsTransfer s s := ⟨rfl, rfl, rfl⟩

theorem EndsTransfer.trans {s t u : State} (h : EndsTransfer s t) (k : EndsTransfer t u) : EndsTransfer s u :=
  ⟨by rw [k.frame, h.frame], k.buffers.trans h.buffers, k.pools.trans h.pools⟩

theorem issueFetch_endsTransfer (f : Fetch) (s : State) : EndsTransfer s (issueFetch f s) := by
  have hissue : ∀ (c n : Nat) (h : Option W64) (t : State), EndsTransfer t (issueTransfer c n h t) := fun _ _ _ _ => ⟨rfl, rfl, rfl⟩
  unfold issueFetch
  dsimp only
  exact (forEach_inv (EndsTransfer s) _ _ (fun _ t ht => ht.trans (hissue _ _ _ t)) s (.refl s)).trans ⟨rfl, rfl, rfl⟩

theorem issueFetches_endsTransfer (n : Nat) (s : State) : EndsTransfer s (issueFetches n s) := by
  have hfirst : EndsTransfer s (s.modQmg (fun m => { m with fetches := m.fetches.filter (fun f => f.queue != n) })) := ⟨rfl, rfl, rfl⟩
  unfold issueFetches
  exact hfirst.trans (forEach_inv (EndsTransfer _) _ _ (fun f t ht => ht.trans (issueFetch_endsTransfer f t)) _ (.refl _))

theorem issueFetches_none {n : Nat} {s : State} (h : ∀ f ∈ s.qmg.fetches, f.queue ≠ n) : issueFetches n s = s := by
  have hrest : s.qmg.fetches.filter (fun f => f.queue != n) = s.qmg.fetches := List.filter_eq_self.mpr (by simpa using h)
  have hnone : s.qmg.fetches.filter (fun f => f.queue == n) = [] := List.filter_eq_nil_iff.mpr (by simpa using h)
  calc issueFetches n s = s.modQmg (fun m => { m with fetches := m.fetches.filter (fun f => f.queue != n) }) := by
        unfold issueFetches
        rw [hnone]
        rfl
    _ = s := by
        unfold State.modQmg
        dsimp only
        rw [hrest]

/-- The counts once a transfer has returned, before a fetch goes on. -/
def countedDown (x : Xfer) (s : State) : State :=
  (s.modQueue x.queue (fun q => { q with outCount := q.outCount - 1 })).modQmg (fun m =>
    { m with transfers := m.transfers.erase x
             epochs := Tab.modify m.epochs x.epoch (fun e => { e with outstanding := e.outstanding - 1 }) })

theorem endTransfer_eq (x : Xfer) (s : State) : endTransfer x s = issueFetches x.queue (countedDown x s) := rfl

theorem endTransfer_ends (x : Xfer) (s : State) : EndsTransfer s (endTransfer x s) := by
  have hcounted : EndsTransfer s (countedDown x s) := ⟨rfl, rfl, rfl⟩
  exact hcounted.trans (issueFetches_endsTransfer _ _)

theorem endRead_ends (n q : Nat) (h : W64) (s : State) : EndsTransfer s (endRead n q h s) := by
  unfold endRead
  split
  · exact endTransfer_ends _ s
  · exact .refl s

theorem endWrite_none {s : State} {n q : Nat} (h : ∀ x ∈ s.qmg.transfers, ¬ (x.core = n ∧ x.queue = q)) : endWrite n q s = s := by
  have hnone : ∀ p : Xfer → Bool, (∀ x, p x = true → x.core = n ∧ x.queue = q) → s.qmg.transfers.find? p = none := by
    intro p hp
    rw [List.find?_eq_none]
    exact fun x hx hpx => h x hx (hp x hpx)
  unfold endWrite
  rw [hnone _ (by simp +contextual), hnone _ (by simp)]

theorem endWrite_some {s : State} {n q : Nat} {x : Xfer}
    (h : (s.qmg.transfers.find? (fun x => x.core == n && x.queue == q && x.handle.isNone)).or
      (s.qmg.transfers.find? (fun x => x.core == n && x.queue == q)) = some x) :
    endWrite n q s = endTransfer x s ∧ x.queue = q := by
  unfold endWrite
  cases hfirst : s.qmg.transfers.find? (fun x => x.core == n && x.queue == q && x.handle.isNone) with
  | some y =>
    rw [hfirst, Option.some_or] at h
    cases h
    have hy := List.find?_some hfirst
    exact ⟨rfl, by simp at hy; exact hy.1.2⟩
  | none =>
    rw [hfirst, Option.none_or] at h
    rw [h]
    have hx := List.find?_some h
    exact ⟨rfl, by simp at hx; exact hx.2⟩

/-- A transfer that no fetch waits for counts down the transfers of its queue. -/
theorem endTransfer_effect {s : State} {x : Xfer} {q : Nat} (hq : x.queue = q) (h : ∀ f ∈ s.qmg.fetches, f.queue ≠ q) :
    ((endTransfer x s).queue q).outCount = (s.queue q).outCount - 1 ∧ (∀ k, k ≠ q → (endTransfer x s).queue k = s.queue k) ∧
      (endTransfer x s).qmg.transfers = s.qmg.transfers.erase x ∧ endTransfer x s = { s with qmg := (endTransfer x s).qmg } := by
  subst hq
  rw [endTransfer_eq, issueFetches_none (s := countedDown x s) h]
  refine ⟨?_, fun k hk => ?_, rfl, rfl⟩
  · exact congrArg Queue.outCount (State.queue_modQueue_self s x.queue (fun q => { q with outCount := q.outCount - 1 }))
  · exact State.queue_modQueue_ne s (fun q => { q with outCount := q.outCount - 1 }) hk

section Ended

variable {s t : State} (h : EndsTransfer s t)
include h

theorem EndsTransfer.buffer (p i : Nat) : t.buffer p i = s.buffer p i := by
  unfold State.buffer
  rw [h.buffers]

theorem EndsTransfer.cores : t.cores = s.cores := by rw [h.frame]

theorem EndsTransfer.core (n : Nat) : t.core n = s.core n := core_of_cores h.cores n

theorem EndsTransfer.sameMemory : SameMemory s t := sameMemory_of_eq (by rw [h.frame]) h.cores

theorem EndsTransfer.holderOf (n : Nat) (x : W64) : holderOf t n x = Machine.holderOf s n x := by
  unfold Machine.holderOf
  rw [h.core]

end Ended

/-! ### Malformed units (R65, R130) -/

/-- A unit program that is malformed leaves no unit on its core, whether one ran or not. -/
theorem seqIllegal_stops (c : CoreNum) (s : State) : ((seqIllegal c s).core c.val).run = none ∧
    ((seqIllegal c s).hdr (.core c)).errStat.getLsbD Bit.coreIllegal = true ∧ SameMemory s (seqIllegal c s) := by
  cases hrun : (s.core c.val).run with
  | some u =>
    obtain ⟨hnone, -, hbit, hmem⟩ := seqIllegal_effect hrun
    exact ⟨hnone, hbit, hmem⟩
  | none =>
    have hidle : ((raise (.core c.val) Bit.coreIllegal s).core c.val).run = none := by rw [core_raise]; exact hrun
    have hbit := raise_sets (.core c.val) Bit.coreIllegal s (by decide)
    have hmem : SameMemory s (raise (.core c.val) Bit.coreIllegal s) := sameMemory_of_eq (by simp) (by simp)
    unfold seqIllegal faultStop
    generalize raise (.core c.val) Bit.coreIllegal s = r at hidle hbit hmem
    rw [hidle]
    dsimp only
    unfold stallStop
    split
    · exact ⟨hidle, hbit, hmem⟩
    · have hkeeps : KeepsWords r (report { coreEv r c.val Cause.faultStop Bit.coreIllegal with reason := 0, counted := false }
          ((dropWaits c.val r).modCore c.val (fun k => { k.closeAll with seq := .faulted, faultCause := Cause.faultStop }))) :=
        (dropWaits_keepsWords c.val r).trans ((modCore_keepsWords c.val _).trans (report_keepsWords _ _))
      refine ⟨?_, hbit, hmem.trans (hkeeps.sameMemory rfl)⟩
      rw [core_report, State.core_modCore_self]
      exact hidle

theorem seqIllegal_steady (c : CoreNum) (s : State) : Steady s (seqIllegal c s) :=
  (raise_steady _ _ s).trans (faultStop_steady _ _ _ _ _ _)

/-! ### What a read finds (R138, R139, R173, R248) -/

/-- A core whose units carry other flags, or whose engine keeps other bytes of what it reads. -/
def CoreSt.noted (c : CoreSt) (ready : List UnitInst) (run : Option UnitInst) (reading : List (W64 × List Byte)) : CoreSt :=
  { c with ready := ready, run := run, reading := reading }

/-- Between `s` and `t` what a read finds has been noted: of a core only units and what its engine keeps, and neither what waits inside
the device nor DRAM. -/
structure NotesRead (s t : State) : Prop where
  ctl : t.ctl = s.ctl
  dram : t.dram = s.dram
  core : ∀ n, ∃ ready run reading, t.core n = (s.core n).noted ready run reading

theorem NotesRead.of_cores {s t : State} (hcores : t.cores = s.cores) (hctl : t.ctl = s.ctl) (hdram : t.dram = s.dram) : NotesRead s t :=
  ⟨hctl, hdram, fun n => ⟨(s.core n).ready, (s.core n).run, (s.core n).reading, core_of_cores hcores n⟩⟩

theorem NotesRead.trans {s t u : State} (h : NotesRead s t) (k : NotesRead t u) : NotesRead s u where
  ctl := k.ctl.trans h.ctl
  dram := k.dram.trans h.dram
  core n := by
    obtain ⟨a, b, c, hcore⟩ := h.core n
    obtain ⟨a', b', c', kcore⟩ := k.core n
    exact ⟨a', b', c', by rw [kcore, hcore]; rfl⟩

theorem modCore_notesRead (n : Nat) {f : CoreSt → CoreSt} (s : State) (h : ∀ c, ∃ ready run reading, f c = c.noted ready run reading) :
    NotesRead s (s.modCore n f) := by
  refine ⟨rfl, rfl, fun m => ?_⟩
  rw [State.core_modCore]
  split
  · next hm =>
    subst hm
    exact h _
  · exact ⟨_, _, _, rfl⟩

theorem NotesRead.sameMemory {s t : State} (h : NotesRead s t) : SameMemory s t := by
  refine ⟨sameDram_of_eq h.dram, fun n w => ?_⟩
  obtain ⟨a, b, c, hcore⟩ := h.core n
  unfold State.spWord
  rw [hcore]
  rfl

theorem NotesRead.wbuf {s t : State} (h : NotesRead s t) (n : Nat) : (t.core n).wbuf = (s.core n).wbuf := by
  obtain ⟨a, b, c, hcore⟩ := h.core n
  rw [hcore]
  rfl

theorem NotesRead.inWorking {s t : State} (h : NotesRead s t) (n w k : Nat) : (t.core n).inWorking w k = (s.core n).inWorking w k := by
  obtain ⟨a, b, c, hcore⟩ := h.core n
  rw [hcore]
  rfl

theorem emit_notesRead (o : Out) (s : State) : NotesRead s (s.emit o) := .of_cores rfl rfl rfl

theorem flagHolder_notesRead (n : Nat) (h : W64) (cause : Nat) (s : State) : NotesRead s (flagHolder n h cause s) := by
  refine modCore_notesRead n s (fun c => ?_)
  split
  · exact ⟨_, c.run, c.reading, rfl⟩
  · exact ⟨c.ready, _, c.reading, rfl⟩

theorem keepRead_notesRead (n : Nat) (h : W64) (b : Buffer) (more : List Byte) (s : State) : NotesRead s (keepRead n h b more s) :=
  modCore_notesRead n s (fun c => ⟨c.ready, c.run, _, rfl⟩)

theorem checkEvent_notesRead (n : Nat) (u : Option UnitInst) (cause : Nat) (s : State) : NotesRead s (checkEvent n u cause s) :=
  .of_cores rfl rfl rfl

theorem staleRead_notesRead (n : Nat) (u : Option UnitInst) (s : State) : NotesRead s (staleRead n u s) :=
  .of_cores (by simp [staleRead]) (by simp [staleRead]) (by simp [staleRead])

theorem refreshHeld_notesRead (s : State) : NotesRead s (refreshHeld s) := by
  unfold refreshHeld
  split
  · exact .of_cores rfl rfl rfl
  · exact .of_cores rfl rfl rfl

/-- An adaptation job that is held changes no core. -/
theorem holdJob_notesRead (id k : Nat) (s : State) : NotesRead s (holdJob id k s) := by
  unfold holdJob
  split
  · exact .of_cores rfl rfl rfl
  · split
    · exact .of_cores rfl rfl rfl
    · dsimp only
      generalize hs1 : (s.modStream id _).modPpe _ = s1
      have hfirst : NotesRead s s1 := hs1 ▸ .of_cores rfl rfl rfl
      exact (hfirst.trans (refreshHeld_notesRead s1)).trans
        (.of_cores (by simp [modEpoch]) (by simp [modEpoch]) (by simp [modEpoch]))

theorem readCheckFailed_notesRead (n : Nat) (h : W64) (cause : Nat) (s : State) : NotesRead s (readCheckFailed n h cause s) := by
  unfold readCheckFailed
  dsimp only
  split
  · exact (checkEvent_notesRead n _ cause s).trans (holdJob_notesRead _ _ _)
  · exact (checkEvent_notesRead n _ cause s).trans (flagHolder_notesRead n h cause _)

theorem checkRead_notesRead (n : Nat) (h : W64) (data : List W32) (poisoned : Bool) (s : State) :
    NotesRead s (checkRead n h data poisoned s) := by
  unfold checkRead
  dsimp only
  split
  · exact (emit_notesRead _ s).trans ((staleRead_notesRead n _ _).trans (flagHolder_notesRead n h _ _))
  · split
    · exact (keepRead_notesRead n h _ _ s).trans (readCheckFailed_notesRead n h _ _)
    · split
      · exact (keepRead_notesRead n h _ _ s).trans (flagHolder_notesRead n h _ _)
      · exact keepRead_notesRead n h _ _ s

end Sys2Proof.Machine

/-! TRANSFER_COMPLETE (R82, R83, R126, R138, R173, R190): the data of a read as they land, and the verdict on a piece. -/

namespace Sys2Proof.Machine

open Sys2Proof Sys2Proof.Machine.Bits

theorem NoneWaits.of_ctl {s t : State} (h : NoneWaits s) (hctl : t.ctl = s.ctl) : NoneWaits t := by
  unfold NoneWaits
  rw [hctl]
  exact h

theorem NoneWaits.of_steady {s t : State} (h : NoneWaits s) (hsteady : Steady s t) : NoneWaits t :=
  ⟨hsteady.waiting h.1, hsteady.fences h.2⟩

theorem transferComplete_completes {s t : State} {n : CoreNum} {q : QueueNum} {r : XferResult} {P : State → Prop}
    (h : transferReturns n q.val r s = t) (hwait : NoneWaits t) (hP : P t) : Completes (.transferComplete n q r) s P :=
  ⟨t, congrArg Host.Outcome.next ((congrArg settle h).trans (settle_none hwait.1 hwait.2)), hP⟩

/-! ### Writes, and reads that bring no data (R190) -/

section EndWrite

variable {s : State} {n : CoreNum} {q : QueueNum} (hwait : NoneWaits s) {r : XferResult} (hr : r ∈ [XferResult.done, .nack])
include hwait hr

omit hwait in
theorem transferReturns_endWrite : transferReturns n q.val r s = endWrite n.val q.val s := by
  simp only [List.mem_cons, List.not_mem_nil, or_false] at hr
  rcases hr with rfl | rfl <;> rfl

theorem transferComplete_none (h : ∀ x ∈ s.qmg.transfers, ¬ (x.core = n.val ∧ x.queue = q.val)) :
    Completes (.transferComplete n q r) s (fun t => t = s) :=
  transferComplete_completes ((transferReturns_endWrite hr).trans (endWrite_none h)) hwait rfl

theorem transferComplete_counts {x : Xfer}
    (h : (s.qmg.transfers.find? (fun x => x.core == n.val && x.queue == q.val && x.handle.isNone)).or
      (s.qmg.transfers.find? (fun x => x.core == n.val && x.queue == q.val)) = some x)
    (hfetches : ∀ f ∈ s.qmg.fetches, f.queue ≠ q.val) :
    Completes (.transferComplete n q r) s (fun t =>
      (t.queue q.val).outCount = (s.queue q.val).outCount - 1 ∧ (∀ k, k ≠ q.val → t.queue k = s.queue k) ∧
      t.qmg.transfers = s.qmg.transfers.erase x ∧ t = { s with qmg := t.qmg }) := by
  obtain ⟨hend, hq⟩ := endWrite_some h
  obtain ⟨hcount, hothers, htransfers, hframe⟩ := endTransfer_effect hq hfetches
  exact transferComplete_completes ((transferReturns_endWrite hr).trans hend) (hwait.of_ctl (by rw [hframe]))
    ⟨hcount, hothers, htransfers, hframe⟩

end EndWrite

/-! ### What a read finds (R138, R173) -/

@[simp] theorem readWords_length (s : State) (h : W64) (data : List W32) (poison : List Nat) :
    (readWords s h data poison).length = data.length := by
  unfold readWords
  dsimp only
  split <;> simp

/-- The words of a current read without poison land as they are. -/
theorem readWords_sound {s : State} {h : W64} (hgen : (ofHandle h).gen = (s.buffer (ofHandle h).pool (ofHandle h).index).gen)
    (data : List W32) : readWords s h data [] = data.map (fun v => (v, false)) := by
  have hmap : (data.zipIdx).map (fun d => (d.1, false)) = data.map (fun v => (v, false)) :=
    (List.map_map (f := Prod.fst) (g := fun v : W32 => (v, false))).symm.trans (by rw [List.zipIdx_map_fst])
  unfold readWords
  dsimp only
  rw [if_neg (by simp [hgen])]
  simpa using hmap

section CheckRead

variable {s : State} {h : W64} (n : Nat) (data : List W32)

theorem checkRead_stale (hgen : (ofHandle h).gen ≠ (s.buffer (ofHandle h).pool (ofHandle h).index).gen) (poisoned : Bool) :
    checkRead n h data poisoned s =
      flagHolder n h Cause.staleHandle (staleRead n (holderOf s n h) (s.emit (.data n [poisonWord] true))) :=
  if_pos hgen

theorem checkRead_sound {b : Buffer} (hb : s.buffer (ofHandle h).pool (ofHandle h).index = b) (hgen : (ofHandle h).gen = b.gen)
    (hgood : dataBad (ofHandle h) b ((s.core n).got h) (bytesOf data) = false) :
    checkRead n h data false s = keepRead n h b (bytesOf data) s := by
  unfold checkRead
  dsimp only
  rw [hb, if_neg (by simp [hgen]), if_neg (by simp [hgood]), if_neg Bool.false_ne_true]

end CheckRead

/-- A read through a stale handle raises the bit of its core, and SAFE is told. -/
theorem staleRead_effect (n : Nat) (u : Option UnitInst) (s : State) :
    ((staleRead n u s).hdr (.core n)).errStat.getLsbD Bit.coreStale = true ∧
      (∃ e, (staleRead n u s).safe.inbox = s.safe.inbox ++ [e] ∧ e.cause = Cause.staleHandle) ∧ (staleRead n u s).cores = s.cores ∧
      (staleRead n u s).dram = s.dram := by
  unfold staleRead
  refine ⟨raiseAt_sets _ _ _ _ s (by decide), ⟨_, congrArg (· ++ _) (congrArg Safe.inbox (by simp)), ?_⟩, by simp, by simp⟩
  cases u <;> rfl

/-! ### Data that return (R29, R126, R128, R154, R197) -/

section DataReturns

variable {s : State} {n : CoreNum} {q : QueueNum} (hwait : NoneWaits s) (h : W64) (dest : Nat) (data : List W32) (poison : List Nat)

section Cancelled

variable (hcancelled : s.epochCancelled (readEpoch s n.val q.val h) = true)
include hwait hcancelled

theorem transferComplete_sunk :
    Completes (.transferComplete n q (.read h dest data poison)) s (fun t => t = { s with qmg := t.qmg }) := by
  have hends := endRead_ends n.val q.val h s
  exact transferComplete_completes (t := endRead n.val q.val h s) (if_pos hcancelled) (hwait.of_ctl (by rw [hends.frame])) hends.frame

end Cancelled

variable (hlive : s.epochCancelled (readEpoch s n.val q.val h) = false)
include hwait hlive

theorem transferComplete_cutOff (hreach : s.unreachable n.val = true) :
    Completes (.transferComplete n q (.read h dest data poison)) s (fun t =>
      Sends s t (.nack n.val) ∧ t = { s with qmg := t.qmg, outs := t.outs }) := by
  have hends := endRead_ends n.val q.val h s
  have hreturns : transferReturns n q.val (.read h dest data poison) s = (endRead n.val q.val h s).emit (.nack n.val) :=
    (if_neg (by simp [hlive])).trans (if_pos hreach)
  refine transferComplete_completes hreturns (hwait.of_ctl ?_) ⟨.before (.of_eq ?_) (Sends.emit _ _), ?_⟩
  · rw [State.emit_ctl, hends.frame]
  · rw [hends.frame]
  · rw [hends.frame]
    rfl

variable (hreach : s.unreachable n.val = false)
include hreach

theorem transferComplete_held
    (hheld : planeNow s (n.val * 2 ^ 19 + dest) false = none ∨ (s.core n.val).bufferRoom dest data.length = false) :
    Completes (.transferComplete n q (.read h dest data poison)) s (fun t => t = s) := by
  refine transferComplete_completes ?_ hwait rfl
  refine (if_neg (by simp [hlive])).trans ((if_neg (by simp [hreach])).trans ?_)
  rcases hheld with hplane | hroom
  · exact if_pos (by rw [hplane]; rfl)
  · rw [if_neg (c := (s.core n.val).bufferRoom dest data.length = true) (by simp [hroom])]
    exact ite_self _

variable {plane : Nat} (hplane : planeNow s (n.val * 2 ^ 19 + dest) false = some plane)
  (hroom : (s.core n.val).bufferRoom dest data.length = true)
include hplane hroom

omit hwait in
theorem transferReturns_fills : transferReturns n q.val (.read h dest data poison) s =
    readReturns n h dest data poison (endRead n.val q.val h s) :=
  (if_neg (by simp [hlive])).trans ((if_neg (by simp [hreach])).trans ((if_neg (by rw [hplane]; exact Bool.false_ne_true)).trans (if_pos hroom)))

/-- A fill outside the working region stores nothing and stops the unit. -/
theorem transferComplete_misplaced (houtside : (s.core n.val).inWorking dest data.length = false) :
    Completes (.transferComplete n q (.read h dest data poison)) s (fun t =>
      (t.hdr (.core n.val)).errStat.getLsbD Bit.coreIllegal = true ∧ (t.core n.val).run = none ∧
      (t.core n.val).wbuf = (s.core n.val).wbuf ∧ SameMemory s t) := by
  have hends := endRead_ends n.val q.val h s
  have hnotes := checkRead_notesRead n.val h data (!poison.isEmpty) (endRead n.val q.val h s)
  have hreturns : transferReturns n q.val (.read h dest data poison) s =
      seqIllegal n (checkRead n.val h data (!poison.isEmpty) (endRead n.val q.val h s)) := by
    rw [transferReturns_fills h dest data poison hlive hreach hplane hroom]
    unfold readReturns fill
    rw [readWords_length, hnotes.inWorking, hends.core, houtside]
    exact if_neg Bool.false_ne_true
  generalize checkRead n.val h data (!poison.isEmpty) (endRead n.val q.val h s) = r at hnotes hreturns
  obtain ⟨hnone, hbit, hmem⟩ := seqIllegal_stops n r
  have hctl : r.ctl = s.ctl := hnotes.ctl.trans (by rw [hends.frame])
  refine transferComplete_completes hreturns ((hwait.of_ctl hctl).of_steady (seqIllegal_steady n r)) ⟨hbit, hnone, ?_,
    (hends.sameMemory.trans hnotes.sameMemory).trans hmem⟩
  rw [(seqIllegal_keepsSent n r).wbuf, hnotes.wbuf, hends.core]

variable (hinside : (s.core n.val).inWorking dest data.length = true) {b : Buffer}
  (hb : s.buffer (ofHandle h).pool (ofHandle h).index = b)
include hinside hb

omit hwait hb in
/-- A fill within the working region enters the write buffer behind what it holds. -/
theorem transferReturns_lands {r : State} (hchecked : checkRead n.val h data (!poison.isEmpty) (endRead n.val q.val h s) = r)
    (hnotes : NotesRead (endRead n.val q.val h s) r) : transferReturns n q.val (.read h dest data poison) s =
      r.modCore n.val (fun c => { c with
        wbuf := c.wbuf ++ ((readWords (endRead n.val q.val h s) h data poison).zipIdx).map (fun d => (dest + d.2, d.1)) }) := by
  rw [transferReturns_fills h dest data poison hlive hreach hplane hroom]
  unfold readReturns fill
  rw [hchecked, readWords_length, hnotes.inWorking, (endRead_ends n.val q.val h s).core, hinside]
  exact if_pos rfl

theorem transferComplete_sound (hgen : (ofHandle h).gen = b.gen)
    (hgood : dataBad (ofHandle h) b ((s.core n.val).got h) (bytesOf data) = false) (hclean : poison = []) :
    Completes (.transferComplete n q (.read h dest data poison)) s (fun t =>
      t.core n.val = { s.core n.val with
        wbuf := (s.core n.val).wbuf ++ (data.zipIdx).map (fun d => (dest + d.2, d.1, false)),
        reading := (t.core n.val).reading } ∧
      OtherCores n.val s t ∧ t = { s with cores := t.cores, qmg := t.qmg }) := by
  subst hclean
  have hends := endRead_ends n.val q.val h s
  have hb' : (endRead n.val q.val h s).buffer (ofHandle h).pool (ofHandle h).index = b := (hends.buffer _ _).trans hb
  have hchecked := checkRead_sound n.val data hb' hgen (by rw [hends.core]; exact hgood)
  have hreturns := transferReturns_lands h dest data [] hlive hreach hplane hroom hinside hchecked (keepRead_notesRead _ _ _ _ _)
  have hlanded : ((data.map (fun v => (v, false))).zipIdx).map (fun d => (dest + d.2, d.1)) =
      (data.zipIdx).map (fun d => (dest + d.2, d.1, false)) := by
    rw [List.zipIdx_map, List.map_map]
    rfl
  rw [readWords_sound (by rw [hb']; exact hgen), hlanded] at hreturns
  refine transferComplete_completes hreturns (hwait.of_ctl ?_) ⟨?_, fun m hm => ?_, ?_⟩
  · show (endRead n.val q.val h s).ctl = s.ctl
    rw [hends.frame]
  · rw [State.core_modCore_self]
    unfold keepRead
    rw [State.core_modCore_self, hends.core]
  · rw [State.core_modCore_ne _ _ hm]
    unfold keepRead
    rw [State.core_modCore_ne _ _ hm, hends.core]
  · unfold keepRead
    rw [hends.frame]
    rfl

theorem transferComplete_stale (hgen : (ofHandle h).gen ≠ b.gen) :
    Completes (.transferComplete n q (.read h dest data poison)) s (fun t =>
      (t.hdr (.core n.val)).errStat.getLsbD Bit.coreStale = true ∧
      (∃ e, t.safe.inbox = s.safe.inbox ++ [e] ∧ e.cause = Cause.staleHandle) ∧
      (∀ u, (s.core n.val).run = some u → (∀ v ∈ (s.core n.val).ready, h ∉ v.inputs) →
        (t.core n.val).run = some (u.flag Cause.staleHandle)) ∧ OtherCores n.val s t ∧ SameDram s t) := by
  have hends := endRead_ends n.val q.val h s
  have hb' : (endRead n.val q.val h s).buffer (ofHandle h).pool (ofHandle h).index = b := (hends.buffer _ _).trans hb
  have hchecked := checkRead_stale n.val data (by rw [hb']; exact hgen) (!poison.isEmpty)
  have hnotes := checkRead_notesRead n.val h data (!poison.isEmpty) (endRead n.val q.val h s)
  rw [hchecked] at hnotes
  have hreturns := transferReturns_lands h dest data poison hlive hreach hplane hroom hinside hchecked hnotes
  have hctl := hnotes.ctl
  obtain ⟨hbit, hinbox, hcores, hdram⟩ := staleRead_effect n.val (holderOf (endRead n.val q.val h s) n.val h)
    ((endRead n.val q.val h s).emit (.data n.val [poisonWord] true))
  generalize readWords _ h data poison = words at hreturns
  generalize staleRead n.val _ ((endRead n.val q.val h s).emit _) = r at hreturns hctl hbit hinbox hcores hdram
  have hcore : ∀ m, r.core m = s.core m := fun m => (core_of_cores hcores m).trans (hends.core m)
  refine transferComplete_completes hreturns (hwait.of_ctl (hctl.trans (by rw [hends.frame]))) ⟨hbit, ?_, fun u hu hready => ?_, fun m hm => ?_,
    sameDram_of_eq (hdram.trans (by rw [State.emit_dram, hends.frame]))⟩
  · obtain ⟨e, he, hcause⟩ := hinbox
    exact ⟨e, he.trans (by rw [State.emit_safe, hends.frame]), hcause⟩
  · rw [State.core_modCore_self]
    unfold flagHolder
    rw [State.core_modCore_self, hcore, if_neg (by simpa using hready), hu]
    rfl
  · rw [State.core_modCore_ne _ _ hm]
    unfold flagHolder
    rw [State.core_modCore_ne _ _ hm, hcore]

end DataReturns

/-! ### Pieces (R82, R83, R87, R130, R138) -/

/-- Another unit on the core changes nothing of what the write buffer drains into the scratchpad. -/
theorem drain_run (c : CoreSt) (run : Option UnitInst) : ({ c with run := run } : CoreSt).drain = { c.drain with run := run } := by
  have hfold : ∀ (l : List (Nat × W32 × Bool)) (k : CoreSt),
      l.foldl (fun c e => c.putWord e.1 e.2.1 e.2.2) { k with run := run } =
        { l.foldl (fun c e => c.putWord e.1 e.2.1 e.2.2) k with run := run } := by
    intro l
    induction l with
    | nil => exact fun _ => rfl
    | cons e l ih =>
      intro k
      have hput : ({ k with run := run } : CoreSt).putWord e.1 e.2.1 e.2.2 = { k.putWord e.1 e.2.1 e.2.2 with run := run } := by
        cases e.2.2 <;> rfl
      rw [List.foldl_cons, List.foldl_cons, hput, ih]
  unfold CoreSt.drain
  rw [hfold]

/-- The unit that a verdict on the piece at `base` leaves. -/
def UnitInst.verdictIn (base : Nat) (u : UnitInst) : UnitInst := { u with verified := addOnce u.verified base, owesPiece := true }

theorem noteVerdict_effect (n base : Nat) (s : State) :
    (noteVerdict n base s).core n = { s.core n with run := (s.core n).run.map (UnitInst.verdictIn base) } ∧
      OtherCores n s (noteVerdict n base s) ∧ noteVerdict n base s = { s with cores := (noteVerdict n base s).cores } :=
  ⟨State.core_modCore_self _ _ _, modCore_otherCores n _ s, rfl⟩

/-- A verdict that flags the unit. -/
theorem flagged_effect (n base cause : Nat) (s t : State) (ht : t.cores = (noteVerdict n base s).cores) :
    (flagUnit n cause t).core n = { s.core n with run := ((s.core n).run.map (UnitInst.verdictIn base)).map (·.flag cause) } ∧
      OtherCores n s (flagUnit n cause t) := by
  obtain ⟨hcore, hothers, -⟩ := noteVerdict_effect n base s
  refine ⟨?_, (hothers.of_cores ht).trans (modCore_otherCores n _ t)⟩
  unfold flagUnit
  rw [State.core_modCore_self, core_of_cores ht, hcore]

/-- What core `n` does about a verdict on a piece: nothing, or the flag of its unit, of which SAFE may be told (R83). -/
def verdictTaken (n : Nat) (v : Option (Nat × Bool)) (s : State) : State :=
  match v with
  | none => s
  | some (cause, told) => flagUnit n cause (if told then checkEvent n (s.core n).run cause s else s)

section Piece

variable {s : State} {n : CoreNum} {q : QueueNum} (hwait : NoneWaits s) {base words : Nat}
include hwait

theorem transferComplete_reserved (h : 0x7C000 < base + words + 2) :
    Completes (.transferComplete n q (.piece base words)) s (fun t =>
      (t.core n.val).run = none ∧ (t.hdr (.core n)).errStat.getLsbD Bit.coreIllegal = true ∧ SameMemory s t) :=
  transferComplete_completes (t := seqIllegal n s) (if_pos h) (hwait.of_steady (seqIllegal_steady n s)) (seqIllegal_stops n s)

variable (hbase : base + words + 2 ≤ 0x7C000)
include hbase

theorem transferComplete_stalePiece (hstale : stalePiece s n.val base = true) :
    Completes (.transferComplete n q (.piece base words)) s (fun t =>
      (∀ u, (t.core n.val).run = some u → Cause.staleHandle ∈ u.causes ∧ base ∈ u.verified) ∧
      (t.hdr (.core n)).errStat.getLsbD Bit.coreStale = true ∧ OtherCores n.val s t ∧ SameMemory s t) := by
  have hreturns : transferReturns n q.val (.piece base words) s =
      noteVerdict n.val base (flagUnit n.val Cause.staleHandle (staleRead n.val (s.core n.val).run s)) :=
    (if_neg (Nat.not_lt.mpr hbase)).trans (if_pos hstale)
  have hctl := (staleRead_notesRead n.val (s.core n.val).run s).ctl
  obtain ⟨hbit, -, hcores, hdram⟩ := staleRead_effect n.val (s.core n.val).run s
  generalize staleRead n.val (s.core n.val).run s = r at hreturns hctl hbit hcores hdram
  have hflag := modCore_sameMemory n.val (f := fun c => { c with run := c.run.map (·.flag Cause.staleHandle) }) r
  refine transferComplete_completes hreturns (hwait.of_ctl hctl) ⟨fun u hu => ?_, hbit, ?_,
    ((sameMemory_of_eq hdram hcores).trans hflag).trans (modCore_sameMemory n.val (flagUnit n.val Cause.staleHandle r))⟩
  · unfold noteVerdict flagUnit at hu
    rw [State.core_modCore_self, State.core_modCore_self] at hu
    obtain ⟨v, hv, rfl⟩ := Option.map_eq_some_iff.mp hu
    obtain ⟨x, -, rfl⟩ := Option.map_eq_some_iff.mp hv
    exact ⟨mem_addOnce_self _ _, mem_addOnce_self _ _⟩
  · exact (OtherCores.of_cores (t := s) (fun _ _ => rfl) hcores).trans
      ((modCore_otherCores n.val _ r).trans (modCore_otherCores n.val _ (flagUnit n.val Cause.staleHandle r)))

variable {c : CoreSt} (hstale : stalePiece s n.val base = false) (hinj : (s.hdr (.core n)).inj = 0)
  (hc : (s.core n.val).drain = c) (hclean : c.spPoison = [])
include hstale hinj hc hclean

omit hwait in
/-- The words of a piece, its check value and its status word are what the core's banks hold with the write buffer drained. -/
theorem transferReturns_piece : transferReturns n q.val (.piece base words) s =
    verdictTaken n.val (pieceVerdict ((List.range words).map (fun k => Tab.get c.sp 0 (base + k))) (Tab.get c.sp 0 (base + words))
      (Tab.get c.sp 0 (base + (words + 1)))) (noteVerdict n.val base s) := by
  have hdrain : ((noteVerdict n.val base s).core n.val).drain.sp = c.sp := by
    rw [(noteVerdict_effect n.val base s).1, drain_run, hc]
  have hread := readRanges_sound (n := n) hinj (by rw [hc]; exact hclean) [(base, words + 2)] 0
  unfold transferReturns pieceReturns
  dsimp only
  rw [if_neg (Nat.not_lt.mpr hbase), hstale, if_neg Bool.false_ne_true, hread]
  dsimp only
  rw [if_neg Bool.false_ne_true, hdrain]
  rfl

section Checked

variable (hcrc : Tab.get c.sp 0 (base + words) = crc32c (bytesOf ((List.range words).map (fun k => Tab.get c.sp 0 (base + k)))))
include hcrc

/-- A good piece without a flag is noted as checked. -/
theorem transferComplete_goodPiece (hstatus : trailerCause (Tab.get c.sp 0 (base + (words + 1))) = some none) :
    Completes (.transferComplete n q (.piece base words)) s (fun t =>
      t.core n.val = { s.core n.val with run := (s.core n.val).run.map (UnitInst.verdictIn base) } ∧ OtherCores n.val s t ∧
      t = { s with cores := t.cores }) := by
  have hreturns := transferReturns_piece (q := q) hbase hstale hinj hc hclean
  rw [pieceVerdict, if_neg (not_not.mpr hcrc), hstatus] at hreturns
  exact transferComplete_completes hreturns hwait (noteVerdict_effect n.val base s)

theorem transferComplete_flaggedPiece {k : Nat} (hstatus : trailerCause (Tab.get c.sp 0 (base + (words + 1))) = some (some k)) :
    Completes (.transferComplete n q (.piece base words)) s (fun t =>
      t.core n.val = { s.core n.val with run := ((s.core n.val).run.map (UnitInst.verdictIn base)).map (·.flag k) } ∧
      OtherCores n.val s t ∧ t = { s with cores := t.cores }) := by
  have hreturns := transferReturns_piece (q := q) hbase hstale hinj hc hclean
  rw [pieceVerdict, if_neg (not_not.mpr hcrc), hstatus] at hreturns
  obtain ⟨hcore, hothers⟩ := flagged_effect n.val base k s (noteVerdict n.val base s) rfl
  exact transferComplete_completes hreturns hwait ⟨hcore, hothers, rfl⟩

end Checked

theorem transferComplete_badPiece
    (hcrc : Tab.get c.sp 0 (base + words) ≠ crc32c (bytesOf ((List.range words).map (fun k => Tab.get c.sp 0 (base + k))))) :
    Completes (.transferComplete n q (.piece base words)) s (fun t =>
      (t.core n.val).run = ((s.core n.val).run.map (UnitInst.verdictIn base)).map (·.flag Cause.e2eCheck) ∧ OtherCores n.val s t ∧
      SameMemory s t) := by
  have hreturns := transferReturns_piece (q := q) hbase hstale hinj hc hclean
  rw [pieceVerdict, if_pos hcrc] at hreturns
  have hnoted := modCore_sameMemory n.val (f := fun c => { c with run := c.run.map (UnitInst.verdictIn base) }) s
  have hevent := checkEvent_notesRead n.val ((noteVerdict n.val base s).core n.val).run Cause.e2eCheck (noteVerdict n.val base s)
  obtain ⟨hcore, hothers⟩ := flagged_effect n.val base Cause.e2eCheck s
    (checkEvent n.val ((noteVerdict n.val base s).core n.val).run Cause.e2eCheck (noteVerdict n.val base s)) rfl
  exact transferComplete_completes hreturns (hwait.of_ctl hevent.ctl) ⟨congrArg CoreSt.run hcore, hothers,
    (SameMemory.trans (t := noteVerdict n.val base s) hnoted hevent.sameMemory).trans (modCore_sameMemory n.val _)⟩

end Piece

/-- Settles O50: remote writes and the returns of transfers, case by case as the lemmas above say. -/
theorem remoteWritesAndTransfersComplete : Obligations.RemoteWritesAndTransfersComplete := by
  unfold Obligations.RemoteWritesAndTransfersComplete
  refine ⟨fun s a n w gen addr data x ws hx hws => ⟨fun ha => ⟨fun hheld => ?_,
      fun hgoes => ⟨fun hcut => ?_, fun hreach => ⟨fun h => ?_, fun reason h => ?_⟩⟩⟩,
    fun ha hwait hgoes hreach h => ?_⟩, fun s n q hwait => ⟨fun r hr => ⟨fun h => ?_, fun x hx hfetches => ?_⟩,
      fun h dest data poison b hb => ⟨fun hcancelled => ?_,
        fun hlive => ⟨fun hcut => ?_, fun hreach => ⟨fun hheld => ?_, fun plane hplane hroom => ⟨fun houtside => ?_,
          fun hinside => ⟨fun hgen hgood hclean => ?_, fun hgen => ?_⟩⟩⟩⟩⟩,
      fun base words c run hc hrun => ⟨fun h => ?_, fun hbase hstale => ?_,
        fun hbase hstale hinj hclean => ⟨fun hcrc => ⟨fun hstatus => ?_, fun k hstatus => ?_⟩, fun hcrc => ?_⟩⟩⟩⟩
  · exact remoteWrite_completes ha (remoteWrite_held hx hws hheld) rfl
  · exact remoteWrite_cutOff_completes hx hws hgoes ha hcut
  · exact remoteWrite_taken_completes hx hws hgoes hreach ha h
  · exact remoteWrite_refused_completes hx hws hgoes hreach ha h
  · exact remoteWrite_ingress_completes hx hws hgoes hreach ha hwait h
  · exact transferComplete_none hwait hr h
  · exact transferComplete_counts hwait hr hx hfetches
  · exact transferComplete_sunk hwait h dest data poison hcancelled
  · exact transferComplete_cutOff hwait h dest data poison hlive hcut
  · exact transferComplete_held hwait h dest data poison hlive hreach hheld
  · exact transferComplete_misplaced hwait h dest data poison hlive hreach hplane hroom houtside
  · exact transferComplete_sound hwait h dest data poison hlive hreach hplane hroom hinside hb hgen hgood hclean
  · exact transferComplete_stale hwait h dest data poison hlive hreach hplane hroom hinside hb hgen
  · exact transferComplete_reserved hwait h
  · exact transferComplete_stalePiece hwait hbase hstale
  · rw [hrun]
    exact transferComplete_goodPiece hwait hbase hstale hinj hc hclean hcrc hstatus
  · rw [hrun]
    exact transferComplete_flaggedPiece hwait hbase hstale hinj hc hclean hcrc hstatus
  · rw [hrun]
    exact transferComplete_badPiece hwait hbase hstale hinj hc hclean hcrc

end Sys2Proof.Machine

/-! The commit point of a re-placement (R150, R152, R286).  The homes that the pools of a stream call for depend on the QMG's tables, by
the consumers of the queue that a pool feeds, and the commit renames those consumers.  So the homes of the new placement can agree with
the old ones on the tables as they stand, and differ from them once the tables name the new cores: the commit then re-homes the pools,
and writes back what the shared cache holds dirty. -/

namespace Sys2Proof.Machine

open Sys2Proof

/-! ### Flushes (R152) -/

theorem flushWhere_none {k : Nat} {p : CacheLine → Bool} {s : State} (h : ∀ e ∈ (s.slice k).lines, p e.2 = false) :
    flushWhere k p s = s := by
  have hnone : (s.slice k).lines.filter (fun e => p e.2) = [] := List.filter_eq_nil_iff.mpr (by simpa using h)
  unfold flushWhere
  rw [hnone]
  rfl

theorem slice_of_slices {s t : State} (h : t.slices = s.slices) (j : Nat) : t.slice j = s.slice j := by
  unfold State.slice
  rw [h]

theorem dmcWriteLink_kept (off : Nat) (u : DramUpset) (s : State) : (dmcWriteLink off u s).dram = s.dram ∧
    (dmcWriteLink off u s).slices = s.slices ∧ (dmcWriteLink off u s).ctl = s.ctl := by
  unfold dmcWriteLink
  dsimp only
  split
  · simp
  · exact ⟨rfl, rfl, rfl⟩

theorem dramLine_dram {s t : State} (off : Nat) (data : List Byte) (poison : Bool) (h : t.dram = s.dram) :
    (dramLine off data poison t).dram = (dramLine off data poison s).dram := by
  unfold dramLine State.storeDram
  dsimp only
  rw [h]

theorem dramLine_slices (off : Nat) (data : List Byte) (poison : Bool) (s : State) : (dramLine off data poison s).slices = s.slices := rfl

/-- A dirty line that leaves its slice is written to DRAM, whatever the write meets; the other slices stay. -/
theorem evictWith_dirty {u : DramUpset} {k key : Nat} {x : CacheLine} {s : State} (hx : Tab.find (s.slice k).lines key = some x)
    (hdirty : x.dirty = true) :
    (evictWith u k key s).dram = (dramLine (x.line * 64) x.data x.poison s).dram ∧ ∀ j, j ≠ k → (evictWith u k key s).slice j = s.slice j := by
  unfold evictWith
  rw [hx]
  dsimp only
  rw [if_pos hdirty]
  obtain ⟨hdram, hslices, -⟩ := dmcWriteLink_kept (x.line * 64) u (dramLine (x.line * 64) x.data x.poison
    ((s.modSlice k (fun y => { y with lines := Tab.erase y.lines key })).modSlice k
      (fun y => { y with writebacks := sat32 (y.writebacks + 1) })))
  refine ⟨hdram.trans (dramLine_dram _ _ _ rfl), fun j hj => ?_⟩
  rw [slice_of_slices (hslices.trans (dramLine_slices _ _ _ _)), State.slice_modSlice_ne _ _ hj, State.slice_modSlice_ne _ _ hj]

theorem evict_dirty {k key : Nat} {x : CacheLine} {s : State} (hx : Tab.find (s.slice k).lines key = some x) (hdirty : x.dirty = true) :
    (evict k key s).dram = (dramLine (x.line * 64) x.data x.poison s).dram ∧ ∀ j, j ≠ k → (evict k key s).slice j = s.slice j := by
  obtain ⟨hdram, hslices⟩ := evictWith_dirty (u := if Config.freeNat s.free % 2 = 1 then .linkCorr else .clean)
    (s := { s with free := s.free + 1 }) hx hdirty
  unfold evict
  rw [if_pos (by rw [hx]; exact hdirty)]
  exact ⟨hdram.trans (dramLine_dram _ _ _ rfl), hslices⟩

/-- A re-homing of ranges that hold the one line of the cache, which is dirty and in slice 0, writes that line back. -/
theorem rehome_one {ranges : List HomeEntry} {key : Nat} {x : CacheLine} {s : State} (hline : (s.slice 0).lines = [(key, x)])
    (hdirty : x.dirty = true) (hrange : ranges.any (fun r => r.holds (x.line * 64)) = true) (hrest : ∀ j, j ≠ 0 → (s.slice j).lines = [])
    (f : Tab HomeEntry → Tab HomeEntry) : (rehome ranges f s).dram = (dramLine (x.line * 64) x.data x.poison s).dram := by
  have hfind : Tab.find (s.slice 0).lines key = some x := by
    rw [hline]
    exact if_pos rfl
  have hflush : flushWhere 0 (fun x => ranges.any (fun r => r.holds (x.line * 64))) s = evict 0 key s := by
    unfold flushWhere
    rw [hline, List.filter_cons, if_pos hrange]
    rfl
  obtain ⟨hdram, hslices⟩ := evict_dirty hfind hdirty
  have hrestflush : ∀ ks : List Nat, (∀ k ∈ ks, k ≠ 0) →
      forEach ks (fun k => flushWhere k (fun x => ranges.any (fun r => r.holds (x.line * 64)))) (evict 0 key s) = evict 0 key s := by
    intro ks hks
    refine forEach_inv_mem (fun t => t = evict 0 key s) ks (fun k hk t ht => ?_) _ rfl
    rw [ht]
    refine flushWhere_none (fun e he => ?_)
    rw [hslices k (hks k hk), hrest k (hks k hk)] at he
    cases he
  unfold rehome
  rw [State.modMesh_dram, List.range_succ_eq_map, forEach_cons, hflush, hrestflush _ (by simp)]
  exact hdram

theorem rehome_nil (f : Tab HomeEntry → Tab HomeEntry) (s : State) :
    rehome [] f s = s.modMesh (fun m => { m with homes := f m.homes }) := by
  have hflush : forEach (List.range 48) (fun k s => flushWhere k (fun x => ([] : List HomeEntry).any (fun r => r.holds (x.line * 64))) s) s = s :=
    forEach_inv (fun t => t = s) _ _ (fun k t ht => by rw [ht]; exact flushWhere_none (fun _ _ => rfl)) s rfl
  unfold rehome
  rw [hflush]

theorem modMesh_congr {s : State} {f g : Mesh → Mesh} (h : f s.mesh = g s.mesh) : s.modMesh f = s.modMesh g := by
  unfold State.modMesh
  rw [h]

/-- With no home entry in force, pools that call for one new entry are re-homed by it alone. -/
theorem rehomePools_one {st : Stream} {old : List HomeEntry} {e : HomeEntry} {s : State} (hhomes : s.mesh.homes = [])
    (he : streamHomes st s = [e]) (hne : [e] ≠ old) :
    ∃ f, rehomePools st old s = rehome [e] f (s.modMesh (fun m => { m with homes := [] })) := by
  have hdrop : dropHomes old s = s.modMesh (fun m => { m with homes := [] }) := by
    have hnone : old.filter (fun e => s.mesh.homes.any (fun h => h.2 == e)) = [] := by simp [hhomes]
    unfold dropHomes
    dsimp only
    rw [hnone, rehome_nil]
    exact modMesh_congr (by simp [hhomes])
  have he2 : streamHomes st (s.modMesh (fun m => { m with homes := [] })) = [e] := he
  refine ⟨fun t => Tab.insert t 0 e, ?_⟩
  unfold rehomePools
  rw [he, if_neg hne, hdrop]
  unfold homePools
  have hfree : (List.range 1024).find? (fun k => (Tab.find (s.modMesh (fun m => { m with homes := [] })).mesh.homes k).isNone) = some 0 := by
    rw [List.range_succ_eq_map]
    exact List.find?_cons_of_pos rfl
  rw [he2, forEach_cons, hfree]
  rfl

theorem evict_ctl (k key : Nat) (s : State) : (evict k key s).ctl = s.ctl := by
  have hwith : ∀ (u : DramUpset) (t : State), (evictWith u k key t).ctl = t.ctl := by
    intro u t
    unfold evictWith
    cases Tab.find (t.slice k).lines key with
    | none => rfl
    | some x =>
      dsimp only
      split
      · exact (dmcWriteLink_kept _ _ _).2.2
      · rfl
  unfold evict
  split
  · exact hwith _ _
  · exact hwith _ _

theorem rehome_ctl (ranges : List HomeEntry) (f : Tab HomeEntry → Tab HomeEntry) (s : State) : (rehome ranges f s).ctl = s.ctl := by
  have hflush : ∀ k p (t : State), (flushWhere k p t).ctl = t.ctl := fun k p t =>
    forEach_inv (fun u => u.ctl = t.ctl) _ _ (fun key u hu => (evict_ctl k key u).trans hu) t rfl
  unfold rehome
  rw [State.modMesh_ctl]
  exact forEach_inv (fun u => u.ctl = s.ctl) _ _ (fun k u hu => (hflush k _ u).trans hu) s rfl

/-! ### The commit -/

theorem shiftSpare_steady (q : Nat) (s : State) : Steady s (shiftSpare q s) := by
  unfold shiftSpare
  split
  · exact .refl s
  · split
    · exact (modCore_steady _ _ s).trans (modCore_steady _ _ _)
    · exact .refl s

theorem evenSpares_steady (s : State) : Steady s (evenSpares s) :=
  .forEach _ (fun q t => (shiftSpare_steady q t).trans (shiftSpare_steady q _)) s

theorem releaseFault_steady (s : State) : Steady s (releaseFault s) := by
  unfold releaseFault
  split
  · exact .of_watched rfl
  · exact .refl s

theorem withdraw_steady (g : InvTarget) (sc : InvScope) (cause : Nat) (s : State) : Steady s (withdraw g sc cause s) :=
  sendInval_steady _ s

theorem Steady.ite {p : Prop} [Decidable p] {s t u : State} (h : Steady s t) (k : Steady s u) : Steady s (if p then t else u) := by
  split
  · exact h
  · exact k

theorem restoreStream_steady (id : Nat) (s : State) : Steady s (restoreStream id s) := by
  unfold restoreStream
  cases s.stream? id with
  | none => exact .refl s
  | some st =>
    have hback := Steady.forEach (st.suspended.filter (fun k => !st.broken (some k) s))
      (fun k t => withdraw_steady (.stream id) (.copy k) Cause.streamFault t) s
    have hclear := fun t => modStream_steady (id := id) (f := fun st => { st with faulted := false }) t (fun _ _ => .of_eq rfl rfl rfl rfl)
    exact .ite (hback.trans ((hclear _).trans (.trans (.ite (withdraw_steady _ _ _ _) (.refl _)) (releaseFault_steady _)))) hback

/-- The state in which the commit re-homes the pools: tables, placement and epoch have switched. -/
def switched (id : Nat) (st : Stream) (r : Repl) (boundary : Nat) (s : State) : State :=
  let s1 := forEach (st.place.slots.filter (fun p => r.slots.contains p.slot.val)) (fun p s =>
    forEach (p.cores.zip (newCores r.moves p)) (enterService st p) s) s
  let s2 := (switchTables id (movePairs st r.moves) boundary s1).setStream id (st.moved r.moves)
  let s3 := s2.modCtl (fun c =>
    { c with jState := .committed, placeEpoch := (c.placeEpoch + 1) % 2 ^ 32, repl := some { r with boundary := boundary } })
  { s3 with slotEpochs := r.slots.foldl (fun t k => Tab.insert t k s3.ctl.placeEpoch) s3.slotEpochs }

/-- After the re-homing of the pools a commit changes neither DRAM nor what waits. -/
theorem commit_steady (id : Nat) (st : Stream) (r : Repl) (boundary : Nat) (s : State) :
    Steady (rehomePools (st.moved r.moves) (streamHomes st s) (switched id st r boundary s)) (commit id st r boundary s) :=
  (rebalance_steady _).trans ((evenSpares_steady _).trans ((refreshBedrock_steady _).trans ((restoreStream_steady id _).trans
    (checkSpares_steady _ _))))

/-! ### The counterexample -/

/-- A stream without a safety class: two stages on the cores 5 and 7 of quadrant 0, and a DRAM pool. -/
def chainStream : Stream :=
  { ctx := 0, part := 0, cls := .none, image := 2, decl := { kind := 4 },
    place := { slots := [{ slot := 3, stage := 0, copy := 0, cores := [5] }, { slot := 4, stage := 0, copy := 0, cores := [7] }]
               pools := [{ pool := 1, kind := 3, units := 1, count := 1, base := 0, metaBase := 0, consumers := 1, freeQueue := 9 }] } }

/-- Core 100 of quadrant 2 takes the place of core 5, and core 5 that of core 7. -/
def chainRepl : Repl := { slot := 3, moves := [(3, [100]), (4, [5])], old := [5, 7], new := [100, 5] }

/-- The line of the pool, dirty in the shared cache. -/
def chainLine : CacheLine := { line := 0, dirty := true, poison := false, data := [1] }

/-- That re-placement under PREPARE; the queue that the pool feeds has core 5 for its consumer. -/
def chainState : State :=
  { State.reset with
    boot := { ready := true }
    images := [(2, { part := 0, decl := { stages := [{ mode := .frame }] }, wsums := [] })]
    streams := [(1, chainStream)]
    ctl := { repl := some chainRepl, jState := .prepare, jSlot := 3 }
    qmg := { links := [(0, { firstQueue := 8, firstPool := 1, perTarget := false, targets := 1, steer := .single })]
             queues := [(8, { type := .data, state := .armed, fanout := 4, stream := some 1 })]
             fanouts := [(4, [5])] }
    slices := [(0, { lines := [(0, chainLine)] })] }

/-- The moved pool as its home follows the queue: to quadrant 2. -/
def chainHome : HomeEntry := { mode := .quadrant, target := 2, base := 0, length := 1 }

/-- The stream on its new placement. -/
def chainMoved : Stream := chainStream.moved chainRepl.moves

/-- The counterexample after the tables have switched. -/
def chainSwitched : State := switched 1 chainStream chainRepl 0 chainState

theorem chain_homes_agree : streamHomes chainMoved chainState = streamHomes chainStream chainState := by decide

theorem chain_ready : chainState.replStream = some 1 ∧ boundaryOk chainStream chainRepl 0 chainState = true ∧
    safeCheck 1 chainMoved chainState = true := by decide

theorem chainSwitched_parts : chainSwitched.slices = chainState.slices ∧ chainSwitched.mesh.homes = [] ∧
    chainSwitched.dram = [] ∧ chainSwitched.ctl.waiting = [] ∧ chainSwitched.ctl.fences = [] := ⟨rfl, rfl, rfl, rfl, rfl⟩

theorem chainSwitched_homes : streamHomes chainMoved chainSwitched = [chainHome] := by decide

theorem chain_commits : commitReplacement 0 chainState = commit 1 chainStream chainRepl 0 chainState := by
  obtain ⟨hstream, hboundary, hcheck⟩ := chain_ready
  unfold commitReplacement
  rw [show chainState.ctl.repl = some chainRepl from rfl, hstream]
  dsimp only
  rw [show chainState.stream? 1 = some chainStream from rfl]
  dsimp only
  rw [if_neg (by rw [hboundary]; decide), if_neg (by rw [show chainStream.moved chainRepl.moves = chainMoved from rfl, hcheck]; decide),
    if_neg (by decide)]

theorem exec_replacementCommit (boundary : Nat) (s : State) :
    exec (.replacementCommit boundary) s = .next (settle (commitReplacement boundary s)) := rfl

/-- The commit writes the dirty line back, and nothing waits after it. -/
theorem chain_writes_back : NoneWaits (commit 1 chainStream chainRepl 0 chainState) ∧
    (commit 1 chainStream chainRepl 0 chainState).dramByte 0 = 1 := by
  obtain ⟨hslices, hhomes, hdram, hwaiting, hfences⟩ := chainSwitched_parts
  obtain ⟨f, hre⟩ := rehomePools_one (old := streamHomes chainStream chainState) hhomes chainSwitched_homes (by decide)
  have hsteady : Steady (rehomePools chainMoved (streamHomes chainStream chainState) chainSwitched) _ :=
    commit_steady 1 chainStream chainRepl 0 chainState
  rw [hre] at hsteady
  have hctl : (rehome [chainHome] f (chainSwitched.modMesh (fun m => { m with homes := [] }))).ctl = chainSwitched.ctl :=
    rehome_ctl _ f _
  have hline : ((chainSwitched.modMesh (fun m => { m with homes := [] })).slice 0).lines = [(0, chainLine)] := by
    rw [State.modMesh_slice, slice_of_slices hslices]
    rfl
  have hrest : ∀ j, j ≠ 0 → ((chainSwitched.modMesh (fun m => { m with homes := [] })).slice j).lines = [] := by
    intro j hj
    rw [State.modMesh_slice, slice_of_slices hslices]
    exact congrArg Slice.lines (Tab.get_insert_ne [] {} { lines := [(0, chainLine)] } hj)
  have hwritten := hsteady.dram.trans ((rehome_one hline rfl (by decide) hrest f).trans (dramLine_dram (s := State.reset) _ _ _ hdram))
  refine ⟨⟨hsteady.waiting (by rw [hctl]; exact hwaiting), hsteady.fences (by rw [hctl]; exact hfences)⟩, ?_⟩
  unfold State.dramByte
  rw [hwritten]
  decide

/-- Refutes O55: whether the homes agree is asked on the tables before the commit, but the commit compares them after the tables name the
new cores; here core 5, which stays the consumer until then, gives way to core 100 in another quadrant, and the dirty line is written back. -/
theorem not_replacementsComplete : ¬ Obligations.ReplacementsComplete := by
  unfold Obligations.ReplacementsComplete
  rintro ⟨-, hcommits, -⟩
  obtain ⟨hstream, hboundary, hcheck⟩ := chain_ready
  obtain ⟨hnone, hbyte⟩ := chain_writes_back
  obtain ⟨-, hcommit⟩ := hcommits chainState 0 ⟨rfl, rfl⟩
  obtain ⟨-, -, -, hmoves⟩ := hcommit chainRepl 1 chainStream rfl hstream rfl rfl
  obtain ⟨t, ht, -, -, -, -, -, hsame⟩ := hmoves hboundary hcheck (fun hsafe => absurd hsafe (by decide))
  have hnext : t = commit 1 chainStream chainRepl 0 chainState := by
    rw [exec_replacementCommit, chain_commits, settle_none hnone.1 hnone.2] at ht
    exact (Host.Outcome.next.inj ht).symm
  have hkept := hsame chain_homes_agree 0
  rw [hnext, hbyte] at hkept
  exact absurd hkept (by decide)

end Sys2Proof.Machine

/-! Operations of the queue manager that meet no error (R178, R182 to R185): what a descriptor read, an allocation and a push come to
when the queue serves its requester, and what an operation needs of the state to be served. -/

namespace Sys2Proof.Machine

open Sys2Proof Sys2Proof.Machine.Bits

/-! ### Queues that serve -/

/-- Without an injection and an upset a descriptor is read as it is. -/
theorem readDescriptor_clean {s : State} (hinj : (s.hdr .qmg).inj = 0) (n : Nat) : readDescriptor n .clean s = (true, s) := by
  simp [readDescriptor, takeInj_unarmed hinj]

/-- A requester's partition depends on its core alone. -/
theorem agentPart_of_core {s t : State} (a : Agent) (part : Nat)
    (h : ∀ c : CoreNum, a = .core c → (t.core c.val).run = (s.core c.val).run ∧ (t.core c.val).part = (s.core c.val).part) :
    agentPart t a part = agentPart s a part := by
  unfold agentPart
  split
  · next c =>
    obtain ⟨hrun, hpart⟩ := h c rfl
    rw [hrun, hpart]
  · rfl

/-- What a queue says to a requester depends on the queue, its epoch, the freeze and the requester's partition. -/
theorem queueVerdict_of {s t : State} {q : Queue} {part : Nat} (hepochs : t.qmg.epochs = s.qmg.epochs)
    (hfrozen : t.qmg.frozen = s.qmg.frozen) : queueVerdict t q part = queueVerdict s q part := by
  unfold queueVerdict queueStands State.epochCancelled
  rw [hepochs, hfrozen]

/-- A queue goes on serving a requester through what leaves the queue, its epochs, the QMG's page and the requester's core alone. -/
theorem QueueServes.of {s t : State} {a : Agent} {n : Nat} (h : QueueServes s a n) (hpages : t.pages = s.pages)
    (hqueue : t.queue n = s.queue n) (hepochs : t.qmg.epochs = s.qmg.epochs) (hfrozen : t.qmg.frozen = s.qmg.frozen)
    (hcore : ∀ c : CoreNum, a = .core c → (t.core c.val).run = (s.core c.val).run ∧ (t.core c.val).part = (s.core c.val).part) :
    QueueServes t a n := by
  obtain ⟨hinj, hverdict⟩ := h
  refine ⟨by rwa [hdr_of_pages hpages], ?_⟩
  rw [hqueue, agentPart_of_core a _ hcore, queueVerdict_of hepochs hfrozen]
  exact hverdict

/-! ### What waits end and begin with (R60, R184) -/

theorem mem_waiters_beginWait {c : Nat} {on : WaitOn} {s : State} : (beginWait c on s).qmg.waiters = s.qmg.waiters ++ [⟨c, on⟩] := rfl

/-- A core that waited on nothing waits on what its wait began with. -/
theorem beginWait_waitOf {s : State} {c : Nat} (h : s.waitOf c = none) (on : WaitOn) : (beginWait c on s).waitOf c = some on := by
  unfold State.waitOf at h ⊢
  rw [Option.map_eq_none_iff] at h
  rw [mem_waiters_beginWait, List.find?_append, h]
  simp

/-- The core of a wait that begins keeps all but its sequencer. -/
theorem beginWait_core (c : Nat) (on : WaitOn) (s : State) (m : Nat) :
    ∃ seq at', (beginWait c on s).core m = { s.core m with seq := seq, waitAt := at' } := by
  unfold beginWait
  rw [State.core_modCore]
  split
  · next hm => exact ⟨_, _, by rw [hm]; rfl⟩
  · exact ⟨_, _, rfl⟩

theorem beginWait_otherCores (c : Nat) (on : WaitOn) (s : State) : OtherCores c s (beginWait c on s) :=
  fun _ hm => State.core_modCore_ne _ _ hm

theorem beginWait_frame (c : Nat) (on : WaitOn) (s : State) :
    beginWait c on s = { s with cores := (beginWait c on s).cores, qmg := (beginWait c on s).qmg } := rfl

/-- A wait that has ended is none of the waits. -/
theorem endWait_waiters (c : Nat) (on : WaitOn) (s : State) : ∀ x ∈ (endWait c on s).qmg.waiters, ¬ (x.core = c ∧ x.on = on) := by
  intro x hx
  simpa [imp_iff_not_or] using (List.mem_filter.mp hx).2

theorem endWait_core (c : Nat) (on : WaitOn) (s : State) (m : Nat) : ∃ seq, (endWait c on s).core m = { s.core m with seq := seq } := by
  unfold endWait
  rw [State.core_modCore]
  split
  · next hm =>
    split
    · exact ⟨_, by rw [hm]; rfl⟩
    · exact ⟨_, by rw [hm]; rfl⟩
  · exact ⟨_, rfl⟩

theorem endWait_otherCores (c : Nat) (on : WaitOn) (s : State) : OtherCores c s (endWait c on s) :=
  fun _ hm => State.core_modCore_ne _ _ hm

/-- A queue serves a core after one of its waits as before. -/
theorem QueueServes.endWait {s : State} {a : Agent} {n : Nat} (h : QueueServes s a n) (c : Nat) (on : WaitOn) :
    QueueServes (endWait c on s) a n := by
  refine h.of rfl rfl rfl rfl (fun d _ => ?_)
  obtain ⟨seq, hcore⟩ := endWait_core c on s d.val
  rw [hcore]
  exact ⟨rfl, rfl⟩

end Sys2Proof.Machine

/-! Handles on their way to cores (R59, R184, R187, R190): a delivery makes one unit ready on one core, and an accepted push delivers to
the consumers that hold a credit and leaves an entry for the others. -/

namespace Sys2Proof.Machine

open Sys2Proof Sys2Proof.Machine.Bits

/-! ### The relation -/

/-- Between `s` and `t` waits have ended and handles have reached cores: of a queue only OUT_COUNT changes, the ready units of a core
only grow, and its running unit stays. -/
structure HandsOut (s t : State) : Prop where
  frame : t = { s with cores := t.cores, qmg := t.qmg }
  queues : ∀ k, ∃ o, t.queue k = { s.queue k with outCount := o }
  waiters : ∀ x ∈ t.qmg.waiters, x ∈ s.qmg.waiters
  run : ∀ c, (t.core c).run = (s.core c).run
  ready : ∀ c, ∀ u ∈ (s.core c).ready, u ∈ (t.core c).ready

theorem HandsOut.refl (s : State) : HandsOut s s := ⟨rfl, fun _ => ⟨_, rfl⟩, fun _ h => h, fun _ => rfl, fun _ _ h => h⟩

theorem HandsOut.trans {s t u : State} (h : HandsOut s t) (k : HandsOut t u) : HandsOut s u where
  frame := by rw [k.frame, h.frame]
  queues n := by
    obtain ⟨o, ho⟩ := h.queues n
    obtain ⟨p, hp⟩ := k.queues n
    exact ⟨p, by rw [hp, ho]⟩
  waiters x hx := h.waiters x (k.waiters x hx)
  run c := (k.run c).trans (h.run c)
  ready c u hu := k.ready c u (h.ready c u hu)

theorem HandsOut.forEach {α : Type} (xs : List α) {f : α → State → State} (h : ∀ x s, HandsOut s (f x s)) (s : State) :
    HandsOut s (forEach xs f s) :=
  forEach_inv (HandsOut s) xs f (fun x _ ht => ht.trans (h x _)) s (.refl s)

/-- A change of the QMG that touches neither a queue nor a wait. -/
theorem modQmg_handsOut (f : Qmg → Qmg) (s : State) (h : (f s.qmg).queues = s.qmg.queues ∧ (f s.qmg).waiters = s.qmg.waiters := by
    exact ⟨rfl, rfl⟩) : HandsOut s (s.modQmg f) :=
  ⟨rfl, fun k => ⟨(s.queue k).outCount, congrArg (fun t : Tab Queue => Tab.get t {} k) h.1⟩, fun _ hx => h.2 ▸ hx, fun _ => rfl,
    fun _ _ hu => hu⟩

/-- A core whose wait ends has the same units. -/
theorem endWait_handsOut (c : Nat) (on : WaitOn) (s : State) : HandsOut s (endWait c on s) := by
  refine ⟨rfl, fun k => ⟨_, rfl⟩, fun x hx => (List.mem_filter.mp hx).1, fun m => ?_, fun m u hu => ?_⟩
  all_goals
    obtain ⟨seq, hcore⟩ := endWait_core c on s m
    rw [hcore]
  exact hu

/-! ### Fetches (R190, R191) -/

theorem issueTransfer_handsOut (c n : Nat) (h : Option W64) (s : State) : HandsOut s (issueTransfer c n h s) := by
  have hcounted : HandsOut s (s.modQueue n (fun q => { q with outCount := q.outCount + 1 })) := by
    refine ⟨rfl, fun k => ?_, fun _ hx => hx, fun _ => rfl, fun _ _ hu => hu⟩
    rw [State.queue_modQueue]
    split
    · next hk => exact ⟨_, by rw [hk]⟩
    · exact ⟨_, rfl⟩
  unfold issueTransfer
  dsimp only
  exact hcounted.trans (modQmg_handsOut _ _)

theorem issueFetches_handsOut (n : Nat) (s : State) : HandsOut s (issueFetches n s) := by
  unfold issueFetches
  refine (modQmg_handsOut _ s).trans (.forEach _ (fun f t => ?_) _)
  unfold issueFetch
  dsimp only
  exact (HandsOut.forEach _ (fun _ u => issueTransfer_handsOut _ _ _ u) t).trans (modQmg_handsOut _ _)

/-! ### Deliveries -/

/-- Between `s` and `t` core `c` has received handle `h`: one more of its units is ready, and no other core has changed. -/
structure Delivers (c : Nat) (h : W64) (s t : State) : Prop extends HandsOut s t where
  readied : ∃ u : UnitInst, u.inputs = [h] ∧ (t.core c).ready = (s.core c).ready ++ [u]
  others : OtherCores c s t

theorem Delivers.before {c : Nat} {h : W64} {s t u : State} (k : HandsOut s t) (hcores : ∀ m, m ≠ c → t.core m = s.core m)
    (hready : (t.core c).ready = (s.core c).ready) (d : Delivers c h t u) : Delivers c h s u :=
  ⟨k.trans d.toHandsOut, by rw [← hready]; exact d.readied, fun m hm => (d.others m hm).trans (hcores m hm)⟩

theorem Delivers.after {c : Nat} {h : W64} {s t u : State} (d : Delivers c h s t) (k : HandsOut t u) (hcores : u.cores = t.cores) :
    Delivers c h s u :=
  ⟨d.toHandsOut.trans k, by rw [core_of_cores hcores]; exact d.readied, fun m hm => (core_of_cores hcores m).trans (d.others m hm)⟩

/-- A unit that reads the handle becomes ready. -/
theorem readied_delivers (c o : Nat) {u : UnitInst} {h : W64} (hu : u.inputs = [h]) (s : State) :
    Delivers c h s (s.modCore c (fun k => { k with ready := k.ready ++ [u], releasedAt := some o })) := by
  have hcore := fun m => State.core_modCore s c m (fun k => { k with ready := k.ready ++ [u], releasedAt := some o })
  refine ⟨⟨rfl, fun k => ⟨_, rfl⟩, fun _ hx => hx, fun m => ?_, fun m v hv => ?_⟩, ⟨u, hu, ?_⟩, fun m hm => ?_⟩
  · rw [hcore]
    split
    · next hm => rw [hm]
    · rfl
  · rw [hcore]
    split
    · next hm => exact List.mem_append_left _ (hm ▸ hv)
    · exact hv
  · rw [hcore, if_pos rfl]
  · rw [hcore, if_neg hm]

theorem unitOf_inputs (s : State) (c : Nat) (q : Queue) (h : W64) (order : Nat) : (unitOf s c q h order).inputs = [h] := by
  unfold unitOf
  dsimp only
  split <;> rfl

/-- A delivery makes a unit ready that reads the handle, and then issues what fetches of it the queue lets go. -/
theorem deliver_delivers (c n : Nat) (q : Queue) (h : W64) (s : State) : Delivers c h s (deliver c n q h s) := by
  have hnext : HandsOut s s.nextOrder.2 := modQmg_handsOut (fun m => { m with order := m.order + 1 }) s
  have hready := (readied_delivers c s.nextOrder.2.clock (unitOf_inputs s.nextOrder.2 c q h s.nextOrder.1) s.nextOrder.2).before
    hnext (fun _ _ => rfl) rfl
  unfold deliver
  dsimp only
  split
  · exact (hready.after (modQmg_handsOut _ _) rfl).after (issueFetches_handsOut n _) (issueFetches_endsTransfer n _).cores
  · exact hready

/-- What became of the queue of a delivery: OUT_COUNT apart, nothing. -/
theorem HandsOut.entries {s t : State} (h : HandsOut s t) (k : Nat) : (t.queue k).entries = (s.queue k).entries := by
  obtain ⟨o, ho⟩ := h.queues k
  rw [ho]

theorem HandsOut.pushCount {s t : State} (h : HandsOut s t) (k : Nat) : (t.queue k).pushCount = (s.queue k).pushCount := by
  obtain ⟨o, ho⟩ := h.queues k
  rw [ho]

/-! ### Accepted pushes (R184, R187) -/

/-- Consumers of a handle that hold no credit: they find it in the ring. -/
def uncredited (s : State) (n : Nat) (h : W64) : List Nat :=
  (s.consumersOf (s.queue n) h).filter (fun c => !(s.queue n).credits.contains c)

/-- Consumers of a handle that hold a credit: they receive it at once. -/
def credited (s : State) (n : Nat) (h : W64) : List Nat := (s.consumersOf (s.queue n) h).filter ((s.queue n).credits.contains ·)

/-- The consumers that do not receive a pushed handle at once are those without a credit. -/
theorem uncredited_eq (s : State) (n : Nat) (h : W64) :
    (s.consumersOf (s.queue n) h).filter (fun c => !(credited s n h).contains c) = uncredited s n h := by
  refine List.filter_congr (fun c hc => ?_)
  unfold credited
  simp [hc]

/-- The entry that an accepted push leaves: none when every consumer holds a credit. -/
def leftEntry (s : State) (n : Nat) (h : W64) : List (W64 × List Nat) :=
  if (s.consumersOf (s.queue n) h).any (fun c => !(s.queue n).credits.contains c) || (s.consumersOf (s.queue n) h).isEmpty
    then [(h, uncredited s n h)] else []

/-- An accepted push leaves its entry and its count, and then delivers to the credited consumers. -/
theorem pushEntry_eq (n : Nat) (h : W64) (s : State) : ∃ f : Queue → Queue,
    (f (s.queue n)).entries = (s.queue n).entries ++ leftEntry s n h ∧
    (f (s.queue n)).pushCount = ((s.queue n).pushCount + 1) % 2 ^ 32 ∧
    pushEntry n h s = forEach (credited s n h) (fun c s' => deliver c n (s.queue n) h (endWait c (.pop n) s')) (s.modQueue n f) := by
  have hleft : leftEntry s n h =
      if (uncredited s n h).isEmpty && !(s.consumersOf (s.queue n) h).isEmpty then [] else [(h, uncredited s n h)] := by
    have hany : (s.consumersOf (s.queue n) h).any (fun c => !(s.queue n).credits.contains c) = !(uncredited s n h).isEmpty := by
      rw [Bool.eq_iff_iff]
      simp [uncredited]
    unfold leftEntry
    rw [hany]
    cases (uncredited s n h).isEmpty <;> cases (s.consumersOf (s.queue n) h).isEmpty <;> rfl
  have hrest := uncredited_eq s n h
  unfold credited at hrest ⊢
  unfold pushEntry
  dsimp only
  rw [hrest, hleft]
  by_cases hnone : ((uncredited s n h).isEmpty && !(s.consumersOf (s.queue n) h).isEmpty) = true
  · rw [if_pos hnone, if_pos hnone]
    exact ⟨_, (List.append_nil _).symm, rfl, rfl⟩
  · rw [if_neg hnone, if_neg hnone]
    exact ⟨_, rfl, rfl, rfl⟩

/-- Every credited consumer receives the handle that is pushed. -/
theorem forEach_deliver_readies (n : Nat) (q : Queue) (h : W64) (cs : List Nat) (s : State) : ∀ c ∈ cs,
    ∃ u ∈ ((forEach cs (fun c s => deliver c n q h (endWait c (.pop n) s)) s).core c).ready, u.inputs = [h] :=
  forEach_reaches HandsOut (fun c t => ∃ u ∈ (t.core c).ready, u.inputs = [h])
    (fun c t => (endWait_handsOut c _ t).trans (deliver_delivers c n q h _).toHandsOut)
    (fun c t => by
      obtain ⟨u, hu, hready⟩ := (deliver_delivers c n q h (endWait c (.pop n) t)).readied
      exact ⟨u, by rw [hready]; simp, hu⟩)
    (fun c s t ⟨u, hu, hinputs⟩ k => ⟨u, k.ready c u hu, hinputs⟩) cs s

/-- What an accepted push of handle `h` to queue `n` leaves between `s` and `t`. -/
structure Pushed (n : Nat) (h : W64) (s t : State) : Prop where
  frame : t = { s with cores := t.cores, qmg := t.qmg }
  entries : (t.queue n).entries = (s.queue n).entries ++ leftEntry s n h
  pushCount : (t.queue n).pushCount = ((s.queue n).pushCount + 1) % 2 ^ 32
  waiters : ∀ x ∈ t.qmg.waiters, x ∈ s.qmg.waiters
  run : ∀ c, (t.core c).run = (s.core c).run
  ready : ∀ c ∈ credited s n h, ∃ u ∈ (t.core c).ready, u.inputs = [h]

theorem pushEntry_pushed (n : Nat) (h : W64) (s : State) : Pushed n h s (pushEntry n h s) := by
  obtain ⟨f, hentries, hcount, heq⟩ := pushEntry_eq n h s
  have hands : HandsOut (s.modQueue n f) (pushEntry n h s) := by
    rw [heq]
    exact .forEach _ (fun c t => (endWait_handsOut c _ t).trans (deliver_delivers c n _ h _).toHandsOut) _
  refine ⟨hands.frame, ?_, ?_, hands.waiters, hands.run, ?_⟩
  · rw [hands.entries, State.queue_modQueue_self, hentries]
  · rw [hands.pushCount, State.queue_modQueue_self, hcount]
  · rw [heq]
    exact forEach_deliver_readies n (s.queue n) h _ _

end Sys2Proof.Machine

/-! Allocations and returns (R172, R177 to R179, R184, R188): what a requester receives from a free queue that serves it, and what its
return leaves of the buffer. -/

namespace Sys2Proof.Machine

open Sys2Proof Sys2Proof.Machine.Bits

/-! ### Windows (R133) -/

/-- A new buffer opens windows, and no more of a core changes. -/
theorem openWindows_effect (pl : PoolSt) (i gen seg epoch : Nat) (s : State) :
    openWindows pl i gen seg epoch s = { s with cores := (openWindows pl i gen seg epoch s).cores } ∧
      ∀ m, ∃ ws, (openWindows pl i gen seg epoch s).core m = { s.core m with windows := ws } := by
  unfold openWindows
  split
  · refine forEach_inv (fun t => t = { s with cores := t.cores } ∧ ∀ m, ∃ ws, t.core m = { s.core m with windows := ws }) _ _ ?_ s
      ⟨rfl, fun m => ⟨_, rfl⟩⟩
    rintro c t ⟨hframe, hcore⟩
    refine ⟨by rw [hframe]; rfl, fun m => ?_⟩
    rw [State.core_modCore]
    obtain ⟨ws, hws⟩ := hcore m
    split
    · next hm =>
      rw [← hm, hws]
      exact ⟨_, rfl⟩
    · exact ⟨ws, hws⟩
  · exact ⟨rfl, fun m => ⟨_, rfl⟩⟩

/-! ### A buffer that is taken (R172, R177) -/

theorem State.buffer_modBuffer_self (p i : Nat) (f : Buffer → Buffer) (s : State) :
    (s.modBuffer p i f).buffer p i = f (s.buffer p i) := (State.buffer_modBuffer p i i f s).trans (if_pos rfl)

theorem State.queue_modBuffer (p i : Nat) (f : Buffer → Buffer) (s : State) (n : Nat) : (s.modBuffer p i f).queue n = s.queue n := rfl

/-- A unit that holds one more output writes no scratchpad. -/
theorem holdOutput_sp (c : Nat) (q : Option Nat) (h : W64) (s : State) (m : Nat) : ((holdOutput c q h s).core m).sp = (s.core m).sp := by
  unfold holdOutput
  rw [State.core_modCore]
  split
  · next hm => rw [hm]
  · rfl

/-- The handle that an allocation from pool `p` gives for the free queue's handle `h`. -/
def takenHandle (s : State) (p : Nat) (pl : PoolSt) (h : W64) : W64 :=
  freeHandle p pl (ofHandle h).index (nextGen (s.buffer p (ofHandle h).index).gen) (ofHandle h).tag

/-- Between `s` and `t` the buffer of the free queue's handle `h` was taken, and `es` are the handles left there. -/
structure TakesFree (p : Nat) (pl : PoolSt) (h : W64) (es : List (W64 × List Nat)) (s t : State) : Prop where
  frame : t = { s with cores := t.cores, qmg := t.qmg, outs := t.outs }
  entries : (t.queue pl.freeQueue).entries = es
  gen : (t.buffer p (ofHandle h).index).gen = nextGen (s.buffer p (ofHandle h).index).gen
  returns : (t.buffer p (ofHandle h).index).returns = pl.consumers
  waiters : t.qmg.waiters = s.qmg.waiters
  sp : ∀ m, (t.core m).sp = (s.core m).sp

theorem TakesFree.sameMemory {p : Nat} {pl : PoolSt} {h : W64} {es : List (W64 × List Nat)} {s t : State} (k : TakesFree p pl h es s t) :
    SameMemory s t := ⟨sameDram_of_eq (by rw [k.frame]), fun n w => congrArg (Tab.get · 0 w) (k.sp n)⟩

theorem takeFree_taken {s : State} {pl : PoolSt} {h : W64} {ws : List Nat} {es : List (W64 × List Nat)}
    (hentries : (s.queue pl.freeQueue).entries = (h, ws) :: es) (p seg : Nat) :
    ∃ t, takeFree p pl seg s = some (takenHandle s p pl h, t) ∧ t.outs = s.outs ∧ TakesFree p pl h es s t := by
  unfold takeFree
  dsimp only
  rw [hentries]
  dsimp only
  refine ⟨_, rfl, ?_⟩
  generalize hs2 : (s.modQueue pl.freeQueue _).modBuffer p _ _ = s2
  obtain ⟨hframe, hcore⟩ := openWindows_effect pl (ofHandle h).index (nextGen (s.buffer p (ofHandle h).index).gen) seg
    (s.queue pl.freeQueue).epoch s2
  have hqmg : (openWindows pl (ofHandle h).index (nextGen (s.buffer p (ofHandle h).index).gen) seg (s.queue pl.freeQueue).epoch s2).qmg =
    s2.qmg := by rw [hframe]
  subst hs2
  refine ⟨by rw [hframe]; rfl, ⟨by rw [hframe]; rfl, ?_, ?_, ?_, by rw [hqmg]; rfl, fun m => ?_⟩⟩
  · refine (congrArg (fun m : Qmg => (Tab.get m.queues {} pl.freeQueue).entries) hqmg).trans ?_
    exact congrArg Queue.entries ((State.queue_modBuffer p _ _ _ _).trans (State.queue_modQueue_self s pl.freeQueue _))
  · refine (congrArg (fun m : Qmg => (Tab.get m.buffers {} (bufKey p (ofHandle h).index)).gen) hqmg).trans ?_
    exact congrArg Buffer.gen (State.buffer_modBuffer_self p _ _ _)
  · refine (congrArg (fun m : Qmg => (Tab.get m.buffers {} (bufKey p (ofHandle h).index)).returns) hqmg).trans ?_
    exact congrArg Buffer.returns (State.buffer_modBuffer_self p _ _ _)
  · obtain ⟨ws, hws⟩ := hcore m
    rw [hws]
    rfl

theorem takeFree_empty {s : State} {pl : PoolSt} (hentries : (s.queue pl.freeQueue).entries = []) (p seg : Nat) :
    takeFree p pl seg s = none := by
  unfold takeFree
  dsimp only
  rw [hentries]

/-! ### Handles that are given (R177, R188) -/

/-- A handle that is given is sent, and of the state only the unit that holds it changes. -/
theorem giveHandle_effect (a : Agent) (q : Option Nat) (h : W64) (s : State) :
    Sends s (giveHandle a q h s) (.handle (agentUnit a) h) ∧
      giveHandle a q h s = { s with outs := (giveHandle a q h s).outs, cores := (giveHandle a q h s).cores } ∧
      ∀ m, ((giveHandle a q h s).core m).sp = (s.core m).sp := by
  unfold giveHandle
  dsimp only
  split
  · next c => exact ⟨.before (.of_eq rfl) (Sends.emit (holdOutput c.val q h s) _), rfl, holdOutput_sp c.val q h s⟩
  · exact ⟨Sends.emit s _, rfl, fun _ => rfl⟩

/-- What an allocation that finds a buffer leaves. -/
structure Allocates (a : Agent) (p : Nat) (pl : PoolSt) (h : W64) (es : List (W64 × List Nat)) (s t : State) : Prop
    extends TakesFree p pl h es s t where
  sends : Sends s t (.handle (agentUnit a) (takenHandle s p pl h))

theorem giveHandle_allocates {p : Nat} {pl : PoolSt} {h : W64} {es : List (W64 × List Nat)} {s t : State}
    (k : TakesFree p pl h es s t) (houts : t.outs = s.outs) (a : Agent) (q : Option Nat) :
    Allocates a p pl h es s (giveHandle a q (takenHandle s p pl h) t) := by
  obtain ⟨hsends, hframe, hsp⟩ := giveHandle_effect a q (takenHandle s p pl h) t
  generalize giveHandle a q (takenHandle s p pl h) t = u at hsends hframe hsp
  have hqmg : u.qmg = t.qmg := by rw [hframe]
  refine ⟨⟨by rw [hframe, k.frame], ?_, ?_, ?_, by rw [hqmg, k.waiters], fun m => (hsp m).trans (k.sp m)⟩, .before (.of_eq houts) hsends⟩
  · exact (congrArg (fun m : Qmg => (Tab.get m.queues {} pl.freeQueue).entries) hqmg).trans k.entries
  · exact (congrArg (fun m : Qmg => (Tab.get m.buffers {} (bufKey p (ofHandle h).index)).gen) hqmg).trans k.gen
  · exact (congrArg (fun m : Qmg => (Tab.get m.buffers {} (bufKey p (ofHandle h).index)).returns) hqmg).trans k.returns

/-! ### Allocations -/

section Allocation

variable {s : State} {a : Agent} {p : Nat} {pl : PoolSt} (hpool : s.pool? p = some pl) (hserves : QueueServes s a pl.freeQueue)
include hpool hserves

/-- A requester that the free queue serves passes the checks of an allocation. -/
theorem allocGate_serves (take : PoolSt → State → AllocStep) : allocGate a p take s = take pl s := by
  obtain ⟨hinj, hverdict⟩ := hserves
  unfold allocGate
  rw [hpool]
  dsimp only
  rw [readDescriptor_clean hinj]
  dsimp only
  rw [hverdict]
  rfl

theorem allocFrom_takes {h : W64} {ws : List Nat} {es : List (W64 × List Nat)}
    (hentries : (s.queue pl.freeQueue).entries = (h, ws) :: es) (seg : Nat) :
    ∃ t, allocFrom a p seg s = .got (takenHandle s p pl h) t ∧ t.outs = s.outs ∧ TakesFree p pl h es s t := by
  obtain ⟨t, htake, houts, htaken⟩ := takeFree_taken hentries p seg
  refine ⟨t, ?_, houts, htaken⟩
  unfold allocFrom
  rw [allocGate_serves hpool hserves, htake]

theorem allocFrom_waits (hentries : (s.queue pl.freeQueue).entries = []) (seg : Nat) : allocFrom a p seg s = .wait s := by
  unfold allocFrom
  rw [allocGate_serves hpool hserves, takeFree_empty hentries]

end Allocation

/-- A request names pool `p`: by its number, or through a link of frames. -/
def Names (s : State) (via : AllocVia) (p seg : Nat) (pl : PoolSt) : Prop :=
  via = .pool p ∨ ∃ l line x, via = .link l line seg ∧ Tab.find s.qmg.links l = some x ∧ (x.ends seg).1 = p ∧ pl.kind ≠ 1

/-- An allocation by a pool's number or through a link of frames takes what the pool gives. -/
theorem allocate_eq {s : State} {via : AllocVia} {p seg : Nat} {pl : PoolSt} (hnames : Names s via p seg pl)
    (hpool : s.pool? p = some pl) (a : Agent) : ∃ (k : Nat) (q : State → Option Nat), allocate a via s =
      match allocFrom a p k s with
      | .ended s1 => s1
      | .wait s1 => waitAlloc a via s1
      | .got h s1 => giveHandle a (q s1) h s1 := by
  rcases hnames with rfl | ⟨l, line, x, rfl, hlink, rfl, hkind⟩
  · exact ⟨0, (queueOfPool · p), rfl⟩
  · refine ⟨seg, fun _ => some (x.ends seg).2, ?_⟩
    unfold allocate
    dsimp only
    rw [hlink]
    dsimp only
    rw [if_neg (by rw [hpool]; simpa using hkind)]
    rfl

theorem allocate_allocates {s : State} {a : Agent} {via : AllocVia} {p seg : Nat} {pl : PoolSt} (hnames : Names s via p seg pl)
    (hpool : s.pool? p = some pl) (hserves : QueueServes s a pl.freeQueue) {h : W64} {ws : List Nat} {es : List (W64 × List Nat)}
    (hentries : (s.queue pl.freeQueue).entries = (h, ws) :: es) : Allocates a p pl h es s (allocate a via s) := by
  obtain ⟨k, q, halloc⟩ := allocate_eq hnames hpool a
  obtain ⟨t, htake, houts, htaken⟩ := allocFrom_takes hpool hserves hentries k
  rw [halloc, htake]
  exact giveHandle_allocates htaken houts a _

theorem allocate_waits {s : State} {a : Agent} {via : AllocVia} {p seg : Nat} {pl : PoolSt} (hnames : Names s via p seg pl)
    (hpool : s.pool? p = some pl) (hserves : QueueServes s a pl.freeQueue) (hentries : (s.queue pl.freeQueue).entries = []) :
    allocate a via s = waitAlloc a via s := by
  obtain ⟨k, q, halloc⟩ := allocate_eq hnames hpool a
  rw [halloc, allocFrom_waits hpool hserves hentries]

/-- A request that a Strata link has served gets the handle that it gave (R188). -/
theorem allocate_served {s : State} {a : Agent} {l line seg : Nat} {x : Link} {r : Nat × Nat × W64} {pl : PoolSt}
    (hlink : Tab.find s.qmg.links l = some x) (hpool : s.pool? (x.ends seg).1 = some pl) (hkind : pl.kind = 1)
    (hrecent : x.recent.find? (fun r => r.1 == line && r.2.1 == seg) = some r) (hserves : QueueServes s a pl.freeQueue) :
    allocate a (.link l line seg) s = giveHandle a none r.2.2 s := by
  unfold allocate
  dsimp only
  rw [hlink]
  dsimp only
  rw [if_pos (by rw [hpool, Option.map_some, hkind])]
  unfold allocStrata
  dsimp only
  rw [hrecent]
  dsimp only
  rw [allocGate_serves hpool hserves]

/-! ### Returns (R178, R179, R184) -/

section Return

variable {s : State} {a : Agent} {h : W64} {pl : PoolSt} (hinj : (s.hdr .qmg).inj = 0) (hgood : handleGood s h = true)
  (hpool : s.pool? (ofHandle h).pool = some pl)
include hinj hgood hpool

theorem returnTurn_eq : returnTurn a h s = returnHere a h pl s := by
  unfold returnTurn
  rw [hpool]
  dsimp only
  rw [readDescriptor_clean hinj]
  simp [hgood]

/-- A return to a HELD free queue waits. -/
theorem coreReturn_waits {n : CoreNum} (hstands : queueStands s (s.queue pl.freeQueue) (agentPart s (.core n) pl.part) = .wait) :
    coreReturn n h s = beginWait n.val (.ret h) s := by
  unfold coreReturn
  rw [returnTurn_eq hinj hgood hpool]
  unfold returnHere
  rw [hstands]
  rfl

variable {n : CoreNum} (hstands : queueStands s (s.queue pl.freeQueue) (agentPart s (.core n) pl.part) = .accept)
  (hcurrent : handleCurrent s h = true)
include hstands hcurrent

/-- A return of a buffer that no return is outstanding of is refused. -/
theorem coreReturn_double (hreturns : (s.buffer (ofHandle h).pool (ofHandle h).index).returns = 0) :
    coreReturn n h s = refuseOp (.core n) (some Bit.qmgDouble) s := by
  unfold coreReturn
  rw [returnTurn_eq hinj hgood hpool]
  unfold returnHere
  rw [hstands]
  unfold countReturn
  simp [hcurrent, hreturns]

/-- The last return frees the buffer. -/
theorem coreReturn_last (hreturns : (s.buffer (ofHandle h).pool (ofHandle h).index).returns = 1) :
    coreReturn n h s = dropInput n.val h (giveFree (ofHandle h).pool pl (ofHandle h).index (ofHandle h).tag s) := by
  unfold coreReturn
  rw [returnTurn_eq hinj hgood hpool]
  unfold returnHere
  rw [hstands]
  unfold countReturn
  simp [hcurrent, hreturns]

/-- An earlier one counts down what is outstanding. -/
theorem coreReturn_counts (hreturns : 1 < (s.buffer (ofHandle h).pool (ofHandle h).index).returns) :
    coreReturn n h s = dropInput n.val h (s.modBuffer (ofHandle h).pool (ofHandle h).index (fun b =>
      { b with returns := (s.buffer (ofHandle h).pool (ofHandle h).index).returns - 1 })) := by
  unfold coreReturn
  rw [returnTurn_eq hinj hgood hpool]
  unfold returnHere
  rw [hstands]
  unfold countReturn
  have hsome : (s.buffer (ofHandle h).pool (ofHandle h).index).returns ≠ 0 ∧
      (s.buffer (ofHandle h).pool (ofHandle h).index).returns ≠ 1 := by omega
  simp [hcurrent, hsome]

end Return

/-- A unit that has returned a handle does not read it. -/
theorem dropInput_inputs (n : Nat) (h : W64) (s : State) {u : UnitInst} (hu : ((dropInput n h s).core n).run = some u) : h ∉ u.inputs := by
  unfold dropInput at hu
  rw [State.core_modCore_self, Option.map_eq_some_iff] at hu
  obtain ⟨v, -, rfl⟩ := hu
  simp

/-- A buffer that is freed stands at the end of its free queue, under its generation. -/
theorem giveFree_queue (p : Nat) (pl : PoolSt) (i tag : Nat) (s : State) : (giveFree p pl i tag s).queue pl.freeQueue =
    (s.queue pl.freeQueue).enqueue (freeHandle p pl i (s.buffer p i).gen tag) [] := by
  unfold giveFree
  dsimp only
  generalize hcleared : s.modBuffer p i _ = s1
  have hclosed := closeWindows_qmg pl i s1
  have hqueue : (closeWindows pl i s1).queue pl.freeQueue = s.queue pl.freeQueue := by
    unfold State.queue
    rw [hclosed, ← hcleared]
    rfl
  have hgen : ((closeWindows pl i s1).buffer p i).gen = (s.buffer p i).gen := by
    rw [show (closeWindows pl i s1).buffer p i = s1.buffer p i from congrArg (fun m : Qmg => Tab.get m.buffers {} (bufKey p i)) hclosed,
      ← hcleared, State.buffer_modBuffer_self]
  rw [State.queue_modQueue_self, hgen, hqueue]

theorem dropInput_buffer (n : Nat) (h : W64) (s : State) (p i : Nat) : (dropInput n h s).buffer p i = s.buffer p i := rfl

/-- What an accepted return leaves of its buffer, its unit and the waits. -/
structure CountsReturn (n : CoreNum) (h : W64) (s t : State) : Prop where
  returns : (t.buffer (ofHandle h).pool (ofHandle h).index).returns = (s.buffer (ofHandle h).pool (ofHandle h).index).returns - 1
  inputs : ∀ u, (t.core n.val).run = some u → h ∉ u.inputs
  waiters : t.qmg.waiters = s.qmg.waiters
  mem : SameMemory s t
  ctl : t.ctl = s.ctl

theorem coreReturn_countsReturn {s : State} {h : W64} {pl : PoolSt} {n : CoreNum} (hinj : (s.hdr .qmg).inj = 0)
    (hgood : handleGood s h = true) (hpool : s.pool? (ofHandle h).pool = some pl)
    (hstands : queueStands s (s.queue pl.freeQueue) (agentPart s (.core n) pl.part) = .accept) (hcurrent : handleCurrent s h = true)
    (hsome : 0 < (s.buffer (ofHandle h).pool (ofHandle h).index).returns) : CountsReturn n h s (coreReturn n h s) := by
  rcases Nat.eq_or_lt_of_le hsome with hone | hmore
  · rw [coreReturn_last hinj hgood hpool hstands hcurrent hone.symm]
    have hgiven := giveFree_returned (ofHandle h).pool pl (ofHandle h).index (ofHandle h).tag s
    refine ⟨?_, fun u hu => dropInput_inputs _ _ _ hu, hgiven.waiters, ?_, hgiven.ctl⟩
    · rw [← hone]
      exact congrArg Buffer.returns ((giveFree_buffer _ pl _ _ _ s).trans (if_pos rfl))
    · exact (hgiven.keeps.sameMemory hgiven.dram).trans (modCore_sameMemory _ _)
  · rw [coreReturn_counts hinj hgood hpool hstands hcurrent hmore]
    refine ⟨?_, fun u hu => dropInput_inputs _ _ _ hu, rfl, ?_, rfl⟩
    · rw [dropInput_buffer, State.buffer_modBuffer_self]
    · exact ((modBuffer_keepsWords _ _ _ s).sameMemory rfl).trans (modCore_sameMemory _ _)

/-! ### The commands -/

/-- An uncorrectable error of a table of the QMG is a fatal error, whatever was asked (R389). -/
theorem settle_withTable_uncorrectable {s : State} (hwait : NoneWaits s) (hsafe : s.safe.ssCause = 0) (t : State) :
    (settle (withTable .uncorrectable s t)).safe.ssCause = SS.fatal ∧ PinsLow (settle (withTable .uncorrectable s t)) := by
  obtain ⟨hwaiting, hfences⟩ := hwait.of_ctl (t := fatalError Fatal.qmgTable s) (by simp)
  rw [show withTable .uncorrectable s t = fatalError Fatal.qmgTable s from rfl, settle_none hwaiting hfences]
  exact fatalError_safe _ hsafe

section Commands

variable {s t : State} {P : State → Prop}

theorem completes_allocate {a : Agent} {via : AllocVia} (hfree : agentWaits s a = false) (h : allocate a via s = t) (hwait : NoneWaits t)
    (hP : P t) : Completes (.allocate a via .clean) s P := by
  refine ⟨t, congrArg Host.Outcome.next ?_, hP⟩
  rw [if_neg (by simp [hfree]), show withTable .clean s (allocate a via s) = allocate a via s from rfl, h,
    settle_none hwait.1 hwait.2]

theorem completes_bufferReturn {n : CoreNum} {h : W64} (hfree : agentWaits s (.core n) = false) (hret : coreReturn n h s = t)
    (hwait : NoneWaits t) (hP : P t) : Completes (.bufferReturn n h) s P := by
  refine ⟨t, congrArg Host.Outcome.next ?_, hP⟩
  rw [if_neg (by simp [hfree]), hret, settle_none hwait.1 hwait.2]

end Commands

/-- A core whose requests arrive waits on nothing. -/
theorem waitOf_none_of_agentWaits {s : State} {n : CoreNum} (h : agentWaits s (.core n) = false) : s.waitOf n.val = none := by
  unfold agentWaits at h
  simp at h
  exact h.1

theorem bufferReturn_waits {s : State} {n : CoreNum} {h : W64} {pl : PoolSt} (hwait : NoneWaits s)
    (hfree : agentWaits s (.core n) = false) (hinj : (s.hdr .qmg).inj = 0) (hgood : handleGood s h = true)
    (hpool : s.pool? (ofHandle h).pool = some pl)
    (hstands : queueStands s (s.queue pl.freeQueue) (agentPart s (.core n) pl.part) = .wait) :
    Completes (.bufferReturn n h) s (fun t => t.waitOf n.val = some (.ret h) ∧ (t.core n.val).run = (s.core n.val).run ∧
      t = { s with cores := t.cores, qmg := t.qmg } ∧ t.qmg.buffers = s.qmg.buffers ∧ t.qmg.queues = s.qmg.queues) := by
  refine completes_bufferReturn hfree (coreReturn_waits hinj hgood hpool hstands) (hwait.of_ctl rfl)
    ⟨beginWait_waitOf (waitOf_none_of_agentWaits hfree) _, ?_, rfl, rfl, rfl⟩
  obtain ⟨seq, since, hcore⟩ := beginWait_core n.val (.ret h) s n.val
  rw [hcore]

/-- A refused return raises its bit, and leaves the QMG and both memories as they were. -/
theorem refuseOp_effect (a : Agent) {bit : Nat} (hbit : bit < 32) (s : State) :
    ((refuseOp a (some bit) s).hdr .qmg).errStat.getLsbD bit = true ∧ (refuseOp a (some bit) s).qmg = s.qmg ∧
      (refuseOp a (some bit) s).ctl = s.ctl ∧ SameMemory s (refuseOp a (some bit) s) := by
  have hraised := raise_sets .qmg bit s hbit
  refine ⟨?_, ?_, (refuseOp_returned a (some bit) s).ctl, (refuseOp_keepsWords a (some bit) s).sameMemory (refuseOp_returned a _ s).dram⟩
  all_goals
    unfold refuseOp
    dsimp only
    split
  · exact (report_keepsWords _ (raise .qmg bit s)).trans (flagUnit_keepsWords _ _ _) |>.errStat _ _ hraised
  · exact hraised
  · exact (raise_frame s .qmg bit).2.2.2.2.2.2.2.2.2.2.1
  · exact (raise_frame s .qmg bit).2.2.2.2.2.2.2.2.2.2.1

theorem bufferReturn_accepted {s : State} {n : CoreNum} {h : W64} {pl : PoolSt} {b : Buffer} (hwait : NoneWaits s)
    (hfree : agentWaits s (.core n) = false) (hinj : (s.hdr .qmg).inj = 0) (hgood : handleGood s h = true)
    (hpool : s.pool? (ofHandle h).pool = some pl) (hb : s.buffer (ofHandle h).pool (ofHandle h).index = b)
    (hstands : queueStands s (s.queue pl.freeQueue) (agentPart s (.core n) pl.part) = .accept) (hcurrent : handleCurrent s h = true) :
    Completes (.bufferReturn n h) s (fun t =>
      (b.returns = 1 →
        (t.queue pl.freeQueue).entries = (s.queue pl.freeQueue).entries ++
          [(freeHandle (ofHandle h).pool pl (ofHandle h).index b.gen (ofHandle h).tag, [])] ∧
        (t.buffer (ofHandle h).pool (ofHandle h).index).returns = 0) ∧
      (1 < b.returns → t.buffer (ofHandle h).pool (ofHandle h).index = { b with returns := b.returns - 1 } ∧
        t.qmg.queues = s.qmg.queues) ∧
      (b.returns = 0 → (t.hdr .qmg).errStat.getLsbD Bit.qmgDouble = true ∧ t.qmg = s.qmg) ∧
      (0 < b.returns → ∀ u, (t.core n.val).run = some u → h ∉ u.inputs) ∧ SameMemory s t) := by
  subst hb
  rcases Nat.eq_zero_or_pos (s.buffer (ofHandle h).pool (ofHandle h).index).returns with hnone | hsome
  · obtain ⟨hbit, hqmg, hctl, hmem⟩ := refuseOp_effect (.core n) (bit := Bit.qmgDouble) (by decide) s
    exact completes_bufferReturn hfree (coreReturn_double hinj hgood hpool hstands hcurrent hnone) (hwait.of_ctl hctl)
      ⟨fun h1 => by omega, fun h1 => by omega, fun _ => ⟨hbit, hqmg⟩, fun h1 => by omega, hmem⟩
  · have hcounts := coreReturn_countsReturn hinj hgood hpool hstands hcurrent hsome
    refine completes_bufferReturn hfree rfl (hwait.of_ctl hcounts.ctl)
      ⟨fun h1 => ⟨?_, by rw [hcounts.returns, h1]⟩, fun h1 => ?_, fun h0 => by omega, fun _ => hcounts.inputs, hcounts.mem⟩
    · rw [coreReturn_last hinj hgood hpool hstands hcurrent h1]
      exact congrArg Queue.entries (giveFree_queue _ pl _ _ s)
    · rw [coreReturn_counts hinj hgood hpool hstands hcurrent h1]
      exact ⟨by rw [dropInput_buffer, State.buffer_modBuffer_self], rfl⟩

/-- A requester that finds no buffer waits when it is a core; another one asks again later. -/
theorem waitAlloc_core {s : State} {c : CoreNum} (hidle : s.waitOf c.val = none) (via : AllocVia) :
    waitAlloc (.core c) via s = beginWait c.val (.alloc via) s := if_neg (by rw [hidle]; simp)

theorem waitAlloc_other {a : Agent} (h : ∀ c, a ≠ .core c) (via : AllocVia) (s : State) : waitAlloc a via s = s := by
  cases a with
  | core c => exact absurd rfl (h c)
  | _ => rfl

theorem allocate_waits_completes {s : State} {a : Agent} {via : AllocVia} {p seg : Nat} {pl : PoolSt} (hwait : NoneWaits s)
    (hfree : agentWaits s a = false) (hnames : Names s via p seg pl) (hpool : s.pool? p = some pl)
    (hserves : QueueServes s a pl.freeQueue) (hentries : (s.queue pl.freeQueue).entries = []) :
    Completes (.allocate a via .clean) s (fun t => (∀ c, a = .core c → t.waitOf c.val = some (.alloc via)) ∧
      ((∀ c, a ≠ .core c) → t = s) ∧ t = { s with cores := t.cores, qmg := t.qmg }) := by
  have halloc := allocate_waits hnames hpool hserves hentries
  by_cases hcore : ∃ c, a = .core c
  · obtain ⟨c, rfl⟩ := hcore
    have hidle := waitOf_none_of_agentWaits hfree
    rw [waitAlloc_core hidle] at halloc
    exact completes_allocate hfree halloc (hwait.of_ctl rfl)
      ⟨fun d hd => by cases hd; exact beginWait_waitOf hidle _, fun hother => absurd rfl (hother c), rfl⟩
  · have hother : ∀ c, a ≠ .core c := fun c hc => hcore ⟨c, hc⟩
    rw [waitAlloc_other hother] at halloc
    exact completes_allocate hfree halloc hwait ⟨fun c hc => absurd hc (hother c), fun _ => rfl, rfl⟩

/-- Settles O51: what a requester takes or gives back is one change of the free queue and the buffer, as the lemmas above say. -/
theorem allocationsCommandsComplete : Obligations.AllocationsCommandsComplete := by
  unfold Obligations.AllocationsCommandsComplete
  refine ⟨fun s a via hwait hfree => ⟨fun p seg pl hnames hpool hserves => ⟨fun h ws es hentries => ?_, fun hentries => ?_⟩,
    fun l line seg x r pl hvia hlink hpool hkind hrecent hserves => ?_⟩, fun s n h pl b hwait hfree hinj hgood hpool hb =>
    ⟨bufferReturn_waits hwait hfree hinj hgood hpool, bufferReturn_accepted hwait hfree hinj hgood hpool hb⟩,
    fun s a via n q h desc hwait hsafe hfree => ⟨?_, fun hcore hroom => ?_⟩⟩
  · have halloc := allocate_allocates hnames hpool hserves hentries
    exact completes_allocate hfree rfl (hwait.of_ctl (by rw [halloc.frame]))
      ⟨halloc.sends, halloc.entries, halloc.gen, halloc.returns, halloc.sameMemory⟩
  · exact allocate_waits_completes hwait hfree hnames hpool hserves hentries
  · subst hvia
    obtain ⟨hsends, hframe, -⟩ := giveHandle_effect a none r.2.2 s
    exact completes_allocate hfree (allocate_served hlink hpool hkind hrecent hserves) (hwait.of_ctl (by rw [hframe])) ⟨hsends, hframe⟩
  · intro i hi
    rcases List.mem_pair.mp hi with rfl | rfl
    · exact ⟨_, congrArg Host.Outcome.next (congrArg settle (if_neg (by simp [hfree]))), settle_withTable_uncorrectable hwait hsafe _⟩
    · exact ⟨_, congrArg Host.Outcome.next (congrArg settle (if_neg (by simp [hfree]))), settle_withTable_uncorrectable hwait hsafe _⟩
  · exact ⟨_, congrArg Host.Outcome.next (congrArg settle (if_neg (by simp [hcore, hroom]))), settle_withTable_uncorrectable hwait hsafe _⟩

end Sys2Proof.Machine

/-! Pushes, pops and the waits that end (R171, R182 to R184, R187): what each comes to at a queue that serves the requester. -/

namespace Sys2Proof.Machine

open Sys2Proof Sys2Proof.Machine.Bits

/-! ### Pushes (R171, R174, R183) -/

/-- A current handle of the requester's partition is accepted by a queue that serves the requester and has room. -/
theorem pushTurn_accepted {s : State} {a : Agent} {n : Nat} {h : W64} (hserves : QueueServes s a n) (hgood : handleGood s h = true)
    (hcurrent : handleCurrent s h = true) (hpool : foreignPool s a h = false) (hroom : (s.queue n).full = false) :
    pushTurn .clean a n h s = (.done, pushEntry n h s) := by
  obtain ⟨hinj, hverdict⟩ := hserves
  unfold pushTurn
  rw [readDescriptor_clean hinj]
  dsimp only
  rw [hverdict]
  simp [hgood, hcurrent, hpool, hroom]

/-- A requester that holds no unit pushes a checked handle as it is. -/
theorem pushNow_checked {s : State} {a : Agent} {n : Nat} {h : W64} (hidle : ∀ c, a = .core c → (s.core c.val).run = none)
    (hchecked : checkedPush s a h = true) (hturn : pushTurn .clean a n h s = (.done, pushEntry n h s)) :
    pushNow .clean a n h s = pushEntry n h s := by
  have hpush : pushChecked .clean a n h s = pushEntry n h s := by
    unfold pushChecked
    rw [hturn, hchecked]
    simp
  cases a with
  | core c =>
    refine Eq.trans ?_ hpush
    change pushHeld .clean c n h s = _
    unfold pushHeld
    rw [hidle c rfl]
  | _ => exact hpush

/-- Storing the check value and the metadata of an output changes buffer records and draws free values, and no more. -/
theorem checkHeld_stampOutput_frame (a : Agent) (h : W64) (u : UnitInst) (s : State) : ∃ bufs fr,
    checkHeld a h (stampOutput u h s) = { s with qmg := { s.qmg with buffers := bufs }, free := fr } := by
  unfold checkHeld
  split
  · exact ⟨_, _, rfl⟩
  · exact ⟨_, _, rfl⟩

theorem dropOutput_frame (n : Nat) (h : W64) (s : State) : dropOutput n h s = { s with cores := (dropOutput n h s).cores } := rfl

/-- A unit that gives up an output holds it no longer. -/
theorem dropOutput_outputs (n : Nat) (h : W64) (s : State) {u : UnitInst} (hu : ((dropOutput n h s).core n).run = some u) :
    ∀ o ∈ u.outputs, o.2 ≠ h := by
  unfold dropOutput at hu
  rw [State.core_modCore_self, Option.map_eq_some_iff] at hu
  obtain ⟨v, -, rfl⟩ := hu
  intro o ho
  simpa using (List.mem_filter.mp ho).2

/-- A core's push of what its unit holds: the handle with the unit's flags is pushed, and the unit gives it up. -/
theorem pushNow_held {s s1 : State} {c : CoreNum} {n : Nat} {v : UnitInst} {h k : W64} (hrun : (s.core c.val).run = some v)
    (hmay : mayPush s c.val n v h = true) (hs1 : checkHeld (.core c) h (stampOutput v h s) = s1) (hk : outHandle s1 v h = k)
    (hgood : handleGood s1 k = true) (hcurrent : handleCurrent s1 k = true) (hpool : foreignPool s1 (.core c) k = false)
    (hserves : QueueServes s (.core c) n) (hroom : (s.queue n).full = false) :
    pushNow .clean (.core c) n h s = dropOutput c.val h (pushEntry n k s1) := by
  obtain ⟨bufs, fr, hframe⟩ := checkHeld_stampOutput_frame (.core c) h v s
  rw [hs1] at hframe
  have hqueue : s1.queue n = s.queue n := by rw [hframe]; rfl
  have hserves1 : QueueServes s1 (.core c) n := by
    refine hserves.of (by rw [hframe]) hqueue (by rw [hframe]) (by rw [hframe]) (fun d _ => ?_)
    rw [hframe]
    exact ⟨rfl, rfl⟩
  have hturn := pushTurn_accepted hserves1 hgood hcurrent hpool (by rw [hqueue]; exact hroom)
  change pushHeld .clean c n h s = _
  unfold pushHeld
  rw [hrun]
  dsimp only
  rw [hmay, hs1, hk, hturn]
  rfl

/-! ### Pops (R184, R187) -/

section Pop

variable {s : State} {c : CoreNum} {n : Nat} (hserves : QueueServes s (.core c) n)
include hserves

/-- A pop takes the core's next entry and delivers its handle. -/
theorem pop_takes {h : W64} {es : List (W64 × List Nat)} (htake : takeEntry c.val (s.queue n).entries = some (h, es)) :
    ∃ f : Queue → Queue, (f (s.queue n)).entries = es ∧
      pop c n .clean s = deliver c.val n (s.queue n) h (s.modQueue n f) := by
  obtain ⟨hinj, hverdict⟩ := hserves
  unfold pop
  rw [readDescriptor_clean hinj]
  dsimp only
  rw [hverdict]
  dsimp only
  rw [htake]
  exact ⟨_, rfl, rfl⟩

/-- A pop that finds no entry leaves a credit, and the core waits. -/
theorem pop_waits (htake : takeEntry c.val (s.queue n).entries = none) : ∃ s1, pop c n .clean s = beginWait c.val (.pop n) s1 ∧
    s1.queue n = { s.queue n with credits := addOnce (s.queue n).credits c.val } ∧ s1.qmg.waiters = s.qmg.waiters ∧
    s1 = { s with qmg := s1.qmg } := by
  obtain ⟨hinj, hverdict⟩ := hserves
  unfold pop
  rw [readDescriptor_clean hinj]
  dsimp only
  rw [hverdict]
  dsimp only
  rw [htake]
  exact ⟨_, rfl, State.queue_modQueue_self s n (fun q => { q with credits := addOnce q.credits c.val }), rfl, rfl⟩

/-- A waiting pop whose entry has come takes it, and the wait ends. -/
theorem popResumes_takes {h : W64} {es : List (W64 × List Nat)} (htake : takeEntry c.val (s.queue n).entries = some (h, es)) :
    ∃ f : Queue → Queue, (f (s.queue n)).entries = es ∧
      popResumes c n s = deliver c.val n (s.queue n) h (endWait c.val (.pop n) (s.modQueue n f)) := by
  unfold popResumes
  dsimp only
  rw [hserves.2]
  dsimp only
  rw [htake]
  exact ⟨_, rfl, rfl⟩

/-- A waiting push of a current handle of the core's partition proceeds at a queue with room. -/
theorem pushResumes_accepted {h : W64} (hpool : foreignPool s (.core c) h = false) (hcurrent : handleCurrent s h = true)
    (hroom : (s.queue n).full = false) :
    pushResumes c n h s = pushEntry n h (dropPushed c.val h (endWait c.val (.push n h) s)) := by
  unfold pushResumes
  dsimp only
  rw [hserves.2]
  simp [hpool, hcurrent, hroom]

end Pop

/-! ### Allocations and returns that waited -/

/-- Without a wait left the core waits on nothing. -/
theorem waitOf_none {s : State} {c : Nat} (h : ∀ x ∈ s.qmg.waiters, x.core ≠ c) : s.waitOf c = none := by
  unfold State.waitOf
  rw [Option.map_eq_none_iff, List.find?_eq_none]
  exact fun x hx => by simpa using h x hx

/-- A core whose one wait ends waits on nothing. -/
theorem endWait_waitOf {s : State} {c : Nat} {on : WaitOn} (hone : ∀ x ∈ s.qmg.waiters, x.core = c → x.on = on) :
    (endWait c on s).waitOf c = none :=
  waitOf_none (fun x hx hc => endWait_waiters c on s x hx ⟨hc, hone x ((endWait_handsOut c on s).waiters x hx) hc⟩)

/-- What a core waits on depends on the waits alone. -/
theorem waitOf_of_waiters {s t : State} (h : t.qmg.waiters = s.qmg.waiters) (c : Nat) : t.waitOf c = s.waitOf c := by
  unfold State.waitOf
  rw [h]

/-- A waiting allocation whose free queue has a buffer takes it, and the core waits on nothing. -/
theorem allocResumes_allocates {s : State} {c : CoreNum} {p : Nat} {pl : PoolSt} {h : W64} {ws : List Nat} {es : List (W64 × List Nat)}
    (hpool : s.pool? p = some pl) (hserves : QueueServes s (.core c) pl.freeQueue)
    (hone : ∀ x ∈ s.qmg.waiters, x.core = c.val → x.on = .alloc (.pool p)) (hentries : (s.queue pl.freeQueue).entries = (h, ws) :: es) :
    Allocates (.core c) p pl h es (endWait c.val (.alloc (.pool p)) s) (allocResumes c (.pool p) s) ∧
      (allocResumes c (.pool p) s).waitOf c.val = none := by
  have halloc := allocate_allocates (s := endWait c.val (.alloc (.pool p)) s) (a := .core c) (seg := 0) (.inl rfl) hpool
    (hserves.endWait c.val _) hentries
  have hnone := (waitOf_of_waiters halloc.waiters c.val).trans (endWait_waitOf hone)
  have heq : allocResumes c (.pool p) s = allocate (.core c) (.pool p) (endWait c.val (.alloc (.pool p)) s) :=
    if_neg (by rw [hnone]; simp)
  rw [heq]
  exact ⟨halloc, hnone⟩

/-- A waiting return whose free queue takes it again counts down what is outstanding. -/
theorem returnResumes_countsReturn {s : State} {c : CoreNum} {h : W64} {pl : PoolSt} (hpool : s.pool? (ofHandle h).pool = some pl)
    (hinj : (s.hdr .qmg).inj = 0) (hstands : queueStands s (s.queue pl.freeQueue) (agentPart s (.core c) pl.part) = .accept)
    (hgood : handleGood s h = true) (hcurrent : handleCurrent s h = true)
    (hsome : 0 < (s.buffer (ofHandle h).pool (ofHandle h).index).returns) :
    CountsReturn c h (endWait c.val (.ret h) s) (returnResumes c h s) := by
  have hpart : agentPart (endWait c.val (.ret h) s) (.core c) pl.part = agentPart s (.core c) pl.part := by
    refine agentPart_of_core _ _ (fun d _ => ?_)
    obtain ⟨seq, hcore⟩ := endWait_core c.val (.ret h) s d.val
    rw [hcore]
    exact ⟨rfl, rfl⟩
  have heq : returnResumes c h s = coreReturn c h (endWait c.val (.ret h) s) := by
    unfold returnResumes
    rw [hpool, Option.map_some, hstands]
  rw [heq]
  exact coreReturn_countsReturn (s := endWait c.val (.ret h) s) hinj hgood hpool (by rw [hpart]; exact hstands) hcurrent hsome

/-! ### The commands -/

section Commands

variable {s t : State} {P : State → Prop}

theorem completes_queuePush {a : Agent} {n : QueueNum} {h : W64} (hfree : agentWaits s a = false)
    (hpush : pushNow .clean a n.val h s = t) (hwait : NoneWaits t) (hP : P t) : Completes (.queuePush a n h .clean .clean) s P := by
  refine ⟨t, congrArg Host.Outcome.next ?_, hP⟩
  rw [if_neg (by simp [hfree]), show withTable .clean s (pushNow .clean a n.val h s) = pushNow .clean a n.val h s from rfl, hpush,
    settle_none hwait.1 hwait.2]

theorem completes_queuePop {c : CoreNum} {n : QueueNum} (hfree : agentWaits s (.core c) = false) (hroom : runAheadFull s c.val = false)
    (hpop : pop c n.val .clean s = t) (hwait : NoneWaits t) (hP : P t) : Completes (.queuePop c n .clean .clean) s P := by
  refine ⟨t, congrArg Host.Outcome.next ?_, hP⟩
  rw [if_neg (by simp [hfree, hroom]), show withTable .clean s (pop c n.val .clean s) = pop c n.val .clean s from rfl, hpop,
    settle_none hwait.1 hwait.2]

theorem completes_queueWaitEnd {c : CoreNum} (hends : queueWaitEnds c s = t) (hwait : NoneWaits t) (hP : P t) :
    Completes (.queueWaitEnd c) s P := by
  refine ⟨t, congrArg Host.Outcome.next ?_, hP⟩
  rw [hends, settle_none hwait.1 hwait.2]

end Commands

theorem queuePop_takes {s : State} {c : CoreNum} {n : QueueNum} {h : W64} {es : List (W64 × List Nat)} (hwait : NoneWaits s)
    (hfree : agentWaits s (.core c) = false) (hroom : runAheadFull s c.val = false) (hserves : QueueServes s (.core c) n.val)
    (htake : takeEntry c.val (s.queue n.val).entries = some (h, es)) : Completes (.queuePop c n .clean .clean) s (fun t =>
      (t.queue n.val).entries = es ∧ (∃ u, (t.core c.val).ready = (s.core c.val).ready ++ [u] ∧ u.inputs = [h]) ∧
      OtherCores c.val s t ∧ t = { s with cores := t.cores, qmg := t.qmg }) := by
  obtain ⟨f, hentries, hpop⟩ := pop_takes hserves htake
  have hdelivers := deliver_delivers c.val n.val (s.queue n.val) h (s.modQueue n.val f)
  have hframe := hdelivers.frame
  obtain ⟨u, hu, hready⟩ := hdelivers.readied
  refine completes_queuePop hfree hroom hpop (hwait.of_ctl (by rw [hframe]; rfl)) ⟨?_, ⟨u, hready, hu⟩, hdelivers.others, hframe⟩
  rw [hdelivers.entries, State.queue_modQueue_self, hentries]

theorem queuePop_waits {s : State} {c : CoreNum} {n : QueueNum} (hwait : NoneWaits s) (hfree : agentWaits s (.core c) = false)
    (hroom : runAheadFull s c.val = false) (hserves : QueueServes s (.core c) n.val)
    (htake : takeEntry c.val (s.queue n.val).entries = none) : Completes (.queuePop c n .clean .clean) s (fun t =>
      t.waitOf c.val = some (.pop n.val) ∧ c.val ∈ (t.queue n.val).credits ∧ (t.queue n.val).entries = (s.queue n.val).entries ∧
      OtherCores c.val s t ∧ t = { s with cores := t.cores, qmg := t.qmg }) := by
  obtain ⟨s1, hpop, hqueue, hwaiters, hframe⟩ := pop_waits hserves htake
  have hidle := (waitOf_of_waiters hwaiters c.val).trans (waitOf_none_of_agentWaits hfree)
  have hbegun : (beginWait c.val (.pop n.val) s1).queue n.val = s1.queue n.val := rfl
  refine completes_queuePop hfree hroom hpop (hwait.of_ctl (by rw [hframe]; rfl)) ⟨beginWait_waitOf hidle _, ?_, ?_, fun m hm => ?_, ?_⟩
  · rw [hbegun, hqueue]
    exact mem_addOnce_self _ _
  · rw [hbegun, hqueue]
  · rw [beginWait_otherCores c.val (.pop n.val) s1 m hm, hframe]
    rfl
  · rw [beginWait_frame, hframe]

theorem queueWaitEnd_pop {s : State} {c : CoreNum} {n : Nat} {h : W64} {es : List (W64 × List Nat)} (hwait : NoneWaits s)
    (hon : s.waitOf c.val = some (.pop n)) (hserves : QueueServes s (.core c) n)
    (htake : takeEntry c.val (s.queue n).entries = some (h, es)) : Completes (.queueWaitEnd c) s (fun t =>
      (t.queue n).entries = es ∧ (∃ u ∈ (t.core c.val).ready, u.inputs = [h]) ∧
      (∀ x ∈ t.qmg.waiters, ¬ (x.core = c.val ∧ x.on = .pop n)) ∧ OtherCores c.val s t ∧
      t = { s with cores := t.cores, qmg := t.qmg }) := by
  obtain ⟨f, hentries, hresumes⟩ := popResumes_takes hserves htake
  have hends : queueWaitEnds c s = popResumes c n s := by
    unfold queueWaitEnds
    rw [hon]
  rw [hresumes] at hends
  have hdelivers := deliver_delivers c.val n (s.queue n) h (endWait c.val (.pop n) (s.modQueue n f))
  have hframe := hdelivers.frame
  obtain ⟨u, hu, hready⟩ := hdelivers.readied
  refine completes_queueWaitEnd hends (hwait.of_ctl (by rw [hframe]; rfl)) ⟨?_, ⟨u, by rw [hready]; simp, hu⟩,
    fun x hx => endWait_waiters _ _ _ x (hdelivers.waiters x hx), fun m hm => ?_, hframe⟩
  · rw [hdelivers.entries, (endWait_handsOut _ _ _).entries, State.queue_modQueue_self, hentries]
  · exact (hdelivers.others m hm).trans (endWait_otherCores c.val (.pop n) (s.modQueue n f) m hm)

theorem queueWaitEnd_push {s : State} {c : CoreNum} {n : Nat} {h : W64} (hwait : NoneWaits s)
    (hon : s.waitOf c.val = some (.push n h)) (hserves : QueueServes s (.core c) n) (hpool : foreignPool s (.core c) h = false)
    (hcurrent : handleCurrent s h = true) (hroom : (s.queue n).full = false) : Completes (.queueWaitEnd c) s (fun t =>
      (t.queue n).pushCount = ((s.queue n).pushCount + 1) % 2 ^ 32 ∧
      (∀ x ∈ t.qmg.waiters, ¬ (x.core = c.val ∧ x.on = .push n h)) ∧ t = { s with cores := t.cores, qmg := t.qmg }) := by
  have hends : queueWaitEnds c s = pushResumes c n h s := by
    unfold queueWaitEnds
    rw [hon]
  rw [pushResumes_accepted hserves hpool hcurrent hroom] at hends
  have hpushed := pushEntry_pushed n h (dropPushed c.val h (endWait c.val (.push n h) s))
  have hframe := hpushed.frame
  exact completes_queueWaitEnd hends (hwait.of_ctl (by rw [hframe]; rfl))
    ⟨hpushed.pushCount, fun x hx => endWait_waiters _ _ s x (hpushed.waiters x hx), hframe⟩

theorem queueWaitEnd_alloc {s : State} {c : CoreNum} {p : Nat} {pl : PoolSt} {h : W64} {ws : List Nat} {es : List (W64 × List Nat)}
    (hwait : NoneWaits s) (hon : s.waitOf c.val = some (.alloc (.pool p))) (hpool : s.pool? p = some pl)
    (hserves : QueueServes s (.core c) pl.freeQueue) (hone : ∀ x ∈ s.qmg.waiters, x.core = c.val → x.on = .alloc (.pool p))
    (hentries : (s.queue pl.freeQueue).entries = (h, ws) :: es) : Completes (.queueWaitEnd c) s (fun t =>
      (t.queue pl.freeQueue).entries = es ∧ t.waitOf c.val = none ∧ Sends s t (.handle c.val (takenHandle s p pl h))) := by
  have hends : queueWaitEnds c s = allocResumes c (.pool p) s := by
    unfold queueWaitEnds
    rw [hon]
  obtain ⟨halloc, hnone⟩ := allocResumes_allocates hpool hserves hone hentries
  have hframe := halloc.frame
  exact completes_queueWaitEnd hends (hwait.of_ctl (by rw [hframe]; rfl))
    ⟨halloc.entries, hnone, .before (.of_eq rfl) halloc.sends⟩

theorem queueWaitEnd_return {s : State} {c : CoreNum} {h : W64} {pl : PoolSt} (hwait : NoneWaits s)
    (hon : s.waitOf c.val = some (.ret h)) (hpool : s.pool? (ofHandle h).pool = some pl) (hinj : (s.hdr .qmg).inj = 0)
    (hstands : queueStands s (s.queue pl.freeQueue) (agentPart s (.core c) pl.part) = .accept) (hgood : handleGood s h = true)
    (hcurrent : handleCurrent s h = true) (hsome : 0 < (s.buffer (ofHandle h).pool (ofHandle h).index).returns) :
    Completes (.queueWaitEnd c) s (fun t => (∀ x ∈ t.qmg.waiters, ¬ (x.core = c.val ∧ x.on = .ret h)) ∧
      (t.buffer (ofHandle h).pool (ofHandle h).index).returns = (s.buffer (ofHandle h).pool (ofHandle h).index).returns - 1 ∧
      (∀ u, (t.core c.val).run = some u → h ∉ u.inputs)) := by
  have hends : queueWaitEnds c s = returnResumes c h s := by
    unfold queueWaitEnds
    rw [hon]
  have hcounts := returnResumes_countsReturn hpool hinj hstands hgood hcurrent hsome
  exact completes_queueWaitEnd hends (hwait.of_ctl hcounts.ctl)
    ⟨fun x hx => endWait_waiters _ _ s x (hcounts.waiters ▸ hx), hcounts.returns, hcounts.inputs⟩

/-- A core that waits for no queue meets no condition of one. -/
theorem queueWaitEnds_none {s : State} {c : CoreNum} (h : s.waitOf c.val = none ∨ ∃ w k, s.waitOf c.val = some (.window w k)) :
    queueWaitEnds c s = s := by
  unfold queueWaitEnds
  rcases h with h | ⟨w, k, h⟩ <;> rw [h]

theorem queuePush_checked {s : State} {a : Agent} {n : QueueNum} {h : W64} (hwait : NoneWaits s) (hfree : agentWaits s a = false)
    (hidle : ∀ c, a = .core c → (s.core c.val).run = none) (hchecked : checkedPush s a h = true)
    (hturn : pushTurn .clean a n.val h s = (.done, pushEntry n.val h s)) : Completes (.queuePush a n h .clean .clean) s (fun t =>
      (∀ c ∈ s.consumersOf (s.queue n.val) h, c ∈ (s.queue n.val).credits → ∃ u ∈ (t.core c).ready, u.inputs = [h]) ∧
      (t.queue n.val).entries = (s.queue n.val).entries ++ leftEntry s n.val h ∧
      (t.queue n.val).pushCount = ((s.queue n.val).pushCount + 1) % 2 ^ 32 ∧ t = { s with cores := t.cores, qmg := t.qmg }) := by
  have hpushed := pushEntry_pushed n.val h s
  have hframe := hpushed.frame
  exact completes_queuePush hfree (pushNow_checked hidle hchecked hturn) (hwait.of_ctl (by rw [hframe]))
    ⟨fun c hc hcredit => hpushed.ready c (List.mem_filter.mpr ⟨hc, by simpa using hcredit⟩), hpushed.entries, hpushed.pushCount, hframe⟩

theorem queuePush_held {s s1 : State} {c : CoreNum} {n : QueueNum} {v : UnitInst} {h k : W64} (hwait : NoneWaits s)
    (hfree : agentWaits s (.core c) = false) (hs1 : checkHeld (.core c) h (stampOutput v h s) = s1)
    (hpush : pushNow .clean (.core c) n.val h s = dropOutput c.val h (pushEntry n.val k s1)) :
    Completes (.queuePush (.core c) n h .clean .clean) s (fun t =>
      (t.queue n.val).pushCount = ((s.queue n.val).pushCount + 1) % 2 ^ 32 ∧
      (∀ u, (t.core c.val).run = some u → ∀ o ∈ u.outputs, o.2 ≠ h) ∧ t = { s with cores := t.cores, qmg := t.qmg, free := t.free }) := by
  obtain ⟨bufs, fr, hchecked⟩ := checkHeld_stampOutput_frame (.core c) h v s
  rw [hs1] at hchecked
  have hpushed := pushEntry_pushed n.val k s1
  generalize pushEntry n.val k s1 = t at hpush hpushed
  have hframe : t = { s with cores := t.cores, qmg := t.qmg, free := t.free } := by rw [hpushed.frame, hchecked]
  have hdropped := dropOutput_frame c.val h t
  refine completes_queuePush hfree hpush (hwait.of_ctl (by rw [hdropped, hframe])) ⟨?_, fun u hu => dropOutput_outputs _ _ _ hu, ?_⟩
  · have hcount := hpushed.pushCount
    rw [hchecked] at hcount
    rw [hdropped]
    exact hcount
  · rw [hdropped, hframe]

/-- Settles O52: a queue that serves its requester does what was asked of it, now or when the wait for it ends. -/
theorem queueOperationsComplete : Obligations.QueueOperationsComplete := by
  unfold Obligations.QueueOperationsComplete
  refine ⟨fun s a n h hwait hfree hroom => ⟨fun hgood hcurrent hchecked hpool hserves hidle => ?_,
      fun c v s1 k ha hrun hmay hs1 hk hgood hcurrent hpool hserves => ?_⟩,
    fun s c n hwait hfree hroom hserves => ⟨fun h es => queuePop_takes hwait hfree hroom hserves, queuePop_waits hwait hfree hroom hserves⟩,
    fun s c hwait => ⟨fun hnone => completes_queueWaitEnd (queueWaitEnds_none hnone) hwait rfl,
      fun n h es => queueWaitEnd_pop hwait, fun n h => queueWaitEnd_push hwait, fun p pl h ws es => queueWaitEnd_alloc hwait,
      fun h pl => queueWaitEnd_return hwait⟩⟩
  · exact queuePush_checked hwait hfree hidle hchecked (pushTurn_accepted hserves hgood hcurrent hpool hroom)
  · subst ha
    exact queuePush_held hwait hfree hs1 (pushNow_held hrun hmay hs1 hk hgood hcurrent hpool hserves hroom)

end Sys2Proof.Machine

/-! REARM (R193, R194): the command that starts closes the stream before its boundary, and the end of the drain gives it the new epoch. -/

namespace Sys2Proof.Machine

open Sys2Proof Sys2Proof.Machine.Bits

/-! ### The command starts (R194 step 1) -/

/-- An epoch that opens takes a number of its own and draws free values. -/
theorem openEpoch_eq (ctx : Nat) (stream order : Option Nat) (s : State) : ∃ e x fr,
    openEpoch ctx stream order s = (e, { s with qmg := { s.qmg with epochs := Tab.insert s.qmg.epochs e x }, free := fr }) :=
  ⟨_, _, _, rfl⟩

/-- Without an earlier arming or a re-placement under way REARM of an armed stream of its context opens its epoch at once. -/
theorem doRearm_now {s : State} {cmd : Cmd} {id o : Nat} {first : Option Nat} {rebase : List (List Byte)} {ring : List Byte} {st : Stream}
    {im : Image} {r : Nat × Nat} {rs : List (Bool × Nat × Nat × Nat)} (hwaiting : s.ctl.waiting = []) (hst : s.stream? id = some st)
    (hctx : st.ctx = cmd.ctx.val) (hrearm : st.rearm = none) (hrepl : s.replacing id = false)
    (him : Tab.find s.images st.image = some im) (hring : ringOf st im.decl ring = some r) (hlist : rebaseList id s rebase = some rs)
    (harmed : st.armed = true) (hfree : s.epochsFull = false) :
    doRearm o cmd id first rebase ring s = rearmNow o cmd id first rs r s := by
  have harming : s.armingOf id o = false := by simp [State.armingOf, hst, hrearm, hwaiting]
  unfold doRearm
  dsimp only
  rw [hst]
  dsimp only
  rw [him, Option.bind_some, hring, hlist]
  simp [hctx, harming, hrepl, harmed, hfree]

/-- A REARM that starts runs, and its stream remembers it and closes. -/
theorem rearmNow_effect (o : Nat) (cmd : Cmd) (id : Nat) (first : Option Nat) (rs : List (Bool × Nat × Nat × Nat)) (r : Nat × Nat)
    (s : State) : ∃ e ep fr cx, rearmNow o cmd id first rs r s =
      ({ s with qmg := { s.qmg with epochs := ep }, free := fr, ctxs := cx }).modStream id (fun st => { st with
        closed := true, rearm := some { order := o, epoch := e, firstSeq := first, rebase := rs, ringLog2 := r.1, ringSlot := r.2,
                                        boundary := st.boundary } }) ∧
      Runs cmd opRearm (rearmNow o cmd id first rs r s) := by
  obtain ⟨e, x, fr, hopen⟩ := openEpoch_eq cmd.ctx.val (some id) (some o) s
  unfold rearmNow
  rw [hopen]
  dsimp only
  exact ⟨e, _, fr, _, rfl, addRunning_runs cmd opRearm o e _⟩

theorem rearm_runs {s : State} {cmd : Cmd} {id : Nat} {first : Option Nat} {rebase : List (List Byte)} {ring : List Byte} {st : Stream}
    {im : Image} {r : Nat × Nat} {rs : List (Bool × Nat × Nat × Nat)} (htakes : Takes s cmd opRearm) (hst : s.stream? id = some st)
    (hctx : st.ctx = cmd.ctx.val) (hrearm : st.rearm = none) (hrepl : s.replacing id = false)
    (him : Tab.find s.images st.image = some im) (hring : ringOf st im.decl ring = some r) (hlist : rebaseList id s rebase = some rs)
    (harmed : st.armed = true) (hfree : s.epochsFull = false) :
    Completes (.rearm cmd id first rebase ring) s (fun t => ∃ e,
      t.stream? id = some { st with closed := true, rearm := (some
        { order := s.qmg.order, epoch := e, firstSeq := first, rebase := rs, ringLog2 := r.1, ringSlot := r.2, boundary := st.boundary }) } ∧
      Runs cmd opRearm t ∧ OtherStreams id s t ∧ SameMemory s t ∧ t.outs = s.outs) := by
  have hgate := gate_begun htakes (.rearm cmd id first rebase ring) (fun o s => doRearm o cmd id first rebase ring s)
  have hnow := doRearm_now (s := begun cmd opRearm s) (o := s.qmg.order) (first := first) htakes.2.2.1 hst hctx hrearm hrepl him hring
    hlist harmed hfree
  obtain ⟨e, ep, fr, cx, heq, hruns⟩ := rearmNow_effect s.qmg.order cmd id first rs r (begun cmd opRearm s)
  rw [hnow] at hgate
  refine ⟨_, congrArg Host.Outcome.next ((congrArg settle hgate).trans (settle_none ?_ ?_)), e, ?_, hruns, fun k hk => ?_, ?_, ?_⟩
  · rw [heq]
    exact htakes.2.2.1
  · rw [heq]
    exact htakes.2.2.2.1
  · rw [heq, State.stream?_modStream_self]
    exact congrArg (Option.map _) hst
  · rw [heq, State.stream?_modStream_ne _ _ hk]
    rfl
  · rw [heq]
    exact sameMemory_of_eq rfl rfl
  · rw [heq]
    rfl

/-! ### The drain ends (R194 steps 3 and 4) -/

/-- Between `s` and `t` pools, queues and cores of a stream have been set up anew, and no more of the device has changed. -/
def Refits (s t : State) : Prop := t = { s with qmg := t.qmg, cores := t.cores }

theorem modQmg_refits (f : Qmg → Qmg) (s : State) : Refits s (s.modQmg f) := rfl

theorem modQueue_refits (n : Nat) (f : Queue → Queue) (s : State) : Refits s (s.modQueue n f) := rfl

theorem modCore_refits (n : Nat) (f : CoreSt → CoreSt) (s : State) : Refits s (s.modCore n f) := rfl

theorem Refits.trans {s t u : State} (h : Refits s t) (k : Refits t u) : Refits s u := by
  unfold Refits at *
  rw [k, h]

theorem Refits.forEach {α : Type} (xs : List α) {f : α → State → State} (h : ∀ x s, Refits s (f x s)) (s : State) :
    Refits s (forEach xs f s) := forEach_inv (Refits s) xs f (fun x _ ht => ht.trans (h x _)) s rfl

theorem moveWindows_refits (pl : PoolSt) (s : State) : Refits s (moveWindows pl s) := by
  unfold moveWindows
  split
  · exact .forEach _ (fun c s => modCore_refits c _ s) s
  · rfl

theorem advanceAll_refits (p : Nat) (pl : PoolSt) (s : State) : Refits s (advanceAll p pl s) :=
  .forEach _ (fun _ s => modQmg_refits _ s) s

theorem rebaseOne_refits (r : Bool × Nat × Nat × Nat) (s : State) : Refits s (rebaseOne r s) := by
  obtain ⟨queue, n, base, mbase⟩ := r
  cases queue with
  | true => exact modQueue_refits n (fun q => { q with ringBase := base }) s
  | false =>
    unfold rebaseOne
    dsimp only
    split
    · exact rfl
    · exact .trans ((modQmg_refits _ s).trans (advanceAll_refits _ _ _)) (moveWindows_refits _ _)

theorem emptyRings_refits (st : Stream) (s : State) : Refits s (emptyRings st s) :=
  .forEach _ (fun n s => modCore_refits n _ s) s

/-- What the end of a drain gives the stream. -/
def PendRearm.rearmed (r : PendRearm) (st : Stream) : Stream :=
  { st with epoch := r.epoch, nextSeq := r.firstSeq.getD st.nextSeq, ringLog2 := r.ringLog2, ringSlot := r.ringSlot, rearm := none,
            closed := false }

theorem rearmDone_drained {s : State} {id : Nat} {st : Stream} {r : PendRearm} (hst : s.stream? id = some st) (hr : st.rearm = some r)
    (hdrained : drained id st s = true) : ∃ s1, Refits s s1 ∧
      rearmDone id s = endRunning st.ctx r.order Status.ok 0 (modEpoch r.epoch (fun x => { x with opener := none })
        (s1.modStream id r.rearmed)) := by
  refine ⟨emptyRings st (setQueueEpochs id r.epoch (forEach r.rebase rebaseOne s)),
    ((Refits.forEach _ rebaseOne_refits s).trans (modQmg_refits _ _)).trans (emptyRings_refits st _), ?_⟩
  unfold rearmDone
  rw [hst]
  dsimp only
  rw [hr]
  dsimp only
  rw [if_pos hdrained]
  rfl

theorem endRunning_ctl (c o st d : Nat) (s : State) : (endRunning c o st d s).ctl = s.ctl := by simp

theorem endRunning_streams (c o st d : Nat) (s : State) : (endRunning c o st d s).streams = s.streams := by simp

theorem endRunning_dram (c o st d : Nat) (s : State) : (endRunning c o st d s).dram = s.dram := by simp

theorem rearmDrained_completes {s : State} {id : Nat} {st : Stream} {r : PendRearm} {run : Running} (hwait : NoneWaits s)
    (hst : s.stream? id = some st) (hr : st.rearm = some r) (hdrained : drained id st s = true) (hrun : CanEnd s st.ctx r.order run) :
    Completes (.rearmDrained id) s (fun t => t.stream? id = some (r.rearmed st) ∧
      Answers run.cmd Status.ok run.epoch 0 s t ∧ OtherStreams id s t ∧ SameDram s t) := by
  obtain ⟨s1, hrefits, heq⟩ := rearmDone_drained hst hr hdrained
  generalize hs2 : modEpoch r.epoch (fun x => { x with opener := none }) (s1.modStream id r.rearmed) = s2 at heq
  have hframe : s2 = { s.modStream id r.rearmed with qmg := s2.qmg, cores := s2.cores } := by
    rw [← hs2, hrefits]
    rfl
  have hanswers := endRunning_answers (hrun.of (t := s2) (by rw [hframe]; rfl)) Status.ok 0
  have hctl : (endRunning st.ctx r.order Status.ok 0 s2).ctl = s.ctl := by
    rw [endRunning_ctl, hframe]
    rfl
  have hstream : ∀ k, (endRunning st.ctx r.order Status.ok 0 s2).stream? k = (s.modStream id r.rearmed).stream? k := fun k => by
    unfold State.stream?
    rw [endRunning_streams, hframe]
  obtain ⟨hwaiting, hfences⟩ := hwait.of_ctl hctl
  refine ⟨_, congrArg Host.Outcome.next ((congrArg settle heq).trans (settle_none hwaiting hfences)), ?_,
    .before (.of_eq (by rw [hframe]; rfl)) hanswers, fun k hk => ?_, sameDram_of_eq (by rw [endRunning_dram, hframe]; rfl)⟩
  · rw [hstream, State.stream?_modStream_self, hst, Option.map_some]
  · rw [hstream, State.stream?_modStream_ne _ _ hk]

/-- Settles O14: the start closes the stream (R194 step 1), and the end of its drain opens it again under the new epoch. -/
theorem rearmRunsThenCompletes : Obligations.RearmRunsThenCompletes := by
  unfold Obligations.RearmRunsThenCompletes
  exact ⟨fun s cmd id first rebase ring st im r rs => rearm_runs, fun s id st r run => rearmDrained_completes⟩

end Sys2Proof.Machine

/-! Epochs that are cancelled (R196 to R199, R278, R289): no reaction to a CANCEL takes a cancelled epoch back or gives a stream another
epoch. -/

namespace Sys2Proof.Machine

open Sys2Proof Sys2Proof.Machine.Bits

/-! ### The relation -/

/-- Between `s` and `t` every live epoch stays live, a cancelled one stays cancelled, and every stream keeps its epoch. -/
structure KeepsEpochs (s t : State) : Prop where
  epochs : ∀ e x, Tab.find s.qmg.epochs e = some x → ∃ y, Tab.find t.qmg.epochs e = some y ∧ (x.cancelled = true → y.cancelled = true)
  streams : ∀ id b, t.stream? id = some b → ∃ a, s.stream? id = some a ∧ b.epoch = a.epoch

theorem KeepsEpochs.refl (s : State) : KeepsEpochs s s := ⟨fun _ x h => ⟨x, h, fun h => h⟩, fun _ b h => ⟨b, h, rfl⟩⟩

theorem KeepsEpochs.trans {s t u : State} (h : KeepsEpochs s t) (k : KeepsEpochs t u) : KeepsEpochs s u where
  epochs e x hx := by
    obtain ⟨y, hy, hxy⟩ := h.epochs e x hx
    obtain ⟨z, hz, hyz⟩ := k.epochs e y hy
    exact ⟨z, hz, fun hc => hyz (hxy hc)⟩
  streams id c hc := by
    obtain ⟨b, hb, hcb⟩ := k.streams id c hc
    obtain ⟨a, ha, hba⟩ := h.streams id b hb
    exact ⟨a, ha, hcb.trans hba⟩

/-- An operation that leaves the epochs and the streams alone. -/
theorem KeepsEpochs.of_eq {s t : State} (hepochs : t.qmg.epochs = s.qmg.epochs) (hstreams : t.streams = s.streams) : KeepsEpochs s t where
  epochs e x hx := ⟨x, by rw [hepochs]; exact hx, fun h => h⟩
  streams id b hb := ⟨b, by unfold State.stream? at hb ⊢; rwa [hstreams] at hb, rfl⟩

theorem KeepsEpochs.forEach {α : Type} (xs : List α) {f : α → State → State} (h : ∀ x s, KeepsEpochs s (f x s)) (s : State) :
    KeepsEpochs s (forEach xs f s) := forEach_inv (KeepsEpochs s) xs f (fun x _ ht => ht.trans (h x _)) s (.refl s)

theorem modStream_keepsEpochs (id : Nat) {f : Stream → Stream} (s : State) (hf : ∀ st, (f st).epoch = st.epoch := by intro; rfl) :
    KeepsEpochs s (s.modStream id f) := by
  refine { KeepsEpochs.refl s with streams := fun k b hb => ?_ }
  rw [State.stream?_modStream] at hb
  split at hb
  · next hk =>
    obtain ⟨a, ha, rfl⟩ := Option.map_eq_some_iff.mp hb
    exact ⟨a, by rw [hk]; exact ha, hf a⟩
  · exact ⟨b, hb, rfl⟩

theorem mapStreams_keepsEpochs {f : Stream → Stream} (s : State) (hf : ∀ st, (f st).epoch = st.epoch) :
    KeepsEpochs s { s with streams := s.streams.map (fun x => (x.1, f x.2)) } := by
  refine { KeepsEpochs.refl s with streams := fun k b hb => ?_ }
  obtain ⟨a, ha, rfl⟩ := Option.map_eq_some_iff.mp ((Tab.find_map f k s.streams).symm.trans hb)
  exact ⟨a, ha, hf a⟩

theorem modEpoch_keepsEpochs (e : Nat) {f : Epoch → Epoch} (s : State) (hf : ∀ x, x.cancelled = true → (f x).cancelled = true) :
    KeepsEpochs s (modEpoch e f s) := by
  refine { KeepsEpochs.refl s with epochs := fun k x hx => ?_ }
  have hfind : Tab.find (modEpoch e f s).qmg.epochs k = _ := Tab.find_modify s.qmg.epochs e k f
  by_cases hk : k = e
  · subst hk
    rw [if_pos rfl, hx] at hfind
    exact ⟨f x, hfind, hf x⟩
  · rw [if_neg hk, hx] at hfind
    exact ⟨x, hfind, fun h => h⟩

theorem modCore_keepsEpochs (n : Nat) (f : CoreSt → CoreSt) (s : State) : KeepsEpochs s (s.modCore n f) := .of_eq rfl rfl

theorem modQueue_keepsEpochs (n : Nat) (f : Queue → Queue) (s : State) : KeepsEpochs s (s.modQueue n f) := .of_eq rfl rfl

theorem modQuad_keepsEpochs (q : Nat) (f : Quad → Quad) (s : State) : KeepsEpochs s (s.modQuad q f) := .of_eq rfl rfl

theorem modTal_keepsEpochs (f : Tal → Tal) (s : State) : KeepsEpochs s (s.modTal f) := .of_eq rfl rfl

/-! ### Handles that go back and units that stop (R64, R65) -/

theorem giveFree_keepsEpochs (p : Nat) (pl : PoolSt) (i tag : Nat) (s : State) : KeepsEpochs s (giveFree p pl i tag s) := by
  refine .of_eq (congrArg Qmg.epochs (closeWindows_qmg pl i (s.modBuffer p i (fun b => { b with returns := 0, cause := 0 }))) :) ?_
  have hstreams : ∀ t, (closeWindows pl i t).streams = t.streams := fun t => by
    unfold closeWindows
    split
    · exact forEach_keeps (·.streams) _ _ (fun _ _ => by exact rfl) t
    · rfl
  exact hstreams _

theorem forceFree_keepsEpochs (h : W64) (s : State) : KeepsEpochs s (forceFree h s) := by
  unfold forceFree
  dsimp only
  split
  · exact .refl s
  · split
    · exact giveFree_keepsEpochs _ _ _ _ s
    · exact .refl s

theorem forceFrees_keepsEpochs (hs : List W64) (s : State) : KeepsEpochs s (forEach hs forceFree s) := .forEach hs forceFree_keepsEpochs s

theorem stopUnit_keepsEpochs (c : Nat) (s : State) : KeepsEpochs s (stopUnit c s) := by
  unfold stopUnit
  split
  · exact .refl s
  · next u hrun =>
    extract_lets s1
    obtain ⟨f, howed⟩ := reportOwed_eq c u false (forEach (u.inputs ++ u.outputs.map (·.2) ++ u.ahead) forceFree (dropWaits c s1))
    rw [howed]
    exact (KeepsEpochs.of_eq rfl rfl : KeepsEpochs s (dropWaits c s1)).trans ((forceFrees_keepsEpochs _ _).trans (.of_eq rfl rfl))

theorem dropReady_keepsEpochs (e n : Nat) (s : State) : KeepsEpochs s (dropReady e n s) :=
  (modCore_keepsEpochs n _ s).trans (forceFrees_keepsEpochs _ _)

theorem emptyQueue_keepsEpochs (n : Nat) (s : State) : KeepsEpochs s (emptyQueue n s) :=
  (modQueue_keepsEpochs n _ s).trans (forceFrees_keepsEpochs _ _)

/-! ### Records, disarming, Bedrock mode (R197, R199, R299, R365) -/

theorem qmgRecord_keepsEpochs (id seq cause : Nat) (s : State) : KeepsEpochs s (qmgRecord id seq cause s) := by
  unfold qmgRecord
  split
  · exact .refl s
  · unfold qmgRecordOf formRecord
    refine (KeepsEpochs.of_eq rfl rfl : KeepsEpochs s { s with free := s.free + 1 }).trans ?_
    repeat' split
    · exact .refl _
    · exact .refl _
    · exact modStream_keepsEpochs id _

theorem recordAll_keepsEpochs (cause id : Nat) (s : State) : KeepsEpochs s (recordAll cause id s) := by
  unfold recordAll
  split
  · exact .refl s
  · exact .forEach _ (fun q t => qmgRecord_keepsEpochs id q cause t) s

theorem disarm_keepsEpochs (id : Nat) (s : State) : KeepsEpochs s (disarm id s) := by
  unfold disarm refreshOdometer leaveSets
  dsimp only
  exact (forceFrees_keepsEpochs _ s).trans ((modTal_keepsEpochs _ _).trans
    (KeepsEpochs.trans (modStream_keepsEpochs id _ (by exact fun _ => rfl)) (modTal_keepsEpochs _ _)))

theorem startStep_keepsEpochs (q p : Nat) (s : State) : KeepsEpochs s (startStep q p s) := by
  unfold startStep
  dsimp only
  repeat' split
  · exact .of_eq rfl rfl
  · exact .of_eq rfl rfl
  · exact (KeepsEpochs.of_eq (by simp) (by simp) : KeepsEpochs s (takeInj .pwr Bit.pwrRegFail s).2).trans (.of_eq rfl rfl)
  · exact .of_eq rfl rfl

theorem refreshBedrock_keepsEpochs (s : State) : KeepsEpochs s (refreshBedrock s) := by
  refine .forEach _ (fun q t => ?_) s
  dsimp only
  split
  · exact (modQuad_keepsEpochs q _ t).trans ((modQuad_keepsEpochs q _ _).trans (startStep_keepsEpochs _ _ _))
  · exact .of_eq rfl rfl

/-! ### A cancelled epoch (R197, R199) -/

theorem endWait_keepsEpochs (c : Nat) (on : WaitOn) (s : State) : KeepsEpochs s (endWait c on s) := .of_eq rfl rfl

theorem dropSignatures_keepsEpochs (e : Nat) (s : State) : KeepsEpochs s (dropSignatures e s) := .of_eq rfl rfl

theorem twins_keepsEpochs (e f : Nat) (s : State) : KeepsEpochs s (twins e f s) := by
  unfold twins
  split
  · exact .refl s
  · exact (modEpoch_keepsEpochs e s (by exact fun _ h => h)).trans (modEpoch_keepsEpochs f _ (by exact fun _ h => h))

/-- What follows the mark on the epoch that is stopped keeps every epoch. -/
theorem stopEpoch_marks (e : Nat) (s : State) :
    KeepsEpochs (modEpoch e (fun x => { x with cancelled := true, cancelAt := s.clock }) s) (stopEpoch e s) := by
  unfold stopEpoch
  extract_lets s1 s2 s3 s4
  exact (KeepsEpochs.forEach _ stopUnit_keepsEpochs s1).trans ((KeepsEpochs.forEach _ (dropReady_keepsEpochs e) s2).trans
    ((KeepsEpochs.forEach _ (fun (w : Waiter) t => endWait_keepsEpochs w.core w.on t) s3).trans
      ((KeepsEpochs.forEach _ emptyQueue_keepsEpochs s4).trans (dropSignatures_keepsEpochs e _))))

theorem stopEpoch_keepsEpochs (e : Nat) (s : State) : KeepsEpochs s (stopEpoch e s) :=
  (modEpoch_keepsEpochs e s (by exact fun _ _ => rfl)).trans (stopEpoch_marks e s)

/-- Epoch `e` is live and cancelled. -/
def Cancelled (e : Nat) (s : State) : Prop := ∃ x, Tab.find s.qmg.epochs e = some x ∧ x.cancelled = true

theorem Cancelled.keeps {e : Nat} {s t : State} (h : Cancelled e s) (k : KeepsEpochs s t) : Cancelled e t := by
  obtain ⟨x, hx, hc⟩ := h
  obtain ⟨y, hy, hxy⟩ := k.epochs e x hx
  exact ⟨y, hy, hxy hc⟩

/-- A live epoch that is stopped is cancelled. -/
theorem stopEpoch_cancelled {e : Nat} {s : State} {x : Epoch} (hx : Tab.find s.qmg.epochs e = some x) : Cancelled e (stopEpoch e s) := by
  refine Cancelled.keeps ⟨{ x with cancelled := true, cancelAt := s.clock }, ?_, rfl⟩ (stopEpoch_marks e s)
  exact (Tab.find_modify s.qmg.epochs e e _).trans (by rw [if_pos rfl, hx]; rfl)

/-- A live epoch whose CANCEL is carried out is cancelled, every stream of it is disarmed, and the other epochs stay as live as they
were. -/
theorem cancelEpoch_effect (e : Nat) (s : State) : KeepsEpochs s (cancelEpoch e s) ∧
    (∀ x, Tab.find s.qmg.epochs e = some x → Cancelled e (cancelEpoch e s)) ∧
    ∀ id ∈ s.streamsOfEpoch e, Unarmed id (cancelEpoch e s) := by
  unfold cancelEpoch
  extract_lets ids s1 other s2 s3 s4
  have h1 : KeepsEpochs s s1 := by
    refine KeepsEpochs.forEach _ (fun id t => ?_) s
    repeat' split
    · exact .refl t
    · exact .refl t
    · exact twins_keepsEpochs _ _ t
  have h2 : KeepsEpochs s1 s2 := .forEach _ stopEpoch_keepsEpochs s1
  have h3 : KeepsEpochs s2 s3 := .forEach _ (fun id t => (recordAll_keepsEpochs _ id t).trans (disarm_keepsEpochs id _)) s2
  have h4 : KeepsEpochs s3 s4 := mapStreams_keepsEpochs (f := Stream.withoutEpoch e) s3 (by exact fun _ => rfl)
  have h5 : KeepsEpochs s2 (refreshBedrock s4) := h3.trans (h4.trans (refreshBedrock_keepsEpochs s4))
  refine ⟨h1.trans (h2.trans h5), fun x hx => ?_, fun id hid => ?_⟩
  · obtain ⟨y, hy, -⟩ := h1.epochs e x hx
    exact ((stopEpoch_cancelled hy).keeps (.forEach other stopEpoch_keepsEpochs _)).keeps h5
  · have hsteady : Steady s3 s4 := mapStreams_steady s3 (Stream.Kept.withoutEpoch e)
    exact (disarmAll_unarmed ids s2 id hid).of_steady (hsteady.trans (refreshBedrock_steady s4))

/-! ### What comes before (R278, R289) -/

theorem abortHeldOf_reclaims (e : Nat) (s : State) : Reclaims s (abortHeldOf e s) ∧ KeepsEpochs s (abortHeldOf e s) := by
  have hframe : ∀ (id : Nat) (j : Job) (t : State), KeepsWords t (abortHeld id j t) ∧ (abortHeld id j t).ctxs = t.ctxs ∧
      KeepsEpochs t (abortHeld id j t) := fun id j t => by
    unfold abortHeld refreshHeld
    split
    · exact ⟨.of_eq rfl rfl, rfl, (modStream_keepsEpochs id t).trans (.of_eq rfl rfl)⟩
    · exact ⟨.of_eq rfl rfl, rfl, (modStream_keepsEpochs id t).trans (.of_eq rfl rfl)⟩
  exact ⟨Reclaims.forEach _ (fun (p : Nat × Job) t => ⟨abortHeld_steady p.1 p.2 t, (hframe p.1 p.2 t).1, (hframe p.1 p.2 t).2.1⟩) s,
    KeepsEpochs.forEach _ (fun (p : Nat × Job) t => (hframe p.1 p.2 t).2.2) s⟩

/-- An abandoned re-placement gives its cores up: contexts, memory outside the cores, epochs and streams stay. -/
theorem abandonForCancel_effect (s : State) : Steady s (abandonForCancel s) ∧ (abandonForCancel s).ctxs = s.ctxs ∧
    KeepsEpochs s (abandonForCancel s) := by
  have hdiscard : (discardNew s).ctxs = s.ctxs ∧ KeepsEpochs s (discardNew s) := by
    unfold discardNew
    split
    · exact ⟨rfl, .refl s⟩
    · next r _ =>
      extract_lets fresh
      have hcleared : forEach fresh (fun n s => s.modCore n (fun c => c.release.clear)) s =
          { s with cores := (forEach fresh (fun n s => s.modCore n (fun c => c.release.clear)) s).cores } :=
        forEach_inv (fun t => t = { s with cores := t.cores }) _ _ (fun n t ht => by rw [ht]; rfl) s rfl
      refine ⟨(refreshBedrock_reclaims _).ctxs.trans ?_, KeepsEpochs.trans ?_ (refreshBedrock_keepsEpochs _)⟩
      · rw [hcleared]
        rfl
      · rw [hcleared]
        exact .of_eq rfl rfl
  unfold abandonForCancel
  split
  · exact ⟨.refl s, rfl, .refl s⟩
  · split
    · exact ⟨(discardNew_steady s).trans ((modCtl_steady rfl rfl).trans (raise_steady _ _ _)), by simpa using hdiscard.1,
        hdiscard.2.trans (.of_eq (by simp) (by simp))⟩
    · exact ⟨.refl s, rfl, .refl s⟩

end Sys2Proof.Machine

/-! CANCEL and the life of a cancelled epoch as commands (R196 to R199, R389). -/

namespace Sys2Proof.Machine

open Sys2Proof Sys2Proof.Machine.Bits

/-! ### CANCEL (R197) -/

theorem Runs.of_ctxs {cmd : Cmd} {op : Nat} {s t : State} (h : Runs cmd op s) (hctxs : t.ctxs = s.ctxs) : Runs cmd op t := by
  unfold Runs State.ctx at *
  rwa [hctxs]

/-- CANCEL of a live epoch of the context: it runs, the epoch is cancelled, and no stream is armed under it. -/
theorem doCancel_live {s : State} {cmd : Cmd} {e : Nat} {x : Epoch} (hx : Tab.find s.qmg.epochs e = some x)
    (hctx : x.ctx = cmd.ctx.val) (hlive : x.cancelled = false) (o : Nat) : Steady s (doCancel o cmd e s) ∧
    Runs cmd opCancel (doCancel o cmd e s) ∧ Cancelled e (doCancel o cmd e s) ∧
    ∀ id st, (doCancel o cmd e s).stream? id = some st → st.armed = true → st.epoch ≠ e := by
  unfold doCancel
  rw [hx]
  dsimp only
  rw [if_neg (by simp [hctx]), if_neg (by simp [hlive])]
  generalize hs1 : modEpoch e (fun x => { x with cancels := x.cancels ++ [o] }) (addRunning cmd opCancel o e s) = s1
  have hruns : Runs cmd opCancel s1 := hs1 ▸ addRunning_runs cmd opCancel o e s
  have hadded : Steady s s1 := by
    rw [← hs1]
    exact (modCtx_steady cmd.ctx.val (by exact fun _ h => h) s).trans (modEpoch_steady e _ _)
  have hfound : ∃ y, Tab.find s1.qmg.epochs e = some y := by
    rw [← hs1]
    exact ⟨_, (Tab.find_modify s.qmg.epochs e e _).trans (by rw [if_pos rfl, hx]; rfl)⟩
  generalize hs2 : (if s1.replStream.any (fun id => (s1.streamsOfEpoch e).contains id) then abandonForCancel s1 else s1) = s2
  have habandoned : Steady s1 s2 ∧ s2.ctxs = s1.ctxs ∧ KeepsEpochs s1 s2 := by
    rw [← hs2]
    split
    · exact abandonForCancel_effect s1
    · exact ⟨.refl s1, rfl, .refl s1⟩
  obtain ⟨hsteady, hctxs, hkeeps⟩ := habandoned
  obtain ⟨haborted, hkept⟩ := abortHeldOf_reclaims e s2
  generalize abortHeldOf e s2 = s3 at haborted hkept
  have hcancelled := cancelEpoch_reclaims e s3
  obtain ⟨hepochs, hmarked, hunarmed⟩ := cancelEpoch_effect e s3
  refine ⟨hadded.trans (hsteady.trans (haborted.steady.trans hcancelled.steady)),
    hruns.of_ctxs (hcancelled.ctxs.trans (haborted.ctxs.trans hctxs)), ?_, fun id st hst harmed heq => ?_⟩
  · obtain ⟨y, hy⟩ := hfound
    obtain ⟨z, hz, -⟩ := (hkeeps.trans hkept).epochs e y hy
    exact hmarked z hz
  · obtain ⟨a, ha, hepoch⟩ := hepochs.streams id st hst
    have hno : Unarmed id (cancelEpoch e s3) := by
      cases hwas : a.armed with
      | true => exact hunarmed id (mem_streamIds ha (by simp [hwas, ← hepoch, heq]))
      | false => exact Unarmed.of_steady (fun b hb => by rw [Option.some.inj (hb.symm.trans ha)]; exact hwas) hcancelled.steady
    rw [hno st hst] at harmed
    exact Bool.noConfusion harmed

/-- CANCEL of any other number ends at once. -/
theorem doCancel_noEpoch {s : State} {cmd : Cmd} {e : Nat} (hother : ∀ x, Tab.find s.qmg.epochs e = some x → x.ctx ≠ cmd.ctx.val)
    (o : Nat) : doCancel o cmd e s = finishOpen cmd opCancel Status.noEpoch e s := by
  unfold doCancel
  split
  · rfl
  · next x hx => exact if_pos (hother x hx)

/-- A device that takes a CANCEL starts it. -/
theorem execCancel_takes {s : State} {cmd : Cmd} (h : Takes s cmd opCancel) (e : Nat) :
    exec (.cancel cmd e) s = .next (settle (doCancel s.qmg.order cmd e (begun cmd opCancel s))) := by
  obtain ⟨haccepts, hhead, -⟩ := h
  have hfetched : (s.ctx cmd.ctx.val).fetched.contains (cmd.tag, opCancel) = true :=
    List.contains_iff_mem.mpr (List.mem_of_head? hhead)
  refine congrArg Host.Outcome.next (congrArg settle (if_pos ?_))
  rw [haccepts, hfetched]
  rfl

theorem sendMsix_sends (fn vec : Nat) (s : State) : ∃ os p, sendMsix fn vec s = { s with outs := os, pce := p } := by
  unfold sendMsix
  split
  · exact ⟨_, _, rfl⟩
  · exact ⟨_, _, rfl⟩

theorem writeCompletion_sends (c : Nat) (e : Completion) (irq : Bool) (s : State) :
    ∃ cx os p, writeCompletion c e irq s = { s with ctxs := cx, outs := os, pce := p } := by
  unfold writeCompletion
  dsimp only
  split
  · obtain ⟨os, p, hmsix⟩ := sendMsix_sends (s.ctx c).fn (s.ctx c).vector _
    exact ⟨_, os, p, hmsix⟩
  · exact ⟨_, _, _, rfl⟩

theorem postCompletion_sends (c : Nat) (e : Completion) (irq : Bool) (s : State) :
    ∃ cx os p, postCompletion c e irq s = { s with ctxs := cx, outs := os, pce := p } := by
  unfold postCompletion
  dsimp only
  split
  · exact writeCompletion_sends c e irq s
  · exact ⟨_, _, _, rfl⟩

/-- A completion of a status that rejects nothing changes no more than a completion may. -/
theorem finishOpen_postFrame {status : Nat} (h : rejects status = false) (cmd : Cmd) (op e : Nat) (s : State) :
    PostFrame s (finishOpen cmd op status e s) := by
  obtain ⟨cx, os, p, hpost⟩ := postCompletion_sends cmd.ctx.val (entry cmd op status e s.drawWord.1.toNat) cmd.irq s.drawWord.2
  have hfinish : finishOpen cmd op status e s = _ := (congrArg (postCompletion _ _ _) (if_neg (by simp [h]))).trans hpost
  rw [hfinish]
  rfl

theorem finishOpen_ctl (cmd : Cmd) (op st e : Nat) (s : State) : (finishOpen cmd op st e s).ctl = s.ctl := by simp

theorem cancel_live_completes {s : State} {cmd : Cmd} {e : Nat} {x : Epoch} (htakes : Takes s cmd opCancel)
    (hx : Tab.find s.qmg.epochs e = some x) (hctx : x.ctx = cmd.ctx.val) (hlive : x.cancelled = false) :
    Completes (.cancel cmd e) s (fun t => Runs cmd opCancel t ∧ (Tab.find t.qmg.epochs e).map (·.cancelled) = some true ∧
      SameDram s t ∧ ∀ id st, t.stream? id = some st → st.armed = true → st.epoch ≠ e) := by
  have hexec := execCancel_takes htakes e
  obtain ⟨-, -, hwaiting, hfences, -⟩ := htakes
  obtain ⟨hsteady, hruns, ⟨y, hy, hcancelled⟩, hstreams⟩ := doCancel_live (s := begun cmd opCancel s) hx hctx hlive s.qmg.order
  rw [settle_none (hsteady.waiting hwaiting) (hsteady.fences hfences)] at hexec
  exact ⟨_, hexec, hruns, by rw [hy, Option.map_some, hcancelled], sameDram_of_eq hsteady.dram, hstreams⟩

theorem cancel_noEpoch_completes {s : State} {cmd : Cmd} {e : Nat} (htakes : Takes s cmd opCancel)
    (hother : ∀ x, Tab.find s.qmg.epochs e = some x → x.ctx ≠ cmd.ctx.val) :
    Completes (.cancel cmd e) s (fun t => Posts cmd Status.noEpoch s t ∧ PostOnly cmd.ctx.val s t) := by
  have hexec := execCancel_takes htakes e
  have hroom := begun_room htakes
  obtain ⟨-, -, hwaiting, hfences, -⟩ := htakes
  have hctl : (finishOpen cmd opCancel Status.noEpoch e (begun cmd opCancel s)).ctl = s.ctl := finishOpen_ctl _ _ _ _ _
  have hframe := finishOpen_postFrame (status := Status.noEpoch) (by decide) cmd opCancel e (begun cmd opCancel s)
  rw [doCancel_noEpoch (s := begun cmd opCancel s) hother, settle_none (by rw [hctl, hwaiting]) (by rw [hctl, hfences])] at hexec
  refine ⟨_, hexec, .before (.of_eq rfl) (finishOpen_posts hroom.1 hroom.2 _ _ _),
    (begun_otherContexts cmd opCancel s).trans (finishOpen_otherContexts _ _ _ _ _), ?_⟩
  unfold PostFrame at hframe ⊢
  rw [hframe, begun_eq]

/-! ### A cancelled epoch that is quiet (R198) -/

/-- Between `s` and `t` commands have ended and epochs have lost their commands: what is sent grows, no memory, core or wait inside the
device changes, and epoch `e` is without commands when it was. -/
structure EndsCommands (e : Nat) (s t : State) : Prop where
  outs : Grows s t
  ctl : t.ctl.waiting = s.ctl.waiting ∧ t.ctl.fences = s.ctl.fences
  dram : t.dram = s.dram
  cores : t.cores = s.cores
  epoch : (Tab.find s.qmg.epochs e).map (fun y => (y.cancels, y.opener)) = some ([], none) →
    (Tab.find t.qmg.epochs e).map (fun y => (y.cancels, y.opener)) = some ([], none)

theorem EndsCommands.refl (e : Nat) (s : State) : EndsCommands e s s := ⟨.refl s, ⟨rfl, rfl⟩, rfl, rfl, id⟩

theorem EndsCommands.trans {e : Nat} {s t u : State} (h : EndsCommands e s t) (k : EndsCommands e t u) : EndsCommands e s u :=
  ⟨h.outs.trans k.outs, ⟨k.ctl.1.trans h.ctl.1, k.ctl.2.trans h.ctl.2⟩, k.dram.trans h.dram, k.cores.trans h.cores,
    fun he => k.epoch (h.epoch he)⟩

theorem EndsCommands.forEach {α : Type} {e : Nat} (xs : List α) {f : α → State → State} (h : ∀ x s, EndsCommands e s (f x s)) (s : State) :
    EndsCommands e s (forEach xs f s) := forEach_inv (EndsCommands e s) xs f (fun x _ ht => ht.trans (h x _)) s (.refl e s)

theorem endRunning_endsCommands (e c o st d : Nat) (s : State) : EndsCommands e s (endRunning c o st d s) :=
  ⟨endRunning_grows c o st d s, by simp, by simp, by simp, fun h => by simpa using h⟩

theorem endOpen_endsCommands (e c o st : Nat) (s : State) : EndsCommands e s (endOpen c o st s) := by
  refine ⟨?_, by simp, by simp, by simp, fun h => by simpa using h⟩
  unfold endOpen
  split
  · exact .refl s
  · exact Grows.trans (.of_eq (by simp)) ((Grows.of_eq rfl).trans (finish_grows _ _ _ _ _ _))

/-- A cancelled epoch that is quiet ends its commands. -/
def closeEpoch (k : Nat) (s : State) : State :=
  match Tab.find s.qmg.epochs k with
  | none => s
  | some y =>
    modEpoch k (fun y => { y with cancels := [], opener := none })
      (forEach y.opener.toList (fun o s => endOpen y.ctx o Status.cancelled s)
        (forEach y.cancels (fun o s => endRunning y.ctx o Status.ok 0 s) s))

/-- An epoch whose commands have ended has none left. -/
theorem modEpoch_closed (e k : Nat) (s : State) :
    EndsCommands e s (modEpoch k (fun y => { y with cancels := [], opener := none }) s) := by
  refine ⟨.of_eq rfl, ⟨rfl, rfl⟩, rfl, rfl, fun h => ?_⟩
  have hfind : Tab.find (modEpoch k (fun y => { y with cancels := [], opener := none }) s).qmg.epochs e = _ :=
    Tab.find_modify s.qmg.epochs k e _
  rw [hfind]
  split
  · next hk =>
    subst hk
    obtain ⟨y, hy, -⟩ := Option.map_eq_some_iff.mp h
    rw [hy]
    rfl
  · exact h

theorem closeEpoch_endsCommands (e k : Nat) (s : State) : EndsCommands e s (closeEpoch k s) := by
  unfold closeEpoch
  split
  · exact .refl e s
  · next y _ =>
    exact (EndsCommands.forEach _ (fun o t => endRunning_endsCommands e y.ctx o _ _ t) s).trans
      ((EndsCommands.forEach _ (fun o t => endOpen_endsCommands e y.ctx o _ t) _).trans (modEpoch_closed e k _))

theorem closeEpoch_closes {e : Nat} {s : State} {x : Epoch} (hx : Tab.find s.qmg.epochs e = some x) :
    (Tab.find (closeEpoch e s).qmg.epochs e).map (fun y => (y.cancels, y.opener)) = some ([], none) := by
  have hqmg : (forEach x.opener.toList (fun o s => endOpen x.ctx o Status.cancelled s)
      (forEach x.cancels (fun o s => endRunning x.ctx o Status.ok 0 s) s)).qmg = s.qmg :=
    (forEach_keeps (·.qmg) _ _ (fun o t => by simp) _).trans (forEach_keeps (·.qmg) _ _ (fun o t => by simp) s)
  unfold closeEpoch
  rw [hx]
  dsimp only
  refine (congrArg (Option.map _) ((Tab.find_modify _ e e _).trans (if_pos rfl))).trans ?_
  rw [hqmg, hx]
  rfl

/-- The one CANCEL of an epoch is answered. -/
theorem closeEpoch_answers {e o : Nat} {s : State} {x : Epoch} {r : Running} (hx : Tab.find s.qmg.epochs e = some x)
    (hone : x.cancels = [o]) (hend : CanEnd s x.ctx o r) : Answers r.cmd Status.ok r.epoch 0 s (closeEpoch e s) := by
  unfold closeEpoch
  rw [hx]
  dsimp only
  rw [hone]
  exact (endRunning_answers hend Status.ok 0).after
    ((EndsCommands.forEach _ (fun o t => endOpen_endsCommands e x.ctx o _ t) _).trans (modEpoch_closed e e _)).outs

theorem nextJobs_endsCommands (e : Nat) (s : State) : EndsCommands e s (nextJobs s) := by
  refine .forEach _ (fun x t => ?_) s
  split
  · exact .refl e t
  · exact ⟨.of_eq rfl, ⟨rfl, rfl⟩, rfl, rfl, id⟩

/-- Once a cancelled epoch and its twin are quiet, they are closed in turn. -/
theorem epochQuietNow_closes {e : Nat} {s : State} {x : Epoch} (hx : Tab.find s.qmg.epochs e = some x) (hcancelled : x.cancelled = true)
    (hquiet : ∀ k ∈ e :: x.twin.toList, quiet k s = true) : EndsCommands e (closeEpoch e s) (epochQuietNow e s) := by
  have heq : epochQuietNow e s = nextJobs ((forEach (e :: x.twin.toList) closeEpoch s).modCtl (fun c =>
      { c with pendRepl := c.retry.foldl addOnce c.pendRepl, retry := [] })) := by
    unfold epochQuietNow
    rw [hx]
    dsimp only
    rw [if_pos (by rw [hcancelled, List.all_eq_true.mpr hquiet]; rfl)]
    rfl
  rw [heq, forEach_cons]
  have hctl : ∀ t : State, EndsCommands e t (t.modCtl (fun c => { c with pendRepl := c.retry.foldl addOnce c.pendRepl, retry := [] })) :=
    fun t => ⟨.of_eq rfl, ⟨rfl, rfl⟩, rfl, rfl, id⟩
  exact (EndsCommands.forEach _ (closeEpoch_endsCommands e) _).trans ((hctl _).trans (nextJobs_endsCommands e _))

theorem epochQuiet_completes {e : Nat} {s : State} {x : Epoch} (hwait : NoneWaits s) (hx : Tab.find s.qmg.epochs e = some x)
    (hcancelled : x.cancelled = true) (hquiet : ∀ k ∈ e :: x.twin.toList, quiet k s = true) :
    Completes (.epochQuiet e) s (fun t =>
      (Tab.find t.qmg.epochs e).map (fun y => (y.cancels, y.opener)) = some ([], none) ∧ SameMemory s t ∧
      ∀ o r, x.cancels = [o] → CanEnd s x.ctx o r → Answers r.cmd Status.ok r.epoch 0 s t) := by
  have hafter := epochQuietNow_closes hx hcancelled hquiet
  have hall := (closeEpoch_endsCommands e e s).trans hafter
  refine ⟨_, congrArg Host.Outcome.next (settle_none (hall.ctl.1.trans hwait.1) (hall.ctl.2.trans hwait.2)),
    hafter.epoch (closeEpoch_closes hx), sameMemory_of_eq hall.dram hall.cores, fun o r hone hend => ?_⟩
  exact (closeEpoch_answers hx hone hend).after hafter.outs

/-! ### An epoch that is not quiet in time, and one that ends (R196, R198, R389) -/

theorem postNotice_fatal (kind word : Nat) (fault : Option FaultRec) (s : State) : (postNotice kind word fault s).dbg.fatal = s.dbg.fatal := by
  unfold postNotice
  repeat' split
  · rfl
  · simp [writeNotice]
  · simp

theorem beginSample_keeps (cause : Nat) (s : State) : (beginSample cause s).dbg.fatal = s.dbg.fatal ∧
    (beginSample cause s).qmg.epochs = s.qmg.epochs := by
  unfold beginSample
  split
  · exact ⟨rfl, rfl⟩
  · exact ⟨rfl, rfl⟩

/-- The entry into the safe state touches neither DBG_FATAL nor an epoch. -/
theorem enterSafe_keeps (cause : Nat) (s : State) : (enterSafe cause s).dbg.fatal = s.dbg.fatal ∧
    (enterSafe cause s).qmg.epochs = s.qmg.epochs := by
  unfold enterSafe
  split
  · exact ⟨rfl, rfl⟩
  · dsimp only
    obtain ⟨hfatal, hepochs⟩ := beginSample_keeps cause (postNotice 0x03 cause none (if stopsPairs cause then
      raise .safe Bit.safeState { s.modSafe (fun f => { f with ssCause := cause, okP := false, okN := false, faultN := false, driven := true })
        with boot := { s.boot with fatalAt := s.clock } }
      else report { unit := 0xC7, cause := Cause.safeState, cls := 2, bit := cause } (raise .safe Bit.safeState
        { s.modSafe (fun f => { f with ssCause := cause, okP := false, okN := false, faultN := false, driven := true })
          with boot := { s.boot with fatalAt := s.clock } })))
    refine ⟨hfatal.trans ((postNotice_fatal _ _ _ _).trans ?_), hepochs.trans ?_⟩
    · split <;> simp [report, reportAt]
    · split <;> simp [report, reportAt]

theorem fatalError_keeps (code : Nat) (s : State) : (s.dbg.fatal = 0 → (fatalError code s).dbg.fatal = code) ∧
    (fatalError code s).qmg.epochs = s.qmg.epochs := by
  have hkeeps := enterSafe_keeps SS.fatal (raise .dbg Bit.dbgFatal (s.modDbg (fun d => if d.fatal = 0 then { d with fatal := code } else d)))
  exact ⟨fun h => hkeeps.1.trans (by simp [h]), hkeeps.2.trans (by simp)⟩

theorem cancelTimeout_completes {e : Nat} {s : State} {x : Epoch} (hx : Tab.find s.qmg.epochs e = some x) (hcancelled : x.cancelled = true)
    (hwaits : x.cancels ≠ []) (hdue : x.cancelAt + 1000000 ≤ s.clock) (hbusy : quiet e s = false) (hsafe : s.safe.ssCause = 0) :
    Completes (.cancelTimeout e) s (fun t => t.safe.ssCause = SS.fatal ∧ PinsLow t ∧
      (s.dbg.fatal = 0 → t.dbg.fatal = Fatal.cancelTimeout) ∧ t.qmg.epochs = s.qmg.epochs) := by
  have heq : cancelTimedOut e s = fatalError Fatal.cancelTimeout (raise .qmg Bit.qmgCancelTimeout s) := by
    unfold cancelTimedOut
    rw [hx]
    exact if_pos (by simp [hcancelled, hwaits, hdue, hbusy])
  obtain ⟨hcause, hpins⟩ := fatalError_safe (s := raise .qmg Bit.qmgCancelTimeout s) Fatal.cancelTimeout (by simpa using hsafe)
  obtain ⟨hfatal, hepochs⟩ := fatalError_keeps Fatal.cancelTimeout (raise .qmg Bit.qmgCancelTimeout s)
  exact ⟨_, congrArg Host.Outcome.next heq, hcause, hpins, fun h => hfatal (by simpa using h), hepochs.trans (by simp)⟩

theorem epochNumberFreed_completes {e : Nat} {s : State} {x : Epoch} (hwait : NoneWaits s) (hx : Tab.find s.qmg.epochs e = some x)
    (hquiet : quiet e s = true) (hcancels : x.cancels = []) (hopener : x.opener = none) (hunused : s.epochInUse e = false)
    (howes : s.completionHeld e = false) : Completes (.epochNumberFreed e) s (fun t =>
      t = { s with qmg := { s.qmg with epochs := Tab.erase s.qmg.epochs e } }) := by
  have heq : freeEpoch e s = s.modQmg (fun m => { m with epochs := Tab.erase m.epochs e }) := by
    unfold freeEpoch
    rw [hx]
    exact if_pos (by simp [hquiet, hcancels, hopener, hunused, howes])
  exact ⟨_, congrArg Host.Outcome.next ((congrArg settle heq).trans (settle_none hwait.1 hwait.2)), rfl⟩

/-- Settles O16: a CANCEL marks its epoch and disarms its streams (R197, R199); the epoch then ends its commands when it is quiet, or
brings the device into the safe state (R198), and gives its number back (R196). -/
theorem epochCommandsComplete : Obligations.EpochCommandsComplete := by
  unfold Obligations.EpochCommandsComplete
  exact ⟨fun s cmd e htakes => ⟨fun x => cancel_live_completes htakes, cancel_noEpoch_completes htakes⟩,
    fun s e x hx => ⟨fun hwait => epochQuiet_completes hwait hx, cancelTimeout_completes hx,
      fun hwait => epochNumberFreed_completes hwait hx⟩⟩

end Sys2Proof.Machine

/-! Writes of the host to the queues of a context (R201, R203, R204, R206, R209, R414): doorbells, QMG_CTX_QCFG and QMG_CTX_CPL_HEAD. -/

namespace Sys2Proof.Machine

open Sys2Proof Sys2Proof.Machine.Bits

/-! ### What such a write changes -/

/-- Between `s` and `t` context `c` has changed, and beyond it no more than an error flag may change. -/
structure TouchesContext (c : Nat) (s t : State) : Prop where
  others : OtherContexts c s t
  frame : PageFrame { s with ctxs := t.ctxs } t

theorem TouchesContext.of_pageFrame {s t : State} (h : PageFrame s t) (c : Nat) : TouchesContext c s t := by
  have hctxs : t.ctxs = s.ctxs := by rw [h]
  refine ⟨fun d _ => by unfold State.ctx; rw [hctxs], ?_⟩
  rw [hctxs]
  exact h

theorem TouchesContext.trans {c : Nat} {s t u : State} (h : TouchesContext c s t) (k : TouchesContext c t u) : TouchesContext c s u := by
  refine ⟨h.others.trans k.others, ?_⟩
  have hframe := h.frame
  have kframe := k.frame
  unfold PageFrame at *
  rw [kframe, hframe]

theorem TouchesContext.ctl {c : Nat} {s t : State} (h : TouchesContext c s t) : t.ctl = s.ctl := by rw [h.frame]

theorem modCtx_touchesContext (c : Nat) (f : Ctx → Ctx) (s : State) : TouchesContext c s (s.modCtx c f) :=
  ⟨fun _ hd => State.ctx_modCtx_ne s f hd, rfl⟩

/-! ### Completions that were held (R204) -/

/-- A context of which completions have been posted, or are held. -/
def Ctx.posted (x : Ctx) (tail pushed : Nat) (held : List (Completion × Bool)) : Ctx :=
  { x with cplTail := tail, cplPushed := pushed, cplHeld := held }

theorem emit_pageFrame (o : Out) (s : State) : PageFrame s (s.emit o) := rfl

theorem writeCompletion_drains (c : Nat) (e : Completion) (irq : Bool) (s : State) :
    TouchesContext c s (writeCompletion c e irq s) ∧ ∃ a b h, (writeCompletion c e irq s).ctx c = (s.ctx c).posted a b h := by
  unfold writeCompletion
  extract_lets x phase s1
  have htouches : TouchesContext c s s1 := (modCtx_touchesContext c _ s).trans (.of_pageFrame (emit_pageFrame _ _) c)
  have hctx : s1.ctx c = x.posted ((x.cplTail + 1) % 2 ^ 19) ((x.cplPushed + 1) % 2 ^ 32) x.cplHeld :=
    State.ctx_modCtx_self s c (fun x => { x with cplTail := (x.cplTail + 1) % 2 ^ 19, cplPushed := (x.cplPushed + 1) % 2 ^ 32 })
  split
  · refine ⟨htouches.trans (.of_pageFrame (sendMsix_pageFrame _ _ s1) c), _, _, _, Eq.trans ?_ hctx⟩
    simp [State.ctx]
  · exact ⟨htouches, _, _, _, hctx⟩

theorem drainHeld_drains (fuel c : Nat) (s : State) :
    TouchesContext c s (drainHeld fuel c s) ∧ ∃ a b h, (drainHeld fuel c s).ctx c = (s.ctx c).posted a b h := by
  induction fuel generalizing s with
  | zero => exact ⟨.of_pageFrame (.refl s) c, _, _, _, rfl⟩
  | succ fuel ih =>
    unfold drainHeld
    split
    · exact ⟨.of_pageFrame (.refl s) c, _, _, _, rfl⟩
    · next e irq rest _ =>
      split
      · have hdropped := modCtx_touchesContext c (fun x => { x with cplHeld := rest }) s
        have hctx := State.ctx_modCtx_self s c (fun x => { x with cplHeld := rest })
        obtain ⟨hwrites, a, b, h, hwrote⟩ := writeCompletion_drains c e irq (s.modCtx c (fun x => { x with cplHeld := rest }))
        obtain ⟨hdrains, a', b', h', hdrained⟩ := ih (writeCompletion c e irq (s.modCtx c (fun x => { x with cplHeld := rest })))
        exact ⟨hdropped.trans (hwrites.trans hdrains), a', b', h', by rw [hdrained, hwrote, hctx]; rfl⟩
      · exact ⟨.of_pageFrame (.refl s) c, _, _, _, rfl⟩

/-- A context that changes and then writes what it holds. -/
theorem drainCpl_modCtx (c : Nat) (f : Ctx → Ctx) (s : State) : TouchesContext c s (drainCpl c (s.modCtx c f)) ∧
    ∃ a b h, (drainCpl c (s.modCtx c f)).ctx c = (f (s.ctx c)).posted a b h := by
  obtain ⟨hdrains, a, b, h, hctx⟩ := drainHeld_drains ((s.modCtx c f).ctx c).cplHeld.length c (s.modCtx c f)
  exact ⟨(modCtx_touchesContext c f s).trans hdrains, a, b, h, hctx.trans (by rw [State.ctx_modCtx_self])⟩

/-! ### Doorbells (R201, R203) -/

theorem forEach_range {α : Type} (xs : List α) (d : α) (f : α → State → State) (s : State) :
    forEach (List.range xs.length) (fun k s => f (xs.getD k d) s) s = forEach xs f s := by
  have hxs : (List.range xs.length).map (xs.getD · d) = xs := by
    refine List.ext_getElem (by simp) (fun i hi _ => ?_)
    simp at hi
    simp [hi]
  exact (List.foldl_map (f := (xs.getD · d)) (g := fun s x => f x s)).symm.trans (by rw [hxs]; rfl)

/-- The TAG and the opcode of a descriptor (R274). -/
def descCommand (d : List Byte) : W32 × Nat := (BitVec.ofNat 32 (field d 4 4), field d 0 1)

/-- Well-formed descriptors are read in order. -/
theorem fetchOnes_fetched {c : CtxNum} {descs : List (List Byte)} (hok : ∀ d ∈ descs, descOk d c.val = true) (s : State) :
    TouchesContext c.val s (forEach descs (fetchOne c) s) ∧
      (forEach descs (fetchOne c) s).ctx c.val = { s.ctx c.val with fetched := (s.ctx c.val).fetched ++ descs.map descCommand } := by
  induction descs generalizing s with
  | nil => exact ⟨.of_pageFrame (.refl s) c.val, by simp [forEach]⟩
  | cons d ds ih =>
    have hfetch : fetchOne c d s = s.modCtx c.val (fun x => { x with fetched := x.fetched ++ [descCommand d] }) :=
      if_pos (hok d List.mem_cons_self)
    obtain ⟨htouches, hctx⟩ := ih (fun x hx => hok x (List.mem_cons_of_mem d hx)) (fetchOne c d s)
    rw [forEach_cons]
    refine ⟨TouchesContext.trans (by rw [hfetch]; exact modCtx_touchesContext c.val _ s) htouches, hctx.trans ?_⟩
    rw [hfetch, State.ctx_modCtx_self, List.map_cons, List.append_assoc]
    rfl

/-- An accepted doorbell counts the new commands and reads their descriptors. -/
theorem doorbell_accepted {s : State} {fn : Nat} {c : CtxNum} {v : W32} {descs : List (List Byte)} (hinj : (s.hdr .qmg).inj = 0)
    (hok : doorbellOk fn c.val (v.toNat % 2 ^ 19) s = true) (hnew : newCommands c.val (v.toNat % 2 ^ 19) s = descs.length) :
    doorbell fn c v descs s = forEach descs (fetchOne c) (s.modCtx c.val (fun x =>
      { x with cmdTail := (x.cmdTail + descs.length) % 2 ^ 19, cmdPushed := (x.cmdPushed + descs.length) % 2 ^ 32 })) := by
  have hread := readDescriptor_clean hinj (0x3F000 + c.val)
  unfold doorbell
  dsimp only
  rw [hok, hread]
  dsimp only
  rw [hnew, ← forEach_range descs []]
  rfl

/-- A doorbell that is not accepted is reported in ERR_STAT, and no context changes. -/
theorem doorbell_refused {s : State} {fn : Nat} {c : CtxNum} {v : W32} (hbad : doorbellOk fn c.val (v.toNat % 2 ^ 19) s = false)
    (descs : List (List Byte)) : PageFrame s (doorbell fn c v descs s) ∧
      ((doorbell fn c v descs s).hdr .qmg).errStat.getLsbD Bit.qmgDoorbell = true := by
  have hlock : PageFrame s (lockWrite .qmg s) := by
    have hframe := lockWrite_pageFrame .qmg s
    rwa [lockWrite_safe (by simp)] at hframe
  unfold doorbell
  dsimp only
  rw [hbad, Bool.not_false, if_pos rfl]
  refine ⟨PageFrame.trans ?_ (raise_pageFrame _ _ _), raise_sets .qmg Bit.qmgDoorbell _ (by decide)⟩
  split
  · exact hlock
  · exact .refl s

theorem receiveTlp_ctx (s : State) (c : Nat) : (receiveTlp s).ctx c = s.ctx c := by simp [State.ctx]

theorem receiveTlp_inRing (s : State) (c : Nat) : (receiveTlp s).inRing c = s.inRing c := by simp [State.inRing, receiveTlp_ctx]

theorem receiveTlp_doorbellOk (s : State) (fn c tail : Nat) : doorbellOk fn c tail (receiveTlp s) = doorbellOk fn c tail s := by
  unfold doorbellOk State.cmdHead
  rw [receiveTlp_ctx, receiveTlp_inRing]

theorem receiveTlp_newCommands (s : State) (c tail : Nat) : newCommands c tail (receiveTlp s) = newCommands c tail s := by
  simp [newCommands, receiveTlp_ctx, receiveTlp_inRing]

theorem exec_qmgDoorbell {s : State} (ha : s.answers .qmg = true) (fn : FnNum) (c : CtxNum) (v : W32) (descs : List (List Byte)) :
    exec (.qmgDoorbell fn c v descs) s = .next (doorbell fn.val c v descs (receiveTlp s)) := congrArg Host.Outcome.next (if_pos ha)

theorem qmgDoorbell_accepted {s : State} {fn : FnNum} {c : CtxNum} {v : W32} {descs : List (List Byte)} (ha : s.answers .qmg = true)
    (hinj : (s.hdr .qmg).inj = 0) (hok : doorbellOk fn.val c.val (v.toNat % 2 ^ 19) s = true)
    (hnew : newCommands c.val (v.toNat % 2 ^ 19) s = descs.length) (hdescs : ∀ d ∈ descs, descOk d c.val = true) :
    Completes (.qmgDoorbell fn c v descs) s (fun t =>
      (t.ctx c.val).fetched = (s.ctx c.val).fetched ++ descs.map descCommand ∧
      (t.ctx c.val).cmdTail = ((s.ctx c.val).cmdTail + descs.length) % 2 ^ 19 ∧
      (t.ctx c.val).cmdPushed = ((s.ctx c.val).cmdPushed + descs.length) % 2 ^ 32 ∧ OtherContexts c.val s t ∧
      PageFrame { s with ctxs := t.ctxs } t) := by
  have hbell := doorbell_accepted (s := receiveTlp s) (by rw [receiveTlp_hdr (by decide)]; exact hinj)
    ((receiveTlp_doorbellOk s _ _ _).trans hok) ((receiveTlp_newCommands s _ _).trans hnew)
  have hcounted := modCtx_touchesContext c.val (fun x =>
    { x with cmdTail := (x.cmdTail + descs.length) % 2 ^ 19, cmdPushed := (x.cmdPushed + descs.length) % 2 ^ 32 }) (receiveTlp s)
  obtain ⟨hfetched, hctx⟩ := fetchOnes_fetched hdescs ((receiveTlp s).modCtx c.val (fun x =>
    { x with cmdTail := (x.cmdTail + descs.length) % 2 ^ 19, cmdPushed := (x.cmdPushed + descs.length) % 2 ^ 32 }))
  have htouches := (TouchesContext.of_pageFrame (receiveTlp_pageFrame s) c.val).trans (hcounted.trans hfetched)
  rw [← hbell] at htouches hctx
  rw [State.ctx_modCtx_self, receiveTlp_ctx] at hctx
  exact ⟨_, exec_qmgDoorbell ha fn c v descs, by rw [hctx], by rw [hctx], by rw [hctx], htouches.others, htouches.frame⟩

theorem qmgDoorbell_refused {s : State} {fn : FnNum} {c : CtxNum} {v : W32} (ha : s.answers .qmg = true)
    (hbad : doorbellOk fn.val c.val (v.toNat % 2 ^ 19) s = false) (descs : List (List Byte)) :
    Completes (.qmgDoorbell fn c v descs) s (fun t => PageFrame s t ∧ (t.hdr .qmg).errStat.getLsbD 8 = true) := by
  obtain ⟨hframe, hbit⟩ := doorbell_refused ((receiveTlp_doorbellOk s _ _ _).trans hbad) descs
  exact ⟨_, exec_qmgDoorbell ha fn c v descs, (receiveTlp_pageFrame s).trans hframe, hbit⟩

/-! ### QMG_CTX_QCFG and QMG_CTX_CPL_HEAD (R204, R209, R414) -/

/-- A write behind QMG_CTX_SEL of the physical function or of a virtual one lands at the register of the selected context. -/
theorem hostWrite_ctxReg {s : State} (ha : s.answers .qmg = true) (fn : FnNum) {off : Nat} (hoff : off = 0x174 ∨ off = 0x178) (v : W32) :
    hostWrite fn.val (regAddr .qmg off) v s = writeCtxReg fn.val off v (receiveTlp s) := by
  have hland : hostWrite fn.val (regAddr .qmg off) v s = writeReg fn.val .qmg off v (receiveTlp s) :=
    hostWrite_page (page := Block.qmg.page) rfl fn.val (by omega) v s
  have hreg : ∃ a, regAccess .qmg off = some a ∧ a ≠ .ro := by
    rcases hoff with rfl | rfl
    · exact ⟨.rw, rfl, by decide⟩
    · exact ⟨.wo, rfl, by decide⟩
  have hphysical : writeBody .qmg off v (receiveTlp s) = writeCtxReg 0 off v (receiveTlp s) := by
    rcases hoff with rfl | rfl <;> rfl
  have hvirtual : writeVirtual fn.val .qmg off v (receiveTlp s) = writeCtxReg fn.val off v (receiveTlp s) := by
    rcases hoff with rfl | rfl <;> rfl
  obtain ⟨a, hacc, hro⟩ := hreg
  rw [hland]
  unfold writeReg
  rw [receiveTlp_answers, ha, hacc]
  by_cases hfn : fn.val = 0
  · rw [hfn]
    simpa [hro, show ¬ off < 0x100 by omega] using hphysical
  · simpa [hro, hfn] using hvirtual

/-- A write at the register of the context that the function has selected. -/
theorem writeCtxReg_selected {s : State} {fn : FnNum} {c : Nat} (hsel : s.selCtx fn.val .qmg 0x160 = some c) (v : W32) :
    writeCtxReg fn.val 0x174 v (receiveTlp s) = writeQcfg c v (receiveTlp s) ∧
      writeCtxReg fn.val 0x178 v (receiveTlp s) = writeCplHead c v (receiveTlp s) := by
  have hsel' : (receiveTlp s).selCtx fn.val .qmg 0x160 = some c := by
    rw [← hsel]
    simp [State.selCtx, State.sel, receiveTlp_ctx]
  unfold writeCtxReg
  rw [hsel']
  exact ⟨rfl, rfl⟩

/-- A command that has been read and not started, of those that wait inside the device (R196, R209). -/
def notStarted (c : Nat) (h : Held) : Bool := h.ctx == c && (h.why == .epochs || h.why == .behind)

theorem filter_notLost (c : Nat) (hs : List Held) :
    hs.filter (fun h => !(hs.filter (notStarted c)).contains h) = hs.filter (fun h => !notStarted c h) :=
  List.filter_congr (fun h hmem => by simp [hmem])

/-- The commands of a context that run on when EN falls. -/
def started (c : Nat) (s : State) : List Running :=
  (s.ctx c).running.filter (fun r => !s.ctl.waiting.any (fun h => notStarted c h && h.order == r.order))

/-- EN from 1 to 0: the commands not yet started go, and the context retires while others run. -/
theorem retireCtx_effect (c : Nat) (s : State) : OtherContexts c s (retireCtx c s) ∧
    retireCtx c s = { s with ctxs := (retireCtx c s).ctxs, ctl := { s.ctl with waiting := (retireCtx c s).ctl.waiting } } ∧
    (retireCtx c s).ctl.waiting = s.ctl.waiting.filter (fun h => !notStarted c h) ∧
    (retireCtx c s).ctx c = { s.ctx c with en := false, fetched := [], running := started c s, retiring := !(started c s).isEmpty } := by
  refine ⟨fun d hd => State.ctx_modCtx_ne _ _ hd, rfl, filter_notLost c s.ctl.waiting, (State.ctx_modCtx_self _ c _).trans ?_⟩
  unfold started
  simp only [← List.any_filter]
  rfl

/-- A context that takes the depths of its rings (R209). -/
def Ctx.sized (v : W32) (x : Ctx) : Ctx := { x with cplLog2 := bitField v.toNat 4 4, cmdLog2 := bitField v.toNat 0 4 }

/-- A context whose queues are enabled: every count starts at 0 (R209). -/
def Ctx.enabled (x : Ctx) : Ctx :=
  { x with en := true, retiring := false, cmdFault := false, cplFault := false, cmdTail := 0, cplHead := 0, cplTail := 0, cmdPushed := 0,
           cplPushed := 0, fetched := [] }

theorem Ctx.sized_log2 (v : W32) (x : Ctx) : (x.sized v).cplLog2 = v.toNat / 16 % 16 ∧ (x.sized v).cmdLog2 = v.toNat % 16 :=
  ⟨congrArg (· % 16) (Nat.shiftRight_eq_div_pow v.toNat 4), rfl⟩

/-- QMG_CTX_QCFG of a context with EN = 0 that leaves EN at 0 takes the depths. -/
theorem writeQcfg_sized {s : State} {c : Nat} {v : W32} (hen : (s.ctx c).en = false) (hv : v.getLsbD 8 = false) :
    TouchesContext c s (writeQcfg c v s) ∧ (writeQcfg c v s).ctx c = (s.ctx c).sized v := by
  have heq : writeQcfg c v s = s.modCtx c (Ctx.sized v) := by
    unfold writeQcfg
    dsimp only
    rw [hen, hv]
    rfl
  rw [heq]
  exact ⟨modCtx_touchesContext c _ s, State.ctx_modCtx_self s c _⟩

/-- EN from 0 to 1: besides, every count starts at 0, and the completions that were held are written. -/
theorem writeQcfg_enabled {s : State} {c : Nat} {v : W32} (hen : (s.ctx c).en = false) (hv : v.getLsbD 8 = true) :
    TouchesContext c s (writeQcfg c v s) ∧ ∃ a b h, (writeQcfg c v s).ctx c = ((s.ctx c).sized v).enabled.posted a b h := by
  have heq : writeQcfg c v s = drainCpl c ((s.modCtx c (Ctx.sized v)).modCtx c Ctx.enabled) := by
    unfold writeQcfg
    dsimp only
    rw [hen, hv]
    rfl
  obtain ⟨hdrains, a, b, h, hctx⟩ := drainCpl_modCtx c Ctx.enabled (s.modCtx c (Ctx.sized v))
  rw [heq]
  exact ⟨(modCtx_touchesContext c _ s).trans hdrains, a, b, h, by rw [hctx, State.ctx_modCtx_self]⟩

/-- With EN = 1 a write of QMG_CTX_QCFG does nothing but clear EN. -/
theorem writeQcfg_running {s : State} {c : Nat} (hen : (s.ctx c).en = true) (v : W32) :
    writeQcfg c v s = if v.getLsbD 8 then s else retireCtx c s := by
  unfold writeQcfg
  dsimp only
  rw [hen, if_pos rfl]

/-- What a write of QMG_CTX_QCFG of value `v` to context `c` leaves. -/
structure Configures (c : Nat) (v : W32) (s t : State) : Prop where
  en : (t.ctx c).en = v.getLsbD 8
  others : OtherContexts c s t
  frame : PageFrame { s with ctxs := t.ctxs, ctl := { s.ctl with waiting := t.ctl.waiting } } t
  stays : (s.ctx c).en = true → v.getLsbD 8 = true → t.ctx c = s.ctx c
  ctl : (s.ctx c).en = false ∨ v.getLsbD 8 = true → t.ctl = s.ctl
  retires : (s.ctx c).en = true → v.getLsbD 8 = false → (t.ctx c).fetched = [] ∧
    t.ctl.waiting = s.ctl.waiting.filter (fun h => !notStarted c h) ∧ (t.ctx c).running = started c s ∧
    (t.ctx c).retiring = !(t.ctx c).running.isEmpty
  enables : (s.ctx c).en = false → (t.ctx c).cplLog2 = v.toNat / 16 % 16 ∧ (t.ctx c).cmdLog2 = v.toNat % 16 ∧
    (v.getLsbD 8 = true → (t.ctx c).cmdTail = 0 ∧ (t.ctx c).cplHead = 0 ∧ (t.ctx c).cmdPushed = 0 ∧ (t.ctx c).fetched = [] ∧
      (t.ctx c).cmdFault = false ∧ (t.ctx c).cplFault = false)

/-- A frame that leaves CTL alone leaves its waiting commands alone. -/
theorem TouchesContext.frame_waiting {c : Nat} {s t : State} (h : TouchesContext c s t) :
    PageFrame { s with ctxs := t.ctxs, ctl := { s.ctl with waiting := t.ctl.waiting } } t := by
  rw [h.ctl]
  exact h.frame

theorem writeQcfg_configures (c : Nat) (v : W32) (s : State) : Configures c v s (writeQcfg c v s) := by
  cases hen : (s.ctx c).en with
  | true =>
    have hoff : (s.ctx c).en ≠ false := by rw [hen]; decide
    rw [writeQcfg_running hen]
    cases hv : v.getLsbD 8 with
    | true =>
      have hset : v.getLsbD 8 ≠ false := by rw [hv]; decide
      exact ⟨by rw [hv]; exact hen, fun _ _ => rfl, rfl, fun _ _ => rfl, fun _ => rfl, fun _ h => absurd h hset, fun h => absurd h hoff⟩
    | false =>
      have hclear : v.getLsbD 8 ≠ true := by rw [hv]; decide
      obtain ⟨hothers, hframe, hwaiting, hctx⟩ := retireCtx_effect c s
      refine ⟨?_, hothers, hframe, fun _ h => absurd h hclear, fun h => absurd h (not_or_intro hoff hclear), fun _ _ => ?_,
        fun h => absurd h hoff⟩
      · rw [hv]
        exact congrArg Ctx.en hctx
      · exact ⟨congrArg Ctx.fetched hctx, hwaiting, congrArg Ctx.running hctx, congrArg Ctx.retiring hctx |>.trans
          (congrArg (!List.isEmpty ·) (congrArg Ctx.running hctx).symm)⟩
  | false =>
    have hoff : (s.ctx c).en ≠ true := by rw [hen]; decide
    cases hv : v.getLsbD 8 with
    | true =>
      obtain ⟨htouches, a, b, h, hctx⟩ := writeQcfg_enabled hen hv
      have hsized := Ctx.sized_log2 v (s.ctx c)
      refine ⟨?_, htouches.others, htouches.frame_waiting, fun h => absurd h hoff, fun _ => htouches.ctl, fun h => absurd h hoff,
        fun _ => ?_⟩
      · rw [hctx, hv]
        rfl
      · rw [hctx]
        exact ⟨hsized.1, hsized.2, fun _ => ⟨rfl, rfl, rfl, rfl, rfl, rfl⟩⟩
    | false =>
      have hclear : v.getLsbD 8 ≠ true := by rw [hv]; decide
      obtain ⟨htouches, hctx⟩ := writeQcfg_sized hen hv
      have hsized := Ctx.sized_log2 v (s.ctx c)
      refine ⟨?_, htouches.others, htouches.frame_waiting, fun h => absurd h hoff, fun _ => htouches.ctl, fun h => absurd h hoff,
        fun _ => ?_⟩
      · rw [hctx, hv]
        exact hen
      · rw [hctx]
        exact ⟨hsized.1, hsized.2, fun h => absurd h hclear⟩

/-- The arrival of the packet that carries the write changes none of this. -/
theorem Configures.of_receiveTlp {c : Nat} {v : W32} {s t : State} (h : Configures c v (receiveTlp s) t) : Configures c v s t := by
  obtain ⟨hen, hothers, hframe, hstays, hctl, hretires, henables⟩ := h
  have hreceived := receiveTlp_ctx s
  have hsame : (receiveTlp s).ctl = s.ctl := by simp
  have hstarted : started c (receiveTlp s) = started c s := by
    unfold started
    rw [hreceived, hsame]
  rw [hreceived] at hstays hctl hretires henables
  rw [hsame] at hframe hctl hretires
  rw [hstarted] at hretires
  refine ⟨hen, fun d hd => (hothers d hd).trans (hreceived d), ?_, hstays, hctl, hretires, henables⟩
  have hpage := receiveTlp_pageFrame s
  unfold PageFrame at *
  rw [hframe, hpage]

theorem qcfgWrite_completes {s : State} {fn : FnNum} {c : Nat} {v : W32} (ha : s.answers .qmg = true)
    (hsel : s.selCtx fn.val .qmg 0x160 = some c) : Completes (.qmgCtxQcfgWrite fn v) s (Configures c v s) := by
  have hland := (hostWrite_ctxReg ha fn (.inl rfl) v).trans (writeCtxReg_selected hsel v).1
  exact ⟨_, congrArg Host.Outcome.next hland, (writeQcfg_configures c v _).of_receiveTlp⟩

theorem cplHeadWrite_completes {s : State} {fn : FnNum} {c : Nat} {v : W32} (ha : s.answers .qmg = true)
    (hsel : s.selCtx fn.val .qmg 0x160 = some c) : Completes (.qmgCtxCplHeadWrite fn v) s (fun t =>
      (t.ctx c).cplHead = v.toNat % 2 ^ 19 ∧ OtherContexts c s t ∧ PageFrame { s with ctxs := t.ctxs } t) := by
  have hland := (hostWrite_ctxReg ha fn (.inr rfl) v).trans (writeCtxReg_selected hsel v).2
  obtain ⟨hdrains, a, b, h, hctx⟩ := drainCpl_modCtx c (fun x => { x with cplHead := v.toNat % 2 ^ 19 }) (receiveTlp s)
  have htouches := (TouchesContext.of_pageFrame (receiveTlp_pageFrame s) c).trans hdrains
  exact ⟨_, congrArg Host.Outcome.next hland, congrArg Ctx.cplHead hctx, htouches.others, htouches.frame⟩

/-- Settles O25: a doorbell reads descriptors or is reported, and a write at a queue register changes the selected context, after the
arrival of the packet that carries it. -/
theorem contextQueueWritesComplete : Obligations.ContextQueueWritesComplete := by
  unfold Obligations.ContextQueueWritesComplete
  refine ⟨fun s fn c v descs ha hinj => ⟨qmgDoorbell_accepted ha hinj, fun hbad => qmgDoorbell_refused ha hbad descs⟩,
    fun s fn c v ha hsel => ⟨?_, cplHeadWrite_completes ha hsel⟩⟩
  obtain ⟨t, hexec, hconfigures⟩ := qcfgWrite_completes (v := v) ha hsel
  obtain ⟨hen, hothers, hframe, hstays, hctl, hretires, henables⟩ := hconfigures
  exact ⟨t, hexec, hen, hothers, hframe, hstays, hctl, hretires, henables⟩

end Sys2Proof.Machine
